-- ==== Sys2Proof/Word.lean ====
section
/-!
DEFINITION. Word.lean: the 32-bit word, the byte, and the plainest bit-field arithmetic over them
(00_scope.md, Notation: a word is 32 bits, bit ranges are written [msb:lsb]).
-/
namespace Sys2Proof

/-- A word is 32 bits (00_scope.md, Notation). -/
abbrev Word := BitVec 32

/-- A byte. -/
abbrev Byte := BitVec 8

/-- A number as a word, modulo 2^32. -/
def w32 (n : Nat) : Word := BitVec.ofNat 32 n

/-- An integer as a word, two's complement. -/
def w32i (n : Int) : Word := BitVec.ofInt 32 n

/-- Bits [hi:lo] of a word as a number. -/
def fld (w : Word) (hi lo : Nat) : Nat := (w.toNat >>> lo) % 2 ^ (hi + 1 - lo)

/-- Bit i of a word. -/
def bitOf (w : Word) (i : Nat) : Bool := w.toNat.testBit i

/-- A truth value as a bit. -/
def b2n (b : Bool) : Nat := if b then 1 else 0

/-- A number taken modulo 2^64 (the width of an instant and of a round number). -/
def u64 (n : Int) : Nat := (n % 18446744073709551616).toNat

/-- The low word of a 64-bit value. -/
def lo32 (n : Int) : Word := w32 (u64 n % 4294967296)

/-- The high word of a 64-bit value. -/
def hi32 (n : Int) : Word := w32 (u64 n / 4294967296)

/-- A 64-bit value from its low and high words. -/
def join64 (lo hi : Word) : Nat := lo.toNat + 4294967296 * hi.toNat

end Sys2Proof
end

