-- ==== Sys2Proof/Syntax.lean ====
section
/-!
DEFINITION. Syntax.lean: the commands the OB4820 takes from outside, one constructor per row of spec/opcode_table.json, and the
operand types they carry. A command that is an event of the part's own (a strobe, the end of a stage's work) carries the
instant it falls at and whatever the part reads from outside at that moment (a converter's samples, a frame's bytes, a
sensor's reading, the outcome of a check on stored or carried data).
-/
namespace Sys2Proof

/-- The two fibre ports (R30). -/
inductive Port | p0 | p1
deriving DecidableEq, Repr

/-- The two polarisations; each port has one converter for each (R56). -/
inductive Pol | x | y
deriving DecidableEq, Repr

/-- The two lanes; Lane X drives channel A and Lane Y channel B (R251). -/
inductive Lane | x | y
deriving DecidableEq, Repr

/-- The eight power domains, in the order of their record-source codes (R428). -/
inductive Dom | aon | port0 | port1 | lanex | laney | ring | host | field
deriving DecidableEq, Repr

/-- The reference inputs (R47). -/
inductive RefIn | a | b | pcie
deriving DecidableEq, Repr

/-- The three filter chains FCH0, FCH1 and FCH-FIELD (R95, R121). -/
inductive Fch | f0 | f1 | field
deriving DecidableEq, Repr

/-- The topology banks (R423). -/
inductive Bank | a | b
deriving DecidableEq, Repr

/-- The resources a queued job occupies (R374). -/
inductive Resource | host | lanes | nvm | port0 | port1
deriving DecidableEq, Repr

/-- The data rings (R327): STR0 to STR7, REC (`recorder`) and HIS (`history`). -/
inductive DataRing | str (n : Fin 8) | recorder | history
deriving DecidableEq, Repr

/-- A command descriptor as the HRE read it (R316), without its opcode, which the command names; `index` is its CMD ring
index, `t` the instant of examination, `buf` what a read of the host buffer it names returned (`none`: a DMA error, R310), `cross` the
lanes at which the crossing check failed when the command was delivered (R189, R403). -/
structure HostCmd where
  t : Int
  index : Word
  tag : BitVec 16
  reserved : BitVec 7
  franked : Bool
  ccount : Word
  a0 : Word
  a1 : Word
  a2 : Word
  a3 : Word
  w6 : Word
  w7 : Word
  buf : Option (List Byte)
  cross : List Lane
deriving DecidableEq, Repr

/-- A command descriptor met on the CMD ring by a poll: its index, its eight words, or `none` when the read of them met a DMA error (check 1 of
R317), and of the command they spell what `HostCmd` holds beside the descriptor. -/
structure RingCmd where
  t : Int
  index : Word
  words : Option (List Word)
  buf : Option (List Byte)
  cross : List Lane
deriving DecidableEq, Repr

/-- A posted buffer descriptor of a data ring (R327). -/
structure Posted where
  ring : DataRing
  index : Word
  addr : Nat
  length : Nat
deriving DecidableEq, Repr

/-- One poll of the letterbox host area (R311, R313): the 16 words read, or `none` for a DMA error, the command descriptors
and the posted buffer descriptors that the new indices cover. -/
structure PollRead where
  t : Int
  area : Option (List Word)
  cmds : List RingCmd
  posts : List Posted
deriving DecidableEq, Repr

/-- What a debug read names (R392). -/
inductive DbgTarget
  | register (off : Nat)
  | slate (dom : Dom) (k : Nat)
  | nvm (word : Nat)
deriving DecidableEq, Repr

/-- What DBG_LANE does in the target lane (R393). -/
inductive DbgLaneOp
  | halt | step | resume
  | writeCount (sec : Nat) (count : Int)
  | writeSlate (k : Nat) (words : List Word)
  | inject (check : Nat)
deriving DecidableEq, Repr

/-- A reference against another over a window of 1 ms (R47): whether it was there, and their difference in 0.1 ppm. -/
structure RefMeas where
  present : Bool
  diff : Int
deriving DecidableEq, Repr

/-- What a domain's start found (R77, R443): its supply in range, and the ROMs whose check failed, as ROM_FAIL numbers them. -/
structure RampRead where
  inRange : Bool
  roms : List Nat
deriving DecidableEq, Repr

/-- A stream block that fails its crossing check on the way to HOST (R403): the line sample it was formed with, its definition and segment, and
whether it was on its way to the HSC or to the HRE. -/
structure StreamCross where
  n : Int
  d : Nat
  seg : Nat
  hsc : Bool
deriving DecidableEq, Repr

/-- The checks on what a lane sends (R189, R403): the read-back of a count message, and the crossing check on the way to RING. -/
structure SendCheck where
  readBackOk : Bool
  ringOk : Bool
deriving DecidableEq, Repr

/-- The release of the extended multiblock that a converter began at LEMC boundary k (R62). -/
structure MultiblockRelease where
  t : Int
  port : Port
  pol : Pol
  k : Int
deriving DecidableEq, Repr

/-- What reached one lane since the last arrival (R58, R60): the lane of the port pair's eight, counts of consecutive valid sync headers, of invalid
ones within 64, of pilots in a row at their place, whether the expected pilot is missing, when the final pilot of the extended multiblock of
boundary k arrived, its 256 octets, and whether the CRC-12 that came with it passed, which is the extended multiblock's before it (R68). -/
structure LaneArrival where
  lane : Fin 8
  validRun : Nat
  invalidIn64 : Nat
  pilotRun : Nat
  pilotMissing : Bool
  k : Int
  pilotAt : Int
  octets : List Byte
  crcOk : Bool
deriving DecidableEq, Repr

/-- A slate that failed its check at a fetch of a port or FIELD engine (R18): the physical slate, its use (R434: 0 mailbag data, 1 mailbag
marks, 2 references and slow phase, 3 FCH state, 4 other), the first instants of the mailbag data slates concerned, the bins concerned. -/
structure SlateFail where
  phys : Nat
  use : Nat
  starts : List Int
  bins : List Nat
deriving DecidableEq, Repr

/-- A frame as a round port takes it from the line (R256): the arrival of its first and last code groups, whether every code
group was valid, and the bytes between /S/ and /T/. -/
structure FrameRx where
  port : Nat
  t : Int
  tEnd : Int
  codeOk : Bool
  bytes : List Byte
deriving DecidableEq, Repr

/-- A character as the legacy round port receives it (R276): the instant of its start bit, its address bit, its stop bit, its data. -/
structure CharRx where
  t : Int
  addr : Bool
  stop : Bool
  data : Byte
deriving DecidableEq, Repr

/-- What goes wrong in a lane in a tick (R187 to R189), by check number of LANE_FAULT (R434): the lane, the check that covers it, and the slate, section
or step concerned; for checks 1 and 3 by how much the result, or the number handled in the step, is wrong. -/
structure CheckFail where
  lane : Lane
  check : Nat
  detail : Nat
  err : Int
deriving DecidableEq, Repr

/-- What the part reads from itself at a ledger tick beside its state: the checks that failed in each lane, the difference of
each domain's counter from Lane X's and from Lane Y's (R23; in a lane's own entry its own place holds the difference from AON's counter, R189),
the safety tokens completed and demanded by each domain (R26), the ROM checks that failed, as ROM_FAIL numbers them, with their domain (R77), and the lanes
whose completions of this tick fail their crossing check to the HRE (R403). In ridge
role the two differences are from RING's counter and from AON's (R300). -/
structure TickIn where
  t : Int
  fails : List CheckFail
  counters : List (Dom × Int × Int)
  tokens : List (Dom × Nat × Nat)
  roms : List (Nat × Dom)
  hreLost : List Lane
deriving DecidableEq, Repr

/-- Measurements of a budget period (R369): mean VIN current in mA, junction temperature in 0.1 °C, and each domain's share of
the current in mA. -/
structure BudgetMeas where
  iAvg : Int
  tj : Int
  share : List (Dom × Int)
deriving DecidableEq, Repr

/-- The capabilities of the function (R309). -/
inductive PciCap | power | msix | express | errors
deriving DecidableEq, Repr

/-- A PCIe configuration request (R309, R442): a read of a word, a read of word k of a capability's structure, or a write of a field that the model
holds. -/
inductive CfgReq
  | capability (c : PciCap) (k : Nat)
  | bar (addr : BitVec 64)
  | read (off : Nat)
  | functionMask (on : Bool)
  | vectorMask (v : Nat) (on : Bool)
  | ecrc (gen chk : Bool)
  | busMaster (on : Bool)
deriving DecidableEq, Repr

/-- What a ledger takes at LEDGER_ITEM_TAKE (R160): the next event or status of its HEN queue, or of its RCT. -/
inductive ItemSource | hen | rct
deriving DecidableEq, Repr

/-- What a ridge branch receives (R301). -/
inductive BranchRx
  | frame (bytes : List Byte)
  | claim (id len check : Byte)
  | unreadable
deriving DecidableEq, Repr

/-- The two ring directions of the RSW (R304): out of RP3, and out of RP2. -/
inductive RingDir | towardRp3 | towardRp2
deriving DecidableEq, Repr

/-- The commands: one constructor per row of spec/opcode_table.json, in the table's order. -/
inductive Instr
  /-- NOP (R320). -/
  | nop (c : HostCmd)
  /-- PORT_START (R52). -/
  | portStart (c : HostCmd)
  /-- PORT_STOP (R52). -/
  | portStop (c : HostCmd)
  /-- PLAN_APPLY (R53). -/
  | planApply (c : HostCmd)
  /-- GROUP_RETUNE (R54). -/
  | groupRetune (c : HostCmd)
  /-- GAUGE_SET (R92). -/
  | gaugeSet (c : HostCmd)
  /-- REFCLK_SELECT (R47). -/
  | refclkSelect (c : HostCmd)
  /-- LINK_READMIT (R60). -/
  | linkReadmit (c : HostCmd)
  /-- FILTER_SYNC (R115). -/
  | filterSync (c : HostCmd)
  /-- BANK_SWAP (R114). -/
  | bankSwap (c : HostCmd)
  /-- HEAD_FLUSH (R141). -/
  | headFlush (c : HostCmd)
  /-- HEAD_STATS (R321). -/
  | headStats (c : HostCmd)
  /-- PREP_RESET (R176). -/
  | prepReset (c : HostCmd)
  /-- COND_RESET (R176). -/
  | condReset (c : HostCmd)
  /-- DIRECT_RESET (R176). -/
  | directReset (c : HostCmd)
  /-- RESTORE_CONFIRM (R176). -/
  | restoreConfirm (c : HostCmd)
  /-- SECTION_STATS (R321). -/
  | sectionStats (c : HostCmd)
  /-- LANE_RETIRE (R199). -/
  | laneRetire (c : HostCmd)
  /-- LANE_READMIT (R200). -/
  | laneReadmit (c : HostCmd)
  /-- TOPO_SWITCH (R424). -/
  | topoSwitch (c : HostCmd)
  /-- SEED_SAVE (R224). -/
  | seedSave (c : HostCmd)
  /-- SURVEY (R216). -/
  | survey (c : HostCmd)
  /-- LEGACY_CAL (R220). -/
  | legacyCal (c : HostCmd)
  /-- SWEEP_CAL (R222). -/
  | sweepCal (c : HostCmd)
  /-- REC_READ (R432). -/
  | recRead (c : HostCmd)
  /-- REC_FREEZE (R433). -/
  | recFreeze (c : HostCmd)
  /-- REC_UNFREEZE (R433). -/
  | recUnfreeze (c : HostCmd)
  /-- HIS_RETRIEVE (R354). -/
  | hisRetrieve (c : HostCmd)
  /-- DIAG_POST (R320). -/
  | diagPost (c : HostCmd)
  /-- DEBUG_CHALLENGE (R394). -/
  | debugChallenge (c : HostCmd)
  /-- DEBUG_RESPONSE (R394). -/
  | debugResponse (c : HostCmd)
  /-- DEBUG_CLOSE (R395). -/
  | debugClose (c : HostCmd)
  /-- LIFECYCLE_SET (R382). -/
  | lifecycleSet (c : HostCmd)
  /-- ATTEST (R390). -/
  | attest (c : HostCmd)
  /-- POWER_REQUEST (R365). -/
  | powerRequest (c : HostCmd)
  /-- IDCODE (R393). -/
  | idcode (t : Int)
  /-- BYPASS (R393). -/
  | bypass (t : Int)
  /-- SAMPLE_PRELOAD (R393). -/
  | samplePreload (t : Int) (balls : List Bool)
  /-- DBG_READ (R393). -/
  | dbgRead (t : Int) (what : DbgTarget)
  /-- DBG_LANE (R393). -/
  | dbgLane (t : Int) (op : DbgLaneOp)
  /-- EXTEST (R393). -/
  | extest (t : Int)
  /-- INTEST (R393). -/
  | intest (t : Int)
  /-- CLAMP (R393). -/
  | clamp (t : Int)
  /-- HIGHZ (R393). -/
  | highz (t : Int)
  /-- SCAN (R393). -/
  | scan (t : Int)
  /-- KEY_LOAD (R385). -/
  | keyLoad (t : Int) (slot : Fin 5) (key : BitVec 128) (same : Bool)
  /-- TRST_N_RESET (R435). -/
  | trstNReset (t : Int)
  /-- REGISTER_WRITE (R5). -/
  | registerWrite (t : Int) (off : Nat) (aligned : Bool) (value : Word)
  /-- RWP_WRITE (R415). -/
  | rwpWrite (t : Int) (off : Nat) (value : Word)
  /-- TABLE_WINDOW_WRITE (R423). -/
  | tableWindowWrite (t : Int) (word : Nat) (value : Word)
  /-- HRE_KNOCK (R313). -/
  | hreKnock (t : Int) (value : Word)
  /-- HRE_CTL_RUN (R314). -/
  | hreCtlRun (t : Int) (run : Bool)
  /-- HRE_RING_ENABLE (R314). -/
  | hreRingEnable (t : Int) (ring : Fin 13) (value : Word)
  /-- FCH_SYNCNT_ARM (R115). -/
  | fchSyncntArm (t : Int) (inst : Fch) (high : Word)
  /-- FCH_RSMP_WRITE (R120). -/
  | fchRsmpWrite (t : Int) (inst : Fch) (value : Word)
  /-- BSC_DOMCTL_OFF (R362). -/
  | bscDomctlOff (t : Int) (off : BitVec 4)
  /-- BSC_DOMCTL_RESTART (R361). -/
  | bscDomctlRestart (t : Int) (bits : BitVec 4)
  /-- HSC_REG_ENABLE (R351). -/
  | hscRegEnable (t : Int) (k : Fin 16) (en : Bool)
  /-- HSC_REG_HOLD (R353). -/
  | hscRegHold (t : Int) (k : Fin 16) (hold : Bool)
  /-- HSC_SDEF_ENABLE (R340). -/
  | hscSdefEnable (t : Int) (d : Fin 16) (en : Bool)
  /-- LHF_EXCITATION_CHANGE (R244). -/
  | lhfExcitationChange (t : Int) (sys : Fin 8) (ctl : Bool) (value : Word)
  /-- COUNTER_READ (R459). -/
  | counterRead (t : Int) (off : Nat)
  /-- MULTIWORD_READ_LATCH (R450). -/
  | multiwordReadLatch (t : Int) (off : Nat)
  /-- VIN_RETURN (R437). -/
  | vinReturn (t : Int) (tj : Int)
  /-- POWER_FAIL (R378). -/
  | powerFail (t : Int) (stepsDone : Nat)
  /-- AON_LOSS (R359). -/
  | aonLoss (t : Int)
  /-- VIN_LOW (R359). -/
  | vinLow (t : Int) (mv : Nat)
  /-- VIN_HIGH (R359). -/
  | vinHigh (t : Int) (mv : Nat)
  /-- RESET_N_ASSERT (R435). -/
  | resetNAssert (t : Int)
  /-- RESET_N_RELEASE (R435). -/
  | resetNRelease (t : Int) (tj : Int)
  /-- WAKE_N (R438). -/
  | wakeN (t : Int) (tj : Int)
  /-- PERST_N (R435). -/
  | perstN (t : Int)
  /-- FUNCTION_LEVEL_RESET (R337). -/
  | functionLevelReset (t : Int)
  /-- D3HOT_ENTRY (R337). -/
  | d3hotEntry (t : Int)
  /-- PCIE_LINK_DOWN (R337). -/
  | pcieLinkDown (t : Int)
  /-- BUS_MASTER_DISABLE (R337). -/
  | busMasterDisable (t : Int)
  /-- HOST_TIMEOUT (R337). -/
  | hostTimeout (t : Int)
  /-- SYNC_IN_EDGE (R115). -/
  | syncInEdge (t : Int)
  /-- SYSREF_EDGE (R61). -/
  | sysrefEdge (t : Int) (port : Port)
  /-- REF_LOSS (R47). -/
  | refLoss (t : Int) (ref : RefIn)
  /-- REF_MONITOR_WINDOW (R47): which of REFCLK_A, REFCLK_B and the PCIe clock were present throughout the window, with the differences A − B, B − PCIe and A − PCIe. -/
  | refMonitorWindow (t : Int) (a b p : RefMeas)
  /-- HOLDOVER_EXPIRY (R49). -/
  | holdoverExpiry (t : Int)
  /-- REF_RETURN (R49). -/
  | refReturn (t : Int) (ref : RefIn)
  /-- REF_AVAILABLE (R47). -/
  | refAvailable (t : Int) (ref : RefIn)
  /-- REFERENCE_SELECT (R439). -/
  | referenceSelect (t : Int) (ref : Option RefIn)
  /-- LANE_SELFTEST_DONE (R441). -/
  | laneSelftestDone (t : Int) (lane : Lane) (pass : Bool)
  /-- BRINGUP_COMPLETE (R443). -/
  | bringupComplete (t : Int)
  /-- DOMAIN_RAMP_END (R360): with the ROMs that fail their check at start-up, as ROM_FAIL numbers them (R77). -/
  | domainRampEnd (t : Int) (dom : Dom) (r : RampRead)
  /-- DOMAIN_TRIP (R360). -/
  | domainTrip (t : Int) (dom : Dom) (cause : Fin 3)
  /-- DOMAIN_RESTART (R361). -/
  | domainRestart (t : Int) (dom : Dom)
  /-- AON_TRIP (R361). -/
  | aonTrip (t : Int)
  /-- HOST_ECC_INIT_DONE (R352). -/
  | hostEccInitDone (t : Int)
  /-- STANDBY_ENTRY (R365). -/
  | standbyEntry (t : Int)
  /-- PLAN_START_AT_T0 (R52). -/
  | planStartAtT0 (t : Int) (port : Port)
  /-- PORT_STOP_EFFECT (R52). -/
  | portStopEffect (t : Int) (port : Port)
  /-- PLAN_CHANGE_AT_P (R53). -/
  | planChangeAtP (t : Int) (port : Port)
  /-- SHOT (R42). -/
  | shot (t : Int) (port : Port)
  /-- EXTENDED_MULTIBLOCK_RELEASE (R62). -/
  | extendedMultiblockRelease (m : MultiblockRelease)
  /-- LINE_SAMPLE_HANDOVER (R68). -/
  | lineSampleHandover (t : Int) (port : Port)
  /-- PACE_REQUEST (R371). -/
  | paceRequest (t : Int) (port : Port) (m : BudgetMeas)
  /-- CHANNELISER_BLOCK (R80). -/
  | channeliserBlock (t : Int) (port : Port) (slateFails : List SlateFail)
  /-- CORNER_TURN_BLOCK_CLOSE (R95). -/
  | cornerTurnBlockClose (t : Int) (inst : Fch) (slateFails : List SlateFail) (cross : List StreamCross)
  /-- ZONE_SAMPLE (R127). -/
  | zoneSample (t : Int) (inst : Fch) (fails : List CheckFail) (slateFails : List (Lane × Nat))
  /-- LEDGER_ITEM_TAKE (R160). -/
  | ledgerItemTake (t : Int) (lane : Lane) (source : ItemSource)
  /-- LEDGER_TICK (R161). -/
  | ledgerTick (k : TickIn)
  /-- DIGEST_TRANSFER_RECEIVE (R192). -/
  | digestTransferReceive (t : Int) (lane : Lane) (crcOk : Bool) (round : Word) (digests : List Word) (located : List Lane)
  /-- COMPARISON_TIMEOUT (R192). -/
  | comparisonTimeout (t : Int) (lane : Lane)
  /-- BLOCK_RELEASE (R193). -/
  | blockRelease (t : Int) (lane : Lane) (block : Fin 64) (aonOk hostOk : Bool)
  /-- READMIT_SELFTEST_DONE (R201). -/
  | readmitSelftestDone (t : Int) (lane : Lane) (pass : Bool)
  /-- FRAME_SEND (R256). -/
  | frameSend (t : Int) (lane : Lane) (index : Nat) (dyn : Bool) (checks : SendCheck)
  /-- CLAIM_SEND (R270). -/
  | claimSend (t : Int) (lane : Lane) (id : Nat)
  /-- FRAME_RECEIVE (R260). -/
  | frameReceive (f : FrameRx) (crossOk : Bool)
  /-- CLAIM_RECEIVE (R270). -/
  | claimReceive (t : Int) (port : Nat) (id : Nat) (rx : BranchRx)
  /-- LETTERS_MERGE (R269). -/
  | lettersMerge (t : Int) (lane : Lane) (node : Nat)
  /-- MASTER_DECISION (R289). -/
  | masterDecision (t : Int)
  /-- PROBE_REQUEST_SEND (R282). -/
  | probeRequestSend (t : Int) (port : Fin 6)
  /-- PROBE_REQUEST_RECEIVE (R281): the four code groups that came, each with whether it is a K code group. -/
  | probeRequestReceive (t : Int) (port : Fin 6) (set : List (Bool × Byte))
  /-- PROBE_REFLECTION_SEND (R281). -/
  | probeReflectionSend (t : Int) (port : Fin 6)
  /-- PROBE_REFLECTION_RECEIVE (R282). -/
  | probeReflectionReceive (t : Int) (port : Fin 6) (wait : BitVec 16)
  /-- PROBE_LOST (R282). -/
  | probeLost (t : Int) (port : Fin 6)
  /-- LISTEN_TIMEOUT (R294). -/
  | listenTimeout (t : Int) (lane : Lane)
  /-- RIDGE_FORWARD (R301). -/
  | ridgeForward (t : Int) (branch : Fin 6) (rx : BranchRx)
  /-- RIDGE_WINDOW_CLOSE (R301). -/
  | ridgeWindowClose (t : Int) (branch : Fin 6)
  /-- BRANCH_UNBLOCK (R301). -/
  | branchUnblock (t : Int) (branch : Fin 6)
  /-- RIDGE_IDLE_TIMEOUT (R302). -/
  | ridgeIdleTimeout (t : Int)
  /-- RING_FRAME_RECEIVE (R304). -/
  | ringFrameReceive (f : FrameRx)
  /-- RING_FRAME_SEND (R304). -/
  | ringFrameSend (t : Int) (dir : RingDir)
  /-- RING_PORT_BREAK (R305). -/
  | ringPortBreak (t : Int) (rp3 : Bool)
  /-- RING_PORT_RETURN (R305). -/
  | ringPortReturn (t : Int) (rp3 : Bool)
  /-- RP_LOS (R465). -/
  | rpLos (t : Int) (port : Fin 6)
  /-- POLL_SEND (R275). -/
  | pollSend (t : Int) (lane : Lane)
  /-- POLL_RECEIVE (R274). -/
  | pollReceive (f : FrameRx)
  /-- POLL_REPLY_SEND (R274). -/
  | pollReplySend (t : Int) (lane : Lane)
  /-- POLL_REPLY_TIMEOUT (R275). -/
  | pollReplyTimeout (t : Int) (lane : Lane)
  /-- LEGACY_POLL_SEND (R277). -/
  | legacyPollSend (t : Int)
  /-- LEGACY_REPLY_RECEIVE (R277). -/
  | legacyReplyReceive (cs : List CharRx)
  /-- LEGACY_REPLY_TIMEOUT (R277). -/
  | legacyReplyTimeout (t : Int)
  /-- LEGACY_WALK_START (R277). -/
  | legacyWalkStart (t : Int)
  /-- LEGACY_POLL_RECEIVE (R278). -/
  | legacyPollReceive (cs : List CharRx)
  /-- LEGACY_REPLY_SEND (R278). -/
  | legacyReplySend (t : Int)
  /-- SAR_CONVERSION (R235). -/
  | sarConversion (t : Int) (sar : Fin 2) (code : Int)
  /-- ROUTINE_CONVERSION (R236). -/
  | routineConversion (t : Int) (reading0 reading1 : Int)
  /-- URGENT_CONVERSION (R236). -/
  | urgentConversion (t : Int) (sys : Fin 8) (reading : Int)
  /-- CLAMP_TRIP (R239). -/
  | clampTrip (t : Int) (sys : Fin 8) (positive : Bool)
  /-- CLAMP_RELEASE (R239). -/
  | clampRelease (t : Int) (sys : Fin 8)
  /-- TONE_BURST_START (R245). -/
  | toneBurstStart (t : Int) (sys : Fin 8)
  /-- TONE_BURST_EVALUATE (R246). -/
  | toneBurstEvaluate (t : Int) (sys : Fin 8)
  /-- BUDGET_PERIOD (R370). -/
  | budgetPeriod (t : Int) (m : BudgetMeas)
  /-- JOB_QUANTUM_END (R374): what the quantum had room for, in bytes or records, the DRAM errors corrected in it, and the offsets at which
  it met uncorrectable ones (R356). -/
  | jobQuantumEnd (t : Int) (res : Resource) (room ce : Nat) (ue : List Nat)
  /-- HRE_POLL (R313). -/
  | hrePoll (p : PollRead)
  /-- MSIX_COALESCE_TIMER (R333). -/
  | msixCoalesceTimer (t : Int) (v : Fin 32)
  /-- STREAM_BLOCK_PACK (R348). -/
  | streamBlockPack (t : Int) (n : Fin 8)
  /-- STREAM_FLUSH_TIMER (R348). -/
  | streamFlushTimer (t : Int) (n : Fin 8)
  /-- JOB_BUFFER_TIMEOUT (R328). -/
  | jobBufferTimeout (t : Int) (his : Bool)
  /-- HISTORY_BLOCK_WRITE (R351). -/
  | historyBlockWrite (t : Int) (k : Fin 16)
  /-- HOLD_COUNTDOWN_END (R353). -/
  | holdCountdownEnd (t : Int) (k : Fin 16)
  /-- EVENT_TAKE (R429). -/
  | eventTake (t : Int)
  /-- NVM_WORD_WRITE (R416). -/
  | nvmWordWrite (t : Int) (torn : Bool)
  /-- OPERATING_SECOND (R420). -/
  | operatingSecond (t : Int)
  /-- SEED_PERIOD_EXPIRY (R224). -/
  | seedPeriodExpiry (t : Int)
  /-- BANK_CHECK_DONE (R424). -/
  | bankCheckDone (t : Int)
  /-- FREEZE_TIMEOUT (R433). -/
  | freezeTimeout (t : Int)
  /-- SWEEP_CAL_END (R222). -/
  | sweepCalEnd (t : Int)
  /-- DEBUG_SESSION_TIMEOUT (R395). -/
  | debugSessionTimeout (t : Int)
  /-- DEBUG_LOCKOUT_END (R395). -/
  | debugLockoutEnd (t : Int)
  /-- MULTIBLOCK_ARRIVAL (R60). -/
  | multiblockArrival (t : Int) (port : Port) (pol : Pol) (lanes : List LaneArrival)
  /-- CONFIGURATION_REQUEST (R442). -/
  | configurationRequest (t : Int) (req : CfgReq)
  /-- PERST_N_RELEASE (R442). -/
  | perstNRelease (t : Int)
  /-- SCRUB_PASS_START (R356). -/
  | scrubPassStart (t : Int)
  /-- BAND_CHANGE_SETTLED (R360). -/
  | bandChangeSettled (t : Int) (dom : Dom)
deriving DecidableEq, Repr

end Sys2Proof
end

