-- ==== Sys2Proof/Config.lean ====
section
/-!
DEFINITION. Config.lean: what a chip fixes and the spec does not give (ROM contents, the device's identity) and the values the
spec leaves open, each an opaque constant with no body: no proof can see its value.
-/
namespace Sys2Proof.Config

/-- Words for the channeliser ROM's prototype filter h[i], i = 0 to 199, Q1.15; Machine/Rom.lean takes them where they meet what R77 states of it. -/
opaque schProto : Nat → BitVec 16

/-- How many token buffers a consumer of a link has beyond the 256 that the model takes as the least (R19; the spec gives no number; log entry 137):
0 SCH, 1 FCH, 2 HEN, 3 HRE, 4 HSC. -/
opaque moreBuffers : Nat → Nat

/-- Words for the resampler ROM's hr[idx][m], Q1.15, idx 1 to 63; Machine/Rom.lean takes them where they meet what R106 states of it. -/
opaque hrWord : Nat → Nat → BitVec 16

/-- The stored CRC-32C of a ROM: 0 channeliser, 1 resampler, 2 demodulator (R454, R456). -/
opaque romCrc : Nat → Word

/-- The 64-bit unique identifier (R384, R458). -/
opaque uid : BitVec 64

/-- The private key IDENTITY, before it is brought into the range of the curve (R384, R391). -/
opaque identity : BitVec 256

/-- Byte i of the SHA-256 of the three ROMs in their order (R390); their content is not in the spec. -/
opaque romHash : Nat → Byte

/-- The n-th draw of the entropy source: a byte of random data (R394). -/
opaque entropy : Nat → Byte

/-- The n-th value that the spec leaves open and the machine goes on with. -/
opaque freeValue : Nat → Word

/-- Whether the n-th open yes-or-no outcome holds. -/
opaque freeBool : Nat → Bool

/-- What a word for the generation of the active topology bank holds in a round while no bank is ACTIVE (R181, R228, R330, R390 state it only for
an active one). -/
opaque noTopo : Nat → Word

/-- PCI Vendor ID of Vyovois (R309, R483). -/
def vendorId : Nat := 0x1F7C

/-- How far the physical capacity of the DRAM on the board exceeds 1 MiB, in bytes (R351; the spec does not give the board). -/
opaque dramAbove : Nat

/-- The physical capacity of the DRAM on the board, in bytes (R351): at least 1 MiB, as every LPDDR4X channel has (PRESUMED, log entry 61). -/
def dramBytes : Nat := 1048576 + dramAbove

/-- IDCODE of the test access port (R393, R483). -/
def idcode : Nat := 0x0482055B

end Sys2Proof.Config
end

