-- ==== Sys2Proof/Machine/Arith.lean ====
section
/-!
DEFINITION. Machine/Arith.lean: the manual's arithmetic helpers (R3, R4), the bytes of little-endian words (00_scope.md,
Notation), and the sparse tables the state is made of, in one canonical form: keys strictly rising, no entry equal to what
an unlisted key reads as.
-/
namespace Sys2Proof.Machine

/-- 2^n as an integer. -/
def p2 (n : Nat) : Int := ((2 ^ n : Nat) : Int)

/-- rne(x, s): x / 2^s, rounded half to even (R4). -/
def rne (x : Int) (s : Nat) : Int :=
  if s = 0 then x
  else
    let q := x / p2 s
    let r := x - q * p2 s
    let half := p2 (s - 1)
    if r > half || (r == half && q % 2 == 1) then q + 1 else q

/-- sat(x, n): x limited to the signed n-bit range (R4). -/
def sat (x : Int) (n : Nat) : Int := min (max x (-(p2 (n - 1)))) (p2 (n - 1) - 1)

/-- sat16(x) (R4). -/
def sat16 (x : Int) : Int := sat x 16

/-- satu(x, n): x limited to the unsigned n-bit range (R4). -/
def satu (x : Int) (n : Nat) : Int := min (max x 0) (p2 n - 1)

/-- wrap(x, n): two's-complement modulo 2^n (R4). -/
def wrap (x : Int) (n : Nat) : Int :=
  let m := x % p2 n
  if m ≥ p2 (n - 1) then m - p2 n else m

/-- The loop of lead(): shifts tried while fewer than n - 1 and the sign is kept. -/
def leadFrom (x : Int) (n : Nat) : Nat → Nat → Nat
  | 0, k => k
  | fuel + 1, k => if sat (x * p2 (k + 1)) n == x * p2 (k + 1) then leadFrom x n fuel (k + 1) else k

/-- lead(x, n): redundant sign bits of an n-bit x (R4). -/
def lead (x : Int) (n : Nat) : Nat := leadFrom x n (n - 1) 0

/-- wrap32(p - c) (R315). -/
def wrap32 (p c : Word) : Nat := (p - c).toNat

/-- A division rounded half to even, for a positive divisor: rnd(a, b), as the manual's averages use it. -/
def rnd (a b : Int) : Int :=
  if b = 0 then 0
  else
    let q := a / b
    let r := a - q * b
    if 2 * r > b || (2 * r == b && q % 2 == 1) then q + 1 else q

/-- Ceiling of a / b for a positive b. -/
def cdiv (a b : Int) : Int := -((-a) / b)

/-- An n-bit field of a number read as two's complement. -/
def signed (x n : Nat) : Int := wrap (x : Int) n

/-- The low 16 bits of an integer. -/
def lo16 (x : Int) : Nat := (x % 65536).toNat

/-- A word of two halfwords. -/
def halves (hi lo : Nat) : Word := w32 (hi % 65536 * 65536 + lo % 65536)

/-- Saturating add on a counter of n bits. -/
def satAdd (n a b : Nat) : Nat := min (a + b) (2 ^ n - 1)

/-- The four bytes of a word, little-endian (00_scope.md, Notation). -/
def wordBytes (w : Word) : List Byte :=
  [BitVec.ofNat 8 w.toNat, BitVec.ofNat 8 (w.toNat >>> 8), BitVec.ofNat 8 (w.toNat >>> 16), BitVec.ofNat 8 (w.toNat >>> 24)]

/-- The bytes of a list of words. -/
def wordsBytes (l : List Word) : List Byte := l.flatMap wordBytes

/-- n bytes of a number, little-endian. -/
def natBytes : Nat → Nat → List Byte
  | 0, _ => []
  | n + 1, x => BitVec.ofNat 8 x :: natBytes n (x / 256)

/-- A number from its bytes, little-endian. -/
def bytesNat : List Byte → Nat
  | [] => 0
  | b :: bs => b.toNat + 256 * bytesNat bs

/-- The words of a list of bytes, the last padded with zeros; `fuel` bounds the words. -/
def bytesWordsFuel : Nat → List Byte → List Word
  | 0, _ => []
  | _, [] => []
  | f + 1, b => w32 (bytesNat (b.take 4)) :: bytesWordsFuel f (b.drop 4)

/-- The words of a list of bytes. -/
def bytesWords (b : List Byte) : List Word := bytesWordsFuel b.length b

/-- A list cut or padded with zeros to n bytes. -/
def padTo (n : Nat) (b : List Byte) : List Byte := (b ++ List.replicate (n - b.length) 0).take n

/-- n zero bytes. -/
def zeros (n : Nat) : List Byte := List.replicate n 0

/-- A sparse table: entries in rising order of key (INVENTORY.md, Memory and ordering). -/
abbrev Tab (α : Type) := List (Nat × α)

/-- What key k reads as, d being what an unlisted key reads as. -/
def tget {α : Type} (d : α) (k : Nat) : Tab α → α
  | [] => d
  | (j, a) :: t => if j = k then a else tget d k t

/-- The table without key k. -/
def tdel {α : Type} (k : Nat) : Tab α → Tab α
  | [] => []
  | (j, a) :: t => if j = k then t else (j, a) :: tdel k t

/-- The table with key k listed as a. -/
def tins {α : Type} (k : Nat) (a : α) : Tab α → Tab α
  | [] => [(k, a)]
  | (j, b) :: t => if k < j then (k, a) :: (j, b) :: t else if j = k then (k, a) :: t else (j, b) :: tins k a t

/-- The table after key k is written with a: writing what an unlisted key reads as removes the entry. -/
def tput {α : Type} [DecidableEq α] (d : α) (k : Nat) (a : α) (t : Tab α) : Tab α :=
  if a = d then tdel k t else tins k a t

/-- Whether every key of a table is above k and rising. -/
def risingFrom {α : Type} : Nat → Tab α → Bool
  | _, [] => true
  | k, (j, _) :: t => k < j && risingFrom j t

/-- Whether the keys of a table strictly rise. -/
def rising {α : Type} : Tab α → Bool
  | [] => true
  | (j, _) :: t => risingFrom j t

/-- The canonical form of a table whose unlisted keys read as d. -/
def Tab.wf {α : Type} [DecidableEq α] (d : α) (t : Tab α) : Bool :=
  rising t && t.all (fun e => e.2 ≠ d)

/-- Entry k of a list, d beyond its end. -/
def nth {α : Type} (d : α) (l : List α) (k : Nat) : α := (l[k]?).getD d

/-- The list with entry k replaced. -/
def setNth {α : Type} (l : List α) (k : Nat) (a : α) : List α := l.set k a

/-- Sum of a list of integers. -/
def isum (l : List Int) : Int := l.foldl (· + ·) 0

/-- The largest of a list of naturals, 0 for none. -/
def nmax (l : List Nat) : Nat := l.foldl max 0

/-- The numbers a, a + 1, …, a + n - 1. -/
def span (a n : Nat) : List Nat := (List.range n).map (a + ·)

/-- Insertion of an element into a list ordered by a key. -/
def insertBy {α : Type} (key : α → Int) (a : α) : List α → List α
  | [] => [a]
  | b :: t => if key a < key b then a :: b :: t else b :: insertBy key a t

/-- A list ordered by a key, stable. -/
def sortBy {α : Type} (key : α → Int) (l : List α) : List α := l.foldl (fun acc a => insertBy key a acc) []

/-- A list of numbers without repeats, rising. -/
def normNat (l : List Nat) : List Nat := (sortBy (fun n => (n : Int)) l.eraseDups)

end Sys2Proof.Machine
end

