-- ==== Sys2Proof/Machine/Crypto.lean ====
section
/-!
DEFINITION. Machine/Crypto.lean: the check codes and the cryptographic functions the manual names: CRC-32C (R182), CRC-32 (R258),
CRC-16 (R276), CRC-8 (R402), AES-128-CMAC as in NIST SP 800-38B (R388), SHA-256 (R390). AES-128 and SHA-256 are taken from their
public standards (PRESUMED, log entry 3).
-/
namespace Sys2Proof.Machine

/-- One bit of a reflected CRC with the reflected polynomial. -/
def crcBitR (poly c : Nat) : Nat := if c % 2 = 1 then (c / 2) ^^^ poly else c / 2

/-- n bits of a reflected CRC. -/
def crcBitsR (poly : Nat) : Nat → Nat → Nat
  | 0, c => c
  | n + 1, c => crcBitsR poly n (crcBitR poly c)

/-- A reflected 32-bit CRC, initial value and final XOR all ones. -/
def crcR (poly : Nat) (b : List Byte) : Nat :=
  (b.foldl (fun c x => crcBitsR poly 8 (c ^^^ x.toNat)) 0xFFFFFFFF) ^^^ 0xFFFFFFFF

/-- CRC-32C with the parameters of R182 (0x1EDC_6F41 reflected). -/
def crc32c (b : List Byte) : Word := w32 (crcR 0x82F63B78 b)

/-- CRC-32C over words, each little-endian. -/
def crc32cWords (l : List Word) : Word := crc32c (wordsBytes l)

/-- CRC-32 with the parameters of R258 (0x04C1_1DB7 reflected). -/
def crc32 (b : List Byte) : Word := w32 (crcR 0xEDB88320 b)

/-- One bit of a CRC of n bits that is not reflected. -/
def crcBitL (n poly c : Nat) : Nat :=
  if c / 2 ^ (n - 1) % 2 = 1 then (c * 2 % 2 ^ n) ^^^ poly else c * 2 % 2 ^ n

/-- k bits of a CRC of n bits that is not reflected. -/
def crcBitsL (n poly : Nat) : Nat → Nat → Nat
  | 0, c => c
  | k + 1, c => crcBitsL n poly k (crcBitL n poly c)

/-- CRC-16: 0x1021, initial value 0xFFFF, no reflection, no final XOR (R276). -/
def crc16 (b : List Byte) : Nat := b.foldl (fun c x => crcBitsL 16 0x1021 8 (c ^^^ (x.toNat * 256))) 0xFFFF

/-- The crossing check of one 64-bit word of a token, padded with zero bits, least significant byte first: CRC-8 with 0x2F, initial value 0xFF, no
reflection, final XOR 0xFF (R402). -/
def crossCheck (word : List Byte) : Byte :=
  BitVec.ofNat 8 ((padTo 8 word).foldl (fun c x => crcBitsL 8 0x2F 8 (c ^^^ x.toNat)) 0xFF ^^^ 0xFF)

/-- The AES S-box, entries 0 to 63. -/
def aesSbox0 : List Nat :=
  [99, 124, 119, 123, 242, 107, 111, 197, 48, 1, 103, 43, 254, 215, 171, 118,
   202, 130, 201, 125, 250, 89, 71, 240, 173, 212, 162, 175, 156, 164, 114, 192,
   183, 253, 147, 38, 54, 63, 247, 204, 52, 165, 229, 241, 113, 216, 49, 21,
   4, 199, 35, 195, 24, 150, 5, 154, 7, 18, 128, 226, 235, 39, 178, 117]

/-- The AES S-box, entries 64 to 127. -/
def aesSbox1 : List Nat :=
  [9, 131, 44, 26, 27, 110, 90, 160, 82, 59, 214, 179, 41, 227, 47, 132,
   83, 209, 0, 237, 32, 252, 177, 91, 106, 203, 190, 57, 74, 76, 88, 207,
   208, 239, 170, 251, 67, 77, 51, 133, 69, 249, 2, 127, 80, 60, 159, 168,
   81, 163, 64, 143, 146, 157, 56, 245, 188, 182, 218, 33, 16, 255, 243, 210]

/-- The AES S-box, entries 128 to 191. -/
def aesSbox2 : List Nat :=
  [205, 12, 19, 236, 95, 151, 68, 23, 196, 167, 126, 61, 100, 93, 25, 115,
   96, 129, 79, 220, 34, 42, 144, 136, 70, 238, 184, 20, 222, 94, 11, 219,
   224, 50, 58, 10, 73, 6, 36, 92, 194, 211, 172, 98, 145, 149, 228, 121,
   231, 200, 55, 109, 141, 213, 78, 169, 108, 86, 244, 234, 101, 122, 174, 8]

/-- The AES S-box, entries 192 to 255. -/
def aesSbox3 : List Nat :=
  [186, 120, 37, 46, 28, 166, 180, 198, 232, 221, 116, 31, 75, 189, 139, 138,
   112, 62, 181, 102, 72, 3, 246, 14, 97, 53, 87, 185, 134, 193, 29, 158,
   225, 248, 152, 17, 105, 217, 142, 148, 155, 30, 135, 233, 206, 85, 40, 223,
   140, 161, 137, 13, 191, 230, 66, 104, 65, 153, 45, 15, 176, 84, 187, 22]

/-- The AES S-box. -/
def aesSbox : List Nat := aesSbox0 ++ aesSbox1 ++ aesSbox2 ++ aesSbox3

/-- Multiplication by x in the AES field. -/
def aesX2 (a : Nat) : Nat := if a ≥ 128 then (2 * a % 256) ^^^ 0x1B else 2 * a

/-- The AES substitution of one byte. -/
def aesSub (a : Nat) : Nat := nth 0 aesSbox a

/-- Exclusive or of two lists of bytes. -/
def xorL (a b : List Nat) : List Nat := List.zipWith (· ^^^ ·) a b

/-- ShiftRows on 16 bytes in column order. -/
def aesShift (s : List Nat) : List Nat := [0, 5, 10, 15, 4, 9, 14, 3, 8, 13, 2, 7, 12, 1, 6, 11].map (nth 0 s)

/-- MixColumns on one column. -/
def aesMixCol (a b c d : Nat) : List Nat :=
  let t := a ^^^ b ^^^ c ^^^ d
  [a ^^^ t ^^^ aesX2 (a ^^^ b), b ^^^ t ^^^ aesX2 (b ^^^ c), c ^^^ t ^^^ aesX2 (c ^^^ d), d ^^^ t ^^^ aesX2 (d ^^^ a)]

/-- MixColumns. -/
def aesMix : List Nat → List Nat
  | a :: b :: c :: d :: r => aesMixCol a b c d ++ aesMix r
  | _ => []

/-- The next round key from the last one and the round constant. -/
def aesNextKey (rc : Nat) (k : List Nat) : List Nat :=
  let g := [aesSub (nth 0 k 13) ^^^ rc, aesSub (nth 0 k 14), aesSub (nth 0 k 15), aesSub (nth 0 k 12)]
  let w0 := xorL (k.take 4) g
  let w1 := xorL ((k.drop 4).take 4) w0
  let w2 := xorL ((k.drop 8).take 4) w1
  let w3 := xorL (k.drop 12) w2
  w0 ++ w1 ++ w2 ++ w3

/-- The AES rounds after the first key addition; the list holds the round constants still to use. -/
def aesRounds : List Nat → List Nat → List Nat → List Nat
  | [], _, s => s
  | [rc], k, s => xorL (aesShift (s.map aesSub)) (aesNextKey rc k)
  | rc :: r, k, s => aesRounds r (aesNextKey rc k) (xorL (aesMix (aesShift (s.map aesSub))) (aesNextKey rc k))

/-- AES-128 encryption of one block; key and block are 16 bytes, first byte first. -/
def aes (k b : List Nat) : List Nat := aesRounds [1, 2, 4, 8, 16, 32, 64, 128, 27, 54] k (xorL b k)

/-- A 16-byte block as a number, first byte most significant. -/
def blockNat (b : List Nat) : Nat := b.foldl (fun a x => 256 * a + x) 0

/-- A number as n bytes, first byte most significant. -/
def natBlock (n x : Nat) : List Nat := ((natBytes n x).map (·.toNat)).reverse

/-- Doubling in the CMAC field. -/
def cmacDbl (x : Nat) : Nat := if x ≥ 2 ^ 127 then (2 * x % 2 ^ 128) ^^^ 0x87 else 2 * x

/-- The CMAC chain over whole blocks, the last one already combined with its subkey; `fuel` bounds the blocks. -/
def cmacChain (k : List Nat) : Nat → List Nat → List Nat → List Nat
  | 0, c, _ => c
  | _, c, [] => c
  | f + 1, c, m => cmacChain k f (aes k (xorL c (m.take 16))) (m.drop 16)

/-- AES-128-CMAC: the 16 bytes T[0] to T[15] (R388). -/
def cmac (key : BitVec 128) (m : List Byte) : List Byte :=
  let k := natBlock 16 key.toNat
  let bytes := m.map (·.toNat)
  let k1 := cmacDbl (blockNat (aes k (List.replicate 16 0)))
  let k2 := cmacDbl k1
  let n := bytes.length
  let whole := n != 0 && n % 16 == 0
  let nb := if n = 0 then 1 else (n + 15) / 16
  let head := bytes.take (16 * (nb - 1))
  let tail := bytes.drop (16 * (nb - 1))
  let last := if whole then xorL tail (natBlock 16 k1)
    else xorL (tail ++ [128] ++ List.replicate (15 - tail.length) 0) (natBlock 16 k2)
  (cmacChain k nb (List.replicate 16 0) (head ++ last)).map (BitVec.ofNat 8)

/-- The key check value of a key: bytes 0 to 3 of the encryption of the zero block, byte 0 in [7:0] (R384). -/
def keyCheck (key : BitVec 128) : Word :=
  w32 (bytesNat (((aes (natBlock 16 key.toNat) (List.replicate 16 0)).take 4).map (BitVec.ofNat 8)))

/-- The SHA-256 round constants, entries 0 to 31. -/
def shaK0 : List Nat :=
  [0x428A2F98, 0x71374491, 0xB5C0FBCF, 0xE9B5DBA5, 0x3956C25B, 0x59F111F1, 0x923F82A4, 0xAB1C5ED5,
   0xD807AA98, 0x12835B01, 0x243185BE, 0x550C7DC3, 0x72BE5D74, 0x80DEB1FE, 0x9BDC06A7, 0xC19BF174,
   0xE49B69C1, 0xEFBE4786, 0x0FC19DC6, 0x240CA1CC, 0x2DE92C6F, 0x4A7484AA, 0x5CB0A9DC, 0x76F988DA,
   0x983E5152, 0xA831C66D, 0xB00327C8, 0xBF597FC7, 0xC6E00BF3, 0xD5A79147, 0x06CA6351, 0x14292967]

/-- The SHA-256 round constants, entries 32 to 63. -/
def shaK1 : List Nat :=
  [0x27B70A85, 0x2E1B2138, 0x4D2C6DFC, 0x53380D13, 0x650A7354, 0x766A0ABB, 0x81C2C92E, 0x92722C85,
   0xA2BFE8A1, 0xA81A664B, 0xC24B8B70, 0xC76C51A3, 0xD192E819, 0xD6990624, 0xF40E3585, 0x106AA070,
   0x19A4C116, 0x1E376C08, 0x2748774C, 0x34B0BCB5, 0x391C0CB3, 0x4ED8AA4A, 0x5B9CCA4F, 0x682E6FF3,
   0x748F82EE, 0x78A5636F, 0x84C87814, 0x8CC70208, 0x90BEFFFA, 0xA4506CEB, 0xBEF9A3F7, 0xC67178F2]

/-- The SHA-256 round constants. -/
def shaK : List Nat := shaK0 ++ shaK1

/-- Rotate right of a 32-bit number. -/
def rotr (n x : Nat) : Nat := x / 2 ^ n + x % 2 ^ n * 2 ^ (32 - n)

/-- The message schedule, grown to n further words. -/
def shaSched : Nat → List Nat → List Nat
  | 0, w => w
  | n + 1, w =>
    let l := w.length
    let a := nth 0 w (l - 15)
    let b := nth 0 w (l - 2)
    let s0 := rotr 7 a ^^^ rotr 18 a ^^^ (a / 8)
    let s1 := rotr 17 b ^^^ rotr 19 b ^^^ (b / 1024)
    shaSched n (w ++ [(nth 0 w (l - 16) + s0 + nth 0 w (l - 7) + s1) % 4294967296])

/-- One SHA-256 round on the eight working words. -/
def shaRound (v : List Nat) (kw : Nat) : List Nat :=
  match v with
  | [a, b, c, d, e, f, g, h] =>
    let t1 := h + (rotr 6 e ^^^ rotr 11 e ^^^ rotr 25 e) + ((e &&& f) ^^^ ((4294967295 - e) &&& g)) + kw
    let t2 := (rotr 2 a ^^^ rotr 13 a ^^^ rotr 22 a) + ((a &&& b) ^^^ (a &&& c) ^^^ (b &&& c))
    [(t1 + t2) % 4294967296, a, b, c, (d + t1) % 4294967296, e, f, g]
  | _ => v

/-- The words of a message block, big-endian. -/
def beWords : List Nat → List Nat
  | a :: b :: c :: d :: r => (((a * 256 + b) * 256 + c) * 256 + d) :: beWords r
  | _ => []

/-- One block of SHA-256. -/
def shaBlock (h : List Nat) (blk : List Nat) : List Nat :=
  let w := shaSched 48 (beWords blk)
  let v := (List.zipWith (· + ·) shaK w).foldl shaRound h
  List.zipWith (fun a b => (a + b) % 4294967296) h v

/-- SHA-256 over whole blocks; `fuel` bounds the blocks. -/
def shaChain : Nat → List Nat → List Nat → List Nat
  | 0, h, _ => h
  | _, h, [] => h
  | f + 1, h, m => shaChain f (shaBlock h (m.take 64)) (m.drop 64)

/-- SHA-256 of a message: 32 bytes, the first most significant (R390). -/
def sha256 (m : List Byte) : List Byte :=
  let b := m.map (·.toNat)
  let n := b.length
  let pad := (119 - n % 64) % 64
  let all := b ++ [128] ++ List.replicate pad 0 ++ natBlock 8 (8 * n)
  let h := shaChain (all.length / 64) [0x6A09E667, 0xBB67AE85, 0x3C6EF372, 0xA54FF53A, 0x510E527F, 0x9B05688C, 0x1F83D9AB, 0x5BE0CD19] all
  (h.flatMap (natBlock 4)).map (BitVec.ofNat 8)

end Sys2Proof.Machine
end

