-- ==== Sys2Proof/Machine/Ecdsa.lean ====
section
/-!
DEFINITION. Machine/Ecdsa.lean: the signature of ATTEST (R391): ECDSA over the curve P-256 with SHA-256, its k derived as RFC 6979 defines. The curve, the
signature and HMAC are taken from their public standards (PRESUMED, log entry 3). The IDENTITY key is an opaque constant.
-/
namespace Sys2Proof.Machine

/-- The prime of the field of P-256. -/
def p256P : Nat := 2 ^ 256 - 2 ^ 224 + 2 ^ 192 + 2 ^ 96 - 1

/-- The order of the base point of P-256. -/
def p256N : Nat := 0xFFFFFFFF00000000FFFFFFFFFFFFFFFFBCE6FAADA7179E84F3B9CAC2FC632551

/-- The base point of P-256. -/
def p256G : Nat × Nat :=
  (0x6B17D1F2E12C4247F8BCE6E563A440F277037D812DEB33A0F4A13945D898C296, 0x4FE342E2FE1A7F9B8EE7EB4A7C0F9E162BCE33576B315ECECBB6406837BF51F5)

/-- b to the power e modulo m, for an e of as many bits as the fuel. -/
def powMod (m : Nat) : Nat → Nat → Nat → Nat
  | 0, _, _ => 1 % m
  | f + 1, b, e =>
    let r := powMod m f (b * b % m) (e / 2)
    if e % 2 = 1 then b * r % m else r

/-- The inverse modulo a prime of at most 256 bits. -/
def invMod (m x : Nat) : Nat := powMod m 256 (x % m) (m - 2)

/-- The sum of two points of P-256; none is the point at infinity. -/
def ecAdd (a b : Option (Nat × Nat)) : Option (Nat × Nat) :=
  match a, b with
  | none, q => q
  | q, none => q
  | some (x1, y1), some (x2, y2) =>
    if x1 = x2 && (y1 + y2) % p256P = 0 then none
    else
      let m := if x1 = x2 then 3 * (x1 * x1 + (p256P - 1)) * invMod p256P (2 * y1) % p256P
        else (y2 + p256P - y1) * invMod p256P (x2 + p256P - x1) % p256P
      let x := (m * m + 2 * p256P - x1 - x2) % p256P
      some (x, (m * (x1 + p256P - x) + p256P - y1) % p256P)

/-- k times a point, for a k of as many bits as the fuel. -/
def ecMul : Nat → Nat → Option (Nat × Nat) → Option (Nat × Nat)
  | 0, _, _ => none
  | f + 1, k, q =>
    let r := ecMul f (k / 2) (ecAdd q q)
    if k % 2 = 1 then ecAdd q r else r

/-- n bytes of a number, the first most significant. -/
def beBytes (n x : Nat) : List Byte := (natBlock n x).map (BitVec.ofNat 8)

/-- Bytes as a number, the first most significant. -/
def beNat (b : List Byte) : Nat := blockNat (b.map (·.toNat))

/-- HMAC with SHA-256 under a key of at most 64 bytes. -/
def hmac (key m : List Byte) : List Byte :=
  let k := padTo 64 key
  sha256 (k.map (· ^^^ 0x5C) ++ sha256 (k.map (· ^^^ 0x36) ++ m))

/-- One step of the generator of RFC 6979, its state K and V: K anew over V, a byte and more, then V. -/
def drbgStep (b : Byte) (more : List Byte) (g : List Byte × List Byte) : List Byte × List Byte :=
  let k := hmac g.1 (g.2 ++ [b] ++ more)
  (k, hmac k g.2)

/-- r and s for a key d, a digest z and a k; none where one of them is 0. -/
def ecdsaTry (d z k : Nat) : Option (Nat × Nat) :=
  match ecMul 256 k (some p256G) with
  | none => none
  | some q =>
    let r := q.1 % p256N
    let v := invMod p256N k * (z + r * d) % p256N
    if r = 0 || v = 0 then none else some (r, v)

/-- The first k of the generator that lies in 1 to n − 1 and gives a signature (RFC 6979, 3.2 h); `fuel` bounds the candidates. -/
def ecdsaLoop (d z : Nat) : Nat → List Byte × List Byte → Option (Nat × Nat)
  | 0, _ => none
  | f + 1, g =>
    let v := hmac g.1 g.2
    let k := beNat v
    let next := ecdsaLoop d z f (drbgStep 0 [] (g.1, v))
    if k = 0 || k ≥ p256N then next
    else match ecdsaTry d z k with
      | some q => some q
      | none => next

/-- The 64 bytes r and s of the signature of a SHA-256 digest under a private key (R390, R391). -/
def ecdsaSign (d : Nat) (digest : List Byte) : List Byte :=
  let z := beNat digest
  let seed := beBytes 32 d ++ beBytes 32 (z % p256N)
  let g := drbgStep 1 seed (drbgStep 0 seed (zeros 32, List.replicate 32 1))
  match ecdsaLoop d z 256 g with
  | some q => beBytes 32 q.1 ++ beBytes 32 q.2
  | none => zeros 64

/-- The private key IDENTITY, in 1 to n − 1 (R384); the spec does not print it. -/
def identityKey : Nat := 1 + Config.identity.toNat % (p256N - 1)

/-- SEC_PUBKEY: X, then Y, of the public key of IDENTITY, their bytes in big-endian order (R391, R458). -/
def pubkeyBytes : List Byte :=
  match ecMul 256 identityKey (some p256G) with
  | some q => beBytes 32 q.1 ++ beBytes 32 q.2
  | none => zeros 64

/-- Word k of SEC_PUBKEY. -/
def pubkeyWord (k : Nat) : Word := nth 0 (bytesWords pubkeyBytes) k

end Sys2Proof.Machine
end

