-- ==== Sys2Proof/Machine/State.lean ====
section
/-!
DEFINITION. Machine/State.lean: everything the spec gives the OB4820, as plain data, block by block; the reasons a step can stop;
and the state right after reset. Instants are integers of nanoseconds in the time base of the counters (network time once joined,
local time before).
-/
namespace Sys2Proof.Machine

/-- Why the machine stops. -/
inductive Fault
  /-- An access through BAR0 at an address that does not exist: at or beyond the end of its 1 MiB, or a word beyond the end of the table window
  (R309, R448, R461). Raised by REGISTER_WRITE, RWP_WRITE, TABLE_WINDOW_WRITE, COUNTER_READ and MULTIWORD_READ_LATCH. Safe: no host can make such
  an access to this function. -/
  | noAddress
deriving DecidableEq, Repr

/-- Why the machine refuses. -/
inductive Refusal
  /-- The command has no meaning yet; raised by Dispatch.lean's arms only. Safe. -/
  | notModelled (mnemonic : String)
deriving DecidableEq, Repr

/-- The access codes of R5. -/
inductive Acc | ro | rw | wo | rwp | rws
deriving DecidableEq, Repr

/-- One row of the register map: `count` words at `base`, `base + stride`, …; each of one access, with its writable bits and its
reset value; word `word` of a register of `len` words (R450). -/
structure RegRow where
  base : Nat
  count : Nat
  stride : Nat
  acc : Acc
  mask : Nat
  reset : Nat
  word : Nat
  len : Nat
deriving DecidableEq, Repr

/-- A thing held once per port (0, 1), per polarisation (X, Y) or per lane (X, Y). -/
structure Two (α : Type) where
  a : α
  b : α
deriving DecidableEq, Repr

/-- What leaves the part, in order (R256, R310, R322, R330, R332). -/
inductive Out
  /-- A memory write request of the HRE. -/
  | hostWrite (addr : Nat) (data : List Byte)
  /-- An MSI-X message: vector, address, data. -/
  | msix (v : Nat) (addr : Nat) (data : Word)
  /-- A shot on SHOT_GATE and SLOT_CODE (R42): port, code, the rise and the fall of the gate. -/
  | gate (port : Nat) (code : Nat) (rise fall : Int)
  /-- A frame on a round port: port, instant of /S/, bytes between /S/ and /T/. -/
  | frame (port : Nat) (t : Int) (bytes : List Byte)
  /-- A claim on a round port: port, instant, ID, LEN, CHECK. -/
  | claim (port : Nat) (t : Int) (id len check : Nat)
  /-- A probe request or reflection: port, instant, kind (1 request, 2 reflection), WAIT. -/
  | probe (port : Nat) (t : Int) (kind wait : Nat)
  /-- Characters on the legacy round port (R276): the first start bit, when LR_DE is raised and lowered, each character with its address bit. -/
  | chars (t : Int) (up down : Int) (cs : List (Bool × Byte))
  /-- A configuration completion on PCIe: status (0 success, 1 retry), data. -/
  | config (ok : Bool) (data : Word)
  /-- Data shifted out of the test access port. -/
  | tdo (data : List Byte)
deriving DecidableEq, Repr

/-! ## Registers -/

/-- The register words software wrote (R5, R448 to R453). `rw` holds RW words that differ from reset; `held` the value still in
force of a word whose new value has not taken effect (R450, R451); `latch` the latched higher words of RO registers (R450), `owed` what the first read of
a latched word that clears on read takes away (R7);
`laneX` and `laneY` the lane copies that differ because the lane receives no writes (R452). -/
structure RegSt where
  rw : Tab Word
  held : Tab (Option Word)
  latch : Tab (Option Word)
  owed : Tab Nat
  laneX : Tab (Option Word)
  laneY : Tab (Option Word)
deriving DecidableEq, Repr

/-! ## AON: domains and budget -/

/-- Domain states (R360). -/
inductive DState | off | ramp | active | held | tripped
deriving DecidableEq, Repr

/-- One power domain (R360, R361, R366, R370). `settle` is the band before a change that has not settled; `since` the entry into
the state; `idle` the periods idle above its floor; `busy` whether it did what R370 names in this period; `below` whether it stood below its floor in this round (R71); `restarts` the
instants of its restarts within 3 600 s. -/
structure DomSt where
  st : DState
  band : Nat
  floor : Nat
  settle : Option Nat
  since : Int
  idle : Nat
  busy : Bool
  below : Bool
  restarts : List Int
deriving DecidableEq, Repr

/-- The eight domains. -/
structure Doms where
  aon : DomSt
  port0 : DomSt
  port1 : DomSt
  lanex : DomSt
  laney : DomSt
  ring : DomSt
  host : DomSt
  field : DomSt
deriving DecidableEq, Repr

/-- Device power states (R363). -/
inductive PState | off | standby | start | service | lean | holdover | safehalt
deriving DecidableEq, Repr

/-- Why SAFEHALT was entered, as R446 distinguishes. -/
inductive HaltCause | none | lanes | thermal | drive | selftest | decommissioned
deriving DecidableEq, Repr

/-- What AON itself does: off, in reset while RESET_N is low, released; the power-fail sequence done and waiting (R378, R435). -/
inductive AonPhase | off | resetLow | released | failWait
deriving DecidableEq, Repr

/-- A queued bulk job (R374, R375): its command's completion id, CMD index, base priority, resource, the later of its entry and
the end of its last quantum, how far it has come, and what it still needs. -/
structure Job where
  id : Nat
  index : Word
  prio : Nat
  res : Resource
  since : Int
  kind : Nat
  args : List Nat
  pos : Nat
  total : Nat
  waitAt : Option Int
deriving DecidableEq, Repr

/-- The Budget Scheduler and the device's power state (R359 to R376); `rstLow` that the pin RESET_N is low (R435). -/
structure BscSt where
  aon : AonPhase
  power : PState
  halt : HaltCause
  wakeWait : Bool
  bringup : Nat
  tested : Two Bool
  leanRequest : Bool
  leanAon : Bool
  leanThermal : Bool
  leanCurrent : Bool
  iAvg : Int
  tj : Int
  hot : Nat
  cool : Nat
  nOver : Nat
  under : Nat
  trip : Nat
  pace : Two Bool
  jobs : List Job
  running : List Job
  standbyAt : Option Int
  rstLow : Bool
  restartHold : List Dom
deriving DecidableEq, Repr

/-! ## AON: persistent store and event recorder -/

/-- What a PST commit is for (R416, R418, R429). -/
inductive CommitTag
  | write | selector | opsec | gauge | recErase | recBody (done : Bool) | seed (last : Bool) | sec
deriving DecidableEq, Repr

/-- One page write of the PST (R416, R418): its priority, the words still to write, whether one of them was written, its purpose. -/
structure Commit where
  prio : Nat
  words : List (Nat × Word)
  wrote : Bool
  page : Nat
  tag : CommitTag
deriving DecidableEq, Repr

/-- States of a topology bank (R423). -/
inductive BankState | inactive | checking | pending | active
deriving DecidableEq, Repr

/-- A TOPO_SWITCH that waits (R424, R425): completion id, bank, expected generation, R_s, and the local instant at which
R_s begins. -/
structure TopoWait where
  id : Nat
  bank : Bank
  gen : Word
  round : Nat
  startAt : Int
  acceptedAt : Int
deriving DecidableEq, Repr

/-- A tick buffer of one half of the AON snapshot shadow (R377): its tick, what the snapshot says of it, whether an entry was lost on the way, the
blocks written, their entries. -/
structure ShadowBuf where
  round : Nat
  time : Int
  lt : Bool
  solo : Bool
  bad : Bool
  blocks : List Nat
  entries : Tab Word
deriving DecidableEq, Repr

/-- The Persistent Store (R412 to R427). NVM words that differ from their delivered value, the words that fail their check, the
wear gauges and their kept values, the write queue (with writes held by flow control after its 16 places), the commits under way,
operating seconds, power cycles, selector sequence, banks. -/
structure PstSt where
  words : Tab Word
  bad : Tab Bool
  gauge : Tab Nat
  gaugeKept : Tab Nat
  wq : List (Nat × Word)
  commits : List Commit
  opSeconds : Nat
  opCommits : Nat
  cycles : Nat
  cres : Nat
  cresK : Nat
  selSeq : Nat
  selK : Nat
  bankA : BankState
  bankB : BankState
  committed : Option Bank
  committedGen : Word
  genActive : Word
  everActive : Bool
  topo : Option TopoWait
  discarded : Nat
  cleanDown : Bool
  lostDown : Nat
  shadow : Two (Two ShadowBuf)
deriving DecidableEq, Repr

/-- An event on its way to the ERC (R429): code, source byte, parameters, whether only one lane formed it, and who formed it. -/
structure EvIn where
  code : Nat
  src : Nat
  p0 : Word
  p1 : Word
  p2 : Word
  solo : Bool
deriving DecidableEq, Repr

/-- A formed record (R428): its severity and words w0 to w5, and the round it was taken in. -/
structure Record where
  sev : Nat
  words : List Word
  round : Word
deriving DecidableEq, Repr

/-- The Event Recorder (R428 to R434). -/
structure ErcSt where
  inbox : List EvIn
  queued : Nat
  dropped : Tab Nat
  dropPending : Nat
  dropMask : Nat
  w : Nat
  oldest : Nat
  archSlot : Nat
  frozen : Bool
  frozenAt : Int
  pending : List Record
deriving DecidableEq, Repr

/-! ## HOST: the host ring engine -/

/-- A data ring (R315, R327, R328): DONE, POST as last read, SEQ, the posted buffers read, tokens shed since the last done
buffer, the buffer being filled and the tokens in it. -/
structure RingSt where
  done : Word
  post : Word
  seq : Word
  posted : List Posted
  shed : Nat
  fill : List Byte
  items : Nat
deriving DecidableEq, Repr

/-- What a lane answered to a command (R322). -/
structure LaneResult where
  status : Nat
  r0 : Word
  r1 : Word
deriving DecidableEq, Repr

/-- An accepted command that has not completed (R319): the completion's TAG, opcode, index and class, whether it was delivered to
the lanes, and what each lane answered. -/
structure OutCmd where
  id : Nat
  index : Word
  tag : BitVec 16
  opcode : Nat
  franked : Bool
  orphan : Bool
  x : Option LaneResult
  y : Option LaneResult
deriving DecidableEq, Repr

/-- Host loss (R337). -/
inductive Loss | none | suspended | stopped
deriving DecidableEq, Repr

/-- What the HRE has received of a lane's released tick for the state mirror (R330): the tick, its blocks, their entries and messages. -/
structure MirrorBuf where
  round : Nat
  blocks : List Nat
  entries : Tab Word
  msgs : Tab (List Word)
deriving DecidableEq, Repr

/-- The HRE and the PCIe function (R309 to R339, R442). -/
structure HreSt where
  cmdCons : Word
  cmdProd : Word
  cplProd : Word
  cplCons : Word
  evtProd : Word
  evtCons : Word
  rings : Tab (Option RingSt)
  devSeq : Word
  devImage : List Word
  devAt : Int
  firing : List Nat
  vecCount : Tab Nat
  vecAt : Tab (Option Int)
  vecPend : Tab Bool
  out : List OutCmd
  nextId : Nat
  orphans : List (List Word)
  orphansOver : Nat
  orphansLost : Nat
  evtLost : Nat
  evtGap : Nat
  losses : Nat
  loss : Loss
  pollFails : Nat
  beat : Option Word
  beatAt : Int
  indexErr : Bool
  mirrorRound : Word
  pollAt : Option Int
  knock : Bool
  linkUp : Bool
  busMaster : Bool
  d3hot : Bool
  perst : Bool
  functionMask : Bool
  ecrcGen : Bool
  ecrcChk : Bool
  cfgReadyAt : Option Int
  everRun : Bool
  bar : Nat
  evtHold : List Record
  mirror : Two MirrorBuf
deriving DecidableEq, Repr

/-! ## SEC and the test access port -/

/-- A key slot (R384, R385): 0 empty, 1 loaded, 2 DAMAGED, 3 destroyed. -/
structure KeySlot where
  status : Nat
  key : BitVec 128
deriving DecidableEq, Repr

/-- The Security Core and the test access port (R381 to R401). `keysWait` is an RCT_KEYS write that takes effect at the next round
start; `d2` a D2 unlock that waits for its lane's retirement: completion id, lane; `halted` and `injected` what DBG_LANE did in the
target lane, `written` the physical slates it wrote there; `decom` a decommissioning under way with LIFECYCLE_SET's completion id;
`drive` the drive instruction in force: 1 EXTEST, 2 INTEST, 3 CLAMP, 4 HIGHZ, 5 SCAN; `preload` the boundary register. -/
structure SecSt where
  lifecycle : Nat
  slots : List KeySlot
  cLast : Nat
  fdCount : Nat
  level : Nat
  target : Lane
  challenge : Option (List Byte × Int)
  challenges : Nat
  fails : Nat
  lockUntil : Option Int
  tapAt : Int
  d2 : Option (Nat × Lane)
  decom : Option Nat
  drive : Nat
  txGen : Nat
  rxMask : Nat
  keysWait : Option (Nat × Nat)
  halted : Bool
  steps : Nat
  injected : List Nat
  preload : List Bool
  written : Tab (List Word)
deriving DecidableEq, Repr

/-! ## Streams and history -/

/-- A block of a definition (R345): its definition, bytes, output index, TIME, whether TIME is local, the line sample it came with. A block of
no bytes is a mark: on the way to an STR ring the end of a definition's output (R348), in a region a pad block (R351). -/
structure Block where
  d : Nat
  bytes : List Byte
  k : Word
  time : Int
  lt : Bool
  n : Int
deriving DecidableEq, Repr

/-- A stream definition's running state (R340 to R349): active, first output instant still to come (RESTART), outputs withheld since
the last block, its last line index. -/
structure DefSt where
  en : Bool
  restart : Bool
  shed : Bool
  lastLine : Option Int
deriving DecidableEq, Repr

/-- A history region (R351 to R355): enabled, held, WPTR in bytes, wraps, SHED, HELD_AT, the end of a running countdown, the blocks
that stand in it with their offsets, oldest first, whether its first block is due, whether a block was shed since the last one kept, and the line sample of
that one. -/
structure RegionSt where
  en : Bool
  hold : Bool
  wptr : Nat
  wraps : Nat
  shed : Nat
  heldAt : Int
  countdown : Option Int
  armed : Bool
  blocks : List (Nat × Block)
  fresh : Bool
  gap : Bool
  lastN : Option Int
deriving DecidableEq, Repr

/-- Streams and the history store. `strq` the blocks formed for each STRn, `hisq` for each region, `strAt` the instant at which
FLUSH completes a buffer, `scrubAt` when the last scrub pass began and `scrubReduced` whether it was counted as reduced. -/
structure HscSt where
  defs : Tab (Option DefSt)
  regions : Tab (Option RegionSt)
  strq : Tab (List Block)
  hisq : Tab (List Block)
  strAt : Tab (Option Int)
  eccReady : Bool
  scrubAt : Int
  scrubReduced : Bool
deriving DecidableEq, Repr

/-! ## Records of a topology bank (R461) -/

/-- A head record (R123): port 0, 1 or 2 for FIELD, the first bins and widths of its zones, profile, speed bounds in 0.1 km/h. -/
structure HeadRec where
  port : Nat
  z1 : Nat
  w1 : Nat
  z2 : Nat
  w2 : Nat
  profile : Nat
  vmin : Nat
  vmax : Nat
deriving DecidableEq, Repr

/-- A head profile (06_counting_heads.md, Head profile). -/
structure Profile where
  koff : Nat
  kon : Nat
  ntShift : Nat
  envShift : Nat
  toff : Nat
  tmin : Nat
  nqCeil : Nat
  nqInit : Nat
  qh : Nat
  minOn : Nat
  hold : Nat
  lagMin : Nat
  maxOn : Nat
  blindLim : Nat
  blindMin : Nat
  failWin : Nat
  recWin : Nat
  warm : Nat
  legSep : Nat
deriving DecidableEq, Repr

/-- A section record (R461). -/
structure SectRec where
  nbound : Nat
  limit : Nat
deriving DecidableEq, Repr

/-- A boundary entry (R461): kinds 0 none, 1 head, 2 remote entry. -/
structure Bound where
  leadKind : Nat
  lead : Nat
  leadNeg : Bool
  coverKind : Nat
  cover : Nat
  coverNeg : Bool
deriving DecidableEq, Repr

/-- A remote head entry (R461). -/
structure Remote where
  node : Nat
  head : Nat
  minTransit : Nat
deriving DecidableEq, Repr

/-- A schedule entry (R255, R461). -/
structure Sched where
  ix : Nat
  kind : Nat
  index : Nat
  node : Nat
  cycle : Nat
  base : Nat
deriving DecidableEq, Repr

/-! ## Ports: the interrogation plan -/

/-- A plan of a port (R34 to R40), with the staged gauge it adopts (R92): bins, N_fibre, slot base, D, G, T_s in ns, t_off in ns,
gate widths and enables of the groups, gauge and strain scale, decimation M (R97). -/
structure Plan where
  b0 : Nat
  nbins : Nat
  fibreEnd : Nat
  slotBase : Nat
  div : Nat
  groups : Nat
  ts : Nat
  toff : Nat
  widths : List Nat
  en : Nat
  gauge : Nat
  scale : Nat
  decim : Nat
deriving DecidableEq, Repr

/-- A GROUP_RETUNE that is pending (R54): completion id, group, effective line index, gate width, enable. -/
structure Retune where
  id : Nat
  group : Nat
  n : Int
  width : Nat
  en : Bool
deriving DecidableEq, Repr

/-- A GAUGE_SET that is pending (R92): completion id, effective line index, gauge, scale. -/
structure GaugeReq where
  id : Nat
  n : Int
  gauge : Nat
  scale : Nat
deriving DecidableEq, Repr

/-- A shot as the STG latched it (R41, R45): line index, group, t_shot, gate width when lit, the marks of R54,
whether t_shot is in local time, the plan it was launched under with the strain scale in force (R93), and whether a GAUGE_SET took effect with it
(R92). -/
structure Shot where
  n : Int
  group : Nat
  t : Int
  lit : Option Nat
  dark : Bool
  step : Bool
  lt : Bool
  plan : Plan
  gset : Bool
deriving DecidableEq, Repr

/-- A PORT_START that is pending (R52). -/
structure StartReq where
  id : Nat
  t0 : Int
  plan : Plan
deriving DecidableEq, Repr

/-- A PLAN_APPLY that is pending (R53): P, the line index of P, the new t0, the new plan. -/
structure ApplyReq where
  id : Nat
  p : Int
  np : Int
  t0 : Int
  plan : Plan
deriving DecidableEq, Repr

/-- The STG of a port (R36 to R55). `run` is 0 stopped, 1 running, 2 stopped for holdover; `gap` between P and the new t0; `next` the
line index of the next shot; `last` that of the last one; `stop` a PORT_STOP's id and the instant its shot period ends; `lit` the
width of each group's last shot when it was lit; the latest shot's rise of SHOT_GATE and its width, 0 when it was dark (R42, R44), and the pin SLOT_CODE;
`holdStop` the instant at which the port stops for holdover. -/
structure StgSt where
  run : Nat
  plan : Option Plan
  t0 : Int
  next : Int
  last : Option Int
  gap : Bool
  start : Option StartReq
  stop : Option (Nat × Int)
  apply : Option ApplyReq
  retunes : List Retune
  gauge : Option GaugeReq
  lit : List (Option Nat)
  gateAt : Int
  gate : Nat
  code : Nat
  ng : Nat
  holdStop : Option Int
deriving DecidableEq, Repr

/-- The reference inputs (R47 to R49, R439): present and available for A and B, the PCIe reference and whether it was declared faulty, the selected one, the
disagreement, holdover and its start, whether ports stopped for it, the references marked unavailable since. -/
structure RefSt where
  aPresent : Bool
  bPresent : Bool
  aAvail : Bool
  bAvail : Bool
  pcie : Bool
  pcieFault : Bool
  sel : Option RefIn
  disagree : Bool
  holdover : Bool
  holdAt : Int
deriving DecidableEq, Repr

/-! ## Ports: converter links and ingest -/

/-- An extended multiblock in the release buffer (R62): its boundary, the arrival of its final pilot on each lane, whether every lane's pilot was at its
place, its containers, and how many lanes' CRC-12 failed for the one before it (R68). -/
structure Emb where
  k : Int
  ats : List Int
  pilots : Bool
  containers : List (BitVec 16)
  crcFails : Nat
deriving DecidableEq, Repr

/-- A converter link (R60 to R63): its state code, extended multiblocks in the window in a row, per lane the pilots missing in a row, the instant
from which it is ALIGNED, the entries into DOWN from ALIGNED within 1 s, CRC-12 failures of the round, the release buffer, and the released extended
multiblock whose CRC-12 outcome is still to come: its boundary, its first and last sampling instants (R66). -/
structure ConvSt where
  st : Nat
  inWindow : Nat
  missRun : List Nat
  alignedAt : Int
  downs : List Int
  crcRound : Nat
  buf : List Emb
  await : Option (Int × Int × Int)
deriving DecidableEq, Repr

/-- The converter link receiver of a port (R56 to R63): its converters and the LEMC grid. -/
structure ClrSt where
  conv : Two ConvSt
  grid : Option Int
deriving DecidableEq, Repr

/-- A data slate of the mailbag with its mark word (R65): its first instant, the X and Y containers, which instants each converter
has delivered (bit i for instant i), the mark word. -/
structure Slate where
  start : Int
  x : List (BitVec 16)
  y : List (BitVec 16)
  gotX : Nat
  gotY : Nat
  marks : Word
deriving DecidableEq, Repr

/-- A line-sample token handed to the SCH (R68) with its marks: MISSED, PREV_MISSED, OVERRUN, SHED_BULK (step 2), step 1 in force,
and the next 64-bin block to compute. -/
structure LineS where
  shot : Shot
  missed : Bool
  prevMissed : Bool
  overrun : Bool
  bulk : Bool
  noStream : Bool
  block : Nat
deriving DecidableEq, Repr

/-- Shot ingest of a port (R64 to R72): the mailbag, the instants lost under step 4, the line samples launched and not handed over,
those the SCH is computing, the steps in force, the group's last line sample MISSED or not, and the round's drops. -/
structure SinSt where
  slates : List Slate
  lost : List Int
  queue : List Shot
  lines : List LineS
  fill : Nat
  step1 : Bool
  step2 : Bool
  step3 : Bool
  lastMissed : List Bool
  missFirst : Option Int
  missCount : Nat
  overFirst : Option Int
  overCount : Nat
deriving DecidableEq, Repr

/-! ## Ports: channeliser and phase extractor -/

/-- A computed bin (R76 to R83): for each term t = 2(k - s0) + p its mantissas and its block's exponent, and the bin marks OVR_X, OVR_Y,
LINK_X, LINK_Y in bits 0 to 3. -/
structure BinM where
  b : Nat
  ai : List Int
  aq : List Int
  e : List Nat
  marks : Nat
deriving DecidableEq, Repr

/-- The reference of a bin for a group (R87). -/
structure PRef where
  theta : Int
  set : Nat
  line : Int
deriving DecidableEq, Repr

/-- The slow phase of a bin (R90) with the marks of its latest slow output: GAP, and those its increment carried. -/
structure SlowV where
  phi : Int
  w : Int
  gaps : Nat
  gap : Bool
  marks : Nat
deriving DecidableEq, Repr

/-- An increment token (R88): the cause of INVALID (0 valid, 1 DARK_MISSED, 2 NO_REFERENCE, 3 NO_SIGNAL, 4 EDGE), its value, quality,
marks, and the slow output (R90): the new one at a line sample of the slow group, the last one repeated at another. -/
structure Inc where
  cause : Nat
  v : Int
  q : Nat
  marks : Nat
  slow : Option SlowV
deriving DecidableEq, Repr

/-- A line sample in the FCH's corner-turn (R95): line index, t_shot and its base, the plan's T_s, Δ, t_off, G and M, whether it begins
a plan or a gauge change, the strain scale in force (R91), whether it is of the slow group (R90), whether step 1 is in force, the increments of its computed bins, and for FIELD by how much each system's t_shot lies
after this one (R121). -/
structure LineTok where
  n : Int
  t : Int
  lt : Bool
  ts : Int
  delta : Int
  toff : Int
  groups : Nat
  start : Bool
  gaugeNew : Bool
  scale : Nat
  ofSlow : Bool
  decim : Nat
  noStream : Bool
  bins : List (Nat × Inc)
  offs : List (Nat × Int)
deriving DecidableEq, Repr

/-- The PHX of a port (R82 to R93): QMIN and SLEW_LIMIT as the line sample in progress found them, the computed bins of the line sample in progress not yet combined, its increments, the references
keyed 8 b + j, the slow phases, the slow group in force and whether its first output is still due, the gauge in force and the one
of the line sample before. -/
structure PhxSt where
  qmin : Nat
  slew : Nat
  part : List BinM
  incs : List (Nat × Inc)
  refs : Tab (Option PRef)
  slow : Tab (Option SlowV)
  slowR : Option Nat
  slowFresh : Bool
  gauge : Option Nat
  gaugeWas : Option Nat
deriving DecidableEq, Repr

/-! ## Filter chains -/

/-- A value with its quality and marks inside a filter chain. -/
structure Samp where
  v : Int
  q : Nat
  m : Nat
deriving DecidableEq, Repr

/-- The state of a biquad section (R104). -/
structure Biq where
  x1 : Int
  x2 : Int
  y1 : Int
  y2 : Int
deriving DecidableEq, Repr

/-- The slate of a bin (R95 to R119): waiting for a restart, its restart line, its last line, the held value, the spike window and the
decimator history newest first, the biquads and whether they take their first input, the marks of the decimated inputs newest
first, the decimated values by index, the slow output. -/
structure FBin where
  down : Bool
  nR : Option Int
  last : Option Int
  held : Int
  win : List Samp
  hist : List Samp
  bq : List Biq
  fresh : Bool
  decM : List Nat
  ring : List (Nat × Samp)
  slow : Option SlowV
deriving DecidableEq, Repr

/-- A sync that is pending (R115): source 0 SYNC_IN, 1 FILTER_SYNC, 2 network time; t_y, its base, a FILTER_SYNC's completion id. -/
structure SyncReq where
  src : Nat
  ty : Int
  lt : Bool
  id : Nat
deriving DecidableEq, Repr

/-- A BANK_SWAP that is pending (R114). -/
structure SwapReq where
  id : Nat
  ns : Int
deriving DecidableEq, Repr

/-- A decimation point (R110): its index since the last sync, t_shot less the declared delays, its base, its period M Δ. -/
structure DecLine where
  k : Nat
  tb : Int
  lt : Bool
deriving DecidableEq, Repr

/-- A head-branch output of a bin (R104). -/
structure HOut where
  bin : Nat
  s : Samp
deriving DecidableEq, Repr

/-- A decimation point as the HEN takes it (R110, R127): kind 0; line index, t_shot, t_hb less the skew, t_off, the base, the decimated
period, the head-branch outputs. Kind 1 is the start of a plan or gauge, kind 2 the end of a plan by PORT_STOP (R144). -/
structure ZPoint where
  kind : Nat
  n : Int
  t : Int
  thb : Int
  toff : Int
  lt : Bool
  pd : Int
  outs : List HOut
  offs : List (Nat × Int)
deriving DecidableEq, Repr

/-- A filter chain (R95 to R122). `bankB` the active bank; `nY` the last sync; `gate` the first line with output; `implicit` an
implicit sync to come; `k` the index of the next decimator output since the last sync; `evK`, `evU`, `evTail` the counts of R118
(first output after the event, unsettled decimator outputs, TAIL) and `evSync` whether the event was a sync; `bankStep` and `strStep`
that the next outputs are the first under a new bank; `close` the last line before a plan change, `endAt` the last line before PORT_STOP; `entered` the
latest line of the plan in force that entered, its t_shot and its base; the resampler: running, its first decimated index, i, frac, the next output index,
whether a restart is due, whether it waits for a support all in network time from line `flip`. -/
structure FchSt where
  run : Bool
  bankB : Bool
  m : Nat
  groups : Nat
  nY : Option Int
  gate : Int
  implicit : Option Int
  gaugeWin : Option (Int × Int)
  syncs : List SyncReq
  swap : Option SwapReq
  k : Nat
  evK : Nat
  evU : Nat
  evTail : Nat
  bankStep : Bool
  strStep : Bool
  buf : List LineTok
  close : Option Int
  endAt : Option Int
  entered : Option (Int × Int × Bool)
  bins : Tab (Option FBin)
  decs : List DecLine
  rsOn : Bool
  rsDue : Bool
  rsBase : Nat
  rsI : Nat
  rsFrac : Nat
  rsK : Nat
  flip : Option Int
  lastLt : Bool
  slowT : Option (Int × Bool)
  zq : List ZPoint
deriving DecidableEq, Repr

/-- A FILTER_SYNC under way (R115): completion id, the instances whose sync is still to come, the lowest accepted instance, its n_y,
the status so far. -/
structure FSync where
  id : Nat
  left : Nat
  low : Nat
  ny : Int
  st : Nat
deriving DecidableEq, Repr

/-- The three filter chains. -/
structure Three (α : Type) where
  f0 : α
  f1 : α
  fld : α
deriving DecidableEq, Repr

/-! ## Lanes: head engine -/

/-- A lane's condition (R455, LCM_STATUS). -/
inductive LaneCond | serving | failSilent | retired | readmission
deriving DecidableEq, Repr

/-- The maximum of an envelope in a run with its neighbours (R132, R133): sample index, value, the values before and after, t_zone, whether
the sample is blind. -/
structure ZTrack where
  m : Nat
  e : Int
  em : Int
  ep : Option Int
  t : Int
  blind : Bool
deriving DecidableEq, Repr

/-- A zone of a head (R127 to R134): envelopes, noise estimate, hold count, the run in progress (first sample, frozen t_off, the time of
its first sample with its base, and of its last sample, the three maxima, SAT and MINPHASE, whether its beginning is doubtful), the last blind sample, and the
runs of a legacy zone: the first and closing sample of its last run, whether it is the outer run of a nested pair; t_on of the run and the lowest
envelope since the run before (R223). -/
structure ZoneSt where
  env : Int
  envF : Int
  envL : Int
  nq : Nat
  hold : Nat
  on : Bool
  ma : Nat
  tOff : Int
  startT : Int
  startLt : Bool
  lastT : Int
  top : Option ZTrack
  topF : Option ZTrack
  topL : Option ZTrack
  marks : Nat
  doubtStart : Bool
  lastBlind : Option Nat
  prevA : Option Nat
  prevB : Nat
  outer : Bool
  tOn : Int
  low : Option Int
deriving DecidableEq, Repr

/-- An entry of a between-list (R137): origin zone, peak time, base, marks DOUBT, SAT, MINPHASE as bits 3, 5, 4 of R143. -/
structure Entry where
  origin : Nat
  t : Int
  lt : Bool
  marks : Nat
deriving DecidableEq, Repr

/-- A head in a lane (R126 to R152): state code, sample index, zones, between-list from the Z1 end, the blind run with the time and base of its
first sample, the open span, clean
samples toward WARM, the supervision window, faulty and clean windows in a row, whether a slate failure takes it to SETTLING at its next
sample, whether its seed is due (R225), whether it has had a sample since SETTLING, the last sample's time and base and darkness, its overdue entries, what the next status covers, its last watermark, events of the tick, counters. -/
structure HeadSt where
  st : Nat
  m : Nat
  z1 : ZoneSt
  z2 : ZoneSt
  list : List Entry
  blindRun : Nat
  blindT : Int
  blindLt : Bool
  span : Bool
  warm : Nat
  win : Nat
  wBlind : Nat
  wHigh1 : Nat
  wHigh2 : Nat
  wLow : Nat
  wFault : Bool
  wWhole : Bool
  faulty : Nat
  clean : Nat
  slateNext : Bool
  seedDue : Bool
  sampled : Bool
  tLast : Option Int
  lt : Bool
  dark : Bool
  overdue : Nat
  sN : Nat
  sPend : Nat
  sOver : Nat
  sOn1 : Bool
  sOn2 : Bool
  wPrev : Option Int
  evTick : Nat
  cnt : List Nat
deriving DecidableEq, Repr

/-- A head event (R143); `rst` the section whose reset issued a FLUSH (R177). -/
structure HEvent where
  ty : Nat
  neg : Bool
  lt : Bool
  zone : Nat
  pending : Nat
  head : Nat
  t : Int
  data : Nat
  marks : Nat
  rst : Option Nat
deriving DecidableEq, Repr

/-- A head status (R140, R156): state, the start of its interval, its watermark, whether the watermark was measured in local time, pending and
overdue entries, ON flags, open span. -/
structure HStatus where
  head : Nat
  st : Nat
  start : Int
  w : Int
  lt : Bool
  pend : Nat
  nOver : Nat
  on1 : Bool
  on2 : Bool
  span : Bool
deriving DecidableEq, Repr

/-- What a ledger takes (R157, R160): a head's event or status, from this device (`none`) or from another node. -/
inductive HItem
  | ev (remote : Option Nat) (e : HEvent)
  | status (remote : Option Nat) (x : HStatus)
deriving DecidableEq, Repr

/-- A retired segment of a port (R202, R203): b_k and its clean head samples in a row. -/
structure Segment where
  bk : Nat
  clean : Nat
deriving DecidableEq, Repr

/-- The head engine of a lane: its heads, its event queue, its segments, whether a BURST episode runs (R149). -/
structure HenSt where
  heads : Tab (Option HeadSt)
  queue : List HItem
  segs : Two (Option Segment)
  burst : Bool
deriving DecidableEq, Repr

/-! ## Lanes: section ledger -/

/-- The effect of an item (R160). -/
inductive ItemEv
  | status (x : HStatus)
  | axle (e : HEvent)
  | contrib (inward doubtful : Bool)
  | spanOpen | spanClose
  | state (st : Nat)
  | flush (n : Nat) (rst : Option Nat)
  | overflow | rock
deriving DecidableEq, Repr

/-- An item that waits for its key in a section (R160 to R163): key, class of R162, boundary, lead or cover, arrival order, late. -/
structure SItem where
  key : Int
  cls : Nat
  bi : Nat
  cover : Bool
  ord : Nat
  late : Bool
  ev : ItemEv
deriving DecidableEq, Repr

/-- A head of a boundary as its section has applied it (R158): state once an item gave one, open span, the last status, and the
watermark and arrival of the latest status that reached the ledger. -/
structure BHead where
  st : Option Nat
  span : Bool
  last : Option HStatus
  w : Option Int
deriving DecidableEq, Repr

/-- A boundary of a section: its heads, its condition (0 current, 1 SILENT, 2 LOST), since when it is blind, whether that disturbed its section, T_0 (R167, R171). -/
structure BoundSt where
  lead : BHead
  cover : BHead
  cond : Nat
  blindAt : Option Int
  blindHit : Bool
  t0 : Int
deriving DecidableEq, Repr

/-- A command pending for a section (R176): completion id, 0 PREP, 1 COND, 2 DIRECT, 3 RESTORE_CONFIRM, R_ref, R_e. -/
structure SCmd where
  id : Nat
  kind : Nat
  ref : Nat
  re : Nat
deriving DecidableEq, Repr

/-- A tick of a net log (R169): the tick's round, the sum, whether it saturated. -/
structure NetTick where
  round : Nat
  sum : Int
  sat : Bool
deriving DecidableEq, Repr

/-- A section in a lane (R153 to R184): state code, count, cause, DOUBTFUL, net log newest first, sum of the tick, items applied in the
tick, applied instant, waiting items, boundaries, the pending command, whether an in-contribution came since PREP_RESET, the last
contribution of each tick that had one (round, inward) newest first, the entry last published, counters. -/
structure SectSt where
  st : Nat
  count : Int
  cause : Nat
  doubtful : Bool
  net : List NetTick
  sum : Int
  applied : Nat
  at_ : Option Int
  items : List SItem
  bounds : List BoundSt
  cmd : Option SCmd
  swept : Bool
  last : List (Nat × Bool)
  entry : Word
  cnt : List Nat
deriving DecidableEq, Repr

/-- The ledger of a lane: its sections, arrivals so far, ORDERTOL in µs and TWIN in ms in force, where publication stopped, SEQ by
block, whether it has ticked in the joined time base and when first. -/
structure SldSt where
  sects : Tab (Option SectSt)
  arrivals : Nat
  orderTol : Nat
  twin : Nat
  next : Nat
  seq : Tab Nat
  entries : Tab Word
deriving DecidableEq, Repr

/-! ## Lanes: comparison -/

/-- A located fault that waits for its retirement (R189, R199): check, HARD, round of the tick, LANE_RETIRE's completion id. -/
structure LFault where
  check : Nat
  hard : Bool
  round : Nat
  id : Option Nat
deriving DecidableEq, Repr

/-- A re-admission in progress (R201): its step, LANE_READMIT's completion id, shadow ticks to come, whether step 6 is complete. -/
structure Readmit where
  step : Nat
  id : Option Nat
  shadow : Nat
  joined : Bool
  since : Int
deriving DecidableEq, Repr

/-- The comparison of the tick in one lane (R191 to R194): the round, its digests, its outcome (mismatching blocks; `none` not yet),
uncompared, the blocks it may release, the count messages formed. -/
structure CompSt where
  round : Nat
  dig : List Word
  out : Option (List Nat)
  uncomp : Bool
  rel : List Nat
  msgs : Tab (List Word)
deriving DecidableEq, Repr

/-- The comparison modules and the lanes' conditions (R187 to R201): lead lane, faults, re-admissions, retirements within 3 600 s, uncompared
ticks in a row, adoptions within 3 600 s, the round in which each section was last adopted, mismatching blocks of the last tick, the words of each lane's
control-flow signature of the tick as its steps and as its monitor form them (R188). -/
structure LcmSt where
  cond : Two LaneCond
  lead : Lane
  fault : Two (Option LFault)
  readm : Two (Option Readmit)
  retired : Two (List Int)
  comp : Two CompSt
  uncompRun : Nat
  adopts : List Int
  adopted : Tab (Option Nat)
  mismatch : Nat
  sig : Two (List Word)
  sigRef : Two (List Word)
deriving DecidableEq, Repr

/-- A converter change of a port that its segment guard has still to meet (R202), and the last change of state (R203). -/
structure ConvNote where
  align : Option Int
  any : Option Int
deriving DecidableEq, Repr

/-! ## FIELD: the legacy front end -/

/-- A sense sample (R237, R239): strobe, its base, how far the counter has stepped since (R293), code, range, value, and in bits 0 to 4 CLIP, CLAMP,
CLAMP_NB, from the internal reference, clipped on the highest usable range. -/
structure LSamp where
  t : Int
  lt : Bool
  mv : Int
  code : Int
  r : Nat
  v : Int
  m : Nat
deriving DecidableEq, Repr

/-- A test burst (R245, R246): number, start, end, frequency word, bb at its start, sums of tone values, how many, whether skipped, whether the
windows that overlap it are past. -/
structure Burst where
  n : Nat
  start : Int
  stop : Int
  f : Nat
  bb : Int
  ti : Int
  tq : Int
  cnt : Nat
  skip : Bool
  past : Bool
deriving DecidableEq, Repr

/-- A channel in LEGACY_CAL (R220, R250): its first instant, range and point (zero, plus, minus) under measurement, conversions taken at the point, the
sums, whether a clamp disturbed the range, whether this is its second measurement, the pairs accepted by range, whether the reference fault stood. -/
structure RefCal where
  start : Int
  range : Nat
  point : Nat
  k : Nat
  s0 : Int
  sp : Int
  sm : Int
  dist : Bool
  again : Bool
  pairs : List (Nat × Int × Int)
  sick : Bool
deriving DecidableEq, Repr

/-- A system (R233 to R248): the excitation in force (EN, FREQ, AMP), its epoch, the range of the next conversion, samples toward a lower range, the value
index of a change still to come, EN written 0 since the last change, the calibration of its channel, the last 89 samples newest first, the UNSETTLED values, the first capture value still to come with the
capture's count and sums, whether a capture has ended since the start, the baseline, faults 1 to 8, readings below and at or above IMIN in a row, per sign of
the tone bursts failed and passed in a row and the failure that stands, a held clamp with its sign, the last one released (trip, release, sign), values in a row with a clip on the highest usable range and
without CLIP, a burst, the last q. -/
structure LSys where
  en : Bool
  freq : Nat
  amp : Nat
  te : Int
  range : Nat
  down : Nat
  change : Option Nat
  enLow : Bool
  ref : Option RefCal
  win : List LSamp
  uns : Option (Nat × Nat)
  cap : Option Nat
  capN : Nat
  capI : Int
  capQ : Int
  seen : Bool
  b48i : Int
  b48q : Int
  faults : List Bool
  low : Nat
  good : Nat
  toneBad : Two Nat
  toneGood : Two Nat
  toneStand : Two Bool
  clamp : Option (Int × Bool)
  past : Option (Int × Int × Bool)
  clipRun : Nat
  cleanRun : Nat
  burst : Option Burst
  q : Word
deriving DecidableEq, Repr

/-- A SAR (R235, R236): the cycle and slot of its next sense conversion, reference readings outside and within 18 codes in a row, the end of the last
conversion, a routine conversion due (its strobe, place in the rotation, reading), when the last urgent one granted begins, urgent ones still to run (their
beginning, system, reading). -/
structure LSar where
  c : Nat
  k : Nat
  bad : Nat
  good : Nat
  free : Int
  routine : Option (Int × Nat × Int)
  urg : Option Int
  wait : List (Int × Nat × Int)
deriving DecidableEq, Repr

/-- A value that waits for the other systems' values of its index: h, system, increment, t_shot, how far the counter has stepped since. -/
structure LVal where
  h : Nat
  s : Nat
  inc : Inc
  t : Int
  lt : Bool
  mv : Int
deriving DecidableEq, Repr

/-- The legacy front end (R233 to R250): running, t_G, the housekeeping rotation, the SARs, the systems, values waiting, housekeeping results. -/
structure LhfSt where
  on : Bool
  tG : Int
  tT : Int
  rot : Nat
  sar : Two LSar
  sys : List LSys
  vals : List LVal
  temp : Int
  vin : Nat
  ref0 : Int
  ref1 : Int
deriving DecidableEq, Repr

/-! ## Surveys, sweeps, seeds -/

/-- The sums of one term of a group in a SURVEY (R217): levels, their sum, bins left out for OVR and LINK, line indices seen. -/
structure TermAcc where
  cnt : Nat
  sum : Nat
  ovr : Nat
  link : Nat
  seen : Nat
deriving DecidableEq, Repr

/-- The sums of one bin in a SURVEY (R218): qualities and their number, FADED, INVALID, tokens. -/
structure BinAcc where
  q : Nat
  n : Nat
  faded : Nat
  inv : Nat
  seen : Nat
deriving DecidableEq, Repr

/-- A SURVEY under way (R216): completion id, mode BIN, b_a, bins, line indices to take, buffer, whether it began, taken, missed, sums. -/
structure Survey where
  id : Nat
  bin : Bool
  ba : Nat
  nb : Nat
  lines : Nat
  buf : Nat
  begun : Bool
  taken : Nat
  missed : Nat
  terms : Tab (Option TermAcc)
  bins : Tab (Option BinAcc)
deriving DecidableEq, Repr

/-- The sums of one head in a sweep (R223). -/
structure SweepRec where
  pos : Nat
  neg : Nat
  doubt : Nat
  odd : Nat
  margin : Option Nat
  valley : Option Nat
  lag : Option Nat
  unknown : Nat
  first : Option Int
  vmin : Option Nat
  vmax : Option Nat
deriving DecidableEq, Repr

/-- A LEGACY_CAL under way (R220): completion id, channels still in calibration, the result word. -/
structure LegCal where
  id : Nat
  left : List Nat
  res : Nat
deriving DecidableEq, Repr

/-- A SWEEP_CAL under way (R222): completion id, first head, count, end, buffer, what each head showed, the records at the end of the duration. -/
structure Sweep where
  id : Nat
  first : Nat
  count : Nat
  endAt : Int
  buf : Nat
  recs : Tab (Option SweepRec)
  words : Option (List Word)
deriving DecidableEq, Repr

/-- Calibration under way (R216 to R225): surveys, the sweep, a seed save (completion id, 0 for a periodic one, and its generation), the operating second of
the last periodic save, LEGACY_CAL. -/
structure CalSt where
  survey : Two (Option Survey)
  sweep : Option Sweep
  seed : Option (Nat × Word)
  seedAt : Nat
  legacy : Option LegCal
deriving DecidableEq, Repr

/-! ## Network -/

/-- A record of a letter stream (R265): SEQ, the instant it entered, its four words. -/
structure LRec where
  seq : Nat
  at_ : Int
  words : List Word
deriving DecidableEq, Repr

/-- A lane's letter stream (R265 to R268): the records not yet sent, oldest first, the next SEQ, the epoch, and per head the state, ON flags,
pending and overdue counts and open span of the status that last entered. -/
structure LStream where
  recs : List LRec
  next : Nat
  epoch : Nat
  last : Tab (Option (List Nat))
deriving DecidableEq, Repr

/-- One valid copy of a LETTERS frame that waits for its merge (R262, R269): until when the second copy is waited for, DYN, INDEX, ROUND, SEQ of the first
record, EPOCH, records. -/
structure LCopy where
  due : Int
  dyn : Bool
  index : Nat
  round : Nat
  seq : Nat
  epoch : Nat
  recs : List (List Word)
deriving DecidableEq, Repr

/-- What a lane keeps of a sending node: its LOOP and DIRECT on the lane's channel (R283), E and the epoch (R269), the last 256 accepted records
with their SEQ, newest first (R408), the copies that wait. -/
structure Peer where
  loop : Option (Nat × Bool)
  next : Option (Nat × Nat)
  kept : List (Nat × List Word)
  held : List LCopy
deriving DecidableEq, Repr

/-- A valid TIME or STARTUP frame of the round (R289): sender, MASTER, whether a STARTUP, SYNC, ELIGIBLE, RESIGN. -/
structure TimeSeen where
  node : Nat
  master : Nat
  startup : Bool
  sync : Bool
  eligible : Bool
  resign : Bool
deriving DecidableEq, Repr

/-- A released count message that waits for a slot (R263): block, round of its tick, release, words. -/
structure QMsg where
  block : Nat
  round : Nat
  at_ : Int
  words : List Word
deriving DecidableEq, Repr

/-- A poll of a master that awaits its reply: the entry's address, REQ, the reply timeout in ns, the instant of the POLL's last code group or stop
bit, SEQ on the legacy bus. -/
structure PollOut where
  addr : Nat
  req : Nat
  wait : Int
  tEnd : Int
  seq : Nat
deriving DecidableEq, Repr

/-- A frame that a lane has claimed a bay for (R268, R270): dynamic ID, records or DIAG payload it covers. -/
structure Claimed where
  id : Nat
  recs : Nat
  diag : Bool
deriving DecidableEq, Repr

/-- The RCT of a lane (R251 to R298). `keys` the working copies of NET0 to NET3 (R386); `st` is 0 LISTEN, 1 COLDSTART, 2 INTEGRATING, 3 JOINED, entered at `since`; `on` that it left reset in a
mode and with an ID that use these states; `delta` the tentative Δ; `loops` the last samples, newest first; `dep` the departures of probes not answered; `probed` that of the
last probe; `d` the last deviation and `dNow` that of the round; `lost` that no d exists until a successor
of the master is found (R289); `noD` rounds in a row without one; `runs` rounds integrating; `full`
whether the round in progress runs whole; `ok` and `bad` its frames under R292; `own` whether the lane may send on its channel (R296), `shut` that its guardian closed in this round (R297); `quiet` and
`back` the rounds of R298; `heard` a valid frame in this round; `times` the round's valid TIME and STARTUP frames; `mRound` the last round with one of
the master; `resign` rounds in which RESIGN is still due; `elig` whether it was eligible; `newMaster` a master for the next round; `met` and `metNow` the
other network of R295; `marks` the last accepted watermark of each remote head; `used` the frames of which a copy was used; `claims` the claims of the
round, none for an unknown one; `poll`, `pollIx`, `pollAt` the polling master's walk; `reply` a reply that is due. -/
structure RctSt where
  keys : List (Option (BitVec 128))
  on : Bool
  st : Nat
  since : Int
  master : Nat
  delta : Int
  loops : List Int
  dep : List Int
  probed : Option Int
  rho : Int
  sigma : Int
  lost : Bool
  d : Option Int
  dNow : Option Int
  noD : Nat
  runs : Nat
  full : Bool
  ok : Bool
  bad : Bool
  own : Bool
  shut : Bool
  silent : Bool
  quiet : Nat
  back : Nat
  heard : Bool
  times : List TimeSeen
  mRound : Option Nat
  resign : Nat
  elig : Bool
  newMaster : Option Nat
  met : Option (Nat × Nat)
  metNow : Option (Nat × Int)
  peers : Tab (Option Peer)
  marks : Tab (Option Int)
  used : List (Nat × Bool × Nat × Nat)
  queue : List QMsg
  stream : LStream
  diag : List (Nat × List Byte)
  claims : List (Nat × Option Nat)
  claimed : List Claimed
  poll : Option PollOut
  pollIx : Nat
  pollAt : Int
  reply : Option (Nat × Int)
deriving DecidableEq, Repr

/-- A branch of the ridge (R299, R301): its loop samples, the departures of probes not answered, that of the last probe, rounds in a row with a violation, whether this one
has one and of which NODE, the round from which it is forwarded again, whether a frame of it is being forwarded and until when its window is open. -/
structure BranchSt where
  loops : List Int
  dep : List Int
  probed : Option Int
  viol : Nat
  violNow : Bool
  node : Nat
  blocked : Option Nat
  fwd : Option Int
deriving DecidableEq, Repr

/-- The ridge role (R299 to R303): SCHEDULED, the master, ρ, σ and d, whether no d exists until a successor is found (R289), the last round with a valid frame of the master or a successor, the claims
forwarded, the round's TIME and STARTUP frames, a master for the next round, branches, the STARTUP being forwarded while IDLE with its end. -/
structure RidgeSt where
  sched : Bool
  master : Nat
  rho : Int
  sigma : Int
  lost : Bool
  d : Option Int
  dNow : Option Int
  mRound : Option Nat
  claims : List (Nat × Option Nat)
  times : List TimeSeen
  newMaster : Option Nat
  branches : List BranchSt
  idleFwd : Option (Nat × Int)
deriving DecidableEq, Repr

/-- A reflection that a port has still to send (R281): the arrival of its request. -/
structure Reflect where
  port : Nat
  at_ : Int
deriving DecidableEq, Repr

/-- The ring ports (R304, R305): RP2 and RP3 broken, the queue for each output: its frames, oldest first. -/
structure RingNet where
  rp2Broken : Bool
  rp3Broken : Bool
  q3 : List (List Byte)
  q2 : List (List Byte)
deriving DecidableEq, Repr

/-- What the legacy bus master keeps of an OB1160 (R277): in service, CNT_POS, CNT_NEG, t_prev, wm_prev. -/
structure Ob1160 where
  service : Bool
  pos : Nat
  neg : Nat
  tPrev : Option Int
  wmPrev : Int
deriving DecidableEq, Repr

/-- A local head as the legacy bus shows it (R278): AXLE + and − events modulo 256, the last four with their TIME, newest first, the Z1 and Z2
flags of its last status. -/
structure SlaveHead where
  pos : Nat
  neg : Nat
  hist : List (Bool × Int)
  on1 : Bool
  on2 : Bool
deriving DecidableEq, Repr

/-- The legacy round port (R276 to R278): the mode and the slave addresses with their heads that are in force in this poll cycle (R253), the walk's start, whether it runs, the entry it stands at, the instant from which the next poll may leave, the
poll that awaits a reply, the OB1160s; heads shown as a slave, addresses that have replied, a reply that is due: address, SEQ, instant. -/
structure LBusSt where
  mode : Nat
  shown : List (Nat × Nat)
  walkAt : Option Int
  running : Bool
  ix : Nat
  nextAt : Int
  out : Option PollOut
  nodes : Tab (Option Ob1160)
  heads : Tab (Option SlaveHead)
  replied : List Nat
  reply : Option (Nat × Nat × Int)
deriving DecidableEq, Repr

/-- The network-time counter of a lane or of RING (R280): the count of ns and the fraction in 2^-32 ns. -/
structure Clock where
  ns : Int
  frac : BitVec 32
deriving DecidableEq, Repr

/-- The round network (R251 to R308). `tx` the start and end of the last frame each round port sent (R281); `los` the instant of the last RPn_LOS of each (R465); `ringMode` and `intwin` RCT_RING.MODE and
RCT_TIME.INTWIN in force in this round (R253, R308). `joined` and `joinAt` are the first join, from which the counters are in network time; `offset` its O_j; `joins` the
joins since power-up; `ridge` whether the device left reset in ridge role (R251); `wasPoll` whether it left reset in a polled mode; `dead` the instant of
the last recorded dead letter of each port. -/
structure NetSt where
  joined : Bool
  joinAt : Int
  offset : Int
  joins : Nat
  ridge : Bool
  ridgeChan : Lane
  rct : Two RctSt
  rdg : RidgeSt
  refl : List Reflect
  ring : RingNet
  bus : LBusSt
  dead : Tab (Option Int)
  tx : Tab (Option (Int × Int))
  los : Tab (Option Int)
  ringMode : Nat
  intwin : Nat
deriving DecidableEq, Repr

/-- The counters of network time that carry their own corrections (R280, R300). -/
structure Clocks where
  x : Clock
  y : Clock
  ring : Clock
deriving DecidableEq, Repr

/-! ## The machine -/

/-- The whole block. `now` is the instant of the command being served; `clk` the network-time counters of Lane X, Lane Y and RING (R280, R300); `rdata` what the last read returned; `free` counts the open
values drawn so far; `pending` the commands that wait, first in first out. -/
structure State where
  pending : List Instr
  now : Int
  clk : Clocks
  out : List Out
  rdata : List Word
  ctr : Tab Nat
  free : Nat
  regs : RegSt
  dom : Doms
  bsc : BscSt
  pst : PstSt
  erc : ErcSt
  hre : HreSt
  sec : SecSt
  hsc : HscSt
  stg : Two StgSt
  refs : RefSt
  clr : Two ClrSt
  sin : Two SinSt
  phx : Two PhxSt
  fch : Three FchSt
  fsync : List FSync
  hen : Two HenSt
  sld : Two SldSt
  lcm : LcmSt
  convNote : Two ConvNote
  rctq : Two (List HItem)
  lhf : LhfSt
  cal : CalSt
  net : NetSt
deriving DecidableEq, Repr

/-! ## Reset values -/

/-- A domain that is off, at B0 (R458: FLOOR, BAND and DSTATE read 0). -/
def DomSt.reset : DomSt :=
  { st := .off, band := 0, floor := 0, settle := none, since := 0, idle := 0, busy := false, below := false, restarts := [] }

/-- AON ACTIVE at its fixed 0.80 V (R360); every other domain off (R458: DSTATE reads 0). -/
def Doms.reset : Doms :=
  { aon := { DomSt.reset with st := .active, band := 3, floor := 3 }, port0 := DomSt.reset, port1 := DomSt.reset, lanex := DomSt.reset, laney := DomSt.reset,
    ring := DomSt.reset, host := DomSt.reset, field := DomSt.reset }

/-- No register differs from its reset value (R453). -/
def RegSt.reset : RegSt := { rw := [], held := [], latch := [], owed := [], laneX := [], laneY := [] }

/-- BSC_STAT.STATE reads 2, START, at reset (R458); no LEAN cause (R444). -/
def BscSt.reset : BscSt :=
  { aon := .released, power := .start, halt := .none, wakeWait := false, bringup := 0, tested := ⟨false, false⟩, leanRequest := false, leanAon := false,
    leanThermal := false, leanCurrent := false, iAvg := 0, tj := 0, hot := 0, cool := 0, nOver := 0, under := 0, trip := 0,
    pace := ⟨false, false⟩, jobs := [], running := [], standbyAt := none, rstLow := false, restartHold := [] }

/-- An empty tick buffer. -/
def ShadowBuf.reset : ShadowBuf := { round := 0, time := 0, lt := false, solo := false, bad := false, blocks := [], entries := [] }

/-- Nothing received of a tick. -/
def MirrorBuf.reset : MirrorBuf := { round := 0, blocks := [], entries := [], msgs := [] }

/-- The NVM as delivered, both banks INACTIVE and none committed (R423, R426, R453). -/
def PstSt.reset : PstSt :=
  { words := [], bad := [], gauge := [], gaugeKept := [], wq := [], commits := [], opSeconds := 0, opCommits := 0,
    cycles := 0, cres := 0, cresK := 0, selSeq := 0, selK := 0, bankA := .inactive, bankB := .inactive, committed := none, committedGen := 0,
    genActive := 0, everActive := false, topo := none, discarded := 0, cleanDown := false, lostDown := 0,
    shadow := ⟨⟨ShadowBuf.reset, ShadowBuf.reset⟩, ⟨ShadowBuf.reset, ShadowBuf.reset⟩⟩ }

/-- An empty recorder, not frozen (R444, R458). -/
def ErcSt.reset : ErcSt :=
  { inbox := [], queued := 0, dropped := [], dropPending := 0, dropMask := 0, w := 0, oldest := 0, archSlot := 0, frozen := false,
    frozenAt := 0, pending := [] }

/-- HRE_CTL.RUN reads 0, every ring disabled, no orphans (R444). -/
def HreSt.reset : HreSt :=
  { cmdCons := 0, cmdProd := 0, cplProd := 0, cplCons := 0, evtProd := 0, evtCons := 0, rings := [], devSeq := 0, devImage := [],
    devAt := 0, firing := [], vecCount := [], vecAt := [], vecPend := [], out := [], nextId := 0, orphans := [], orphansOver := 0,
    orphansLost := 0, evtLost := 0, evtGap := 0, losses := 0, loss := .none, pollFails := 0, beat := none, beatAt := 0,
    indexErr := false, mirrorRound := 0, pollAt := none, knock := false, linkUp := false, busMaster := false,
    d3hot := false, perst := false, functionMask := false, ecrcGen := false, ecrcChk := false, cfgReadyAt := none,
    everRun := false, bar := 0, evtHold := [], mirror := ⟨MirrorBuf.reset, MirrorBuf.reset⟩ }

/-- An empty key slot (R458: SLOTS reads 0). -/
def KeySlot.reset : KeySlot := { status := 0, key := 0 }

/-- MANUFACTURE at D3, every key slot empty, no challenge held (R392, R444, R458). -/
def SecSt.reset : SecSt :=
  { lifecycle := 1, slots := List.replicate 5 KeySlot.reset, cLast := 0, fdCount := 0, level := 3, target := .x, challenge := none,
    challenges := 0, fails := 0, lockUntil := none, tapAt := 0, d2 := none, decom := none, drive := 0, txGen := 0, rxMask := 1, keysWait := none,
    halted := false, steps := 0, injected := [], preload := [], written := [] }

/-- No definition active, every region empty (R444). -/
def HscSt.reset : HscSt :=
  { defs := [], regions := [], strq := [], hisq := [], strAt := [], eccReady := false, scrubAt := 0, scrubReduced := false }

/-- A stopped port: SHOT_GATE low, SLOT_CODE 0b000 (R44, R444). -/
def StgSt.reset : StgSt :=
  { run := 0, plan := none, t0 := 0, next := 0, last := none, gap := false, start := none, stop := none, apply := none, retunes := [],
    gauge := none, lit := List.replicate 8 none, gateAt := 0, gate := 0, code := 0, ng := 14682, holdStop := none }

/-- No reference present, none selected (R439, R454: STG_REFSTAT reads 0). -/
def RefSt.reset : RefSt :=
  { aPresent := false, bPresent := false, aAvail := false, bAvail := false, pcie := false, pcieFault := false, sel := none,
    disagree := false, holdover := false, holdAt := 0 }

/-- A converter DOWN (R444). -/
def ConvSt.reset : ConvSt := { st := 0, inWindow := 0, missRun := [], alignedAt := 0, downs := [], crcRound := 0, buf := [], await := none }

/-- Both converters DOWN, no LEMC grid (R444). -/
def ClrSt.reset : ClrSt := { conv := ⟨ConvSt.reset, ConvSt.reset⟩, grid := none }

/-- An empty mailbag (R444). -/
def SinSt.reset : SinSt :=
  { slates := [], lost := [], queue := [], lines := [], fill := 0, step1 := false, step2 := false, step3 := false,
    lastMissed := List.replicate 8 false, missFirst := none, missCount := 0, overFirst := none, overCount := 0 }

/-- No line sample in progress, no reference, no slow phase (R444). -/
def PhxSt.reset : PhxSt :=
  { qmin := 0, slew := 0, part := [], incs := [], refs := [], slow := [], slowR := none, slowFresh := false, gauge := none, gaugeWas := none }

/-- A stopped chain, bank A active (R454), M at its reset value. -/
def FchSt.reset (m : Nat) : FchSt :=
  { run := false, bankB := false, m := m, groups := 1, nY := none, gate := 0, implicit := none, gaugeWin := none, syncs := [],
    swap := none, k := 0, evK := 0, evU := 0, evTail := 0, bankStep := false, strStep := false, buf := [],
    close := none, endAt := none, entered := none, bins := [], decs := [], rsOn := false, rsDue := false, rsBase := 0, rsI := 0, rsFrac := 0, rsK := 0,
    flip := none, lastLt := false, slowT := none, zq := [] }

/-- No head enabled (R444). -/
def HenSt.reset : HenSt := { heads := [], queue := [], segs := ⟨none, none⟩, burst := false }

/-- No section enabled; ORDERTOL and TWIN at 400 µs and 20 ms (R455, SLD_ACT). -/
def SldSt.reset : SldSt := { sects := [], arrivals := 0, orderTol := 400, twin := 20, next := 0, seq := [], entries := [] }

/-- No comparison yet. -/
def CompSt.reset : CompSt := { round := 0, dig := [], out := none, uncomp := false, rel := [], msgs := [] }

/-- Both lanes serve and Lane X leads (R444, R455). -/
def LcmSt.reset : LcmSt :=
  { cond := ⟨.serving, .serving⟩, lead := .x, fault := ⟨none, none⟩, readm := ⟨none, none⟩, retired := ⟨[], []⟩,
    comp := ⟨CompSt.reset, CompSt.reset⟩, uncompRun := 0, adopts := [], adopted := [], mismatch := 0, sig := ⟨[], []⟩, sigRef := ⟨[], []⟩ }

/-- A system that is off (R456). -/
def LSys.reset : LSys :=
  { en := false, freq := 0, amp := 0, te := 0, range := 0, down := 0, change := none, enLow := false, ref := none, win := [], uns := none, cap := none, capN := 0, capI := 0,
    capQ := 0, seen := false, b48i := 0, b48q := 0, faults := List.replicate 8 false, low := 0, good := 0, toneBad := ⟨0, 0⟩,
    toneGood := ⟨0, 0⟩, toneStand := ⟨false, false⟩, clamp := none, past := none, clipRun := 0, cleanRun := 0, burst := none, q := 0 }

/-- A SAR before its first slot. -/
def LSar.reset (free : Int) : LSar := { c := 0, k := 0, bad := 0, good := 0, free := free, routine := none, urg := none, wait := [] }

/-- FIELD does not run (R444). -/
def LhfSt.reset : LhfSt :=
  { on := false, tG := 0, tT := 0, rot := 0, sar := ⟨LSar.reset 0, LSar.reset 0⟩,
    sys := List.replicate 8 LSys.reset, vals := [], temp := 0, vin := 0, ref0 := 0, ref1 := 0 }

/-- Nothing under way. -/
def CalSt.reset : CalSt := { survey := ⟨none, none⟩, sweep := none, seed := none, seedAt := 0, legacy := none }

/-- An empty letter stream. -/
def LStream.reset : LStream := { recs := [], next := 0, epoch := 0, last := [] }

/-- An RCT out of reset: STATE 0, d none (R455). -/
def RctSt.reset : RctSt :=
  { keys := [], on := false, st := 0, since := 0, master := 0, delta := 0, loops := [], dep := [], probed := none, rho := 0, sigma := 0, lost := false, d := none,
    dNow := none, noD := 0, runs := 0, full := false, ok := false, bad := false, own := false, shut := false, silent := false, quiet := 0, back := 0,
    heard := false, times := [], mRound := none, resign := 0, elig := false, newMaster := none, met := none, metNow := none, peers := [],
    marks := [], used := [], queue := [], stream := LStream.reset, diag := [], claims := [], claimed := [], poll := none, pollIx := 0,
    pollAt := 0, reply := none }

/-- A ridge branch out of reset. -/
def BranchSt.reset : BranchSt :=
  { loops := [], dep := [], probed := none, viol := 0, violNow := false, node := 0, blocked := none, fwd := none }

/-- A ridge out of reset is IDLE (R302). -/
def RidgeSt.reset : RidgeSt :=
  { sched := false, master := 0, rho := 0, sigma := 0, lost := false, d := none, dNow := none, mRound := none, claims := [], times := [],
    newMaster := none, branches := List.replicate 6 BranchSt.reset, idleFwd := none }

/-- Ring ports out of reset: both broken (R455). -/
def RingNet.reset : RingNet := { rp2Broken := true, rp3Broken := true, q3 := [], q2 := [] }

/-- The legacy round port out of reset. -/
def LBusSt.reset : LBusSt :=
  { mode := 0, shown := [], walkAt := none, running := false, ix := 0, nextAt := 0, out := none, nodes := [], heads := [], replied := [], reply := none }

/-- Not joined: local time (R290, R444). -/
def NetSt.reset : NetSt :=
  { joined := false, joinAt := 0, offset := 0, joins := 0, ridge := false, ridgeChan := .x, rct := ⟨RctSt.reset, RctSt.reset⟩,
    rdg := RidgeSt.reset, refl := [], ring := RingNet.reset, bus := LBusSt.reset, dead := [], tx := [], los := [], ringMode := 1, intwin := 20 }

/-- Every counter at 0 (R435: local time begins at power-up). -/
def Clocks.reset : Clocks := { x := { ns := 0, frac := 0 }, y := { ns := 0, frac := 0 }, ring := { ns := 0, frac := 0 } }

/-- The machine right after reset (R444, R453 to R458). -/
def State.reset : State :=
  { pending := [], now := 0, clk := Clocks.reset, out := [], rdata := [], ctr := [], free := 0, regs := RegSt.reset, dom := Doms.reset,
    bsc := BscSt.reset, pst := PstSt.reset, erc := ErcSt.reset, hre := HreSt.reset, sec := SecSt.reset, hsc := HscSt.reset, stg := ⟨StgSt.reset, StgSt.reset⟩, refs := RefSt.reset, clr := ⟨ClrSt.reset, ClrSt.reset⟩, sin := ⟨SinSt.reset, SinSt.reset⟩, phx := ⟨PhxSt.reset, PhxSt.reset⟩, fch := ⟨FchSt.reset 1, FchSt.reset 1, FchSt.reset 3⟩, fsync := [], hen := ⟨HenSt.reset, HenSt.reset⟩, sld := ⟨SldSt.reset, SldSt.reset⟩, lcm := LcmSt.reset, convNote := ⟨⟨none, none⟩, ⟨none, none⟩⟩, rctq := ⟨[], []⟩, lhf := LhfSt.reset, cal := CalSt.reset, net := NetSt.reset }

end Sys2Proof.Machine
end

