-- ==== Sys2Proof/Machine/Regs.lean ====
section
/-!
DEFINITION. Machine/Regs.lean: the set-up register map (20_register_map.md, R448 to R459): where every register word lies, its
access, writable bits and reset value, which domain holds it, and where an RWP or RWS word lies in PREG (R460).
-/
namespace Sys2Proof.Machine

/-- Port block registers (R454), the FCH banks apart. -/
def portRows : List RegRow := [
  ⟨0x00000, 2, 0x400, .rwp, 0x7FFF7FFF, 0x78000000, 0, 2⟩,  -- STG_PLANn w0
  ⟨0x00004, 2, 0x400, .rwp, 0x07FF7FFF, 0x00817800, 1, 2⟩,  -- STG_PLANn w1
  ⟨0x00008, 2, 0x400, .rwp, 0x0000FFFF, 0x00007850, 0, 1⟩,  -- STG_PERIODn
  ⟨0x0000C, 2, 0x400, .rwp, 0x00000FFF, 0x00000000, 0, 1⟩,  -- STG_OFFSETn
  ⟨0x00010, 2, 0x400, .rwp, 0x00003FFF, 0x0000395A, 0, 1⟩,  -- STG_NGn
  ⟨0x00014, 2, 0x400, .rwp, 0xFFFFFFFF, 0x32323232, 0, 2⟩,  -- STG_GATEn w0
  ⟨0x00018, 2, 0x400, .rwp, 0xFFFFFFFF, 0x32323232, 1, 2⟩,  -- STG_GATEn w1
  ⟨0x0001C, 2, 0x400, .rwp, 0x000000FF, 0x00000001, 0, 1⟩,  -- STG_GENn
  ⟨0x00020, 2, 0x400, .ro, 0x00000000, 0x00000000, 0, 1⟩,  -- STG_STATn
  ⟨0x00028, 2, 0x400, .ro, 0x00000000, 0x00000000, 0, 2⟩,  -- STG_LINEn w0
  ⟨0x0002C, 2, 0x400, .ro, 0x00000000, 0x00000000, 1, 2⟩,  -- STG_LINEn w1
  ⟨0x00030, 2, 0x400, .ro, 0x00000000, 0x00000000, 0, 2⟩,  -- STG_T0n w0
  ⟨0x00034, 2, 0x400, .ro, 0x00000000, 0x00000000, 1, 2⟩,  -- STG_T0n w1
  ⟨0x00800, 1, 0x4, .rwp, 0x00000003, 0x00000000, 0, 1⟩,  -- STG_TOPO
  ⟨0x00804, 1, 0x4, .ro, 0x00000000, 0x00000000, 0, 1⟩,  -- STG_REFSTAT
  ⟨0x01000, 2, 0x400, .rwp, 0x0F0311F1, 0x02010101, 0, 1⟩,  -- CLR_CFGn
  ⟨0x01004, 2, 0x400, .rwp, 0x1FFF1FFF, 0x00000000, 0, 1⟩,  -- CLR_TCONVn
  ⟨0x01008, 2, 0x400, .ro, 0x00000000, 0x00000000, 0, 1⟩,  -- CLR_STATn
  ⟨0x01800, 1, 0x4, .rwp, 0x000000FF, 0x00000010, 0, 1⟩,  -- CLR_CRCLIM
  ⟨0x02000, 2, 0x400, .rwp, 0x0FFF0FFF, 0x08000400, 0, 2⟩,  -- SIN_MARKSn w0
  ⟨0x02004, 2, 0x400, .rwp, 0x07FF0FFF, 0x01000C00, 1, 2⟩,  -- SIN_MARKSn w1
  ⟨0x02008, 2, 0x400, .ro, 0x00000000, 0x00000000, 0, 1⟩,  -- SIN_STATn
  ⟨0x03000, 1, 0x4, .rw, 0x000107FF, 0x00000000, 0, 1⟩,  -- SCH_ROMADDR
  ⟨0x03004, 1, 0x4, .ro, 0x00000000, 0x00000000, 0, 1⟩,  -- SCH_ROMDATA
  ⟨0x04000, 2, 0x400, .rwp, 0x0000001F, 0x00000004, 0, 1⟩,  -- PHX_GAUGEn
  ⟨0x04004, 2, 0x400, .rwp, 0xFFFFFFFF, 0x0143AEE1, 0, 1⟩,  -- PHX_STRAINn
  ⟨0x04008, 2, 0x400, .rwp, 0x000000FF, 0x00000030, 0, 1⟩,  -- PHX_QMINn
  ⟨0x0400C, 2, 0x400, .rwp, 0x00007FFF, 0x00006000, 0, 1⟩,  -- PHX_SLEWn
  ⟨0x04010, 2, 0x400, .rwp, 0x00000007, 0x00000000, 0, 1⟩,  -- PHX_SLOWn
  ⟨0x04014, 2, 0x400, .ro, 0x00000000, 0x00000004, 0, 1⟩,  -- PHX_STATn
  ⟨0x05000, 2, 0x400, .rwp, 0x0000001F, 0x00000001, 0, 1⟩,  -- FCH_CFGn, n = 0, 1
  ⟨0x05800, 1, 0x400, .rwp, 0x0000001F, 0x00000003, 0, 1⟩,  -- FCH_CFGn, n = 2
  ⟨0x05004, 3, 0x400, .ro, 0x00000000, 0x00000000, 0, 1⟩,  -- FCH_STATn
  ⟨0x05008, 3, 0x400, .rwp, 0x00000003, 0x00000000, 0, 1⟩,  -- FCH_SYNCSRCn
  ⟨0x05010, 3, 0x400, .rw, 0xFFFFFFFF, 0x00000000, 0, 2⟩,  -- FCH_SYNCNTn w0
  ⟨0x05014, 3, 0x400, .rw, 0xFFFFFFFF, 0x00000000, 1, 2⟩,  -- FCH_SYNCNTn w1
  ⟨0x05018, 3, 0x400, .rwp, 0xFFFFFFFF, 0x10000000, 0, 2⟩,  -- FCH_RSMPn w0
  ⟨0x0501C, 3, 0x400, .rwp, 0x00000001, 0x00000000, 1, 2⟩,  -- FCH_RSMPn w1
  ⟨0x05020, 3, 0x400, .rwp, 0xFFFFFFFF, 0x000F4240, 0, 1⟩,  -- FCH_RSMPPn
  ⟨0x05B00, 1, 0x4, .rw, 0x000103FF, 0x00000000, 0, 1⟩,  -- FCH_ROMADDR
  ⟨0x05B04, 1, 0x4, .ro, 0x00000000, 0x00000000, 0, 1⟩]  -- FCH_ROMDATA

/-- The words of one FCH bank, "Filter bank words" (R454), from the bank's first offset. -/
def fchBankRows (b : Nat) : List RegRow := [
  ⟨b, 1, 4, .rwp, 0xFF017F77, 0x00000210, 0, 1⟩,
  ⟨b + 4, 1, 4, .rwp, 0xFFFFFFFF, 128, 0, 1⟩,
  ⟨b + 8, 1, 4, .rwp, 0xFFFFFFFF, 0x40004000, 0, 1⟩,
  ⟨b + 12, 31, 4, .rwp, 0xFFFFFFFF, 0, 0, 1⟩,
  ⟨b + 136, 4, 20, .rwp, 0xFFFFFFFF, 0x40000000, 0, 1⟩,
  ⟨b + 140, 4, 20, .rwp, 0xFFFFFFFF, 0, 0, 1⟩,
  ⟨b + 144, 4, 20, .rwp, 0xFFFFFFFF, 0, 0, 1⟩,
  ⟨b + 148, 4, 20, .rwp, 0xFFFFFFFF, 0, 0, 1⟩,
  ⟨b + 152, 4, 20, .rwp, 0xFFFFFFFF, 0, 0, 1⟩]

/-- Banks A and B of the three FCH instances (R454). -/
def fchRows : List RegRow :=
  [0x5100, 0x5200, 0x5500, 0x5600, 0x5900, 0x5A00].flatMap fchBankRows

/-- Lane block registers and RSW_STAT (R455). -/
def laneRows : List RegRow := [
  ⟨0x06000, 2, 0x4, .rwp, 0x001FFF03, 0x00021800, 0, 1⟩,  -- HEN_BRK0, HEN_BRK1
  ⟨0x06010, 1, 0x4, .rwp, 0x000000FF, 0x00000000, 0, 1⟩,  -- HEN_SEED
  ⟨0x07000, 1, 0x4, .rwp, 0x1FFFFFFF, 0x05019020, 0, 1⟩,  -- SLD_CFG
  ⟨0x07004, 1, 0x4, .rwp, 0xFFFF00FF, 0x07D00008, 0, 1⟩,  -- SLD_SILENCE
  ⟨0x07008, 1, 0x4, .rwp, 0xFFFFFFFF, 0x00000000, 0, 3⟩,  -- SLD_PUB w0
  ⟨0x0700C, 1, 0x4, .rwp, 0xFFFFFFFF, 0x00000000, 1, 3⟩,  -- SLD_PUB w1
  ⟨0x07010, 1, 0x4, .rwp, 0x0000007F, 0x00000008, 2, 3⟩,  -- SLD_PUB w2
  ⟨0x07014, 1, 0x4, .rwp, 0x00000001, 0x00000000, 0, 1⟩,  -- SLD_RESTORE
  ⟨0x07018, 1, 0x4, .ro, 0x00000000, 0x05019000, 0, 1⟩,  -- SLD_ACT
  ⟨0x08000, 1, 0x4, .rwp, 0x07FF0007, 0x00400002, 0, 1⟩,  -- LCM_CFG
  ⟨0x08004, 1, 0x4, .ro, 0x00000000, 0x00000000, 0, 1⟩,  -- LCM_STATUS
  ⟨0x09000, 1, 0x4, .rws, 0x00000003, 0x00000000, 0, 1⟩,  -- RCT_ROLE
  ⟨0x09004, 1, 0x4, .rws, 0x000000FF, 0x00000000, 0, 1⟩,  -- RCT_NODE
  ⟨0x09008, 1, 0x4, .rwp, 0x03FF3FFF, 0x003003E8, 0, 2⟩,  -- RCT_ROUND w0
  ⟨0x0900C, 1, 0x4, .rwp, 0xFF1F1FFF, 0x640C0140, 1, 2⟩,  -- RCT_ROUND w1
  ⟨0x09010, 1, 0x4, .rwp, 0x00000003, 0x00000000, 0, 1⟩,  -- RCT_PORTMAP
  ⟨0x09014, 1, 0x4, .rwp, 0x00FF311F, 0x00010001, 0, 1⟩,  -- RCT_CFG
  ⟨0x09018, 1, 0x4, .rws, 0x000000F3, 0x00000010, 0, 1⟩,  -- RCT_KEYS
  ⟨0x0901C, 1, 0x4, .rwp, 0x01FF0007, 0x00140000, 0, 1⟩,  -- RCT_TIME
  ⟨0x09020, 1, 0x4, .rwp, 0x00000F03, 0x00000201, 0, 1⟩,  -- RCT_RING
  ⟨0x09024, 1, 0x4, .rwp, 0x000001FF, 0x00000096, 0, 1⟩,  -- RCT_RIDGE
  ⟨0x09028, 1, 0x4, .rwp, 0x03FF0003, 0x00320000, 0, 5⟩,  -- RCT_LBUS w0
  ⟨0x0902C, 1, 0x4, .rwp, 0x1FFF00FF, 0x00000000, 1, 5⟩,  -- RCT_LBUS w1
  ⟨0x09030, 1, 0x4, .rwp, 0x1FFF00FF, 0x00000000, 2, 5⟩,  -- RCT_LBUS w2
  ⟨0x09034, 1, 0x4, .rwp, 0x1FFF00FF, 0x00000000, 3, 5⟩,  -- RCT_LBUS w3
  ⟨0x09038, 1, 0x4, .rwp, 0x1FFF00FF, 0x00000000, 4, 5⟩,  -- RCT_LBUS w4
  ⟨0x09100, 2, 0x40, .ro, 0x00000000, 0x00000000, 0, 6⟩,  -- RCT_STATX, RCT_STATY w0
  ⟨0x09104, 2, 0x40, .ro, 0x00000000, 0x00000000, 1, 6⟩,  -- RCT_STATX, RCT_STATY w1
  ⟨0x09108, 2, 0x40, .ro, 0x00000000, 0x00000000, 2, 6⟩,  -- RCT_STATX, RCT_STATY w2
  ⟨0x0910C, 2, 0x40, .ro, 0x00000000, 0x80000000, 3, 6⟩,  -- RCT_STATX, RCT_STATY w3
  ⟨0x09110, 2, 0x40, .ro, 0x00000000, 0x00000000, 4, 6⟩,  -- RCT_STATX, RCT_STATY w4
  ⟨0x09114, 2, 0x40, .ro, 0x00000000, 0x00000000, 5, 6⟩,  -- RCT_STATX, RCT_STATY w5
  ⟨0x0A000, 1, 0x4, .ro, 0x00000000, 0x00000003, 0, 1⟩]  -- RSW_STAT

/-- LHF registers (R456). -/
def fieldRows : List RegRow := [
  ⟨0x0B000, 8, 0x10, .rwp, 0x3FFFFFFF, 0x1F75104D, 0, 1⟩,  -- LHF_EXCs
  ⟨0x0B004, 8, 0x10, .rwp, 0x00FFFF03, 0x00006400, 0, 1⟩,  -- LHF_CTLs
  ⟨0x0B008, 8, 0x10, .rwp, 0xFFFFFFFF, 0x00000000, 0, 1⟩,  -- LHF_TONELs
  ⟨0x0B00C, 8, 0x10, .rwp, 0xFFFFFFFF, 0xFFFFFFFF, 0, 1⟩,  -- LHF_TONEHs
  ⟨0x0B080, 1, 0x4, .rwp, 0x001F7FFF, 0x0010028F, 0, 2⟩,  -- LHF_BASE w0
  ⟨0x0B084, 1, 0x4, .rwp, 0x00007FFF, 0x00000100, 1, 2⟩,  -- LHF_BASE w1
  ⟨0x0B100, 32, 0x4, .rwp, 0xFFFFFFFF, 0x40000000, 0, 1⟩,  -- LHF_CALs word r
  ⟨0x0B180, 1, 0x4, .rwp, 0xFFFFFFFF, 0xFFFFFFFF, 0, 1⟩,  -- LHF_RUSE
  ⟨0x0B190, 1, 0x4, .ro, 0x00000000, 0x00000000, 0, 12⟩,  -- LHF_STAT w0
  ⟨0x0B194, 1, 0x4, .ro, 0x00000000, 0x00000000, 1, 12⟩,  -- LHF_STAT w1
  ⟨0x0B198, 1, 0x4, .ro, 0x00000000, 0x00000000, 2, 12⟩,  -- LHF_STAT w2
  ⟨0x0B19C, 1, 0x4, .ro, 0x00000000, 0x00000000, 3, 12⟩,  -- LHF_STAT w3
  ⟨0x0B1A0, 1, 0x4, .ro, 0x00000000, 0x00000000, 4, 12⟩,  -- LHF_STAT w4
  ⟨0x0B1A4, 1, 0x4, .ro, 0x00000000, 0x00000000, 5, 12⟩,  -- LHF_STAT w5
  ⟨0x0B1A8, 1, 0x4, .ro, 0x00000000, 0x00000000, 6, 12⟩,  -- LHF_STAT w6
  ⟨0x0B1AC, 1, 0x4, .ro, 0x00000000, 0x00000000, 7, 12⟩,  -- LHF_STAT w7
  ⟨0x0B1B0, 1, 0x4, .ro, 0x00000000, 0x00000000, 8, 12⟩,  -- LHF_STAT w8
  ⟨0x0B1B4, 1, 0x4, .ro, 0x00000000, 0x00000000, 9, 12⟩,  -- LHF_STAT w9
  ⟨0x0B1B8, 1, 0x4, .ro, 0x00000000, 0x00000000, 10, 12⟩,  -- LHF_STAT w10
  ⟨0x0B1BC, 1, 0x4, .ro, 0x00000000, 0x00000000, 11, 12⟩,  -- LHF_STAT w11
  ⟨0x0B1C0, 1, 0x4, .rw, 0x00003FFF, 0x00000000, 0, 1⟩,  -- LHF_ROMADDR
  ⟨0x0B1C4, 1, 0x4, .ro, 0x00000000, 0x00000000, 0, 1⟩]  -- LHF_ROMDATA

/-- Host block registers (R457). -/
def hostRows : List RegRow := [
  ⟨0x0C000, 1, 0x4, .rw, 0x00000001, 0x00000000, 0, 1⟩,  -- HRE_CTL
  ⟨0x0C008, 1, 0x4, .rw, 0xFFFFF000, 0x00000000, 0, 2⟩,  -- HRE_LBOX w0
  ⟨0x0C00C, 1, 0x4, .rw, 0xFFFFFFFF, 0x00000000, 1, 2⟩,  -- HRE_LBOX w1
  ⟨0x0C010, 1, 0x4, .wo, 0xFFFFFFFF, 0x00000000, 0, 1⟩,  -- HRE_KNOCK
  ⟨0x0C014, 1, 0x4, .rw, 0x000003FF, 0x00000064, 0, 1⟩,  -- HRE_POLL
  ⟨0x0C018, 1, 0x4, .rw, 0x00003FFF, 0x00000000, 0, 1⟩,  -- HRE_HOST
  ⟨0x0C01C, 1, 0x4, .rw, 0x00000F0F, 0x00000C00, 0, 1⟩,  -- HRE_EVT
  ⟨0x0C020, 1, 0x4, .rw, 0x00000003, 0x00000000, 0, 3⟩,  -- HRE_MIRROR w0
  ⟨0x0C024, 1, 0x4, .rw, 0xFFFF0000, 0x00000000, 1, 3⟩,  -- HRE_MIRROR w1
  ⟨0x0C028, 1, 0x4, .rw, 0xFFFFFFFF, 0x00000000, 2, 3⟩,  -- HRE_MIRROR w2
  ⟨0x0C02C, 1, 0x4, .rw, 0x00000001, 0x00000000, 0, 1⟩,  -- HRE_NETRX
  ⟨0x0C030, 1, 0x4, .ro, 0x00000000, 0x00000000, 0, 1⟩,  -- HRE_CCOUNT
  ⟨0x0C034, 1, 0x4, .rws, 0xFFFFFFFF, 0x48201F7C, 0, 1⟩,  -- HRE_SUBSYS
  ⟨0x0C040, 13, 0x10, .rw, 0xFFFFF000, 0x00000000, 0, 3⟩,  -- HRE_RINGr w0
  ⟨0x0C044, 13, 0x10, .rw, 0xFFFFFFFF, 0x00000000, 1, 3⟩,  -- HRE_RINGr w1
  ⟨0x0C048, 13, 0x10, .rw, 0x0000011F, 0x00000006, 2, 3⟩,  -- HRE_RINGr w2
  ⟨0x0C110, 1, 0x4, .rw, 0x03FF000F, 0x000A0000, 0, 1⟩,  -- HRE_STRSEL0
  ⟨0x0C114, 1, 0x4, .rw, 0x03FF000F, 0x000A0001, 0, 1⟩,  -- HRE_STRSEL1
  ⟨0x0C118, 1, 0x4, .rw, 0x03FF000F, 0x000A0002, 0, 1⟩,  -- HRE_STRSEL2
  ⟨0x0C11C, 1, 0x4, .rw, 0x03FF000F, 0x000A0003, 0, 1⟩,  -- HRE_STRSEL3
  ⟨0x0C120, 1, 0x4, .rw, 0x03FF000F, 0x000A0004, 0, 1⟩,  -- HRE_STRSEL4
  ⟨0x0C124, 1, 0x4, .rw, 0x03FF000F, 0x000A0005, 0, 1⟩,  -- HRE_STRSEL5
  ⟨0x0C128, 1, 0x4, .rw, 0x03FF000F, 0x000A0006, 0, 1⟩,  -- HRE_STRSEL6
  ⟨0x0C12C, 1, 0x4, .rw, 0x03FF000F, 0x000A0007, 0, 1⟩,  -- HRE_STRSEL7
  ⟨0x0C180, 14, 0x4, .rw, 0xFFFFFFFF, 0x00000001, 0, 1⟩,  -- HRE_COALv
  ⟨0x0D000, 16, 0x40, .rw, 0xFFFFF000, 0x00000000, 0, 5⟩,  -- HSC_REGk w0
  ⟨0x0D004, 16, 0x40, .rw, 0xFFFFFFFF, 0x00000000, 1, 5⟩,  -- HSC_REGk w1
  ⟨0x0D008, 16, 0x40, .rw, 0xFFFFF000, 0x00000000, 2, 5⟩,  -- HSC_REGk w2
  ⟨0x0D00C, 16, 0x40, .rw, 0xFFFFFFFF, 0x00000000, 3, 5⟩,  -- HSC_REGk w3
  ⟨0x0D010, 16, 0x40, .rw, 0xFFFF0F03, 0x00000000, 4, 5⟩,  -- HSC_REGk w4
  ⟨0x0D014, 16, 0x40, .ro, 0x00000000, 0x00000000, 0, 5⟩,  -- HSC_REGk w5
  ⟨0x0D018, 16, 0x40, .ro, 0x00000000, 0x00000000, 1, 5⟩,  -- HSC_REGk w6
  ⟨0x0D01C, 16, 0x40, .ro, 0x00000000, 0x00000000, 2, 5⟩,  -- HSC_REGk w7
  ⟨0x0D020, 16, 0x40, .ro, 0x00000000, 0x00000000, 3, 5⟩,  -- HSC_REGk w8
  ⟨0x0D024, 16, 0x40, .ro, 0x00000000, 0x00000000, 4, 5⟩,  -- HSC_REGk w9
  ⟨0x0D400, 16, 0x10, .rw, 0x7FFFFF33, 0x00000110, 0, 3⟩,  -- HSC_SDEFd w0
  ⟨0x0D404, 16, 0x10, .rw, 0x7FFFFFFF, 0x00010001, 1, 3⟩,  -- HSC_SDEFd w1
  ⟨0x0D408, 16, 0x10, .rw, 0x0000FFFF, 0x00000001, 2, 3⟩,  -- HSC_SDEFd w2
  ⟨0x0D500, 1, 0x4, .ro, 0x00000000, 0x00000000, 0, 2⟩,  -- HSC_ECC w0
  ⟨0x0D504, 1, 0x4, .ro, 0x00000000, 0x00000000, 1, 2⟩]  -- HSC_ECC w1

/-- AON block registers (R458). -/
def aonRows : List RegRow := [
  ⟨0x0E000, 1, 0x4, .rwp, 0x007F03FF, 0x00640208, 0, 1⟩,  -- BSC_BUDGET
  ⟨0x0E004, 1, 0x4, .rwp, 0x00003FFF, 0x000003E8, 0, 1⟩,  -- BSC_AGE
  ⟨0x0E008, 1, 0x4, .rwp, 0x00000007, 0x00000003, 0, 1⟩,  -- BSC_RESTART
  ⟨0x0E00C, 1, 0x4, .rwp, 0x0000000F, 0x00000000, 0, 1⟩,  -- BSC_DOMCTL
  ⟨0x0E010, 1, 0x4, .ro, 0x00000000, 0x00000002, 0, 10⟩,  -- BSC_STAT w0
  ⟨0x0E014, 1, 0x4, .ro, 0x00000000, 0x00000000, 1, 10⟩,  -- BSC_STAT w1
  ⟨0x0E018, 1, 0x4, .ro, 0x00000000, 0x00000000, 2, 10⟩,  -- BSC_STAT w2
  ⟨0x0E01C, 1, 0x4, .ro, 0x00000000, 0x00000000, 3, 10⟩,  -- BSC_STAT w3
  ⟨0x0E020, 1, 0x4, .ro, 0x00000000, 0x00000000, 4, 10⟩,  -- BSC_STAT w4
  ⟨0x0E024, 1, 0x4, .ro, 0x00000000, 0x00000000, 5, 10⟩,  -- BSC_STAT w5
  ⟨0x0E028, 1, 0x4, .ro, 0x00000000, 0x00000000, 6, 10⟩,  -- BSC_STAT w6
  ⟨0x0E02C, 1, 0x4, .ro, 0x00000000, 0x00000000, 7, 10⟩,  -- BSC_STAT w7
  ⟨0x0E030, 1, 0x4, .ro, 0x00000000, 0x00000000, 8, 10⟩,  -- BSC_STAT w8
  ⟨0x0E034, 1, 0x4, .ro, 0x00000000, 0x00000000, 9, 10⟩,  -- BSC_STAT w9
  ⟨0x0F000, 1, 0x4, .rw, 0x00000001, 0x00000000, 0, 1⟩,  -- PST_TBANK
  ⟨0x0F004, 1, 0x4, .rwp, 0x00000001, 0x00000000, 0, 1⟩,  -- PST_CFG
  ⟨0x0F008, 1, 0x4, .rw, 0x00000FFF, 0x00000000, 0, 1⟩,  -- PST_GAUGEADDR
  ⟨0x0F00C, 1, 0x4, .ro, 0x00000000, 0x00000000, 0, 1⟩,  -- PST_GAUGE
  ⟨0x0F010, 1, 0x4, .ro, 0x00000000, 0x00000000, 0, 6⟩,  -- PST_STAT w0
  ⟨0x0F014, 1, 0x4, .ro, 0x00000000, 0x00000000, 1, 6⟩,  -- PST_STAT w1
  ⟨0x0F018, 1, 0x4, .ro, 0x00000000, 0x00000000, 2, 6⟩,  -- PST_STAT w2
  ⟨0x0F01C, 1, 0x4, .ro, 0x00000000, 0x00000000, 3, 6⟩,  -- PST_STAT w3
  ⟨0x0F020, 1, 0x4, .ro, 0x00000000, 0x00000000, 4, 6⟩,  -- PST_STAT w4
  ⟨0x0F024, 1, 0x4, .ro, 0x00000000, 0x00000000, 5, 6⟩,  -- PST_STAT w5
  ⟨0x10000, 1, 0x4, .rwp, 0x00000F0F, 0x00000C04, 0, 1⟩,  -- ERC_CFG
  ⟨0x10004, 1, 0x4, .ro, 0x00000000, 0x00000000, 0, 13⟩,  -- ERC_STAT w0
  ⟨0x10008, 1, 0x4, .ro, 0x00000000, 0x00000000, 1, 13⟩,  -- ERC_STAT w1
  ⟨0x1000C, 1, 0x4, .ro, 0x00000000, 0x00000000, 2, 13⟩,  -- ERC_STAT w2
  ⟨0x10010, 1, 0x4, .ro, 0x00000000, 0x00000000, 3, 13⟩,  -- ERC_STAT w3
  ⟨0x10014, 1, 0x4, .ro, 0x00000000, 0x00000000, 4, 13⟩,  -- ERC_STAT w4
  ⟨0x10018, 1, 0x4, .ro, 0x00000000, 0x00000000, 5, 13⟩,  -- ERC_STAT w5
  ⟨0x1001C, 1, 0x4, .ro, 0x00000000, 0x00000000, 6, 13⟩,  -- ERC_STAT w6
  ⟨0x10020, 1, 0x4, .ro, 0x00000000, 0x00000000, 7, 13⟩,  -- ERC_STAT w7
  ⟨0x10024, 1, 0x4, .ro, 0x00000000, 0x00000000, 8, 13⟩,  -- ERC_STAT w8
  ⟨0x10028, 1, 0x4, .ro, 0x00000000, 0x00000000, 9, 13⟩,  -- ERC_STAT w9
  ⟨0x1002C, 1, 0x4, .ro, 0x00000000, 0x00000000, 10, 13⟩,  -- ERC_STAT w10
  ⟨0x10030, 1, 0x4, .ro, 0x00000000, 0x00000000, 11, 13⟩,  -- ERC_STAT w11
  ⟨0x10034, 1, 0x4, .ro, 0x00000000, 0x00000000, 12, 13⟩,  -- ERC_STAT w12
  ⟨0x11000, 1, 0x4, .ro, 0x00000000, 0x00000001, 0, 3⟩,  -- SEC_STAT w0
  ⟨0x11004, 1, 0x4, .ro, 0x00000000, 0x00000000, 1, 3⟩,  -- SEC_STAT w1
  ⟨0x11008, 1, 0x4, .ro, 0x00000000, 0x00000000, 2, 3⟩,  -- SEC_STAT w2
  ⟨0x11010, 1, 0x4, .ro, 0x00000000, 0x00000000, 0, 2⟩,  -- SEC_UID w0
  ⟨0x11014, 1, 0x4, .ro, 0x00000000, 0x00000000, 1, 2⟩,  -- SEC_UID w1
  ⟨0x11020, 16, 0x4, .ro, 0x00000000, 0x00000000, 0, 1⟩,  -- SEC_PUBKEY
  ⟨0x11060, 5, 0x4, .ro, 0x00000000, 0x00000000, 0, 1⟩]  -- SEC_KCVj

/-- The MSI-X table and pending bits (R448), as the PCI Express Base Specification lays them out (PRESUMED, log entry 4). -/
def msixRows : List RegRow := [
  ⟨0x12000, 32, 0x10, .rw, 0xFFFFFFFC, 0x00000000, 0, 1⟩,  -- MSI-X table, message address low
  ⟨0x12004, 32, 0x10, .rw, 0xFFFFFFFF, 0x00000000, 0, 1⟩,  -- MSI-X table, message address high
  ⟨0x12008, 32, 0x10, .rw, 0xFFFFFFFF, 0x00000000, 0, 1⟩,  -- MSI-X table, message data
  ⟨0x1200C, 32, 0x10, .rw, 0x00000001, 0x00000001, 0, 1⟩,  -- MSI-X table, vector control
  ⟨0x12800, 2, 0x4, .ro, 0x00000000, 0x00000000, 0, 1⟩]  -- MSI-X pending bits

/-- Every register row of the map. -/
def regRows : List RegRow := portRows ++ fchRows ++ laneRows ++ fieldRows ++ hostRows ++ aonRows ++ msixRows

/-- Whether a row holds a word at an offset. -/
def RegRow.has (r : RegRow) (off : Nat) : Bool :=
  r.base ≤ off && (off - r.base) % r.stride == 0 && (off - r.base) / r.stride < r.count

/-- The row of an offset; none is a reserved address (R449). -/
def rowAt (off : Nat) : Option RegRow := regRows.find? (·.has off)

/-- The reset value of a register word, 0 at a reserved address (R453). -/
def regReset (off : Nat) : Word :=
  match rowAt off with
  | some r => w32 r.reset
  | none => 0

/-- Whether a row's words are served by the PST (R451). -/
def RegRow.persistent (r : RegRow) : Bool := r.acc == .rwp || r.acc == .rws

/-- How many of a row's words lie below an offset. -/
def RegRow.below (r : RegRow) (off : Nat) : Nat :=
  if off ≤ r.base then 0 else min r.count ((off - r.base + r.stride - 1) / r.stride)

/-- The rank of an RWP or RWS word in ascending BAR0 address (R460). -/
def pregRank (off : Nat) : Nat := (regRows.filter (·.persistent)).foldl (fun n r => n + r.below off) 0

/-- The PREG word of an RWP or RWS register word (R460). -/
def pregWord (off : Nat) : Nat := 64 * (pregRank off / 56) + pregRank off % 56

/-- The offsets of every RWP and RWS word. -/
def pregOffs : List Nat :=
  (regRows.filter (·.persistent)).flatMap (fun r => (List.range r.count).map (fun i => r.base + i * r.stride))

/-- The register word that lies at a PREG word, if any (R460). -/
def pregOffset (w : Nat) : Option Nat :=
  if w < 2624 && w % 64 < 56 then pregOffs.find? (fun o => pregWord o == w) else none

/-- What an NVM word holds as delivered: an RWP or RWS word its reset value (R453), every other word 0 (DESIGN CHOICE, log entry 5). -/
def nvmDelivered (w : Nat) : Word :=
  match pregOffset w with
  | some o => regReset o
  | none => 0

/-- A bank's number in a record: 0 for A, 1 for B (R426, R434). -/
def bankNum (k : Bank) : Nat := match k with | .a => 0 | .b => 1

/-- NVM word addresses: PREG from 0, bank A, bank B, ARCHIVE, CIRCULATING (R413, R460). -/
def bankBase (k : Bank) : Nat := match k with | .a => 4096 | .b => 61440

/-- The first word of ARCHIVE (R413). -/
def archBase : Nat := 118784

/-- The first word of CIRCULATING (R413). -/
def circBase : Nat := 135168

/-- An NVM word as stored: none when it fails its check (R412). -/
def nvmWord? (p : PstSt) (w : Nat) : Option Word :=
  if tget false w p.bad then none else some (tget (nvmDelivered w) w p.words)

/-- An NVM word as the PST uses it: what it was delivered with when it fails its check (R417). -/
def nvmWord (p : PstSt) (w : Nat) : Word := (nvmWord? p w).getD (nvmDelivered w)

/-- The newest queued write of a word, if any (R8, R415). -/
def queued? (q : List (Nat × Word)) (w : Nat) : Option Word :=
  (q.reverse.find? (fun e => e.1 == w)).map (·.2)

/-- A word as a read returns it: the queued value, else the stored one (R415). -/
def nvmRead (p : PstSt) (w : Nat) : Word := (queued? p.wq w).getD (nvmWord p w)

/-- A register word as last written (R5, R417, R453). -/
def regStored (s : State) (off : Nat) : Word :=
  match rowAt off with
  | some r => if r.persistent then nvmRead s.pst (pregWord off) else tget (w32 r.reset) off s.regs.rw
  | none => 0

/-- A register word in force (R450, R451). -/
def reg (s : State) (off : Nat) : Word := (tget none off s.regs.held).getD (regStored s off)

/-- A field of a register word in force. -/
def regF (s : State) (off hi lo : Nat) : Nat := fld (reg s off) hi lo

/-- A lane register word as lane l holds it (R452). -/
def laneReg (s : State) (l : Lane) (off : Nat) : Word :=
  (tget none off (match l with | .x => s.regs.laneX | .y => s.regs.laneY)).getD (reg s off)

/-- A field of a lane register word. -/
def laneRegF (s : State) (l : Lane) (off hi lo : Nat) : Nat := fld (laneReg s l off) hi lo

/-- A register of two words in force. -/
def reg64 (s : State) (off : Nat) : Nat := join64 (reg s off) (reg s (off + 4))

end Sys2Proof.Machine

namespace Sys2Proof

/-- The number of a port. -/
def Port.num (p : Port) : Nat := match p with | .p0 => 0 | .p1 => 1

/-- The number of a lane. -/
def Lane.num (l : Lane) : Nat := match l with | .x => 0 | .y => 1

/-- The other lane. -/
def Lane.other (l : Lane) : Lane := match l with | .x => .y | .y => .x

/-- The record-source code of a domain (R428). -/
def Dom.num (d : Dom) : Nat :=
  match d with
  | .aon => 0 | .port0 => 1 | .port1 => 2 | .lanex => 3 | .laney => 4 | .ring => 5 | .host => 6 | .field => 7

/-- The domain of a port. -/
def Port.dom (p : Port) : Dom := match p with | .p0 => .port0 | .p1 => .port1

/-- The domain of a lane. -/
def Lane.dom (l : Lane) : Dom := match l with | .x => .lanex | .y => .laney

/-- The number of an FCH instance. -/
def Fch.num (i : Fch) : Nat := match i with | .f0 => 0 | .f1 => 1 | .field => 2

/-- The domain of an FCH instance (R448). -/
def Fch.dom (i : Fch) : Dom := match i with | .f0 => .port0 | .f1 => .port1 | .field => .field

end Sys2Proof

namespace Sys2Proof.Machine

/-- Every domain, in the order of their codes. -/
def allDoms : List Dom := [.aon, .port0, .port1, .lanex, .laney, .ring, .host, .field]

/-- The entry of a port. -/
def Two.port {α : Type} (t : Two α) (p : Port) : α := match p with | .p0 => t.a | .p1 => t.b

/-- The pair with a port's entry replaced. -/
def Two.setPort {α : Type} (t : Two α) (p : Port) (v : α) : Two α :=
  match p with | .p0 => { t with a := v } | .p1 => { t with b := v }

/-- The entry of a lane. -/
def Two.lane {α : Type} (t : Two α) (l : Lane) : α := match l with | .x => t.a | .y => t.b

/-- The pair with a lane's entry replaced. -/
def Two.setLane {α : Type} (t : Two α) (l : Lane) (v : α) : Two α :=
  match l with | .x => { t with a := v } | .y => { t with b := v }

/-- The entry of a polarisation. -/
def Two.pol {α : Type} (t : Two α) (p : Pol) : α := match p with | .x => t.a | .y => t.b

/-- The pair with a polarisation's entry replaced. -/
def Two.setPol {α : Type} (t : Two α) (p : Pol) (v : α) : Two α :=
  match p with | .x => { t with a := v } | .y => { t with b := v }

/-- A domain of the eight. -/
def Doms.get (t : Doms) (d : Dom) : DomSt :=
  match d with
  | .aon => t.aon | .port0 => t.port0 | .port1 => t.port1 | .lanex => t.lanex
  | .laney => t.laney | .ring => t.ring | .host => t.host | .field => t.field

/-- The eight with one replaced. -/
def Doms.put (t : Doms) (d : Dom) (v : DomSt) : Doms :=
  match d with
  | .aon => { t with aon := v } | .port0 => { t with port0 := v } | .port1 => { t with port1 := v }
  | .lanex => { t with lanex := v } | .laney => { t with laney := v } | .ring => { t with ring := v }
  | .host => { t with host := v } | .field => { t with field := v }

/-- Whether a domain is ACTIVE (R360). -/
def active (s : State) (d : Dom) : Bool := (s.dom.get d).st == .active

/-- Whether AON is available (R14, R360). -/
def aonUp (s : State) : Bool := active s .aon && s.bsc.aon == .released

/-- The domain that holds the fields at an offset (R448); the lane blocks answer with the lead lane's domain, which the caller
gives. -/
def domAt (s : State) (leadDom : Dom) (off : Nat) : Dom :=
  let inst := if off % 0x1000 ≥ 0xC00 then off % 0x1000 / 0x100 - 12 else off % 0x1000 / 0x400
  let portOf := if inst = 0 then Dom.port0 else Dom.port1
  match off / 0x1000 with
  | 0 => if off % 0x1000 ≥ 0x800 then .aon else portOf
  | 1 => if off % 0x1000 ≥ 0x800 then .aon else portOf
  | 2 => portOf
  | 3 => if regF s 0x3000 16 16 = 0 then .port0 else .port1
  | 4 => portOf
  | 5 =>
    if off % 0x1000 ≥ 0xB00 && off % 0x1000 < 0xC00 then (if regF s 0x5B00 16 16 = 0 then .port0 else .port1)
    else if inst = 2 then .field else portOf
  | 6 => leadDom
  | 7 => leadDom
  | 8 => leadDom
  | 9 => leadDom
  | 10 => .ring
  | 11 => .field
  | 12 => .host
  | 13 => .host
  | 18 => .host
  | _ => .aon

end Sys2Proof.Machine
end

