-- ==== Sys2Proof/Machine/Flags.lean ====
section
/-!
DEFINITION. Machine/Flags.lean: codes and flag words: event codes with their severities (R434), completion statuses (R323), the
letterbox's DEV_STATE (R312), mark bits.
-/
namespace Sys2Proof.Machine

/-! ## Event codes (R434) -/

/-- POWER_UP. -/
def evPowerUp : Nat := 0x1001

/-- POWER_FAIL. -/
def evPowerFail : Nat := 0x1002

/-- VIN_LOW. -/
def evVinLow : Nat := 0x1003

/-- VIN_HIGH. -/
def evVinHigh : Nat := 0x1004

/-- DOMAIN_TRIP. -/
def evDomainTrip : Nat := 0x1010

/-- DOMAIN_RESTART. -/
def evDomainRestart : Nat := 0x1011

/-- RESTART_LIMIT. -/
def evRestartLimit : Nat := 0x1012

/-- AON_TRIP. -/
def evAonTrip : Nat := 0x1013

/-- POWER_STATE. -/
def evPowerState : Nat := 0x1020

/-- THERMAL_TRIP. -/
def evThermalTrip : Nat := 0x1021

/-- REF_FAULT. -/
def evRefFault : Nat := 0x2001

/-- REF_SWITCH. -/
def evRefSwitch : Nat := 0x2002

/-- REF_DISAGREE. -/
def evRefDisagree : Nat := 0x2003

/-- REF_AVAILABLE. -/
def evRefAvailable : Nat := 0x2004

/-- HOLDOVER. -/
def evHoldover : Nat := 0x2005

/-- PORT_RUN. -/
def evPortRun : Nat := 0x2010

/-- LINK_DOWN. -/
def evLinkDown : Nat := 0x2020

/-- LINK_ALIGNED. -/
def evLinkAligned : Nat := 0x2021

/-- LINK_RETIRED. -/
def evLinkRetired : Nat := 0x2022

/-- SYSREF_OFF_GRID. -/
def evSysrefOffGrid : Nat := 0x2023

/-- LINES_MISSED. -/
def evLinesMissed : Nat := 0x2030

/-- LINES_OVERRUN. -/
def evLinesOverrun : Nat := 0x2031

/-- SLATE_FAIL. -/
def evSlateFail : Nat := 0x2040

/-- ROM_FAIL. -/
def evRomFail : Nat := 0x2041

/-- COUNTER_FAULT. -/
def evCounterFault : Nat := 0x2042

/-- PACE_SHORTFALL. -/
def evPaceShortfall : Nat := 0x2043

/-- SYNC_CANCELLED. -/
def evSyncCancelled : Nat := 0x2050

/-- HEAD_STATE. -/
def evHeadState : Nat := 0x3001

/-- HEAD_FAILED. -/
def evHeadFailed : Nat := 0x3002

/-- BURST. -/
def evBurst : Nat := 0x3010

/-- SEGMENT_RETIRED. -/
def evSegmentRetired : Nat := 0x3020

/-- SEGMENT_RESTORED. -/
def evSegmentRestored : Nat := 0x3021

/-- SECTION_STATE. -/
def evSectionState : Nat := 0x4001

/-- SECTION_DISTURBED. -/
def evSectionDisturbed : Nat := 0x4002

/-- RESET_APPLIED. -/
def evResetApplied : Nat := 0x4010

/-- LATE_ITEM. -/
def evLateItem : Nat := 0x4011

/-- TWIN_SOLO. -/
def evTwinSolo : Nat := 0x4012

/-- RESTORE. -/
def evRestore : Nat := 0x4013

/-- LANE_FAULT. -/
def evLaneFault : Nat := 0x5001

/-- LANE_RETIRED. -/
def evLaneRetired : Nat := 0x5002

/-- READMIT. -/
def evReadmit : Nat := 0x5003

/-- ADOPTION. -/
def evAdoption : Nat := 0x5010

/-- UNCOMPARED. -/
def evUncompared : Nat := 0x5011

/-- LANES_HALT. -/
def evLanesHalt : Nat := 0x5012

/-- CROSSING_FAIL. -/
def evCrossingFail : Nat := 0x5020

/-- RESULT_DISAGREE. -/
def evResultDisagree : Nat := 0x5021

/-- DEAD_LETTER. -/
def evDeadLetter : Nat := 0x6001

/-- ID_CLASH. -/
def evIdClash : Nat := 0x6002

/-- LETTER_GAP. -/
def evLetterGap : Nat := 0x6003

/-- LETTER_DISAGREE. -/
def evLetterDisagree : Nat := 0x6004

/-- MESSAGE_DISCARDED. -/
def evMessageDiscarded : Nat := 0x6005

/-- JOINED. -/
def evJoined : Nat := 0x6010

/-- TIME_STEP. -/
def evTimeStep : Nat := 0x6011

/-- GUARDIAN. -/
def evGuardian : Nat := 0x6012

/-- MASTER_CHANGE. -/
def evMasterChange : Nat := 0x6013

/-- NETWORKS_MET. -/
def evNetworksMet : Nat := 0x6014

/-- COLDSTART. -/
def evColdstart : Nat := 0x6015

/-- INTEGRATION_FAILED. -/
def evIntegrationFailed : Nat := 0x6016

/-- CHANNEL. -/
def evChannel : Nat := 0x6020

/-- BRANCH_BLOCKED. -/
def evBranchBlocked : Nat := 0x6030

/-- RING_PORT. -/
def evRingPort : Nat := 0x6031

/-- POLL_OVERRUN. -/
def evPollOverrun : Nat := 0x6040

/-- OB1160_RESTART. -/
def evOb1160Restart : Nat := 0x6041

/-- HOST_LOSS. -/
def evHostLoss : Nat := 0x6050

/-- INDEX_ERROR. -/
def evIndexError : Nat := 0x6051

/-- DMA_ERROR. -/
def evDmaError : Nat := 0x6052

/-- ORPHAN_LOST. -/
def evOrphanLost : Nat := 0x6053

/-- FRANK_REFUSED. -/
def evFrankRefused : Nat := 0x7001

/-- LIFECYCLE. -/
def evLifecycle : Nat := 0x7002

/-- KEY_LOAD. -/
def evKeyLoad : Nat := 0x7003

/-- DEBUG_UNLOCK. -/
def evDebugUnlock : Nat := 0x7004

/-- DEBUG_REFUSED. -/
def evDebugRefused : Nat := 0x7005

/-- DEBUG_LOCKOUT. -/
def evDebugLockout : Nat := 0x7006

/-- DEBUG_END. -/
def evDebugEnd : Nat := 0x7007

/-- ENTROPY_FAIL. -/
def evEntropyFail : Nat := 0x7008

/-- RWS_DISCARDED. -/
def evRwsDiscarded : Nat := 0x7009

/-- DECOMMISSIONED. -/
def evDecommissioned : Nat := 0x700A

/-- WRITE_IGNORED. -/
def evWriteIgnored : Nat := 0x8001

/-- WEAR_NOTICE. -/
def evWearNotice : Nat := 0x8002

/-- WEAR_WORN. -/
def evWearWorn : Nat := 0x8003

/-- NVM_WORD_FAIL. -/
def evNvmWordFail : Nat := 0x8004

/-- RECORD_INVALID. -/
def evRecordInvalid : Nat := 0x8005

/-- RECORDS_DROPPED. -/
def evRecordsDropped : Nat := 0x8006

/-- BANK_REFUSED. -/
def evBankRefused : Nat := 0x8010

/-- BANK_ACTIVATED. -/
def evBankActivated : Nat := 0x8011

/-- SEED_SAVED. -/
def evSeedSaved : Nat := 0x8012

/-- DRAM_UE. -/
def evDramUe : Nat := 0x8020

/-- FE_FAULT. -/
def evFeFault : Nat := 0x9001

/-- FE_FAULT_CLEAR. -/
def evFeFaultClear : Nat := 0x9002

/-- RECAPTURE. -/
def evRecapture : Nat := 0x9003

/-- LEGACY_CAL. -/
def evLegacyCal : Nat := 0x9004

/-- Severity by event code (R428, R434). -/
def severityTable : List (Nat × Nat) := [
  (evPowerUp, 6), (evPowerFail, 10), (evVinLow, 8), (evVinHigh, 8), (evDomainTrip, 12),
  (evDomainRestart, 6), (evRestartLimit, 12), (evAonTrip, 12), (evPowerState, 6), (evThermalTrip, 15),
  (evRefFault, 10), (evRefSwitch, 8), (evRefDisagree, 10), (evRefAvailable, 4), (evHoldover, 12),
  (evPortRun, 4), (evLinkDown, 9), (evLinkAligned, 4), (evLinkRetired, 12), (evSysrefOffGrid, 8),
  (evLinesMissed, 10), (evLinesOverrun, 12), (evSlateFail, 10), (evRomFail, 14), (evCounterFault, 14),
  (evPaceShortfall, 14), (evSyncCancelled, 6), (evHeadState, 3), (evHeadFailed, 9), (evBurst, 8),
  (evSegmentRetired, 11), (evSegmentRestored, 6), (evSectionState, 2), (evSectionDisturbed, 9), (evResetApplied, 8),
  (evLateItem, 8), (evTwinSolo, 7), (evRestore, 8), (evLaneFault, 12), (evLaneRetired, 12),
  (evReadmit, 6), (evAdoption, 10), (evUncompared, 9), (evLanesHalt, 15), (evCrossingFail, 10),
  (evResultDisagree, 9), (evDeadLetter, 5), (evIdClash, 12), (evLetterGap, 9), (evLetterDisagree, 11),
  (evMessageDiscarded, 7), (evJoined, 6), (evTimeStep, 10), (evGuardian, 10), (evMasterChange, 6),
  (evNetworksMet, 11), (evColdstart, 6), (evIntegrationFailed, 8), (evChannel, 10), (evBranchBlocked, 11),
  (evRingPort, 9), (evPollOverrun, 6), (evOb1160Restart, 8), (evHostLoss, 10), (evIndexError, 9),
  (evDmaError, 8), (evOrphanLost, 10), (evFrankRefused, 11), (evLifecycle, 10), (evKeyLoad, 10),
  (evDebugUnlock, 11), (evDebugRefused, 9), (evDebugLockout, 12), (evDebugEnd, 6), (evEntropyFail, 12),
  (evRwsDiscarded, 8), (evDecommissioned, 15), (evWriteIgnored, 7), (evWearNotice, 8), (evWearWorn, 12),
  (evNvmWordFail, 12), (evRecordInvalid, 8), (evRecordsDropped, 10), (evBankRefused, 9), (evBankActivated, 8),
  (evSeedSaved, 3), (evDramUe, 10), (evFeFault, 11), (evFeFaultClear, 6), (evRecapture, 5),
  (evLegacyCal, 6)]

/-- The severity of an event code (R428). -/
def severity (code : Nat) : Nat := tget 0 code severityTable

/-! ## Completion statuses (R323) -/

/-- APPLIED. -/
def stApplied : Nat := 0x00

/-- CANCELLED. -/
def stCancelled : Nat := 0x01

/-- DONE_REDUCED. -/
def stDoneReduced : Nat := 0x02

/-- REFUSED_OFF. -/
def stRefusedOff : Nat := 0x10

/-- REFUSED_STATE. -/
def stRefusedState : Nat := 0x11

/-- REFUSED_CONDITION. -/
def stRefusedCondition : Nat := 0x12

/-- REFUSED_REFERENCE. -/
def stRefusedReference : Nat := 0x13

/-- REFUSED_BUSY. -/
def stRefusedBusy : Nat := 0x14

/-- REFUSED_PLAN. -/
def stRefusedPlan : Nat := 0x15

/-- REFUSED_LATE. -/
def stRefusedLate : Nat := 0x16

/-- REFUSED_BANK. -/
def stRefusedBank : Nat := 0x17

/-- REFUSED_OPCODE. -/
def stRefusedOpcode : Nat := 0x20

/-- REFUSED_ARGUMENT. -/
def stRefusedArgument : Nat := 0x21

/-- REFUSED_POWER. -/
def stRefusedPower : Nat := 0x22

/-- REFUSED_LIFECYCLE. -/
def stRefusedLifecycle : Nat := 0x23

/-- REFUSED_AON. -/
def stRefusedAon : Nat := 0x24

/-- REFUSED_COUNTER. -/
def stRefusedCounter : Nat := 0x25

/-- REFUSED_FRANK. -/
def stRefusedFrank : Nat := 0x26

/-- FAILED_DMA. -/
def stFailedDma : Nat := 0x30

/-- The statuses in ascending code (R459, HRE counters). -/
def statusList : List Nat := [stApplied, stCancelled, stDoneReduced, stRefusedOff, stRefusedState, stRefusedCondition, stRefusedReference, stRefusedBusy, stRefusedPlan, stRefusedLate, stRefusedBank, stRefusedOpcode, stRefusedArgument, stRefusedPower, stRefusedLifecycle, stRefusedAon, stRefusedCounter, stRefusedFrank, stFailedDma]

/-! ## Codes of states -/

/-- The code of a device power state (R363). -/
def PState.code (p : PState) : Nat :=
  match p with
  | .off => 0 | .standby => 1 | .start => 2 | .service => 3 | .lean => 4 | .holdover => 5 | .safehalt => 6

/-- The code of a domain state (R458). -/
def DState.code (d : DState) : Nat :=
  match d with
  | .off => 0 | .ramp => 1 | .active => 2 | .held => 3 | .tripped => 4

/-- The code of a lane condition (R455). -/
def LaneCond.code (c : LaneCond) : Nat :=
  match c with
  | .serving => 0 | .failSilent => 1 | .retired => 2 | .readmission => 3

/-- The code of a bank state (R458). -/
def BankState.code (b : BankState) : Nat :=
  match b with
  | .inactive => 0 | .checking => 1 | .pending => 2 | .active => 3

/-- Whether a lane serves: its condition is serving and its domain ACTIVE (R190, R360). -/
def serving (s : State) (l : Lane) : Bool := s.lcm.cond.lane l == .serving && active s l.dom

/-- Whether the device is JOINED: either lane's RCT is, or in ridge role the ridge is SCHEDULED (R290, R300). -/
def isJoined (s : State) : Bool :=
  if s.net.ridge then s.net.rdg.sched else s.net.rct.a.st == 3 || s.net.rct.b.st == 3

/-- DEV_STATE of the letterbox device area (R312). -/
def devState (s : State) : Word :=
  w32 (s.bsc.power.code + 16 * s.sec.lifecycle + 256 * s.sec.level + 1024 * b2n (serving s .x) + 2048 * b2n (serving s .y)
    + 4096 * b2n (aonUp s) + 8192 * b2n (isJoined s) + 16384 * b2n s.erc.frozen + 32768 * b2n s.hre.indexErr)

end Sys2Proof.Machine
end

