-- ==== Sys2Proof/Machine/Ops.lean ====
section
/-!
DEFINITION. Machine/Ops.lean: the named operations every meaning is written over: counters, events, free values, register words,
interrupt vectors, completions, the letterbox device area, jobs, and `settle`, which closes every command.
-/
namespace Sys2Proof.Machine

/-! ## Time, counters, events, free values -/

/-- A counter of network time in units of 2^-32 ns (R280). -/
def Clock.units (c : Clock) : Int := c.ns * 4294967296 + c.frac.toNat

/-- A counter after n periods of the reference: 10 ns + r 2^-32 ns each, the fraction carrying into the count (R280). -/
def Clock.run (n r : Int) (c : Clock) : Clock :=
  let u := c.units + n * (42949672960 + r)
  { ns := u / 4294967296, frac := BitVec.ofInt 32 u }

/-- The periods that a counter completes before it reads t at a rate r (R280); none for an instant it has passed. -/
def Clock.periods (t r : Int) (c : Clock) : Int := max 0 ((t * 4294967296 - c.units) / (42949672960 + r))

/-- ρ + σ of a lane's counter; in ridge role every counter follows RING's (R280, R300). -/
def laneRate (s : State) (l : Lane) : Int :=
  if s.net.ridge then s.net.rdg.rho + s.net.rdg.sigma else (s.net.rct.lane l).rho + (s.net.rct.lane l).sigma

/-- The counters at an instant of the lead counter: the lead lane's, in ridge role RING's; RING's follows the lead lane's otherwise (R23, R280, R300). -/
def runClocks (t : Int) (s : State) : Clocks :=
  let r := laneRate s s.lcm.lead
  let lead := if s.net.ridge then s.clk.ring else match s.lcm.lead with | .x => s.clk.x | .y => s.clk.y
  let n := lead.periods t r
  { x := s.clk.x.run n (laneRate s .x), y := s.clk.y.run n (laneRate s .y), ring := s.clk.ring.run n r }

/-- The state at the instant of the command being served. -/
def atTime (t : Int) (s : State) : State := { s with now := t, clk := runClocks t s }

/-- A counter word at a BAR0 offset, n added, saturating at 32 bits (R459). -/
def bumpBy (off n : Nat) (s : State) : State := { s with ctr := tput 0 off (satAdd 32 (tget 0 off s.ctr) n) s.ctr }

/-- One added to a counter word (R459). -/
def bump (off : Nat) (s : State) : State := bumpBy off 1 s

/-- A "highest" counter word (R459). -/
def bumpMax (off v : Nat) (s : State) : State := { s with ctr := tput 0 off (max (tget 0 off s.ctr) (min v 4294967295)) s.ctr }

/-- One added to a halfword of a counter word, saturating at 16 bits (R261, R459). -/
def bumpHalf (off : Nat) (high : Bool) (s : State) : State :=
  let w := tget 0 off s.ctr
  let lo := w % 65536
  let hi := w / 65536
  let v := if high then satAdd 16 hi 1 * 65536 + lo else hi * 65536 + satAdd 16 lo 1
  { s with ctr := tput 0 off v s.ctr }

/-- An event sent to the ERC; lost while AON is lost (R14, R429). -/
def noteEv (e : EvIn) (s : State) : State :=
  if aonUp s then { s with erc := { s.erc with inbox := s.erc.inbox ++ [e] } } else s

/-- An event with its code, source domain and block, and parameters (R428, R434). -/
def note (code : Nat) (d : Dom) (blk : Nat) (p0 p1 p2 : Word) (s : State) : State :=
  noteEv { code := code, src := 16 * d.num + blk, p0 := p0, p1 := p1, p2 := p2, solo := false } s

/-- A value the spec leaves open, and the state with one more drawn. -/
def draw (s : State) : Word × State := (Config.freeValue s.free, { s with free := s.free + 1 })

/-- n bytes of the entropy source, and the state with them drawn (R394). -/
def drawBytes (n : Nat) (s : State) : List Byte × State :=
  ((List.range n).map (fun i => Config.entropy (s.free + i)), { s with free := s.free + n })

/-- The round length T_r in ns, never 0 (R252). -/
def roundNs (s : State) : Int := max 1 ((regF s 0x9008 13 0 : Nat) * 1000)

/-- The current round number (R253). -/
def curRound (s : State) : Nat := u64 (s.now / roundNs s)

/-- The low word of the current round. -/
def roundLo (s : State) : Word := lo32 (curRound s)

/-! ## Domains -/

/-- A domain's state changed. -/
def mapDom (d : Dom) (f : DomSt → DomSt) (s : State) : State := { s with dom := s.dom.put d (f (s.dom.get d)) }

/-- A key slot: 0 CMD, 1 to 4 NET0 to NET3 (R384). -/
def slotOf (x : SecSt) (j : Nat) : KeySlot := nth { status := 0, key := 0 } x.slots j

/-- The loaded network keys as the SEC writes them into a lane's RCT (R386). -/
def loadedKeys (x : SecSt) : List (Option (BitVec 128)) :=
  (List.range 4).map (fun g => if (slotOf x (1 + g)).status = 1 then some (slotOf x (1 + g)).key else none)

/-- The working copies of the network keys in a lane's RCT (R386). -/
def setKeys (l : Lane) (ks : List (Option (BitVec 128))) (s : State) : State :=
  { s with net := { s.net with rct := s.net.rct.setLane l { (s.net.rct.lane l) with keys := ks } } }

/-- The SEC writes a lane's key copies as its domain enters ACTIVE and zeroes them as it leaves ACTIVE (R386). -/
def keysFor (d : Dom) (st : DState) (s : State) : State :=
  let ks := if st == .active then loadedKeys s.sec else []
  match d with
  | .lanex => setKeys .x ks s
  | .laney => setKeys .y ks s
  | _ => s

/-- A domain entering a state now. -/
def setDom (d : Dom) (st : DState) (s : State) : State := mapDom d (fun x => { x with st := st, since := s.now }) (keysFor d st s)

/-- A band change ordered for a domain: counted; the supervisor's reference is the lower of both bands until it settles (R360,
R366). -/
def orderBand (d : Dom) (b : Nat) (s : State) : State :=
  let x := s.dom.get d
  if x.band = b || d == .aon then s
  else bump (0xEC00 + 4 * (d.num - 1)) (mapDom d (fun x => { x with settle := some x.band, band := b, idle := 0 }) s)

/-- A domain did in this budget period what keeps it from being idle above its floor (R370). -/
def markBusy (d : Dom) (s : State) : State := mapDom d (fun x => { x with busy := true }) s

/-- A domain below its floor raised to it at once; while AON is lost the setpoints are frozen, and the domain stands below its floor
(R71, R368, R372). -/
def holdFloor (d : Dom) (f : Nat) (s : State) : State :=
  if (s.dom.get d).band < f then (if aonUp s then orderBand d f s else mapDom d (fun x => { x with below := true }) s) else s

/-- A floor that rises ahead of a change: in force at once, and the domain raised to it at once (R368); while AON is lost the
setpoints are frozen (R372). -/
def raiseFloor (d : Dom) (f : Nat) (s : State) : State :=
  holdFloor d f (mapDom d (fun x => { x with floor := max x.floor f }) s)

/-- A floor that falls or is recomputed when its change has taken effect (R368). -/
def setFloor (d : Dom) (f : Nat) (s : State) : State :=
  holdFloor d f (mapDom d (fun x => { x with floor := f }) s)

/-- The LEAN causes as a field of four bits, REQUEST its highest, then AON, THERMAL, CURRENT (R434, R458; DEDUCED, log entry 60). -/
def leanBits (b : BscSt) : Nat :=
  8 * b2n b.leanRequest + 4 * b2n b.leanAon + 2 * b2n b.leanThermal + b2n b.leanCurrent

/-- Whether a LEAN cause stands (R364). -/
def leanCause (b : BscSt) : Bool := leanBits b != 0

/-- A change of device power state, recorded (R364). -/
def setPower (p : PState) (s : State) : State :=
  if p = s.bsc.power then s
  else
    note evPowerState .aon 1 (w32 s.bsc.power.code) (w32 p.code) (w32 (leanBits s.bsc)) { s with bsc := { s.bsc with power := p } }

/-! ## Register words -/

/-- An RW word written (R5). -/
def setRw (off : Nat) (v : Word) (s : State) : State :=
  { s with regs := { s.regs with rw := tput (regReset off) off v s.regs.rw } }

/-- A persistent word put into the PST write queue (R415). -/
def pstQueue (w : Nat) (v : Word) (s : State) : State := { s with pst := { s.pst with wq := s.pst.wq ++ [(w, v)] } }

/-- Bit i of a word set to b. -/
def setBit (w : Word) (i : Nat) (b : Bool) : Word :=
  if bitOf w i = b then w else w ^^^ w32 (2 ^ i)

/-- An RWP register word that the OB4820 itself commits (R221, R387). -/
def selfCommit (off : Nat) (v : Word) (s : State) : State := pstQueue (pregWord off) v s

/-! ## The host's interrupt vectors (R332, R333) -/

/-- A vector fires: its pending count returns to 0 and its message waits for the device area (R333, R334). -/
def vecFire (v : Nat) (s : State) : State :=
  { s with hre := { s.hre with vecCount := tput 0 v 0 s.hre.vecCount, vecAt := tput none v none s.hre.vecAt,
                               firing := s.hre.firing ++ [v] } }

/-- One item of a vector (R333). -/
def vecItem (v : Nat) (s : State) : State :=
  if !active s .host then s
  else
    let n := tget 0 v s.hre.vecCount + 1
    if v = 13 || n ≥ regF s (0xC180 + 4 * v) 15 0 || regF s (0xC180 + 4 * v) 31 16 = 0 then vecFire v s
    else
      { s with hre := { s.hre with vecCount := tput 0 v n s.hre.vecCount,
                                   vecAt := if n = 1 then tput none v (some s.now) s.hre.vecAt else s.hre.vecAt } }

/-- Whether a vector or the function is masked (R333). -/
def vecMasked (s : State) (v : Nat) : Bool := s.hre.functionMask || bitOf (reg s (0x1200C + 16 * v)) 0

/-- The message of a vector sent, or its pending bit set while masked (R333). -/
def vecSend (v : Nat) (s : State) : State :=
  if vecMasked s v then { s with hre := { s.hre with vecPend := tput false v true s.hre.vecPend } }
  else
    { s with out := s.out ++ [.msix v (reg64 s (0x12000 + 16 * v)) (reg s (0x12008 + 16 * v))] }

/-- Messages whose mask has cleared are sent (R333). -/
def vecRelease (s : State) : State :=
  (s.hre.vecPend.map (·.1)).foldl
    (fun s v => if vecMasked s v then s
      else vecSend v { s with hre := { s.hre with vecPend := tput false v false s.hre.vecPend } }) s

/-- A register write discarded under R449 or R451: counted, and vector 13 (R449, R459); nothing counts in a HOST domain that is not ACTIVE. -/
def hreDiscard (s : State) : State := if active s .host then vecItem 13 (bump 0xCC88 s) else s

/-! ## DMA toward the host (R310, R334) -/

/-- Whether ring EN of ring r is set (R314). -/
def ringEn (s : State) (r : Nat) : Bool := bitOf (reg s (0xC048 + 16 * r)) 8

/-- HRE_CTL.RUN as it reads: 0 unless CMD, CPL and EVT are enabled (R314). -/
def hreRun (s : State) : Bool :=
  active s .host && bitOf (reg s 0xC000) 0 && ringEn s 0 && ringEn s 1 && ringEn s 2

/-- Whether the HRE may issue memory requests (R337). -/
def hostCan (s : State) : Bool := active s .host && s.hre.loss != .stopped && s.hre.busMaster

/-- A memory write request of the HRE, which does nothing while RUN reads 0 (R310, R314). -/
def hostWrite (addr : Nat) (data : List Byte) (s : State) : State :=
  if hostCan s && hreRun s then { s with out := s.out ++ [.hostWrite addr data] } else s

/-- A DMA error: counted, recorded with its ring and address, and vector 13 (R310, R332, R434). -/
def dmaError (ring : Nat) (addr : Nat) (s : State) : State :=
  vecItem 13 (note evDmaError .host 0 (w32 ring) (lo32 addr) 0 (bump 0xCC08 s))

/-- The number of entries of a ring, 2^SIZE (R314). -/
def ringSize (s : State) (r : Nat) : Nat := 2 ^ regF s (0xC048 + 16 * r) 4 0

/-- The address of descriptor i of a ring (R315). -/
def ringAddr (s : State) (r : Nat) (i : Word) : Nat := reg64 s (0xC040 + 16 * r) + 32 * (i.toNat % ringSize s r)

/-- The state of a data ring; an unlisted one is empty. -/
def ringOf (h : HreSt) (n : Nat) : RingSt :=
  (tget none n h.rings).getD { done := 0, post := 0, seq := 0, posted := [], shed := 0, fill := [], items := 0 }

/-- A data ring's state changed; n is 0 to 7 for STR0 to STR7, 8 for REC, 9 for HIS. -/
def mapRing (n : Nat) (f : RingSt → RingSt) (s : State) : State :=
  { s with hre := { s.hre with rings := tput none n (some (f (ringOf s.hre n))) s.hre.rings } }

/-- The number of a data ring: its ring number less 3 (R454). -/
def ringNum (r : DataRing) : Nat := match r with | .str n => n.val | .recorder => 8 | .history => 9

/-! ## Completions (R322 to R324, R337, R338) -/

/-- The 16-byte prefix of a franked message (R388). -/
def frankPrefix (domain : Nat) : List Byte := natBytes 8 Config.uid.toNat ++ natBytes 4 domain ++ zeros 4

/-- The frank of a body under the CMD key (R388). -/
def cmdFrank (s : State) (domain : Nat) (body : List Byte) : List Byte :=
  (cmac (slotOf s.sec 0).key (frankPrefix domain ++ body)).take 8

/-- The eight words of a completion descriptor (R322). -/
def cplWords (s : State) (o : OutCmd) (status : Nat) (r0 r1 : Word) (lx ly : Bool) : List Word :=
  let body := [halves o.tag.toNat (256 * status + o.opcode), o.index,
    w32 (2147483648 * b2n o.orphan + 1073741824 * b2n lx + 536870912 * b2n ly + 268435456 * b2n (o.franked && !aonUp s)),
    roundLo s, r0, r1]
  let fr := if o.franked && aonUp s then bytesWords (cmdFrank s 2 (wordsBytes body)) else [0, 0]
  body ++ fr

/-- The index of a status among the statuses in ascending code. -/
def statusIndex (st : Nat) : Nat := (statusList.findIdx? (· == st)).getD 0

/-- A completion descriptor written to CPL, with vector 0 (R315, R322, R332). -/
def cplWrite (ws : List Word) (s : State) : State :=
  let s := hostWrite (ringAddr s 1 s.hre.cplProd) (wordsBytes ws) s
  vecItem 0 { s with hre := { s.hre with cplProd := s.hre.cplProd + 1 } }

/-- A completion that falls due: written, or held as an orphan while the HRE cannot write, the 65th and later recorded as
ORPHAN_LOST (R337, R338). -/
def cplEmit (o : OutCmd) (status : Nat) (r0 r1 : Word) (lx ly : Bool) (s : State) : State :=
  let s := bump (0xCC10 + 4 * statusIndex status) s
  if hreRun s && hostCan s then cplWrite (cplWords s o status r0 r1 lx ly) s
  else if s.hre.orphans.length < 64 then
    { s with hre := { s.hre with orphans := s.hre.orphans ++ [cplWords s { o with orphan := true } status r0 r1 lx ly] } }
  else
    note evOrphanLost .host 0 o.index (halves o.tag.toNat (256 * status + o.opcode)) r0
      { s with hre := { s.hre with orphansOver := s.hre.orphansOver + 1 } }

/-- Whether an opcode is of class F (R320). -/
def classF (op : Nat) : Bool :=
  [0x10, 0x11, 0x12, 0x13, 0x14, 0x15, 0x16, 0x18, 0x19, 0x20, 0x28, 0x29, 0x2A, 0x2B, 0x30, 0x31, 0x38, 0x39, 0x41, 0x63,
    0x68].contains op

/-- The completion record of a command under examination. -/
def outOf (c : HostCmd) (op : Nat) (id : Nat) : OutCmd :=
  { id := id, index := c.index, tag := c.tag, opcode := op, franked := classF op, orphan := false, x := none, y := none }

/-- A command completed at its examination: a refusal, or an effect complete at acceptance (R317, R324). -/
def finishNow (c : HostCmd) (op status : Nat) (r0 r1 : Word) (s : State) : State :=
  cplEmit (outOf c op 0) status r0 r1 false false s

/-- A command accepted, its completion outstanding under a new id (R319). -/
def accept (c : HostCmd) (op : Nat) (s : State) : State :=
  { s with hre := { s.hre with nextId := s.hre.nextId + 1, out := s.hre.out ++ [outOf c op (s.hre.nextId + 1)] } }

/-- The id that `accept` gives next. -/
def newId (s : State) : Nat := s.hre.nextId + 1

/-- The outstanding command of an id. -/
def outFind (s : State) (id : Nat) : Option OutCmd := s.hre.out.find? (fun o => o.id == id)

/-- An outstanding command removed. -/
def outDrop (id : Nat) (s : State) : State :=
  { s with hre := { s.hre with out := s.hre.out.filter (fun o => o.id != id) } }

/-- An outstanding command completed (R324). -/
def finish (id status : Nat) (r0 r1 : Word) (s : State) : State :=
  match outFind s id with
  | none => s
  | some o => cplEmit o status r0 r1 false false (outDrop id s)

/-- A command delivered to the lanes completed with what the lanes answered: the lead lane's answer, RESULT_DISAGREE when two
answers differ (R322). -/
def finishLanes (id : Nat) (x y : Option LaneResult) (s : State) : State :=
  match outFind s id with
  | none => s
  | some o =>
    let s := outDrop id s
    let pick := match x, y with
      | some a, some b => if s.lcm.lead == Lane.x then a else b
      | some a, none => a
      | none, some b => b
      | none, none => { status := stCancelled, r0 := 0, r1 := 0 }
    let s := match x, y with
      | some a, some b =>
        if a.status == b.status && a.r0 == b.r0 then s else note evResultDisagree .host 0 o.index a.r0 b.r0 s
      | _, _ => s
    cplEmit o pick.status pick.r0 pick.r1 x.isSome y.isSome s

/-- Every outstanding command that a test names completed CANCELLED. -/
def cancelAll (p : OutCmd → Bool) (s : State) : State :=
  (s.hre.out.filter p).foldl (fun s o => finish o.id stCancelled 0 0 s) s

/-! ## The letterbox device area (R312) -/

/-- The words of the device area after DEV_SEQ (R312). -/
def devArea (s : State) : List Word :=
  [s.hre.cmdCons, s.hre.cplProd, s.hre.evtProd, (ringOf s.hre 8).done, (ringOf s.hre 9).done, w32 (s.sec.cLast + 1), devState s]
    ++ (List.range 8).map (fun n => (ringOf s.hre n).done)
    ++ [roundLo s, hi32 (curRound s), s.hre.mirrorRound, w32 s.hre.evtLost, w32 s.hre.out.length, w32 s.hre.losses,
        w32 s.hre.orphansLost]
    ++ List.replicate 9 0

/-- The messages of the vectors that fired, sent after the device area (R334). -/
def sendFiring (s : State) : State :=
  s.hre.firing.foldl (fun s v => vecSend v s) { s with hre := { s.hre with firing := [] } }

/-- The device area written when a field changed, at most once per microsecond, then the waiting messages (R312, R334). -/
def publish (s : State) : State :=
  if !hostCan s then s
  else if !hreRun s then sendFiring s
  else if devArea s = s.hre.devImage then sendFiring s
  else if s.hre.devImage != [] && s.now - s.hre.devAt < 1000 then s
  else
    let q := s.hre.devSeq + 1
    sendFiring (hostWrite (reg64 s 0xC008 + 0x800) (wordsBytes (q :: devArea s))
      { s with hre := { s.hre with devSeq := q, devImage := devArea s, devAt := s.now } })

/-- How every command ends: what the host interface shows of the new state is published. -/
def settle (s : State) : Host.Outcome State Fault Refusal := .next (publish s)

/-! ## Queued bulk jobs (R374) -/

/-- A queued job entered now. -/
def addJob (j : Job) (s : State) : State := { s with bsc := { s.bsc with jobs := s.bsc.jobs ++ [{ j with since := s.now }] } }

/-- A queued job removed. -/
def dropJob (j : Job) (s : State) : State :=
  let other := fun (k : Job) => k.id != j.id || k.kind != j.kind
  { s with bsc := { s.bsc with jobs := s.bsc.jobs.filter other, running := s.bsc.running.filter other } }

end Sys2Proof.Machine
end

