-- ==== Sys2Proof/Machine/Operands.lean ====
section
/-!
DEFINITION. Machine/Operands.lean: the operand forms of the host commands: which argument bits the table "Commands" (R320) defines
for each opcode, the ranges of check 3 (R317), and the fields the meanings read.
-/
namespace Sys2Proof.Machine

/-- The opcodes of the table "Commands" (R320). -/
def opcodeList : List Nat :=
  [0x01, 0x10, 0x11, 0x12, 0x13, 0x14, 0x15, 0x16, 0x18, 0x19, 0x20, 0x21, 0x28, 0x29, 0x2A, 0x2B, 0x2C, 0x30, 0x31, 0x38, 0x39,
    0x40, 0x41, 0x42, 0x48, 0x49, 0x4A, 0x50, 0x58, 0x60, 0x61, 0x62, 0x63, 0x64, 0x68]

/-- All bits of a word. -/
def allBits : Nat := 0xFFFFFFFF

/-- The bits the table "Commands" defines of A0, A1, A2, A3 and whether the command takes a buffer in A4 and A5 (R320). -/
def argMasks (op : Nat) : Nat × Nat × Nat × Nat × Bool :=
  match op with
  | 0x10 => (0x301, allBits, allBits, 0, false)
  | 0x11 => (1, 0, 0, 0, false)
  | 0x12 => (1, allBits, allBits, 0, false)
  | 0x13 => (0x701, allBits, allBits, 0, false)
  | 0x14 => (1, allBits, allBits, 0, false)
  | 0x16 => (3, 0, 0, 0, false)
  | 0x18 => (0x307, allBits, allBits, 0, false)
  | 0x19 => (3, allBits, allBits, 0, false)
  | 0x20 => (0x1FFF, 0, 0, 0, false)
  | 0x21 => (0x80001FFF, allBits, 0, 0, true)
  | 0x28 => (0xFFF, allBits, allBits, 0, false)
  | 0x29 => (0xFFF, allBits, allBits, 0, false)
  | 0x2A => (0xFFF, allBits, allBits, 0, false)
  | 0x2B => (0xFFF, allBits, allBits, 0, false)
  | 0x2C => (0x80000FFF, allBits, 0, 0, true)
  | 0x30 => (1, 0, 0, 0, false)
  | 0x31 => (1, 0, 0, 0, false)
  | 0x38 => (1, allBits, allBits, allBits, false)
  | 0x40 => (0x101, allBits, allBits, 0, true)
  | 0x41 => (0xFF, 0, 0, 0, false)
  | 0x42 => (0x1FFF, allBits, allBits, 0, true)
  | 0x48 => (allBits, allBits, 0, 0, false)
  | 0x50 => (0xF, allBits, allBits, allBits, false)
  | 0x58 => (0x7FF, 0, 0, 0, true)
  | 0x60 => (0, 0, 0, 0, true)
  | 0x61 => (0x103, allBits, 0, 0, true)
  | 0x63 => (7, 0, 0, 0, false)
  | 0x64 => (allBits, 0, 0, 0, true)
  | 0x68 => (7, 0, 0, 0, false)
  | _ => (0, 0, 0, 0, false)

/-- The 64-bit argument A1–A2. -/
def argA12 (c : HostCmd) : Nat := join64 c.a1 c.a2

/-- The buffer address A4–A5 (R320). -/
def argBuf (c : HostCmd) : Nat := join64 c.w6 c.w7

/-- The port in A0[0]. -/
def argPort (c : HostCmd) : Port := if bitOf c.a0 0 then .p1 else .p0

/-- The lane in A0[0]. -/
def argLane (c : HostCmd) : Lane := if bitOf c.a0 0 then .y else .x

/-- The ranges of the arguments (R320, R365, R432, R216, R222). -/
def argRange (op : Nat) (c : HostCmd) : Bool :=
  match op with
  | 0x18 => fld c.a0 2 0 != 0
  | 0x19 => fld c.a0 1 0 ≤ 2
  | 0x21 => 1 ≤ c.a1.toNat && fld c.a0 12 0 + c.a1.toNat ≤ 8192
  | 0x2C => 1 ≤ c.a1.toNat && fld c.a0 11 0 + c.a1.toNat ≤ 4096
  | 0x40 => fld c.a1 15 0 % 64 == 0 && 1 ≤ fld c.a1 31 16 && 16 ≤ c.a2.toNat && c.a2.toNat ≤ 65536
  | 0x41 => fld c.a0 7 0 != 0
  | 0x42 => 1 ≤ c.a1.toNat && fld c.a0 12 0 + c.a1.toNat ≤ 8192 && 1 ≤ c.a2.toNat && c.a2.toNat ≤ 3600
  | 0x48 => 1 ≤ c.a1.toNat && c.a1.toNat ≤ 15872
  | 0x58 => fld c.a0 10 0 % 4 == 0 && fld c.a0 10 0 ≤ 1024
  | 0x68 => [1, 3, 4].contains (fld c.a0 2 0)
  | _ => true

/-- The ranges that depend on a port's plan: the group of GROUP_RETUNE, the bins of SURVEY (R54, R216). -/
def argsAt (s : State) (op : Nat) (c : HostCmd) : Bool :=
  match op, (s.stg.port (argPort c)).plan with
  | 0x13, some q => fld c.a0 10 8 < q.groups
  | 0x40, some q => q.b0 ≤ fld c.a1 15 0 && fld c.a1 15 0 + 64 * fld c.a1 31 16 ≤ q.b0 + q.nbins
  | _, _ => true

/-- Whether the debug level permits the command (R317 check 5): LANE_READMIT of the target of an open D2 session does not pass (R396). -/
def levelOk (s : State) (op : Nat) (c : HostCmd) : Bool := !(op == 0x31 && s.sec.level == 2 && s.sec.target == argLane c)

/-- Check 3 of R317: FRANKED matches the class, reserved and undefined bits are 0, arguments are in range, CCOUNT is 0 for class U,
a buffer is aligned to 256 bytes (R316, R320). -/
def argsOk (op : Nat) (c : HostCmd) : Bool :=
  let m := argMasks op
  let inside := fun (w : Word) (mask : Nat) => (w.toNat &&& mask) == w.toNat
  c.franked == classF op && c.reserved == 0 && inside c.a0 m.1 && inside c.a1 m.2.1 && inside c.a2 m.2.2.1
    && inside c.a3 m.2.2.2.1
    && (classF op || (c.ccount == 0 && (if m.2.2.2.2 then c.w6.toNat % 256 == 0 else c.w6 == 0 && c.w7 == 0)))
    && argRange op c

/-- The eight words of a descriptor (R316). -/
def descWords (op : Nat) (c : HostCmd) : List Word :=
  [halves c.tag.toNat (512 * c.reserved.toNat + 256 * b2n c.franked + op % 256), c.ccount, c.a0, c.a1, c.a2, c.a3, c.w6, c.w7]

/-- The opcode that the words of a descriptor spell (R316). -/
def descOp (ws : List Word) : Nat := fld (nth 0 ws 0) 7 0

/-- The command that the words of a descriptor spell (R316). -/
def descCmd (r : RingCmd) (ws : List Word) : HostCmd :=
  let w := nth 0 ws
  { t := r.t, index := r.index, tag := BitVec.ofNat 16 (fld (w 0) 31 16), reserved := BitVec.ofNat 7 (fld (w 0) 15 9), franked := bitOf (w 0) 8,
    ccount := w 1, a0 := w 2, a1 := w 3, a2 := w 4, a3 := w 5, w6 := w 6, w7 := w 7, buf := r.buf, cross := r.cross }

/-- The 24 bytes of a descriptor that its frank covers (R316, R388). -/
def cmdBody (op : Nat) (c : HostCmd) : List Byte := wordsBytes ((descWords op c).take 6)

/-- The commands examined beyond check 4 in SAFEHALT (R325): NOP, the statistics, recorder and attestation commands, the debug
commands and POWER_REQUEST. -/
def safehaltOps : List Nat := [0x01, 0x21, 0x2C, 0x48, 0x49, 0x4A, 0x60, 0x61, 0x62, 0x64, 0x68]

/-- The commands permitted in DECOMMISSIONED (R397). -/
def decommissionedOps : List Nat := [0x01, 0x21, 0x2C, 0x48, 0x49, 0x4A, 0x64]

end Sys2Proof.Machine
end

