-- ==== Sys2Proof/Machine/Host.lean ====
section
/-!
DEFINITION. Machine/Host.lean: the host interface (13_host_rings.md): the examination of commands, completions and events on their
rings, the data rings, interrupts, host loss, and the PCIe function's own events.
-/
namespace Sys2Proof.Machine

/-! ## Examination (R317 to R319) -/

/-- Whether the HRE examines a command now: it runs, the host is not lost, fewer than 64 commands are outstanding and a CPL
descriptor stays free (R319, R325, R337). -/
def canExamine (s : State) : Bool :=
  hreRun s && hostCan s && s.hre.loss == .none && s.bsc.power != .standby && s.bsc.power != .off && s.hre.out.length < 64
    && wrap32 s.hre.cplProd s.hre.cplCons + s.hre.out.length + s.hre.orphans.length < ringSize s 1

/-! ## NVM words and gauges (R412 to R419) -/

/-- An NVM word stored, its check good (R412, R417). -/
def nvmStore (w : Nat) (v : Word) (p : PstSt) : PstSt :=
  { p with words := tput (nvmDelivered w) w v p.words, bad := tput false w false p.bad }

/-- An NVM word left failing its check by a write cut short (R412). -/
def nvmTear (w : Nat) (p : PstSt) : PstSt := { p with bad := tput false w true p.bad }

/-- The wear gauge of a page (R418). -/
def gaugeOf (p : PstSt) (page : Nat) : Nat := tget 0 page p.gauge

/-- Whether a page is worn (R419). -/
def worn (p : PstSt) (page : Nat) : Bool := gaugeOf p page ≥ 1000000

/-- One page write counted; every 64 page writes the gauge is committed (R418). -/
def gaugeUp (page : Nat) (p : PstSt) : PstSt :=
  let g := gaugeOf p page + 1
  { p with gauge := tput 0 page g p.gauge, gaugeKept := if g % 64 = 0 then tput 0 page g p.gaugeKept else p.gaugeKept }

/-- The notices of a page's gauge, each recorded once (R419). -/
def gaugeNote (page g : Nat) (s : State) : State :=
  if g = 800000 then note evWearNotice .aon 2 (w32 page) (w32 g) 0 s
  else if g = 1000000 then note evWearWorn .aon 2 (w32 page) (w32 g) 0 s
  else s

/-- One page write counted, with its notices (R418, R419). -/
def gaugeInc (page : Nat) (s : State) : State := gaugeNote page (gaugeOf s.pst page + 1) { s with pst := gaugeUp page s.pst }

/-- The page of the next C_res commit: 16 to 19 in turn (R416, R460). -/
def cresPage (p : PstSt) : Nat := 16 + p.cresK % 4

/-- The store with C_res committed to word 63 of its next page (R318, R416, R460). -/
def cresStored (v : Nat) (p : PstSt) : PstSt :=
  gaugeUp (cresPage p) { (nvmStore (64 * cresPage p + 63) (w32 v) p) with cres := v, cresK := p.cresK + 1 }

/-- C_res committed as CCOUNT + 4 096 to the next of its four words, pages 16 to 19 word 63, before the command is accepted (R318, R416, R460;
DEDUCED, log entry 153). -/
def commitCres (v : Nat) (s : State) : State :=
  gaugeNote (cresPage s.pst) (gaugeOf s.pst (cresPage s.pst) + 1) { s with pst := cresStored (min v 4294967295) s.pst }

/-- A refusal of a franked command at check 7 or 8, recorded (R317). -/
def frankRefused (op : Nat) (c : HostCmd) (chk : Nat) (s : State) : State :=
  note evFrankRefused .aon 4 (w32 op) c.ccount (w32 chk) (bump (if chk = 7 then 0x11C04 else 0x11C08) s)

/-- Checks 6 to 8 of R317, in the SEC. None where they pass. -/
def secChecks (op : Nat) (c : HostCmd) (s : State) : Option Nat × State :=
  if !classF op then (none, s)
  else if !aonUp s then (some stRefusedAon, s)
  else
    let s := bump 0x11C00 s
    if s.sec.lifecycle = 1 then (none, s)
    else if !(s.sec.cLast < c.ccount.toNat && c.ccount.toNat ≤ s.sec.cLast + 65536) || s.sec.cLast = 4294967295 then
      (some stRefusedCounter, frankRefused op c 7 s)
    else if cmdFrank s 1 (cmdBody op c) ≠ wordsBytes [c.w6, c.w7] || (slotOf s.sec 0).status != 1 then
      (some stRefusedFrank, frankRefused op c 8 s)
    else
      let s := if c.ccount.toNat ≥ s.pst.cres then commitCres (c.ccount.toNat + 4096) s else s
      (none, { s with sec := { s.sec with cLast := c.ccount.toNat } })

/-- Checks 2 to 8 of R317 in their order: the status of the first that fails, none where all pass. -/
def examine (op : Nat) (c : HostCmd) (s : State) : Option Nat × State :=
  if !opcodeList.contains op then (some stRefusedOpcode, s)
  else if !argsOk op c || !argsAt s op c then (some stRefusedArgument, s)
  else if s.bsc.power == .safehalt && !safehaltOps.contains op then (some stRefusedPower, s)
  else if (s.sec.lifecycle = 5 && !decommissionedOps.contains op) || !levelOk s op c then (some stRefusedLifecycle, s)
  else secChecks op c s

/-- A command read at its CMD index (R335). -/
def takeCmd (c : HostCmd) (s : State) : State := { s with hre := { s.hre with cmdCons := c.index + 1 } }

/-- Whether a command is the next to be examined: its index is CMD_CONS, below the CMD_PROD of the latest poll (R317). -/
def examinable (c : HostCmd) (s : State) : Bool := canExamine s && s.hre.cmdCons != s.hre.cmdProd && c.index == s.hre.cmdCons

/-- One command examined, refused or given its effect (R317). -/
def runCommand (op : Nat) (eff : HostCmd → State → State) (c : HostCmd) (s : State) : State :=
  if !examinable c s then s
  else
    match examine op c (takeCmd c s) with
    | (some st, s') => finishNow c op st 0 0 s'
    | (none, s') => eff c s'

/-- The step of a host command: the examination at its instant, then the publication of what changed. -/
def hostCommand (op : Nat) (eff : HostCmd → State → State) (c : HostCmd) (s : State) : Host.Outcome State Fault Refusal :=
  settle (runCommand op eff c (atTime c.t s))

/-- A command refused by its own conditions, checks 9 and 10 (R317). -/
def refuse (op : Nat) (c : HostCmd) (st : Nat) (s : State) : State := finishNow c op st 0 0 s

/-! ## Events on the EVT ring (R326) -/

/-- An EVT entry not posted: counted (R326). -/
def evtMiss (s : State) : State :=
  { s with hre := { s.hre with evtLost := satAdd 32 s.hre.evtLost 1, evtGap := satAdd 16 s.hre.evtGap 1 } }

/-- An EVT entry written, with vector 1, at once at or above URGENT (R326, R333). -/
def evtWrite (r : Record) (s : State) : State :=
  let s' := hostWrite (ringAddr s 2 s.hre.evtProd) (wordsBytes (r.words ++ [r.round, halves s.hre.evtGap 0])) s
  let s' := { s' with hre := { s'.hre with evtProd := s'.hre.evtProd + 1, evtGap := 0 } }
  if r.sev ≥ regF s 0xC01C 11 8 then vecFire 1 s' else vecItem 1 s'

/-- A record offered to the HRE for the EVT ring (R326, R429). Before the first RUN since power-up the entries wait (R445); a host
loss waits for the rings (R337). -/
def postEvt (r : Record) (s : State) : State :=
  if r.sev < regF s 0xC01C 3 0 then s
  else if hreRun s && hostCan s then
    if wrap32 s.hre.evtProd s.hre.evtCons < ringSize s 2 then evtWrite r s else evtMiss s
  else if !s.hre.everRun || fld (nth 0 r.words 0) 31 16 = evHostLoss then
    { s with hre := { s.hre with evtHold := s.hre.evtHold ++ [r] } }
  else evtMiss s

/-! ## Data rings (R327, R328) -/

/-- Whether a posted descriptor keeps the limits of R327. -/
def postedOk (p : Posted) : Bool := p.length % 256 == 0 && 256 ≤ p.length && p.length ≤ 1048576 && p.addr % 256 == 0

/-- The vector of a data ring (R332). -/
def ringVector (n : Nat) : Nat := if n = 8 then 3 else if n = 9 then 4 else 5 + n

/-- The done form of a descriptor written, and DONE advanced (R327). -/
def ringDone (n : Nat) (p : Posted) (bytes fmt job : Nat) (reduced err last : Bool) (crc : Word) (s : State) : State :=
  let g := ringOf s.hre n
  let w4 := w32 (16777216 * fmt + 524288 * b2n reduced + 262144 * b2n err + 131072 * b2n last + 65536 * b2n (g.shed != 0) + job % 65536)
  let ws := [lo32 p.addr, hi32 p.addr, w32 p.length, w32 bytes, w4, g.seq, w32 (min g.shed 4294967295), crc]
  let s := hostWrite (ringAddr s (3 + n) g.done) (wordsBytes ws) s
  vecItem (ringVector n)
    (mapRing n (fun g => { g with done := g.done + 1, seq := g.seq + 1, shed := 0, fill := [], items := 0, posted := g.posted.drop 1 }) s)

/-- Posted descriptors at the head that break the limits returned at once with ERROR (R327); `fuel` bounds them. -/
def ringPrune (n : Nat) : Nat → State → State
  | 0, s => s
  | f + 1, s =>
    match (ringOf s.hre n).posted with
    | p :: _ => if postedOk p then s else ringPrune n f (ringDone n p 0 0 0 false true false (crc32c []) s)
    | [] => s

/-- The buffer being filled completed: its data written, then its done form (R327, R328, R334). -/
def ringClose (n fmt job : Nat) (reduced last : Bool) (s : State) : State :=
  let g := ringOf s.hre n
  match g.posted with
  | [] => s
  | p :: r =>
    let s := hostWrite p.addr g.fill s
    ringPrune n r.length (ringDone n p g.fill.length fmt job reduced false last (crc32c g.fill) s)

/-- A token shed at a data ring: counted toward SHED_COUNT and in the HRE counters (R328, R459). -/
def ringShed (n : Nat) (s : State) : State :=
  markBusy .host <| bump (0xCC5C + 4 * n) (mapRing n (fun g => { g with shed := satAdd 32 g.shed 1 }) s)

/-- Whether a data ring can take data: enabled, running, the host not lost, a buffer posted (R314, R328, R337). -/
def ringReady (s : State) (n : Nat) : Bool :=
  hreRun s && hostCan s && s.hre.loss == .none && ringEn s (3 + n) && (ringOf s.hre n).posted != []

/-- Every posted buffer of a data ring that cannot hold an item of so many bytes beside what it has is completed, an empty one with BYTES 0, until one can
(R328, R348; DEDUCED, log entry 161); `fuel` bounds them. -/
def ringFit (n fmt job len : Nat) : Nat → State → State
  | 0, s => s
  | f + 1, s =>
    let g := ringOf s.hre n
    match g.posted with
    | p :: _ => if g.fill.length + len ≤ p.length then s else ringFit n fmt job len f (ringClose n fmt job false false s)
    | [] => s

/-- An item laid into the buffer being filled, whole; a buffer that cannot hold it is completed first (R328, R348). -/
def ringPut (n fmt job : Nat) (item : List Byte) (s : State) : State :=
  if !ringReady s n then ringShed n s
  else
    let s := ringFit n fmt job item.length (ringOf s.hre n).posted.length s
    if (ringOf s.hre n).posted != [] then mapRing n (fun g => { g with fill := g.fill ++ item, items := g.items + 1 }) s else ringShed n s

/-! ## Host loss (R337) -/

/-- The host declared lost: recorded and counted, once per episode (R337). -/
def hostLoss (stopped : Bool) (cause : Nat) (s : State) : State :=
  let kind := if stopped then Loss.stopped else .suspended
  if s.hre.loss == .stopped || s.hre.loss == kind then s
  else
    let s := note evHostLoss .host 0 (w32 (b2n stopped)) (w32 cause) 0 s
    { s with hre := { s.hre with loss := kind, losses := satAdd 32 s.hre.losses 1 } }

/-- Whether an offset belongs to the HOST domain's registers (R448). -/
def hostOff (o : Nat) : Bool := o / 0x1000 == 12 || o / 0x1000 == 13 || o / 0x1000 == 18

/-- RW words that a test names at their reset values (R453). -/
def resetRw (p : Nat → Bool) (s : State) : State :=
  { s with regs := { s.regs with rw := s.regs.rw.filter (fun e => !p e.1),
                                 held := s.regs.held.filter (fun e => !(p e.1 && !((rowAt e.1).any (·.persistent)))) } }

/-- Stream definitions and regions as a reset of HOST leaves them: disabled, region contents kept (R435, R457). -/
def hscDisable (h : HscSt) : HscSt :=
  { h with defs := [], strq := [], hisq := [], strAt := [],
           regions := h.regions.map (fun e => (e.1, e.2.map (fun r => { r with en := false, hold := false, countdown := none }))) }

/-- A reset of the HOST domain that keeps its power: RW fields at their reset values, rings disabled (R435). -/
def hostReset (s : State) : State :=
  let s := resetRw hostOff s
  { s with hre := { s.hre with rings := [], vecCount := [], vecAt := [], vecPend := [], firing := [], functionMask := false,
                               busMaster := false, indexErr := false, knock := false, devImage := [], ecrcGen := false, ecrcChk := false },
           hsc := hscDisable s.hsc }

/-! ## Meanings -/

/-- NOP: completes at acceptance with the current round (R320). -/
def effNop (c : HostCmd) (s : State) : State := finishNow c 0x01 stApplied (roundLo s) (hi32 (curRound s)) s

/-- NOP (R320). -/
def execNop (c : HostCmd) (s : State) : Host.Outcome State Fault Refusal := hostCommand 0x01 effNop c s

/-- HRE_KNOCK written: any value starts a poll; several before it starts cause one (R313). -/
def knockHre (s : State) : State :=
  if !active s .host then hreDiscard s else bump 0xCC04 { s with hre := { s.hre with knock := hreRun s } }

/-- HRE_KNOCK (R313). -/
def execHreKnock (t : Int) (_value : Word) (s : State) : Host.Outcome State Fault Refusal := settle (knockHre (atTime t s))

/-- The held orphans written on CPL, in completion order (R338). -/
def writeOrphans (s : State) : State :=
  s.hre.orphans.foldl (fun s ws => cplWrite ws s) { s with hre := { s.hre with orphans := [] } }

/-- Entries held for the EVT ring posted in order (R337, R445). -/
def writeHeld (s : State) : State :=
  s.hre.evtHold.foldl (fun s r => postEvt r s) { s with hre := { s.hre with evtHold := [] } }

/-- What the HRE holds for the host written once the host can be written to (R337, R338). -/
def writeBack (s : State) : State := if hreRun s && hostCan s then writeHeld (writeOrphans s) else s

/-- The start of ring r at 0 on both sides (R314). What was shed before it, and what of an unfinished buffer is lost with it, stands until the first done
buffer after it (R328; DEDUCED, log entry 154). -/
def restartRing (r : Nat) (s : State) : State :=
  match r with
  | 0 => { s with hre := { s.hre with cmdCons := 0, cmdProd := 0 } }
  | 1 => { s with hre := { s.hre with cplProd := 0, cplCons := 0 } }
  | 2 => { s with hre := { s.hre with evtProd := 0, evtCons := 0 } }
  | n + 3 => mapRing n (fun g => { done := 0, post := 0, seq := 0, posted := [], shed := satAdd 32 g.shed g.items, fill := [], items := 0 }) s

/-- Ring r enabled: it restarts, and EVT_LOST counts from here (R312, R314). -/
def enableRing (r : Nat) (s : State) : State :=
  restartRing r (if r = 2 then { s with hre := { s.hre with evtLost := 0 } } else s)

/-- RUN goes from 0 to 1: every enabled ring restarts, what was accepted before completes with ORPHAN, held orphans are written first, then held events
(R314, R322, R338). -/
def runRise (s : State) : State :=
  let s := (List.range 13).foldl (fun s r => if ringEn s r then restartRing r s else s) s
  let s := { s with hre := { s.hre with loss := .none, pollFails := 0, beat := none, beatAt := s.now, everRun := true, out := s.hre.out.map (fun o => { o with orphan := true }),
                                        devImage := [], knock := false, pollAt := none,
                                        orphansLost := satAdd 32 s.hre.orphansOver 0, orphansOver := 0 } }
  writeBack s

/-- HRE_CTL.RUN written (R314, R338); its floor of B3 rises with it (R367, R368). -/
def ctlRun (run : Bool) (s : State) : State :=
  if !active s .host then hreDiscard s
  else
    let was := hreRun s
    let s := setRw 0xC000 (w32 (b2n run)) s
    let s := if run then raiseFloor .host 3 s else setFloor .host 0 s
    if !was && hreRun s then runRise s else s

/-- HRE_CTL_RUN (R314). -/
def execHreCtlRun (t : Int) (run : Bool) (s : State) : Host.Outcome State Fault Refusal := settle (ctlRun run (atTime t s))

/-- The third word of a ring written: a rise of EN sets the OB4820's index to 0 and reads the host's as 0; SIZE is ignored while the ring is enabled, a
SIZE outside 6 to 16 always, and the attempt is recorded (R314, R434). -/
def ringWrite (r : Nat) (value : Word) (s : State) : State :=
  if !active s .host then hreDiscard s
  else
    let off := 0xC048 + 16 * r
    let was := hreRun s
    let en := ringEn s r
    let size := fld value 4 0
    let keep := en && size != regF s off 4 0
    if !en && (size < 6 || 16 < size) then vecItem 13 (note evWriteIgnored .host 0 (w32 off) value 0 s)
    else
      let s := if keep then vecItem 13 (note evWriteIgnored .host 0 (w32 off) value 1 s) else s
      let s := setRw off (w32 (256 * b2n (bitOf value 8) + (if keep then regF s off 4 0 else size))) s
      let s := { s with regs := { s.regs with held := tput none (off - 8) none (tput none (off - 4) none s.regs.held) } }
      let s := if !en && bitOf value 8 then enableRing r s else s
      if !was && hreRun s then runRise s else s

/-- HRE_RING_ENABLE (R314). -/
def execHreRingEnable (t : Int) (ring : Fin 13) (value : Word) (s : State) : Host.Outcome State Fault Refusal :=
  settle (ringWrite ring.val value (atTime t s))

/-- MSIX_COALESCE_TIMER: the age timer of a vector reached TIME (R333). -/
def execMsixCoalesceTimer (t : Int) (v : Fin 32) (s : State) : Host.Outcome State Fault Refusal :=
  let s := atTime t s
  match tget none v.val s.hre.vecAt with
  | none => settle s
  | some t0 =>
    if s.now - t0 ≥ (regF s (0xC180 + 4 * v.val) 31 16 : Nat) * 1000 && active s .host then settle (vecFire v.val s) else settle s

/-- HOST_TIMEOUT: HOST_BEAT unchanged for TIMEOUT ms suspends the host (R337). -/
def execHostTimeout (t : Int) (s : State) : Host.Outcome State Fault Refusal :=
  let s := atTime t s
  let lim := regF s 0xC018 13 0
  if hreRun s && 1 ≤ lim && lim ≤ 10000 && s.now - s.hre.beatAt ≥ (lim : Nat) * 1000000 then settle (hostLoss false 0 s) else settle s

/-- PCIE_LINK_DOWN: host loss of kind STOPPED, and a reset of HOST (R337, R435). -/
def execPcieLinkDown (t : Int) (s : State) : Host.Outcome State Fault Refusal :=
  let s := hostReset (hostLoss true 2 (atTime t s))
  settle { s with hre := { s.hre with linkUp := false } }

/-- BUS_MASTER_DISABLE (R337). -/
def execBusMasterDisable (t : Int) (s : State) : Host.Outcome State Fault Refusal :=
  let s := hostLoss true 3 (atTime t s)
  settle { s with hre := { s.hre with busMaster := false } }

/-- FUNCTION_LEVEL_RESET: STOPPED, RUN cleared, HOST reset (R337, R435). -/
def execFunctionLevelReset (t : Int) (s : State) : Host.Outcome State Fault Refusal :=
  settle (hostReset (hostLoss true 4 (atTime t s)))

/-- D3HOT_ENTRY (R337, R435). -/
def execD3hotEntry (t : Int) (s : State) : Host.Outcome State Fault Refusal :=
  let s := hostReset (hostLoss true 5 (atTime t s))
  settle { s with hre := { s.hre with d3hot := true } }

/-- PERST_N asserted: HOST is reset, the link goes down, the HRE stops (R337, R435). -/
def execPerstN (t : Int) (s : State) : Host.Outcome State Fault Refusal :=
  let s := hostReset (hostLoss true 2 (atTime t s))
  settle { s with hre := { s.hre with perst := true, linkUp := false, cfgReadyAt := none } }

/-- PERST_N deasserted: link training starts at the later of this and HOST ACTIVE (R442). -/
def execPerstNRelease (t : Int) (s : State) : Host.Outcome State Fault Refusal :=
  let s := atTime t s
  settle { s with hre := { s.hre with perst := false, linkUp := active s .host,
                                      cfgReadyAt := if active s .host then some s.now else none } }

/-- A configuration register word the spec gives (R309): IDs, BAR0 as a 64-bit memory BAR that is not prefetchable, whose upper half stands in the next
word, subsystem, unimplemented BARs (DEDUCED, log entry 155). -/
def cfgWord (s : State) (off : Nat) : Option Word :=
  match off with
  | 0x00 => some (halves 0x4820 Config.vendorId)
  | 0x10 => some (w32 (s.hre.bar % 4294967296 + 4))
  | 0x14 => some (w32 (s.hre.bar / 4294967296))
  | 0x18 => some 0
  | 0x1C => some 0
  | 0x20 => some 0
  | 0x24 => some 0
  | 0x2C => some (reg s 0xC034)
  | 0x30 => some 0
  | _ => none

/-- What the spec states of word k of a capability's structure, with the bits stated: PCI Power Management with D0 and D3hot, MSI-X with 32 vectors and
its table and pending bits in BAR0, a PCI Express endpoint with 128 or 256 bytes of payload and function level reset, ASPM L1 only, a x4 link at Gen3,
Advanced Error Reporting (R309, R448; PRESUMED: the fields stand where PCI Express places them, log entry 155). -/
def capWord (s : State) (c : PciCap) (k : Nat) : Word × Word :=
  match c, k with
  | .power, 0 => (0x01, 0x060000FF)
  | .power, 1 => (w32 (if s.hre.d3hot then 3 else 0), 3)
  | .msix, 0 => (w32 (0x11 + 65536 * 31 + 1073741824 * b2n s.hre.functionMask), 0x47FF00FF)
  | .msix, 1 => (0x12000, 0xFFFFFFFF)
  | .msix, 2 => (0x12800, 0xFFFFFFFF)
  | .express, 0 => (0x10, 0x00F000FF)
  | .express, 1 => (0x10000001, 0x10000007)
  | .express, 3 => (0x00000843, 0x00000FFF)
  | .errors, 0 => (0x0001, 0x0000FFFF)
  | .errors, 6 => (w32 (0xA0 + 64 * b2n s.hre.ecrcGen + 256 * b2n s.hre.ecrcChk), 0x1E0)
  | _, _ => (0, 0)

/-- A capability word as it reads: the bits the spec states, the others free. -/
def capRead (s : State) (c : PciCap) (k : Nat) : Word × State :=
  let w := capWord s c k
  let d := draw s
  ((w.1 &&& w.2) ||| (d.1 &&& ~~~w.2), d.2)

/-- What a configuration request does once HOST is ACTIVE (R309, R333, R409). The class code 0x11_8000 stands in [31:8] of word
0x08; a word or a revision the spec does not give reads as a free value. -/
def cfgApply (req : CfgReq) (s : State) : State :=
  let ok := fun (w : Word) (s : State) => { s with out := s.out ++ [.config true w] }
  match req with
  | .read off =>
    match cfgWord s off with
    | some w => ok w s
    | none =>
      let d := draw s
      if off = 8 then ok (w32 (0x11800000 + d.1.toNat % 256)) d.2 else ok d.1 d.2
  | .capability c k => let r := capRead s c k; ok r.1 r.2
  | .bar addr => ok 0 { s with hre := { s.hre with bar := addr.toNat / 0x100000 * 0x100000 } }
  | .functionMask on => ok 0 (vecRelease { s with hre := { s.hre with functionMask := on } })
  | .vectorMask v on => ok 0 (vecRelease (setRw (0x1200C + 16 * v) (w32 (b2n on)) s))
  | .ecrc gen chk => ok 0 { s with hre := { s.hre with ecrcGen := gen, ecrcChk := chk } }
  | .busMaster true => ok 0 (writeBack { s with hre := { s.hre with busMaster := true, d3hot := false } })
  | .busMaster false => ok 0 { hostLoss true 3 s with hre := { (hostLoss true 3 s).hre with busMaster := false } }

/-- CONFIGURATION_REQUEST: Retry Status until HOST is ACTIVE, then a successful completion (R442). -/
def execConfigurationRequest (t : Int) (req : CfgReq) (s : State) : Host.Outcome State Fault Refusal :=
  let s := atTime t s
  if active s .host then settle (cfgApply req s) else settle { s with out := s.out ++ [.config false 0] }

/-- JOB_BUFFER_TIMEOUT: a job of REC or HIS whose data met no posted buffer for 1 s completes CANCELLED (R328). -/
def execJobBufferTimeout (t : Int) (his : Bool) (s : State) : Host.Outcome State Fault Refusal :=
  let s := atTime t s
  let late := fun (j : Job) => (j.kind == if his then 0x50 else 0x48) && j.waitAt.any (fun w => decide (s.now - w ≥ 1000000000))
  settle (((s.bsc.jobs ++ s.bsc.running).filter late).foldl (fun s j => dropJob j (finish j.id stCancelled 0 0 s)) s)

end Sys2Proof.Machine
end

