-- ==== Sys2Proof/Machine/Persist.lean ====
section
/-!
DEFINITION. Machine/Persist.lean: the persistent store and the event recorder (18_persistence_recorder.md): word writes and their
order, wear gauges, operating seconds, records, freezing, and reading the recorder.
-/
namespace Sys2Proof.Machine

/-! ## NVM words and gauges (R412 to R419) -/

/-- Whether the PST would write a word at all: equal values are skipped (R415). -/
def wouldWrite (p : PstSt) (w : Nat) (v : Word) : Bool := nvmWord? p w != some v

/-- A write through BAR0 or the table window that has reached the PST: discarded after power-fail detection, counted while AON is
lost, ignored on a worn page, else queued (R415, R419). -/
def pstArrive (off w : Nat) (v : Word) (s : State) : State :=
  if s.bsc.aon != .released then s
  else if !aonUp s then { s with pst := { s.pst with discarded := satAdd 32 s.pst.discarded 1 } }
  else if worn s.pst (w / 64) then note evWriteIgnored .aon 2 (w32 off) v 2 s
  else pstQueue w v s

/-- Whether a write that reaches the PST enters its queue (R415, R419). -/
def lands (s : State) (w : Nat) : Bool := s.bsc.aon == .released && aonUp s && !worn s.pst (w / 64)

/-! ## The PST's work (R416) -/

/-- A page write put to the PST's work. -/
def addCommit (prio : Nat) (words : List (Nat × Word)) (tag : CommitTag) (s : State) : State :=
  match words with
  | [] => s
  | (w, _) :: _ =>
    { s with pst := { s.pst with commits := s.pst.commits ++
                        [{ prio := prio, words := words, wrote := false, page := w / 64, tag := tag }] } }

/-- The highest-priority commit waiting, its place in the list; the write queue stands at priority 3 before C_res (R416). -/
def bestPrio (cs : List Commit) : Nat := cs.foldl (fun m c => min m c.prio) 9

/-- What the end of a commit brings. -/
def commitDone (c : Commit) (s : State) : State :=
  let s := if c.wrote then gaugeInc c.page s else s
  match c.tag with
  | .seed true =>
    match s.cal.seed with
    | some x =>
      finish x.1 stApplied 8192 0 (note evSeedSaved .aon 2 8192 x.2 0 { s with cal := { s.cal with seed := none } })
    | none => s
  | .recBody true => { s with erc := { s.erc with queued := s.erc.queued - 1 } }
  | _ => s

/-- One word of a commit written, skipped when equal, or torn (R412, R415). -/
def commitWord (torn : Bool) (c : Commit) (s : State) : Commit × State :=
  match c.words with
  | [] => (c, s)
  | (w, v) :: r =>
    let wr := wouldWrite s.pst w v
    let p := if torn then nvmTear w s.pst else if wr then nvmStore w v s.pst else s.pst
    ({ c with words := r, wrote := c.wrote || wr }, { s with pst := p })

/-- The first commit of a priority advanced by one word; the list keeps its order. -/
def stepCommits (torn : Bool) (prio : Nat) (before : List Commit) : List Commit → State → State
  | [], s => { s with pst := { s.pst with commits := before } }
  | c :: r, s =>
    if c.prio = prio then
      let x := commitWord torn c s
      if x.1.words = [] then commitDone x.1 { x.2 with pst := { x.2.pst with commits := before ++ r } }
      else { x.2 with pst := { x.2.pst with commits := before ++ [x.1] ++ r } }
    else stepCommits torn prio (before ++ [c]) r s

/-- The head of the write queue written (R415, R418). -/
def writeQueued (torn : Bool) (s : State) : State :=
  match s.pst.wq with
  | [] => s
  | (w, v) :: r =>
    let wr := wouldWrite s.pst w v
    let p := if torn then nvmTear w s.pst else if wr then nvmStore w v s.pst else s.pst
    let s := { s with pst := { p with wq := r } }
    if wr then gaugeInc (w / 64) s else s

/-- Whether a write to a persistent word of the LHF's calibration waits in the PST's queue. -/
def calQueued (s : State) : Bool := s.pst.wq.any (fun e => pregWord 0xB100 ≤ e.1 && e.1 ≤ pregWord 0xB180)

/-- LEGACY_CAL completes when all its channels are done and what they wrote is committed (R221, R320). -/
def calEnd (s : State) : State :=
  match s.cal.legacy with
  | none => s
  | some x =>
    if x.left != [] || calQueued s then s
    else finish x.id stApplied (w32 x.res) 0 { s with cal := { s.cal with legacy := none } }

/-- NVM_WORD_WRITE: the highest-priority word that waits is written (R416). -/
def execNvmWordWrite (t : Int) (torn : Bool) (s : State) : Host.Outcome State Fault Refusal :=
  let s := atTime t s
  if !aonUp s then settle s
  else if bestPrio s.pst.commits < 3 || s.pst.wq = [] then
    settle (stepCommits torn (bestPrio s.pst.commits) [] s.pst.commits s)
  else settle (calEnd (writeQueued torn s))

/-- Every queued RWP write completed at once, as the power-fail sequence does (R378, step 4); `fuel` bounds them. -/
def flushQueue : Nat → State → State
  | 0, s => s
  | f + 1, s => flushQueue f (writeQueued false s)

/-- The operating seconds committed to word k mod 16 of their set (R420, R460). -/
def commitSeconds (s : State) : State :=
  let page := s.pst.opCommits % 16
  addCommit 5 [(64 * page + 63, w32 s.pst.opSeconds)] .opsec { s with pst := { s.pst with opCommits := s.pst.opCommits + 1 } }

/-- OPERATING_SECOND: one more second of AON's operation, committed every 360 s (R420). -/
def execOperatingSecond (t : Int) (s : State) : Host.Outcome State Fault Refusal :=
  let s := atTime t s
  if !aonUp s || s.bsc.power == .off then settle s
  else
    let n := (s.pst.opSeconds + 1) % 4294967296
    let s := { s with pst := { s.pst with opSeconds := n } }
    settle (if n % 360 = 0 then commitSeconds s else s)

/-! ## Records (R428 to R431) -/

/-- The class of an event code: its first hexadecimal digit (R429). -/
def evClass (code : Nat) : Nat := code / 4096

/-- Words w0 to w5 of a record (R428). -/
def recordWords (s : State) (e : EvIn) (held : Bool) : List Word :=
  let sev := severity e.code
  let archived := sev ≥ regF s 0x10000 3 0 && sev ≥ regF s 0x10000 11 8
  [w32 (65536 * e.code + 256 * e.src + 16 * sev + 4 * b2n archived + 2 * b2n held + b2n e.solo), w32 s.pst.opSeconds,
    w32 s.pst.cycles, e.p0, e.p1, e.p2]

/-- The eight words of a slot: w0 to w5, CRC, MARK (R428, R430). -/
def slotWords (ws : List Word) (w : Nat) : List Word := ws ++ [crc32cWords ws, w32 (2147483648 + w % 2147483648)]

/-- The two page writes of a slot, the second marked as the last of its record or not (R430). -/
def slotCommits (base : Nat) (ws : List Word) (w : Nat) (last : Bool) : List Commit :=
  [{ prio := 4, words := [(base + 7, 0)], wrote := false, page := base / 64, tag := .recErase },
   { prio := 4, words := (List.range 8).map (fun i => (base + i, nth 0 (slotWords ws w) i)), wrote := false, page := base / 64,
     tag := .recBody last }]

/-- The archive slot after a slot: 0 to 1 023 once, then the ring 1 024 to 2 047 (R430). -/
def nextArch (n : Nat) : Nat := if n ≥ 2047 then 1024 else n + 1

/-- A record kept in CIRCULATING, and in ARCHIVE, by its severity (R430). -/
def keepRecord (r : Record) (s : State) : State :=
  if r.sev < regF s 0x10000 3 0 then s
  else
    let w := s.erc.w
    let arch := r.sev ≥ regF s 0x10000 11 8
    let c := slotCommits (circBase + 8 * (w % 15872)) r.words w (!arch)
    let a := if arch then slotCommits (archBase + 8 * s.erc.archSlot) r.words w true else []
    { s with erc := { s.erc with w := w + 1, queued := s.erc.queued + 1,
                                 archSlot := if arch then nextArch s.erc.archSlot else s.erc.archSlot },
             pst := { s.pst with commits := s.pst.commits ++ c ++ a } }

/-- A region's countdown started by an event of its severity (R353). -/
def trigRegion (sev : Nat) (k : Nat) (r : RegionSt) (s : State) : RegionSt :=
  let trig := regF s (0xD010 + 0x40 * k) 11 8
  let post := regF s (0xD010 + 0x40 * k) 31 16
  if trig != 0 && sev ≥ trig && r.en && !r.hold && r.armed && r.countdown.isNone then
    { r with countdown := some (s.now + (post : Nat) * 1000000), armed := false }
  else r

/-- The regions' triggers at the taking of an event (R353). -/
def trigRegions (sev : Nat) (s : State) : State :=
  { s with hsc := { s.hsc with regions := s.hsc.regions.map (fun e => (e.1, e.2.map (fun r => trigRegion sev e.1 r s))) } }

/-- A record kept and posted (R429, R430). -/
def keepPost (r : Record) (s : State) : State := postEvt r (keepRecord r s)

/-- A record with HELD set in w0 (R433). -/
def markHeld (r : Record) : Record :=
  match r.words with
  | w0 :: ws => { r with words := setBit w0 1 true :: ws }
  | [] => r

/-- The end of a freeze: the pending records kept and posted in order (R433). -/
def releaseFreeze (s : State) : State :=
  let p := s.erc.pending
  p.foldl (fun s r => keepPost (markHeld r) s) { s with erc := { s.erc with frozen := false, pending := [] } }

/-- A formed record sent on its way: into the pending queue while frozen, which ends the freeze when full (R433). -/
def routeRecord (r : Record) (s : State) : State :=
  if s.erc.frozen then
    if s.erc.pending.length < 64 then { s with erc := { s.erc with pending := s.erc.pending ++ [r] } }
    else keepPost r (releaseFreeze s)
  else keepPost r s

/-- The record of an event, taken now (R428). -/
def formRecord (s : State) (e : EvIn) : Record :=
  { sev := severity e.code, words := recordWords s e false, round := roundLo s }

/-- An event dropped at a full queue, counted by class (R429). -/
def dropEvent (e : EvIn) (s : State) : State :=
  let k := evClass e.code
  { s with erc := { s.erc with dropped := tput 0 k (satAdd 32 (tget 0 k s.erc.dropped) 1) s.erc.dropped,
                               dropPending := s.erc.dropPending + 1, dropMask := s.erc.dropMask ||| 2 ^ k } }

/-- RECORDS_DROPPED recorded when room returns, before any later event (R429). -/
def flushDropped (s : State) : State :=
  if s.erc.dropPending = 0 then s
  else
    let e : EvIn := { code := evRecordsDropped, src := 3, p0 := w32 s.erc.dropPending, p1 := w32 s.erc.dropMask, p2 := 0, solo := false }
    let s := { s with erc := { s.erc with dropPending := 0, dropMask := 0 } }
    routeRecord (formRecord s e) s

/-- The ERC takes an event (R429). -/
def takeEvent (e : EvIn) (s : State) : State :=
  if s.erc.queued ≥ 1024 then dropEvent e s
  else
    let s := flushDropped s
    if s.erc.queued ≥ 1024 then dropEvent e s
    else
    routeRecord (formRecord s e) (trigRegions (severity e.code) s)

/-- EVENT_TAKE: the next event that reached the ERC (R429). -/
def execEventTake (t : Int) (s : State) : Host.Outcome State Fault Refusal :=
  let s := atTime t s
  if !aonUp s then settle s
  else
    match s.erc.inbox with
    | [] => settle s
    | e :: r => settle (takeEvent e { s with erc := { s.erc with inbox := r } })

/-! ## Freezing and reading (R432, R433) -/

/-- REC_FREEZE (R433). -/
def effRecFreeze (c : HostCmd) (s : State) : State :=
  if s.erc.frozen then refuse 0x49 c stRefusedState s
  else finishNow c 0x49 stApplied (w32 s.erc.pending.length) 0 { s with erc := { s.erc with frozen := true, frozenAt := s.now } }

/-- REC_FREEZE (R433). -/
def execRecFreeze (c : HostCmd) (s : State) : Host.Outcome State Fault Refusal := hostCommand 0x49 effRecFreeze c s

/-- REC_UNFREEZE: the number of records released (R433). -/
def effRecUnfreeze (c : HostCmd) (s : State) : State :=
  let n := s.erc.pending.length
  finishNow c 0x4A stApplied (w32 n) 0 (if s.erc.frozen then releaseFreeze s else s)

/-- REC_UNFREEZE (R433). -/
def execRecUnfreeze (c : HostCmd) (s : State) : Host.Outcome State Fault Refusal := hostCommand 0x4A effRecUnfreeze c s

/-- FREEZE_TIMEOUT: 10 s after REC_FREEZE the freeze ends (R433). -/
def execFreezeTimeout (t : Int) (s : State) : Host.Outcome State Fault Refusal :=
  let s := atTime t s
  if s.erc.frozen && s.now - s.erc.frozenAt ≥ 10000000000 then settle (releaseFreeze s) else settle s

/-- The eight words of the slot at an NVM word address, when every word passes its check (R431). -/
def slotAt (p : PstSt) (base : Nat) : Option (List Word) := (List.range 8).mapM (fun i => nvmWord? p (base + i))

/-- Whether a slot holds a valid record: words, MARK, CRC; for CIRCULATING the write number fits the slot (R431). -/
def slotValid (circ : Bool) (slot : Nat) (ws : List Word) : Bool :=
  let m := (nth 0 ws 7).toNat
  m ≥ 2147483648 && (!circ || (m % 2147483648) % 15872 == slot) && nth 0 ws 6 == crc32cWords (ws.take 6)

/-- The record that REC_READ places for an index, and the slot's area and number when it fails R431. -/
def recLookup (s : State) (ix : Nat) : Option (List Word) × Option (Nat × Nat) :=
  let arch := ix ≥ 2147483648
  let slot := if arch then ix % 2048 else ix % 15872
  let base := if arch then archBase + 8 * slot else circBase + 8 * slot
  match slotAt s.pst base with
  | none => (none, some (b2n arch, slot))
  | some ws =>
    if !slotValid (!arch) slot ws then (none, some (b2n arch, slot))
    else if !arch && (nth 0 ws 7).toNat % 2147483648 ≠ ix then (none, none)
    else (some ws, none)

/-- REC_READ accepted: a queued job on NVM with base priority 2 (R357, R374, R432). -/
def effRecRead (c : HostCmd) (s : State) : State :=
  addJob { id := newId s, index := c.index, prio := 2, res := .nvm, since := 0, kind := 0x48, args := [c.a0.toNat, c.a1.toNat],
           pos := 0, total := 0, waitAt := none } (accept c 0x48 s)

/-- REC_READ (R432). -/
def execRecRead (c : HostCmd) (s : State) : Host.Outcome State Fault Refusal := hostCommand 0x48 effRecRead c s

end Sys2Proof.Machine
end

