-- ==== Sys2Proof/Machine/Topo.lean ====
section
/-!
DEFINITION. Machine/Topo.lean: reading a topology bank (R461): the records of heads, profiles, sections, boundaries, remote heads,
the schedule, exports, polls, chainage, the ridge map and seeds.
-/
namespace Sys2Proof.Machine

/-- The bank that is ACTIVE, if any (R423). -/
def activeBank (s : State) : Option Bank :=
  if s.pst.bankA == .active then some .a else if s.pst.bankB == .active then some .b else none

/-- The generation of the ACTIVE bank as a word of a round gives it; a free value while none is ACTIVE (R181, R228, R330, R390). -/
def topoGen (s : State) (round : Nat) : Word := if (activeBank s).isSome then s.pst.genActive else Config.noTopo round

/-- A word of a bank; queued window writes are not yet stored (R415, R423). -/
def bankWord (s : State) (k : Bank) (w : Nat) : Word := nvmWord s.pst (bankBase k + w)

/-- A word of the ACTIVE bank, 0 while no bank is ACTIVE: every head and section then reads as disabled (R423). -/
def topoWord (s : State) (w : Nat) : Word :=
  match activeBank s with
  | some k => bankWord s k w
  | none => 0

/-- The words of a bank that are listed between two addresses and not 0, with their bank word numbers: the records an area holds
without reading every unlisted word of it. -/
def bankListed (s : State) (k : Bank) (lo hi : Nat) : List (Nat × Word) :=
  s.pst.words.filterMap (fun e =>
    let w := e.1 - bankBase k
    if bankBase k + lo ≤ e.1 && e.1 ≤ bankBase k + hi then some (w, nvmWord s.pst e.1) else none)

/-- The head records that are enabled in a bank (R423, R461). -/
def headsIn (s : State) (k : Bank) : List (Nat × HeadRec) :=
  (bankListed s k 0x0240 0x423F).filterMap (fun e =>
    if e.1 % 2 = 0 && bitOf e.2 31 then
      let h := (e.1 - 0x0240) / 2
      let w1 := bankWord s k (e.1 + 1)
      let vm := bankWord s k (0x4240 + h / 2)
      some (h, { port := fld e.2 30 29, z1 := fld e.2 14 0, w1 := fld e.2 28 27 + 1, z2 := fld w1 14 0, w2 := fld e.2 26 25 + 1,
                 profile := fld e.2 24 19, vmin := fld w1 27 16, vmax := if h % 2 = 0 then fld vm 15 0 else fld vm 31 16 })
    else none)

/-- The heads of the ACTIVE bank, in rising order of number. -/
def heads (s : State) : List (Nat × HeadRec) :=
  match activeBank s with
  | some k => headsIn s k
  | none => []

/-- A head of the ACTIVE bank. -/
def headRec (s : State) (h : Nat) : Option HeadRec := ((heads s).find? (fun e => e.1 == h)).map (·.2)

/-- A head profile of a bank (R461). -/
def profileIn (s : State) (k : Bank) (p : Nat) : Profile :=
  let w := fun i => bankWord s k (0x0040 + 8 * p + i)
  { koff := fld (w 0) 31 24, kon := fld (w 0) 23 16, ntShift := fld (w 0) 8 4, envShift := fld (w 0) 2 0,
    toff := fld (w 1) 31 16, tmin := fld (w 1) 15 0, nqCeil := fld (w 2) 31 16, nqInit := fld (w 2) 15 0,
    qh := fld (w 3) 31 24, minOn := fld (w 3) 23 16, hold := fld (w 3) 9 0, lagMin := fld (w 4) 31 16, maxOn := fld (w 4) 15 0,
    blindLim := fld (w 5) 25 16, blindMin := fld (w 5) 7 0, failWin := fld (w 6) 31 24, recWin := fld (w 6) 23 16,
    warm := fld (w 6) 15 0, legSep := fld (w 7) 15 0 }

/-- A head profile of the ACTIVE bank. -/
def profile (s : State) (p : Nat) : Profile := profileIn s ((activeBank s).getD .a) p

/-- The zone bins of a head (R123). -/
def zoneBins (r : HeadRec) : List Nat := span r.z1 r.w1 ++ span r.z2 r.w2

/-- The section records that are enabled in a bank (R461). -/
def sectionsIn (s : State) (k : Bank) : List (Nat × SectRec) :=
  (bankListed s k 0x5240 0x623F).filterMap (fun e =>
    if bitOf e.2 31 then some (e.1 - 0x5240, { nbound := fld e.2 30 27, limit := fld e.2 14 0 }) else none)

/-- The sections of the ACTIVE bank. -/
def sections (s : State) : List (Nat × SectRec) :=
  match activeBank s with
  | some k => sectionsIn s k
  | none => []

/-- NBOUND of a section record whether or not it is enabled (R461). -/
def nboundIn (s : State) (k : Bank) (i : Nat) : Nat := fld (bankWord s k (0x5240 + i)) 30 27

/-- Where the boundary entries of section i begin in the pool: NBOUND of the lower sections, from the listed records (R461). -/
def poolStart (s : State) (k : Bank) (i : Nat) : Nat :=
  (bankListed s k 0x5240 0x623F).foldl (fun n e => if e.1 - 0x5240 < i then n + fld e.2 30 27 else n) 0

/-- A boundary entry from its word (R461). -/
def boundOf (w : Word) : Bound :=
  { leadKind := fld w 31 30, lead := fld w 29 17, leadNeg := bitOf w 16, coverKind := fld w 15 14, cover := fld w 13 1,
    coverNeg := bitOf w 0 }

/-- The boundary entries of a section in a bank. -/
def boundsIn (s : State) (k : Bank) (i : Nat) : List Bound :=
  let p := poolStart s k i
  (List.range (nboundIn s k i)).map (fun j => boundOf (bankWord s k (0x6240 + p + j)))

/-- The boundary entries of a section of the ACTIVE bank. -/
def bounds (s : State) (i : Nat) : List Bound :=
  match activeBank s with
  | some k => boundsIn s k i
  | none => []

/-- The remote head entries that are enabled (R461). -/
def remotesIn (s : State) (k : Bank) : List (Nat × Remote) :=
  (bankListed s k 0x9A40 0xA23F).filterMap (fun e =>
    if e.1 % 2 = 0 && bitOf e.2 31 then
      some ((e.1 - 0x9A40) / 2, { node := fld e.2 23 16, head := fld e.2 12 0, minTransit := fld (bankWord s k (e.1 + 1)) 15 0 })
    else none)

/-- The remote head entries of the ACTIVE bank. -/
def remotes (s : State) : List (Nat × Remote) :=
  match activeBank s with
  | some k => remotesIn s k
  | none => []

/-- The schedule entries in use (R255, R461). -/
def schedIn (s : State) (k : Bank) : List Sched :=
  (bankListed s k 0xA240 0xAA3F).filterMap (fun e =>
    if e.1 % 2 = 0 && fld e.2 15 13 ≠ 0 then
      some { ix := (e.1 - 0xA240) / 2, kind := fld e.2 15 13, index := fld e.2 12 0, cycle := fld e.2 18 16, base := fld e.2 29 24,
             node := fld (bankWord s k (e.1 + 1)) 7 0 }
    else none)

/-- The schedule of the ACTIVE bank. -/
def sched (s : State) : List Sched :=
  match activeBank s with
  | some k => schedIn s k
  | none => []

/-- The heads that are exported (R461). -/
def exportsIn (s : State) (k : Bank) : List Nat :=
  (bankListed s k 0xAA40 0xAB3F).filterMap (fun e => if bitOf e.2 31 then some (fld e.2 12 0) else none)

/-- The exports of the ACTIVE bank. -/
def exports (s : State) : List Nat :=
  match activeBank s with
  | some k => exportsIn s k
  | none => []

/-- Ridge branch of node i in a bank (R461). -/
def ridgeBranchIn (s : State) (k : Bank) (i : Nat) : Nat :=
  fld (bankWord s k (0xBF58 + i / 8)) (4 * (i % 8) + 2) (4 * (i % 8))

/-- Ridge branch of node i in the ACTIVE bank. -/
def ridgeBranch (s : State) (i : Nat) : Nat := ridgeBranchIn s ((activeBank s).getD .a) i

/-- The knots of port p: P and C (R461). -/
def knotsIn (s : State) (k : Bank) (p : Nat) : List (Nat × Int) :=
  let b := 0xBB40 + 0x208 * p
  (List.range (fld (bankWord s k b) 8 0)).map (fun i =>
    (fld (bankWord s k (b + 1 + 2 * i)) 18 0, signed (bankWord s k (b + 2 + 2 * i)).toNat 32))

/-- The legacy chainage entries that are enabled: head and C (R461). -/
def legacyChainIn (s : State) (k : Bank) : List (Nat × Int) :=
  (List.range 4).filterMap (fun i =>
    let w := bankWord s k (0xBF50 + 2 * i)
    if bitOf w 31 then some (fld w 12 0, signed (bankWord s k (0xBF51 + 2 * i)).toNat 32) else none)

end Sys2Proof.Machine
end

