-- ==== Sys2Proof/Machine/Plan.lean ====
section
/-!
DEFINITION. Machine/Plan.lean: the interrogation plan (02_shot_plan.md): staged plans and their checks, the plan commands, shots, and
the reference clocks.
-/
namespace Sys2Proof.Machine

/-! ## Plans and their checks (R34 to R40, R50, R92, R98, R125) -/

/-- The first offset of a port's STG registers. -/
def stgOff (p : Port) : Nat := 0x400 * p.num

/-- The gate width staged for group j, ns (R42). -/
def stagedWidth (s : State) (p : Port) (j : Nat) : Nat :=
  fld (reg s (stgOff p + 0x14 + 4 * (j / 4))) (8 * (j % 4) + 7) (8 * (j % 4))

/-- The staged gauge (R92). -/
def stagedGauge (s : State) (p : Port) : Nat := regF s (0x4000 + 0x400 * p.num) 4 0

/-- The staged strain scale (R91, R92). -/
def stagedScale (s : State) (p : Port) : Nat := (reg s (0x4004 + 0x400 * p.num)).toNat

/-- The plan that the port's registers stage (R51). -/
def stagedPlan (s : State) (p : Port) : Plan :=
  let o := stgOff p
  { b0 := regF s o 14 0, nbins := regF s o 30 16, fibreEnd := regF s (o + 4) 14 0, slotBase := regF s (o + 4) 26 24,
    div := regF s (o + 4) 23 20, groups := regF s (o + 4) 19 16, ts := 20 * regF s (o + 8) 15 0, toff := regF s (o + 12) 11 0,
    widths := (List.range 8).map (stagedWidth s p), en := regF s (o + 0x1C) 7 0, gauge := stagedGauge s p, scale := stagedScale s p,
    decim := regF s (0x5000 + 0x400 * p.num) 4 0 }

/-- The installation: 0 single-ended, 1 dual-ended loop, 2 paired (R33). -/
def topoMode (s : State) : Nat := regF s 0x800 1 0

/-- Whether group j is enabled in a plan. -/
def Plan.lit (q : Plan) (j : Nat) : Bool := q.en.testBit j

/-- The widest gate of the enabled groups of a plan. -/
def Plan.maxWidth (q : Plan) : Nat :=
  nmax ((List.range q.groups).map (fun j => if q.lit j then nth 0 q.widths j else 0))

/-- R37: S = G × D is 1, 2, 4 or 8, and the slots fit. -/
def slotsOk (q : Plan) : Bool :=
  let n := q.groups * q.div
  (n == 1 || n == 2 || n == 4 || n == 8) && q.slotBase + n ≤ 8

/-- R38: the window. -/
def windowOk (q : Plan) : Bool :=
  q.nbins % 64 == 0 && 64 ≤ q.nbins && q.nbins ≤ 30720 && q.b0 + q.nbins ≤ 30720

/-- R40: the shot period and the stagger. -/
def periodOk (q : Plan) : Bool :=
  max (q.b0 + q.nbins) q.fibreEnd * 20 + 1600 ≤ q.ts && q.ts % (q.groups * 20) == 0 && q.maxWidth + 80 ≤ q.ts / q.groups

/-- R34: in a dual-ended loop, the window covers the fibre and both ports have one group index. -/
def loopOk (s : State) (q : Plan) : Bool :=
  topoMode s != 1 || (q.fibreEnd ≤ q.b0 + q.nbins && regF s 0x10 13 0 == regF s 0x410 13 0)

/-- Some group of a plan is enabled (R50). -/
def someLit (q : Plan) : Bool := (List.range q.groups).any q.lit

/-- The heads of the ACTIVE bank that name a port: 0, 1, or 2 for FIELD (R123). -/
def portHeads (s : State) (n : Nat) : List (Nat × HeadRec) := (heads s).filter (fun e => e.2.port == n)

/-- Every zone bin of the port's heads lies in the window and not in its last g bins (R92, R125). -/
def zonesOk (s : State) (p : Port) (q : Plan) (g : Nat) : Bool :=
  (portHeads s p.num).all (fun e => (zoneBins e.2).all (fun b => q.b0 ≤ b && b + g + 1 ≤ q.b0 + q.nbins))

/-- The FCH instance of a port. -/
def portFch (p : Port) : Fch := match p with | .p0 => .f0 | .p1 => .f1

/-- R98: with heads on the port, 1 / (M·Δ) lies in 500 to 4 000 Hz. -/
def rateOk (s : State) (p : Port) (q : Plan) : Bool :=
  portHeads s p.num == [] ||
    (250000 * q.groups ≤ q.decim * q.ts && q.decim * q.ts ≤ 2000000 * q.groups)

/-- The check of a staged plan at PORT_START and PLAN_APPLY (R50, R51, R98, R125). -/
def planOk (s : State) (p : Port) (q : Plan) : Bool :=
  1 ≤ q.groups && 1 ≤ q.div && slotsOk q && windowOk q && periodOk q && loopOk s q && someLit q && 1 ≤ q.gauge && q.gauge ≤ 16
    && zonesOk s p q q.gauge && rateOk s p q

/-! ## Port floors (R27, R74, R82) -/

/-- The bins a port's heads make head-bearing under gauge g: b and b + g of every zone bin b (R27, R82). -/
def headBins (s : State) (p : Port) (g : Nat) : List Nat :=
  ((portHeads s p.num).flatMap (fun e => (zoneBins e.2).flatMap (fun b => [b, b + g]))).eraseDups

/-- Head-bearing pace of the bands B0 to B5, bin-lines per second (R73). -/
def headPace : List Nat := [120000000, 240000000, 360000000, 480000000, 560000000, 640000000]

/-- The floor of a port under a plan (R74). -/
def planFloor (s : State) (p : Port) (q : Plan) : Nat :=
  let need := 11 * (headBins s p q.gauge).length * q.groups * 1000000000
  let f := (headPace.findIdx? (fun h => need ≤ 10 * h * q.ts)).getD 5
  if 360000000 * q.ts < q.nbins * q.groups * 1000000000 then max f 3 else f

/-- The floor of a port as it runs: B0 while stopped (R367). -/
def portFloor (s : State) (p : Port) : Nat :=
  match (s.stg.port p).plan with
  | some q => if (s.stg.port p).run = 1 then planFloor s p q else 0
  | none => 0

/-! ## Ports -/

/-- A port's STG changed. -/
def mapStg (p : Port) (f : StgSt → StgSt) (s : State) : State := { s with stg := s.stg.setPort p (f (s.stg.port p)) }

/-- Whether a port is stopped for the plan commands: stopped, or its PORT_START pending (R52). Stopped for holdover counts as
running (R55). -/
def portStopped (x : StgSt) : Bool := x.run == 0

/-- The nominal instant of line index n of a plan (R41). -/
def nominal (q : Plan) (t0 : Int) (n : Int) : Int :=
  t0 + n / (q.groups : Nat) * (q.ts : Nat) + n % (q.groups : Nat) * ((q.ts / q.groups : Nat) : Int)

/-- The first instant of the 10 ns grid at or after an instant (R52). -/
def grid10 (t : Int) : Int := cdiv t 10 * 10

/-- The end of the shot period in progress (R52). -/
def periodEnd (x : StgSt) (t : Int) : Int :=
  match x.plan with
  | some q => if q.ts = 0 then t else x.t0 + ((t - x.t0) / (q.ts : Nat) + 1) * (q.ts : Nat)
  | none => t

/-- Every pending request of a port but PORT_START and PORT_STOP completed CANCELLED (R52, R55). -/
def cancelRequests (p : Port) (s : State) : State :=
  let x := s.stg.port p
  let ids := (x.apply.toList.map (·.id)) ++ x.retunes.map (·.id) ++ (x.gauge.toList.map (·.id))
  let s := mapStg p (fun x => { x with apply := none, retunes := [], gauge := none }) s
  ids.foldl (fun s i => finish i stCancelled 0 0 s) s

/-! ## Plan commands -/

/-- PORT_START (R52, R439). A t0 off the 10 ns grid is taken as it stands (DESIGN CHOICE, log entry 128). -/
def effPortStart (c : HostCmd) (s : State) : State :=
  let p := argPort c
  let x := s.stg.port p
  let t0 := if bitOf c.a0 8 then grid10 (s.now + 20000) else (argA12 c : Int)
  let q := stagedPlan s p
  if x.stop.isSome then refuse 0x10 c stRefusedBusy s
  else if x.run != 0 || x.start.isSome || (!bitOf c.a0 8 && bitOf c.a0 9 == s.net.joined) || s.refs.sel.isNone || !active s p.dom then
    refuse 0x10 c stRefusedState s
  else if t0 < s.now then refuse 0x10 c stRefusedLate s
  else if !planOk s p q then refuse 0x10 c stRefusedPlan s
  else
    raiseFloor p.dom (planFloor s p q)
      (mapStg p (fun x => { x with start := some { id := newId s, t0 := t0, plan := q } }) (accept c 0x10 s))

/-- PORT_START (R52). -/
def execPortStart (c : HostCmd) (s : State) : Host.Outcome State Fault Refusal := hostCommand 0x10 effPortStart c s

/-- PORT_STOP (R52). On a port that waits for its restart after holdover it is examined as on a running port (R55), and the restart is given up. -/
def effPortStop (c : HostCmd) (s : State) : State :=
  let p := argPort c
  let x := s.stg.port p
  match x.stop, x.start with
  | some _, _ => refuse 0x11 c stRefusedBusy s
  | none, some r =>
    if x.run = 2 then
      cancelRequests p (mapStg p (fun x => { x with start := none, stop := some (newId s, s.now) }) (accept c 0x11 s))
    else finishNow c 0x11 stApplied 0xFFFFFFFF 0xFFFFFFFF
      (setFloor p.dom (portFloor s p) (finish r.id stCancelled 0 0 (mapStg p (fun x => { x with start := none }) s)))
  | none, none =>
    if x.run = 0 then refuse 0x11 c stRefusedState s
    else
      cancelRequests p
        (mapStg p (fun x => { x with stop := some (newId s, if x.run = 1 then periodEnd x s.now else s.now) }) (accept c 0x11 s))

/-- PORT_STOP (R52). -/
def execPortStop (c : HostCmd) (s : State) : Host.Outcome State Fault Refusal := hostCommand 0x11 effPortStop c s

/-- The first shot-period boundary of the old plan at or after t_a (R53). -/
def boundaryAfter (x : StgSt) (q : Plan) (ta : Int) : Int := x.t0 + cdiv (ta - x.t0) (q.ts : Nat) * (q.ts : Nat)

/-- PLAN_APPLY (R53, R55). -/
def effPlanApply (c : HostCmd) (s : State) : State :=
  let p := argPort c
  let x := s.stg.port p
  let ta : Int := argA12 c
  let q := stagedPlan s p
  if x.apply.isSome then refuse 0x12 c stRefusedBusy s
  else
    match x.plan with
    | none => refuse 0x12 c stRefusedState s
    | some old =>
      if portStopped x || x.stop.isSome then refuse 0x12 c stRefusedState s
      else if ta < s.now + 20000 then refuse 0x12 c stRefusedLate s
      else if !planOk s p q then refuse 0x12 c stRefusedPlan s
      else
        let pi := boundaryAfter x old ta
        let np := (pi - x.t0) / (old.ts : Nat) * (old.groups : Nat)
        let gone := (x.retunes.filter (fun r => r.n ≥ np)).map (·.id) ++ ((x.gauge.filter (fun g => g.n ≥ np)).toList.map (·.id))
        let s' := mapStg p (fun x =>
          { x with apply := some { id := newId s, p := pi, np := np, t0 := pi + (old.ts : Nat), plan := q },
                   retunes := x.retunes.filter (fun r => r.n < np), gauge := x.gauge.filter (fun g => g.n < np) }) (accept c 0x12 s)
        raiseFloor p.dom (planFloor s p q) (gone.foldl (fun s i => finish i stCancelled 0 0 s) s')

/-- PLAN_APPLY (R53). -/
def execPlanApply (c : HostCmd) (s : State) : Host.Outcome State Fault Refusal := hostCommand 0x12 effPlanApply c s

/-- A plan with one group's gate width and enable changed (R54). -/
def Plan.retuned (q : Plan) (j width : Nat) (en : Bool) : Plan :=
  { q with widths := setNth q.widths j width, en := if q.en.testBit j = en then q.en else q.en ^^^ 2 ^ j }

/-- The first line index at or after n in group j of G (R54). -/
def nextOf (n : Int) (j g : Nat) : Int := n + ((j : Int) - n) % (g : Int)

/-- Retunes in the order of their line indices (R54). -/
def insertRetune (r : Retune) : List Retune → List Retune
  | [] => [r]
  | y :: l => if r.n ≤ y.n then r :: y :: l else y :: insertRetune r l

/-- The plans that pending retunes lead through, one after each effective line index (R54). -/
def retuneSteps (q : Plan) : List Retune → List Plan
  | [] => []
  | r :: l => q.retuned r.group r.width r.en :: retuneSteps (q.retuned r.group r.width r.en) l

/-- Whether a plan that a retune leads to keeps a lit group and its stagger (R40, R50, R54). -/
def retuneOk (q : Plan) : Bool := someLit q && decide (q.maxWidth + 80 ≤ q.ts / q.groups)

/-- GROUP_RETUNE (R54, R55): every plan that the pending retunes and this one lead through must keep R40 and a lit group (R50). -/
def effGroupRetune (c : HostCmd) (s : State) : State :=
  let p := argPort c
  let x := s.stg.port p
  let j := fld c.a0 10 8
  let ne : Int := argA12 c
  match x.plan with
  | none => refuse 0x13 c stRefusedState s
  | some q =>
    if portStopped x || x.stop.isSome then refuse 0x13 c stRefusedState s
    else if x.apply.isSome || x.retunes.any (fun r => r.group == j) then refuse 0x13 c stRefusedBusy s
    else if ne ≤ x.last.getD (-1) then refuse 0x13 c stRefusedLate s
    else
      let n := nextOf ne j q.groups
      let w := stagedWidth s p j
      let en := bitOf (reg s (stgOff p + 0x1C)) j
      let r : Retune := { id := newId s, group := j, n := n, width := w, en := en }
      if !(retuneSteps q ((x.retunes ++ [r]).foldr insertRetune [])).all retuneOk then refuse 0x13 c stRefusedPlan s
      else mapStg p (fun x => { x with retunes := x.retunes ++ [r] }) (accept c 0x13 s)

/-- GROUP_RETUNE (R54). -/
def execGroupRetune (c : HostCmd) (s : State) : Host.Outcome State Fault Refusal := hostCommand 0x13 effGroupRetune c s

/-- GAUGE_SET (R92, R93). While a PLAN_APPLY is pending it is accepted whatever its line index, formed and checked with the plan in force; one that has
not taken effect by P stays pending in the new plan (DESIGN CHOICE, log entry 131). -/
def effGaugeSet (c : HostCmd) (s : State) : State :=
  let p := argPort c
  let x := s.stg.port p
  let n : Int := argA12 c
  match x.plan with
  | none => refuse 0x14 c stRefusedState s
  | some q =>
    let g := stagedGauge s p
    if x.gauge.isSome then refuse 0x14 c stRefusedBusy s
    else if portStopped x || x.stop.isSome then refuse 0x14 c stRefusedState s
    else if n ≤ x.last.getD (-1) then refuse 0x14 c stRefusedLate s
    else if !(1 ≤ g && g ≤ 16) || !zonesOk s p q g then refuse 0x14 c stRefusedPlan s
    else
      raiseFloor p.dom (planFloor s p { q with gauge := g })
        (mapStg p (fun x => { x with gauge := some { id := newId s, n := nextOf n 0 q.groups, gauge := g, scale := stagedScale s p } })
          (accept c 0x14 s))

/-- GAUGE_SET (R92). -/
def execGaugeSet (c : HostCmd) (s : State) : Host.Outcome State Fault Refusal := hostCommand 0x14 effGaugeSet c s

/-! ## Shots (R41 to R45, R54) -/

/-- The retune that takes effect at line index n, applied and completed (R54). -/
def applyRetunes (p : Port) (n : Int) (s : State) : State :=
  (((s.stg.port p).retunes).filter (fun r => r.n == n)).foldl
    (fun s r => finish r.id stApplied (lo32 n) (hi32 n)
      (mapStg p (fun x => { x with plan := x.plan.map (fun q => q.retuned r.group r.width r.en),
                                   retunes := x.retunes.filter (fun r' => r'.id != r.id) }) s)) s

/-- The gauge change that takes effect at line index n, or the staged scale at a group-0 line index without one (R92, R93). -/
def applyGauge (p : Port) (n : Int) (s : State) : State :=
  let x := s.stg.port p
  match x.gauge with
  | some g =>
    if g.n = n then
      setFloor p.dom (portFloor s p) (finish g.id stApplied (lo32 n) (hi32 n)
        (mapStg p (fun x => { x with plan := x.plan.map (fun q => { q with gauge := g.gauge, scale := g.scale }), gauge := none }) s))
    else s
  | none =>
    mapStg p (fun x => { x with plan := x.plan.map (fun q =>
      if n % (q.groups : Nat) = 0 then { q with scale := stagedScale s p } else q) }) s

/-- The shot of line index n at instant t: the pins, the latched shot time, the plan marks (R42, R44, R45, R54). -/
def fireShot (p : Port) (n t : Int) (s : State) : State :=
  let gset := ((s.stg.port p).gauge).any (fun g => g.n == n)
  let s := applyGauge p n (applyRetunes p n s)
  let x := s.stg.port p
  match x.plan with
  | none => s
  | some q =>
    let j := (n % (q.groups : Nat)).toNat
    let w := nth 0 q.widths j
    let lit := q.lit j
    let prev := nth none x.lit j
    let sh : Shot := { n := n, group := j, t := if lit then t else nominal q x.t0 n, lit := if lit then some w else none,
                       dark := !lit || prev.isNone, step := lit && prev.isSome && prev != some w, lt := !s.net.joined, plan := q, gset := gset }
    let s := mapStg p (fun x => { x with lit := setNth x.lit j (if lit then some w else none), last := some n, next := n + 1,
                                         code := q.slotBase + j * q.div, gateAt := t, gate := if lit then w else 0, ng := regF s (stgOff p + 0x10) 13 0 }) s
    let s := if lit then { s with out := s.out ++ [.gate p.num (q.slotBase + j * q.div) t (t + (w : Nat))] } else s
    { s with sin := s.sin.setPort p { s.sin.port p with queue := (s.sin.port p).queue ++ [sh] } }

/-- The level of a port's SHOT_GATE: high from the rise of a lit shot for the group's width (R42, R44). -/
def gateHigh (s : State) (p : Port) : Bool :=
  let x := s.stg.port p
  decide (x.gateAt ≤ s.now) && decide (s.now < x.gateAt + (x.gate : Nat))

/-- Whether an instant is that of a port's next shot: its nominal instant (R41, R42, R45); without a valid reference, within the 20 ns by which the
holdover oscillator may be off in 1 ms (R49). -/
def shotAt (s : State) (p : Port) (t : Int) : Bool :=
  let x := s.stg.port p
  x.plan.any (fun q =>
    let d := t - nominal q x.t0 x.next
    if s.refs.sel.isSome then d == 0 else decide (-20 ≤ d) && decide (d ≤ 20))

/-- Whether the port launches its next shot at an instant: the shot's, while it runs, no gap, and neither a stop nor a change has come. -/
def shotDue (s : State) (p : Port) (t : Int) : Bool :=
  let x := s.stg.port p
  active s p.dom && x.run == 1 && !x.gap && shotAt s p t && x.apply.all (fun a => decide (x.next < a.np)) && x.stop.all (fun e => decide (t < e.2))
    && x.holdStop.all (fun e => decide (t < e))

/-- SHOT: the next line index of a running port at its nominal instant (R42). -/
def execShot (t : Int) (port : Port) (s : State) : Host.Outcome State Fault Refusal :=
  let s := atTime t s
  if shotDue s port t then settle (fireShot port (s.stg.port port).next t s) else settle s

/-! ## Reference clocks (R47 to R49, R439) -/

/-- The number of a reference input in events (R434). -/
def refNum (r : RefIn) : Nat := match r with | .a => 0 | .b => 1 | .pcie => 2

/-- Whether REFCLK_A or REFCLK_B is available. -/
def refAvail (s : State) (r : RefIn) : Bool := match r with | .a => s.refs.aAvail | .b => s.refs.bAvail | .pcie => false

/-- The other of REFCLK_A and REFCLK_B. -/
def refOther (r : RefIn) : RefIn := match r with | .a => .b | _ => .a

/-- A hitless switchover to a reference: no shot, gate or counter changes (R48). -/
def switchTo (r : RefIn) (byCommand : Bool) (s : State) : State :=
  note evRefSwitch .aon 0 (w32 (refNum r)) (w32 (b2n byCommand)) 0 { s with refs := { s.refs with sel := some r } }

/-- An input marked unavailable. -/
def refMark (r : RefIn) (s : State) : State :=
  match r with
  | .a => { s with refs := { s.refs with aAvail := false } }
  | .b => { s with refs := { s.refs with bAvail := false } }
  | .pcie => { s with refs := { s.refs with pcieFault := true } }

/-- Whether an input is marked unavailable (R47). -/
def refMarked (s : State) (r : RefIn) : Bool :=
  match r with
  | .a => !s.refs.aAvail
  | .b => !s.refs.bAvail
  | .pcie => !s.refs.pcie || s.refs.pcieFault

/-- The decision once inputs are marked: a selected reference that is not available is left for the other one, or holdover begins (R47, R49). -/
def refSettle (s : State) : State :=
  match s.refs.sel with
  | none => s
  | some r =>
    if refAvail s r then s
    else if refAvail s (refOther r) then switchTo (refOther r) false s
    else note evHoldover .aon 0 1 0 0 { s with refs := { s.refs with holdover := true, holdAt := s.now, sel := none } }

/-- The decision after an input became lost or faulty (R47). -/
def refDecide (r : RefIn) (s : State) : State := refSettle (refMark r s)

/-- REFCLK_SELECT (R47). -/
def effRefclkSelect (c : HostCmd) (s : State) : State :=
  match s.refs.sel with
  | none => refuse 0x15 c stRefusedState s
  | some r =>
    if refAvail s (refOther r) then finishNow c 0x15 stApplied (w32 (refNum (refOther r))) 0 (switchTo (refOther r) true s)
    else refuse 0x15 c stRefusedState s

/-- REFCLK_SELECT (R47). -/
def execRefclkSelect (c : HostCmd) (s : State) : Host.Outcome State Fault Refusal := hostCommand 0x15 effRefclkSelect c s

/-- REF_LOSS: no edge within 30 ns (R47). -/
def execRefLoss (t : Int) (ref : RefIn) (s : State) : Host.Outcome State Fault Refusal :=
  let s := note evRefFault .aon 0 (w32 (refNum ref)) 0 0 (atTime t s)
  match ref with
  | .a => settle (refDecide .a { s with refs := { s.refs with aPresent := false } })
  | .b => settle (refDecide .b { s with refs := { s.refs with bPresent := false } })
  | .pcie => settle { s with refs := { s.refs with pcie := false } }

/-- Whether a difference, in 0.1 ppm, exceeds 100 ppm (R47). -/
def offBy (d : Int) : Bool := d > 1000 || d < -1000

/-- A present input declared faulty and marked unavailable (R47). -/
def refFaulty (r : RefIn) (s : State) : State := refMark r (note evRefFault .aon 0 (w32 (refNum r)) 1 0 s)

/-- REF_MONITOR_WINDOW: which inputs were present, and the pairwise differences over 1 ms, in 0.1 ppm; every input of the window is judged before a
reference is chosen (R47). -/
def execRefMonitorWindow (t : Int) (a b p : RefMeas) (s : State) : Host.Outcome State Fault Refusal :=
  let s := atTime t s
  let s := { s with refs := { s.refs with aPresent := s.refs.aPresent || a.present, bPresent := s.refs.bPresent || b.present, pcie := s.refs.pcie || p.present } }
  let ab := a.diff
  let bp := b.diff
  let ap := p.diff
  let all := s.refs.aPresent && s.refs.bPresent && s.refs.pcie
  let fa := all && offBy ab && offBy ap
  let fb := all && offBy ab && offBy bp
  let fp := all && offBy ap && offBy bp
  let dis := s.refs.aPresent && s.refs.bPresent && !s.refs.pcie && offBy ab
  let s := if dis && !s.refs.disagree then note evRefDisagree .aon 0 (w32i (if ab < 0 then -ab else ab)) 0 0 s else s
  let s := { s with refs := { s.refs with disagree := dis } }
  let s := if fa && s.refs.aAvail then refFaulty .a s else s
  let s := if fb && s.refs.bAvail then refFaulty .b s else s
  let s := if fp && !s.refs.pcieFault then refFaulty .pcie s else s
  settle (refSettle s)

/-- REF_AVAILABLE: a reference marked unavailable stayed valid for 100 ms (R47). -/
def execRefAvailable (t : Int) (ref : RefIn) (s : State) : Host.Outcome State Fault Refusal :=
  let s := atTime t s
  if !refMarked s ref then settle s
  else
  let s := note evRefAvailable .aon 0 (w32 (refNum ref)) 0 0 s
  match ref with
  | .a => settle { s with refs := { s.refs with aPresent := true, aAvail := true } }
  | .b => settle { s with refs := { s.refs with bPresent := true, bAvail := true } }
  | .pcie => settle { s with refs := { s.refs with pcie := true, pcieFault := false } }

/-- REFERENCE_SELECT: in START the first reference valid for 10 ms is selected; none after 100 ms lets START go on without one
(R439). -/
def execReferenceSelect (t : Int) (ref : Option RefIn) (s : State) : Host.Outcome State Fault Refusal :=
  let s := atTime t s
  match ref, s.refs.sel with
  | some .a, none => settle { s with refs := { s.refs with aPresent := true, aAvail := true, sel := some .a } }
  | some .b, none => settle { s with refs := { s.refs with bPresent := true, bAvail := true, sel := some .b } }
  | _, _ => settle s

/-- HOLDOVER_EXPIRY: no reference within 1 ms. Each STG completes its shot period and stops its port; the device enters HOLDOVER,
at once when no port runs (R49, R364). -/
def execHoldoverExpiry (t : Int) (s : State) : Host.Outcome State Fault Refusal :=
  let s := atTime t s
  if !s.refs.holdover || s.now - s.refs.holdAt < 1000000 then settle s
  else
    let stop := fun (p : Port) (s : State) =>
      if (s.stg.port p).run = 1 then mapStg p (fun x => { x with holdStop := some (periodEnd x s.now) }) s else s
    let s := stop .p1 (stop .p0 s)
    if (s.stg.port .p0).run != 1 && (s.stg.port .p1).run != 1 && (s.bsc.power == .service || s.bsc.power == .lean) then
      settle (setPower .holdover s)
    else settle s

/-- What the LEAN causes make of a device in service (R364). -/
def serviceOrLean (s : State) : PState := if leanCause s.bsc then .lean else .service

/-- REF_RETURN: a reference valid for 100 ms after holdover; each port that was running starts again at the next boundary of its old
grid (R49). -/
def execRefReturn (t : Int) (ref : RefIn) (s : State) : Host.Outcome State Fault Refusal :=
  let s := atTime t s
  if !s.refs.holdover || ref == .pcie then settle s
  else
    let s := { s with refs := { s.refs with holdover := false, sel := some ref, 
                                            aPresent := s.refs.aPresent || ref == .a, aAvail := s.refs.aAvail || ref == .a,
                                            bPresent := s.refs.bPresent || ref == .b, bAvail := s.refs.bAvail || ref == .b } }
    let s := note evHoldover .aon 0 0 0 0 s
    let again := fun (p : Port) (s : State) =>
      let x := s.stg.port p
      match x.plan with
      | some q =>
        if x.run = 2 then mapStg p (fun x => { x with start := some { id := 0, t0 := periodEnd x s.now, plan := q } }) s
        else mapStg p (fun x => { x with holdStop := none }) s
      | none => s
    let s := again .p1 (again .p0 s)
    if (s.stg.port .p0).run != 2 && (s.stg.port .p1).run != 2 && s.bsc.power == .holdover then settle (setPower (serviceOrLean s) s)
    else settle s

end Sys2Proof.Machine
end

