-- ==== Sys2Proof/Machine/Ingest.lean ====
section
/-!
DEFINITION. Machine/Ingest.lean: converter links, the mailbag and the line-sample handover (03_converter_ingest.md).
-/
namespace Sys2Proof.Machine

/-- The number of a polarisation. -/
def polNum (q : Pol) : Nat := match q with | .x => 0 | .y => 1

/-- The number of a converter in events: 0 X0, 1 Y0, 2 X1, 3 Y1 (R434). -/
def convNum (p : Port) (q : Pol) : Nat := 2 * p.num + polNum q

/-- The first offset of a port's CLR registers. -/
def clrOff (p : Port) : Nat := 0x1000 + 0x400 * p.num

/-- Lanes per converter L (R56). -/
def linkLanes (s : State) (p : Port) : Nat := if bitOf (reg s (clrOff p)) 0 then 2 else 1

/-- The LEMC period P: 256 ns at L = 2, 128 ns at L = 1 (R56). -/
def lemcPeriod (s : State) (p : Port) : Int := if linkLanes s p = 2 then 256 else 128

/-- A converter of a port. -/
def convOf (s : State) (p : Port) (q : Pol) : ConvSt := (s.clr.port p).conv.pol q

/-- A converter changed. -/
def mapConv (p : Port) (q : Pol) (f : ConvSt → ConvSt) (s : State) : State :=
  let c := s.clr.port p
  { s with clr := s.clr.setPort p { c with conv := c.conv.setPol q (f (c.conv.pol q)) } }

/-- A port's mailbag changed. -/
def mapSin (p : Port) (f : SinSt → SinSt) (s : State) : State := { s with sin := s.sin.setPort p (f (s.sin.port p)) }

/-! ## Sample marks of a released extended multiblock (R65 to R67) -/

/-- A data slate with LINK set on the groups of one converter that hold a stored instant from lo to hi (R67). -/
def Slate.link (d : Slate) (q : Pol) (lo hi : Int) : Slate :=
  let got := match q with | .x => d.gotX | .y => d.gotY
  let base := match q with | .x => 16 | .y => 24
  { d with marks := (List.range 64).foldl (fun w i =>
      let t := d.start + (i : Nat)
      if got.testBit i && decide (lo ≤ t) && decide (t ≤ hi) then setBit w (base + i / 8) true else w) d.marks }

/-- The sample marks newly set are counted in groups (R459, SIN). -/
def countMarks (p : Port) (before after : SinSt) (s : State) : State :=
  let ones := fun (l : List Slate) (k : Nat) =>
    (l.map (fun d => ((List.range 8).filter (fun m => bitOf d.marks (8 * k + m))).length)).foldl (· + ·) 0
  (List.range 4).foldl (fun s k => bumpBy (0x2C20 + 0x100 * p.num + 4 * k) (ones after.slates k - ones before.slates k) s) s

/-- The CRC-12 outcome of the extended multiblock that waits for it: its stored instants carry LINK when it failed or never arrived, and are readable
from now on (R66, R67). -/
def settleCrc (p : Port) (q : Pol) (ok : Bool) (s : State) : State :=
  match (convOf s p q).await with
  | none => s
  | some (_, lo, hi) =>
    let s := mapConv p q (fun c => { c with await := none }) s
    if ok then s
    else
      let before := s.sin.port p
      let s := mapSin p (fun x => { x with slates := x.slates.map (fun d => d.link q lo hi) }) s
      countMarks p before (s.sin.port p) s

/-! ## Link states (R58, R60, R63) -/

/-- A converter's change of state noted for the segment guard: any change (R203), and into or out of ALIGNED or RETIRED (R202). -/
def convNoted (p : Port) (align : Bool) (s : State) : State :=
  let n := s.convNote.port p
  { s with convNote := s.convNote.setPort p { align := if align then some (n.align.getD s.now) else n.align, any := some s.now } }

/-- A converter retired, recorded with its cause: 0 CRC limit, 1 fourth DOWN (R63). -/
def convRetire (p : Port) (q : Pol) (cause : Nat) (s : State) : State :=
  note evLinkRetired p.dom 1 (w32 (convNum p q)) (w32 cause) 0
    (convNoted p true (mapConv p q (fun c => { c with st := 4, inWindow := 0, buf := [] }) (settleCrc p q false s)))

/-- A converter into DOWN from SH_LOCK, EMB_LOCK or ALIGNED, recorded with its cause; the fourth entry from ALIGNED within 1 s retires
it (R60, R63). A CRC-12 outcome that is still to come never arrives (R67). -/
def convDown (p : Port) (q : Pol) (cause : Nat) (s : State) : State :=
  let c := convOf s p q
  let downs := if c.st = 3 then c.downs.filter (fun t => decide (s.now - t < 1000000000)) ++ [s.now]
    else c.downs.filter (fun t => decide (s.now - t < 1000000000))
  let s' := note evLinkDown p.dom 1 (w32 (convNum p q)) (w32 cause) (w32 downs.length)
    (convNoted p (c.st == 3) <| bump (0x1C08 + 0x100 * p.num + 4 * polNum q)
      (mapConv p q (fun c => { c with st := 0, inWindow := 0, missRun := [], downs := downs, buf := [] }) (settleCrc p q false s)))
  if c.st = 3 && downs.length ≥ 4 then convRetire p q 1 s' else s'

/-- The lanes of a converter, the most significant octet's first (table "Lane mapping", R58); at L = 1 the odd lanes are powered down. -/
def convLanes (s : State) (p : Port) (q : Pol) : List Nat :=
  let a := 4 * p.num + 2 * polNum q
  if linkLanes s p = 2 then [a, a + 1] else [a]

/-- Containers from the octets of one lane, two per frame, the most significant first (PRESUMED, log entry 132). -/
def pairOctets : List Byte → List (BitVec 16)
  | a :: b :: l => BitVec.ofNat 16 (256 * a.toNat + b.toNat) :: pairOctets l
  | _ => []

/-- The containers of an extended multiblock from the octets of its lanes (R56, R58). -/
def joinOctets : List (List Byte) → List (BitVec 16)
  | [hi, lo] => List.zipWith (fun a b => BitVec.ofNat 16 (256 * a.toNat + b.toNat)) hi lo
  | [one] => pairOctets one
  | _ => []

/-- The arrivals on the converter's own lanes in their order; the others are powered down or not this converter's (R58). -/
def ownArrivals (s : State) (p : Port) (q : Pol) (l : List LaneArrival) : List LaneArrival :=
  (convLanes s p q).flatMap (fun n => l.filter (fun a => a.lane.val == n))

/-- An arrival held in the release buffer until its release falls due (R60, R62): one that comes later is dropped, and no more are held than the
release delay spans. -/
def holdEmb (p : Port) (q : Pol) (l : List LaneArrival) (s : State) : State :=
  match l, (s.clr.port p).grid with
  | a :: _, some g =>
    let rbd : Int := (regF s (clrOff p) 27 24 : Nat)
    if s.now > g + (a.k + rbd) * lemcPeriod s p then s
    else
      let e : Emb := { k := a.k, ats := l.map (·.pilotAt), pilots := l.all (fun x => !x.pilotMissing),
                       containers := joinOctets (l.map (·.octets)), crcFails := (l.filter (fun x => !x.crcOk)).length }
      mapConv p q (fun c => { c with buf := (c.buf.filter (fun (x : Emb) => x.k != a.k) ++ [e]).drop (c.buf.length - 9) }) s
  | _, _ => s

/-- MULTIBLOCK_ARRIVAL: what the lanes of a converter saw drives DOWN → SH_LOCK → EMB_LOCK, or back to DOWN; in EMB_LOCK and ALIGNED the extended
multiblock waits in the release buffer (R60). Lost sync headers come before a missing pilot (DESIGN CHOICE, log entry 130). -/
def execMultiblockArrival (t : Int) (port : Port) (pol : Pol) (lanes : List LaneArrival) (s : State) :
    Host.Outcome State Fault Refusal :=
  let s := atTime t s
  let c := convOf s port pol
  let own := ownArrivals s port pol lanes
  let full := own.map (·.lane.val) == convLanes s port pol
  let lost := own.any (fun l => decide (l.invalidIn64 ≥ 16))
  let runs := (List.range own.length).map (fun i => if (own.map (·.pilotMissing)).getD i false then nth 0 c.missRun i + 1 else 0)
  if !active s port.dom || !full then settle s
  else if c.st = 0 then
    settle (if own.all (fun l => decide (l.validRun ≥ 64)) then convNoted port false (mapConv port pol (fun c => { c with st := 1 }) s) else s)
  else if c.st = 1 then
    settle (if lost then convDown port pol 0 s
      else if own.all (fun l => decide (l.pilotRun ≥ 4)) then
        convNoted port false (mapConv port pol (fun c => { c with st := 2, inWindow := 0, missRun := [], buf := [], await := none }) s) else s)
  else if c.st = 2 then
    settle (if lost then convDown port pol 0 s else if own.any (·.pilotMissing) then convDown port pol 1 s else holdEmb port pol own s)
  else if c.st = 3 then
    settle (if lost then convDown port pol 0 s
      else if runs.any (fun n => decide (n ≥ 3)) then convDown port pol 1 s
      else holdEmb port pol own (mapConv port pol (fun c => { c with missRun := runs }) s))
  else settle s

/-- LINK_READMIT: a RETIRED converter returns to DOWN; nothing is recorded (R60). It forgets the entries into DOWN and the round's CRC-12 failures
(DESIGN CHOICE, log entry 129). -/
def effLinkReadmit (c : HostCmd) (s : State) : State :=
  let p := if bitOf c.a0 1 then Port.p1 else .p0
  let q := if bitOf c.a0 0 then Pol.y else .x
  if (convOf s p q).st = 4 && active s p.dom then
    finishNow c 0x16 stApplied 0 0 (convNoted p false <| mapConv p q (fun c => { c with st := 0, inWindow := 0, missRun := [], downs := [], crcRound := 0 }) s)
  else refuse 0x16 c stRefusedState s

/-- LINK_READMIT (R60). -/
def execLinkReadmit (c : HostCmd) (s : State) : Host.Outcome State Fault Refusal := hostCommand 0x16 effLinkReadmit c s

/-- SYSREF_EDGE: sets the LEMC grid of a stopped port once a reference is selected, or is checked against it, in holdover too (R61, R439). -/
def execSysrefEdge (t : Int) (port : Port) (s : State) : Host.Outcome State Fault Refusal :=
  let s := atTime t s
  let c := s.clr.port port
  let free := (s.stg.port port).run == 0 && s.refs.sel.isSome
  let quiet := fun (x : ConvSt) => x.st == 0 || x.st == 4
  let set := { s with clr := s.clr.setPort port { c with grid := some t } }
  if !active s port.dom then settle s
  else
    match c.grid with
    | none => if free && c.conv.a.st != 3 && c.conv.b.st != 3 then settle set else settle s
    | some g =>
      if free && quiet c.conv.a && quiet c.conv.b then settle set
      else
        let off := wrap (t - g) (if lemcPeriod s port = 256 then 8 else 7)
        if off > 1 || off < -1 then settle (note evSysrefOffGrid port.dom 1 (w32 port.num) (w32i off) 0 s) else settle s

/-! ## Capture (R62 to R67) -/

/-- The first and last instants of a shot's capture span from a 64-bin block on (R64). -/
def spanFrom (x : Shot) (block : Nat) : Int × Int :=
  let o := x.t + (x.plan.toff : Nat) + 20 * (x.plan.b0 : Nat)
  (o + 20 * 64 * (block : Nat), o + 20 * ((x.plan.nbins - 1 : Nat) : Int) + 199)

/-- The spans still to be read: of line samples not handed over, and of those the SCH has not finished (R64, R66). -/
def openSpans (x : SinSt) : List (Int × Int) :=
  (x.queue.filter (·.lit.isSome)).map (fun q => spanFrom q 0)
    ++ (x.lines.filter (fun l => l.shot.lit.isSome && !l.missed)).map (fun l => spanFrom l.shot l.block)

/-- Whether an instant lies in one of some spans. -/
def inSpans (spans : List (Int × Int)) (t : Int) : Bool := spans.any (fun e => decide (e.1 ≤ t ∧ t ≤ e.2))

/-- The first instant of the data slate of an instant (R65). -/
def slateStart (t : Int) : Int := t / 64 * 64

/-- The data slate of an instant. -/
def slateOf (x : SinSt) (t : Int) : Option Slate := x.slates.find? (fun d => d.start == slateStart t)

/-- An empty data slate. -/
def newSlate (start : Int) : Slate :=
  { start := start, x := List.replicate 64 0, y := List.replicate 64 0, gotX := 0, gotY := 0, marks := 0 }

/-- One sample laid into its slate with its marks (R65, R67). -/
def Slate.put (d : Slate) (q : Pol) (t : Int) (v : BitVec 16) (ovr link : Bool) : Slate :=
  let i := (t - d.start).toNat
  let m := i / 8
  let mk := fun (w : Word) (b : Nat) (on : Bool) => if on then setBit w b true else w
  match q with
  | .x => { d with x := setNth d.x i v, gotX := d.gotX ||| 2 ^ i, marks := mk (mk d.marks m ovr) (16 + m) link }
  | .y => { d with y := setNth d.y i v, gotY := d.gotY ||| 2 ^ i, marks := mk (mk d.marks (8 + m) ovr) (24 + m) link }

/-- One sample stored: in its slate, in a free slate, or lost when none of the 4 096 is free (R65, R70 step 4). -/
def storeSample (q : Pol) (t : Int) (v : BitVec 16) (ovr link : Bool) (x : SinSt) : SinSt :=
  if x.lost.contains t then x
  else
    match slateOf x t with
    | some d => { x with slates := x.slates.map (fun e => if e.start == d.start then d.put q t v ovr link else e) }
    | none =>
      if x.slates.length < 4096 then { x with slates := insertBy (·.start) ((newSlate (slateStart t)).put q t v ovr link) x.slates }
      else { x with lost := x.lost ++ [t] }

/-- The sample bits of a container; every bit below them 0 (R59). -/
def sampleBits (res : Nat) (v : BitVec 16) : BitVec 16 := BitVec.ofNat 16 (v.toNat / 2 ^ (16 - res) * 2 ^ (16 - res))

/-- Whether a container is over range (R67). -/
def overRange (src res : Nat) (cs : Bool) (v : BitVec 16) : Bool :=
  let x := (sampleBits res v).toInt
  let code := x ≥ (p2 (res - 1) - 1) * p2 (16 - res) || x ≤ -(p2 (res - 1)) * p2 (16 - res)
  let bit := cs && v.toNat.testBit (15 - res)
  ((src == 1 || src == 3) && code) || ((src == 2 || src == 3) && bit)

/-- The samples of an extended multiblock stored where a capture span holds them; without data, as marked positions (R60, R62, R64, R67). -/
def storeBlock (p : Port) (q : Pol) (first : Int) (containers : List (BitVec 16)) (deliver : Bool) (s : State) : State :=
  let o := clrOff p
  let res := regF s o 8 4
  let src := regF s o 17 16
  let cs := bitOf (reg s o) 12
  let al := (convOf s p q).alignedAt
  let spans := openSpans (s.sin.port p)
  let n := (lemcPeriod s p).toNat
  mapSin p (fun x =>
    (List.range n).foldl (fun x i =>
      let t := first + (i : Nat)
      let v := nth 0 containers i
      if inSpans spans t then
        storeSample q t (if deliver then sampleBits res v else 0) (deliver && overRange src res cs v) (!deliver || t < al) x
      else x) x) s

/-- The line samples that were handed over and now hold a lost instant in their span carry OVERRUN from here on, and are counted (R70, step 4). -/
def lateOverrun (p : Port) (s : State) : State :=
  let x := s.sin.port p
  let hit := fun (l : LineS) => !l.overrun && !l.missed && l.shot.lit.isSome && x.lost.any (fun t => inSpans [spanFrom l.shot 0] t)
  match x.lines.filter hit with
  | [] => s
  | l :: r =>
    bumpBy (0x2C00 + 0x100 * p.num + 28) (l :: r).length
      (mapSin p (fun x => { x with lines := x.lines.map (fun l => if hit l then { l with overrun := true } else l),
                                   overFirst := some (x.overFirst.getD l.shot.n), overCount := x.overCount + (l :: r).length }) s)

/-- The window check of an extended multiblock at its release (R60, R62): every lane's final pilot after t_lemc(k + rbd − 1) and no later than
t_lemc(k + rbd); one that is not there is outside it, one with a missing pilot is not judged while ALIGNED. -/
def releaseState (p : Port) (q : Pol) (due : Int) (e : Option Emb) (s : State) : State :=
  let per := lemcPeriod s p
  let inside := e.any (fun e => e.ats.all (fun t => decide (due - per < t) && decide (t ≤ due)))
  let pilots := e.all (·.pilots)
  let c := convOf s p q
  if c.st = 2 then
    if !(inside && pilots) then mapConv p q (fun c => { c with inWindow := 0 }) s
    else if c.inWindow ≥ 3 then
      note evLinkAligned p.dom 1 (w32 (convNum p q)) 0 0
        (convNoted p true (mapConv p q (fun c => { c with st := 3, inWindow := 4, missRun := [], alignedAt := s.now }) s))
    else mapConv p q (fun c => { c with inWindow := c.inWindow + 1 }) s
  else if c.st = 3 && pilots && !inside then convDown p q 2 s
  else s

/-- The CRC-12 outcome that comes with an extended multiblock for the one before it: its failures are counted, and over the limit of the round the
converter is retired (R63, R68); without it, or out of turn, the outcome never arrives. -/
def releaseCrc (p : Port) (q : Pol) (k : Int) (e : Option Emb) (s : State) : State :=
  match (convOf s p q).await, e with
  | none, _ => s
  | some _, none => settleCrc p q false s
  | some a, some e =>
    if a.1 + 1 != k then settleCrc p q false s
    else if e.crcFails = 0 then settleCrc p q true s
    else
      let s := bumpBy (0x1C00 + 0x100 * p.num + 4 * polNum q) e.crcFails
        (mapConv p q (fun c => { c with crcRound := c.crcRound + e.crcFails }) (settleCrc p q false s))
      if (convOf s p q).crcRound > regF s 0x1800 7 0 then convRetire p q 0 s else s

/-- EXTENDED_MULTIBLOCK_RELEASE: the extended multiblock of boundary k leaves the release buffer at t_lemc(k + rbd), and its CRC-12 outcome is still to
come (R62 to R67). -/
def execExtendedMultiblockRelease (m : MultiblockRelease) (s : State) : Host.Outcome State Fault Refusal :=
  let s := atTime m.t s
  let c := convOf s m.port m.pol
  match (s.clr.port m.port).grid with
  | none => settle s
  | some g =>
    let per := lemcPeriod s m.port
    let due := g + (m.k + (regF s (clrOff m.port) 27 24 : Nat)) * per
    if !active s m.port.dom || s.now != due || (c.st != 2 && c.st != 3) then settle s
    else
      let e := c.buf.find? (fun e => e.k == m.k)
      let was := c.st
      let tconv := signed (match m.pol with | .x => regF s (clrOff m.port + 4) 12 0 | .y => regF s (clrOff m.port + 4) 28 16) 13
      let s := mapConv m.port m.pol (fun c => { c with buf := c.buf.filter (fun e => decide (m.k < e.k)) }) s
      let s := releaseState m.port m.pol due e (releaseCrc m.port m.pol m.k e s)
      let deliver := was == 3 && (convOf s m.port m.pol).st == 3 && e.isSome
      let first := g + m.k * per + tconv
      let before := s.sin.port m.port
      let s := storeBlock m.port m.pol first ((e.map (·.containers)).getD []) deliver s
      let s := if deliver then mapConv m.port m.pol (fun c => { c with await := some (m.k, first, first + per - 1) }) s else s
      settle (lateOverrun m.port (countMarks m.port before (s.sin.port m.port) s))

/-! ## Reading the mailbag (R66) -/

/-- Whether an instant of one converter is stored. -/
def gotSample (x : SinSt) (q : Pol) (t : Int) : Bool :=
  match slateOf x t with
  | some d => (match q with | .x => d.gotX | .y => d.gotY).testBit (t - d.start).toNat
  | none => false

/-- Whether an instant is readable: for each converter released with its CRC-12 outcome known, or known to carry no data of it (R60, R66). -/
def readable (s : State) (p : Port) (t : Int) : Bool :=
  let x := s.sin.port p
  let one := fun (q : Pol) =>
    (gotSample x q t && !((convOf s p q).await.any (fun a => decide (a.2.1 ≤ t) && decide (t ≤ a.2.2)))) || ((convOf s p q).st != 3 && t ≤ s.now) || ((convOf s p q).st == 3 && t < (convOf s p q).alignedAt)
  x.lost.contains t || (one .x && one .y)

/-- Whether every instant from lo to hi is readable. -/
def allReadable (s : State) (p : Port) (lo hi : Int) : Bool :=
  (List.range (hi - lo + 1).toNat).all (fun i => readable s p (lo + (i : Nat)))

/-- The span of a 64-bin block of a shot (R68). -/
def blockSpan (x : Shot) (block : Nat) : Int × Int :=
  let o := x.t + (x.plan.toff : Nat) + 20 * (x.plan.b0 : Nat) + 1280 * (block : Nat)
  (o, o + 20 * 63 + 199)

/-- Whether a line sample is ready: dark, or its first block readable (R68). -/
def lineReady (s : State) (p : Port) (q : Shot) : Bool :=
  q.lit.isNone || allReadable s p (blockSpan q 0).1 (blockSpan q 0).2

/-- The fill F: data slates with a readable instant that a ready or handed-over line sample has still to read (R66). -/
def fillOf (s : State) (p : Port) : Nat :=
  let x := s.sin.port p
  let spans := ((x.queue.filter (fun q => q.lit.isSome && lineReady s p q)).map (fun q => spanFrom q 0))
    ++ (x.lines.filter (fun l => l.shot.lit.isSome && !l.missed)).map (fun l => spanFrom l.shot l.block)
  (x.slates.filter (fun d => (List.range 64).any (fun i =>
    let t : Int := d.start + (i : Nat)
    inSpans spans t && readable s p t))).length

/-- The slates and lost instants that some line sample still needs (R66). -/
def freeSlates (x : SinSt) : SinSt :=
  let spans := openSpans x
  { x with slates := x.slates.filter (fun d => spans.any (fun e => decide (e.1 ≤ d.start + 63 ∧ d.start ≤ e.2))),
           lost := x.lost.filter (inSpans spans) }

/-! ## Handover and shedding (R68 to R72) -/

/-- Whether a shedding step is in force after F is sampled (R70). -/
def stepForce (was : Bool) (f mark hyst : Nat) : Bool := if f ≥ mark then true else if f + hyst ≤ mark then false else was

/-- F sampled and the steps in force, cumulative (R70). -/
def sampleSteps (p : Port) (s : State) : State :=
  let o := 0x2000 + 0x400 * p.num
  let f := fillOf s p
  let hy := regF s (o + 4) 26 16
  let x := s.sin.port p
  let s3 := stepForce x.step3 f (regF s (o + 4) 11 0) hy
  let s2 := s3 || stepForce x.step2 f (regF s o 27 16) hy
  let s1 := s2 || stepForce x.step1 f (regF s o 11 0) hy
  let s := bumpMax (0x2C30 + 0x100 * p.num) f (mapSin p (fun x => { x with fill := f, step1 := s1, step2 := s2, step3 := s3 }) s)
  let s := if f > regF s o 11 0 - hy then markBusy p.dom s else s
  { s with bsc := { s.bsc with pace := s.bsc.pace.setPort p (if s1 then (if x.step1 then s.bsc.pace.port p else true) else false) } }

/-- Whether a shot's span holds a lost instant (R70, step 4). -/
def spanLost (x : SinSt) (q : Shot) : Bool := q.lit.isSome && x.lost.any (fun t => inSpans [spanFrom q 0] t)

/-- One line sample handed over, dropped or with its data (R68, R70, R72). -/
def handOver (p : Port) (q : Shot) (drop : Bool) (s : State) : State :=
  let x := s.sin.port p
  let missed := drop && q.lit.isSome
  let nOver := spanLost x q
  let l : LineS := { shot := q, missed := missed, prevMissed := q.lit.isSome && nth false x.lastMissed q.group, overrun := nOver,
                     bulk := x.step2, noStream := x.step1, block := 0 }
  let s := mapSin p (fun x =>
    { x with queue := x.queue.drop 1, lines := x.lines ++ [l], lastMissed := setNth x.lastMissed q.group missed,
             missFirst := if missed && x.missFirst.isNone then some q.n else x.missFirst,
             missCount := if missed then x.missCount + 1 else x.missCount,
             overFirst := if nOver && x.overFirst.isNone then some q.n else x.overFirst,
             overCount := if nOver then x.overCount + 1 else x.overCount }) s
  let b := 0x2C00 + 0x100 * p.num
  let step := if nOver then 4 else if x.step3 then 3 else if x.step2 then 2 else if x.step1 then 1 else 0
  let s := bump (b + 4 * step) s
  let s := if q.dark || q.lit.isNone then bump (b + 20) s else s
  let s := if missed then bump (b + 24) s else s
  let s := if nOver then bump (b + 28) s else s
  mapSin p freeSlates s

/-- Whether SIN holds a credit of the SCH (R19; log entry 137). -/
def schCredit (s : State) (p : Port) : Bool := decide ((s.sin.port p).lines.length < 256 + Config.moreBuffers 0)

/-- LINE_SAMPLE_HANDOVER: F is sampled, the steps apply, under step 3 the oldest ready line sample is dropped and the next handed over,
with F sampled for each (R68, R70); without a credit of the SCH SIN waits (R19). -/
def execLineSampleHandover (t : Int) (port : Port) (s : State) : Host.Outcome State Fault Refusal :=
  let s := atTime t s
  match (s.sin.port port).queue with
  | [] => settle s
  | q :: r =>
    if !active s port.dom || !lineReady s port q || !schCredit s port then settle s
    else
      let s := sampleSteps port s
      if (s.sin.port port).step3 then
        let s := handOver port q true s
        match r with
        | q2 :: _ => if lineReady s port q2 then settle (handOver port q2 false (sampleSteps port s)) else settle s
        | [] => settle s
      else settle (handOver port q false s)

end Sys2Proof.Machine
end

