-- ==== Sys2Proof/Machine/Rom.lean ====
section
/-!
DEFINITION. Machine/Rom.lean: the channeliser ROM and the resampler ROM (R77, R106): the spec gives what their words meet and not the words, so that each
is opaque within what the rule states of it.
-/
namespace Sys2Proof.Machine

/-- 2^60 · cos(2π·m/25), rounded to an integer, m = 0 to 24. No product of one with an int16 lies nearer to a half-integer than 9·10⁻⁷, far above the
rounding error, so that `rne` of the product rounds the exact one (R77). -/
def cos25 : List Int :=
  [1152921504606846976, 1116700355465277490, 1010312816053202052, 840443606737881822, 617766234675849300, 356272338103849953,
   72392540250781587, -216035947147382562, -490890101461640948, -734899825333558743, -932733090407273441, -1071959305058349633,
   -1143830374182060364, -1143830374182060364, -1071959305058349633, -932733090407273441, -734899825333558743, -490890101461640948,
   -216035947147382562, 72392540250781587, 356272338103849953, 617766234675849300, 840443606737881822, 1010312816053202052,
   1116700355465277490]

/-- 2^60 · sin(2π·m/25), rounded to an integer, m = 0 to 24. -/
def sin25 : List Int :=
  [0, 286719918890611384, 555424170795226184, 789229079341566404, 973443822251361028, 1096493509733154735, 1150646477377371907,
   1132500095066242898, 1043194566738101703, 888341287180563686, 677670257458753271, 424418713163941422, 144499380218199025,
   -144499380218199025, -424418713163941422, -677670257458753271, -888341287180563686, -1043194566738101703, -1132500095066242898,
   -1150646477377371907, -1096493509733154735, -973443822251361028, -789229079341566404, -555424170795226184, -286719918890611384]

/-- The in-phase coefficient of slot k, on branch k + 3 at an IF of 40·(k + 3) MHz (R36), at instant i from a prototype:
h[i]·cos(2π·(k + 3)·i/25) rounded (R77). -/
def mixI (h : Nat → BitVec 16) (k i : Nat) : Int := rne ((h i).toInt * cos25.getD ((k + 3) * i % 25) 0) 60

/-- The quadrature coefficient of slot k at instant i: −h[i]·sin(2π·(k + 3)·i/25) rounded (R36, R77). -/
def mixQ (h : Nat → BitVec 16) (k i : Nat) : Int := rne (-(h i).toInt * sin25.getD ((k + 3) * i % 25) 0) 60

/-- The sum of a function over the first n numbers. -/
def sumTo (n : Nat) (f : Nat → Int) : Int := (List.range n).foldl (fun a i => a + f i) 0

/-- What R77 states of the prototype: symmetric, of sum 65 536, and for every slot Σ|ci| and Σ|cq| at most 65 535. -/
def protoOk (h : Nat → BitVec 16) : Bool :=
  (List.range 100).all (fun i => h i == h (199 - i)) && sumTo 200 (fun i => (h i).toInt) == 65536
    && (List.range 8).all (fun k => decide (sumTo 200 (fun i => ((mixI h k i).natAbs : Int)) ≤ 65535)
        && decide (sumTo 200 (fun i => ((mixQ h k i).natAbs : Int)) ≤ 65535))

/-- A prototype that meets R77's conditions: it stands only where the opaque one does not (log entry 125). -/
def plainProto (i : Nat) : BitVec 16 := if i < 68 || (132 ≤ i && i < 200) then 328 else 327

/-- The prototype h[i] (R77): any that meets its conditions. -/
def schH (i : Nat) : BitVec 16 := if protoOk Config.schProto then Config.schProto i else plainProto i

/-- ci[k][i] (R76, R77). -/
def schCi (k i : Nat) : BitVec 16 := BitVec.ofInt 16 (mixI schH k i)

/-- cq[k][i] (R76, R77). -/
def schCq (k i : Nat) : BitVec 16 := BitVec.ofInt 16 (mixQ schH k i)

/-- The coefficients of resampler phase idx sum to 32 768 (R106). -/
def phaseOk (idx : Nat) : Bool := sumTo 8 (fun m => (Config.hrWord idx m).toInt) == 32768

/-- hr[idx][m] in Q1.15 (R106): hr[0] is 32 768 at m = 3 and 0 elsewhere; every other phase any whose coefficients sum to 32 768 (where the opaque words do
not, two equal ones; log entry 125). -/
def hrCoef (idx m : Nat) : Int :=
  if idx = 0 then (if m = 3 then 32768 else 0)
  else if phaseOk idx then (Config.hrWord idx m).toInt
  else if m = 3 || m = 4 then 16384 else 0

end Sys2Proof.Machine
end

