-- ==== Sys2Proof/Machine/Channel.lean ====
section
/-!
DEFINITION. Machine/Channel.lean: the slot channeliser and the phase extractor (04_channeliser_phase.md).
-/
namespace Sys2Proof.Machine

/-! ## Marks of tokens (R88, R122), as bit numbers of a mark set -/

/-- HOLE (R99). -/
def mkHole : Nat := 0
/-- UNSETTLED (R118). -/
def mkUnset : Nat := 1
/-- SAT (R103). -/
def mkSat : Nat := 2
/-- BANK_STEP (R114). -/
def mkBank : Nat := 3
/-- MINPHASE (R113). -/
def mkMinp : Nat := 4
/-- SLEW (R89). -/
def mkSlew : Nat := 5
/-- COMBO_STEP (R88). -/
def mkCombo : Nat := 6
/-- PLAN_STEP (R54). -/
def mkPlan : Nat := 7
/-- FADED (R86). -/
def mkFaded : Nat := 8
/-- DARK (R54). -/
def mkDark : Nat := 9
/-- OVR_X (R81); OVR_Y, LINK_X and LINK_Y are the next three. -/
def mkOvrX : Nat := 10
/-- MISSED (R70). -/
def mkMissed : Nat := 14
/-- PREV_MISSED (R70). -/
def mkPrev : Nat := 15
/-- OVERRUN (R70). -/
def mkOver : Nat := 16
/-- SHED_BULK (R70). -/
def mkShed : Nat := 17

/-- A mark set with one more mark. -/
def mark (m i : Nat) (on : Bool) : Nat := if on then m ||| 2 ^ i else m

/-- Whether a mark is set. -/
def has (m i : Nat) : Bool := m.testBit i

/-! ## Samples (R65 to R67, R75, R81) -/

/-- Whether an instant carries LINK for a converter: lost, never delivered, or in a marked group (R67, R70). -/
def linkAt (x : SinSt) (q : Pol) (t : Int) : Bool :=
  x.lost.contains t || !gotSample x q t
    || (match slateOf x t with
        | some d => bitOf d.marks ((match q with | .x => 16 | .y => 24) + (t - d.start).toNat / 8)
        | none => true)

/-- Whether an instant's 8-instant group carries OVR for a converter (R65). -/
def ovrAt (x : SinSt) (q : Pol) (t : Int) : Bool :=
  match slateOf x t with
  | some d => bitOf d.marks ((match q with | .x => 0 | .y => 8) + (t - d.start).toNat / 8)
  | none => false

/-- The 12-bit sample of an instant (R75). -/
def sampleAt (x : SinSt) (q : Pol) (t : Int) : Int :=
  if linkAt x q t then 0
  else
    match slateOf x t with
    | some d => sat (rne (nth 0 (match q with | .x => d.x | .y => d.y) (t - d.start).toNat).toInt 4) 12
    | none => 0

/-- The bin marks over the 200 instants from an instant on (R81). -/
def binMarks (x : SinSt) (t : Int) : Nat :=
  let any := fun (f : Int → Bool) => (List.range 200).any (fun i => f (t + (i : Nat)))
  b2n (any (ovrAt x .x)) + 2 * b2n (any (ovrAt x .y)) + 4 * b2n (any (linkAt x .x)) + 8 * b2n (any (linkAt x .y))

/-! ## The filter bank and its normalisation (R76 to R80) -/

/-- One accumulator over 200 instants (R76). -/
def bankSum (x : SinSt) (q : Pol) (t : Int) (coef : Nat → BitVec 16) : Int :=
  (List.range 200).foldl (fun a i => a + sampleAt x q (t + (i : Nat)) * (coef i).toInt) 0

/-- The slot and polarisation of term t of a group (R82). -/
def termSlot (q : Plan) (j t : Nat) : Nat := q.slotBase + j * q.div + t / 2

/-- The accumulators of a bin, for every term (R76). -/
def binAcc (x : SinSt) (sh : Shot) (b : Nat) : List (Int × Int) :=
  let tb := sh.t + (sh.plan.toff : Nat) + 20 * (b : Nat)
  (List.range (2 * sh.plan.div)).map (fun t =>
    let k := termSlot sh.plan sh.group t
    let p := if t % 2 = 0 then Pol.x else .y
    (bankSum x p tb (schCi k), bankSum x p tb (schCq k)))

/-- The block exponent over the accumulators of a block (R79). -/
def blockExp (l : List (Int × Int)) : Nat :=
  12 - l.foldl (fun k a => min k (min (lead a.1 28) (lead a.2 28))) 27

/-- The computed bins of a block with their mantissas and marks (R79 to R81). -/
def blockBins (x : SinSt) (sh : Shot) (bs : List Nat) : List BinM :=
  let acc := bs.map (fun b => (b, binAcc x sh b))
  let es := (List.range (2 * sh.plan.div)).map (fun t => blockExp (acc.map (fun e => nth ((0 : Int), (0 : Int)) e.2 t)))
  acc.map (fun e =>
    { b := e.1, ai := (List.range (2 * sh.plan.div)).map (fun t => sat16 (rne (nth ((0 : Int), (0 : Int)) e.2 t).1 (nth 0 es t))),
      aq := (List.range (2 * sh.plan.div)).map (fun t => sat16 (rne (nth ((0 : Int), (0 : Int)) e.2 t).2 (nth 0 es t))), e := es,
      marks := binMarks x (sh.t + (sh.plan.toff : Nat) + 20 * (e.1 : Nat)) })

/-- The bins of block k that a line sample computes: all of the window, or the head-bearing ones under step 2 (R80). -/
def computedBins (q : Plan) (bulk : Bool) (hb : List Nat) (k : Nat) : List Nat :=
  (span (q.b0 + 64 * k) 64).filter (fun b => !bulk || hb.contains b)

/-! ## Product, angle, quality (R82 to R86) -/

/-- The terms included for a pair of bins: those whose polarisation carries neither OVR nor LINK on either (R82). -/
def termIn (marks t : Nat) : Bool := !(has marks (t % 2)) && !(has marks (2 + t % 2))

/-- The term set as a number (R82). -/
def termSet (marks n : Nat) : Nat := (List.range n).foldl (fun a t => if termIn marks t then a + 2 ^ t else a) 0

/-- The combined product of a pair of bins: si, sq, emax (R83). -/
def product (a c : BinM) : Int × Int × Nat :=
  let ts := (List.range a.ai.length).filter (termIn (a.marks ||| c.marks))
  let et := fun t => nth 0 a.e t + nth 0 c.e t
  let emax := nmax (ts.map et)
  let pi := fun t => nth 0 a.ai t * nth 0 c.ai t + nth 0 a.aq t * nth 0 c.aq t
  let pq := fun t => nth 0 a.aq t * nth 0 c.ai t - nth 0 a.ai t * nth 0 c.aq t
  (isum (ts.map (fun t => rne (pi t) (emax - et t))), isum (ts.map (fun t => rne (pq t) (emax - et t))), emax)

/-- atan_tab: the integers nearest to 2^24 atan(2^-i) / 2π (R84). -/
def atanTab : List Int :=
  [2097152, 1238021, 654136, 332050, 166669, 83416, 41718, 20860, 10430, 5215, 2608, 1304, 652, 326, 163, 81, 41, 20]

/-- The CORDIC steps from step i on: x, y, a (R84). -/
def cordicSteps : List Int → Nat → Int × Int × Int → Int × Int × Int
  | [], _, v => v
  | at_ :: r, i, (x, y, a) =>
    let xs := x / p2 i
    let ys := y / p2 i
    cordicSteps r (i + 1) (if y ≥ 0 then (x + ys, y - xs, a + at_) else (x - ys, y + xs, a - at_))

/-- The CORDIC: the angle in 2^-24 turn, and x after step 17 (R84). -/
def cordic (x y : Int) : Int × Int :=
  let v := if x < 0 then (-x, -y, p2 23) else (x, y, 0)
  let r := cordicSteps atanTab 0 v
  (wrap r.2.2 24, r.1)

/-- The combined product normalised: xi, yi, n (R84). -/
def normalise (si sq : Int) : Int × Int × Int :=
  let n : Int := 16 - ((min (lead si 40) (lead sq 40) : Nat) : Int)
  if n > 0 then (sat (rne si n.toNat) 24, sat (rne sq n.toNat) 24, n) else (si * p2 (-n).toNat, sq * p2 (-n).toNat, n)

/-- The quality byte (R85). -/
def quality (x : Int) (etot : Int) : Nat :=
  let l := Nat.log2 x.toNat
  let f : Int := x / p2 (l - 3) % 8
  (satu (8 * ((l : Int) + etot) + f - 160) 8).toNat

/-- The angle and quality of a combined product that is not 0 (R84, R85). -/
def angleOf (si sq : Int) (emax : Nat) : Int × Nat :=
  let v := normalise si sq
  let r := cordic v.1 v.2.1
  (wrap (rne r.1 8) 16, quality r.2 ((emax : Int) + v.2.2))

/-! ## Increments (R87 to R90) -/

/-- The marks a line sample gives its tokens (R16, R88). -/
def lineMarks (l : LineS) : Nat :=
  let m := mark (mark 0 mkDark (l.shot.dark || l.shot.lit.isNone)) mkMissed l.missed
  mark (mark (mark (mark m mkPrev l.prevMissed) mkPlan l.shot.step) mkShed l.bulk) mkOver l.overrun

/-- The thresholds that a line sample is judged by (R86, R89). -/
structure PhxCfg where
  qmin : Nat
  slew : Nat
deriving DecidableEq, Repr

/-- The thresholds of the line sample in progress: a write acts from the next one (table "Channeliser and phase parameters"). -/
def phxCfg (x : PhxSt) : PhxCfg := { qmin := x.qmin, slew := x.slew }

/-- The key of a reference: bin b, group j (R87). -/
def refKey (b j : Nat) : Nat := 8 * b + j

/-- An increment with no value and quality 0, its reference cleared; below QMIN it carries FADED as any other (R86 to R88; DEDUCED, log entry 134). -/
def incNone (cause : Nat) (b j marks : Nat) (x : PhxSt) : Inc × PhxSt :=
  ({ cause := cause, v := 0, q := 0, marks := mark marks mkFaded (decide (0 < x.qmin)), slow := none }, { x with refs := tput none (refKey b j) none x.refs })

/-- The increment of bin b from its product and its reference (R84, R87, R88). -/
def formInc (cfg : PhxCfg) (l : LineS) (a c : BinM) (x : PhxSt) : Inc × PhxSt :=
  let j := l.shot.group
  let both := a.marks ||| c.marks
  let lm := lineMarks l + 2 ^ mkOvrX * both
  let set := termSet both a.ai.length
  let p := product a c
  if set = 0 || (p.1 = 0 && p.2.1 = 0) then incNone 3 a.b j lm x
  else
    let th := angleOf p.1 p.2.1 p.2.2
    let m := mark lm mkFaded (th.2 < cfg.qmin)
    let key := refKey a.b j
    let x' := { x with refs := tput none key (some { theta := th.1, set := set, line := l.shot.n }) x.refs }
    match tget none key x.refs with
    | some r =>
      if r.line = l.shot.n - (l.shot.plan.groups : Nat) then
        let v := wrap (th.1 - r.theta) 16
        let m := mark (mark m mkCombo (set != r.set)) mkSlew (decide (v ≥ (cfg.slew : Nat) ∨ v ≤ -((cfg.slew : Nat) : Int)))
        ({ cause := 0, v := v, q := th.2, marks := m, slow := none }, x')
      else ({ cause := 2, v := 0, q := th.2, marks := m, slow := none }, x')
    | none => ({ cause := 2, v := 0, q := th.2, marks := m, slow := none }, x')

/-- The slow phase of a bin after an increment of the slow group (R90). -/
def slowStep (fresh : Bool) (i : Inc) (o : SlowV) : SlowV :=
  if i.cause = 0 && !has i.marks mkCombo && !has i.marks mkPlan && !has i.marks mkSlew && !fresh then
    let v := o.phi + i.v
    if v > 2147483647 then { o with phi := v - 4294967296, w := wrap (o.w + 1) 16, gap := false, marks := i.marks }
    else if v < -2147483648 then { o with phi := v + 4294967296, w := wrap (o.w - 1) 16, gap := false, marks := i.marks }
    else { o with phi := v, gap := false, marks := i.marks }
  else { o with gaps := satAdd 8 o.gaps 1, gap := true, marks := i.marks }

/-- strain() of an increment in pε × 256 (R91). -/
def strain (inc : Int) (scale : Nat) : Int := sat (rne (inc * (scale : Nat)) 16) 32

/-- slow_strain() of a slow phase in pε × 256 (R91). -/
def slowStrain (o : SlowV) (scale : Nat) : Int := sat (rne ((o.w * 4294967296 + o.phi) * (scale : Nat)) 16) 64

/-- An increment with its slow output: a new one at a line sample of the slow group, the last one repeated with no GAP at another (R90). -/
def withSlow (l : LineS) (b : Nat) (e : Inc × PhxSt) : Inc × PhxSt :=
  if e.2.slowR == some l.shot.group then
    let o := slowStep e.2.slowFresh e.1 ((tget none b e.2.slow).getD { phi := 0, w := 0, gaps := 0, gap := false, marks := 0 })
    ({ e.1 with slow := some o }, { e.2 with slow := tput none b (some o) e.2.slow })
  else ({ e.1 with slow := (tget none b e.2.slow).map (fun o => { o with gap := false }) }, e.2)

/-- An increment entered among the line sample's. -/
def pushInc (l : LineS) (b : Nat) (e : Inc × PhxSt) : PhxSt :=
  let e := withSlow l b e
  { e.2 with incs := e.2.incs ++ [(b, e.1)] }

/-- The increment of one computed bin: EDGE in the last g bins, NO_SIGNAL where bin b + g is not computed, else from its product
(R82, R88). -/
def binInc (cfg : PhxCfg) (l : LineS) (all : List BinM) (a : BinM) (x : PhxSt) : PhxSt :=
  let q := l.shot.plan
  let m := lineMarks l + 2 ^ mkOvrX * a.marks
  if a.b + q.gauge ≥ q.b0 + q.nbins then pushInc l a.b (incNone 4 a.b l.shot.group m x)
  else
    match all.find? (fun c => c.b == a.b + q.gauge) with
    | some c => pushInc l a.b (formInc cfg l a c x)
    | none => pushInc l a.b (incNone 3 a.b l.shot.group m x)

/-- What the start of a line sample does to the phase extractor: it takes the thresholds; a new plan, a GAUGE_SET or another gauge clears references and
slow phase; the slow group follows its register at a line sample of group 0 (R87, R90, R92). -/
def phxBegin (s : State) (p : Port) (l : LineS) (x : PhxSt) : PhxSt :=
  let new := l.shot.n = 0 || l.shot.gset || x.gauge != some l.shot.plan.gauge
  let x := if new then { x with refs := [], slow := [] } else x
  let r := regF s (0x4010 + 0x400 * p.num) 2 0
  let x := { x with gauge := some l.shot.plan.gauge, part := [], incs := [], qmin := regF s (0x4008 + 0x400 * p.num) 7 0,
                    slew := regF s (0x400C + 0x400 * p.num) 14 0 }
  if l.shot.n % (l.shot.plan.groups : Nat) = 0 then
    { x with slowFresh := !new && x.slowR.isSome && x.slowR != some r, slowR := some r }
  else x

/-- The bins of a line sample that receive tokens: the whole window, or under step 2 the head-bearing ones (R80, R93). -/
def tokenBins (q : Plan) (bulk : Bool) (hb : List Nat) : List Nat :=
  (span q.b0 q.nbins).filter (fun b => !bulk || hb.contains b)

/-- A dark or MISSED line sample: INVALID with DARK_MISSED at every bin, in the last g bins too, where EDGE fits as well (R80, R88; DESIGN CHOICE, log
entry 135). -/
def darkLine (l : LineS) (hb : List Nat) (x : PhxSt) : PhxSt :=
  (tokenBins l.shot.plan l.bulk hb).foldl (fun x b => pushInc l b (incNone 1 b l.shot.group (lineMarks l) x)) x

/-- One block of a lit line sample through the channeliser and the phase extractor; bins wait in `part` for bin b + g (R79 to R87). -/
def litBlock (cfg : PhxCfg) (l : LineS) (bins : List BinM) (last : Bool) (x : PhxSt) : PhxSt :=
  let all := x.part ++ bins
  let top := l.shot.plan.b0 + 64 * (l.block + 1)
  let ready := all.filter (fun a => last || a.b + l.shot.plan.gauge < top)
  let x := ready.foldl (fun x a => binInc cfg l all a x) x
  { x with part := if last then [] else all.filter (fun a => !(a.b + l.shot.plan.gauge < top)) }

/-! ## Slate failures (R18, R67, R93) -/

/-- SLATE_FAIL recorded (R434). -/
def noteSlate (d : Dom) (blk : Nat) (f : SlateFail) (b : Option Nat) (s : State) : State :=
  note evSlateFail d blk (w32 f.phys) (w32 f.use) (match b with | some b => w32 b | none => 0xFFFFFFFF) s

/-- A failing mailbag slate: every instant concerned carries LINK for both converters (R67); of a mark slate no mark is delivered, so that its OVR bits are
not used (R18). -/
def slateLink (starts : List Int) (ofMarks : Bool) (x : SinSt) : SinSt :=
  { x with slates := x.slates.map (fun d =>
      if starts.contains d.start then { d with marks := if ofMarks then 0xFFFF0000 else d.marks ||| 0xFFFF0000 } else d) }

/-- A failing slate of references or slow phase: both restart at the bins it covers (R93). -/
def phxSlate (bins : List Nat) (x : PhxSt) : PhxSt :=
  { x with refs := x.refs.filter (fun e => !bins.contains (e.1 / 8)), slow := x.slow.filter (fun e => !bins.contains e.1) }

/-- A port's PHX changed. -/
def mapPhx (p : Port) (f : PhxSt → PhxSt) (s : State) : State := { s with phx := s.phx.setPort p (f (s.phx.port p)) }

/-- A slate failure met by the SCH or the PHX, recorded and counted (R18, R67, R93, R459). -/
def sliceFail (p : Port) (s : State) (f : SlateFail) : State :=
  let s := noteSlate p.dom (if f.use = 2 then 4 else 2) f f.bins.head? s
  if f.use ≤ 1 then mapSin p (slateLink f.starts (f.use == 1)) s
  else if f.use = 2 then bump (0x4C10 + 0x100 * p.num) (mapPhx p (phxSlate f.bins) s)
  else s

/-! ## Handing the line sample on -/

/-- The three chains' entry of an instance. -/
def fchOf (s : State) (i : Fch) : FchSt := match i with | .f0 => s.fch.f0 | .f1 => s.fch.f1 | .field => s.fch.fld

/-- A filter chain changed. -/
def mapFch (i : Fch) (f : FchSt → FchSt) (s : State) : State :=
  match i with
  | .f0 => { s with fch := { s.fch with f0 := f s.fch.f0 } }
  | .f1 => { s with fch := { s.fch with f1 := f s.fch.f1 } }
  | .field => { s with fch := { s.fch with fld := f s.fch.fld } }

/-- The token buffers of a link's consumer (R19; log entry 137). -/
def tokenBuffers (link : Nat) : Nat := 256 + Config.moreBuffers link

/-- Whether the PHX or the LHF holds a credit of its filter chain (R19). -/
def fchCredit (s : State) (i : Fch) : Bool := decide ((fchOf s i).buf.length < tokenBuffers 1)

/-- A line sample entered in the corner-turn (R95); `cur` whether it is of the plan in force (R114, R115). -/
def enterLine (i : Fch) (cur : Bool) (k : LineTok) (s : State) : State :=
  mapFch i (fun x => { x with buf := x.buf ++ [k], entered := if cur then some (k.n, k.t, k.lt) else x.entered }) s

/-- The increments at zone bins counted (R459, PHX). -/
def countIncs (p : Port) (incs : List (Nat × Inc)) (s : State) : State :=
  let zb := (portHeads s p.num).flatMap (fun e => zoneBins e.2)
  let zi := (incs.filter (fun e => zb.contains e.1)).map (·.2)
  let b := 0x4C00 + 0x100 * p.num
  bumpBy (b + 12) ((zi.filter (fun i => has i.marks mkSlew)).length)
    (bumpBy (b + 8) ((zi.filter (fun i => has i.marks mkFaded)).length)
      (bumpBy (b + 4) ((zi.filter (fun i => has i.marks mkCombo)).length)
        (bumpBy b ((zi.filter (fun i => i.cause != 0)).length) s)))

/-! ## Surveys (R216 to R218, R376) -/

/-- The level of a mantissa pair (R217). -/
def level (si sq : Int) (e : Nat) : Nat :=
  let a := fun (x : Int) => if x < 0 then -x else x
  let m := (max (a si) (a sq)).toNat
  if m = 0 then 0
  else
    let l := Nat.log2 m
    8 * (l + e) + (m * 8) / 2 ^ l % 8

/-- The survey of a port changed. -/
def mapSurvey (p : Port) (f : Survey → Survey) (s : State) : State :=
  { s with cal := { s.cal with survey := s.cal.survey.setPort p ((s.cal.survey.port p).map f) } }

/-- Whether a line index is missed by a survey: dark, MISSED, or under step 1 or 2 of the shedding order, which leave bulk work no pace (R216, R232,
R376). -/
def surveyGone (l : LineS) : Bool := l.missed || l.shot.lit.isNone || l.noStream || l.bulk

/-- A survey begins at the first line sample of group 0 after its acceptance; each lit line sample counts for its group's terms (R216, R217). -/
def surveyBegin (p : Port) (l : LineS) (s : State) : State :=
  mapSurvey p (fun v =>
    let v := if l.shot.n % (l.shot.plan.groups : Nat) = 0 then { v with begun := true } else v
    if !v.begun || v.bin || surveyGone l then v
    else
      { v with terms := (List.range (2 * l.shot.plan.div)).foldl (fun t i =>
          let k := 16 * l.shot.group + i
          let a := (tget none k t).getD { cnt := 0, sum := 0, ovr := 0, link := 0, seen := 0 }
          tput none k (some { a with seen := a.seen + 1 }) t) v.terms }) s

/-- One term of one bin entered in a survey (R217). -/
def termAdd (b : BinM) (t : Nat) (a : TermAcc) : TermAcc :=
  let o := has b.marks (t % 2)
  let k := has b.marks (2 + t % 2)
  if o || k then { a with ovr := a.ovr + b2n o, link := a.link + b2n k }
  else { a with cnt := a.cnt + 1, sum := a.sum + level (nth 0 b.ai t) (nth 0 b.aq t) (nth 0 b.e t) }

/-- A block's bins entered in a TERM survey (R217). -/
def surveyBlock (p : Port) (l : LineS) (bins : List BinM) (s : State) : State :=
  mapSurvey p (fun v =>
    if !v.begun || v.bin || surveyGone l then v
    else
      let mine := bins.filter (fun b => v.ba ≤ b.b && b.b < v.ba + v.nb)
      { v with terms := (List.range (2 * l.shot.plan.div)).foldl (fun tab i =>
          let k := 16 * l.shot.group + i
          let a := (tget none k tab).getD { cnt := 0, sum := 0, ovr := 0, link := 0, seen := 0 }
          tput none k (some (mine.foldl (fun a b => termAdd b i a) a)) tab) v.terms }) s

/-- The records of a TERM survey (R217). -/
def termRecords (q : Plan) (v : Survey) : List Word :=
  (List.range q.groups).flatMap (fun j => (List.range (2 * q.div)).flatMap (fun i =>
    let a := (tget none (16 * j + i) v.terms).getD { cnt := 0, sum := 0, ovr := 0, link := 0, seen := 0 }
    [w32 (268435456 * j + 16777216 * i + 65536 * termSlot q j i + 256 * (i % 2)), w32 a.cnt, lo32 a.sum, hi32 a.sum, w32 a.ovr, w32 a.link,
     w32i (rnd (256 * (a.sum : Nat)) (a.cnt : Nat)), w32 a.seen]))

/-- The records of a BIN survey (R218). -/
def binRecords (v : Survey) : List Word :=
  let acc := fun (b : Nat) => (tget none b v.bins).getD { q := 0, n := 0, faded := 0, inv := 0, seen := 0 }
  let one := fun (b : Nat) =>
    let a := acc b
    w32i (rnd (256 * (a.q : Nat)) (a.n : Nat) * 65536 + satu (rnd (256 * (a.faded : Nat)) (a.seen : Nat)) 8 * 256
      + satu (rnd (256 * (a.inv : Nat)) (a.seen : Nat)) 8)
  (span v.ba v.nb).map one ++ [w32 (acc v.ba).seen, w32 v.missed, 0, 0, 0, 0, 0, 0]

/-- A survey whose line indices have all passed: its results written, and its completion (R216, R376). -/
def surveyDone (p : Port) (q : Plan) (s : State) : State :=
  match s.cal.survey.port p with
  | none => s
  | some v =>
    if v.taken < v.lines then s
    else
      let ws := if v.bin then binRecords v else termRecords q v
      let s := { s with cal := { s.cal with survey := s.cal.survey.setPort p none } }
      finish v.id (if v.missed = 0 then stApplied else stDoneReduced) (w32 (4 * ws.length)) (w32 v.missed) (hostWrite v.buf (wordsBytes ws) s)

/-- A finished line sample in a survey: its increments in BIN mode; dark, MISSED and shed line samples are left out and counted (R216, R218). -/
def surveyLine (p : Port) (l : LineS) (incs : List (Nat × Inc)) (s : State) : State :=
  let s := mapSurvey p (fun v =>
    if !v.begun then v
    else
      let gone := surveyGone l
      let mine := if gone || !v.bin then [] else incs.filter (fun e => v.ba ≤ e.1 && e.1 < v.ba + v.nb)
      { v with taken := v.taken + 1, missed := v.missed + b2n gone,
               bins := mine.foldl (fun t e =>
                 let a := (tget none e.1 t).getD { q := 0, n := 0, faded := 0, inv := 0, seen := 0 }
                 let ok := e.2.cause = 0
                 tput none e.1 (some { q := a.q + (if ok then e.2.q else 0), n := a.n + b2n ok, faded := a.faded + b2n (has e.2.marks mkFaded),
                                       inv := a.inv + b2n (!ok), seen := a.seen + 1 }) t) v.bins }) s
  surveyDone p l.shot.plan s

/-- A line sample finished: its increments go to the filter chain and its slates are freed (R66, R87, R95). -/
def finishLine (p : Port) (l : LineS) (oldGauge : Option Nat) (s : State) : State :=
  let q := l.shot.plan
  let x := s.phx.port p
  let t0 := if l.shot.lt && s.net.joined then l.shot.t - s.net.offset else l.shot.t
  let k : LineTok := { n := l.shot.n, t := t0, lt := l.shot.lt, ts := (q.ts : Nat), delta := ((q.ts / q.groups : Nat) : Int),
                       toff := (q.toff : Nat), groups := q.groups, start := l.shot.n == 0,
                       gaugeNew := l.shot.n != 0 && (l.shot.gset || oldGauge != some q.gauge), scale := q.scale,
                       ofSlow := x.slowR == some l.shot.group, decim := q.decim, noStream := l.noStream, bins := x.incs, offs := [] }
  let s := surveyLine p l x.incs (enterLine (portFch p) (decide ((s.stg.port p).t0 ≤ l.shot.t)) k (countIncs p x.incs s))
  let s := mapPhx p (fun x => { x with part := [], incs := [], slowFresh := x.slowFresh && x.slowR != some l.shot.group }) s
  mapSin p (fun x => freeSlates { x with lines := x.lines.drop 1 }) s

/-- Whether block k of a line sample is readable, and for the last block its whole span (R68, R80). -/
def blockReady (s : State) (p : Port) (l : LineS) : Bool :=
  allReadable s p (blockSpan l.shot l.block).1 (blockSpan l.shot l.block).2

/-- The gauge of the line sample before, as `phxBegin` found it; kept while the line sample is in progress. -/
def lineGauge (x : PhxSt) (l : LineS) : Option Nat :=
  if l.block = 0 then x.gauge else x.gaugeWas

/-- CHANNELISER_BLOCK: the next block of the oldest line sample handed over (R80, R87). The phase extractor waits for a credit of the filter chain before
it sends a finished line sample on (R19). -/
def execChanneliserBlock (t : Int) (port : Port) (slateFails : List SlateFail) (s : State) : Host.Outcome State Fault Refusal :=
  let s := slateFails.foldl (sliceFail port) (atTime t s)
  match (s.sin.port port).lines with
  | [] => settle s
  | l :: _ =>
    let was := lineGauge (s.phx.port port) l
    let hb := if l.bulk then headBins s port l.shot.plan.gauge else []
    if !active s port.dom || !fchCredit s (portFch port) then settle s
    else if l.shot.lit.isNone || l.missed then
      let s := surveyBegin port l (mapPhx port (fun x => darkLine l hb (phxBegin s port l x)) s)
      settle (finishLine port l was s)
    else if !blockReady s port l then settle s
    else
      let s := if l.block = 0 then surveyBegin port l (mapPhx port (fun x => { phxBegin s port l x with gaugeWas := was }) s) else s
      let last := 64 * (l.block + 1) ≥ l.shot.plan.nbins
      let bins := blockBins (s.sin.port port) l.shot (computedBins l.shot.plan l.bulk hb l.block)
      let s := mapPhx port (fun x => litBlock (phxCfg x) l bins last x) (surveyBlock port l bins s)
      if last then settle (finishLine port l was s)
      else settle (mapSin port (fun x => freeSlates { x with lines := { l with block := l.block + 1 } :: x.lines.drop 1 }) s)

end Sys2Proof.Machine
end

