-- ==== Sys2Proof/Machine/Filter.lean ====
section
/-!
DEFINITION. Machine/Filter.lean: the filter chains (05_filter_chain.md) and the stream blocks they form (R340 to R349).
-/
namespace Sys2Proof.Machine

/-! ## Coefficient banks (R112 to R114) -/

/-- The first offset of an instance's registers. -/
def fchOff (i : Fch) : Nat := 0x5000 + 0x400 * i.num

/-- A coefficient bank (R112). -/
structure FBank where
  spike : Nat
  rankK : Nat
  taps : Nat
  coef : List Int
  gdDec : Nat
  bq : List (List Int)
  gdHb : Nat
  tail : Nat
  minp : Bool
deriving DecidableEq, Repr

/-- The bank words of an instance, A or B ("Filter bank words", R454). -/
def fchBank (s : State) (i : Fch) (b : Bool) : FBank :=
  let o := fchOff i + (if b then 0x200 else 0x100)
  let w := fun (k : Nat) => reg s (o + 4 * k)
  { spike := fld (w 0) 2 0, rankK := fld (w 0) 6 4, taps := fld (w 0) 14 8,
    coef := (List.range 64).map (fun m =>
      signed (if m % 2 = 0 then fld (w (2 + m / 2)) 15 0 else fld (w (2 + m / 2)) 31 16) 16),
    gdDec := fld (w 1) 15 0,
    bq := (List.range 4).map (fun k => (List.range 5).map (fun j => signed (w (34 + 5 * k + j)).toNat 32)),
    gdHb := fld (w 1) 31 16, tail := fld (w 0) 31 24, minp := bitOf (w 0) 16 }

/-- The spike window W (R100). -/
def FBank.w (b : FBank) : Nat := match b.spike with | 0 => 1 | 1 => 3 | 2 => 5 | _ => 7

/-- The check of a bank at BANK_SWAP (R112, R113). -/
def FBank.ok (b : FBank) : Bool :=
  b.spike ≤ 4 && 1 ≤ b.rankK && b.rankK ≤ 7 && 1 ≤ b.taps && b.taps ≤ 64
    && (b.minp || ((List.range b.taps).all (fun m => nth 0 b.coef m == nth 0 b.coef (b.taps - 1 - m)) && b.gdDec == 128 * (b.taps - 1)))

/-- U and U' of R118. -/
def unsetSync (b : FBank) (m : Nat) : Nat := (max 0 (cdiv ((b.taps : Int) + (b.w : Nat) - 1 - (m : Nat)) (m : Nat))).toNat

/-- U' of R118. -/
def unsetSwap (b : FBank) (m : Nat) : Nat := (max 0 (cdiv (b.taps : Int) (m : Nat) - 1)).toNat

/-! ## One bin (R99 to R106) -/

/-- Marks that the spike stage carries from the selected input only (R101). -/
def spikeOwn : Nat := 0x3FE1

/-- Marks that the spike stage carries from any input of its window (R101). -/
def spikeAny : Nat := 0x3C002

/-- The union of mark sets. -/
def orMarks (l : List Samp) : Nat := l.foldl (fun m x => m ||| x.m) 0

/-- The newest of the inputs that hold the r-th smallest value (R100). -/
def rankSel (win : List Samp) (r : Nat) : Samp :=
  let v := nth 0 (sortBy id (win.map (·.v))) (r - 1)
  (win.find? (fun x => x.v == v)).getD { v := 0, q := 0, m := 0 }

/-- The spike stage's output (R100, R101). -/
def spikeOut (b : FBank) (win : List Samp) : Samp :=
  let w := win.take b.w
  let sel := rankSel w (if b.spike ≥ 4 then b.rankK else (b.w + 1) / 2)
  { sel with m := (sel.m &&& spikeOwn) ||| (orMarks w &&& spikeAny) }

/-- The substituted input of a bin (R99). -/
def substitute (held : Int) (e : Inc) : Samp :=
  if e.cause = 0 then { v := e.v, q := e.q, m := e.marks } else { v := held, q := 0, m := mark e.marks mkHole true }

/-- A bin that has seen nothing: it waits for a restart (R119). -/
def FBin.new : FBin :=
  { down := true, nR := none, last := none, held := 0, win := [], hist := [], bq := List.replicate 4 { x1 := 0, x2 := 0, y1 := 0, y2 := 0 },
    fresh := true, decM := [], ring := [], slow := none }

/-- A bin preloaded with its input (R116). -/
def FBin.preload (b : FBank) (n : Int) (e : Inc) (x : FBin) : FBin :=
  let held := if e.cause = 0 then e.v else 0
  let i := substitute held e
  let win := List.replicate 7 i
  { x with down := false, last := some n, held := held, win := win, hist := List.replicate 64 (spikeOut b win), fresh := true, decM := [] }

/-- A bin's token at a line index: sync, restart, or the ordinary stages (R99 to R101, R116, R119). Whether the bin restarted. -/
def binLine (b : FBank) (sync : Bool) (n : Int) (e : Inc) (x : FBin) : FBin × Bool :=
  let x := { x with slow := if e.slow.isSome then e.slow else x.slow }
  if sync then ({ FBin.preload b n e x with nR := none, ring := [] }, false)
  else if x.down || x.last != some (n - 1) then
    if e.cause = 0 then ({ FBin.preload b n e x with nR := some n }, true) else ({ x with down := true, last := some n }, false)
  else
    let i := substitute x.held e
    let win := (i :: x.win).take 7
    ({ x with last := some n, held := i.v, win := win, hist := (spikeOut b win :: x.hist).take 64 }, false)

/-- The decimator (R102, R103): the value, its marks and quality, and whether sat() altered it. -/
def decimate (b : FBank) (hist : List Samp) : Samp :=
  let h := hist.take b.taps
  let acc := (List.zip b.coef h).foldl (fun a e => a + e.1 * e.2.v) 0
  let d := sat (rne acc 7) 24
  { v := d, q := h.foldl (fun q x => min q x.q) 255, m := mark (orMarks h) mkSat (d != rne acc 7) }

/-- One biquad section: its output, whether sat() altered it, its state (R104, R116). -/
def biquad (c : List Int) (fresh : Bool) (x0 : Int) (s : Biq) : Int × Bool × Biq :=
  let s := if fresh then { x1 := x0, x2 := x0, y1 := 0, y2 := 0 } else s
  let acc := nth 0 c 0 * x0 + nth 0 c 1 * s.x1 + nth 0 c 2 * s.x2 - nth 0 c 3 * s.y1 - nth 0 c 4 * s.y2
  let y := sat (rne acc 30) 24
  (y, y != rne acc 30, { x1 := x0, x2 := s.x1, y1 := y, y2 := s.y1 })

/-- The four sections in series (R104). -/
def biquads (fresh : Bool) : List (List Int) → List Biq → Int → Bool → List Biq → Int × Bool × List Biq
  | c :: cs, s :: ss, x, hit, done =>
    let r := biquad c fresh x s
    biquads fresh cs ss r.1 (hit || r.2.1) (done ++ [r.2.2])
  | _, _, x, hit, done => (x, hit, done)

/-- What a decimation point is under: its line and index, whether it is unsettled in the chain's counts, for the decimator and for the
head branch, and whether it is the first under a new bank (R114, R118). -/
structure DecCtx where
  n : Int
  k : Nat
  un : Bool
  unHead : Bool
  step : Bool
deriving DecidableEq, Repr

/-- Whether a restart leaves a decimator output unsettled (R118, R119). -/
def restartUnset (b : FBank) (n : Int) (x : FBin) : Bool :=
  x.nR.any (fun r => decide (n - (b.taps : Nat) + 1 < r + (b.w : Nat) - 1))

/-- A bin's decimation point: the bin after it, its decimator output, its head-branch output where its bin has one (R102 to R105). A bin that enters a
head's zone while the chain runs starts its biquads with its first input when they have not run since the sync, and else keeps their state (DESIGN
CHOICE, log entry 140). -/
def binDec (b : FBank) (c : DecCtx) (head : Bool) (x : FBin) : FBin × Samp × Option Samp :=
  let d := decimate b x.hist
  let un := c.un || restartUnset b c.n x
  let dm := mark d.m mkUnset un
  let decM := (dm :: x.decM).take 256
  let x := { x with decM := decM, ring := ((c.k, { d with m := mark dm mkMinp b.minp }) :: x.ring).take 40 }
  let dOut : Samp := { d with m := mark (mark dm mkBank c.step) mkMinp b.minp }
  if head then
    let r := biquads x.fresh b.bq x.bq d.v false []
    let m := (decM.take (b.tail + 1)).foldl (· ||| ·) 0
    let m := mark (mark (mark (mark m mkSat r.2.1) mkUnset c.unHead) mkBank c.step) mkMinp b.minp
    ({ x with bq := r.2.2, fresh := false }, dOut, some { v := r.1, q := d.q, m := m })
  else (x, dOut, none)

/-! ## Streams (R340 to R346) -/

/-- A stream definition's fields (R340). -/
structure SDef where
  port : Nat
  source : Nat
  format : Nat
  first : Nat
  stride : Nat
  nsel : Nat
  div : Nat
deriving DecidableEq, Repr

/-- The fields of definition d (R457). -/
def sdef (s : State) (d : Nat) : SDef :=
  let o := 0xD400 + 16 * d
  { port := regF s o 1 1, source := regF s o 5 4, format := regF s o 15 8, first := regF s o 30 16, stride := regF s (o + 4) 15 0,
    nsel := regF s (o + 4) 30 16, div := regF s (o + 8) 15 0 }

/-- The running state of definition d. -/
def defOf (s : State) (d : Nat) : DefSt :=
  (tget none d s.hsc.defs).getD { en := false, restart := false, shed := false, lastLine := none }

/-- A definition's running state changed. -/
def mapDef (d : Nat) (f : DefSt → DefSt) (s : State) : State :=
  { s with hsc := { s.hsc with defs := tput none d (some (f (defOf s d))) s.hsc.defs } }

/-- The state of region k. -/
def regionOf (h : HscSt) (k : Nat) : RegionSt :=
  (tget none k h.regions).getD { en := false, hold := false, wptr := 0, wraps := 0, shed := 0, heldAt := 0, countdown := none,
                                 armed := true, blocks := [], fresh := false, gap := false, lastN := none }

/-- A region's state changed. -/
def mapRegion (k : Nat) (f : RegionSt → RegionSt) (s : State) : State :=
  { s with hsc := { s.hsc with regions := tput none k (some (f (regionOf s.hsc k))) s.hsc.regions } }

/-- The mark byte of a mark set (R344). -/
def markByte (m : Nat) : Nat :=
  let any := fun (l : List Nat) => b2n (l.any (has m))
  any [mkUnset] + 2 * any [mkHole] + 4 * any [mkDark, mkMissed, mkPrev, mkOver, mkShed] + 8 * any [10, 11, 12, 13]
    + 16 * any [mkCombo, mkPlan, mkBank] + 32 * any [mkSlew] + 64 * any [mkFaded] + 128 * any [mkSat]

/-- One value of a stream: its bytes and its mark byte. -/
structure SVal where
  bytes : List Byte
  mb : Nat
deriving DecidableEq, Repr

/-- A RESAMPLED value in its format (R343). -/
def resVal (format scale : Nat) (x : Samp) : SVal :=
  let m := markByte x.m
  if format = 2 then { bytes := wordBytes (w32i (sat (rne (x.v * (scale : Nat)) 24) 32)), mb := m }
  else { bytes := wordBytes (w32i (x.v * 256 + (m : Nat))), mb := m }

/-- A SLOW value in its format (R343, R344). -/
def slowVal (o : Option SlowV) : SVal :=
  let o := o.getD { phi := 0, w := 0, gaps := 0, gap := false, marks := 0 }
  let m := markByte (o.marks &&& 0x3FFF8 ||| b2n o.gap) % 128
  { bytes := wordBytes (w32i o.phi) ++ wordBytes (w32i (o.w * 65536 + (256 * o.gaps + m : Nat))), mb := m }

/-- What the header of a block says beside its values (R345). -/
structure BlkHead where
  d : Nat
  seg : Nat
  k : Nat
  align : Bool
  lt : Bool
  shed : Bool
  restart : Bool
  minp : Bool
  time : Int
  lines : Nat
deriving DecidableEq, Repr

/-- A block's bytes: header, values, padding to 256 bytes (R345). -/
def blockBytes (q : SDef) (h : BlkHead) (vals : List SVal) : List Byte :=
  let per := if q.format = 4 then 508 else 1016
  let body := vals.flatMap (·.bytes)
  let len := (32 + body.length + 255) / 256 * 256
  let rest := body ++ zeros (len - 32 - body.length)
  let mk := vals.foldl (fun m v => m ||| v.mb) 0
  let w2 := 65536 * vals.length + 32768 * b2n h.align + 16384 * b2n h.lt + 8192 * b2n h.shed + 4096 * b2n h.restart + 2048 * b2n h.minp
  let ws := [w32 (16777216 * q.format + 1048576 * h.d + 65536 * q.port + h.seg), w32 h.k, w32 w2,
    w32 (65536 * q.stride + (q.first + h.seg * per * q.stride) % 32768), lo32 h.time, hi32 h.time,
    w32 (256 * min h.lines 16777215 + mk)]
  wordsBytes (ws ++ [crc32c (wordsBytes ws ++ rest)]) ++ rest

/-- A block put to the STR rings that carry its definition (R348, R329). -/
def toStr (b : Block) (s : State) : State :=
  (List.range 8).foldl (fun s n =>
    if regF s (0xC110 + 4 * n) 3 0 = b.d && !(n = 7 && bitOf (reg s 0xC02C) 0) then
      { s with hsc := { s.hsc with strq := tput [] n (tget [] n s.hsc.strq ++ [b]) s.hsc.strq } }
    else s) s

/-- A block put to the region of its definition (R351). -/
def toHis (b : Block) (s : State) : State :=
  { s with hsc := { s.hsc with hisq := tput [] b.d (tget [] b.d s.hsc.hisq ++ [b]) s.hsc.hisq } }

/-- The line sample of the last block formed for a region and not shed by it (R353). -/
def regionLast (s : State) (d : Nat) : Option Int :=
  match (tget [] d s.hsc.hisq).getLast? with
  | some b => some b.n
  | none => (regionOf s.hsc d).lastN

/-- One segment's block formed for the rings and, with the region's own flags, for the history store, each where its consumer has a credit (R345, R349, R352, R353); `n` is the line
sample, `gap` the line samples between it and the region's last block. -/
def formBlock (q : SDef) (h : BlkHead) (n : Int) (gap : Nat) (hre hsc : Bool) (vals : List SVal) (s : State) : State :=
  let mk := fun (h : BlkHead) => ({ d := h.d, bytes := blockBytes q h vals, k := w32 h.k, time := h.time, lt := h.lt, n := n } : Block)
  let s := if hre then toStr (mk h) s else s
  let r := regionOf s.hsc h.d
  if !r.en || !hsc then s
  else if r.hold then mapRegion h.d (fun r => { r with shed := satAdd 32 r.shed 1, gap := true }) s
  else
    let shed := r.gap && h.seg == 0
    toHis (mk { h with restart := r.fresh, shed := shed, lines := if shed then gap else 0 }) s

/-- The rings' copy of an output instant shed: the next one carries SHED (R20, R349). -/
def shedStr (d : Nat) (n : Int) (s : State) : State :=
  mapDef d (fun x => { x with shed := true, lastLine := some (x.lastLine.getD (n - 1)) }) s

/-- The region's copy of an output instant shed (R20, R349). -/
def shedHis (d : Nat) (s : State) : State :=
  if (regionOf s.hsc d).en then mapRegion d (fun r => { r with gap := true }) s else s

/-- The next block of a definition, in each of its copies, carries RESTART (R345). -/
def flagDef (d : Nat) (s : State) : State :=
  let s := mapDef d (fun x => { x with restart := true }) s
  if (regionOf s.hsc d).en then mapRegion d (fun r => { r with fresh := true }) s else s

/-- The number of blocks that wait in a list of queues. -/
def queued (q : Tab (List Block)) : Nat := q.foldl (fun n e => n + e.2.length) 0

/-- Whether the HRE, and whether the HSC, has buffers for an output instant of so many segments (R19, R20). -/
def bulkCredit (s : State) (segs : Nat) : Bool × Bool :=
  (decide (queued s.hsc.strq + 8 * segs ≤ tokenBuffers 3), decide (queued s.hsc.hisq + segs ≤ tokenBuffers 4))

/-- An output instant of a definition: one block per segment, in rising order (R345, R349); the copy of a consumer without a credit is shed, and the
next one it receives carries SHED (R20). `n` is the line sample it came with. -/
def formBlocks (d k : Nat) (lt align minp : Bool) (n : Int) (time : Nat → Int) (vals : List SVal) (s : State) : State :=
  let q := sdef s d
  let x := defOf s d
  let per := if q.format = 4 then 508 else 1016
  let lines := fun (l : Option Int) => match l with | some l => (n - l).toNat | none => 0
  let gap := lines (regionLast s d)
  let segs := (vals.length + per - 1) / per
  let cr := bulkCredit s segs
  let s := (List.range segs).foldl (fun s seg =>
    let bin := q.first + seg * per * q.stride
    formBlock q { d := d, seg := seg, k := k, align := align, lt := lt, shed := x.shed && seg == 0, restart := x.restart, minp := minp,
                  time := time bin, lines := if seg = 0 && x.shed then lines x.lastLine else 0 }
      n gap cr.1 cr.2 ((vals.drop (seg * per)).take per) s) s
  let s := if cr.1 then mapDef d (fun x => { x with restart := false, shed := false, lastLine := some n }) s else shedStr d n s
  let r := regionOf s.hsc d
  if !r.en || r.hold then s else if cr.2 then mapRegion d (fun r => { r with fresh := false, gap := false }) s else shedHis d s

/-- An output instant of a definition withheld: no block is formed (R349). -/
def withhold (d : Nat) (n : Int) (s : State) : State :=
  markBusy (match (sdef s d).port with | 0 => .port0 | 1 => .port1 | _ => .field)
    (shedHis d (shedStr d n s))

/-- The definitions active on a port with a source (R340). -/
def activeDefs (s : State) (port source : Nat) : List Nat :=
  (List.range 16).filter (fun d => (defOf s d).en && (sdef s d).port == port && (sdef s d).source == source)

/-- The bins of a definition (R341). -/
def SDef.bins (q : SDef) : List Nat := (List.range q.nsel).map (fun i => q.first + i * q.stride)

/-! ## The resampler (R106 to R108) -/

/-- A decimated value of a bin by index: what lies before its history is open, and UNSETTLED; the same of a bin that is down and of the
gap that a down time leaves (R106, R116, R119; DESIGN CHOICE, log entry 20). -/
def ringAt (seed : Nat) (x : FBin) (k : Int) : Samp :=
  match x.ring.find? (fun e => (e.1 : Int) == k) with
  | some e => e.2
  | none => { v := signed (Config.freeValue seed).toNat 24, q := 0, m := 2 ^ mkUnset }

/-- A resampler output of a bin at base index (absolute) and phase (R106). -/
def resOut (seed : Nat) (x : FBin) (base : Int) (idx : Nat) : Samp :=
  let d := (List.range 8).map (fun m => ringAt (seed + m) x (base - 3 + (m : Nat)))
  let acc := (List.range 8).foldl (fun a m => a + hrCoef idx m * (nth { v := 0, q := 0, m := 0 } d m).v) 0
  let r := sat (rne acc 15) 24
  { v := r, q := d.foldl (fun q y => min q y.q) 255, m := mark (orMarks d) mkSat (r != rne acc 15) }

/-- A decimation point by index. -/
def decAt (x : FchSt) (k : Int) : Option DecLine := x.decs.find? (fun e => (e.k : Int) == k)

/-- The skew of a bin (R110, R121). -/
def skew (i : Fch) (toff : Int) (b : Nat) : Int := if i == .field then 0 else toff + 20 * (b : Nat) + 100

/-- One resampler output instant at output index kout for every definition due (R342, R343, R349): `at_` gives each bin's base and
phase, `time` its timestamp. A value in strain takes the scale in force at the line sample with which the output is formed (R91). -/
def resEmit (i : Fch) (tok : LineTok) (bank : FBank) (kout : Nat) (align lt : Bool)
    (at_ : Nat → Int × Nat) (time : Nat → Int) (s : State) : State :=
  let x := fchOf s i
  let due := (activeDefs s i.num 1).filter (fun d => (sdef s d).div != 0 && kout % (sdef s d).div == 0)
  let un := fun (b : Int) => decide (b + 4 ≥ (x.evK : Nat) ∧ b < ((x.evK + x.evU + 3 : Nat) : Int))
  let s := due.foldl (fun s d =>
    if tok.noStream || !active s .host then withhold d tok.n s
    else
      let q := sdef s d
      let outs := q.bins.zipIdx.map (fun e =>
        let a := at_ e.1
        let r := resOut (s.free + 8 * e.2) ((tget none e.1 x.bins).getD FBin.new) a.1 a.2
        { r with m := mark (mark (mark (r.m &&& 0x3FFF7) mkUnset (un a.1)) mkBank x.strStep) mkMinp bank.minp })
      let s := bumpBy (0x5C00 + 0x100 * i.num) ((outs.filter (fun r => has r.m mkSat)).length) { s with free := s.free + 8 * q.nsel }
      formBlocks d (kout % 4294967296) lt align bank.minp tok.n time (outs.map (resVal q.format tok.scale)) s) s
  mapFch i (fun x => { x with strStep := false }) s

/-- The base and phase after rounding the position (R107). -/
def resPos (i frac : Nat) : Nat × Nat :=
  let idx := (rne (frac : Int) 22).toNat
  if idx = 64 then (i + 1, 0) else (i, idx)

/-- Outputs without ALIGN that the decimated value kd allows (R107); `fuel` bounds them. Where output b is in local time and b + 1 in network time, the
timestamp is formed from the two values as they stand, with the LT flag of b (DESIGN CHOICE, log entry 138). -/
def resFree (i : Fch) (tok : LineTok) (bank : FBank) (u kd : Nat) : Nat → State → State
  | 0, s => s
  | f + 1, s =>
    let x := fchOf s i
    let p := resPos x.rsI x.rsFrac
    let base := x.rsBase + p.1
    if base + 4 > kd then s
    else
      match decAt x base, decAt x (base + 1) with
      | some a, some b =>
        let t := fun (bin : Nat) => a.tb + rnd ((p.2 : Int) * (b.tb - a.tb)) 64 + skew i tok.toff bin
        let s := resEmit i tok bank x.rsK false a.lt (fun _ => (base, p.2)) t s
        let v := x.rsFrac + u
        resFree i tok bank u kd f
          (mapFch i (fun x => { x with rsI := x.rsI + v / 268435456, rsFrac := v % 268435456, rsK := x.rsK + 1 }) s)
      | _, _ => s

/-- The base and phase of a bin for instant tk under ALIGN (R108). -/
def alignPos (x : FchSt) (sk tk : Int) : Option (Int × Nat) :=
  match (x.decs.filter (fun e => decide (e.tb + sk ≤ tk))).head? with
  | none => none
  | some a =>
    match decAt x (a.k + 1) with
    | none => none
    | some b =>
      let idx := rnd (64 * (tk - (a.tb + sk))) (b.tb - a.tb)
      some (if idx ≥ 64 then ((a.k : Int) + 1, 0) else ((a.k : Int), idx.toNat))

/-- Outputs under ALIGN that the decimated value kd allows (R108); `fuel` bounds them. -/
def resAlign (i : Fch) (tok : LineTok) (bank : FBank) (per kd : Nat) (b0 : Nat) : Nat → State → State
  | 0, s => s
  | f + 1, s =>
    let x := fchOf s i
    let tk : Int := x.rsK * per
    match alignPos x (skew i tok.toff b0) tk with
    | none => s
    | some p =>
      if p.1 + 4 > (kd : Nat) then s
      else
        let at_ := fun (bin : Nat) => (alignPos x (skew i tok.toff bin) tk).getD p
        let s := resEmit i tok bank x.rsK true tok.lt at_ (fun _ => tk) s
        resAlign i tok bank per kd b0 f (mapFch i (fun x => { x with rsK := x.rsK + 1 }) s)

/-- ALIGN of an instance. -/
def rsAlign (s : State) (i : Fch) : Bool := bitOf (reg s (fchOff i + 0x1C)) 0

/-- The resampler's start at decimated value kd (R107, R108, R120). -/
def resStart (i : Fch) (kd : Nat) (s : State) : State :=
  let s := (activeDefs s i.num 1).foldl (fun s d => flagDef d s) s
  mapFch i (fun x => { x with rsOn := true, rsDue := false, rsBase := kd, rsI := 0, rsFrac := 0, rsK := 0 }) s

/-- The resampler at decimated value kd (R107, R108). -/
def resample (i : Fch) (tok : LineTok) (bank : FBank) (kd : Nat) (bins : List Nat) (s : State) : State :=
  if i == .field then s
  else
    let align := rsAlign s i
    let x := fchOf s i
    let from_ := max (x.nY.getD 0) (tok.n - ((bank.taps + bank.w - 2 : Nat) : Int))
    let waits := align && x.flip.any (fun f => decide (from_ < f))
    let s := if waits then s else mapFch i (fun x => { x with flip := none }) s
    let s := if x.rsDue && !waits then resStart i kd s else s
    let x := fchOf s i
    if !x.rsOn then s
    else if align then
      let per := (reg s (fchOff i + 0x20)).toNat
      let s := if kd = x.rsBase + 3 then
          match decAt x kd with
          | some a => mapFch i (fun x => { x with rsK := (cdiv (a.tb + skew i tok.toff (nmax bins)) (max 1 per : Nat)).toNat }) s
          | none => s
        else s
      if kd ≥ x.rsBase + 3 then resAlign i tok bank per kd (bins.foldl min (bins.headD 0)) 64 s else s
    else resFree i tok bank (reg s (fchOff i + 0x18)).toNat kd 64 s

/-- The SLOW definitions due at decimation index k (R342, R346). -/
def slowEmit (i : Fch) (tok : LineTok) (bank : FBank) (k : Nat) (s : State) : State :=
  let x := fchOf s i
  let due := (activeDefs s i.num 2).filter (fun d => (sdef s d).div != 0 && k % (sdef s d).div == 0)
  due.foldl (fun s d =>
    if tok.noStream || !active s .host then withhold d tok.n s
    else
      let q := sdef s d
      let st := x.slowT.getD (tok.t, tok.lt)
      let vals := q.bins.map (fun b => slowVal (((tget none b x.bins).getD FBin.new).slow))
      formBlocks d (k % 4294967296) st.2 (rsAlign s i) bank.minp tok.n (fun b => st.1 + skew i tok.toff b - tok.ts / 2) vals s) s

/-! ## Syncs and bank swaps (R113 to R117) -/

/-- A FILTER_SYNC's part done: its status joins the others'; the last completes it, with n_y of the lowest named port where every one took it (R115,
R320, R322). -/
def fsyncPart (id inst st : Nat) (ny : Int) (s : State) : State :=
  match s.fsync.find? (fun f => f.id == id) with
  | none => s
  | some f =>
    let f := { f with left := f.left - 1, ny := if inst = f.low then ny else f.ny, st := if f.st = stApplied then st else f.st }
    let rest := s.fsync.filter (fun g => g.id != id)
    if f.left = 0 then (if f.st = stApplied then finish id f.st (lo32 f.ny) (hi32 f.ny) { s with fsync := rest } else finish id f.st 0 0 { s with fsync := rest }) else { s with fsync := rest ++ [f] }

/-- A pending sync cancelled (R115, R120). -/
def syncCancel (i : Fch) (r : SyncReq) (s : State) : State :=
  if r.src = 1 then fsyncPart r.id i.num stCancelled 0 s
  else if r.src = 2 then note evSyncCancelled i.dom (if i == .field then 3 else 5) (w32 i.num) 0 0 s
  else s

/-- Whether the device had joined at an instant of network time (R115). -/
def joinedAtT (s : State) (t : Int) : Bool := s.net.joined && s.net.joinAt ≤ t

/-- Whether a sync is due at a line sample: its instant is not after t_shot, both in the base the device is in; a network time is not reached before
the device has joined (R115, R293; DEDUCED, log entry 139). -/
def syncDue (s : State) (tok : LineTok) (r : SyncReq) : Bool :=
  if s.net.joined then decide (r.ty ≤ if tok.lt then tok.t + s.net.offset else tok.t) else r.lt && decide (r.ty ≤ tok.t)

/-- What a due sync brings: counted by source and completed, or cancelled where it names a time base that did not hold (R115). -/
def syncDone (i : Fch) (n : Int) (r : SyncReq) (s : State) : State :=
  let s := bump (0x5C10 + 0x100 * i.num + 4 * r.src) s
  if r.src = 1 then fsyncPart r.id i.num stApplied n s else s

/-- Restart flags of the definitions of an instance's port (R345, R358). -/
def flagRestart (i : Fch) (s : State) : State :=
  if i == .field then s
  else (activeDefs s i.num 1 ++ activeDefs s i.num 2).foldl (fun s d => flagDef d s) s

/-- The pending bank swap takes effect at line n (R114, R118). -/
def swapNow (i : Fch) (n : Int) (r : SwapReq) (s : State) : State :=
  let s := finish r.id stApplied (lo32 n) (hi32 n) s
  let bank := fchBank s i (!(fchOf s i).bankB)
  flagRestart i (mapFch i (fun x =>
    { x with bankB := !x.bankB, swap := none, evK := x.k, evU := unsetSwap bank x.m, evTail := bank.tail, bankStep := true, strStep := true }) s)

/-- A sync takes effect: the index of decimated outputs starts again, and the counts of R118 (R116). -/
def syncNow (i : Fch) (n : Int) (s : State) : State :=
  let bank := fchBank s i (fchOf s i).bankB
  flagRestart i (mapFch i (fun x =>
    { x with nY := some n, implicit := if x.implicit == some n then none else x.implicit, k := 0, evK := 0, evU := unsetSync bank x.m,
             evTail := bank.tail, decs := [], rsOn := false, rsDue := i != .field }) s)

/-- The end of a definition's output put behind its blocks on the way to the STR rings (R348). -/
def endOutput (d : Nat) (s : State) : State := toStr { d := d, bytes := [], k := 0, time := 0, lt := false, n := 0 } s

/-- A point without a sample for the HEN: the start of a plan or gauge (1), the end of a plan (2) (R144), which ends the output of the port's
definitions (R348). -/
def zonePoint (i : Fch) (kind : Nat) (n t : Int) (lt : Bool) (s : State) : State :=
  let s := if kind = 2 && i != .field then
      (activeDefs s i.num 1 ++ activeDefs s i.num 2).foldl (fun s d => endOutput d (flagDef d s)) s
    else s
  mapFch i (fun x => { x with zq := x.zq ++ [{ kind := kind, n := n, t := t, thb := t, toff := 0, lt := lt, pd := 0, outs := [], offs := [] }] }) s

/-- What a line sample that begins a plan or a gauge change sets (R117, R120, R121). -/
def lineBegin (i : Fch) (tok : LineTok) (s : State) : State :=
  let g : Int := if i == .field then 0 else tok.groups
  let s := if tok.start then
      mapFch i (fun x => { x with m := max 1 tok.decim, groups := g.toNat, nY := some g, gate := g, implicit := some g, gaugeWin := none,
                                  swap := x.swap.map (fun r => { r with ns := min r.ns g }), bins := [], slowT := none, close := none,
                                  lastLt := tok.lt, flip := none }) s
    else if tok.gaugeNew then
      mapFch i (fun x => { x with gate := tok.n + g, implicit := some (tok.n + g), gaugeWin := some (tok.n, tok.n + g - 1) }) s
    else s
  mapFch i (fun x =>
    if x.lastLt && !tok.lt then { x with lastLt := false, flip := some tok.n, rsOn := x.rsOn && !rsAlign s i, rsDue := x.rsDue || rsAlign s i }
    else { x with lastLt := tok.lt }) s

/-- The syncs due at a line sample, applied or cancelled; whether the line syncs (R115, R116). -/
def lineSync (i : Fch) (tok : LineTok) (s : State) : Bool × State :=
  let x := fchOf s i
  let due := x.syncs.filter (fun r => decide ((x.groups : Int) ≤ tok.n) && syncDue s tok r)
  let s := mapFch i (fun x => { x with syncs := x.syncs.filter (fun r => !due.contains r) }) s
  let bad := due.filter (fun r => r.src == 2 && !joinedAtT s r.ty)
  let good := due.filter (fun r => !bad.contains r)
  let s := bad.foldl (fun s r => syncCancel i r s) s
  let s := good.foldl (fun s r => syncDone i tok.n r s) s
  (good != [] || x.implicit == some tok.n, s)

/-! ## One line sample through a chain -/

/-- The delays of R110 less the skew: t_shot - d_inc - d_spk - d_dec, and d_hb. -/
def decTimes (i : Fch) (bank : FBank) (m : Nat) (tok : LineTok) : Int × Int :=
  let dInc := if i == .field then 0 else tok.ts / 2
  (tok.t - dInc - (((bank.w - 1) / 2 : Nat) : Int) * tok.delta - rne ((bank.gdDec : Nat) * tok.delta) 8,
    rne ((bank.gdHb : Nat) * (m : Nat) * tok.delta) 8)

/-- Every bin's token of a line sample (R99 to R101, R116, R119); a slow output counts where it is new, not where it is repeated (R90, R342). -/
def linesBins (bank : FBank) (sync : Bool) (tok : LineTok) (bins : Tab (Option FBin)) : Tab (Option FBin) × Nat :=
  tok.bins.foldl (fun a e =>
    let r := binLine bank sync tok.n (if tok.ofSlow then e.2 else { e.2 with slow := none }) ((tget none e.1 a.1).getD FBin.new)
    (tput none e.1 (some r.1) a.1, a.2 + b2n r.2)) (bins, 0)

/-- The bins of an instance that lie in a zone of a head that is not OFF (R97). -/
def zoneSet (s : State) (i : Fch) : List Nat := ((portHeads s i.num).flatMap (fun e => zoneBins e.2)).eraseDups

/-- A decimation point: every bin's outputs, the point handed to the HEN, the resampler and the slow streams (R97, R102 to R110). -/
def decPoint (i : Fch) (bank : FBank) (tok : LineTok) (s : State) : State :=
  let x := fchOf s i
  let zs := zoneSet s i
  let tt := decTimes i bank x.m tok
  let c : DecCtx := { n := tok.n, k := x.k, un := decide (x.k < x.evK + x.evU), unHead := decide (x.k < x.evK + x.evU + x.evTail),
                      step := x.bankStep }
  let live := tok.bins.filter (fun e => !((tget none e.1 x.bins).getD FBin.new).down)
  let r := live.foldl (fun (a : Tab (Option FBin) × List HOut × Nat × Nat) e =>
    let y := binDec bank c (zs.contains e.1) ((tget none e.1 a.1).getD FBin.new)
    let sats := b2n (has y.2.1.m mkSat) + b2n (y.2.2.any (fun h => has h.m mkSat))
    let holes := b2n (y.2.2.any (fun h => has h.m mkHole))
    (tput none e.1 (some y.1) a.1,
      match y.2.2 with
      | some h => a.2.1 ++ [{ bin := e.1, s := h }]
      | none => a.2.1,
      a.2.2.1 + sats, a.2.2.2 + holes)) (x.bins, [], 0, 0)
  let s := bumpBy (0x5C04 + 0x100 * i.num) r.2.2.2 (bumpBy (0x5C00 + 0x100 * i.num) r.2.2.1 s)
  let s := mapFch i (fun x =>
    { x with bins := r.1, decs := ({ k := x.k, tb := tt.1, lt := tok.lt } :: x.decs).take 40, k := x.k + 1, bankStep := false,
             zq := x.zq ++ [{ kind := 0, n := tok.n, t := tok.t, thb := tt.1 - tt.2, toff := tok.toff, lt := tok.lt, pd := (x.m : Int) * tok.delta,
                              outs := r.2.1, offs := tok.offs }] }) s
  slowEmit i tok bank c.k (resample i tok bank c.k (tok.bins.map (·.1)) s)

/-- One line sample through every stage (R95 to R119). -/
def chainLine (i : Fch) (tok : LineTok) (s : State) : State :=
  let s := lineBegin i tok (if tok.start || tok.gaugeNew then zonePoint i 1 tok.n tok.t tok.lt s else s)
  let ls := lineSync i tok s
  let s := if ls.1 then mapFch i (fun x => { x with nY := some tok.n }) ls.2 else ls.2
  let x := fchOf s i
  let s := match x.swap with
    | some r =>
      if r.ns ≤ tok.n && x.gate ≤ tok.n && (tok.n - x.nY.getD 0) % (x.m : Int) = 0 then swapNow i tok.n r s else s
    | none => s
  let s := if ls.1 then syncNow i tok.n s else s
  let x := fchOf s i
  let bank := fchBank s i x.bankB
  let r := linesBins bank ls.1 tok x.bins
  let slowHere := tok.ofSlow && tok.bins.any (fun e => e.2.slow.isSome)
  let s := bumpBy (0x5C08 + 0x100 * i.num) (if tok.n ≥ x.gate then r.2 else 0)
    (mapFch i (fun x => { x with bins := r.1, slowT := if slowHere then some (tok.t, tok.lt) else x.slowT }) s)
  match x.nY with
  | some ny =>
    if x.gate ≤ tok.n && ny ≤ tok.n && (tok.n - ny) % (x.m : Int) = (x.m : Int) - 1 then decPoint i bank tok s else s
  | none => s

/-- The line samples of the first block of the corner-turn, when it is closed, and the rest (R95). -/
def closedBlock (close : Int → Bool) : List LineTok → List LineTok → Option (List LineTok × List LineTok)
  | _, [] => none
  | acc, k :: r =>
    let ends := k.n % 16 == 15 || close k.n || (match r with | k2 :: _ => k2.start | [] => false)
    if ends then some (acc ++ [k], r) else closedBlock close (acc ++ [k]) r

/-- A failing FCH slate: its bins restart by themselves, each recorded (R119). -/
def fchSlate (i : Fch) (s : State) (f : SlateFail) : State :=
  let s := bump (0x5C0C + 0x100 * i.num) (noteSlate i.dom (if i == .field then 3 else 5) f f.bins.head? s)
  mapFch i (fun x => { x with bins := f.bins.foldl (fun t b =>
    match tget none b t with | some y => tput none b (some { y with down := true }) t | none => t) x.bins }) s

/-- Whether a line is the last before a plan change or PORT_STOP (R95). -/
def lastLineOf (x : FchSt) (n : Int) : Bool := x.close == some n || x.endAt == some n

/-- Whether the chain holds credits of both lanes' HEN for what a block may bring (R19). -/
def henCredit (s : State) (i : Fch) : Bool := decide ((fchOf s i).zq.length + 18 ≤ tokenBuffers 2)

/-- Everything that waits at a chain cancelled (R120, R122). -/
def cancelWaiting (i : Fch) (s : State) : State :=
  let x := fchOf s i
  let s := mapFch i (fun x => { x with syncs := [], swap := none }) s
  let s := x.syncs.foldl (fun s r => syncCancel i r s) s
  match x.swap with | some r => finish r.id stCancelled 0 0 s | none => s

/-- The last line sample before PORT_STOP has passed: what still waits is cancelled, and the heads' plan ends (R120, R144). -/
def passEnd (i : Fch) (k : LineTok) (s : State) : State :=
  if (fchOf s i).endAt != some k.n then s
  else
    let s := if (fchOf s i).run then s else cancelWaiting i s
    zonePoint i 2 k.n k.t k.lt (mapFch i (fun x => { x with endAt := none }) s)

/-- The segment number of a block, from its header (R345). -/
def Block.seg (b : Block) : Nat := (nth 0 b.bytes 0).toNat + 256 * (nth 0 b.bytes 1).toNat

/-- A stream block whose crossing check fails at the HRE or at the HSC: it is shed, the next one carries SHED, and the failure is recorded (R403, R349). -/
def streamCross (i : Fch) (e : StreamCross) (s : State) : State :=
  let is := fun (b : Block) => decide (b.d = e.d ∧ b.n = e.n ∧ b.seg = e.seg)
  let q := if e.hsc then s.hsc.hisq else s.hsc.strq
  let q2 := q.map (fun p => (p.1, p.2.filter (fun b => !is b)))
  let note_ := note evCrossingFail .host (b2n e.hsc) 6 (w32 i.num) (lo32 e.n)
  if (sdef s e.d).port ≠ i.num || !q.any (fun p => p.2.any is) then s
  else if e.hsc then note_ (mapRegion e.d (fun r => { r with gap := true }) { s with hsc := { s.hsc with hisq := q2 } })
  else note_ (mapDef e.d (fun x => { x with shed := true }) { s with hsc := { s.hsc with strq := q2 } })

/-- One line sample through the chain, and the crossing checks of the stream blocks it brings (R403). -/
def crossLine (i : Fch) (cross : List StreamCross) (k : LineTok) (s : State) : State :=
  (cross.filter (fun e => e.n == k.n)).foldl (fun s e => streamCross i e s) (chainLine i k s)

/-- CORNER_TURN_BLOCK_CLOSE: every bin of a closed block through the chain (R95, R96), once the HEN can take what it brings (R19). -/
def execCornerTurnBlockClose (t : Int) (inst : Fch) (slateFails : List SlateFail) (cross : List StreamCross) (s : State) : Host.Outcome State Fault Refusal :=
  let s := slateFails.foldl (fchSlate inst) (atTime t s)
  if !active s inst.dom || !henCredit s inst then settle s
  else
    match closedBlock (lastLineOf (fchOf s inst)) [] (fchOf s inst).buf with
    | none => settle s
    | some (ks, rest) =>
      let s := mapFch inst (fun x => { x with buf := rest }) s
      let s := ks.foldl (fun s k => crossLine inst cross k s) s
      match ks.getLast? with
      | some k => settle (passEnd inst k s)
      | none => settle s

/-! ## Commands (R113 to R115) -/

/-- The instances of a FILTER_SYNC mask. -/
def maskFch (w : Word) : List Fch := [Fch.f0, .f1, .field].filter (fun i => bitOf w i.num)

/-- A chain as its next line sample will find it: until line 0 of the plan in force has passed, its phase is that plan's (R114, R117). -/
def phaseOf (s : State) (i : Fch) : FchSt :=
  let x := fchOf s i
  let fresh := x.entered.isNone || x.buf.any (·.start)
  match i, (s.stg.port (if i == .f0 then .p0 else .p1)).plan with
  | .field, _ => x
  | _, none => x
  | _, some q => if fresh then { x with nY := some (q.groups : Nat), m := max 1 q.decim, groups := q.groups, gaugeWin := none } else x

/-- Whether line n_y of a sync at t_y has entered an instance: its latest line is not before t_y nor among the first G (R115). -/
def syncLate (s : State) (i : Fch) (ty : Int) : Bool :=
  (fchOf s i).entered.any (fun e => decide (((phaseOf s i).groups : Int) ≤ e.1) &&
    decide (ty ≤ if e.2.2 && s.net.joined then e.2.1 + s.net.offset else e.2.1))

/-- FILTER_SYNC (R115). A part refused for one instance leaves the others standing (log entry 21). A time base other than the device's, and an instance that
does not run, are REFUSED_STATE (DEDUCED, log entry 141). RESULT0 and RESULT1 are 0 unless every named instance took it. -/
def effFilterSync (c : HostCmd) (s : State) : State :=
  let now := bitOf c.a0 8
  let lt := bitOf c.a0 9
  let ty : Int := if now then grid10 (s.now + 20000) else argA12 c
  let l := if now then !s.net.joined else lt
  let ins := maskFch c.a0
  if !now && lt == s.net.joined then refuse 0x18 c stRefusedState s
  else
    let st := fun (i : Fch) => if !(fchOf s i).run then stRefusedState else if syncLate s i ty then stRefusedLate else stApplied
    let acc := ins.filter (fun i => st i == stApplied)
    let bad := ((ins.filter (fun i => st i != stApplied)).map st).headD stApplied
    match acc with
    | [] => refuse 0x18 c bad s
    | i0 :: _ =>
      let id := newId s
      let s := accept c 0x18 s
      let s := { s with fsync := s.fsync ++ [{ id := id, left := acc.length, low := i0.num, ny := 0, st := bad }] }
      acc.foldl (fun s i => mapFch i (fun x => { x with syncs := x.syncs ++ [{ src := 1, ty := ty, lt := l, id := id }] }) s) s

/-- FILTER_SYNC (R115). -/
def execFilterSync (c : HostCmd) (s : State) : Host.Outcome State Fault Refusal := hostCommand 0x18 effFilterSync c s

/-- The n_e of a BANK_SWAP as the phase stands (R114, R120). -/
def swapLine (x : FchSt) (ns : Int) : Int :=
  let ne := ns + (x.nY.getD 0 - ns) % (x.m : Int)
  match x.gaugeWin with
  | some w => if w.1 ≤ ne && ne ≤ w.2 then w.2 + 1 else ne
  | none => ne

/-- BANK_SWAP (R113, R114, R120). -/
def effBankSwap (c : HostCmd) (s : State) : State :=
  let i := nth Fch.f0 [Fch.f0, .f1, .field] (fld c.a0 1 0)
  let x := fchOf s i
  let ns : Int := argA12 c
  if !x.run then refuse 0x19 c stRefusedState s
  else if x.swap.isSome then refuse 0x19 c stRefusedBusy s
  else if x.entered.any (fun e => decide (swapLine (phaseOf s i) ns ≤ e.1)) then refuse 0x19 c stRefusedLate s
  else if !(fchBank s i (!x.bankB)).ok then refuse 0x19 c stRefusedBank s
  else mapFch i (fun x => { x with swap := some { id := newId s, ns := ns } }) (accept c 0x19 s)

/-- BANK_SWAP (R114). -/
def execBankSwap (c : HostCmd) (s : State) : Host.Outcome State Fault Refusal := hostCommand 0x19 effBankSwap c s

/-- A sync latched at an instance; a second SYNC_IN edge while one is pending is ignored and counted (R115). -/
def latchSync (i : Fch) (r : SyncReq) (s : State) : State :=
  let x := fchOf s i
  if !x.run || !active s i.dom then s
  else if r.src = 0 && x.syncs.any (fun q => q.src == 0) then bump (0x5C1C + 0x100 * i.num) s
  else mapFch i (fun x => { x with syncs := x.syncs ++ [r] }) s

/-- SYNC_IN_EDGE: latched at every instance whose pin sync is on, FCH-FIELD also by a port's FIELD bit (R115, R121). -/
def execSyncInEdge (t : Int) (s : State) : Host.Outcome State Fault Refusal :=
  let s := atTime t s
  let r : SyncReq := { src := 0, ty := t, lt := !s.net.joined, id := 0 }
  let on := fun (i : Fch) => bitOf (reg s (fchOff i + 8)) 0
  let follow := on .field || (on .f0 && bitOf (reg s (fchOff .f0 + 8)) 1) || (on .f1 && bitOf (reg s (fchOff .f1 + 8)) 1)
  let s := if on .f0 then latchSync .f0 r s else s
  let s := if on .f1 then latchSync .f1 r s else s
  settle (if follow then latchSync .field r s else s)

/-- The high word of FCH_SYNCNTn written: a sync at network time t_y is armed (R115, R121, R450). -/
def armSync (inst : Fch) (high : Word) (s : State) : State :=
  if !active s inst.dom then hreDiscard s
  else
    let s := setRw (fchOff inst + 0x14) high s
    let s := { s with regs := { s.regs with held := tput none (fchOff inst + 0x10) none s.regs.held } }
    let r : SyncReq := { src := 2, ty := join64 (reg s (fchOff inst + 0x10)) high, lt := false, id := 0 }
    let arm := fun (i : Fch) (s : State) => if (fchOf s i).run then latchSync i r s else syncCancel i r s
    let s := arm inst s
    if inst != .field && bitOf (reg s (fchOff inst + 8)) 1 then arm .field s else s

/-- FCH_SYNCNT_ARM (R115). -/
def execFchSyncntArm (t : Int) (inst : Fch) (high : Word) (s : State) : Host.Outcome State Fault Refusal :=
  settle (armSync inst high (atTime t s))

/-- The stream load of a port in values per second at a resampler rate, scaled: sum over its active definitions (R347). `num` and
`den` give the resampler output rate num / den in 1/s. -/
def streamLoad (s : State) (i : Fch) (num den fnum fden : Nat) (extra : List Nat) : Bool :=
  let ds := (activeDefs s i.num 1 ++ activeDefs s i.num 2 ++ extra).eraseDups
  -- sum NSEL * rate / DIV <= 5e7, over the common denominator
  let term := fun (d : Nat) =>
    let q := sdef s d
    let r := if q.source = 1 then (num, den) else (fnum, fden)
    (q.nsel * r.1, max 1 (q.div * r.2))
  let t := ds.foldl (fun (a : Nat × Nat) d => let x := term d; (a.1 * x.2 + x.1 * a.2, a.2 * x.2)) (0, 1)
  t.1 ≤ 50000000 * t.2

/-- The decimated rate f_d of a port's chain as a fraction, per second (R97). -/
def decRate (s : State) (i : Fch) : Nat × Nat :=
  match (s.stg.port (if i == .f0 then .p0 else .p1)).plan with
  | some q => (1000000000 * q.groups, max 1 ((fchOf s i).m * q.ts))
  | none => (0, 1)

/-- The resampler output rate for a step or a period, as a fraction (R107, R108). -/
def rsRate (s : State) (i : Fch) (align : Bool) (step period : Nat) : Nat × Nat :=
  let f := decRate s i
  if align then (1000000000, max 1 period) else (f.1 * 268435456, max 1 (f.2 * step))

/-- Whether the stream load of an instance's port keeps R347. -/
def loadOk (s : State) (i : Fch) (align : Bool) (step period : Nat) (extra : List Nat) : Bool :=
  let f := decRate s i
  let r := rsRate s i align step period
  streamLoad s i r.1 r.2 f.1 f.2 extra

/-- A write that is ignored: recorded with its reason, vector 13 (R332, R434). -/
def ignoreWrite (d : Dom) (blk off : Nat) (v : Word) (reason : Nat) (s : State) : State :=
  vecItem 13 (note evWriteIgnored d blk (w32 off) v (w32 reason) s)

/-- A multi-word register in force from now on: its words are no longer held back (R450). -/
def release (offs : List Nat) (s : State) : State :=
  { s with regs := { s.regs with held := s.regs.held.filter (fun e => !offs.contains e.1) } }

/-- Whether T_o keeps the range of R108. -/
def periodInRange (s : State) (i : Fch) (per : Nat) : Bool :=
  match (s.stg.port (if i == .f0 then .p0 else .p1)).plan with
  | some q =>
    let md : Int := ((fchOf s i).m : Int) * ((q.ts / max 1 q.groups : Nat) : Int)
    cdiv md 16 ≤ (per : Int) && (per : Int) ≤ 15 * md
  | none => true

/-- The high word of FCH_RSMPn written: checked against R108 and R347, then the resampler restarts at the next decimated output (R120, R347,
R450). FCH-FIELD only holds it (R454). -/
def rsmpWrite (inst : Fch) (value : Word) (s : State) : State :=
  let o := fchOff inst + 0x1C
  let value := w32 (value.toNat % 2)
  if !lands s (pregWord o) then pstArrive o (pregWord o) value s
  else if inst == .field then release [o - 4, o] (pstArrive o (pregWord o) value s)
  else
    let align := bitOf value 0
    let step := (regStored s (o - 4)).toNat
    let per := (reg s (o + 4)).toNat
    if step < 0x1000000 || step > 0xF0000000 || (align && !periodInRange s inst per)
        || !loadOk s inst align step per [] then
      ignoreWrite inst.dom 5 o value 0 s
    else
      mapFch inst (fun x => { x with rsDue := x.rsOn || x.rsDue }) (release [o - 4, o] (pstArrive o (pregWord o) value s))

/-- FCH_RSMP_WRITE (R120). -/
def execFchRsmpWrite (t : Int) (inst : Fch) (value : Word) (s : State) : Host.Outcome State Fault Refusal :=
  let s := atTime t s
  if !active s .host then settle s else settle (rsmpWrite inst value s)

end Sys2Proof.Machine
end

