-- ==== Sys2Proof/Machine/PlanEffects.lean ====
section
/-!
DEFINITION. Machine/PlanEffects.lean: when a port starts, changes its plan and stops (R49, R52, R53, R55), with what each brings to the
port's filter chain and heads.
-/
namespace Sys2Proof.Machine

/-- PORT_RUN (R434). -/
def notePortRun (p : Port) (on : Bool) (v : Int) (s : State) : State :=
  note evPortRun p.dom 0 (w32 (p.num + 256 * b2n on)) (lo32 v) (hi32 v) s

/-- The definitions of a port whose selected bins a new plan does not hold: EN cleared, the output ended, and recorded (R341). -/
def windowDefs (p : Port) (q : Plan) (s : State) : State :=
  let out := fun (d : Nat) => let y := sdef s d
    decide (y.first < q.b0) || decide (q.b0 + q.nbins ≤ y.first + (y.nsel - 1) * y.stride)
  ((activeDefs s p.num 1 ++ activeDefs s p.num 2).filter out).foldl (fun s d =>
    let o := 0xD400 + 16 * d
    let v := setBit (reg s o) 0 false
    note evWriteIgnored .host 1 (w32 o) v 0 (endOutput d (mapDef d (fun x => { x with en := false }) (setRw o v s)))) s

/-- A port's plan begins at t0: the line index restarts at 0, no group has been lit, the chain runs (R52, R53, R54). -/
def beginPlan (p : Port) (q : Plan) (t0 : Int) (s : State) : State :=
  let s := mapStg p (fun x => { x with run := 1, plan := some q, t0 := t0, next := 0, last := none, gap := false, lit := List.replicate 8 none,
                                       holdStop := none }) s
  let s := mapFch (portFch p) (fun x => { x with run := true, close := none, entered := none }) s
  windowDefs p q (notePortRun p true t0 (setFloor p.dom (planFloor s p q) s))

/-- What a return from holdover leaves of the power state once no port waits for its start (R49, R364). -/
def leaveHoldover (s : State) : State :=
  if s.bsc.power == .holdover && !s.refs.holdover && (s.stg.port .p0).run != 2 && (s.stg.port .p1).run != 2 then
    setPower (serviceOrLean s) s
  else s

/-- PLAN_START_AT_T0 (a GAUGE_SET still pending stays so, log entry 131): a pending PORT_START, the restart after holdover, or the new plan of a PLAN_APPLY at its t0 (R49, R52, R53). -/
def execPlanStartAtT0 (t : Int) (port : Port) (s : State) : Host.Outcome State Fault Refusal :=
  let s := atTime t s
  let x := s.stg.port port
  if !active s port.dom then settle s
  else
    match x.start, x.apply with
    | some r, _ =>
      if s.now < r.t0 then settle s
      else
        let old := x.retunes.map (·.id) ++ x.gauge.toList.map (·.id) ++ x.apply.toList.map (·.id)
        let s := mapStg port (fun x => { x with start := none, retunes := [], gauge := none, apply := none }) s
        let s := old.foldl (fun s i => finish i stCancelled 0 0 s) s
        settle (leaveHoldover (finish r.id stApplied (lo32 r.t0) (hi32 r.t0) (beginPlan port r.plan r.t0 s)))
    | none, some a =>
      if !x.gap || s.now < a.t0 then settle s
      else
        let s := mapStg port (fun x => { x with apply := none }) s
        settle (finish a.id stApplied (lo32 a.t0) (hi32 a.t0) (beginPlan port a.plan a.t0 s))
    | none, none => settle s

/-- PLAN_CHANGE_AT_P: the old plan has launched its last shot; none until the new t0 (R53). -/
def execPlanChangeAtP (t : Int) (port : Port) (s : State) : Host.Outcome State Fault Refusal :=
  let s := atTime t s
  match (s.stg.port port).apply with
  | none => settle s
  | some a =>
    if s.now < a.p || (s.stg.port port).run != 1 then settle s
    else
      let s := mapStg port (fun x => { x with gap := true, gate := 0 }) s
      settle (mapFch (portFch port) (fun x => { x with close := some (a.np - 1) }) s)

/-- A chain whose input ends with line n, shot at t in the device's base: the pending syncs and the bank swap that no line up to n meets complete as
cancelled, whatever block the lines stand in (R96, R120), and its heads fail once its last line sample has passed (R144). -/
def endChain (i : Fch) (n : Option Int) (t : Int) (s : State) : State :=
  let x := fchOf s i
  let last := n.getD (-1)
  let y := phaseOf s i
  let meets := fun (r : SyncReq) => decide ((y.groups : Int) ≤ last) && decide (r.ty ≤ t)
  let swaps := x.swap.any (fun r => decide (swapLine y r.ns ≤ last))
  let s := mapFch i (fun x => { x with run := false, endAt := some last, syncs := x.syncs.filter meets, swap := if swaps then x.swap else none }) s
  let s := (x.syncs.filter (fun r => !meets r)).foldl (fun s r => syncCancel i r s) s
  let s := match x.swap with | some r => if swaps then s else finish r.id stCancelled 0 0 s | none => s
  match x.entered, x.buf with
  | some e, [] =>
    if n.all (fun k => decide (e.1 ≥ k)) then
      zonePoint i 2 e.1 e.2.1 x.lastLt (cancelWaiting i (mapFch i (fun x => { x with endAt := none }) s))
    else s
  | none, [] => if n.isNone then zonePoint i 2 0 s.now (!s.net.joined) (cancelWaiting i (mapFch i (fun x => { x with endAt := none }) s)) else s
  | _, _ => s

/-- A port stopped: SHOT_GATE low, SLOT_CODE 0b000 (R44), B0 as its floor (R367). -/
def stopPort (p : Port) (run : Nat) (s : State) : State :=
  let last := (s.stg.port p).last
  let tEnd := ((s.stg.port p).plan.map (fun q => nominal q (s.stg.port p).t0 (last.getD (-1)))).getD s.now
  let s := mapStg p (fun x => { x with run := run, gap := false, start := if run = 0 then none else x.start, stop := none, apply := none,
                                       holdStop := none, gate := 0, code := 0 }) s
  setFloor p.dom (portFloor s p) (notePortRun p false (last.getD (-1)) (endChain (portFch p) last tEnd s))

/-- PORT_STOP_EFFECT: the end of the last shot period under PORT_STOP, or when no reference came back (R49, R52, R55). -/
def execPortStopEffect (t : Int) (port : Port) (s : State) : Host.Outcome State Fault Refusal :=
  let s := atTime t s
  let x := s.stg.port port
  match x.stop, x.holdStop with
  | some (id, te), _ =>
    if s.now < te then settle s
    else
      let n := x.last.getD (-1)
      settle (leaveHoldover (finish id stApplied (lo32 n) (hi32 n) (stopPort port 0 (cancelRequests port s))))
  | none, some te =>
    if s.now < te then settle s
    else
      let ids := x.apply.toList.map (·.id)
      let s := ids.foldl (fun s i => finish i stCancelled 0 0 s) (stopPort port 2 s)
      let done := (s.stg.port .p0).run != 1 && (s.stg.port .p1).run != 1
      settle (if done && (s.bsc.power == .service || s.bsc.power == .lean) then setPower .holdover s else s)
  | none, none => settle s

end Sys2Proof.Machine
end

