-- ==== Sys2Proof/WellFormed.lean ====
section
/-!
DEFINITION. WellFormed.lean: the commands that can reach the block: every operand within what its source can deliver. The machine answers for every term; a
command that is not well formed stands for nothing outside.
-/
namespace Sys2Proof

/-- An instant, a uint64 of nanoseconds (R45). -/
def timeOk (t : Int) : Bool := decide (0 ≤ t) && decide (t < 18446744073709551616)

/-- An offset of BAR0, which has 1 MiB (R309, R448). -/
def offOk (off : Nat) : Bool := off < 0x100000

/-- An aligned offset of BAR0 (R449). -/
def wordOk (off : Nat) : Bool := offOk off && off % 4 == 0

/-- A word of the table window (R423). -/
def bankWordOk (w : Nat) : Bool := w < 57344

/-- A round port, RP0 to RP5 (R251). -/
def portOk (p : Nat) : Bool := p < 6

/-- A ring port, RP2 or RP3 (R304). -/
def ringPortOk (p : Nat) : Bool := p == 2 || p == 3

/-- A host command; what a read of its buffer returns has at most 1 024 bytes (R316, R320). Only the commands that cross to the lanes can fail the
crossing check (R189, R403). -/
def cmdOk (c : HostCmd) : Bool := timeOk c.t && c.buf.all (fun b => b.length ≤ 1024)

/-- A located check, by its LANE_FAULT number (R434). -/
def checkOk (f : CheckFail) : Bool := 1 ≤ f.check && f.check ≤ 12

/-- A slate's use (R434). -/
def slateOk (f : SlateFail) : Bool := f.use ≤ 4

/-- The slates of a domain's store (R13): 40 MiB of SRAM shared by the ports, the lanes and HOST, and the local stores of FIELD, RING and AON. -/
def domSlates (d : Dom) : Nat :=
  match d with
  | .port0 => 57344
  | .port1 => 57344
  | .lanex => 12288
  | .laney => 12288
  | .host => 24576
  | .field => 64
  | .ring => 1152
  | .aon => 512

/-- What a debug read names (R392). -/
def targetOk (w : DbgTarget) : Bool :=
  match w with
  | .register off => wordOk off
  | .slate d k => k < domSlates d
  | .nvm word => word < 262144

/-- What a lane takes from DBG_LANE (R393, R434). -/
def laneOpOk (o : DbgLaneOp) : Bool :=
  match o with
  | .halt => true
  | .step => true
  | .resume => true
  | .writeCount sec count => sec < 4096 && decide (-32768 ≤ count) && decide (count ≤ 32767)
  | .writeSlate k ws => k < 12288 && ws.length == 64
  | .inject check => 1 ≤ check && check ≤ 12

/-- The last step of the power-fail sequence that ended (R378). -/
def stepsOk (n : Nat) : Bool := n ≤ 6

/-- An extended multiblock: 128 or 256 containers (R56, R62). -/
def blockOk (m : MultiblockRelease) : Bool := timeOk m.t

/-- One or two lanes of a converter, with at most 64 headers invalid in 64 (R56, R60). -/
def arrivalOk (l : List LaneArrival) : Bool := 1 ≤ l.length && l.length ≤ 2 && l.all (fun a => a.invalidIn64 ≤ 64 && a.octets.length == 256)

/-- A frame: it ends no sooner than it starts (R256). -/
def frameOk (f : FrameRx) : Bool := timeOk f.t && timeOk f.tEnd && decide (f.t ≤ f.tEnd)

/-- Characters on the legacy round port (R276). -/
def charsOk (cs : List CharRx) : Bool := 1 ≤ cs.length && cs.all (fun c => timeOk c.t)

/-- Measurements: no current below 0 (R369). -/
def measureOk (m : BudgetMeas) : Bool := decide (0 ≤ m.iAvg) && m.share.all (fun e => decide (0 ≤ e.2))

/-- A descriptor that a poll met: eight words, or none (R316). -/
def ringCmdOk (r : RingCmd) : Bool := timeOk r.t && r.words.all (fun w => w.length == 8) && r.buf.all (fun b => b.length ≤ 1024)

/-- A poll: 16 words of the host area, or none (R311). -/
def pollOk (p : PollRead) : Bool := timeOk p.t && p.area.all (fun a => a.length == 16) && p.cmds.all ringCmdOk

/-- A configuration request: an aligned offset of the 4 096 bytes, a vector of 32 (R309, R332). -/
def configOk (r : CfgReq) : Bool :=
  match r with
  | .capability _ k => k < 1024
  | .bar _ => true
  | .read off => off < 4096 && off % 4 == 0
  | .vectorMask v _ => v < 32
  | .functionMask _ => true
  | .ecrc _ _ => true
  | .busMaster _ => true

/-- A digest transfer carries 192 digests (R191, R192). -/
def digestsOk (l : List Word) : Bool := l.length == 192

/-- Whether a command is well formed. -/
def Instr.wellFormed : Instr → Bool
  | .nop c => cmdOk c && c.cross.isEmpty
  | .portStart c => cmdOk c && c.cross.isEmpty
  | .portStop c => cmdOk c && c.cross.isEmpty
  | .planApply c => cmdOk c && c.cross.isEmpty
  | .groupRetune c => cmdOk c && c.cross.isEmpty
  | .gaugeSet c => cmdOk c && c.cross.isEmpty
  | .refclkSelect c => cmdOk c && c.cross.isEmpty
  | .linkReadmit c => cmdOk c && c.cross.isEmpty
  | .filterSync c => cmdOk c && c.cross.isEmpty
  | .bankSwap c => cmdOk c && c.cross.isEmpty
  | .headFlush c => cmdOk c
  | .headStats c => cmdOk c && c.cross.isEmpty
  | .prepReset c => cmdOk c
  | .condReset c => cmdOk c
  | .directReset c => cmdOk c
  | .restoreConfirm c => cmdOk c
  | .sectionStats c => cmdOk c && c.cross.isEmpty
  | .laneRetire c => cmdOk c && c.cross.isEmpty
  | .laneReadmit c => cmdOk c && c.cross.isEmpty
  | .topoSwitch c => cmdOk c && c.cross.isEmpty
  | .seedSave c => cmdOk c && c.cross.isEmpty
  | .survey c => cmdOk c && c.cross.isEmpty
  | .legacyCal c => cmdOk c && c.cross.isEmpty
  | .sweepCal c => cmdOk c && c.cross.isEmpty
  | .recRead c => cmdOk c && c.cross.isEmpty
  | .recFreeze c => cmdOk c && c.cross.isEmpty
  | .recUnfreeze c => cmdOk c && c.cross.isEmpty
  | .hisRetrieve c => cmdOk c && c.cross.isEmpty
  | .diagPost c => cmdOk c && c.cross.isEmpty
  | .debugChallenge c => cmdOk c && c.cross.isEmpty
  | .debugResponse c => cmdOk c && c.cross.isEmpty
  | .debugClose c => cmdOk c && c.cross.isEmpty
  | .lifecycleSet c => cmdOk c && c.cross.isEmpty
  | .attest c => cmdOk c && c.cross.isEmpty
  | .powerRequest c => cmdOk c && c.cross.isEmpty
  | .idcode t => timeOk t
  | .bypass t => timeOk t
  | .samplePreload t _ => timeOk t
  | .dbgRead t what => timeOk t && targetOk what
  | .dbgLane t op => timeOk t && laneOpOk op
  | .extest t => timeOk t
  | .intest t => timeOk t
  | .clamp t => timeOk t
  | .highz t => timeOk t
  | .scan t => timeOk t
  | .keyLoad t _ _ _ => timeOk t
  | .trstNReset t => timeOk t
  | .registerWrite t off _ _ => timeOk t && offOk off
  | .rwpWrite t off _ => timeOk t && wordOk off
  | .tableWindowWrite t word _ => timeOk t && bankWordOk word
  | .hreKnock t _ => timeOk t
  | .hreCtlRun t _ => timeOk t
  | .hreRingEnable t _ _ => timeOk t
  | .fchSyncntArm t _ _ => timeOk t
  | .fchRsmpWrite t _ _ => timeOk t
  | .bscDomctlOff t _ => timeOk t
  | .bscDomctlRestart t _ => timeOk t
  | .hscRegEnable t _ _ => timeOk t
  | .hscRegHold t _ _ => timeOk t
  | .hscSdefEnable t _ _ => timeOk t
  | .lhfExcitationChange t _ _ _ => timeOk t
  | .counterRead t off => timeOk t && offOk off
  | .multiwordReadLatch t off => timeOk t && offOk off
  | .vinReturn t _ => timeOk t
  | .powerFail t stepsDone => timeOk t && stepsOk stepsDone
  | .aonLoss t => timeOk t
  | .vinLow t _ => timeOk t
  | .vinHigh t _ => timeOk t
  | .resetNAssert t => timeOk t
  | .resetNRelease t _ => timeOk t
  | .wakeN t _ => timeOk t
  | .perstN t => timeOk t
  | .functionLevelReset t => timeOk t
  | .d3hotEntry t => timeOk t
  | .pcieLinkDown t => timeOk t
  | .busMasterDisable t => timeOk t
  | .hostTimeout t => timeOk t
  | .syncInEdge t => timeOk t
  | .sysrefEdge t _ => timeOk t
  | .refLoss t _ => timeOk t
  | .refMonitorWindow t _ _ _ => timeOk t
  | .holdoverExpiry t => timeOk t
  | .refReturn t _ => timeOk t
  | .refAvailable t _ => timeOk t
  | .referenceSelect t _ => timeOk t
  | .laneSelftestDone t _ _ => timeOk t
  | .bringupComplete t => timeOk t
  | .domainRampEnd t _ r => timeOk t && r.roms.all (fun n => n < 3)
  | .domainTrip t _ _ => timeOk t
  | .domainRestart t _ => timeOk t
  | .aonTrip t => timeOk t
  | .hostEccInitDone t => timeOk t
  | .standbyEntry t => timeOk t
  | .planStartAtT0 t _ => timeOk t
  | .portStopEffect t _ => timeOk t
  | .planChangeAtP t _ => timeOk t
  | .shot t _ => timeOk t
  | .extendedMultiblockRelease m => blockOk m
  | .lineSampleHandover t _ => timeOk t
  | .paceRequest t _ m => timeOk t && measureOk m
  | .channeliserBlock t _ slateFails => timeOk t && slateFails.all slateOk
  | .cornerTurnBlockClose t _ slateFails cross => timeOk t && slateFails.all slateOk && cross.all (fun e => e.d < 16)
  | .zoneSample t _ fails slates => timeOk t && fails.all checkOk && slates.all (fun e => e.2 < 12288)
  | .ledgerItemTake t _ _ => timeOk t
  | .ledgerTick k => timeOk k.t && k.fails.all checkOk
  | .digestTransferReceive t _ _ _ digests _ => timeOk t && digestsOk digests
  | .comparisonTimeout t _ => timeOk t
  | .blockRelease t _ _ _ _ => timeOk t
  | .readmitSelftestDone t _ _ => timeOk t
  | .frameSend t _ _ _ _ => timeOk t
  | .claimSend t _ _ => timeOk t
  | .frameReceive f _ => frameOk f && portOk f.port
  | .claimReceive t port _ _ => timeOk t && portOk port
  | .lettersMerge t _ _ => timeOk t
  | .masterDecision t => timeOk t
  | .probeRequestSend t _ => timeOk t
  | .probeRequestReceive t _ set => timeOk t && set.length = 4
  | .probeReflectionSend t _ => timeOk t
  | .probeReflectionReceive t _ _ => timeOk t
  | .probeLost t _ => timeOk t
  | .listenTimeout t _ => timeOk t
  | .ridgeForward t _ _ => timeOk t
  | .ridgeWindowClose t _ => timeOk t
  | .branchUnblock t _ => timeOk t
  | .ridgeIdleTimeout t => timeOk t
  | .ringFrameReceive f => frameOk f && ringPortOk f.port
  | .ringFrameSend t _ => timeOk t
  | .ringPortBreak t _ => timeOk t
  | .ringPortReturn t _ => timeOk t
  | .rpLos t _ => timeOk t
  | .pollSend t _ => timeOk t
  | .pollReceive f => frameOk f && portOk f.port
  | .pollReplySend t _ => timeOk t
  | .pollReplyTimeout t _ => timeOk t
  | .legacyPollSend t => timeOk t
  | .legacyReplyReceive cs => charsOk cs
  | .legacyReplyTimeout t => timeOk t
  | .legacyWalkStart t => timeOk t
  | .legacyPollReceive cs => charsOk cs
  | .legacyReplySend t => timeOk t
  | .sarConversion t _ _ => timeOk t
  | .routineConversion t _ _ => timeOk t
  | .urgentConversion t _ _ => timeOk t
  | .clampTrip t _ _ => timeOk t
  | .clampRelease t _ => timeOk t
  | .toneBurstStart t _ => timeOk t
  | .toneBurstEvaluate t _ => timeOk t
  | .budgetPeriod t m => timeOk t && measureOk m
  | .jobQuantumEnd t _ _ _ _ => timeOk t
  | .hrePoll p => pollOk p
  | .msixCoalesceTimer t _ => timeOk t
  | .streamBlockPack t _ => timeOk t
  | .streamFlushTimer t _ => timeOk t
  | .jobBufferTimeout t _ => timeOk t
  | .historyBlockWrite t _ => timeOk t
  | .holdCountdownEnd t _ => timeOk t
  | .eventTake t => timeOk t
  | .nvmWordWrite t _ => timeOk t
  | .operatingSecond t => timeOk t
  | .seedPeriodExpiry t => timeOk t
  | .bankCheckDone t => timeOk t
  | .freezeTimeout t => timeOk t
  | .sweepCalEnd t => timeOk t
  | .debugSessionTimeout t => timeOk t
  | .debugLockoutEnd t => timeOk t
  | .multiblockArrival t _ _ lanes => timeOk t && arrivalOk lanes
  | .configurationRequest t req => timeOk t && configOk req
  | .perstNRelease t => timeOk t
  | .scrubPassStart t => timeOk t
  | .bandChangeSettled t _ => timeOk t

end Sys2Proof
end

