-- ==== Sys2Proof/Machine/Slates.lean ====
section
/-!
DEFINITION. Machine/Slates.lean: the slate stores (R13, R17) and the form in which the lanes hold what they store: the logical slates of a lane and
Lane Y's map (R186), Lane Y's complemented values (R185), residues (R187), control-flow signatures (R188). The spec places these values in slates and gives
no slate a layout: its words are free values of what it holds (DESIGN CHOICE, log entry 12).
-/
namespace Sys2Proof.Machine

/-! ## Physical and logical slates of a lane (R186) -/

/-- The number of slates of a lane's partition (R186). -/
def laneSlates : Nat := 12288

/-- The physical slate at which a lane keeps logical slate k (R186). -/
def physSlate (l : Lane) (k : Nat) : Nat := match l with | .x => k | .y => k * 1031 % laneSlates

/-- The logical slate that a lane keeps at physical slate p: 10 679 is the inverse of 1 031 modulo 12 288 (R186). -/
def logSlate (l : Lane) (p : Nat) : Nat := match l with | .x => p | .y => p * 10679 % laneSlates

/-- What a logical slate of a lane holds (table "Logical slates of a lane", R186): the first of four sections, a head, items, working state. -/
inductive SlateUse
  | sects (first : Nat)
  | head (h : Nat)
  | items (n : Nat)
  | work (n : Nat)
deriving DecidableEq, Repr

/-- The use of logical slate k (R186). -/
def slateUse (k : Nat) : SlateUse :=
  if k < 1024 then .sects (4 * k) else if k < 9216 then .head (k - 1024) else if k < 11264 then .items (k - 9216) else .work (k - 11264)

/-! ## Stored forms (R185) -/

/-- A value as a lane stores it: as it is in Lane X, its bitwise NOT in the same width in Lane Y (R185). Decoding is the same operation. -/
def storedBits {w : Nat} (l : Lane) (v : BitVec w) : BitVec w := match l with | .x => v | .y => ~~~v

/-- A signed value as a lane stores it: Lane Y holds -v - 1, whose bits are the NOT of v's (R185). -/
def storedInt (l : Lane) (v : Int) : Int := match l with | .x => v | .y => -v - 1

/-- An unsigned value of w bits as a lane stores it (R185). -/
def storedNat (l : Lane) (w n : Nat) : Nat := match l with | .x => n | .y => 2 ^ w - 1 - n

/-- A section state code as a lane stores it: 7 - code in Lane Y (R185). -/
def storedCode (l : Lane) (code : Nat) : Nat := storedNat l 3 code

/-- What a lane adds to its stored form for a step of a value: Lane Y decrements for an increment (R185). -/
def storedStep (l : Lane) (d : Int) : Int := match l with | .x => d | .y => -d

/-! ## Residues (R187) -/

/-- res(x) = x - 3·floor(x / 3) (R187). -/
def res (x : Int) : Int := x % 3

/-- The residue predicted of a sum from its operands' residues (R187). -/
def resSum (a b : Int) : Int := res (a + b)

/-- Whether the residue check locates a fault in a result that is wrong by err: its residue differs from the one predicted (R187). -/
def resFails (x err : Int) : Bool := res (x + err) != res x

/-- A value as its slate keeps it: its stored form with the residue taken on it (R185, R187). -/
structure Kept where
  value : Int
  residue : Int
deriving DecidableEq, Repr

/-- A stored form kept with its residue. -/
def keep (v : Int) : Kept := { value := v, residue := res v }

/-- The counts, net-log entries and state code that a lane keeps for a section, each with its residue (R185, R187). -/
def keptSect (l : Lane) (x : SectSt) : List Kept :=
  [keep (storedInt l x.count), keep (storedCode l x.st : Nat)] ++ x.net.map (fun n => keep (storedInt l n.sum))

/-- The pending count and the zones' noise estimates that a lane keeps for a head (R185, R187). -/
def keptHead (l : Lane) (x : HeadSt) : List Kept :=
  [keep (storedNat l 6 x.list.length : Nat), keep (x.z1.nq : Nat), keep (x.z2.nq : Nat)]

/-! ## What a slate's words are -/

end Sys2Proof.Machine

namespace Sys2Proof.Config

/-- Word i of a slate of four sections, by what it keeps of each and the rest of their state; the spec gives it no layout (log entry 12). -/
opaque sectSlate (kept : List (List Machine.Kept)) (rest : List (Option Machine.SectSt)) (i : Nat) : BitVec 32

/-- Word i of a head's slate, by what it keeps and the rest of the head's state; the spec gives it no layout (log entry 12). -/
opaque headSlate (kept : List Machine.Kept) (rest : Option Machine.HeadSt) (i : Nat) : BitVec 32

end Sys2Proof.Config

namespace Sys2Proof.Machine

/-- The 64 words of logical slate k of a lane (R17): sections and heads as they stand; of the item store and the working state of RCT and LCM the spec does
not say what stands where, and the words are free values. -/
def laneSlate (l : Lane) (k : Nat) (s : State) : List Word × State :=
  match slateUse k with
  | .sects i =>
    let xs := (List.range 4).map (fun j => tget none (i + j) (s.sld.lane l).sects)
    ((List.range 64).map (Config.sectSlate (xs.map (fun x => (x.map (keptSect l)).getD [])) xs), s)
  | .head h =>
    let x := tget none h (s.hen.lane l).heads
    ((List.range 64).map (Config.headSlate ((x.map (keptHead l)).getD []) x), s)
  | _ => ((List.range 64).map (fun i => Config.freeValue (s.free + i)), { s with free := s.free + 64 })

/-- The 64 words of physical slate k of a domain's store: of a lane the slate its map places there, of any other domain free values (R13, R17). -/
def slateWords (d : Dom) (k : Nat) (s : State) : List Word × State :=
  match d with
  | .lanex => laneSlate .x (logSlate .x k) s
  | .laney => laneSlate .y (logSlate .y k) s
  | _ => ((List.range 64).map (fun i => Config.freeValue (s.free + i)), { s with free := s.free + 64 })

/-- The CRC-32C that the slate port computes at a write-back and checks at a fetch (R17). -/
def slateCrc (ws : List Word) : Word := crc32cWords ws

/-! ## Control-flow signatures (R188) -/

/-- The words that a step adds to a lane's signature: its identifier and the number of items, heads or sections it handled (R188). -/
def signWords (id n : Nat) : List Word := [w32 id, w32 n]

/-- Both signatures of a lane with one step more: the lane's own counts n + err, its monitor's reference n (R188). -/
def signAdd (l : Lane) (id : Nat) (n : Nat) (err : Int) (s : State) : State :=
  { s with lcm := { s.lcm with sig := s.lcm.sig.setLane l (s.lcm.sig.lane l ++ signWords id (n + err).toNat),
                               sigRef := s.lcm.sigRef.setLane l (s.lcm.sigRef.lane l ++ signWords id n) } }

/-- Whether a lane's two signatures differ (R188). -/
def signDiffers (l : Lane) (s : State) : Bool := crc32cWords (s.lcm.sig.lane l) != crc32cWords (s.lcm.sigRef.lane l)

/-- Both signatures of a lane started for a tick (R188). -/
def signStart (l : Lane) (s : State) : State :=
  { s with lcm := { s.lcm with sig := s.lcm.sig.setLane l [], sigRef := s.lcm.sigRef.setLane l [] } }

end Sys2Proof.Machine
end

