-- ==== Sys2Proof/Machine/LaneOps.lean ====
section
/-!
DEFINITION. Machine/LaneOps.lean: the two lanes' conditions, their located faults, retirement and SAFEHALT
(08_lanes_single_fault.md, R189, R190, R198 to R201), and events that both lanes form (R429).
-/
namespace Sys2Proof.Machine

/-- Both lanes. -/
def bothLanes : List Lane := [.x, .y]

/-- Whether a lane takes tokens and commands: serving, or in re-admission from step 4 (R199, R201). -/
def laneTakes (s : State) (l : Lane) : Bool :=
  active s l.dom && (s.lcm.cond.lane l == .serving
    || (s.lcm.cond.lane l == .readmission && (s.lcm.readm.lane l).any (fun r => decide (r.step ≥ 4))))

/-- An event that both lanes form, recorded once, from the lead lane; SOLO when only one lane forms it (R428, R429). -/
def laneNote (l : Lane) (code blk : Nat) (p0 p1 p2 : Word) (s : State) : State :=
  if laneTakes s l.other && s.lcm.cond.lane l.other == .serving then
    if l == s.lcm.lead then noteEv { code := code, src := 16 * l.dom.num + blk, p0 := p0, p1 := p1, p2 := p2, solo := false } s else s
  else if s.lcm.cond.lane l == .serving then
    noteEv { code := code, src := 16 * l.dom.num + blk, p0 := p0, p1 := p1, p2 := p2, solo := true } s
  else s

/-- An event that one lane alone forms (R428). -/
def soloNote (l : Lane) (code blk : Nat) (p0 p1 p2 : Word) (s : State) : State :=
  noteEv { code := code, src := 16 * l.dom.num + blk, p0 := p0, p1 := p1, p2 := p2, solo := true } s

/-- A lane's condition changed. -/
def setCond (l : Lane) (c : LaneCond) (s : State) : State := { s with lcm := { s.lcm with cond := s.lcm.cond.setLane l c } }

/-! ## SAFEHALT (R198, R339, R363) -/

/-- The state of a topology bank changed (R423). -/
def setBankState (k : Bank) (st : BankState) (s : State) : State :=
  { s with pst := (match k with | .a => { s.pst with bankA := st } | .b => { s.pst with bankB := st }) }

/-- A TOPO_SWITCH that waits is cancelled and its bank INACTIVE again (18_persistence_recorder.md, coincident events). -/
def topoCancel (s : State) : State :=
  match s.pst.topo with
  | none => s
  | some w => finish w.id stCancelled 0 0 (setBankState w.bank .inactive { s with pst := { s.pst with topo := none } })

/-- The section and head commands outstanding complete CANCELLED (R339, coincident events of the host interface). -/
def laneCommandsCancel (s : State) : State :=
  let drop := fun (e : SldSt) => { e with sects := e.sects.filterMap (fun (p : Nat × Option SectSt) =>
    match p.2 with
    | none => none
    | some x => if x.st = 0 then none else some (p.1, some { x with cmd := none })) }
  cancelAll (fun o => [0x20, 0x28, 0x29, 0x2A, 0x2B].contains o.opcode) { s with sld := ⟨drop s.sld.a, drop s.sld.b⟩ }

/-- A port that SAFEHALT stops: a pending PORT_STOP completes APPLIED with its last line index, other requests CANCELLED (R52, R363). -/
def haltPort (p : Port) (s : State) : State :=
  let x := s.stg.port p
  if x.run = 0 && x.start.isNone then s
  else
    let n := x.last.getD (-1)
    let s := match x.stop with | some (id, _) => finish id stApplied (lo32 n) (hi32 n) s | none => s
    let s := match x.start with | some r => finish r.id stCancelled 0 0 s | none => s
    let s := match x.apply with | some r => finish r.id stCancelled 0 0 s | none => s
    stopPort p 0 (cancelRequests p (mapStg p (fun y => { y with stop := none, start := none, apply := none }) s))

/-- A domain that SAFEHALT holds (R363). -/
def holdDom (d : Dom) (s : State) : State := if active s d then setDom d .held s else s

/-- SAFEHALT entered with its cause: the lanes, RING and FIELD are HELD and both channels silent, the ports stop, commands to the lanes and a
TOPO_SWITCH are cancelled (R198, R339, R363, R364, R446). -/
def enterHalt (cause : HaltCause) (s : State) : State :=
  if s.bsc.power == .safehalt || s.bsc.power == .off || s.bsc.power == .standby then s
  else
    let s := topoCancel (laneCommandsCancel (haltPort .p1 (haltPort .p0 s)))
    let s := [Dom.lanex, .laney, .ring, .field].foldl (fun s d => holdDom d s) s
    setPower .safehalt { s with bsc := { s.bsc with halt := cause } }

/-! ## Retirement and re-admission (R198 to R201) -/

/-- Whether a located fault is HARD (R189, R434). -/
def hardCheck (check : Nat) : Bool := check ≥ 5 && check ≤ 10

/-- A lane's engines as after a reset of its domain: nothing enabled, no section, no frame, no comparison (R126, R155, R201). -/
def laneClear (l : Lane) (s : State) : State :=
  { s with hen := s.hen.setLane l HenSt.reset,
           sld := s.sld.setLane l SldSt.reset,
           rctq := s.rctq.setLane l [],
           lcm := { s.lcm with comp := s.lcm.comp.setLane l CompSt.reset },
           net := { s.net with rct := s.net.rct.setLane l RctSt.reset } }

/-- What a debug session did in a lane ends with a reset of the lane. -/
def dropDiag (l : Lane) (s : State) : State :=
  if s.sec.target == l then { s with sec := { s.sec with halted := false, steps := 0, injected := [], written := [] } } else s

/-- A domain starts: RAMP, its regulator rising to the floor (R360). -/
def startDom (d : Dom) (floor : Nat) (s : State) : State :=
  mapDom d (fun x => { x with band := floor, floor := floor, settle := none, idle := 0 }) (setDom d .ramp s)

/-- Re-admission of a lane starts (R200, R201): automatic, or by a command that waits for it; the lane's domain is reset, from OFF or
TRIPPED through RAMP (R361). -/
def startReadmit (l : Lane) (id : Option Nat) (s : State) : State :=
  let s := note evReadmit l.dom 2 (w32 l.num) (w32 (b2n id.isSome)) 0 s
  let r : Readmit := { step := 3, id := id, shadow := 0, joined := false, since := s.now }
  let s := setCond l .readmission { s with lcm := { s.lcm with readm := s.lcm.readm.setLane l (some r) } }
  let s := dropDiag l (laneClear l s)
  if (s.dom.get l.dom).st == .off || (s.dom.get l.dom).st == .tripped then startDom l.dom 2 s
  else raiseFloor l.dom 2 (setDom l.dom .active s)

/-- The retirements of a lane in the preceding 3 600 s (R200). -/
def recentRetired (s : State) (l : Lane) : List Int := (s.lcm.retired.lane l).filter (fun a => decide (s.now - a < 3600000000000))

/-- A D2 unlock that waited for this lane's retirement takes effect (R395, R396). -/
def openTarget (l : Lane) (s : State) : State :=
  match s.sec.d2 with
  | some (id, m) =>
    if m == l then
      finish id stApplied 2 0 (note evDebugUnlock .aon 4 2 (w32 l.num) 0
        { s with sec := { s.sec with d2 := none, level := 2, target := l } })
    else s
  | none => s

/-- A fail-silent lane is retired (R199): recorded and counted, its domain HELD, LANE_RETIRE and a D2 unlock complete, and after a SOFT
fault re-admission starts within the limit (R200). -/
def retireLane (l : Lane) (s : State) : State :=
  match s.lcm.fault.lane l with
  | none => s
  | some f =>
    let s := note evLaneRetired s.lcm.lead.dom 2 (w32 l.num) (w32 f.check) (w32 (b2n f.hard)) s
    let s := bump ((if f.hard then 0x8C10 else 0x8C0C) + 0x100 * l.num) s
    let recent := recentRetired s l
    let s := { s with lcm := { s.lcm with fault := s.lcm.fault.setLane l none, retired := s.lcm.retired.setLane l (recent ++ [s.now]), uncompRun := 0 } }
    let s := holdDom l.dom (setCond l .retired s)
    let s := mapDom l.dom (fun x => { x with floor := 0 }) (if aonUp s then orderBand l.dom 0 s else s)
    let s := match f.id with | some i => finish i stApplied (roundLo s) 0 s | none => s
    let s := openTarget l s
    if !f.hard && serving s l.other && recent.length < laneRegF s l 0x8000 2 0 then startReadmit l none s else s

/-- The re-admission of a lane ends: recorded with its step, a waiting LANE_READMIT completes CANCELLED with RESULT0 = 0, and the lane is
retired again at once (R201). -/
def readmitEnd (l : Lane) (check : Nat) (hard : Bool) (s : State) : State :=
  match s.lcm.readm.lane l with
  | none => s
  | some r =>
    let s := note evReadmit l.dom 2 (w32 l.num) 3 (w32 r.step) s
    let s := match r.id with | some i => finish i stCancelled 0 0 s | none => s
    let s := { s with lcm := { s.lcm with readm := s.lcm.readm.setLane l none,
                                          fault := s.lcm.fault.setLane l (some { check := check, hard := hard, round := curRound s, id := none }) } }
    retireLane l (setCond l .failSilent s)

/-- A re-admission ended by what is no numbered check (a mismatch, an uncompared tick, SAFEHALT): SOFT; the spec gives the retirement's check
no number, a free value (R201). -/
def readmitBreak (l : Lane) (s : State) : State :=
  if (s.lcm.readm.lane l).isNone then s
  else
    let d := draw s
    readmitEnd l d.1.toNat false d.2

/-- No lane serves: recorded, and SAFEHALT (R198): 0 both lanes located, 1 no lane serving, 2 adoption limit (R434). A re-admission ends. -/
def lanesHaltAs (cause : HaltCause) (why : Nat) (s : State) : State :=
  let s := bothLanes.foldl (fun s l => if s.lcm.cond.lane l == .serving then setCond l .failSilent s else s) s
  let s := bothLanes.foldl (fun s l => readmitBreak l s) s
  enterHalt cause (note evLanesHalt s.lcm.lead.dom 2 (w32 why) 0 0 s)

/-- No lane serves (R198). -/
def lanesHalt (why : Nat) (s : State) : State := lanesHaltAs .lanes why s

/-- What a lane has formed of its tick it releases alone when the other falls silent before their comparison (R193). -/
def releaseAlone (l : Lane) (s : State) : State :=
  let c := s.lcm.comp.lane l
  let o := s.lcm.comp.lane l.other
  if c.dig.isEmpty || c.uncomp || (c.out.isSome && o.out.isSome) then s
  else { s with lcm := { s.lcm with comp := s.lcm.comp.setLane l { c with out := some [], rel := List.range 64 } } }

/-- A located fault of a serving lane, of a stated kind, with the SAFEHALT cause it leads to when no lane serves then and LANE_RETIRE's
completion id (R189, R190, R198, R199): recorded; the lane becomes fail-silent and its retirement is due at step 1 of the second tick
after; the other lane leads. A fault in re-admission ends it (R201). -/
def laneFaultAs (cause : HaltCause) (hard : Bool) (id : Option Nat) (l : Lane) (check detail : Nat) (s : State) : State :=
  match s.lcm.cond.lane l with
  | .serving =>
    let s := soloNote l evLaneFault 2 (w32 l.num) (w32 check) (w32 (b2n hard + 256 * detail)) s
    let other := serving s l.other
    let f : LFault := { check := check, hard := hard, round := curRound s, id := id }
    let c := { (s.lcm.comp.lane l) with rel := [], msgs := [] }
    let s := setCond l .failSilent
      { s with lcm := { s.lcm with fault := s.lcm.fault.setLane l (some f),
                                   comp := s.lcm.comp.setLane l c,
                                   lead := if s.lcm.lead == l && other then l.other else s.lcm.lead } }
    if other then releaseAlone l.other s else lanesHaltAs cause (if s.lcm.cond.lane l.other == .failSilent then 0 else 1) s
  | .readmission =>
    readmitEnd l check (check == 8) (soloNote l evLaneFault 2 (w32 l.num) (w32 check) (w32 (b2n (check == 8) + 256 * detail)) s)
  | _ => s

/-- A located fault of a lane by its check (R189). -/
def laneFault (l : Lane) (check detail : Nat) (s : State) : State := laneFaultAs .lanes (hardCheck check) none l check detail s

/-- Both lanes take a HARD fault, so that no lane serves (R372, R393, R400): the spec gives their check no number, a free value. -/
def bothHard (cause : HaltCause) (s : State) : State :=
  let d := draw s
  let s := bothLanes.foldl (fun s l => laneFaultAs cause true none l d.1.toNat 0 s) d.2
  if s.bsc.power == .safehalt then s else lanesHaltAs cause 1 s

/-- A stored number of a lane that is wrong by an error its residue does not show: a section's count at a tick (R187). -/
def countWrong (l : Lane) (i : Nat) (err : Int) (s : State) : State :=
  let e := s.sld.lane l
  match tget none i e.sects with
  | none => s
  | some x =>
    let v := storedInt l (signed ((storedInt l x.count + err) % 65536).toNat 16)
    { s with sld := s.sld.setLane l { e with sects := tput none i (some { x with count := v }) e.sects } }

/-- A stored number of a lane that is wrong by an error its residue does not show: a noise estimate at a zone sample (R187). -/
def noiseWrong (l : Lane) (h : Nat) (err : Int) (s : State) : State :=
  let e := s.hen.lane l
  match tget none h e.heads with
  | none => s
  | some x => { s with hen := s.hen.setLane l { e with heads := tput none h (some { x with z1 := { x.z1 with nq := ((x.z1.nq : Int) + err).toNat } }) e.heads } }

/-- One check of a lane, by its number: a wrong result is a located fault where its residue shows it, and else stands (R187); wrong numbers of a step show
in the signature at its end (R188, `signStep`); any other check that failed is a located fault (R189). -/
def laneCheck (tick : Bool) (f : CheckFail) (s : State) : State :=
  if f.check = 3 then s
  else if f.check = 1 && f.err != 0 then
    if resFails 0 f.err then laneFault f.lane 1 f.detail s
    else if !laneTakes s f.lane then s
    else if tick then countWrong f.lane f.detail f.err s else noiseWrong f.lane f.detail f.err s
  else laneFault f.lane f.check f.detail s

/-- The checks of a command's work in the lanes. -/
def laneFaults (tick : Bool) (fails : List CheckFail) (s : State) : State := fails.foldl (fun s f => laneCheck tick f s) s

/-- The end of a step in a lane: the step's number n enters both signatures, in the lane's own with what went wrong in it; signatures that differ are a
located fault (R188; the identifiers and numbers are log entry 157). -/
def signStep (fails : List CheckFail) (id : Nat) (l : Lane) (n : Nat) (s : State) : State :=
  if !laneTakes s l then s
  else
    let err := (fails.filter (fun f => f.lane == l && f.check == 3 && f.detail == id)).foldl (fun a f => a + f.err) 0
    let s := signAdd l id n err s
    if signDiffers l s then laneFault l 3 id s else s

/-- A crossing check that failed at a lane, recorded with the link and the line index or round (R403, R434). -/
def laneCross (link : Nat) (x : Word) (l : Lane) (s : State) : State :=
  if laneTakes s l then soloNote l evCrossingFail 2 (w32 link) (w32 l.num) x s else s

/-- The crossing checks of a zone sample that failed, recorded (R403). -/
def zoneCross (n : Int) (fails : List CheckFail) (s : State) : State :=
  (fails.filter (fun f => f.check == 11)).foldl (fun s f => laneCross 0 (lo32 n) f.lane s) s

/-- A command that reaches the lanes: the crossing check that failed in a lane is its SOFT fault, and it does not take the command (R189, R403). -/
def crossFails (c : HostCmd) (s : State) : State :=
  c.cross.foldl (fun s l => laneFault l 11 0 (laneCross 1 (lo32 (curRound s)) l s)) s

/-- Whether a lane takes a command that has crossed to it (R199, R403). -/
def takesCmd (c : HostCmd) (s : State) (l : Lane) : Bool := laneTakes s l && !c.cross.contains l

/-- The H of a lane in ns (R161). -/
def horizon (s : State) (l : Lane) : Int := (laneRegF s l 0x7000 7 0 : Nat) * 1000000

end Sys2Proof.Machine
end

