-- ==== Sys2Proof/Machine/Letters.lean ====
section
/-!
DEFINITION. Machine/Letters.lean: the letter stream of a lane (R265 to R268): which records enter it, and what the legacy bus shows of a head (R278).
-/
namespace Sys2Proof.Machine

/-- A lane's RCT changed. -/
def mapRct (l : Lane) (f : RctSt → RctSt) (s : State) : State :=
  { s with net := { s.net with rct := s.net.rct.setLane l (f (s.net.rct.lane l)) } }

/-- Whether the round ports are polled (R273). -/
def polled (s : State) : Bool := !s.net.ridge && regF s 0x9014 13 12 ≠ 0

/-- Whether the device polls as master (R273). -/
def pollMaster (s : State) : Bool := !s.net.ridge && regF s 0x9014 13 12 = 1

/-- The export entries in use: index and head (R265). -/
def exportList (s : State) : List (Nat × Nat) :=
  match activeBank s with
  | none => []
  | some k => (bankListed s k 0xAA40 0xAB3F).filterMap (fun e => if bitOf e.2 31 then some (e.1 - 0xAA40, fld e.2 12 0) else none)

/-- Whether records enter a lane's stream: its RCT is JOINED, or the round ports are polled (R265, R274). -/
def streams (s : State) (l : Lane) : Bool := polled s || (!s.net.ridge && (s.net.rct.lane l).st == 3)

/-- Whether a lane's stream store is full (R268). -/
def streamFull (s : State) (l : Lane) : Bool := (s.net.rct.lane l).stream.recs.length ≥ 4096

/-- A record that enters a lane's stream (R265). -/
def enterRec (l : Lane) (ws : List Word) (s : State) : State :=
  mapRct l (fun x => { x with stream := { x.stream with recs := x.stream.recs ++ [{ seq := x.stream.next, at_ := s.now, words := ws }],
                                                        next := (x.stream.next + 1) % 4294967296 } }) s

/-- A head event as 16 bytes (R143). -/
def eventWords (e : HEvent) : List Word :=
  [w32 (e.ty * 268435456 + b2n (e.ty = 1 && e.neg) * 134217728 + b2n e.lt * 67108864 + e.zone * 16777216 + min e.pending 63 * 65536 + e.head),
   lo32 e.t, hi32 e.t, halves e.data e.marks]

/-- A head status as a record (R266); a watermark measured in local time keeps its base. -/
def statusWords (s : State) (x : HStatus) : List Word :=
  let w := if x.lt && s.net.joined then x.w - s.net.offset else x.w
  [w32 (15 * 268435456 + x.st * 33554432 + b2n x.on1 * 16777216 + b2n x.on2 * 8388608 + b2n x.span * 4194304 + min x.pend 63 * 65536 + x.head),
   w32 (min x.nOver 63 * 67108864 + b2n x.lt * 33554432), lo32 w, hi32 w]

/-- The events of exported heads in the order formed (R265). -/
def streamEvents (l : Lane) (es : List HEvent) (s : State) : State :=
  if !streams s l || es = [] then s
  else
    let ex := exportList s
    es.foldl (fun s e => if ex.any (fun p => p.2 == e.head) then enterRec l (eventWords e) s else s) s

/-- A status of an exported head: in its rounds, or when it differs from the last that entered (R265). -/
def streamStatus (l : Lane) (x : HStatus) (s : State) : State :=
  if !streams s l then s
  else
    match (exportList s).find? (fun p => p.2 == x.head) with
    | none => s
    | some p =>
      let div := max 1 (laneRegF s l 0x9014 4 0)
      let now := [x.st, b2n x.on1, b2n x.on2, x.pend, x.nOver, b2n x.span]
      let r := (s.net.rct.lane l).stream
      if curRound s % div = p.1 % div || tget none x.head r.last != some now then
        mapRct l (fun y => { y with stream := { y.stream with last := tput none x.head (some now) y.stream.last } })
          (enterRec l (statusWords s x) s)
      else s

/-- The heads that RCT_LBUS names as it stands: address and head (R278). -/
def slaves (s : State) : List (Nat × Nat) :=
  ((List.range 4).map (fun i => (regF s (0x902C + 4 * i) 7 0, regF s (0x902C + 4 * i) 28 16))).filter (fun p => p.1 != 0)

/-- A head the legacy bus shows, changed. -/
def mapSlave (h : Nat) (f : SlaveHead → SlaveHead) (s : State) : State :=
  let x := (tget none h s.net.bus.heads).getD { pos := 0, neg := 0, hist := [], on1 := false, on2 := false }
  { s with net := { s.net with bus := { s.net.bus with heads := tput none h (some (f x)) s.net.bus.heads } } }

/-- The AXLE events of the heads that the legacy bus shows, as the lead lane forms them (R278). -/
def slaveEvents (l : Lane) (es : List HEvent) (s : State) : State :=
  if l != s.lcm.lead || es = [] then s
  else
    let sl := slaves s ++ s.net.bus.shown
    es.foldl (fun s e =>
      if e.ty = 1 && sl.any (fun p => p.2 == e.head) then
        mapSlave e.head (fun x => { x with pos := if e.neg then x.pos else (x.pos + 1) % 256, neg := if e.neg then (x.neg + 1) % 256 else x.neg,
                                           hist := ((e.neg, e.t) :: x.hist).take 4 }) s
      else s) s

/-- The ON flags of the last status of a head that the legacy bus shows (R278). -/
def slaveStatus (l : Lane) (x : HStatus) (s : State) : State :=
  if l == s.lcm.lead && (slaves s ++ s.net.bus.shown).any (fun p => p.2 == x.head) then mapSlave x.head (fun y => { y with on1 := x.on1, on2 := x.on2 }) s else s

end Sys2Proof.Machine
end

