-- ==== Sys2Proof/Machine/Heads.lean ====
section
/-!
DEFINITION. Machine/Heads.lean: the counting heads (06_counting_heads.md) and the port-segment guard (R202, R203).
-/
namespace Sys2Proof.Machine

/-! ## Access -/

/-- A lane's head engine changed. -/
def mapHen (l : Lane) (f : HenSt → HenSt) (s : State) : State := { s with hen := s.hen.setLane l (f (s.hen.lane l)) }

/-- A zone as SETTLING leaves it: envelopes 0, IDLE, nq at its start value (R127, R129, R144). -/
def ZoneSt.settled (p : Profile) (z : ZoneSt) : ZoneSt :=
  { z with env := 0, envF := 0, envL := 0, nq := p.nqInit * 16384, hold := 0, on := false, top := none, topF := none, topL := none,
           marks := 0, outer := false, prevA := none, low := none }

/-- A zone that has seen nothing. -/
def ZoneSt.new (p : Profile) : ZoneSt :=
  ZoneSt.settled p { env := 0, envF := 0, envL := 0, nq := 0, hold := 0, on := false, ma := 0, tOff := 0, startT := 0, startLt := true, lastT := 0,
                     top := none, topF := none, topL := none, marks := 0, doubtStart := false, lastBlind := none, prevA := none,
                     prevB := 0, outer := false, tOn := 0, low := none }

/-- A head just enabled, in SETTLING (R144). -/
def HeadSt.new (p : Profile) : HeadSt :=
  { st := 1, m := 0, z1 := ZoneSt.new p, z2 := ZoneSt.new p, list := [], blindRun := 0, blindT := 0, blindLt := true, span := false, warm := 0, win := 0,
    wBlind := 0, wHigh1 := 0, wHigh2 := 0, wLow := 0, wFault := false, wWhole := false, faulty := 0, clean := 0, slateNext := false,
    seedDue := true, sampled := false, tLast := none, lt := true, dark := false, overdue := 0, sN := 0, sPend := 0, sOver := 0, sOn1 := false,
    sOn2 := false, wPrev := none, evTick := 0, cnt := List.replicate 12 0 }

/-- A head of a lane; an enabled one that is not listed yet is new (R144). Before its first sample its events carry the base of the counters (R143). -/
def headOf (s : State) (l : Lane) (h : Nat) (p : Profile) : HeadSt :=
  let x := (tget none h (s.hen.lane l).heads).getD (HeadSt.new p)
  if x.tLast.isNone then { x with lt := !s.net.joined } else x

/-- A head of a lane stored. -/
def putHead (l : Lane) (h : Nat) (x : HeadSt) (s : State) : State :=
  mapHen l (fun e => { e with heads := tput none h (some x) e.heads }) s

/-- A counter of a head, saturating at 16 bits (R321). -/
def HeadSt.bump (k : Nat) (x : HeadSt) : HeadSt := { x with cnt := setNth x.cnt k (satAdd 16 (nth 0 x.cnt k) 1) }

/-! ## Head events (R143) -/

/-- OR of the event marks that a head's state and port give (R143, R147). -/
def stateMarks (r : HeadRec) (st : Nat) : Nat := (if st = 1 then 64 else 0) + (if st = 3 then 128 else 0) + (if r.port = 2 then 512 else 0)

/-- The work of one lane on one head at one sample or command: the head, the events it forms, and what a sweep sees beside them (R223): 0 peak
margins, 1 valleys, 2 lags of a known sense, 3 unknown senses, 4 glitches. -/
structure HWork where
  x : HeadSt
  out : List HEvent
  obs : List (Nat × Nat) := []
deriving DecidableEq, Repr

/-- An event formed. -/
def HWork.ev (r : HeadRec) (h ty zone : Nat) (neg : Bool) (t : Int) (lt : Bool) (data marks : Nat) (w : HWork) : HWork :=
  { obs := w.obs, x := { w.x with evTick := w.x.evTick + 1 },
    out := w.out ++ [{ ty := ty, neg := neg, lt := lt, zone := zone, pending := w.x.list.length, head := h, t := t, data := data,
                       marks := marks ||| stateMarks r w.x.st, rst := none }] }

/-- FLUSH: the list emptied, with the number of entries removed or 63 (R141, R146). -/
def HWork.flush (r : HeadRec) (h : Nat) (t : Int) (data : Option Nat) (w : HWork) : HWork :=
  let n := w.x.list.length
  HWork.ev r h 8 0 false t w.x.lt (data.getD n) 0 { w with x := { w.x with list := [], overdue := 0 } }

/-- A change of head state (R144, R146): into FAILED it flushes first and opens a span, which counts as a blind span (DEDUCED, log entry 160); out of FAILED the span closes. STATE and FLUSH carry ZONE 0, a
span's events ZONE 3 (DESIGN CHOICE, log entry 142). -/
def HWork.goto (r : HeadRec) (p : Profile) (h new cause : Nat) (t : Int) (data : Option Nat) (w : HWork) : HWork :=
  let old := w.x.st
  let w := if new = 4 && old != 4 then
      let w := HWork.flush r h t data w
      let w := if w.x.span then w else HWork.ev r h 5 3 false t w.x.lt 0 0 { w with x := w.x.bump 9 }
      { w with x := { w.x with span := true, z1 := { w.x.z1 with on := false, outer := false }, z2 := { w.x.z2 with on := false, outer := false },
                               wWhole := decide (w.x.win = 0), faulty := 0, clean := 0 } }
    else w
  let w := if old = 4 && new != 4 && w.x.span then
      { (HWork.ev r h 6 3 false t w.x.lt 0 0 w) with x := { (HWork.ev r h 6 3 false t w.x.lt 0 0 w).x with span := false, blindRun := 0 } }
    else w
  let x := { w.x with st := new }
  let x := if new = 1 then
      { x with z1 := x.z1.settled p, z2 := x.z2.settled p, warm := 0, win := 0, wBlind := 0, wHigh1 := 0, wHigh2 := 0, wLow := 0,
               wFault := false, wWhole := false, faulty := 0, clean := 0, seedDue := cause ≤ 1, sampled := false, slateNext := false }
    else if new = 3 then { x with clean := 0, faulty := 0 } else x
  HWork.ev r h 7 0 false t x.lt (8192 * new + 256 * cause) 0 { w with x := x }

/-- What HEAD_STATE records of a STATE event: codes, state, old state, cause (R434). -/
def stateWord (new old cause : Nat) : Word := w32 (new + 16 * old + 256 * cause)

/-- A sweep record of nothing. -/
def SweepRec.new : SweepRec :=
  { pos := 0, neg := 0, doubt := 0, odd := 0, margin := none, valley := none, lag := none, unknown := 0, first := none, vmin := none,
    vmax := none }

/-- One head event entered in a sweep record (R223). -/
def SweepRec.event (e : HEvent) (r : SweepRec) : SweepRec :=
  if e.ty = 1 then
    { r with pos := r.pos + b2n (!e.neg), neg := r.neg + b2n e.neg, doubt := r.doubt + b2n ((e.marks &&& 334) != 0),
             first := some (r.first.getD e.t), vmin := some (min (r.vmin.getD e.data) e.data), vmax := some (max (r.vmax.getD e.data) e.data) }
  else { r with odd := r.odd + b2n (2 ≤ e.ty && e.ty ≤ 4) }

/-- One further observation entered in a sweep record (R223). -/
def SweepRec.see (o : Nat × Nat) (r : SweepRec) : SweepRec :=
  match o.1 with
  | 0 => { r with margin := some (min (r.margin.getD o.2) o.2) }
  | 1 => { r with valley := some (max (r.valley.getD o.2) o.2) }
  | 2 => { r with lag := some (min (r.lag.getD o.2) o.2) }
  | 3 => { r with unknown := r.unknown + 1 }
  | _ => { r with odd := r.odd + 1 }

/-- What a head's work in the lead lane adds to a running sweep (R222, R223). -/
def sweepWork (l : Lane) (h : Nat) (w : HWork) (s : State) : State :=
  match s.cal.sweep with
  | none => s
  | some x =>
    if l != s.lcm.lead || h < x.first || h ≥ x.first + x.count || s.now > x.endAt then s
    else
      let r := (tget none h x.recs).getD SweepRec.new
      let r := w.obs.foldl (fun r o => r.see o) (w.out.foldl (fun r e => r.event e) r)
      { s with cal := { s.cal with sweep := some { x with recs := tput none h (some r) x.recs } } }

/-- The events among the first entries of a queue; the event queue holds 4 096 of them, and those beyond wait in the HEN, which takes no further
tokens meanwhile (R149). -/
def queueFill (q : List HItem) : Nat := min 4096 (q.filter (fun i => match i with | .ev _ _ => true | .status _ _ => false)).length

/-- The highest fill and the BURST episode of a lane's event queue (R149, R459). -/
def queueWatch (l : Lane) (s : State) : State :=
  let e := s.hen.lane l
  let n := queueFill e.queue
  let o := 0x6C00 + 0x100 * l.num
  let s := bumpMax (o + 4) n s
  if n > 3072 && !e.burst then soloNote l evBurst 0 (w32 l.num) (w32 n) 0 (bump o (mapHen l (fun e => { e with burst := true }) s))
  else if n = 0 && e.burst then mapHen l (fun e => { e with burst := false }) s
  else s

/-- Events put to a lane's queue, and to the streams and poll counts that show them (R149, R265, R278). -/
def queueEvents (l : Lane) (out : List HEvent) (s : State) : State :=
  slaveEvents l out (streamEvents l out (queueWatch l (mapHen l (fun e => { e with queue := e.queue ++ out.map (HItem.ev none) }) s)))

/-- A lane's work on a head kept: its events to the queue, its state changes recorded (R146, R149, R434). -/
def keepWork (l : Lane) (h : Nat) (old : Nat) (w : HWork) (s : State) : State :=
  let s := putHead l h w.x (sweepWork l h w s)
  let s := queueEvents l w.out s
  (w.out.foldl (fun (a : State × Nat) e =>
    if e.ty = 7 then
      let new := e.data / 8192
      (laneNote l (if new = 4 then evHeadFailed else evHeadState) 0 (w32 h) (stateWord new a.2 (e.data / 256 % 32)) 0 a.1, new)
    else a) (s, old)).1

/-! ## Zone samples (R127, R128) -/

/-- A zone sample (R127). -/
structure ZSamp where
  r : Int
  rF : Int
  rL : Int
  q : Nat
  m : Nat
  blind : Bool
  t : Int
deriving DecidableEq, Repr

/-- The head-branch output of a bin; a bin without one enters as 0, quality 0, UNSETTLED (R127). -/
def binOut (z : ZPoint) (b : Nat) : Samp :=
  ((z.outs.find? (fun o => o.bin == b)).map (·.s)).getD { v := 0, q := 0, m := 2 ^ mkUnset }

/-- The zone sample of a zone (R127, R128). -/
def zoneSamp (field : Bool) (z : ZPoint) (b w : Nat) : ZSamp :=
  let o := (span b w).map (binOut z)
  let abs := fun (x : Samp) => if x.v < 0 then -x.v else x.v
  let m := orMarks o
  let sk := if field then ((z.offs.find? (fun e => e.1 == b)).map (·.2)).getD 0 else z.toff + 20 * (b : Nat) + 100
  { r := rnd (isum (o.map abs)) (w : Nat), rF := abs (o.headD { v := 0, q := 0, m := 0 }),
    rL := abs (o.getLastD { v := 0, q := 0, m := 0 }), q := o.foldl (fun q x => min q x.q) 255, m := m,
    blind := has m mkUnset || has m mkMissed || has m mkOver || o.all (fun x => has x.m mkHole),
    t := z.thb + sk + 10 * ((w : Int) - 1) }

/-! ## The zone detector (R129 to R134) -/

/-- A peak (R132 to R134): time, base, decision time, sense (1, -1, 0), marks, what a sweep sees of it. -/
structure Peak where
  t : Int
  lt : Bool
  dec : Int
  sense : Int
  marks : Nat
  obs : List (Nat × Nat)
deriving DecidableEq, Repr

/-- What a zone's sample brings: nothing, a run begun with the valley since the run before (R223), a glitch, a fibre peak, a legacy run closed (first
sample, peak without a sense), or a run stopped at MAX_ON with the time and base of its first sample. -/
inductive ZRes
  | nothing | glitch
  | began (valley : Nat)
  | peak (p : Peak)
  | run (a : Nat) (p : Peak)
  | stuck (t : Int) (lt : Bool)
deriving DecidableEq, Repr

/-- frac() of R132. -/
def frac (em e0 ep : Int) : Int :=
  if em > e0 || ep > e0 then 0
  else
    let c := 2 * (2 * e0 - em - ep)
    if c = 0 then 0 else rnd (256 * (ep - em)) c

/-- The maximum of an envelope after one more sample of the run (R132). -/
def trackStep (m : Nat) (e prev t : Int) (blind : Bool) (tr : Option ZTrack) : Option ZTrack :=
  let new : ZTrack := { m := m, e := e, em := prev, ep := none, t := t, blind := blind }
  match tr with
  | none => some new
  | some x => if e > x.e then some new else if x.ep.isNone then some { x with ep := some e } else some x

/-- The neighbour after a maximum, taken at the closing sample when it was the last of the run. -/
def trackEnd (e : Int) (tr : Option ZTrack) : ZTrack :=
  match tr with
  | none => { m := 0, e := 0, em := 0, ep := some e, t := 0, blind := true }
  | some x => if x.ep.isNone then { x with ep := some e } else x

/-- The fraction of a finished maximum. -/
def trackFrac (x : ZTrack) : Int := frac x.em x.e (x.ep.getD 0)

/-- The noise tracker (R129). -/
def trackNoise (shift : Nat) (env : Int) (nq : Nat) : Nat :=
  let dq := max 1 (nq / 2 ^ shift)
  if env * 256 > (nq : Int) then min (nq + 9 * dq) 2147483647 else max (nq - dq) 256

/-- The thresholds of a zone at a sample (R130). -/
def thresholds (legacy : Bool) (p : Profile) (nq : Nat) : Int × Int :=
  if legacy then (((p.tmin * 64 : Nat) : Int), ((p.toff * 64 : Nat) : Int))
  else
    let on := max ((p.tmin * 64 : Nat) : Int) (rne ((nq * p.kon : Nat) : Int) 12)
    (on, rnd (on * (p.koff : Nat)) (p.kon : Nat))

/-- SAT and MINPHASE of a zone sample as event mark bits (R134, R143). -/
def peakMarks (m : Nat) : Nat := (if has m mkMinp then 16 else 0) + (if has m mkSat then 32 else 0)

/-- A ratio of two envelopes in UQ8.8, saturating (R223). -/
def ratio (a b : Int) : Nat := (satu (rnd (256 * a) b) 16).toNat

/-- One sample through a zone (R127, R129 to R134, R147). A legacy run across the join has the midpoint of its two instants as they stand (DESIGN CHOICE, log
entry 147). -/
def zoneStep (legacy : Bool) (p : Profile) (w : Nat) (pd : Int) (lt : Bool) (m : Nat) (x : ZSamp) (z : ZoneSt) : ZRes × ZoneSt :=
  let env := z.env + rne (x.r - z.env) p.envShift
  let envF := z.envF + rne (x.rF - z.envF) p.envShift
  let envL := z.envL + rne (x.rL - z.envL) p.envShift
  let th := thresholds legacy p z.nq
  let lastBlind := if x.blind then some m else z.lastBlind
  let dEnv := (p2 p.envShift - 1) * pd
  let base := { z with env := env, envF := envF, envL := envL, lastBlind := lastBlind, hold := z.hold - 1, low := z.low.map (min env) }
  if !z.on then
    if env ≥ th.1 then
      ((match z.low with | some v => ZRes.began (ratio v th.2) | none => .nothing),
       { base with on := true, ma := m, tOff := th.2, tOn := th.1, low := none, startT := x.t, startLt := lt, lastT := x.t, marks := peakMarks x.m, outer := false,
                             top := trackStep m env z.env x.t x.blind none, topF := trackStep m envF z.envF x.t x.blind none,
                             topL := trackStep m envL z.envL x.t x.blind none,
                             doubtStart := lastBlind.any (fun b => decide (b + 8 ≥ m)) })
    else (.nothing, { base with nq := if z.hold = 0 then trackNoise p.ntShift env z.nq else z.nq })
  else
    let marks := z.marks ||| peakMarks x.m
    if env < z.tOff then
      let closed := { base with on := false, hold := p.hold, prevA := some z.ma, prevB := m, low := some env }
      if m - z.ma < p.minOn then (.glitch, closed)
      else
        let a := trackEnd env z.top
        let f := trackEnd envF z.topF
        let b := trackEnd envL z.topL
        let lag := 256 * ((b.m : Int) - (f.m : Int)) + (trackFrac b - trackFrac f)
        let sense : Int :=
          if w = 1 || f.blind || b.blind || p.lagMin = 0 then 0
          else if lag ≥ (p.lagMin : Nat) then 1 else if lag ≤ -((p.lagMin : Nat) : Int) then -1 else 0
        let doubt := z.doubtStart || lastBlind.any (fun k => decide (k + 1 ≥ a.m))
        let mk := marks + (if doubt then 8 else 0)
        let ob := (0, ratio a.e z.tOn) :: (if sense = 0 then [(3, 0)] else [(2, (satu (if lag < 0 then -lag else lag) 16).toNat)])
        if legacy then
          (.run z.ma { t := rnd (z.startT + z.lastT) 2 - dEnv, lt := lt, dec := x.t, sense := 0, marks := mk, obs := ob.take 1 }, closed)
        else
          (.peak { t := a.t + rnd (trackFrac a * pd) 256 - dEnv, lt := lt, dec := x.t, sense := sense, marks := mk, obs := ob }, closed)
    else if !legacy && m - z.ma + 1 ≥ p.maxOn then
      (.stuck z.startT z.startLt, { base with on := false, hold := p.hold, nq := (min (env * 256) 2147483647).toNat, prevA := some z.ma, prevB := m, low := some env })
    else
      (.nothing, { base with marks := marks, lastT := x.t, top := trackStep m env z.env x.t x.blind z.top,
                             topF := trackStep m envF z.envF x.t x.blind z.topF, topL := trackStep m envL z.envL x.t x.blind z.topL })

/-! ## The matcher (R137 to R142, R148) -/

/-- The bin length in µm (R39). -/
def lbinUm (s : State) (r : HeadRec) : Int :=
  rnd 29979245800 (((s.stg.port (if r.port = 1 then .p1 else .p0)).ng : Nat) : Int)

/-- sep_um, dt_min and dt_max of a head without MINPHASE (R139). -/
def headTimes (lbin : Int) (r : HeadRec) (p : Profile) : Int × Int × Int :=
  let s2 : Int := 2 * (r.z2 : Int) + (r.w2 : Nat) - (2 * (r.z1 : Int) + (r.w1 : Nat))
  let sep := if r.port = 2 then ((p.legSep * 1000 : Nat) : Int) else rne (s2 * lbin) 1
  let k := sep * 36000
  (k, rnd k (r.vmax : Nat), rnd k (r.vmin : Nat))

/-- The AXLE that a peak forms with an entry (R139). -/
def axleOf (r : HeadRec) (h : Nat) (tm : Int × Int × Int) (z : Nat) (inferred : Bool) (pk : Peak) (e : Entry) (w : HWork) : HWork :=
  let mk := (pk.marks ||| e.marks)
  let minp := has mk 4
  let lo := if minp then rnd (3 * tm.2.1) 4 else tm.2.1
  let hi := if minp then rnd (5 * tm.2.2) 4 else tm.2.2
  let dt := pk.t - e.t
  let mix := pk.lt != e.lt
  let v : Int := if mix then 0 else if dt > 0 then satu (rnd tm.1 dt) 16 else 65535
  let mk := mk + (if inferred then 4 else 0) + (if mix then 256 else if dt < lo then 2 else 0) + (if !mix && dt > hi then 1 else 0)
  HWork.ev r h 1 3 (z == 1) pk.dec pk.lt v.toNat mk { w with x := w.x.bump (if z = 1 then 4 else 3) }

/-- An immediate fault of a head (R145): 6 UNMATCHED, 7 OVERFLOW, 8 STUCK. -/
def immediate (r : HeadRec) (p : Profile) (h cause : Nat) (t : Int) (w : HWork) : HWork :=
  let w := { w with x := { w.x with wFault := true } }
  if w.x.st = 2 then HWork.goto r p h 3 cause t none w else w

/-- A peak appended at its zone's end of the list, or OVERFLOW at 32 entries (R137, R142). -/
def appendPeak (r : HeadRec) (p : Profile) (h z : Nat) (pk : Peak) (w : HWork) : HWork :=
  if w.x.list.length ≥ 32 then
    immediate r p h 7 pk.dec (HWork.ev r h 4 z false pk.dec pk.lt 0 pk.marks { w with x := w.x.bump 7 })
  else
    let e : Entry := { origin := z, t := pk.t, lt := pk.lt, marks := pk.marks }
    { w with x := { w.x with list := if z = 1 then e :: w.x.list else w.x.list ++ [e] } }

/-- The entry at a zone's end of the list (R137). -/
def endEntry (z : Nat) (l : List Entry) : Option Entry := if z = 1 then l.head? else l.getLast?

/-- The list without the entry at a zone's end. -/
def dropEnd (z : Nat) (l : List Entry) : List Entry := if z = 1 then l.drop 1 else l.dropLast

/-- A peak of zone z applied ("Matcher rules", R137). -/
def applyPeak (r : HeadRec) (p : Profile) (h : Nat) (tm : Int × Int × Int) (z : Nat) (pk : Peak) (w : HWork) : HWork :=
  let w := { w with x := w.x.bump (z - 1), obs := w.obs ++ pk.obs }
  let toward := (z = 1 && pk.sense = 1) || (z = 2 && pk.sense = -1)
  let e := endEntry z w.x.list
  let off := { w with x := { w.x with list := dropEnd z w.x.list } }
  if pk.sense = 0 then
    match e with
    | some e => if e.origin ≠ z then axleOf r h tm z true pk e off else appendPeak r p h z pk w
    | none => appendPeak r p h z pk w
  else if toward then appendPeak r p h z pk w
  else
    match e with
    | some e =>
      if e.origin ≠ z then axleOf r h tm z false pk e off
      else HWork.ev r h 2 z false pk.dec pk.lt 0 (pk.marks ||| e.marks) { off with x := off.x.bump 5 }
    | none => immediate r p h 6 pk.dec (HWork.ev r h 3 z false pk.dec pk.lt 0 pk.marks { w with x := w.x.bump 6 })

/-- The sense of a closed legacy run X of zone z against the other zone Y after this sample ("Legacy run sense", R148): none when X forms
no peak, with whether it is nested in Y; X as the outer run of a nested pair gives ROCK. -/
inductive LegRun
  | sense (v : Int) | nested | rock
deriving DecidableEq, Repr

/-- The row of R148 that applies. -/
def legacySense (z m a : Nat) (x y : ZoneSt) : LegRun :=
  let dir : Int := if z = 2 then 1 else -1
  if !y.on && y.prevA.isSome && y.prevB = m then .sense 0
  else if y.on && y.ma < a then .nested
  else if !y.on && y.prevA.any (fun b => decide (b < a)) && y.prevB > a then .sense dir
  else if y.on && a < y.ma then .sense (-dir)
  else if x.outer then .rock
  else .sense 0

/-- A zone's result applied (R131, R136 to R138, R148). -/
def applyRes (r : HeadRec) (p : Profile) (h : Nat) (tm : Int × Int × Int) (z : Nat) (t : Int) (wasOuter : Bool) (res : ZRes) (w : HWork) : HWork :=
  let zs := fun (x : HeadSt) => if z = 1 then x.z1 else x.z2
  let zo := fun (x : HeadSt) => if z = 1 then x.z2 else x.z1
  match res with
  | .nothing => w
  | .began v => { w with obs := w.obs ++ [(1, v)] }
  | .glitch => { w with x := w.x.bump 2, obs := w.obs ++ [(4, 0)] }
  | .peak pk => applyPeak r p h tm z pk w
  | .run a pk =>
    match legacySense z w.x.m a { zs w.x with outer := wasOuter } (zo w.x) with
    | .sense v => applyPeak r p h tm z { pk with sense := v, obs := pk.obs ++ (if v = 0 then [(3, 0)] else []) } w
    | .nested => { w with x := if z = 1 then { w.x with z2 := { w.x.z2 with outer := true } } else { w.x with z1 := { w.x.z1 with outer := true } } }
    | .rock => HWork.ev r h 2 z false pk.dec pk.lt 0 pk.marks { w with x := w.x.bump 5 }
  | .stuck t0 lt0 =>
    let w := { w with x := w.x.bump 8 }
    let w := if w.x.span then w
      else HWork.ev r h 6 z false t w.x.lt 0 1024 (HWork.ev r h 5 z false t0 lt0 0 1024 w)
    immediate r p h 8 t w

/-! ## Blind spans and supervision (R136, R144, R145) -/

/-- The blind run of a head at a sample (R136). -/
def blindStep (r : HeadRec) (p : Profile) (h : Nat) (t : Int) (blind : Bool) (w : HWork) : HWork :=
  if blind then
    let x := { w.x with blindRun := w.x.blindRun + 1, blindT := if w.x.blindRun = 0 then t else w.x.blindT,
                        blindLt := if w.x.blindRun = 0 then w.x.lt else w.x.blindLt }
    if x.blindRun ≥ p.blindMin && !x.span then
      let w := HWork.ev r h 5 3 false x.blindT x.blindLt 0 0 { w with x := (x.bump 9) }
      { w with x := { w.x with span := true } }
    else { w with x := x }
  else if w.x.span then
    let w := HWork.ev r h 6 3 false t w.x.lt 0 0 w
    { w with x := { w.x with span := false, blindRun := 0 } }
  else { w with x := { w.x with blindRun := 0 } }

/-- The counts of the supervision window at a sample (R145). -/
def windowCount (legacy : Bool) (p : Profile) (blind : Bool) (q1 q2 : Nat) (x : HeadSt) : HeadSt :=
  let high := fun (nq : Nat) => b2n (!legacy && nq > p.nqCeil * 16384)
  { x with win := x.win + 1, wBlind := x.wBlind + b2n blind, wHigh1 := x.wHigh1 + high x.z1.nq, wHigh2 := x.wHigh2 + high x.z2.nq,
           wLow := x.wLow + b2n (q1 < p.qh) + b2n (q2 < p.qh) }

/-- A head that enters FAILED at a window's end: the next window is a whole one (R144). -/
def failWindow (r : HeadRec) (p : Profile) (h cause : Nat) (t : Int) (w : HWork) : HWork :=
  let w := HWork.goto r p h 4 cause t none w
  { w with x := { w.x with wWhole := true } }

/-- The end of a supervision window (R144, R145). -/
def windowEnd (r : HeadRec) (p : Profile) (h : Nat) (runs lost : Bool) (t : Int) (w : HWork) : HWork :=
  if w.x.win < 1024 then w
  else
    let x := w.x
    let allBlind := x.wBlind = 1024
    let bad := x.wBlind > p.blindLim || x.wHigh1 = 1024 || x.wHigh2 = 1024 || x.wLow > 512 || x.wFault
    let y := { x with win := 0, wBlind := 0, wHigh1 := 0, wHigh2 := 0, wLow := 0, wFault := false, wWhole := x.st = 4 }
    let y := if bad && x.st != 4 then y.bump 10 else y
    let w := { w with x := y }
    if x.st = 4 then (if x.wWhole && x.wBlind = 0 && runs && !lost then HWork.goto r p h 1 9 t none w else w)
    else if allBlind then failWindow r p h 4 t w
    else if bad then
      let w := if x.st = 2 then HWork.goto r p h 3 5 t none w else w
      if w.x.st = 3 then
        let w := { w with x := { w.x with faulty := w.x.faulty + 1, clean := 0 } }
        if w.x.faulty ≥ p.failWin then failWindow r p h 5 t w else w
      else w
    else if x.st = 3 then
      let w := { w with x := { w.x with faulty := 0, clean := w.x.clean + 1 } }
      if w.x.clean ≥ p.recWin then HWork.goto r p h 2 9 t none w else w
    else w

/-- WARM clean samples end SETTLING (R144). -/
def warmStep (r : HeadRec) (p : Profile) (h : Nat) (blind : Bool) (t : Int) (w : HWork) : HWork :=
  if w.x.st = 1 then
    let n := if blind then 0 else w.x.warm + 1
    let w := { w with x := { w.x with warm := n } }
    if n ≥ p.warm then HWork.goto r p h 2 9 t none w else w
  else w

/-- What a head sample is taken under: the points of its zones, times, the port's running and loss, the seeds of both zones. -/
structure HCtx where
  a : ZSamp
  b : ZSamp
  lt : Bool
  pd : Int
  tm : Int × Int × Int
  runs : Bool
  lost : Bool
  seed : Option (Nat × Nat)
deriving DecidableEq, Repr

/-- The last blind samples of a head's zones, as a sample that no detector takes leaves them (R128, R134). -/
def HeadSt.seeBlind (c : HCtx) (x : HeadSt) : HeadSt :=
  { x with z1 := { x.z1 with lastBlind := if c.a.blind then some x.m else x.z1.lastBlind },
           z2 := { x.z2 with lastBlind := if c.b.blind then some x.m else x.z2.lastBlind } }

/-- One head sample of one head in one lane (R127 to R148). A head that a slate failure left FAILED leaves it at this sample, unless its domain or segment
is lost: it then stays FAILED and its whole windows count (R202, R210; DEDUCED, log entry 144). -/
def headSample (r : HeadRec) (p : Profile) (h : Nat) (c : HCtx) (x : HeadSt) : HWork :=
  let legacy := r.port == 2
  let t := min c.a.t c.b.t
  let blind := c.a.blind || c.b.blind
  let x := { x with m := x.m + 1, tLast := some t, lt := c.lt, sN := x.sN + 1 }
  if x.st = 4 then
    let w : HWork := { x := { (x.seeBlind c) with win := x.win + 1, wBlind := x.wBlind + b2n blind, slateNext := false }, out := [] }
    if x.slateNext && !c.lost then
      let w := HWork.goto r p h 1 9 t none w
      blindStep r p h t blind { w with x := { w.x with sampled := true } }
    else windowEnd r p h c.runs c.lost t w
  else
    let seeded := fun (k : Nat) (z : ZoneSt) => if k = 0 then z else { z with nq := k * 16384 }
    let x := if x.seedDue then
        (match c.seed with
         | some sd => { x with seedDue := false, z1 := seeded sd.1 x.z1, z2 := seeded sd.2 x.z2 }
         | none => { x with seedDue := false })
      else x
    let x := { x with sampled := true }
    let w := blindStep r p h t blind { x := x, out := [] }
    let o1 := w.x.z1.outer
    let o2 := w.x.z2.outer
    let s1 := zoneStep legacy p r.w1 c.pd c.lt w.x.m c.a w.x.z1
    let s2 := zoneStep legacy p r.w2 c.pd c.lt w.x.m c.b w.x.z2
    let w := { w with x := { w.x with z1 := s1.2, z2 := s2.2 } }
    let w := applyRes r p h c.tm 2 c.b.t o2 s2.1 (applyRes r p h c.tm 1 c.a.t o1 s1.1 w)
    let w := { w with x := windowCount legacy p blind c.a.q c.b.q w.x }
    let w := windowEnd r p h c.runs c.lost t (warmStep r p h blind t w)
    let nOver := (w.x.list.filter (fun e => decide (t - e.t > c.tm.2.2))).length
    { w with x := { w.x with sPend := max w.x.sPend w.x.list.length, overdue := nOver, sOver := max w.x.sOver nOver,
                             sOn1 := w.x.sOn1 || w.x.z1.on, sOn2 := w.x.sOn2 || w.x.z2.on } }

/-! ## Seeds (R224, R225) -/

/-- The seed plan digest of a port (R224). -/
def seedDigest (s : State) (p : Port) : Word :=
  match (s.stg.port p).plan with
  | none => 0
  | some q =>
    let i := portFch p
    let o := fchOff i + (if (fchOf s i).bankB then 0x200 else 0x100)
    let bank := crc32cWords ((List.range 54).map (fun k => reg s (o + 4 * k)))
    crc32cWords [w32 q.b0, w32 q.nbins, w32 (q.ts / 20), w32 (65536 * q.groups + 256 * q.div + q.slotBase), w32 q.gauge, w32 q.decim, bank]

/-- The seeds of a head when the seed area stands (R225). -/
def seedsOf (s : State) (h : Nat) (r : HeadRec) : Option (Nat × Nat) :=
  let p := if r.port = 1 then Port.p1 else .p0
  if r.port ≠ 2 && topoWord s 0xBFC0 = 0x53454544 && topoWord s 0xBFC3 = s.pst.genActive && topoWord s (0xBFC1 + r.port) = seedDigest s p then
    some (fld (topoWord s (0xC000 + h)) 15 0, fld (topoWord s (0xC000 + h)) 31 16)
  else none

/-! ## Chainage (R213) -/

/-- The chainage of a label position in 1/16 bin (R213). -/
def chainAt (ks : List (Nat × Int)) (x : Int) : Int :=
  match ks with
  | [] => -2147483648
  | (p0, c0) :: _ =>
    if x < (p0 : Nat) then -2147483648
    else
      let rec go : List (Nat × Int) → Nat → Int → Int
        | [], p, c => if x = (p : Nat) then c else -2147483648
        | (p', c') :: r, p, c => if x < (p' : Nat) then c + rnd ((x - (p : Nat)) * (c' - c)) (((p' : Int) - (p : Int))) else go r p' c'
      go (ks.drop 1) p0 c0

/-- The chainage of bin b of a port (R213). -/
def chainBin (s : State) (p b : Nat) : Word := w32i (chainAt (knotsIn s ((activeBank s).getD .a) p) (16 * (b : Nat)))

/-- The chainage of a head (R213). -/
def chainHead (s : State) (h : Nat) (r : HeadRec) : Word :=
  let k := (activeBank s).getD .a
  if r.port = 2 then w32i (((legacyChainIn s k).find? (fun e => e.1 == h)).map (·.2) |>.getD (-2147483648))
  else w32i (chainAt (knotsIn s k r.port) (4 * (2 * (r.z1 : Int) + (r.w1 : Nat) - 1 + 2 * (r.z2 : Int) + (r.w2 : Nat) - 1)))

/-! ## The segment guard (R202, R203) -/

/-- The BRK register of a port as a lane holds it. -/
def brk (s : State) (l : Lane) (p : Nat) (hi lo : Nat) : Nat := laneRegF s l (0x6000 + 4 * p) hi lo

/-- Whether a head's sample is dark (R202). -/
def darkHead (s : State) (l : Lane) (z : ZPoint) (r : HeadRec) : Bool :=
  (zoneSamp false z r.z1 r.w1).q < brk s l r.port 15 8 && (zoneSamp false z r.z2 r.w2).q < brk s l r.port 15 8

/-- The break bin, if the break condition holds (R202). -/
def breakBin (s : State) (l : Lane) (z : ZPoint) (p : Nat) (hs : List (Nat × HeadRec)) : Option Nat :=
  let lit := (hs.filter (fun e => !darkHead s l z e.2)).map (·.2.z1)
  let dark := hs.filter (fun e => darkHead s l z e.2 && lit.all (fun b => b < e.2.z1))
  if dark.length ≥ max 1 (brk s l p 20 16) then some ((dark.map (·.2.z1)).foldl min ((dark.map (·.2.z1)).headD 0)) else none

/-- The segment of a port in a lane. -/
def segOf (s : State) (l : Lane) (p : Nat) : Option Segment := if p = 1 then (s.hen.lane l).segs.b else (s.hen.lane l).segs.a

/-- A port's segment set in a lane. -/
def setSeg (l : Lane) (p : Nat) (v : Option Segment) (s : State) : State :=
  mapHen l (fun e => { e with segs := if p = 1 then { e.segs with b := v } else { e.segs with a := v } }) s

/-- Whether a head's domain counts as lost: its domain is not ACTIVE, or its segment is retired (R144, R202). -/
def headLost (s : State) (l : Lane) (r : HeadRec) : Bool :=
  if r.port = 2 then !active s .field
  else !active s (if r.port = 1 then Dom.port1 else .port0) || (segOf s l r.port).any (fun g => decide (g.bk ≤ r.z1))

/-- A segment retired from b_k on: recorded, its heads FAILED with cause 2 (R202). -/
def retireSegment (l : Lane) (p bk : Nat) (z : ZPoint) (hs : List (Nat × HeadRec)) (s : State) : State :=
  let s := laneNote l evSegmentRetired 0 (w32 p) (w32 bk) (chainBin s p bk) (setSeg l p (some { bk := bk, clean := 0 }) s)
  (hs.filter (fun e => decide (e.2.z1 ≥ bk))).foldl (fun s e =>
    let pr := profile s e.2.profile
    let x := headOf s l e.1 pr
    if x.st = 4 then s
    else
      let t := min (zoneSamp false z e.2.z1 e.2.w1).t (zoneSamp false z e.2.z2 e.2.w2).t
      keepWork l e.1 x.st (HWork.goto e.2 pr e.1 4 2 t none { x := x, out := [] }) s) s

/-- The guard of a port at a head sample in one lane (R202, R203). -/
def guard (l : Lane) (p : Nat) (z : ZPoint) (hs : List (Nat × HeadRec)) (conv any : Bool) (s : State) : State :=
  let en := bitOf (laneReg s l (0x6000 + 4 * p)) 0
  let bk := if !en then none
    else if conv && bitOf (laneReg s l (0x6000 + 4 * p)) 1 then some 0 else breakBin s l z p hs
  let cur := segOf s l p
  let extend := match bk, cur with
    | some b, some g => decide (b < g.bk)
    | some _, none => true
    | none, _ => false
  if extend then retireSegment l p (bk.getD 0) z hs s
  else
    match cur with
    | none => s
    | some g =>
      let bad := any || hs.any (fun e => decide (e.2.z1 ≥ g.bk) && darkHead s l z e.2)
      let n := if bad then 0 else g.clean + 1
      if n ≥ 1024 then laneNote l evSegmentRestored 0 (w32 p) (w32 g.bk) (chainBin s p g.bk) (setSeg l p none s)
      else setSeg l p (some { g with clean := n }) s

/-! ## Meanings -/

/-- A head's slate fails in one lane: FLUSH with 63, FAILED with cause 3, SETTLING at the next sample (R146). A head that is FAILED already gives the
FLUSH only. -/
def headSlateFail (l : Lane) (h : Nat) (s : State) : State :=
  match headRec s h with
  | none => s
  | some r =>
    let pr := profile s r.profile
    let x := headOf s l h pr
    let t := x.tLast.getD s.now
    let w0 : HWork := { x := x, out := [] }
    let w := if x.st = 4 then HWork.flush r h t (some 63) w0 else HWork.goto r pr h 4 3 t (some 63) w0
    keepWork l h x.st { w with x := { w.x with slateNext := true } } s

/-- A physical slate of a lane's partition fails its check at a fetch: a located fault; of a head's slate also that head's failure (R18, R146, R186, R189). -/
def laneSlateFail (l : Lane) (phys : Nat) (s : State) : State :=
  let s := match slateUse (logSlate l phys) with | .head h => headSlateFail l h s | _ => s
  laneFault l 2 phys s

/-- A start of a plan or gauge at the heads of a port: a head that is not FAILED enters SETTLING with cause 1 (R144, R151). -/
def headsStart (n : Nat) (t : Int) (s : State) : State :=
  (portHeads s n).foldl (fun s e => bothLanes.foldl (fun s l =>
    let pr := profile s e.2.profile
    let x := headOf s l e.1 pr
    if x.st = 4 || !laneTakes s l then s else keepWork l e.1 x.st (HWork.goto e.2 pr e.1 1 1 (x.tLast.getD t) none { x := x, out := [] }) s) s) s

/-- A failing condition of every head of a port: PORT_STOP (cause 1), domain lost (cause 2) (R144). -/
def headsFail (n cause : Nat) (s : State) : State :=
  (portHeads s n).foldl (fun s e => bothLanes.foldl (fun s l =>
    let pr := profile s e.2.profile
    let x := headOf s l e.1 pr
    if x.st = 4 || !laneTakes s l then s
    else keepWork l e.1 x.st (HWork.goto e.2 pr e.1 4 cause (x.tLast.getD s.now) none { x := x, out := [] }) s) s) s

/-- One decimation point through one lane's heads of an instance (R127 to R148, R202). -/
def lanePoint (l : Lane) (i : Fch) (z : ZPoint) (conv any : Bool) (s : State) : State :=
  let hs := portHeads s i.num
  let s := if i == .field then s else guard l i.num z hs conv any s
  let runs := (fchOf s i).run
  hs.foldl (fun s e =>
    let pr := profile s e.2.profile
    let x := headOf s l e.1 pr
    let c : HCtx := { a := zoneSamp (i == .field) z e.2.z1 e.2.w1, b := zoneSamp (i == .field) z e.2.z2 e.2.w2, lt := z.lt, pd := z.pd,
                      tm := headTimes (lbinUm s e.2) e.2 pr, runs := runs, lost := headLost s l e.2, seed := seedsOf s e.1 e.2 }
    keepWork l e.1 x.st (headSample e.2 pr e.1 c x) s) s

/-- The port of an instance. -/
def fchPort (i : Fch) : Port := match i with | .f1 => .p1 | _ => .p0

/-- Whether a lane's event queue or letter stream has no room: the HEN takes no further tokens (R149, R268). -/
def henFull (s : State) (l : Lane) : Bool :=
  queueFill (s.hen.lane l).queue ≥ 4096 || streamFull s l

/-- ZONE_SAMPLE: the next decimation point of an instance through both lanes' heads (R127). A check that fails makes its lane fail-silent; a
failing head slate is a located fault of its lane (R146, R189). -/
def execZoneSample (t : Int) (inst : Fch) (fails : List CheckFail) (slateFails : List (Lane × Nat)) (s : State) :
    Host.Outcome State Fault Refusal :=
  let s := atTime t s
  match (fchOf s inst).zq with
  | [] => settle s
  | z :: rest =>
    if bothLanes.any (fun l => laneTakes s l && henFull s l) then settle s
    else
    let s := slateFails.foldl (fun s e => laneSlateFail e.1 e.2 s) (laneFaults false fails (zoneCross z.n fails s))
    let s := mapFch inst (fun x => { x with zq := rest }) s
    if z.kind = 1 then settle (headsStart inst.num z.t s)
    else if z.kind = 2 then settle (headsFail inst.num 1 s)
    else
      let nt := s.convNote.port (fchPort inst)
      let conv := inst != .field && nt.align.any (fun a => decide (a ≤ z.t))
      let any := inst != .field && nt.any.any (fun a => decide (a ≤ z.t))
      let n := (portHeads s inst.num).length
      let s := bothLanes.foldl (fun s l => if laneTakes s l then signStep fails 6 l n (lanePoint l inst z conv any s) else s) s
      let p := fchPort inst
      settle (if inst == .field then s
        else { s with convNote := s.convNote.setPort p { align := if conv then none else nt.align, any := if any then none else nt.any } })

/-- One head's list flushed in one lane: the number of entries removed; 0 on a FAILED or OFF head (R141, R151). An OFF head's FLUSH carries the instant and
ZONE 0 (DESIGN CHOICE, log entry 142). -/
def flushHead (l : Lane) (h : Nat) (rst : Option Nat) (s : State) : Nat × State :=
  match headRec s h with
  | none =>
    (0, queueEvents l [{ ty := 8, neg := false, lt := !s.net.joined, zone := 0, pending := 0, head := h, t := s.now, data := 0, marks := 0, rst := rst }] s)
  | some r =>
    let pr := profile s r.profile
    let x := headOf s l h pr
    let n := if x.st = 4 then 0 else x.list.length
    let w := HWork.flush r h (x.tLast.getD s.now) (some n) { x := x, out := [] }
    (n, keepWork l h x.st { w with out := w.out.map (fun e => { e with rst := rst }) } s)

/-- HEAD_FLUSH in every lane that takes it (R141, R199, R403); it completes at the FLUSH. -/
def effHeadFlush (c : HostCmd) (s : State) : State :=
  let h := fld c.a0 12 0
  let id := newId s
  let s := crossFails c (accept c 0x20 s)
  let run := fun (l : Lane) (s : State) =>
    if !takesCmd c s l then (none, s)
    else if serving s l then
      let r := flushHead l h none s
      ((some { status := stApplied, r0 := w32 r.1, r1 := 0 } : Option LaneResult), r.2)
    else (none, (flushHead l h none s).2)
  let x := run .x s
  let y := run .y x.2
  finishLanes id x.1 y.1 y.2

/-- HEAD_FLUSH (R141). -/
def execHeadFlush (c : HostCmd) (s : State) : Host.Outcome State Fault Refusal := hostCommand 0x20 effHeadFlush c s

/-! ## Watermarks and statuses (R140, R156) -/

/-- The watermark of a head at a status (R156), with whether it was measured in local time; a local one is taken to network time after the join (R164). -/
def watermark (s : State) (l : Lane) (p : Profile) (x : HeadSt) : Int × Bool :=
  if x.st = 4 || (x.st = 1 && !x.sampled) then (s.now - horizon s l, !s.net.joined)
  else
    match x.tLast with
    | none => (s.now - horizon s l, !s.net.joined)
    | some t =>
      let w := if 0 < x.blindRun && x.blindRun < p.blindMin && !x.span then x.blindT - 1 else t
      (if x.lt && s.net.joined then w + s.net.offset else w, x.lt)

/-- The status of a head passed to its ledger, after its events in the queue (R140, R156). -/
def passStatus (l : Lane) (h : Nat) (p : Profile) (s : State) : State :=
  let x := headOf s l h p
  let wl := watermark s l p x
  let w := wl.1
  let cur := x.sN = 0
  let st : HStatus := { head := h, st := x.st, start := x.wPrev.getD w, w := w, lt := wl.2,
                        pend := if cur then max x.sPend x.list.length else x.sPend, nOver := if cur then max x.sOver x.overdue else x.sOver,
                        on1 := x.sOn1 || (cur && x.z1.on), on2 := x.sOn2 || (cur && x.z2.on), span := x.span }
  let y := { x with sN := 0, sPend := 0, sOver := if cur then x.sOver else 0, sOn1 := false, sOn2 := false, wPrev := some w }
  slaveStatus l st (streamStatus l st (mapHen l (fun e => { e with queue := e.queue ++ [HItem.status none st] }) (putHead l h y s)))

/-- Every head's status in a lane, once a round (R140). -/
def passStatuses (l : Lane) (s : State) : State := (heads s).foldl (fun s e => passStatus l e.1 (profile s e.2.profile) s) s

end Sys2Proof.Machine
end

