-- ==== Sys2Proof/Machine/Ledger.lean ====
section
/-!
DEFINITION. Machine/Ledger.lean: the section ledger (07_section_ledger.md): items and their keys, the order behind the settle horizon,
contributions and causes, silence and blindness, section states, resets, and what a tick publishes.
-/
namespace Sys2Proof.Machine

/-! ## Access -/

/-- A lane's ledger changed. -/
def mapSld (l : Lane) (f : SldSt → SldSt) (s : State) : State := { s with sld := s.sld.setLane l (f (s.sld.lane l)) }

/-- A head of a boundary that has shown nothing yet (R158). -/
def BHead.new : BHead := { st := none, span := false, last := none, w := none }

/-- A boundary that comes into effect at a tick at t: blind from t less H (R167, R171). -/
def BoundSt.new (t h : Int) : BoundSt :=
  { lead := BHead.new, cover := BHead.new, cond := 0, blindAt := some (t - h), blindHit := false, t0 := t }

/-- A section just enabled: DISTURBED with cause ENABLE, count 0, an empty net log (R174, R184). -/
def SectSt.new (t h : Int) (n : Nat) : SectSt :=
  { st := 3, count := 0, cause := 1, doubtful := false, net := [], sum := 0, applied := 0, at_ := none, items := [],
    bounds := List.replicate n (BoundSt.new t h), cmd := none, swept := false, last := [], entry := 0, cnt := List.replicate 18 0 }

/-- A section of a lane that is enabled in the ACTIVE bank. -/
def sectOf (s : State) (l : Lane) (i : Nat) (r : SectRec) : SectSt :=
  (tget none i (s.sld.lane l).sects).getD (SectSt.new s.now (horizon s l) r.nbound)

/-- A section of a lane stored; an OFF one only while a command for it is pending (R176). -/
def putSect (l : Lane) (i : Nat) (x : SectSt) (s : State) : State :=
  mapSld l (fun e => { e with sects := tput none i (if x.st = 0 && x.cmd.isNone then none else some x) e.sects }) s

/-- A section that is OFF (R174). -/
def SectSt.off : SectSt := { (SectSt.new 0 0 0) with st := 0, cause := 0 }

/-- A boundary of a section. -/
def bndOf (x : SectSt) (bi : Nat) : BoundSt := nth (BoundSt.new 0 0) x.bounds bi

/-- A boundary of a section changed. -/
def mapBnd (bi : Nat) (f : BoundSt → BoundSt) (x : SectSt) : SectSt := { x with bounds := setNth x.bounds bi (f (bndOf x bi)) }

/-- The head of a boundary: lead or cover. -/
def BoundSt.head (b : BoundSt) (cover : Bool) : BHead := if cover then b.cover else b.lead

/-- A counter of a section, saturating at 16 bits (R321). -/
def SectSt.bump (k : Nat) (x : SectSt) : SectSt := { x with cnt := setNth x.cnt k (satAdd 16 (nth 0 x.cnt k) 1) }

/-! ## Usable heads, blindness, holds (R158, R170) -/

/-- A head's state and spans allow it (R158 without silence). -/
def BHead.sees (x : BHead) : Bool := !x.span && x.st.any (fun v => 1 ≤ v && v ≤ 3)

/-- Whether a head of a boundary is usable (R158). -/
def BoundSt.usable (b : BoundSt) (cover : Bool) : Bool := b.cond = 0 && (b.head cover).sees

/-- Whether a boundary is blind (R170). -/
def BoundSt.blind (b : BoundSt) : Bool := !b.lead.sees && !b.cover.sees

/-- Whether a status is busy (R156). -/
def HStatus.busy (x : HStatus) : Bool := x.on1 || x.on2 || x.pend > 0

/-- Whether a boundary is busy: a usable head of it has a busy last status (R170). -/
def BoundSt.busy (b : BoundSt) : Bool :=
  (b.usable false && b.lead.last.any HStatus.busy) || (b.usable true && b.cover.last.any HStatus.busy)

/-- The three holds of a section: busy, blind, SILENT (R170). -/
def SectSt.holds (x : SectSt) : Bool × Bool × Bool :=
  (x.bounds.any BoundSt.busy, x.bounds.any BoundSt.blind, x.bounds.any (fun b => b.cond = 1))

/-- Whether a section is held (R170). -/
def SectSt.held (x : SectSt) : Bool := x.holds.1 || x.holds.2.1 || x.holds.2.2

/-- The entry of a section (R179). -/
def SectSt.form (x : SectSt) (pending : Bool) : Word :=
  let h := x.holds
  if x.st = 0 then 0
  else w32 (x.st * 536870912 + b2n h.1 * 268435456 + b2n h.2.1 * 134217728 + b2n h.2.2 * 67108864 + b2n x.doubtful * 33554432
    + b2n pending * 16777216 + (if x.st = 3 then x.cause else 0) * 524288 + lo16 x.count)

/-! ## What a section is worked under -/

/-- The context of a section: its number, limit, boundaries with their transit minima in ns (R171), ORDERTOL, TWIN and H in ns, the
instant and round of the tick, and the instant before which no remote head has a T_0, if there is one (R167). -/
structure SCtx where
  i : Nat
  limit : Nat
  bs : List Bound
  transit : List Int
  tol : Int
  twin : Int
  h : Int
  t : Int
  round : Nat
  remote0 : Option Int
deriving DecidableEq, Repr

/-- The work of one lane on one section: the section and what it records, as code and parameters. -/
structure SWork where
  x : SectSt
  ev : List (Nat × Word × Word × Word)
deriving DecidableEq, Repr

/-- The transit minimum of one head of a boundary: dt_min of a local head, MIN_TRANSIT of a remote one (R171). -/
def headTransit (s : State) (kind n : Nat) : Option Int :=
  if kind = 1 then (headRec s n).map (fun r => (headTimes (lbinUm s r) r (profile s r.profile)).2.1)
  else if kind = 2 then ((remotes s).find? (fun e => e.1 == n)).map (fun e => ((e.2.minTransit * 1000000 : Nat) : Int))
  else none

/-- The transit minimum of a boundary (R171). -/
def transitOf (s : State) (b : Bound) : Int :=
  match headTransit s b.leadKind b.lead, headTransit s b.coverKind b.cover with
  | some a, some c => min a c
  | some a, none => a
  | none, some c => c
  | none, none => 0

/-- The context of a section in a lane now. -/
def sctx (s : State) (l : Lane) (i : Nat) (r : SectRec) : SCtx :=
  let bs := bounds s i
  let e := s.sld.lane l
  { i := i, limit := r.limit, bs := bs, transit := bs.map (transitOf s), tol := ((e.orderTol * 1000 : Nat) : Int),
    twin := ((e.twin * 1000000 : Nat) : Int), h := horizon s l, t := s.now, round := curRound s,
    remote0 := if s.net.joins != 0 then some s.net.joinAt else if polled s then none else some s.now }

/-- A record of a section (R434). -/
def SWork.note (code : Nat) (p0 p1 p2 : Word) (w : SWork) : SWork := { w with ev := w.ev ++ [(code, p0, p1, p2)] }

/-- A section moved to DISTURBED; the first cause is kept, later ones are counted and recorded (R173). -/
def SWork.disturb (c : SCtx) (cause : Nat) (w : SWork) : SWork :=
  let x := w.x
  let y := { x with st := 3, cause := if x.st = 3 then x.cause else cause }
  SWork.note evSectionDisturbed (w32 c.i) (stateWord 3 x.st cause) (w32i x.count) { w with x := SectSt.bump (4 + cause) y }

/-- Any other change of section state, recorded (R174, R179). -/
def SWork.goto (c : SCtx) (new : Nat) (w : SWork) : SWork :=
  if w.x.st = new then w
  else SWork.note evSectionState (w32 c.i) (stateWord new w.x.st 0) (w32i w.x.count) { w with x := { w.x with st := new, cause := 0 } }

/-- A lane's work on a section kept and recorded. -/
def keepSect (l : Lane) (i : Nat) (w : SWork) (s : State) : State :=
  w.ev.foldl (fun s e => laneNote l e.1 1 e.2.1 e.2.2.1 e.2.2.2 s) (putSect l i w.x s)

/-! ## Items (R159 to R163) -/

/-- The order of items: late ones first, then keys, classes, boundaries, lead before cover, the order formed (R162, R163). -/
def SItem.before (a b : SItem) : Bool :=
  if a.late != b.late then a.late
  else if a.key != b.key then a.key < b.key
  else if a.cls != b.cls then a.cls < b.cls
  else if a.bi != b.bi then a.bi < b.bi
  else if a.cover != b.cover then !a.cover
  else a.ord < b.ord

/-- The first item due by an instant. -/
def firstDue (upto : Int) (l : List SItem) : Option SItem :=
  l.foldl (fun m a =>
    if a.late || a.key ≤ upto then
      match m with
      | none => some a
      | some b => if a.before b then some a else m
    else m) none

/-- Whether an AXLE's own marks make it doubtful (R158): INFERRED, DOUBT, FAST, BASE_MIX, SETTLING. -/
def markDoubt (e : HEvent) : Bool := e.ty = 3 || (e.marks &&& 334) != 0

/-- The signed direction of an axle in a boundary: true for − (R159). -/
def signedNeg (b : Bound) (cover : Bool) (e : HEvent) : Bool := e.neg != (if cover then b.coverNeg else b.leadNeg)

/-- A count contribution applied (R160, R163, R169, R175). -/
def applyContrib (c : SCtx) (inward doubtful late : Bool) (w : SWork) : SWork :=
  let was := w.x.st
  let x := w.x
  let d : Int := if inward then 1 else -1
  let x := { x with count := sat16 (x.count + d), sum := x.sum + d, doubtful := x.doubtful || doubtful, swept := x.swept || inward,
                    last := (match x.last with
                      | (r, _) :: t => if r = c.round then (c.round, inward) :: t else ((c.round, inward) :: x.last).take 40
                      | [] => [(c.round, inward)]) }
  let x := SectSt.bump (if inward then 0 else 1) x
  let x := if doubtful then SectSt.bump 2 x else x
  let w := { w with x := x }
  let w := if late then w.disturb c 9 else w
  let w := if x.count < 0 then w.disturb c 2 else w
  let w := if x.count > (c.limit : Nat) || -x.count > (c.limit : Nat) then w.disturb c 3 else w
  let w := if doubtful && !inward && x.count ≤ 0 then w.disturb c 4 else w
  if doubtful && was = 4 then w.disturb c 11 else w

/-- T_0 of a head of a boundary (R167): when the boundary came into effect, for a remote head not before the first tick after the join, which is still
to come while the device has not joined. -/
def headT0 (c : SCtx) (b : BoundSt) (kind : Nat) : Int := if kind = 2 then max b.t0 (c.remote0.getD b.t0) else b.t0

/-- The start of a boundary's blind period: T_0 − H, the earlier of its heads', until one of them has applied a status or STATE item (R171). -/
def blindFrom (c : SCtx) (r : Bound) (b : BoundSt) : Option Int :=
  if b.lead.st.isNone && b.cover.st.isNone then
    let t := headT0 c b r.leadKind
    b.blindAt.map (fun _ => (if r.coverKind = 0 then t else min t (headT0 c b r.coverKind)) - c.h)
  else b.blindAt

/-- The record of boundary bi. -/
def boundRec (c : SCtx) (bi : Nat) : Bound :=
  nth { leadKind := 0, lead := 0, leadNeg := false, coverKind := 0, cover := 0, coverNeg := false } c.bs bi

/-- The blind period of a boundary after an item: it starts at the item's key, and a period that lasted its transit minimum disturbs when
it closes (R171); while the boundary is LOST, that governs (R184). -/
def reblind (c : SCtx) (key : Int) (bi : Nat) (w : SWork) : SWork :=
  let b := bndOf w.x bi
  match b.blind, b.blindAt with
  | true, none => { w with x := mapBnd bi (fun b => { b with blindAt := some key, blindHit := false }) w.x }
  | false, some t =>
    let hit := !b.blindHit && b.cond ≠ 2 && key - t ≥ nth 0 c.transit bi
    let w := { w with x := mapBnd bi (fun b => { b with blindAt := none, blindHit := false }) w.x }
    if hit then w.disturb c 7 else w
  | _, _ => w

/-- The head of a boundary changed. -/
def mapBHead (bi : Nat) (cover : Bool) (f : BHead → BHead) (x : SectSt) : SectSt :=
  mapBnd bi (fun b => if cover then { b with cover := f b.cover } else { b with lead := f b.lead }) x

/-- What a head of a boundary shows changed by an item, with the blind period that follows (R158, R171). -/
def headItem (c : SCtx) (it : SItem) (f : BHead → BHead) (w : SWork) : SWork :=
  let x := mapBnd it.bi (fun b => { b with blindAt := blindFrom c (boundRec c it.bi) b }) w.x
  reblind c it.key it.bi { w with x := mapBHead it.bi it.cover f x }

/-- An axle of a boundary reached in ascending time: paired, on its own, or without effect (R159). -/
def applyAxle (c : SCtx) (it : SItem) (e : HEvent) (w : SWork) : SWork :=
  let b := boundRec c it.bi
  let neg := signedNeg b it.cover e
  let st := bndOf w.x it.bi
  let contrib := fun (doubtful : Bool) (w : SWork) =>
    let w := if doubtful && !markDoubt e then { w with x := SectSt.bump 3 w.x } else w
    if neg then
      let k := it.key + c.tol
      { w with x := { w.x with items := { it with key := k, cls := 2, ev := .contrib false doubtful } :: w.x.items } }
    else applyContrib c true doubtful it.late { w with x := { w.x with applied := w.x.applied + 1 } }
  let mate := firstDue (it.key + c.twin) ((w.x.items.filter (fun o =>
    o.bi = it.bi && o.cover != it.cover && o.key ≥ it.key
      && (match o.ev with | .axle f => signedNeg b o.cover f == neg | _ => false))).map (fun o => { o with late := false }))
  match mate with
  | some o =>
    let od := match o.ev with | .axle f => markDoubt f | _ => false
    let w := { w with x := { w.x with items := w.x.items.filter (fun y => y.ord != o.ord || y.bi != o.bi || y.cover != o.cover) } }
    let both := markDoubt e && od
    if neg then
      let k := it.key + c.tol
      { w with x := { w.x with items := { it with key := k, cls := 2, cover := false, ev := .contrib false both } :: w.x.items } }
    else applyContrib c true both it.late { w with x := { w.x with applied := w.x.applied + 1 } }
  | none =>
    let mine := st.usable it.cover
    let other := st.usable (!it.cover)
    if mine && other then
      let solo := SWork.note evTwinSolo (w32 c.i) (w32 it.bi) (w32 (e.head % 8192 + 8192 * b2n it.cover)) w
      contrib true (if markDoubt e then { solo with x := SectSt.bump 3 solo.x } else solo)
    else if !mine && other then w
    else contrib (markDoubt e) w

/-- One item applied (R160, R162, R172, R177). -/
def applyItem (c : SCtx) (it : SItem) (w : SWork) : SWork :=
  let b := bndOf w.x it.bi
  let other := b.usable (!it.cover)
  let n := match it.ev with | .axle _ => 0 | _ => 1
  let w := { w with x := { w.x with applied := w.x.applied + n } }
  match it.ev with
  | .status x =>
    let f := fun (h : BHead) => { h with st := some x.st, span := if h.st.isNone then x.span else h.span, last := some x }
    headItem c it f w
  | .state v => headItem c it (fun h => { h with st := some v }) w
  | .spanOpen => headItem c it (fun h => { h with span := true }) w
  | .spanClose => headItem c it (fun h => { h with span := false }) w
  | .axle e => applyAxle c it e w
  | .contrib inward doubtful => applyContrib c inward doubtful it.late w
  | .overflow => if other then w else w.disturb c 5
  | .flush k rst =>
    if k = 0 then w
    else
      match rst with
      | some r => if r = c.i || w.x.count ≠ 0 || other then w else w.disturb c 12
      | none => if other then w else w.disturb c 6
  | .rock => w

/-- Every item due by an instant applied in order; `fuel` bounds them (R161, R162). -/
def applyDue (c : SCtx) (upto : Int) : Nat → SWork → SWork
  | 0, w => w
  | f + 1, w =>
    match firstDue upto w.x.items with
    | none => w
    | some it =>
      applyDue c upto f (applyItem c it { w with x := { w.x with items := w.x.items.filter (fun y =>
        y.ord != it.ord || y.bi != it.bi || y.cover != it.cover) } })

/-! ## LEDGER_ITEM_TAKE (R157, R160, R163, R165) -/

/-- Items that wait in a lane's store. -/
def storeFill (e : SldSt) : Nat := e.sects.foldl (fun n p => n + ((p.2.map (fun x => x.items.length)).getD 0)) 0

/-- The item of an event or status at a boundary: key, class and effect (R160). -/
def itemOf (c : SCtx) (b : Bound) (cover : Bool) (w : Option Int) (it : HItem) : Int × Nat × ItemEv :=
  match it with
  | .status _ x => (x.start, 0, .status x)
  | .ev _ e =>
    let e := if e.ty = 3 then { e with neg := e.zone = 1 } else e
    if e.ty = 1 || (e.ty = 3 && (e.zone = 1 || e.zone = 2)) then
      if b.coverKind ≠ 0 then (e.t, 1, .axle e)
      else if signedNeg b cover e then (e.t + c.tol, 2, .contrib false (markDoubt e))
      else (e.t, 1, .contrib true (markDoubt e))
    else
      match e.ty with
      | 5 => (if has e.marks 10 then max e.t (w.getD e.t) else e.t, 2, .spanOpen)
      | 6 => (e.t, 2, .spanClose)
      | 7 => (e.t, 2, .state (e.data / 8192))
      | 8 => (e.t, 2, .flush e.data e.rst)
      | 2 => (e.t, 2, .rock)
      | _ => (e.t, 2, .overflow)

/-- The key by which an event of a boundary is late: an out-axle of a covered boundary gives an item at t + ORDERTOL (R160, R163). -/
def lateKey (c : SCtx) (b : Bound) (cover : Bool) (k : Int × Nat × ItemEv) : Int :=
  match k.2.2 with
  | .axle e => if signedNeg b cover e then k.1 + c.tol else k.1
  | _ => k.1

/-- How late an item is, in µs, rounded (R434; DESIGN CHOICE, log entry 146). -/
def lateBy (at_ : Option Int) (k : Int) : Word := w32i (rnd (at_.getD k - k) 1000)

/-- An item put to a boundary of a section; a late one is counted and recorded (R163). -/
def addItem (l : Lane) (i : Nat) (r : SectRec) (bi : Nat) (b : Bound) (cover : Bool) (it : HItem) (s : State) : State :=
  let c := sctx s l i r
  let x := sectOf s l i r
  let k := itemOf c b cover ((bndOf x bi).head cover).w it
  let kl := lateKey c b cover k
  let late := x.at_.any (fun a => kl ≤ a)
  let ord := (s.sld.lane l).arrivals
  let x := { x with items := x.items ++ [{ key := k.1, cls := k.2.1, bi := bi, cover := cover, ord := ord, late := late, ev := k.2.2 }] }
  let x := match it with
    | .status _ y => mapBHead bi cover (fun h => { h with w := some y.w }) x
    | _ => x
  let w : SWork := { x := x, ev := [] }
  let w := if late then
      SWork.note evLateItem (w32 i) (w32 bi) (lateBy x.at_ kl) { w with x := SectSt.bump 4 w.x }
    else w
  keepSect l i w s

/-- An item given to every boundary that its head leads or covers (R160). -/
def giveItem (l : Lane) (kind n : Nat) (it : HItem) (s : State) : State :=
  let s := (sections s).foldl (fun s e =>
    ((bounds s e.1).foldl (fun (a : Nat × State) b =>
      let s := a.2
      let s := if b.leadKind = kind && b.lead = n then addItem l e.1 e.2 a.1 b false it s else s
      let s := if b.coverKind = kind && b.cover = n then addItem l e.1 e.2 a.1 b true it s else s
      (a.1 + 1, s)) (0, s)).2) s
  mapSld l (fun e => { e with arrivals := e.arrivals + 1 }) s

/-- The items that one event or status of a head yields: one at every boundary that it leads or covers (R160). -/
def itemCount (s : State) (kind n : Nat) : Nat :=
  (sections s).foldl (fun k e => (bounds s e.1).foldl (fun k b =>
    k + b2n (b.leadKind = kind && b.lead = n) + b2n (b.coverKind = kind && b.cover = n)) k) 0

/-- The head an item names. -/
def HItem.head (it : HItem) : Nat := match it with | .ev _ e => e.head | .status _ x => x.head

/-- The node an item comes from, none for this device. -/
def HItem.node (it : HItem) : Option Nat := match it with | .ev n _ => n | .status n _ => n

/-- An item of this device formed in local time and taken after the join: its instants in network time (R164). -/
def HItem.based (s : State) (it : HItem) : HItem :=
  match it with
  | .ev none e => if e.lt && s.net.joined then .ev none { e with t := e.t + s.net.offset } else it
  | _ => it

/-- One item taken into a lane's ledger: a remote head without an enabled entry is ignored and counted (R157). -/
def takeItem (l : Lane) (it0 : HItem) (s : State) : State :=
  let it := it0.based s
  let s := match it.node with
    | none => giveItem l 1 it.head it s
    | some n =>
      match (remotes s).find? (fun e => e.2.node == n && e.2.head == it.head) with
      | some e => giveItem l 2 e.1 it s
      | none => bump (0x7C00 + 0x100 * l.num) s
  bumpMax (0x7C04 + 0x100 * l.num) (storeFill (s.sld.lane l)) s

/-- Whether a lane's item store has room for all that an event or status yields (R165). -/
def storeRoom (s : State) (l : Lane) (it : HItem) : Bool :=
  let n := match it.node with
    | none => itemCount s 1 it.head
    | some n => match (remotes s).find? (fun e => e.2.node == n && e.2.head == it.head) with | some e => itemCount s 2 e.1 | none => 0
  storeFill (s.sld.lane l) < 32768 && storeFill (s.sld.lane l) + n ≤ 32768

/-- LEDGER_ITEM_TAKE: the next item of the HEN queue or of the RCT, unless the store is full (R160, R165). -/
def execLedgerItemTake (t : Int) (lane : Lane) (source : ItemSource) (s : State) : Host.Outcome State Fault Refusal :=
  let s := atTime t s
  if !laneTakes s lane then settle s
  else
    match source with
    | .hen =>
      match (s.hen.lane lane).queue with
      | [] => settle s
      | it :: rest =>
        if storeRoom s lane it then settle (queueWatch lane (takeItem lane it (mapHen lane (fun e => { e with queue := rest }) s))) else settle s
    | .rct =>
      match s.rctq.lane lane with
      | [] => settle s
      | it :: rest => if storeRoom s lane it then settle (takeItem lane it { s with rctq := s.rctq.setLane lane rest }) else settle s

/-! ## The applied instant and silence (R161, R167) -/

/-- The watermark of a head of a boundary; T_0 − H until its first status (R167). -/
def headW (c : SCtx) (b : BoundSt) (cover : Bool) (kind : Nat) : Int :=
  match (b.head cover).w with
  | some w => w
  | none => headT0 c b kind - c.h

/-- wb of a boundary (R161). -/
def wbOf (c : SCtx) (r : Bound) (b : BoundSt) : Int :=
  let w := headW c b false r.leadKind
  if r.coverKind = 0 then w - 1 else min w (headW c b true r.coverKind) - c.twin - 1

/-- A boundary record and its state, by index. -/
def zipBounds (c : SCtx) (x : SectSt) : List (Nat × Bound × BoundSt) :=
  ((List.range x.bounds.length).zip (c.bs.zip x.bounds))

/-- The applied instant of a section at the tick (R161). -/
def appliedAt (c : SCtx) (x : SectSt) : Int :=
  let a := (zipBounds c x).foldl (fun a e => if e.2.2.cond = 2 then a else min a (wbOf c e.2.1 e.2.2)) (c.t - c.h)
  match x.at_ with
  | some p => max a p
  | none => a

/-- Whether a boundary has a remote head that cannot have reported: before the join (R164), which a device in a polled mode does not wait for
(R290). -/
def remoteUnjoined (s : State) (r : Bound) : Bool := s.net.joins == 0 && !polled s && (r.leadKind = 2 || r.coverKind = 2)

/-- The silence of one boundary judged at the tick (R167): LOST disturbs when it begins, and while it lasts the boundary's waiting items are late ones
(DEDUCED, log entry 168). -/
def silenceOne (s : State) (l : Lane) (c : SCtx) (bi : Nat) (r : Bound) (w : SWork) : SWork :=
  let b := bndOf w.x bi
  let wb := wbOf c r b
  let lag := c.t - c.h - wb
  let hold := ((laneRegF s l 0x7004 7 0 * 1000000 : Nat) : Int)
  let lost := ((laneRegF s l 0x7004 31 16 * 1000000 : Nat) : Int)
  let cond := if remoteUnjoined s r then 1
    else if b.cond = 2 && lag > 0 then 2
    else if lag > lost then 2 else if lag > hold then 1 else 0
  let w1 := { w with x := mapBnd bi (fun b => { b with cond := cond }) w.x }
  if cond = 2 then
    let mine := w1.x.items.filter (fun y => y.bi = bi && !y.late)
    let x := { w1.x with items := w1.x.items.map (fun y => if y.bi = bi then { y with late := true } else y) }
    let w2 := mine.foldl (fun w y => SWork.note evLateItem (w32 c.i) (w32 bi) (lateBy x.at_ y.key)
      { w with x := SectSt.bump 4 w.x }) { w1 with x := x }
    if b.cond = 2 then w2 else w2.disturb c 8
  else w1

/-- The silence of every boundary, then the blind checks of those that are not LOST (R161 step 3, R167, R171, R184). -/
def silenceStep (s : State) (l : Lane) (c : SCtx) (w : SWork) : SWork :=
  let w := (zipBounds c w.x).foldl (fun w e => silenceOne s l c e.1 e.2.1 w) w
  (List.range w.x.bounds.length).foldl (fun w bi =>
    let b := bndOf w.x bi
    match blindFrom c (boundRec c bi) b with
    | some t =>
      if !b.blindHit && b.cond ≠ 2 && w.x.at_.any (fun a => a ≥ t + nth 0 c.transit bi) then
        (SWork.disturb c 7 { w with x := mapBnd bi (fun b => { b with blindHit := true }) w.x })
      else w
    | none => w) w

/-- The state rules of step 4 (R174, R175). -/
def stateStep (c : SCtx) (w : SWork) : SWork :=
  let x := w.x
  match x.st with
  | 1 => if x.count > 0 || x.held then w.goto c 2 else w
  | 2 => if x.count = 0 && !x.held then w.goto c 1 else w
  | 4 => if x.swept && x.count = 0 && !x.held then w.goto c 1 else w
  | _ => w

/-- Step 2 of the tick for one section: the late items, then those due (R161, R163). -/
def itemStep (c : SCtx) (x : SectSt) : SWork :=
  let w := applyDue c (x.at_.getD (-9223372036854775808)) (2 * x.items.length) { x := { x with sum := 0, applied := 0 }, ev := [] }
  let a := appliedAt c w.x
  let w := { w with x := { w.x with at_ := some a } }
  applyDue c a (2 * w.x.items.length) w

/-- Steps 2 to 4 for one section of a lane (R161). -/
def sectTick (l : Lane) (i : Nat) (r : SectRec) (s : State) : State :=
  let c := sctx s l i r
  keepSect l i (stateStep c (silenceStep s l c (itemStep c (sectOf s l i r)))) s

/-! ## Resets and RESTORE_CONFIRM (R176 to R178) -/

/-- A section of a lane as a command finds it: OFF where it is not enabled. -/
def sectCmd (s : State) (l : Lane) (i : Nat) : SectSt :=
  match (sections s).find? (fun e => e.1 == i) with
  | some e => sectOf s l i e.2
  | none => (tget none i (s.sld.lane l).sects).getD SectSt.off

/-- The record of a section, of no boundary where it is not enabled. -/
def sectRec (s : State) (i : Nat) : SectRec := (((sections s).find? (fun e => e.1 == i)).map (·.2)).getD { nbound := 0, limit := 0 }

/-- Whether a head takes part in a COND_RESET's conditions: usable, with no ON flag and no live pending entry in its last status (R176). -/
def headClear (b : BoundSt) (cover : Bool) : Bool :=
  !b.usable cover || ((b.head cover).last.all (fun x => !x.on1 && !x.on2 && x.pend ≤ x.nOver))

/-- The further conditions of a command at R_e (R176). -/
def cmdCondition (kind ref : Nat) (x : SectSt) : Bool :=
  if kind = 1 then
    x.bounds.all (fun b => b.cond = 0 && (b.usable false || b.usable true) && headClear b false && headClear b true)
      && (match x.last.find? (fun e => decide (e.1 ≤ ref)) with | some e => !e.2 | none => false)
  else x.bounds.all (fun b => b.cond ≠ 2)

/-- The local heads that a reset flushes: by the last status applied, pending entries, or overdue ones for COND_RESET (R176, R177). -/
def flushList (kind : Nat) (bs : List Bound) (x : SectSt) : List Nat :=
  let due := fun (h : BHead) => h.last.any (fun y => (if kind = 1 then y.nOver else y.pend) > 0)
  (bs.zip x.bounds).flatMap (fun e =>
    (if e.1.leadKind = 1 && due e.2.lead then [e.1.lead] else []) ++ (if e.1.coverKind = 1 && due e.2.cover then [e.1.cover] else []))

/-- The status with which a command fails at R_e, if it fails (R176, R178): kind 0 PREP, 1 COND, 2 DIRECT, 3 RESTORE_CONFIRM. -/
def cmdFails (m : SCmd) (x : SectSt) : Option Nat :=
  let okState := match m.kind with | 1 => x.st = 3 || x.st = 5 | 3 => x.st = 5 | _ => x.st ≠ 0
  let used := x.net.filter (fun n => m.ref < n.round && n.round < m.re)
  if x.st = 0 then some stRefusedOff
  else if !okState then some stRefusedState
  else if !(m.ref + 32 ≥ m.re && m.ref + 1 ≤ m.re) || used.any (·.sat) then some stRefusedReference
  else if !cmdCondition m.kind m.ref x then some stRefusedCondition
  else none

/-- A section after a command that passes (R176). -/
def cmdApply (c : SCtx) (m : SCmd) (x : SectSt) : SWork :=
  let used := x.net.filter (fun n => m.ref < n.round && n.round < m.re)
  let count := if m.kind = 3 then x.count else sat16 (isum (used.map (·.sum)))
  let y := { x with count := count, cause := 0, doubtful := false, swept := false,
                    bounds := x.bounds.map (fun b => { b with blindHit := false }) }
  let w : SWork := { x := y, ev := [] }
  let w := if m.kind = 0 then w.goto c 4
    else if count < 0 then
      let cause := if m.kind = 3 then 13 else 2
      SWork.note evSectionDisturbed (w32 c.i) (stateWord 3 x.st cause) (w32i count)
        { w with x := SectSt.bump (4 + cause) { y with st := 3, cause := cause } }
    else w.goto c (if count > 0 || y.held then 2 else 1)
  SWork.note evResetApplied (w32 (c.i % 4096 + 65536 * m.kind)) (w32 (m.ref % 4294967296)) (w32i w.x.count) w

/-- A command of a section at step 1 of R_e in one lane (R176 to R178). -/
def cmdRun (l : Lane) (i : Nat) (r : SectRec) (m : SCmd) (s : State) : LaneResult × State :=
  let c := sctx s l i r
  let x := { (sectCmd s l i) with cmd := none }
  match cmdFails m x with
  | some st => ({ status := st, r0 := 0, r1 := 0 }, putSect l i x s)
  | none =>
    let w := cmdApply c m x
    let s := keepSect l i w s
    let s := if m.kind = 3 then s else (flushList m.kind c.bs x).foldl (fun s h => (flushHead l h (some i) s).2) s
    ({ status := stApplied, r0 := w.x.form false, r1 := w32 ((m.re - 2) % 4294967296) }, s)

/-- The command of a section in a lane that takes commands, if its effective round has come. -/
def cmdDue (s : State) (l : Lane) (i : Nat) : Option SCmd :=
  if laneTakes s l then (sectCmd s l i).cmd.filter (fun m => decide (m.re ≤ curRound s)) else none

/-- What the lanes answer to a command: its id, Lane X's result and Lane Y's. -/
abbrev LaneAnswer := Nat × Option LaneResult × Option LaneResult

/-- Step 1 of a tick for one section: its command in both lanes, and their answer (R178, R199, R322). -/
def cmdStep (i : Nat) (r : SectRec) (s : State) : Option LaneAnswer × State :=
  let run := fun (l : Lane) (s : State) =>
    match cmdDue s l i with
    | none => ((none : Option (Nat × Option LaneResult)), s)
    | some m =>
      let x := cmdRun l i r m s
      (some (m.id, if serving s l then some x.1 else none), x.2)
  let x := run .x s
  let y := run .y x.2
  match x.1, y.1 with
  | none, none => (none, s)
  | some a, none => (some (a.1, a.2, none), y.2)
  | none, some b => (some (b.1, none, b.2), y.2)
  | some a, some b => (some (a.1, a.2, b.2), y.2)

/-- A command for a section accepted in every lane that takes it (R176, R178, R403). -/
def effSection (kind op : Nat) (c : HostCmd) (s : State) : State :=
  let i := fld c.a0 11 0
  if bothLanes.any (fun l => laneTakes s l && (sectCmd s l i).cmd.isSome) then refuse op c stRefusedBusy s
  else
    let m : SCmd := { id := newId s, kind := kind, ref := argA12 c, re := curRound s + 2 }
    let s := crossFails c (accept c op s)
    bothLanes.foldl (fun s l => if takesCmd c s l then putSect l i { (sectCmd s l i) with cmd := some m } s else s) s

/-- The sections that a lane of the device holds, in rising order (R161 step 1). -/
def sectNumbers (s : State) : List Nat := normNat ((s.sld.a.sects ++ s.sld.b.sects).map (·.1))

/-- The completions of a round's commands, in ascending CMD index (R324). -/
def answerAll (as : List LaneAnswer) (s : State) : State :=
  (s.hre.out.filterMap (fun o => as.find? (fun a => a.1 == o.id))).foldl (fun s a => finishLanes a.1 a.2.1 a.2.2 s) s

/-- What reaches the HRE of the answers: a lane's completion that fails its crossing check counts as not released by that lane; one that no lane
released is not written (R322, R403). -/
def answersArrived (lost : List Lane) (as : List LaneAnswer) : List LaneAnswer :=
  (as.map (fun a => (a.1, if lost.contains .x then none else a.2.1, if lost.contains .y then none else a.2.2))).filter
    (fun a => lost.isEmpty || a.2.1.isSome || a.2.2.isSome)

/-- The failures of the lanes' completions at the HRE: recorded, with vector 13 (R403). -/
def answersLost (lost : List Lane) (as : List LaneAnswer) (s : State) : State :=
  lost.foldl (fun s l =>
    if as.any (fun a => (match l with | .x => a.2.1 | .y => a.2.2).isSome) then
      vecItem 13 (note evCrossingFail .host 0 3 (w32 l.num) (lo32 (curRound s)) s)
    else s) s

/-- Step 1 of a tick: every command whose effective round has come, in ascending section number, then the completions (R161, R324, R403). -/
def commandStep (lost : List Lane) (s : State) : State :=
  let r := (sectNumbers s).foldl (fun (a : List LaneAnswer × State) i =>
    let x := cmdStep i (sectRec a.2 i) a.2
    (a.1 ++ x.1.toList, x.2)) ([], s)
  answerAll (answersArrived lost r.1) (answersLost lost r.1 r.2)

/-- The commands of a lane whose effective round has come. -/
def commandsDue (s : State) (l : Lane) : Nat := ((sectNumbers s).filter (fun i => (cmdDue s l i).isSome)).length

/-- PREP_RESET (R176). -/
def effPrepReset (c : HostCmd) (s : State) : State := effSection 0 0x28 c s

/-- PREP_RESET (R176). -/
def execPrepReset (c : HostCmd) (s : State) : Host.Outcome State Fault Refusal := hostCommand 0x28 effPrepReset c s

/-- COND_RESET (R176). -/
def effCondReset (c : HostCmd) (s : State) : State := effSection 1 0x29 c s

/-- COND_RESET (R176). -/
def execCondReset (c : HostCmd) (s : State) : Host.Outcome State Fault Refusal := hostCommand 0x29 effCondReset c s

/-- DIRECT_RESET (R176). -/
def effDirectReset (c : HostCmd) (s : State) : State := effSection 2 0x2A c s

/-- DIRECT_RESET (R176). -/
def execDirectReset (c : HostCmd) (s : State) : Host.Outcome State Fault Refusal := hostCommand 0x2A effDirectReset c s

/-- RESTORE_CONFIRM (R176). -/
def effRestoreConfirm (c : HostCmd) (s : State) : State := effSection 3 0x2B c s

/-- RESTORE_CONFIRM (R176). -/
def execRestoreConfirm (c : HostCmd) (s : State) : Host.Outcome State Fault Refusal := hostCommand 0x2B effRestoreConfirm c s

/-! ## Publication and digests (R179 to R182, R191) -/

/-- A section's tick closed: its net log and its entry (R169, R179). -/
def closeSect (round : Nat) (x : SectSt) : SectSt :=
  let big := x.sum > 127 || x.sum < -128
  { x with net := ({ round := round, sum := sat x.sum 8, sat := big } :: x.net).take 32, entry := x.form x.cmd.isSome }

/-- The entries of a lane's tick (R179). -/
def formEntries (l : Lane) (s : State) : State :=
  let r := curRound s
  let s := (sections s).foldl (fun s e => putSect l e.1 (closeSect r (sectOf s l e.1 e.2)) s) s
  mapSld l (fun e => { e with entries := e.sects.foldl (fun t p => tput 0 p.1 ((p.2.map (·.entry)).getD 0) t) [] }) s

/-- The 64 entries of a block. -/
def blockEntries (e : SldSt) (k : Nat) : List Word := (span (64 * k) 64).map (fun i => tget 0 i e.entries)

/-- The record of a section in a digest (R191). -/
def sectDigest (x : Option SectSt) : List Word :=
  match x with
  | none => [0, 0]
  | some x =>
    let n := (x.net.head?.map (·.sum)).getD 0
    [x.entry, w32 ((n % 256).toNat * 16777216 + min x.applied 255 * 65536 + x.items.length % 65536)]

/-- The record of a head in a digest (R191). -/
def headDigest (h : Option HeadSt) : List Word :=
  match h with
  | none => [0, 0]
  | some x =>
    if x.st = 0 then [0, 0]
    else
      [w32 (x.st * 536870912 + b2n x.z1.on * 268435456 + b2n x.z2.on * 134217728 + x.list.length * 2097152 + min x.evTick 127 * 16384),
       lo32 (x.wPrev.getD 0)]

/-- The 192 digests of a lane (R191). -/
def digests (s : State) (l : Lane) : List Word :=
  let e := s.sld.lane l
  let h := s.hen.lane l
  ((List.range 64).map (fun k => crc32cWords ((span (64 * k) 64).flatMap (fun i => sectDigest (tget none i e.sects)))))
    ++ ((List.range 128).map (fun k => crc32cWords ((span (64 * k) 64).flatMap (fun i => headDigest (tget none i h.heads)))))

/-- A count message: 69 words (R181, R182). -/
def countMessage (s : State) (l : Lane) (k : Nat) (solo : Bool) (seq : Nat) : List Word :=
  let e := s.sld.lane l
  let w := [w32 (fld (reg s 0x9004) 7 0 * 16777216 + l.num * 4194304 + k * 65536 + seq % 65536), roundLo s, topoGen s (curRound s),
            w32 (2 * b2n (!s.net.joined) + b2n solo)] ++ blockEntries e k
  w ++ [crc32cWords w]

/-- The blocks of SLD_PUB in ascending order (R180). -/
def pubBlocks (s : State) (l : Lane) : List Nat :=
  (List.range 64).filter (fun k => bitOf (laneReg s l (0x7008 + 4 * (k / 32))) (k % 32))

/-- The blocks of this round: PER_ROUND of the list from where the round before stopped, wrapping (R180). -/
def roundBlocks (bl : List Nat) (next per : Nat) : List Nat :=
  ((bl.filter (fun k => decide (next ≤ k))) ++ (bl.filter (fun k => decide (k < next)))).take per

/-- The count messages of a lane's round, with the rotation and SEQ carried on (R180, R181). -/
def formMessages (l : Lane) (s : State) : State :=
  let bl := roundBlocks (pubBlocks s l) (s.sld.lane l).next (laneRegF s l 0x7010 6 0)
  let solo := !serving s l.other
  bl.foldl (fun s k =>
    let seq := (tget 0 k (s.sld.lane l).seq + 1) % 65536
    let s := mapSld l (fun e => { e with seq := tput 0 k seq e.seq, next := k + 1 }) s
    let c := s.lcm.comp.lane l
    { s with lcm := { s.lcm with comp := s.lcm.comp.setLane l { c with msgs := tput [] k (countMessage s l k solo seq) c.msgs } } })
    { s with lcm := { s.lcm with comp := s.lcm.comp.setLane l { (s.lcm.comp.lane l) with msgs := [] } } }

/-- Step 5 of a tick in one lane: entries, count messages, digests; what the lane may release at once stands when the other does not
serve (R179 to R194). -/
def publishLane (l : Lane) (s : State) : State :=
  let s := formMessages l (formEntries l s)
  let c := s.lcm.comp.lane l
  let alone := !serving s l.other
  let shadow := s.lcm.cond.lane l == .readmission
  let c := { c with round := curRound s, dig := digests s l, out := none, uncomp := false,
                    rel := if alone && !shadow then List.range 64 else [] }
  { s with lcm := { s.lcm with comp := s.lcm.comp.setLane l c } }

/-- Counters of the tick cleared in a lane's heads (R191). -/
def clearHeadTick (l : Lane) (s : State) : State :=
  mapHen l (fun e => { e with heads := e.heads.map (fun p => (p.1, p.2.map (fun x => { x with evTick := 0 }))) }) s

end Sys2Proof.Machine
end

