-- ==== Sys2Proof/Machine/Tables.lean ====
section
/-!
DEFINITION. Machine/Tables.lean: the tables of the legacy demodulator (R240): the quarter wave of cos_tab, from which both tables
follow, and the window w.
-/
namespace Sys2Proof.Machine

/-- 32 767 cos(2πi/4096) to the nearest integer, i from 0. -/
def cosPart0 : List Int := [
  32767, 32767, 32767, 32767, 32766, 32766, 32766, 32765, 32765, 32764, 32763, 32762, 32761, 32760, 32759, 32758, 32757, 32756, 32755, 32753,
  32752, 32750, 32748, 32747, 32745, 32743, 32741, 32739, 32737, 32735, 32732, 32730, 32728, 32725, 32722, 32720, 32717, 32714, 32711, 32708,
  32705, 32702, 32699, 32696, 32692, 32689, 32685, 32682, 32678, 32674, 32671, 32667, 32663, 32659, 32655, 32650, 32646, 32642, 32637, 32633,
  32628, 32624, 32619, 32614, 32609, 32604, 32599, 32594, 32589, 32584, 32578, 32573, 32567, 32562, 32556, 32550, 32545, 32539, 32533, 32527,
  32521, 32514, 32508, 32502, 32495, 32489, 32482, 32476, 32469, 32462, 32455, 32448, 32441, 32434, 32427, 32420, 32412, 32405, 32397, 32390]

/-- 32 767 cos(2πi/4096) to the nearest integer, i from 100. -/
def cosPart1 : List Int := [
  32382, 32375, 32367, 32359, 32351, 32343, 32335, 32327, 32318, 32310, 32302, 32293, 32285, 32276, 32267, 32258, 32250, 32241, 32232, 32223,
  32213, 32204, 32195, 32185, 32176, 32166, 32157, 32147, 32137, 32128, 32118, 32108, 32098, 32087, 32077, 32067, 32057, 32046, 32036, 32025,
  32014, 32004, 31993, 31982, 31971, 31960, 31949, 31937, 31926, 31915, 31903, 31892, 31880, 31869, 31857, 31845, 31833, 31821, 31809, 31797,
  31785, 31773, 31760, 31748, 31736, 31723, 31710, 31698, 31685, 31672, 31659, 31646, 31633, 31620, 31607, 31593, 31580, 31567, 31553, 31539,
  31526, 31512, 31498, 31484, 31470, 31456, 31442, 31428, 31414, 31400, 31385, 31371, 31356, 31341, 31327, 31312, 31297, 31282, 31267, 31252]

/-- 32 767 cos(2πi/4096) to the nearest integer, i from 200. -/
def cosPart2 : List Int := [
  31237, 31222, 31206, 31191, 31176, 31160, 31145, 31129, 31113, 31097, 31082, 31066, 31050, 31033, 31017, 31001, 30985, 30968, 30952, 30935,
  30919, 30902, 30885, 30868, 30852, 30835, 30818, 30800, 30783, 30766, 30749, 30731, 30714, 30696, 30679, 30661, 30643, 30625, 30607, 30589,
  30571, 30553, 30535, 30517, 30498, 30480, 30462, 30443, 30424, 30406, 30387, 30368, 30349, 30330, 30311, 30292, 30273, 30253, 30234, 30215,
  30195, 30176, 30156, 30136, 30117, 30097, 30077, 30057, 30037, 30017, 29997, 29976, 29956, 29936, 29915, 29894, 29874, 29853, 29832, 29812,
  29791, 29770, 29749, 29728, 29706, 29685, 29664, 29642, 29621, 29599, 29578, 29556, 29534, 29513, 29491, 29469, 29447, 29425, 29403, 29380]

/-- 32 767 cos(2πi/4096) to the nearest integer, i from 300. -/
def cosPart3 : List Int := [
  29358, 29336, 29313, 29291, 29268, 29246, 29223, 29200, 29177, 29154, 29131, 29108, 29085, 29062, 29039, 29016, 28992, 28969, 28945, 28922,
  28898, 28874, 28850, 28827, 28803, 28779, 28755, 28730, 28706, 28682, 28658, 28633, 28609, 28584, 28560, 28535, 28510, 28485, 28460, 28436,
  28411, 28385, 28360, 28335, 28310, 28284, 28259, 28234, 28208, 28182, 28157, 28131, 28105, 28079, 28053, 28027, 28001, 27975, 27949, 27923,
  27896, 27870, 27843, 27817, 27790, 27764, 27737, 27710, 27683, 27656, 27629, 27602, 27575, 27548, 27521, 27493, 27466, 27439, 27411, 27384,
  27356, 27328, 27300, 27273, 27245, 27217, 27189, 27161, 27133, 27104, 27076, 27048, 27019, 26991, 26962, 26934, 26905, 26876, 26848, 26819]

/-- 32 767 cos(2πi/4096) to the nearest integer, i from 400. -/
def cosPart4 : List Int := [
  26790, 26761, 26732, 26703, 26674, 26644, 26615, 26586, 26556, 26527, 26497, 26468, 26438, 26408, 26378, 26349, 26319, 26289, 26259, 26229,
  26198, 26168, 26138, 26108, 26077, 26047, 26016, 25986, 25955, 25924, 25893, 25863, 25832, 25801, 25770, 25739, 25708, 25676, 25645, 25614,
  25582, 25551, 25519, 25488, 25456, 25425, 25393, 25361, 25329, 25297, 25265, 25233, 25201, 25169, 25137, 25105, 25072, 25040, 25007, 24975,
  24942, 24910, 24877, 24844, 24811, 24779, 24746, 24713, 24680, 24647, 24613, 24580, 24547, 24514, 24480, 24447, 24413, 24380, 24346, 24312,
  24279, 24245, 24211, 24177, 24143, 24109, 24075, 24041, 24007, 23973, 23938, 23904, 23870, 23835, 23801, 23766, 23731, 23697, 23662, 23627]

/-- 32 767 cos(2πi/4096) to the nearest integer, i from 500. -/
def cosPart5 : List Int := [
  23592, 23557, 23522, 23487, 23452, 23417, 23382, 23347, 23311, 23276, 23241, 23205, 23170, 23134, 23099, 23063, 23027, 22991, 22956, 22920,
  22884, 22848, 22812, 22776, 22739, 22703, 22667, 22631, 22594, 22558, 22521, 22485, 22448, 22411, 22375, 22338, 22301, 22264, 22227, 22191,
  22154, 22116, 22079, 22042, 22005, 21968, 21930, 21893, 21856, 21818, 21781, 21743, 21705, 21668, 21630, 21592, 21554, 21516, 21479, 21441,
  21403, 21364, 21326, 21288, 21250, 21212, 21173, 21135, 21096, 21058, 21019, 20981, 20942, 20904, 20865, 20826, 20787, 20748, 20709, 20670,
  20631, 20592, 20553, 20514, 20475, 20436, 20396, 20357, 20317, 20278, 20238, 20199, 20159, 20120, 20080, 20040, 20000, 19961, 19921, 19881]

/-- 32 767 cos(2πi/4096) to the nearest integer, i from 600. -/
def cosPart6 : List Int := [
  19841, 19801, 19761, 19721, 19680, 19640, 19600, 19560, 19519, 19479, 19438, 19398, 19357, 19317, 19276, 19236, 19195, 19154, 19113, 19072,
  19032, 18991, 18950, 18909, 18868, 18826, 18785, 18744, 18703, 18661, 18620, 18579, 18537, 18496, 18454, 18413, 18371, 18330, 18288, 18246,
  18204, 18163, 18121, 18079, 18037, 17995, 17953, 17911, 17869, 17827, 17784, 17742, 17700, 17657, 17615, 17573, 17530, 17488, 17445, 17403,
  17360, 17317, 17275, 17232, 17189, 17146, 17104, 17061, 17018, 16975, 16932, 16889, 16846, 16802, 16759, 16716, 16673, 16630, 16586, 16543,
  16499, 16456, 16413, 16369, 16325, 16282, 16238, 16195, 16151, 16107, 16063, 16019, 15976, 15932, 15888, 15844, 15800, 15756, 15712, 15667]

/-- 32 767 cos(2πi/4096) to the nearest integer, i from 700. -/
def cosPart7 : List Int := [
  15623, 15579, 15535, 15491, 15446, 15402, 15358, 15313, 15269, 15224, 15180, 15135, 15090, 15046, 15001, 14956, 14912, 14867, 14822, 14777,
  14732, 14688, 14643, 14598, 14553, 14507, 14462, 14417, 14372, 14327, 14282, 14236, 14191, 14146, 14101, 14055, 14010, 13964, 13919, 13873,
  13828, 13782, 13736, 13691, 13645, 13599, 13554, 13508, 13462, 13416, 13370, 13324, 13279, 13233, 13187, 13141, 13094, 13048, 13002, 12956,
  12910, 12864, 12817, 12771, 12725, 12679, 12632, 12586, 12539, 12493, 12446, 12400, 12353, 12307, 12260, 12214, 12167, 12120, 12074, 12027,
  11980, 11933, 11886, 11840, 11793, 11746, 11699, 11652, 11605, 11558, 11511, 11464, 11417, 11370, 11322, 11275, 11228, 11181, 11133, 11086]

/-- 32 767 cos(2πi/4096) to the nearest integer, i from 800. -/
def cosPart8 : List Int := [
  11039, 10992, 10944, 10897, 10849, 10802, 10754, 10707, 10659, 10612, 10564, 10517, 10469, 10421, 10374, 10326, 10278, 10231, 10183, 10135,
  10087, 10039, 9992, 9944, 9896, 9848, 9800, 9752, 9704, 9656, 9608, 9560, 9512, 9464, 9416, 9367, 9319, 9271, 9223, 9175,
  9126, 9078, 9030, 8981, 8933, 8885, 8836, 8788, 8739, 8691, 8642, 8594, 8545, 8497, 8448, 8400, 8351, 8303, 8254, 8205,
  8157, 8108, 8059, 8010, 7962, 7913, 7864, 7815, 7767, 7718, 7669, 7620, 7571, 7522, 7473, 7424, 7375, 7326, 7277, 7228,
  7179, 7130, 7081, 7032, 6983, 6934, 6885, 6836, 6786, 6737, 6688, 6639, 6590, 6540, 6491, 6442, 6393, 6343, 6294, 6245]

/-- 32 767 cos(2πi/4096) to the nearest integer, i from 900. -/
def cosPart9 : List Int := [
  6195, 6146, 6096, 6047, 5998, 5948, 5899, 5849, 5800, 5750, 5701, 5651, 5602, 5552, 5503, 5453, 5404, 5354, 5305, 5255,
  5205, 5156, 5106, 5056, 5007, 4957, 4907, 4858, 4808, 4758, 4708, 4659, 4609, 4559, 4509, 4460, 4410, 4360, 4310, 4260,
  4210, 4161, 4111, 4061, 4011, 3961, 3911, 3861, 3811, 3761, 3712, 3662, 3612, 3562, 3512, 3462, 3412, 3362, 3312, 3262,
  3212, 3162, 3112, 3062, 3012, 2962, 2911, 2861, 2811, 2761, 2711, 2661, 2611, 2561, 2511, 2461, 2410, 2360, 2310, 2260,
  2210, 2160, 2110, 2059, 2009, 1959, 1909, 1859, 1809, 1758, 1708, 1658, 1608, 1558, 1507, 1457, 1407, 1357, 1307, 1256]

/-- 32 767 cos(2πi/4096) to the nearest integer, i from 1000. -/
def cosPart10 : List Int := [
  1206, 1156, 1106, 1055, 1005, 955, 905, 854, 804, 754, 704, 653, 603, 553, 503, 452, 402, 352, 302, 251,
  201, 151, 101, 50, 0]

/-- The quarter wave (R240). -/
def cosQuarter : Nat → Int := fun i =>
  match i / 100 with
  | 0 => nth 0 cosPart0 (i % 100)
  | 1 => nth 0 cosPart1 (i % 100)
  | 2 => nth 0 cosPart2 (i % 100)
  | 3 => nth 0 cosPart3 (i % 100)
  | 4 => nth 0 cosPart4 (i % 100)
  | 5 => nth 0 cosPart5 (i % 100)
  | 6 => nth 0 cosPart6 (i % 100)
  | 7 => nth 0 cosPart7 (i % 100)
  | 8 => nth 0 cosPart8 (i % 100)
  | 9 => nth 0 cosPart9 (i % 100)
  | _ => nth 0 cosPart10 (i % 100)

/-- cos_tab[i], i from 0 to 4 095 (R240). -/
def cosTab (i : Nat) : Int :=
  let i := i % 4096
  if i ≤ 1024 then cosQuarter i
  else if i ≤ 2048 then -cosQuarter (2048 - i)
  else if i ≤ 3072 then -cosQuarter (i - 2048)
  else cosQuarter (4096 - i)

/-- sin_tab[i] (R240). -/
def sinTab (i : Nat) : Int := cosTab (i + 3072)

/-- The first half of the window w[k], k from 0 to 44 (R240). -/
def winHalf : List Int := [
  0, 61, 243, 545, 965, 1503, 2154, 2915, 3783, 4753, 5821, 6980, 8225, 9550, 10947,
  12410, 13931, 15503, 17117, 18766, 20440, 22131, 23831, 25531, 27223, 28897, 30545, 32159, 33731, 35252,
  36715, 38113, 39437, 40683, 41842, 42909, 43879, 44747, 45509, 46160, 46697, 47118, 47420, 47602, 47666]

/-- w[k], k from 0 to 88 (R240). -/
def winAt (k : Nat) : Int := nth 0 winHalf (if k ≤ 44 then k else 88 - k)

end Sys2Proof.Machine
end

