-- ==== Sys2Proof/Machine/Legacy.lean ====
section
/-!
DEFINITION. Machine/Legacy.lean: the legacy wheel-sensor front end (10_legacy_front_end.md): conversions, ranges, clamps, demodulation,
baselines, test tones and faults, and LEGACY_CAL (R219 to R221).
-/
namespace Sys2Proof.Machine

/-! ## Access -/

/-- The front end changed. -/
def mapLhf (f : LhfSt → LhfSt) (s : State) : State := { s with lhf := f s.lhf }

/-- A system. -/
def sysOf (s : State) (n : Nat) : LSys := nth LSys.reset s.lhf.sys n

/-- A system changed. -/
def mapSys (n : Nat) (f : LSys → LSys) (s : State) : State := mapLhf (fun x => { x with sys := setNth x.sys n (f (nth LSys.reset x.sys n)) }) s

/-- Counter k of system n (R459). -/
def sysBump (n k : Nat) (s : State) : State := bump (0xBC00 + 0x60 * n + 4 * k) s

/-- Bits of the registers of system n: LHF_CTL (R456). -/
def ctlF (s : State) (n hi lo : Nat) : Nat := regF s (0xB004 + 0x10 * n) hi lo

/-- Whether range r of channel n is usable (R221, R456). -/
def rangeUsable (s : State) (n r : Nat) : Bool := bitOf (reg s 0xB180) (4 * n + r)

/-- The usable ranges of a channel. -/
def usableRanges (s : State) (n : Nat) : List Nat := (List.range 4).filter (rangeUsable s n)

/-- The highest usable range of a channel (R238). -/
def topRange (s : State) (n : Nat) : Nat := (usableRanges s n).headD 0

/-- bb of a baseline (R242). -/
def LSys.bb (x : LSys) : Int :=
  let i := rne x.b48i 16
  let q := rne x.b48q 16
  i * i + q * q

/-- A SAR: 0 or 1 (R235). -/
def sarOf (s : State) (u : Nat) : LSar := if u = 0 then s.lhf.sar.a else s.lhf.sar.b

/-- A SAR changed. -/
def mapSar (u : Nat) (f : LSar → LSar) (s : State) : State :=
  mapLhf (fun e => { e with sar := if u = 0 then { e.sar with a := f e.sar.a } else { e.sar with b := f e.sar.b } }) s

/-- Whether fault f (1 to 8) stands for a system (R247). -/
def LSys.fault (x : LSys) (f : Nat) : Bool := nth false x.faults (f - 1)

/-- Whether a fault stands for a system. -/
def LSys.faulty (x : LSys) : Bool := x.faults.any id

/-! ## Settling (R244) -/

/-- The cycle in progress at the instant now, by the grid of R235. -/
def cycleNow (s : State) : Int := (s.now - s.lhf.tG) / 7200

/-- The first value index whose first cycle lies after the cycle in progress (R244). -/
def nextValue (s : State) : Nat := (cycleNow s / 22 + 1).toNat

/-- A settling: values from `lo` to hc + 64 are UNSETTLED, hc + 1 to hc + 64 capture the baseline (R244). -/
def LSys.settle (lo hc : Nat) (x : LSys) : LSys :=
  { x with uns := some (lo, hc + 64), cap := some (hc + 1), capN := 0, capI := 0, capQ := 0 }

/-- A settling as after a write to FREQ (R244). -/
def settleSys (n : Nat) (s : State) : State :=
  let hc := nextValue s
  mapSys n (fun x => x.settle (hc - 4) hc) s

/-! ## Faults (R247, R248) -/

/-- The legacy heads that name a system enter FAILED with cause 10 (R247). -/
def failLegacy (n : Nat) (s : State) : State :=
  ((portHeads s 2).filter (fun e => e.2.z1 == n || e.2.z2 == n)).foldl (fun s e => bothLanes.foldl (fun s l =>
    let pr := profile s e.2.profile
    let x := headOf s l e.1 pr
    if x.st = 4 || !laneTakes s l then s
    else keepWork l e.1 x.st (HWork.goto e.2 pr e.1 4 10 (x.tLast.getD s.now) none { x := x, out := [] }) s) s) s

/-- Fault f (1 to 8) of a system set without its record. -/
def markFault (n f : Nat) (s : State) : State := failLegacy n (mapSys n (fun x => { x with faults := setNth x.faults (f - 1) true }) s)

/-- Fault f of a system detected: counted and recorded (R247, R434). -/
def setFault (n f : Nat) (reading : Int) (s : State) : State :=
  if (sysOf s n).fault f then s
  else note evFeFault .field 0 (w32 n) (w32 f) (w32i reading) (sysBump n (8 + f) (markFault n f s))

/-- Fault f of a system taken away; when it was the last one the system settles (R248, R250). -/
def unmarkFault (n f : Nat) (s : State) : State :=
  let s := mapSys n (fun x => { x with faults := setNth x.faults (f - 1) false }) s
  if (sysOf s n).faulty then s else settleSys n s

/-- Fault f of a system cleared (R247, R248). -/
def clearFault (n f : Nat) (reading : Int) (s : State) : State :=
  if (sysOf s n).fault f then note evFeFaultClear .field 0 (w32 n) (w32 f) (w32i reading) (unmarkFault n f s) else s

/-! ## FIELD starts and stops (R235, R244) -/

/-- A system at a FIELD start. -/
def startSys (s : State) (tG : Int) (n : Nat) : LSys :=
  let en := ctlF s n 0 0 = 1
  let x := { LSys.reset with en := en, freq := regF s (0xB000 + 0x10 * n) 29 0, amp := ctlF s n 15 8, te := tG, range := topRange s n }
  if en then x.settle 0 0 else x

/-- FIELD enters service: t_G is the first 10 ns grid point 20 µs later, t_T the first 1 ms strobe after (R235, R245). -/
def fieldStart (s : State) : State :=
  let tG := grid10 (s.now + 20000)
  let s := { s with lhf := { LhfSt.reset with on := true, tG := tG, tT := (s.now / 1000000 + 1) * 1000000, sar := ⟨LSar.reset tG, LSar.reset tG⟩,
                                              sys := (List.range 8).map (startSys s tG) } }
  let s := mapFch .field (fun x => { x with run := true, close := none, endAt := none, buf := [], entered := none }) s
  (List.range 8).foldl (fun s n => if usableRanges s n = [] then setFault n 7 0 s else s) s

/-! ## Excitation changes (R234, R244) -/

/-- What a system's output gives at t: none while it is high impedance; else the carrier's phase in units of 2^-44 turn, as its generator last
updated it, and its amplitude in mVpp, and of a test tone in progress the same (R234, R245, R247). -/
def excOutput (x : LSys) (t : Int) : Option ((Int × Nat) × Option (Int × Nat)) :=
  let u := t / 100 * 100
  if !x.en || x.fault 1 then none
  else
    some ((((u - x.te) * (x.freq : Nat)) % p2 44, 10 * x.amp),
      (x.burst.filter (fun b => decide (b.start ≤ t) && decide (t < b.stop))).map (fun b => (((u - b.start) * (b.f : Nat)) % p2 44, x.amp)))

/-- The excitation that a change brings at value index hc: with fault 1 standing it waits until EN rises (R244, R250); a burst ends there. -/
def changeSys (s : State) (n hc : Nat) (rise held : Bool) (x : LSys) : LSys :=
  let te := s.lhf.tG + 158400 * (hc : Nat)
  let y := { x with change := none, enLow := false, en := ctlF s n 0 0 = 1,
                    burst := x.burst.map (fun b => if te < b.stop then { b with stop := te, skip := true } else b) }
  if held then y else
  let y := { y with freq := regF s (0xB000 + 0x10 * n) 29 0, amp := ctlF s n 15 8, te := te }
  if rise then { (y.settle hc hc) with b48i := 0, b48q := 0, seen := false, range := topRange s n, down := 0 }
  else if y.en then y.settle (hc - 4) hc
  else y

/-- A change that has come to its cycle (R244). EN rises also where it was written 0 and 1 again before the cycle (R247). -/
def applyChange (n : Nat) (c : Int) (s : State) : State :=
  let x := sysOf s n
  match x.change with
  | none => s
  | some hc =>
    if c < 22 * (hc : Nat) then s
    else
      let en := ctlF s n 0 0 = 1
      let rise := en && (!x.en || x.enLow)
      let s := mapSys n (changeSys s n hc rise (x.fault 1 && !rise)) s
      if rise then clearFault n 1 0 s else s

/-- LHF_EXCs or LHF_CTLs of a system written. A value that breaks a field's limits is ignored and recorded (R234); otherwise the register is
written and, where FREQ is written or AMP or EN changes, the excitation changes at c_x (R244), or as FIELD next enters ACTIVE (R451). -/
def excitationWrite (n : Nat) (ctl : Bool) (value : Word) (s : State) : State :=
  let off := 0xB000 + 0x10 * n + (if ctl then 4 else 0)
  let ok := if ctl then fld value 23 16 ≤ 200 && fld value 15 8 ≤ (if bitOf value 1 then 181 else 200)
    else 175921860 ≤ fld value 29 0 && fld value 29 0 ≤ 615726512
  let v := w32 (if ctl then value.toNat &&& 0xFFFF03 else fld value 29 0)
  let old := reg s off
  let moves := !ctl || fld v 15 8 != fld old 15 8 || bitOf v 0 != bitOf old 0
  if !ok then ignoreWrite .field 0 off value 0 s
  else if !lands s (pregWord off) || !active s .field || !moves then pstArrive off (pregWord off) v s
  else
    let s := applyChange n (cycleNow s) s
    mapSys n (fun x => { x with change := some (x.change.getD (nextValue s)), enLow := x.enLow || (ctl && !bitOf v 0) })
      (pstArrive off (pregWord off) v s)

/-- LHF_EXCITATION_CHANGE (R244). -/
def execLhfExcitationChange (t : Int) (sys : Fin 8) (ctl : Bool) (value : Word) (s : State) : Host.Outcome State Fault Refusal :=
  let s := atTime t s
  if !active s .host then settle s else settle (excitationWrite sys.val ctl value s)

/-! ## Sense conversions (R237 to R239) -/

/-- The range-normalised value of a code (R219). -/
def normCode (s : State) (n r : Nat) (code : Int) : Int :=
  let w := reg s (0xB100 + 0x10 * n + 4 * r)
  sat16 (rne ((16 * code - signed (fld w 15 0) 16) * ((fld w 31 16 : Nat) : Int)) (15 + r))

/-- The next conversion's range after a sample without CLAMP, and the count of samples toward a lower range (R238). -/
def nextRange (s : State) (n : Nat) (x : LSys) (code : Int) : Nat × Nat :=
  let us := usableRanges s n
  let a := if code < 0 then -code else code
  let up := (us.filter (fun r => decide (r < x.range))).getLast?
  let dn := us.find? (fun r => decide (r > x.range))
  if code = 2047 || code = -2048 then (topRange s n, 0)
  else if 10 * a > 18432 then (up.getD x.range, 0)
  else
    match dn with
    | some r =>
      if 10 * a * p2 (r - x.range) < 7168 then (if x.down + 1 ≥ 16 then (r, 0) else (x.range, x.down + 1)) else (x.range, 0)
    | none => (x.range, 0)

/-- The sign of the clamp in whose marked time a strobe lies, true for +: from the trip until `after` ns past the release (R239). -/
def clampAt (x : LSys) (t after : Int) : Option Bool :=
  match x.clamp.filter (fun c => decide (c.1 ≤ t)) with
  | some c => some c.2
  | none => (x.past.filter (fun r => decide (r.1 ≤ t) && decide (t ≤ r.2.1 + after))).map (·.2.2)

/-- Whether another channel of the SAR disturbs a strobe (R239). -/
def neighbourMarks (s : State) (n : Nat) (t : Int) : Bool :=
  (List.range 4).any (fun k => 4 * (n / 4) + k != n && (clampAt (sysOf s (4 * (n / 4) + k)) t 10000).isSome)

/-- One sense sample of a system, its strobe at t: its marks, value and range decision (R237 to R239). A channel in LEGACY_CAL converts the internal
reference on the range under measurement, and decides nothing (R220, R243). -/
def takeSample (n : Nat) (t code : Int) (s : State) : State :=
  let x := sysOf s n
  let ref := x.ref.filter (fun r => decide (r.start ≤ t))
  let rng := (ref.map (·.range)).getD x.range
  let clamp := clampAt x t 20000
  let nb := neighbourMarks s n t
  let clip := clamp.isNone && (code = 2047 || code = -2048)
  let v := match clamp with
    | some up => if up then 24576 else -24576
    | none => normCode s n rng code
  let m := b2n clip + 2 * b2n clamp.isSome + 4 * b2n nb + 8 * b2n ref.isSome + 16 * b2n (clip && rng = topRange s n)
  let r := if clamp.isSome || ref.isSome then (x.range, x.down) else nextRange s n x code
  let s := if clip then sysBump n 0 s else s
  let s := if clamp.isSome then sysBump n 1 s else s
  let s := if nb then sysBump n 2 s else s
  let s := if r.1 < x.range then sysBump n 3 s else if r.1 > x.range then sysBump n 4 s else s
  mapSys n (fun x => { x with win := ({ t := t, lt := !s.net.joined, mv := 0, code := code, r := rng, v := v, m := m } :: x.win).take 89,
                              range := r.1, down := r.2 }) s

/-! ## Demodulation (R240 to R243) -/

/-- One demodulated value over a window, newest sample first: (zr, zj) (R240). -/
def demod (win : List LSamp) (te : Int) (f : Nat) : Int × Int :=
  let r := win.foldl (fun (a : Nat × Int × Int) x =>
    let ph := ((x.t + x.mv - te) * (f : Nat)) % p2 44
    let ix := (rne ph 32 % 4096).toNat
    (a.1 + 1, a.2.1 + winAt a.1 * x.v * cosTab ix, a.2.2 - winAt a.1 * x.v * sinTab ix)) (0, 0, 0)
  (rne r.2.1 35, rne r.2.2 35)

/-- The damping x of a value (R242). -/
def damping (x : LSys) (z : Int × Int) : Int :=
  let bb := x.bb
  if bb = 0 then 0 else sat16 (rnd (32768 * (bb - (z.1 * rne x.b48i 16 + z.2 * rne x.b48q 16))) bb)

/-- The marks of a window: OR of its samples' marks. -/
def winMarks (win : List LSamp) : Nat := win.foldl (fun m x => m ||| x.m) 0

/-- A capture value (R242): summed, or the capture restarted by a disturbed window; the 64th gives the baseline. -/
def captureStep (h : Nat) (dirty : Bool) (z : Int × Int) (x : LSys) : LSys :=
  if dirty then { x with cap := some (h + 1), capN := 0, capI := 0, capQ := 0, uns := x.uns.map (fun u => (u.1, h + 64)) }
  else
    let y := { x with capN := x.capN + 1, capI := x.capI + z.1, capQ := x.capQ + z.2 }
    if y.capN = 64 then { y with cap := none, seen := true, b48i := rnd (65536 * y.capI) 64, b48q := rnd (65536 * y.capQ) 64 } else y

/-- The baseline tracker (R242). -/
def trackBase (shift : Nat) (z : Int × Int) (x : LSys) : LSys :=
  { x with b48i := x.b48i + rne (65536 * z.1 - x.b48i) shift, b48q := x.b48q + rne (65536 * z.2 - x.b48q) shift }

/-- A tone value of a burst, when its window lies in the burst's time; a carrier value whose window overlaps the burst and that is disturbed skips it; one
whose window begins after its end closes it (R245, R246). -/
def burstStep (win : List LSamp) (disturbed : Bool) (x : LSys) : LSys :=
  match x.burst, win.head?, win.getLast? with
  | some b, some new, some old =>
    let t1 := new.t + new.mv
    let t0 := old.t + old.mv
    let b := { b with skip := b.skip || (t1 ≥ b.start && t0 ≤ b.stop && disturbed), past := b.past || t0 > b.stop }
    if t0 ≥ b.start + 50000 && t1 ≤ b.stop && b.cnt < 8 then
      let z := demod win b.start b.f
      { x with burst := some { b with ti := b.ti + z.1, tq := b.tq + z.2, cnt := b.cnt + 1 } }
    else { x with burst := some b }
  | _, _, _ => x

/-- The weak-signal and clip faults of a value (R247): a capture that ends well clears the first. -/
def valueFaults (n : Nat) (ended : Bool) (m : Nat) (s : State) : State :=
  let x := sysOf s n
  let floor := ((regF s 0xB084 14 0 : Nat) : Int)
  let weak := x.seen && x.cap.isNone && x.bb < floor * floor
  let s := if weak then setFault n 3 (min x.bb 2147483647) s else if ended then clearFault n 3 (min x.bb 2147483647) s else s
  let top := has m 4
  let clip := has m 0
  let s := mapSys n (fun x => { x with clipRun := if top then x.clipRun + 1 else 0, cleanRun := if clip then 0 else x.cleanRun + 1 }) s
  let s := if (sysOf s n).clipRun ≥ 64 then setFault n 6 0 s else s
  if (sysOf s n).cleanRun ≥ 64 then clearFault n 6 0 s else s

/-- Value h of a system formed: its marks, the damping, the baseline, and what FCH-FIELD receives (R240 to R243). -/
def formValue (n h : Nat) (s : State) : State :=
  let x := sysOf s n
  let z := demod x.win x.te x.freq
  let m := winMarks x.win
  let bad := has m 0 || has m 1
  let dirty := bad || has m 2 || has m 3
  let uns := x.uns.any (fun u => u.1 ≤ h && h ≤ u.2)
  let d := damping x z
  let invalid := dirty || !x.en || x.faulty || x.bb = 0
  let lim := ((regF s 0xB080 14 0 : Nat) : Int)
  let capturing := x.cap.any (fun c => decide (c ≤ h))
  let recap := !capturing && !invalid && !uns && d < -lim
  let y := if capturing then captureStep h dirty z x
    else if invalid || uns then x
    else if d < lim && -d < lim then trackBase (regF s 0xB080 20 16) z x
    else if d < -lim then { x with b48i := 65536 * z.1, b48q := 65536 * z.2 }
    else x
  let y := burstStep x.win (bad || has m 2 || uns || d ≥ lim || -d ≥ lim) y
  let s := mapSys n (fun _ => y) s
  let s := if recap then note evRecapture .field 0 (w32 n) (w32i d) 0 (sysBump n 5 s) else s
  let s := valueFaults n (capturing && y.cap.isNone) m s
  let mk := mark (mark (mark (mark 0 mkUnset uns) mkCombo recap) mkOvrX bad) 12 (has m 2)
  let inc : Inc := { cause := if invalid then 3 else 0, v := if invalid then 0 else d, q := 255, marks := mk, slow := none }
  let mid := nth { t := 0, lt := false, mv := 0, code := 0, r := 0, v := 0, m := 0 } x.win 44
  mapLhf (fun e => { e with vals := e.vals ++ [{ h := h, s := n, inc := inc, t := mid.t, lt := mid.lt, mv := mid.mv }] }) s

/-- The eight values of an index handed to FCH-FIELD once all are formed (R241). -/
def handValues (h : Nat) (s : State) : State :=
  let vs := sortBy (fun v => (v.s : Int)) (s.lhf.vals.filter (fun v => v.h == h))
  if vs.length < 8 then s
  else
    let t := (vs.head?.map (·.t)).getD 0
    let u := (vs.head?.map (fun v => v.t + v.mv)).getD 0
    let k : LineTok := { n := h, t := t, lt := (vs.head?.map (·.lt)).getD false, ts := 158400, delta := 158400, toff := 0, groups := 1,
                         start := h == 0, gaugeNew := false, scale := 0, ofSlow := false, decim := regF s 0x5800 4 0, noStream := true,
                         bins := vs.map (fun v => (v.s, v.inc)), offs := vs.map (fun v => (v.s, v.t + v.mv - u)) }
    enterLine .field true k (mapLhf (fun e => { e with vals := e.vals.filter (fun v => v.h != h) }) s)

/-! ## Housekeeping (R236, R247) -/

/-- An excitation monitor's routine reading (R247). -/
def monitorReading (n : Nat) (reading : Int) (s : State) : State :=
  let lo := reading < ((ctlF s n 23 16 : Nat) : Int)
  let s := mapSys n (fun x => { x with low := if lo then x.low + 1 else 0, good := if lo then 0 else x.good + 1 }) s
  let s := if (sysOf s n).low ≥ 2 then setFault n 2 reading s else s
  if (sysOf s n).good ≥ 2 then clearFault n 2 reading s else s

/-- A routine reading of a SAR's reference: it concerns its four systems (R247). -/
def referenceReading (u : Nat) (reading : Int) (s : State) : State :=
  let off := reading - 1792 > 18 || 1792 - reading > 18
  let s := mapSar u (fun x => { x with bad := if off then x.bad + 1 else 0, good := if off then 0 else x.good + 1 }) s
  let x := sarOf s u
  let ns := span (4 * u) 4
  let stands := (sysOf s (4 * u)).fault 8
  if x.bad ≥ 2 && !stands then
    note evFeFault .field 0 (w32 (8 + u)) 8 (w32i reading) (ns.foldl (fun s n => sysBump n 16 (markFault n 8 s)) s)
  else if x.good ≥ 16 && stands then
    note evFeFaultClear .field 0 (w32 (8 + u)) 8 (w32i reading) (ns.foldl (fun s n => unmarkFault n 8 s) s)
  else s

/-- What a routine conversion of SAR u at place r of the rotation gives (table "Housekeeping inputs", R236). -/
def routineReading (u r : Nat) (reading : Int) (s : State) : State :=
  if r < 4 then monitorReading (4 * u + r) reading s
  else if r = 4 then referenceReading u reading (mapLhf (fun e => if u = 0 then { e with ref0 := reading } else { e with ref1 := reading }) s)
  else mapLhf (fun e => if u = 0 then { e with temp := reading } else { e with vin := reading.toNat }) s

/-- What an urgent conversion gives: the current of an output in 0.1 mA (R236, R247). -/
def urgentReading (n : Nat) (reading : Int) (s : State) : State := if reading ≥ 190 then setFault n 1 reading s else s

/-! ## The slots of a SAR (R235, R236) -/

/-- Something that falls at t within the command's instant. -/
def atInstant (t : Int) (f : State → State) (s : State) : State := { f { s with now := t } with now := s.now }

/-- The grid instant of a SAR's next slot (R235). -/
def gridAt (s : State) (u : Nat) : Int := s.lhf.tG + 7200 * ((sarOf s u).c : Nat) + 1800 * ((sarOf s u).k : Nat)

/-- The start of a SAR's next slot: the later of its grid instant and the end of the conversion before (R235). -/
def slotStart (s : State) (u : Nat) : Int := max (gridAt s u) (sarOf s u).free

/-- The routine conversion that runs at a SAR's next slot start: its strobe lies before it (R236). -/
def routineDue (s : State) (u : Nat) : Option (Int × Nat × Int) := (sarOf s u).routine.filter (fun r => decide (r.1 < slotStart s u))

/-- The end of a SAR's next sense conversion, 1 000 ns after its strobe, when no urgent request comes before (R235, R236). -/
def senseEnd (s : State) (u : Nat) : Int := slotStart s u + (if (routineDue s u).isSome then 3580 else 1790)

/-- The routine conversion at a SAR's next slot start carried out. -/
def runRoutine (u : Nat) (s : State) : State :=
  match routineDue s u with
  | none => s
  | some r =>
    let e := slotStart s u + 1790
    atInstant e (routineReading u r.2.1 r.2.2) (mapSar u (fun x => { x with free := e, routine := none }) s)

/-- An urgent conversion that begins at b aborts what runs: a routine conversion that has ended by then stands, another starts again after it, as does the
sense conversion (R236, R250). -/
def runUrgent (u : Nat) (b : Int) (n : Nat) (reading : Int) (s : State) : State :=
  let s := if slotStart s u + 1790 ≤ b then runRoutine u s else s
  atInstant (b + 1790) (urgentReading n reading) (mapSar u (fun x => { x with free := b + 1790 }) s)

/-- The urgent conversions of a SAR that begin before its next sense conversion ends. -/
def runUrgents (u : Nat) : List (Int × Nat × Int) → State → State
  | [], s => s
  | w :: r, s =>
    if w.1 < senseEnd s u then runUrgents u r (mapSar u (fun x => { x with wait := r }) (runUrgent u w.1 w.2.1 w.2.2 s)) else s

/-- ROUTINE_CONVERSION: at a 1 ms strobe each SAR has a routine conversion to run at its next slot start (R236). -/
def execRoutineConversion (t : Int) (reading0 reading1 : Int) (s : State) : Host.Outcome State Fault Refusal :=
  let s := atTime t s
  if !active s .field || !s.lhf.on || t % 1000000 != 0 then settle s
  else
    let r := s.lhf.rot
    let ask := fun (u : Nat) (reading : Int) => mapSar u (fun x => { x with routine := some (t, r, reading) })
    settle (ask 1 reading1 (ask 0 reading0 (mapLhf (fun e => { e with rot := (r + 1) % 6 }) s)))

/-- URGENT_CONVERSION: an output's current limit tripped. The conversion begins at the next 10 ns grid point, 2 000 µs after the SAR's urgent one before at
the soonest (R236); its reading, in 0.1 mA, counts as it ends. -/
def execUrgentConversion (t : Int) (sys : Fin 8) (reading : Int) (s : State) : Host.Outcome State Fault Refusal :=
  let s := atTime t s
  if !active s .field || !s.lhf.on then settle s
  else
    let u := sys.val / 4
    let b := max (grid10 t) (((sarOf s u).urg.map (· + 2000000)).getD (grid10 t))
    settle (bump (0xBF00 + 4 * u) (mapSar u (fun x => { x with urg := some b, wait := x.wait ++ [(b, sys.val, reading)] }) s))

/-- The SAR moved to its next slot; its largest strobe delay is kept (R235, R459). -/
def nextSlot (u : Nat) (strobe : Int) (s : State) : State :=
  bumpMax (0xBF08 + 4 * u) (strobe - 790 - gridAt s u).toNat
    (mapSar u (fun x => { x with c := if x.k = 3 then x.c + 1 else x.c, k := if x.k = 3 then 0 else x.k + 1, free := strobe + 1000 }) s)

/-! ## Clamps (R239) -/

/-- CLAMP_TRIP (R239). -/
def execClampTrip (t : Int) (sys : Fin 8) (positive : Bool) (s : State) : Host.Outcome State Fault Refusal :=
  let s := atTime t s
  if !active s .field || !s.lhf.on then settle s
  else settle (mapSys sys.val (fun x => { x with clamp := some (t, positive) }) s)

/-- CLAMP_RELEASE: the channel starts on its highest usable range, and a held clamp's fault clears (R238, R239, R247). -/
def execClampRelease (t : Int) (sys : Fin 8) (s : State) : Host.Outcome State Fault Refusal :=
  let s := atTime t s
  let n := sys.val
  match (sysOf s n).clamp with
  | none => settle s
  | some c =>
    let s := mapSys n (fun x => { x with clamp := none, past := some (c.1, t, c.2), range := topRange s n, down := 0 }) s
    settle (clearFault n 5 0 s)

/-! ## Test tones (R245, R246) -/

/-- The number of the burst of system n that starts at t: t_T + 250·k + 31.25·n ms (R245). -/
def burstAt (s : State) (n : Nat) (t : Int) : Option Nat :=
  let d := t - s.lhf.tT - 31250000 * (n : Nat)
  if 0 ≤ d && d % 250000000 = 0 then some (d / 250000000).toNat else none

/-- TONE_BURST_START: a burst of 2 ms of a system (R245). An output that is high impedance adds none. -/
def execToneBurstStart (t : Int) (sys : Fin 8) (s : State) : Host.Outcome State Fault Refusal :=
  let s := atTime t s
  let n := sys.val
  let x := sysOf s n
  match burstAt s n t with
  | none => settle s
  | some k =>
    if !active s .field || !s.lhf.on || ctlF s n 1 1 = 0 || (excOutput x t).isNone then settle s
    else
      let f := if k % 2 = 0 then x.freq + 54975581 else x.freq - 54975581
      settle (mapSys n (fun x => { x with burst := some { n := k, start := t, stop := t + 2000000, f := f, bb := x.bb, ti := 0, tq := 0, cnt := 0,
                                                          skip := false, past := false } }) s)

/-- The entry of a sign of the tone bursts changed: even bursts first (R245). -/
def ofSign {α : Type} (even : Bool) (f : α → α) (t : Two α) : Two α := if even then { t with a := f t.a } else { t with b := f t.b }

/-- The tone fault after an evaluated burst of a sign: two of it fail, two of that sign pass in a row (R247). -/
def toneFault (n : Nat) (even fail : Bool) (q : Word) (s : State) : State :=
  let s := mapSys n (fun x => { x with toneBad := ofSign even (fun k => if fail then k + 1 else 0) x.toneBad,
                                       toneGood := ofSign even (fun k => if fail then 0 else k + 1) x.toneGood }) s
  let x := sysOf s n
  let stands := ofSign even (fun b => if (if even then x.toneBad.a else x.toneBad.b) ≥ 2 then true
                                           else if (if even then x.toneGood.a else x.toneGood.b) ≥ 2 then false else b) x.toneStand
  let s := mapSys n (fun x => { x with toneStand := stands }) s
  if stands.a || stands.b then setFault n 4 q.toNat s else clearFault n 4 q.toNat s

/-- TONE_BURST_EVALUATE: once every carrier value whose window overlaps the burst has been formed (R246). -/
def execToneBurstEvaluate (t : Int) (sys : Fin 8) (s : State) : Host.Outcome State Fault Refusal :=
  let s := atTime t s
  let n := sys.val
  match (sysOf s n).burst with
  | none => settle s
  | some b =>
    if !b.past then settle s
    else if b.skip then settle (sysBump n 7 (mapSys n (fun x => { x with burst := none }) s))
    else
      let ti := rnd b.ti 8
      let tq := rnd b.tq 8
      let q := w32i (satu (rnd (1048576 * (ti * ti + tq * tq)) b.bb) 32)
      let fail := q.toNat < (reg s (0xB008 + 0x10 * n)).toNat || q.toNat > (reg s (0xB00C + 0x10 * n)).toNat
      let s := sysBump n 6 (mapSys n (fun x => { x with burst := none, q := q }) s)
      settle (toneFault n (b.n % 2 == 0) fail q (if fail then sysBump n 8 s else s))

/-! ## LEGACY_CAL (R219 to R221) -/

/-- The pair of a measured range, when it is accepted: offset and gain (R220, R221). -/
def calPair (m : RefCal) : Option (Int × Int) :=
  let off := rne m.s0 4
  let sp := rne (m.sp - m.sm) 4
  let g := rnd (57344 * 16384) sp
  if m.dist || sp ≤ 0 || g < 0x3800 || g > 0x4800 || off < -1024 || off > 1024 then none else some (off, g)

/-- The measurement of a range begun, for the first or the second time. -/
def RefCal.begin (r : RefCal) (range : Nat) (again : Bool) : RefCal :=
  { r with range := range, point := 0, k := 0, s0 := 0, sp := 0, sm := 0, dist := false, again := again }

/-- A channel's calibration begun at its first range (R220). -/
def RefCal.new (t : Int) : RefCal :=
  { start := t, range := 0, point := 0, k := 0, s0 := 0, sp := 0, sm := 0, dist := false, again := false, pairs := [], sick := false }

/-- A range measured: a disturbed one is measured once more; else its pair is kept where it is accepted, and the next range begins (R220, R221, R250). -/
def RefCal.close (r : RefCal) : RefCal :=
  if r.dist && !r.again then r.begin r.range true
  else
    match calPair r with
    | some p => { r.begin (r.range + 1) false with pairs := r.pairs ++ [(r.range, p)] }
    | none => r.begin (r.range + 1) false

/-- A conversion of the internal reference: 256 at zero, at + and at - 0.875 × full scale (R220). -/
def RefCal.take (code : Int) (disturbed sick : Bool) (r : RefCal) : RefCal :=
  let r := { r with k := r.k + 1, dist := r.dist || disturbed, sick := r.sick || sick,
                    s0 := if r.point = 0 then r.s0 + code else r.s0, sp := if r.point = 1 then r.sp + code else r.sp,
                    sm := if r.point = 2 then r.sm + code else r.sm }
  if r.k < 256 then r else if r.point < 2 then { r with point := r.point + 1, k := 0 } else r.close

/-- The ranges a channel's calibration accepted: none where the SAR's reference fault stood meanwhile (R221, R250). -/
def RefCal.accepted (r : RefCal) : List (Nat × Int × Int) := if r.sick then [] else r.pairs

/-- A channel whose ranges are all measured: its accepted pairs and LHF_RUSE go to their registers behind the writes already queued, the channel starts on its
highest usable range and settles (R8, R220, R221, R238, R244). -/
def calChannel (n c : Nat) (r : RefCal) (s : State) : State :=
  let got := r.accepted
  let bits : Nat := got.foldl (fun a p => a + 2 ^ p.1) 0
  let put := fun (off : Nat) (v : Word) (s : State) => pstArrive off (pregWord off) v s
  let s := got.foldl (fun s p => put (0xB100 + 0x10 * n + 4 * p.1) (halves (lo16 p.2.2) (lo16 p.2.1)) s) s
  let s := put 0xB180 ((List.range 4).foldl (fun u k => setBit u (4 * n + k) (bits.testBit k)) (reg s 0xB180)) s
  let hc := c / 22 + 1
  let s := mapSys n (fun x => { (if x.en then x.settle (hc - 4) hc else x) with ref := none, range := topRange s n, down := 0 }) s
  let s := if bits = 0 then setFault n 7 0 s else clearFault n 7 0 s
  let s := { s with cal := { s.cal with legacy := s.cal.legacy.map (fun x => { x with left := x.left.erase n, res := x.res + bits * 2 ^ (4 * n) }) } }
  note evLegacyCal .field 0 (w32 n) (w32 bits) 0 s

/-- A channel in LEGACY_CAL with the conversion of cycle c just taken, its strobe at t (R220). -/
def calStep (n c : Nat) (t code : Int) (s : State) : State :=
  let x := sysOf s n
  match x.ref with
  | none => s
  | some r =>
    if t < r.start then s
    else
      let hurt := (clampAt x t 20000).isSome || neighbourMarks s n t
      let r := r.take code hurt (x.fault 8)
      if r.range < 4 then mapSys n (fun x => { x with ref := some r }) s else calChannel n c r s

/-- LEGACY_CAL (R220): refused while FIELD is not ACTIVE, while a head that uses a named channel is neither OFF nor FAILED, and while another runs
(DEDUCED, log entry 46). -/
def effLegacyCal (c : HostCmd) (s : State) : State :=
  let mask := fld c.a0 7 0
  let chans := (List.range 8).filter (fun n => mask.testBit n)
  let busy := (portHeads s 2).any (fun e => (chans.contains e.2.z1 || chans.contains e.2.z2)
    && bothLanes.any (fun l => laneTakes s l && (headOf s l e.1 (profile s e.2.profile)).st != 4))
  if !active s .field || busy then refuse 0x41 c stRefusedState s
  else if s.cal.legacy.isSome then refuse 0x41 c stRefusedBusy s
  else
    let id := newId s
    let s := accept c 0x41 s
    chans.foldl (fun s n => mapSys n (fun x => { x with ref := some (RefCal.new s.now) }) s)
      { s with cal := { s.cal with legacy := some { id := id, left := chans, res := 0 } } }

/-- LEGACY_CAL (R220). -/
def execLegacyCal (c : HostCmd) (s : State) : Host.Outcome State Fault Refusal := hostCommand 0x41 effLegacyCal c s

/-! ## SAR_CONVERSION -/

/-- A sense conversion of cycle c of system n, its strobe at t: the sample, the calibration it belongs to, and the value it completes (R235 to R243). -/
def senseStep (n c : Nat) (t code : Int) (s : State) : State :=
  let s := takeSample n t code (applyChange n (c : Nat) s)
  let s := calStep n c t code s
  let s := if (sysOf s n).clamp.any (fun k => decide (t - k.1 > 1000000)) then setFault n 5 0 s else s
  if c ≥ 88 && (c - 88) % 22 = 0 then handValues ((c - 88) / 22) (formValue n ((c - 88) / 22) s) else s

/-- SAR_CONVERSION: the conversion of a SAR's next sense slot, which ends at t, its strobe 1 000 ns before, after the housekeeping conversions that come
first. At another instant no conversion of the SAR ends (R235 to R243). -/
def execSarConversion (t : Int) (sar : Fin 2) (code : Int) (s : State) : Host.Outcome State Fault Refusal :=
  let s := atTime t s
  let u := sar.val
  if !active s .field || !s.lhf.on then settle s
  else
    let s1 := runUrgents u (sarOf s u).wait s
    if senseEnd s1 u ≠ t then settle s
    else
      let s := runRoutine u s1
      let x := sarOf s u
      settle (calEnd (nextSlot u (t - 1000) (senseStep (4 * u + x.k) x.c (t - 1000) (max (-2048) (min 2047 code)) s)))

end Sys2Proof.Machine
end

