-- ==== Sys2Proof/Machine/Calib.lean ====
section
/-!
DEFINITION. Machine/Calib.lean: surveys, sweeps and noise seeds (09_calibration.md, R216 to R225).
-/
namespace Sys2Proof.Machine

/-- SURVEY (R216, R320): refused on a stopped port, while another runs on it, or when its range leaves the window. -/
def effSurvey (c : HostCmd) (s : State) : State :=
  let p := argPort c
  let ba := fld c.a1 15 0
  let nb := 64 * fld c.a1 31 16
  match (s.stg.port p).plan with
  | none => refuse 0x40 c stRefusedState s
  | some _ =>
    if (s.stg.port p).run = 0 then refuse 0x40 c stRefusedState s
    else if (s.cal.survey.port p).isSome then refuse 0x40 c stRefusedBusy s
    else
      let v : Survey := { id := newId s, bin := bitOf c.a0 8, ba := ba, nb := nb, lines := c.a2.toNat, buf := argBuf c, begun := false,
                          taken := 0, missed := 0, terms := [], bins := [] }
      let s := accept c 0x40 s
      { s with cal := { s.cal with survey := s.cal.survey.setPort p (some v) } }

/-- SURVEY (R216). -/
def execSurvey (c : HostCmd) (s : State) : Host.Outcome State Fault Refusal := hostCommand 0x40 effSurvey c s

/-- SWEEP_CAL (R222): a queued job on LANES with base priority 3, which has no work ready until the duration ends (R357, R374). -/
def effSweepCal (c : HostCmd) (s : State) : State :=
  if s.cal.sweep.isSome then refuse 0x42 c stRefusedBusy s
  else
    let x : Sweep := { id := newId s, first := fld c.a0 12 0, count := c.a1.toNat, endAt := s.now + (c.a2.toNat : Nat) * 1000000000,
                       buf := argBuf c, recs := [], words := none }
    let j : Job := { id := x.id, index := c.index, prio := 3, res := .lanes, since := 0, kind := 0x42, args := [], pos := 0, total := 0, waitAt := none }
    let s := addJob j (accept c 0x42 s)
    { s with cal := { s.cal with sweep := some x } }

/-- SWEEP_CAL (R222). -/
def execSweepCal (c : HostCmd) (s : State) : Host.Outcome State Fault Refusal := hostCommand 0x42 effSweepCal c s

/-- A number a sweep record gives only when something was seen; else a value the spec does not state. -/
def seenOr (v : Option Nat) (s : State) : Nat × State :=
  match v with
  | some n => (min n 65535, s)
  | none => ((draw s).1.toNat % 65536, (draw s).2)

/-- The sweep record of a head (R223). -/
def sweepRecord (x : Sweep) (h : Nat) (r : HeadRec) (s : State) : List Word × State :=
  let y := (tget none h x.recs).getD SweepRec.new
  let a := seenOr y.margin s
  let b := seenOr y.valley a.2
  let d := seenOr y.lag b.2
  let f1 := match y.first with | some t => (lo32 t, d.2) | none => draw d.2
  let f2 := match y.first with | some t => (hi32 t, f1.2) | none => draw f1.2
  let v1 := seenOr y.vmin f2.2
  let v2 := seenOr y.vmax v1.2
  let st := (headOf v2.2 s.lcm.lead h (profile s r.profile)).st
  let m := fun (n : Nat) => min n 65535
  ([halves (m y.pos) (m y.neg), halves (m y.doubt) (m y.odd), halves a.1 b.1, halves d.1 (m y.unknown), f1.1, f2.1, halves v1.1 v2.1,
    halves ((chainHead s h r).toNat % 65536) (8192 * st + h)], v2.2)

/-- The end of a sweep's duration: its records formed (R222). -/
def sweepClose (s : State) : State :=
  match s.cal.sweep with
  | none => s
  | some x =>
    if s.now < x.endAt || x.words.isSome then s
    else
      let hs := (heads s).filter (fun e => x.first ≤ e.1 && e.1 < x.first + x.count)
      let r := hs.foldl (fun (a : List Word × State) e => let y := sweepRecord x e.1 e.2 a.2; (a.1 ++ y.1, y.2)) ([], s)
      { r.2 with cal := { r.2.cal with sweep := some { x with words := some r.1 } } }

/-- A quantum of SWEEP_CAL: records of 32 bytes written to its buffer in ascending head number; the completion with the last (R222). -/
def sweepServe (room : Nat) (j : Job) (s : State) : Bool × Job × State :=
  match s.cal.sweep with
  | none => (true, j, s)
  | some x =>
    match x.words with
    | none => (false, j, s)
    | some ws =>
      let n := min (room / 32) (ws.length / 8 - j.pos)
      let s := if n = 0 then s else hostWrite (x.buf + 32 * j.pos) (wordsBytes ((ws.drop (8 * j.pos)).take (8 * n))) s
      let j := { j with pos := j.pos + n }
      if j.pos < ws.length / 8 then (false, j, s)
      else (true, j, finish x.id stApplied (w32 j.pos) 0 { s with cal := { s.cal with sweep := none } })

/-- Whether SWEEP_CAL's job can run a quantum now: LANES runs no other job, and no LEAN cause stands (R373, R374). -/
def sweepMayRun (s : State) (id : Nat) : Bool := !leanCause s.bsc && s.bsc.running.all (fun j => j.res != .lanes || j.id == id)

/-- SWEEP_CAL_END: the records formed; where LANES is free the job runs at once and completes (R222, R374; DEDUCED, log entry 50). -/
def execSweepCalEnd (t : Int) (s : State) : Host.Outcome State Fault Refusal :=
  let s := sweepClose (atTime t s)
  match s.cal.sweep with
  | none => settle s
  | some x =>
    match (s.bsc.jobs ++ s.bsc.running).find? (fun j => j.id == x.id), x.words with
    | some j, some ws => if sweepMayRun s x.id then settle (bump 0xEC40 (sweepServe (4 * ws.length) j (dropJob j s)).2.2) else settle s
    | _, _ => settle s

/-! ## Seeds (R224) -/

/-- The seed of a zone (R224). -/
def zoneSeed (z : ZoneSt) : Nat := max 1 (satu (rne (z.nq : Nat) 14) 16).toNat

/-- The seed word of a head (R224): 0 for a head that is OFF, FAILED, legacy or in SETTLING. -/
def seedWord (s : State) (h : Nat) : Word :=
  match headRec s h with
  | none => 0
  | some r =>
    let x := headOf s s.lcm.lead h (profile s r.profile)
    if r.port = 2 || x.st = 4 || x.st = 1 || x.st = 0 then 0 else halves (zoneSeed x.z2) (zoneSeed x.z1)

/-- Page write i of the 130 of a seed save: the header invalid with the digests, each page of seeds, the generation with the valid header (R224, R418). -/
def seedCommit (k : Bank) (gen : Word) (i : Nat) (s : State) : Commit :=
  let b := bankBase k
  let mk := fun (ws : List (Nat × Word)) (last : Bool) =>
    ({ prio := 6, words := ws, wrote := false, page := ((ws.head?.map (·.1)).getD 0) / 64, tag := .seed last } : Commit)
  if i = 0 then mk [(b + 0xBFC0, 0), (b + 0xBFC1, seedDigest s .p0), (b + 0xBFC2, seedDigest s .p1)] false
  else if i ≤ 128 then mk ((span (64 * (i - 1)) 64).map (fun h => (b + 0xC000 + h, seedWord s h))) false
  else mk [(b + 0xBFC3, gen), (b + 0xBFC0, 0x53454544)] true

/-- A seed save begun: a queued job on NVM with base priority 4 (R224, R357, R374). -/
def seedStart (k : Bank) (id : Nat) (index : Word) (s : State) : State :=
  addJob { id := id, index := index, prio := 4, res := .nvm, since := 0, kind := 0x39, args := [bankNum k], pos := 0, total := 130, waitAt := none }
    { s with cal := { s.cal with seed := some (id, s.pst.genActive) } }

/-- A quantum of a seed save: as many pages of 256 bytes as it has room for wait in the PST; none while AON is lost (R224, R374, R416). -/
def seedServe (room : Nat) (j : Job) (s : State) : Bool × Job × State :=
  match s.cal.seed with
  | none => (true, j, s)
  | some x =>
    if !aonUp s then (false, j, s)
    else
      let k := if nth 0 j.args 0 = 0 then Bank.a else Bank.b
      let n := min (room / 256) (j.total - j.pos)
      let s := { s with pst := { s.pst with commits := s.pst.commits ++ (span j.pos n).map (fun i => seedCommit k x.2 i s) } }
      (decide (j.pos + n ≥ j.total), { j with pos := j.pos + n }, s)

/-- SEED_SAVE (R224): refused without an ACTIVE bank, or while a save runs. -/
def effSeedSave (c : HostCmd) (s : State) : State :=
  match activeBank s with
  | none => refuse 0x39 c stRefusedState s
  | some k =>
    if s.cal.seed.isSome then refuse 0x39 c stRefusedBusy s
    else
      let id := newId s
      seedStart k id c.index (accept c 0x39 s)

/-- SEED_SAVE (R224). -/
def execSeedSave (c : HostCmd) (s : State) : Host.Outcome State Fault Refusal := hostCommand 0x39 effSeedSave c s

/-- SEED_PERIOD_EXPIRY: HEN_SEED.PERIOD hours of operating seconds have passed since the last save of its own (R224). -/
def execSeedPeriodExpiry (t : Int) (s : State) : Host.Outcome State Fault Refusal :=
  let s := atTime t s
  let p := regF s 0x6010 7 0
  match activeBank s with
  | none => settle s
  | some k =>
    if !(1 ≤ p && p ≤ 168) || s.pst.opSeconds < s.cal.seedAt + 3600 * p || !aonUp s then settle s
    else
      let s := { s with cal := { s.cal with seedAt := s.pst.opSeconds } }
      settle (if s.cal.seed.isSome then s else seedStart k 0 0 s)

end Sys2Proof.Machine
end

