-- ==== Sys2Proof/Machine/Frames.lean ====
section
/-!
DEFINITION. Machine/Frames.lean: the round's layout and schedule, frames on the line, their checks, dead letters, claims and bays
(11_round_network.md, R252 to R262, R270, R271).
-/
namespace Sys2Proof.Machine

/-! ## Layout and schedule (R252 to R255) -/

/-- NSLOT (R253). -/
def nslot (s : State) : Nat := regF s 0x9008 25 16

/-- SLOTLEN in ns (R253). -/
def slotNs (s : State) : Int := ((regF s 0x900C 20 16 * 1000 : Nat) : Int)

/-- NMINI (R253). -/
def nmini (s : State) : Nat := regF s 0x900C 12 0

/-- ACC in ns (R253). -/
def accNs (s : State) : Int := (regF s 0x900C 31 24 : Nat)

/-- The node's ID (R251). -/
def nodeId (s : State) : Nat := regF s 0x9004 7 0

/-- Where the dynamic segment begins in a round (R252). -/
def dynStart (s : State) : Int := (nslot s : Int) * slotNs s

/-- Where the network idle time begins in a round (R252). -/
def nitStart (s : State) : Int := dynStart s + 1000 * (nmini s : Int)

/-- Whether a schedule entry gives a dynamic ID (R255). -/
def Sched.dyn (e : Sched) : Bool := e.kind == 4 || e.kind == 5

/-- Whether an entry owns its place in a round (R255). -/
def Sched.inRound (e : Sched) (k : Nat) : Bool := k % 2 ^ e.cycle == e.base

/-- The entry that gives a place an owner in a round (R255). -/
def ownerOf (s : State) (k : Nat) (dyn : Bool) (index : Nat) : Option Sched :=
  (sched s).find? (fun e => e.dyn == dyn && e.index == index && e.inRound k)

/-- The dynamic IDs with an owner in a round, in ascending ID (R270). -/
def dynIds (s : State) (k : Nat) : List Sched :=
  sortBy (fun e => (e.index : Int)) ((sched s).filter (fun e => e.dyn && e.inRound k))

/-- Whether this node is a sync node (R285). -/
def isSync (s : State) : Bool :=
  bitOf (reg s 0x901C) 0 && (sched s).any (fun e => e.kind == 3 && e.node == nodeId s && e.cycle == 0)

/-- The limit of LENGTH in a static slot (R256). -/
def slotLimit (s : State) : Nat := min 1024 ((((slotNs s - 1250) / 8 - 27) / 4 * 4).toNat)

/-! ## Claims and bays (R270) -/

/-- What a view of the round's claims says of an ID: silence is a claim of 0. -/
def claimOf (cs : List (Nat × Option Nat)) (id : Nat) : Option Nat :=
  match cs.find? (fun c => c.1 == id) with
  | some c => c.2
  | none => some 0

/-- The order of the claims above 0: LETTERS in ascending ID, then DIAG from the (k mod m)-th on, wrapping; up to the first unknown claim
(R270). -/
def bayOrder (s : State) (k : Nat) (cs : List (Nat × Option Nat)) : List (Nat × Nat) :=
  let ids := dynIds s k
  let known := fun (e : Sched) => (claimOf cs e.index).isSome
  let len := fun (e : Sched) => (claimOf cs e.index).getD 0
  let letters := ids.filter (fun e => e.kind == 4)
  let l := ((letters.takeWhile known).filter (fun e => len e != 0)).map (fun e => (e.index, len e))
  let diag := ids.filter (fun e => e.kind == 5)
  if letters.all known && diag.all known then
    let d := (diag.filter (fun e => len e != 0)).map (fun e => (e.index, len e))
    let r := if d = [] then 0 else k % d.length
    l ++ d.drop r ++ d.take r
  else l

/-- The bays granted in an order: ID, first minislot, length; a bay that would end after NMINI is passed over (R270). -/
def layBays (limit : Nat) : Nat → List (Nat × Nat) → List (Nat × Nat × Nat)
  | _, [] => []
  | at_, (id, n) :: r => if at_ + n ≤ limit then (id, at_, n) :: layBays limit (at_ + n) r else layBays limit at_ r

/-- The bays of a round under a view of its claims (R270). -/
def bays (s : State) (k : Nat) (cs : List (Nat × Option Nat)) : List (Nat × Nat × Nat) :=
  layBays (nmini s) (dynIds s k).length (bayOrder s k cs)

/-- Where a place begins in a round and where its flashing begins (R252, R270). -/
def placeSpan (s : State) (k : Nat) (cs : List (Nat × Option Nat)) (dyn : Bool) (index : Nat) : Option (Int × Int) :=
  if dyn then
    ((bays s k cs).find? (fun b => b.1 == index)).map (fun b =>
      let o := dynStart s + 1000 * (b.2.1 : Int)
      (o, o + 1000 * (b.2.2 : Int) - 1000))
  else if 1 ≤ index && index ≤ nslot s then
    let o := ((index : Int) - 1) * slotNs s
    some (o, o + slotNs s - 1000)
  else none

/-- Where a dynamic ID's claim minislot begins in a round (R270). -/
def claimStart (s : State) (k id : Nat) : Option Int :=
  let ids := dynIds s k
  match ids.findIdx? (fun e => e.index == id) with
  | some j => some (dynStart s + 1000 * (j : Int))
  | none => none

/-- The check byte of a claim (R270). -/
def claimCheck (id len : Nat) : Nat := (len ^^^ (id % 256) ^^^ 0x5A) % 256

/-- The minislots that a frame of LENGTH bytes needs (R270). -/
def frameMinis (length : Nat) : Nat := (1250 + 8 * (27 + length) + 999) / 1000

/-! ## Frames (R256 to R259, R389) -/

/-- A frame's fields as received: header words, payload, CRC and frank bytes; bytes that are missing read as 0. -/
structure Frame where
  raw : List Byte
  keygen : Nat
  ring : Bool
  ch : Nat
  node : Nat
  version : Nat
  type : Nat
  length : Nat
  dyn : Bool
  index : Nat
  round : Nat
  payload : List Byte
deriving DecidableEq, Repr

/-- The fields of the bytes between /S/ and /T/ (R257). -/
def parseFrame (b : List Byte) : Frame :=
  let w := bytesWords (padTo 16 b)
  let w0 := nth 0 w 0
  let w1 := nth 0 w 1
  { raw := b, keygen := fld w0 21 20, ring := bitOf w0 17, ch := fld w0 16 16, node := fld w0 15 8, version := fld w0 7 4, type := fld w0 3 0,
    length := fld w1 26 16, dyn := bitOf w1 15, index := fld w1 14 0, round := join64 (nth 0 w 2) (nth 0 w 3),
    payload := (b.drop 16).take (fld w1 26 16) }

/-- Word i of a payload. -/
def Frame.word (f : Frame) (i : Nat) : Word := nth 0 (bytesWords f.payload) i

/-- Whether a frame is a TIME or STARTUP frame (R259). -/
def Frame.timed (f : Frame) : Bool := f.type == 3 || f.type == 4

/-- The key of a generation in a lane's RCT, if it may use it: its working copy, or the TEST key in MANUFACTURE (R386, R387). -/
def netKey (s : State) (l : Lane) (gen : Nat) : Option (BitVec 128) :=
  if s.sec.lifecycle = 1 then (if gen = 0 then some 0 else none)
  else nth none (s.net.rct.lane l).keys gen

/-- Whether the receive mask takes a generation (R387). -/
def maskTakes (s : State) (gen : Nat) : Bool := if s.sec.lifecycle = 1 then gen = 0 else (s.sec.rxMask).testBit gen

/-- The transmit generation (R387). -/
def txGen (s : State) : Nat := if s.sec.lifecycle = 1 then 0 else s.sec.txGen

/-- The lane of a channel (R251). -/
def chLane (ch : Nat) : Lane := if ch = 1 then .y else .x

/-- A frame's bytes: header, payload, CRC-32, frank; a key copy that was zeroed counts as 0 (R256 to R258, R386, R389). -/
def frameBytes (s : State) (ring : Bool) (ch type : Nat) (dyn : Bool) (index round : Nat) (payload : List Byte) : List Byte :=
  let h := wordsBytes [w32 (txGen s * 1048576 + b2n ring * 131072 + ch * 65536 + nodeId s * 256 + 16 + type),
                       w32 (payload.length * 65536 + b2n dyn * 32768 + index), lo32 round, hi32 round]
  let m := h ++ payload
  let m := m ++ wordBytes (crc32 m)
  m ++ (cmac ((netKey s (chLane ch) (txGen s)).getD 0) m).take 4

/-- Whether a frame's CRC-32 matches (R258). -/
def Frame.crcOk (f : Frame) : Bool :=
  let n := 16 + f.length
  ((f.raw.drop n).take 4) == wordBytes (crc32 (f.raw.take n))

/-- Whether a frame's frank matches under a usable key (R260 check 5). -/
def frankOk (s : State) (l : Lane) (f : Frame) : Bool :=
  let n := 20 + f.length
  maskTakes s f.keygen && (match netKey s l f.keygen with
    | some k => ((f.raw.drop n).take 4) == (cmac k (f.raw.take n)).take 4
    | none => false)

/-- Whether LENGTH keeps the general limits and its TYPE's rule (R256, R259, R260 check 3). -/
def lengthOk (s : State) (f : Frame) : Bool :=
  let n := f.length
  let rule := match f.type with
    | 1 => n % 276 == 0 && 1 ≤ n / 276 && n / 276 ≤ 3
    | 2 => n % 16 == 8 && n == 8 + 16 * fld (f.word 1) 31 16 && fld (f.word 1) 31 16 ≤ 63
    | 3 => n == 16
    | 4 => n == 16
    | 5 => n == 0
    | 7 => n == 4
    | _ => true
  n ≤ 1024 && n % 4 == 0 && f.raw.length == 24 + n && (f.dyn || polled s || n ≤ slotLimit s) && rule

/-- Whether VERSION and TYPE may stand in a place of a kind, none where no entry gives it an owner (R260 check 6). -/
def typeOk (f : Frame) (kind : Option Nat) : Bool :=
  let t := f.type
  f.version == 1 && 1 ≤ t && t ≤ 7 && (match kind with
    | some 1 => t == 1 || t == 5
    | some 2 => t == 2
    | some 3 => t == 3 || t == 4
    | some 4 => t == 2
    | some 5 => t == 6
    | _ => true)

/-! ## Dead letters (R261) -/

/-- A dead letter of a port: counted by cause and in total; the first in 1 000 ms recorded; an OWNER that names this node is an ID clash (R261). -/
def deadLetter (port cause node : Nat) (s : State) : State :=
  let d := if port = 6 then Dom.field else if port = 1 || port = 5 then .laney else if port = 2 || port = 3 then .ring else .lanex
  let blk := if port = 6 then 4 else if port = 2 || port = 3 then 0 else 3
  let o := 0x9E00 + 0x40 * port
  let s := bumpHalf o false s
  let s := bumpHalf (o + 4 * (cause / 2)) (cause % 2 = 1) s
  let quiet := (tget none port s.net.dead).any (fun t => decide (s.now - t < 1000000000))
  let s := if quiet then s
    else note evDeadLetter d blk (w32 port) (w32 cause) (w32 node) { s with net := { s.net with dead := tput none port (some s.now) s.net.dead } }
  if cause = 9 && node = nodeId s then note evIdClash d blk (w32 port) 0 0 s else s

/-! ## The lanes' channels (R251) -/

/-- The channel port of a lane (R251, RCT_PORTMAP). -/
def chanPort (s : State) (l : Lane) : Nat :=
  match l with
  | .x => if bitOf (reg s 0x9010) 0 then 4 else 0
  | .y => if bitOf (reg s 0x9010) 1 then 5 else 1

/-- The lane that a port is the channel port of. -/
def portLane (s : State) (p : Nat) : Option Lane := if p = chanPort s .x then some .x else if p = chanPort s .y then some .y else none

/-- The domain that drives a round port (R14, R251, R304): a channel port its lane's, every branch and both ring ports RING; none where the port is spare. -/
def portDriver (s : State) (p : Nat) : Option Dom :=
  if s.net.ridge then some .ring
  else
    match portLane s p with
    | some l => some l.dom
    | none => if (p = 2 || p = 3) && s.net.ringMode ≠ 0 then some .ring else none

/-- RPn_TXEN: high while the domain of a port in use under RCT_ROLE, RCT_PORTMAP and RCT_RING is ACTIVE (R465). -/
def txEn (s : State) (p : Nat) : Bool := (portDriver s p).any (active s)

/-- A frame as its port's receiver took it: one during which RPn_LOS was high has lost its code groups (R260, R465, R484). -/
def heardRx (s : State) (f : FrameRx) : FrameRx :=
  { f with codeOk := f.codeOk && (tget none f.port s.net.los).all (fun t => decide (t < f.t) || decide (f.tEnd < t)) }

/-- Whether a lane's RCT takes part in its channel: node role, an ID, the lane taking tokens, neither SAFEHALT nor DECOMMISSIONED (R251, R363, R397,
R455). -/
def rctLive (s : State) (l : Lane) : Bool :=
  laneTakes s l && !s.net.ridge && nodeId s != 0 && s.bsc.power != .safehalt && s.sec.lifecycle != 5

/-- Whether a lane's RCT follows the start-up states (R290). -/
def rctRound (s : State) (l : Lane) : Bool := rctLive s l && (s.net.rct.lane l).on && !polled s

/-- LOOP from the last samples (R282). -/
def loopOf (l : List Int) : Option Nat := if l = [] then none else some (rnd (isum l) (l.length : Int)).toNat

/-- The peer that a node is to a lane. -/
def peerOf (x : RctSt) (n : Nat) : Peer := (tget none n x.peers).getD { loop := none, next := none, kept := [], held := [] }

/-- A lane's knowledge of a node changed. -/
def mapPeer (l : Lane) (n : Nat) (f : Peer → Peer) (s : State) : State :=
  mapRct l (fun x => { x with peers := tput none n (some (f (peerOf x n))) x.peers }) s

/-- D_s of a frame's sender at a lane, none while a LOOP is not held; a TIME or STARTUP frame brings its own (R283). -/
def delayOf (s : State) (l : Lane) (f : Frame) : Option Int :=
  let x := s.net.rct.lane l
  let their := if f.timed then some ((f.word 1).toNat, bitOf (f.word 0) 12) else (peerOf x f.node).loop
  match loopOf x.loops, their with
  | some own, some th =>
    if bitOf (reg s 0x901C) 2 && th.2 then some (rnd (((own + th.1 : Nat) : Int)) 4)
    else some (rnd (((own + th.1 : Nat) : Int)) 2 + 1024)
  | _, _ => none

/-- A lane's time of an instant: its counter plus Δ (R290). -/
def laneTime (s : State) (l : Lane) (t : Int) : Int := t + (s.net.rct.lane l).delta

/-- A lane's current round. -/
def laneRound (s : State) (l : Lane) : Nat := u64 (laneTime s l s.now / roundNs s)

/-- The instant in NT at which a frame's send point lies in the receiver's current round, with its flashing, none where it has no place (R254). -/
def framePlace (s : State) (l : Lane) (f : Frame) : Option (Int × Int) :=
  let k := laneRound s l
  (placeSpan s k (s.net.rct.lane l).claims f.dyn f.index).map (fun p =>
    ((k : Int) * roundNs s + p.1 + 250, (k : Int) * roundNs s + p.2))

/-- Whether a frame's start and end lie outside the bounds of R254 (R260 check 2). -/
def windowFails (s : State) (l : Lane) (rx : FrameRx) (f : Frame) (d : Int) : Bool :=
  match framePlace s l f with
  | none => true
  | some p =>
    let a := laneTime s l rx.t
    let e := laneTime s l rx.tEnd
    decide (a < p.1 + d - accNs s) || decide (a > p.1 + d + accNs s) || decide (e ≥ p.2 + d + accNs s)

/-- The frame checks of R260 in order; `w` whether WINDOW and ROUND apply, `inRound` the round whose schedule checks TYPE and OWNER. 0 when the frame
is valid, else its cause. -/
def frameCause (s : State) (l : Lane) (rx : FrameRx) (f : Frame) (d : Int) (w : Bool) (inRound : Nat) : Nat :=
  let own := ownerOf s inRound f.dyn f.index
  if !rx.codeOk then 1
  else if w && windowFails s l rx f d then 2
  else if !lengthOk s f then 3
  else if !f.crcOk then 4
  else if !frankOk s l f then 5
  else if !typeOk f (own.map (·.kind)) then 6
  else if w && f.round != laneRound s l then 7
  else if f.ch != l.num || f.ring then 8
  else if own.all (fun e => e.node != f.node) || f.node = nodeId s then 9
  else 0

/-- The event source of the RCT of a lane. -/
def rctNote (l : Lane) (code : Nat) (p0 p1 p2 : Word) (s : State) : State := note code l.dom 3 p0 p1 p2 s

/-- The RCT counters of a lane (R459). -/
def rctCtr (l : Lane) (k : Nat) : Nat := 0x9C00 + 0x100 * l.num + 4 * k

end Sys2Proof.Machine
end

