-- ==== Sys2Proof/Machine/Shift.lean ====
section
/-!
DEFINITION. Machine/Shift.lean: a step of every network-time counter of the device: waiting keys, shot grids and every instant that is still to
come or compared move with it (R164, R293, R294, R53, R120).
-/
namespace Sys2Proof.Machine

/-- An optional instant moved. -/
def mvO (o : Int) (t : Option Int) : Option Int := t.map (· + o)

/-- A round number moved. -/
def mvR (dk : Int) (k : Nat) : Nat := ((k : Int) + dk).toNat

/-- A port's shot grid and requests moved (R293). -/
def StgSt.move (o : Int) (x : StgSt) : StgSt :=
  { x with t0 := x.t0 + o, start := x.start.map (fun r => { r with t0 := r.t0 + o }), stop := x.stop.map (fun r => (r.1, r.2 + o)),
           apply := x.apply.map (fun r => { r with p := r.p + o, t0 := r.t0 + o }), holdStop := mvO o x.holdStop }

/-- A converter's instants moved; what it delivered before is known by the old time only. -/
def ConvSt.move (o now : Int) (x : ConvSt) : ConvSt :=
  { x with alignedAt := if x.st = 3 then now else x.alignedAt + o, downs := x.downs.map (· + o),
           buf := x.buf.map (fun e => { e with ats := e.ats.map (· + o) }), await := x.await.map (fun a => (a.1, a.2.1 + o, a.2.2 + o)) }

/-- A port's converter links moved. -/
def ClrSt.move (o now : Int) (x : ClrSt) : ClrSt :=
  { conv := ⟨x.conv.a.move o now, x.conv.b.move o now⟩, grid := mvO o x.grid }

/-- A port's ingest moved: the mailbag's instants are of the old time, so the shots in flight find no data in it. -/
def SinSt.move (o : Int) (x : SinSt) : SinSt :=
  { x with slates := [], lost := [], queue := x.queue.map (fun q => { q with t := q.t + o }),
           lines := x.lines.map (fun l => { l with shot := { l.shot with t := l.shot.t + o } }) }

/-- A head status moved. -/
def HStatus.move (o : Int) (x : HStatus) : HStatus := { x with start := x.start + o, w := x.w + o }

/-- An item's status moved; events of this device carry their own base (R164). -/
def HItem.move (o : Int) (it : HItem) : HItem :=
  match it with
  | .status n x => .status n (x.move o)
  | .ev (some n) e => .ev (some n) { e with t := e.t + o }
  | .ev none e => if e.lt then .ev none e else .ev none { e with t := e.t + o }

/-- A waiting item of a section moved (R164). -/
def SItem.move (o : Int) (x : SItem) : SItem :=
  { x with key := x.key + o, ev := match x.ev with
      | .status y => .status (y.move o)
      | .axle e => .axle { e with t := e.t + o }
      | e => e }

/-- A boundary's head moved. -/
def BHead.move (o : Int) (x : BHead) : BHead := { x with last := x.last.map (HStatus.move o), w := mvO o x.w }

/-- A boundary moved. -/
def BoundSt.move (o : Int) (x : BoundSt) : BoundSt :=
  { x with lead := x.lead.move o, cover := x.cover.move o, blindAt := mvO o x.blindAt, t0 := x.t0 + o }

/-- A section moved: its keys, and its rounds. -/
def SectSt.move (o dk : Int) (x : SectSt) : SectSt :=
  { x with at_ := mvO o x.at_, items := x.items.map (SItem.move o), bounds := x.bounds.map (BoundSt.move o),
           cmd := x.cmd.map (fun m => { m with ref := mvR dk m.ref, re := mvR dk m.re }),
           net := x.net.map (fun n => { n with round := mvR dk n.round }), last := x.last.map (fun e => (mvR dk e.1, e.2)) }

/-- A lane's ledger moved. -/
def SldSt.move (o dk : Int) (x : SldSt) : SldSt := { x with sects := x.sects.map (fun p => (p.1, p.2.map (SectSt.move o dk))) }

/-- A lane's head engine moved: statuses are in the device's base, samples and events in their own. -/
def HenSt.move (o : Int) (x : HenSt) : HenSt :=
  { x with queue := x.queue.map (HItem.move o), heads := x.heads.map (fun p => (p.1, p.2.map (fun h => { h with wPrev := mvO o h.wPrev }))) }

/-- A filter chain's pending syncs moved: a local instant becomes one of network time, a latched pin edge steps with the counters, an instant that was
given in network time stays (R115, R293). -/
def FchSt.move (o : Int) (x : FchSt) : FchSt :=
  { x with syncs := x.syncs.map (fun r => if r.lt || r.src == 0 then { r with ty := r.ty + o, lt := false } else r) }

/-- A SAR moved: its conversions under way and waiting. -/
def LSar.move (o : Int) (x : LSar) : LSar :=
  { x with free := x.free + o, routine := x.routine.map (fun r => (r.1 + o, r.2)), urg := mvO o x.urg, wait := x.wait.map (fun w => (w.1 + o, w.2)) }

/-- A system moved: a sample keeps its strobe in the base in which it was taken (R250, R293). -/
def LSys.move (o : Int) (y : LSys) : LSys :=
  { y with te := y.te + o, clamp := y.clamp.map (fun c => (c.1 + o, c.2)), past := y.past.map (fun c => (c.1 + o, c.2.1 + o, c.2.2)),
           burst := y.burst.map (fun b => { b with start := b.start + o, stop := b.stop + o }), win := y.win.map (fun x => { x with mv := x.mv + o }),
           ref := y.ref.map (fun r => { r with start := r.start + o }) }

/-- The front end moved. -/
def LhfSt.move (o : Int) (x : LhfSt) : LhfSt :=
  { x with tG := x.tG + o, tT := x.tT + o, sar := ⟨x.sar.a.move o, x.sar.b.move o⟩, sys := x.sys.map (LSys.move o),
           vals := x.vals.map (fun v => { v with mv := v.mv + o }) }

/-- The comparison modules moved. -/
def LcmSt.move (o dk : Int) (x : LcmSt) : LcmSt :=
  let f := fun (e : Option LFault) => e.map (fun y => { y with round := mvR dk y.round })
  let r := fun (e : Option Readmit) => e.map (fun y => { y with since := y.since + o })
  { x with fault := ⟨f x.fault.a, f x.fault.b⟩, readm := ⟨r x.readm.a, r x.readm.b⟩,
           retired := ⟨x.retired.a.map (· + o), x.retired.b.map (· + o)⟩, adopts := x.adopts.map (· + o),
           adopted := x.adopted.map (fun p => (p.1, p.2.map (mvR dk))) }

/-- An RCT moved. -/
def RctSt.move (o dk : Int) (x : RctSt) : RctSt :=
  { x with since := x.since + o, dep := x.dep.map (· + o), probed := mvO o x.probed, queue := x.queue.map (fun q =>
             { q with at_ := q.at_ + o, round := mvR dk q.round }), pollAt := x.pollAt + o,
           stream := { x.stream with recs := x.stream.recs.map (fun r => { r with at_ := r.at_ + o }) },
           peers := x.peers.map (fun p => (p.1, p.2.map (fun q => { q with held := q.held.map (fun c => { c with due := c.due + o }) }))) }

/-- The network moved. -/
def NetSt.move (o dk : Int) (x : NetSt) : NetSt :=
  { x with joinAt := x.joinAt + o, offset := x.offset + o, rct := ⟨x.rct.a.move o dk, x.rct.b.move o dk⟩,
           rdg := { x.rdg with branches := x.rdg.branches.map (fun b => { b with dep := b.dep.map (· + o), probed := mvO o b.probed }) },
           refl := x.refl.map (fun r => { r with at_ := r.at_ + o }),
           bus := { x.bus with walkAt := mvO o x.bus.walkAt, nextAt := x.bus.nextAt + o,
                               out := x.bus.out.map (fun p => { p with tEnd := p.tEnd + o }),
                               nodes := x.bus.nodes.map (fun p => (p.1, p.2.map (fun y => { y with tPrev := mvO o y.tPrev, wmPrev := y.wmPrev + o }))) },
           dead := x.dead.map (fun p => (p.1, mvO o p.2)), tx := x.tx.map (fun p => (p.1, p.2.map (fun w => (w.1 + o, w.2 + o)))), los := x.los.map (fun p => (p.1, mvO o p.2)) }

/-- A counter moved by whole ns (R293, R294). -/
def Clock.move (o : Int) (c : Clock) : Clock := { c with ns := c.ns + o }

/-- AON's and HOST's instants moved. -/
def moveHost (o : Int) (s : State) : State :=
  { s with hre := { s.hre with devAt := s.hre.devAt + o, vecAt := s.hre.vecAt.map (fun p => (p.1, mvO o p.2)), beatAt := s.hre.beatAt + o,
                               pollAt := mvO o s.hre.pollAt, cfgReadyAt := mvO o s.hre.cfgReadyAt },
           hsc := { s.hsc with strAt := s.hsc.strAt.map (fun p => (p.1, mvO o p.2)), scrubAt := s.hsc.scrubAt + o,
                               regions := s.hsc.regions.map (fun p => (p.1, p.2.map (fun r => { r with countdown := mvO o r.countdown }))) },
           erc := { s.erc with frozenAt := s.erc.frozenAt + o },
           sec := { s.sec with lockUntil := mvO o s.sec.lockUntil, tapAt := s.sec.tapAt + o,
                               challenge := s.sec.challenge.map (fun c => (c.1, c.2 + o)) },
           bsc := { s.bsc with standbyAt := mvO o s.bsc.standbyAt,
                               jobs := s.bsc.jobs.map (fun j => { j with since := j.since + o, waitAt := mvO o j.waitAt }),
                               running := s.bsc.running.map (fun j => { j with since := j.since + o, waitAt := mvO o j.waitAt }) },
           pst := { s.pst with topo := s.pst.topo.map (fun w => { w with startAt := w.startAt + o, acceptedAt := w.acceptedAt + o }) } }

/-- Every domain's instants moved. -/
def moveDoms (o : Int) (s : State) : State :=
  allDoms.foldl (fun s d => mapDom d (fun x => { x with since := x.since + o, restarts := x.restarts.map (· + o) }) s) s

/-- Every counter of the device steps by o at the instant now (R293, R294); dk is the step of the round number. -/
def stepCounters (o dk : Int) (s : State) : State :=
  let now := s.now + o
  let s := moveDoms o (moveHost o s)
  { s with now := now, clk := { x := s.clk.x.move o, y := s.clk.y.move o, ring := s.clk.ring.move o }, stg := ⟨s.stg.a.move o, s.stg.b.move o⟩, refs := { s.refs with holdAt := s.refs.holdAt + o },
           clr := ⟨s.clr.a.move o now, s.clr.b.move o now⟩, sin := ⟨s.sin.a.move o, s.sin.b.move o⟩,
           fch := ⟨s.fch.f0.move o, s.fch.f1.move o, s.fch.fld.move o⟩, hen := ⟨s.hen.a.move o, s.hen.b.move o⟩,
           sld := ⟨s.sld.a.move o dk, s.sld.b.move o dk⟩, lcm := s.lcm.move o dk,
           convNote := ⟨{ align := mvO o s.convNote.a.align, any := mvO o s.convNote.a.any },
                        { align := mvO o s.convNote.b.align, any := mvO o s.convNote.b.any }⟩,
           rctq := ⟨s.rctq.a.map (HItem.move o), s.rctq.b.map (HItem.move o)⟩, lhf := s.lhf.move o,
           cal := { s.cal with sweep := s.cal.sweep.map (fun w => { w with endAt := w.endAt + o }) }, net := s.net.move o dk }

/-- The step that a first or later time base brings: the rounds go on from the tick at which it lands. -/
def rebase (o : Int) (s : State) : State :=
  stepCounters o ((s.now + o) / roundNs s - (s.now + roundNs s - 1) / roundNs s) s

end Sys2Proof.Machine
end

