-- ==== Sys2Proof/Machine/NetTime.lean ====
section
/-!
DEFINITION. Machine/NetTime.lean: probes, cold start, the corrections of a round's end, joins, guardians and the master's succession
(12_round_time_startup.md, R280 to R298).
-/
namespace Sys2Proof.Machine

/-! ## Leaving reset (R290) -/

/-- The stream epoch (R267). -/
def epochOf (s : State) : Nat := s.pst.cycles % 256 * 256 + s.net.joins % 256

/-- The network parameters that change from the next round, as the registers stand (R253, R308). -/
def roundParams (s : State) : State := { s with net := { s.net with ringMode := regF s 0x9020 1 0, intwin := regF s 0x901C 24 16 } }

/-- A lane's RCT leaves reset: in LISTEN, when its mode is ROUND and its ID is not 0; its stream takes the epoch of the power cycle (R267, R290). -/
def rctStart (l : Lane) (s : State) : State :=
  roundParams (mapRct l (fun x => { RctSt.reset with keys := x.keys, on := regF s 0x9014 13 12 == 0 && nodeId s != 0 && !s.net.ridge, since := s.now,
                                                     stream := { LStream.reset with epoch := epochOf s } }) s)

/-- Whether the other lane's RCT is JOINED while this one is not: the lane passes through the states alone (R290, R296, R297). -/
def alone (s : State) (l : Lane) : Bool := (s.net.rct.lane l).st != 3 && (s.net.rct.lane l.other).st == 3 && rctRound s l.other

/-- A lane enters INTEGRATING with a master and Δ (R290, R291, R293): a Δ of at most 8 ACC in network time is taken as the round's d; a lane that returns
alone takes no Δ. -/
def integrate (l : Lane) (master : Nat) (delta : Int) (s : State) : State :=
  let small := s.net.joined && decide (delta ≤ 8 * accNs s) && decide (-delta ≤ 8 * accNs s)
  let al := alone s l
  mapRct l (fun x => { x with st := 2, since := s.now, master := master, delta := if small || al then 0 else delta,
                              dNow := if small && !al then some (-delta) else none, runs := 0, full := false, ok := false, bad := false,
                              own := false, noD := 0, met := none, metNow := none, newMaster := none, times := [], lost := false,
                              mRound := some (u64 ((s.now + (if small || al then 0 else delta)) / roundNs s)) }) s

/-- A lane leaves LISTEN for INTEGRATING, and the other with it when it is in LISTEN too (R290, R296). -/
def leaveListen (l : Lane) (master : Nat) (delta : Int) (s : State) : State :=
  let both := (s.net.rct.lane l.other).st = 0 && rctRound s l.other
  let s := integrate l master delta s
  if both then integrate l.other master delta s else s

/-! ## Probes (R281, R282) -/

/-- Probe samples with one more, the last eight kept (R282). -/
def addSample (x : Int) (l : List Int) : List Int := (x :: l).take 8

/-- Whether a probe is due: once per round in the network idle time, or every 1 ms before the first join (R282). -/
def probeDue (s : State) (last : Option Int) : Bool :=
  if s.net.joined then
    decide (s.now % roundNs s ≥ nitStart s) && last.all (fun t => decide (t / roundNs s ≠ s.now / roundNs s))
  else last.all (fun t => decide (s.now - t ≥ 1000000))

/-- A branch of the ridge changed. -/
def mapBranch (b : Nat) (f : BranchSt → BranchSt) (s : State) : State :=
  let r := s.net.rdg
  { s with net := { s.net with rdg := { r with branches := setNth r.branches b (f (nth BranchSt.reset r.branches b)) } } }

/-- Whether a port is a branch in use: ridge role, RING ACTIVE (R251, R299). -/
def ridgeLive (s : State) : Bool := s.net.ridge && active s .ring && s.bsc.power != .safehalt && s.sec.lifecycle != 5

/-- PROBE_REQUEST_SEND on a channel port of a lane, or on a branch (R282, R299). -/
def execProbeRequestSend (t : Int) (port : Fin 6) (s : State) : Host.Outcome State Fault Refusal :=
  let s := atTime t s
  let p := port.val
  if ridgeLive s then
    if probeDue s (nth BranchSt.reset s.net.rdg.branches p).probed then
      settle (mapBranch p (fun b => { b with dep := t :: b.dep, probed := some t }) { s with out := s.out ++ [.probe p t 1 0] })
    else settle s
  else
    match portLane s p with
    | none => settle s
    | some l =>
      if rctRound s l && probeDue s (s.net.rct.lane l).probed then
        settle (bump (rctCtr l 0) (mapRct l (fun x => { x with dep := t :: x.dep, probed := some t }) { s with out := s.out ++ [.probe p t 1 0] }))
      else settle s

/-- The domain that a round port stands in when no lane drives it: RP0 with Lane X, RP1 with Lane Y, the spare ports with RING (R14, R251). -/
def spareDom (p : Nat) : Dom := if p = 0 then .lanex else if p = 1 then .laney else .ring

/-- Whether a port reflects probes: every round port in ROUND mode, or a branch (R281). -/
def reflects (s : State) (p : Nat) : Bool :=
  if s.net.ridge then ridgeLive s
  else
    match portLane s p with
    | some l => rctRound s l
    | none => active s (spareDom p) && !polled s && nodeId s != 0 && s.bsc.power != .safehalt && s.sec.lifecycle != 5

/-- The ordered set of a probe request: K28.0, D1.0, D0.0, D0.0 (R281). -/
def requestSet : List (Bool × Byte) := [(true, 28), (false, 1), (false, 0), (false, 0)]

/-- PROBE_REQUEST_RECEIVE: a reflection is due for the ordered set of a request (R281). -/
def execProbeRequestReceive (t : Int) (port : Fin 6) (set : List (Bool × Byte)) (s : State) : Host.Outcome State Fault Refusal :=
  let s := atTime t s
  if set == requestSet && reflects s port.val then settle { s with net := { s.net with refl := s.net.refl ++ [{ port := port.val, at_ := t }] } }
  else settle s

/-- WAIT of a reflection: 0 unless the port is sending a frame 256 ns after the request arrived; then the code groups to the end of its /R/ (R281). -/
def reflectWait (s : State) (r : Reflect) : Nat :=
  let p := r.at_ + 256
  match tget none r.port s.net.tx with
  | some (a, e) => if a ≤ p && p < e then ((e - p + 7) / 8).toNat else 0
  | none => 0

/-- PROBE_REFLECTION_SEND: the oldest reflection of the port leaves 256 ns + 8 WAIT ns after its request arrived, not before (R281). -/
def execProbeReflectionSend (t : Int) (port : Fin 6) (s : State) : Host.Outcome State Fault Refusal :=
  let s := atTime t s
  match s.net.refl.find? (fun r => r.port == port.val) with
  | none => settle s
  | some r =>
    let w := reflectWait s r
    let due := r.at_ + 256 + 8 * (w : Int)
    if t < due then settle s
    else
      let s := { s with net := { s.net with refl := s.net.refl.erase r } }
      settle (if reflects s port.val then { s with out := s.out ++ [.probe port.val due 2 w] } else s)

/-- PROBE_REFLECTION_RECEIVE: a sample s = t_ret − t_dep − 256 − 8 WAIT ns (R282). -/
def execProbeReflectionReceive (t : Int) (port : Fin 6) (wait : BitVec 16) (s : State) : Host.Outcome State Fault Refusal :=
  let s := atTime t s
  let p := port.val
  let smp := fun (d : Int) => t - d - 256 - 8 * (wait.toNat : Int)
  if ridgeLive s then
    settle (mapBranch p (fun b => match b.dep with | d :: r => { b with dep := r, loops := addSample (smp d) b.loops } | [] => b) s)
  else
    match portLane s p with
    | none => settle s
    | some l =>
      if rctRound s l then
        settle (mapRct l (fun x => match x.dep with | d :: r => { x with dep := r, loops := addSample (smp d) x.loops } | [] => x) s)
      else settle s

/-- PROBE_LOST: a departure 4 ms old without a reflection is lost and counted (R282). -/
def execProbeLost (t : Int) (port : Fin 6) (s : State) : Host.Outcome State Fault Refusal :=
  let s := atTime t s
  let p := port.val
  let old := fun (d : Int) => decide (t - d ≥ 4000000)
  if ridgeLive s then settle (mapBranch p (fun b => { b with dep := b.dep.filter (fun d => !old d) }) s)
  else
    match portLane s p with
    | none => settle s
    | some l =>
      let n := ((s.net.rct.lane l).dep.filter old).length
      settle (bumpBy (rctCtr l 1) n (mapRct l (fun x => { x with dep := x.dep.filter (fun d => !old d) }) s))

/-! ## Cold start (R291, R294) -/

/-- The listen time (R291). -/
def listenNs (s : State) : Int := 2 * roundNs s + 100000 * (nodeId s : Int)

/-- Whether a lane may enter COLDSTART now (R294). -/
def mayColdstart (s : State) (l : Lane) : Bool :=
  let x := s.net.rct.lane l
  rctRound s l && x.st = 0 && decide (s.now - x.since ≥ listenNs s) && s.lcm.lead == l && isSync s && bitOf (reg s 0x901C) 1
    && x.loops != [] && (s.net.rct.lane l.other).st = 0

/-- A lane enters COLDSTART as its own master (R294). -/
def coldLane (l : Lane) (s : State) : State :=
  if rctRound s l then
    mapRct l (fun x => { x with st := 1, since := s.now, master := nodeId s, delta := 0, times := [], dNow := none, sigma := 0, lost := false, own := true }) s
  else s

/-- LISTEN_TIMEOUT: COLDSTART under the conditions of R294. Round 1 begins 20 µs later: every counter adds O_c (R294, R296). -/
def execListenTimeout (t : Int) (lane : Lane) (s : State) : Host.Outcome State Fault Refusal :=
  let s := atTime t s
  if !mayColdstart s lane then settle s
  else
    let s := rebase (roundNs s - (t + 20000)) s
    let s := { s with net := { s.net with joined := true } }
    settle (rctNote lane evColdstart (w32 lane.num) 0 0 (coldLane lane.other (coldLane lane s)))

/-! ## Succession (R288, R289) -/

/-- Whether the node is eligible as master (R288). -/
def eligible (s : State) (l : Lane) : Bool := isSync s && (s.net.rct.lane l).st == 3 && s.refs.sel.isSome

/-- The lowest node of some TIME frames. -/
def lowestNode (l : List TimeSeen) : Option TimeSeen :=
  l.foldl (fun m x => match m with | none => some x | some y => if x.node < y.node then some x else some y) none

/-- Whether the master is given up: its frame carries RESIGN, or no valid frame of it has arrived in this round or the one before (R289); `seen` the last
round with one. -/
def masterGone (k master : Nat) (seen : Option Nat) (ts : List TimeSeen) : Bool :=
  ts.any (fun x => x.node == master && x.resign) || seen.all (fun r => decide (r + 1 < k))

/-- The successor of a master among the senders of a round (R289). -/
def successor (master : Nat) (ts : List TimeSeen) : Option Nat :=
  (lowestNode (ts.filter (fun x => !x.startup && x.node != master && x.sync && x.eligible && x.master == master))).map (·.node)

/-- Whether the master is given up and nobody succeeds it: no d exists until a successor is found (R289). -/
def masterLost (k master : Nat) (seen : Option Nat) (ts : List TimeSeen) : Bool := masterGone k master seen ts && (successor master ts).isNone

/-- The round in which a master was last heard, as a round's frames say (R289). -/
def heardIn (k m : Nat) (ts : List TimeSeen) : Option Nat := if ts.any (fun x => x.node == m) then some k else none

/-- The master for the next round from this round's valid TIME and STARTUP frames (R289). -/
def decideMaster (k master : Nat) (seen : Option Nat) (ts : List TimeSeen) : Nat :=
  let m := if masterGone k master seen ts then (successor master ts).getD master else master
  let times := ts.filter (fun x => !x.startup)
  if times.any (fun x => times.any (fun y => x.master != y.master)) then
    (match lowestNode times with | some x => x.master | none => m)
  else m

/-- MASTER_DECISION at the end of the static segment in each lane and in the ridge (R289). -/
def execMasterDecision (t : Int) (s : State) : Host.Outcome State Fault Refusal :=
  let s := atTime t s
  let one := fun (l : Lane) (s : State) =>
    let x := s.net.rct.lane l
    if rctRound s l && (x.st = 2 || x.st = 3) then
      let k := laneRound s l
      let m := decideMaster k x.master x.mRound x.times
      let lost := x.master != nodeId s && m == x.master && masterLost k x.master x.mRound x.times
      mapRct l (fun y => { y with newMaster := if m = y.master then none else some m, lost := lost, dNow := if lost then none else y.dNow }) s
    else s
  let s := one .y (one .x s)
  let r := s.net.rdg
  if ridgeLive s && r.sched then
    let m := decideMaster (curRound s) r.master r.mRound r.times
    let lost := m == r.master && masterLost (curRound s) r.master r.mRound r.times
    settle { s with net := { s.net with rdg := { r with newMaster := if m = r.master then none else some m, lost := lost,
                                                        dNow := if lost then none else r.dNow } } }
  else settle s

/-! ## The end of a round (R287, R292, R293, R295 to R298) -/

/-- The limit of ρ and σ, 500 ppm (R280). -/
def rateLim : Int := 21474836

/-- An int32 rate within its limit (R280, R287). -/
def clampRate (x : Int) : Int := max (-rateLim) (min rateLim x)

/-- σ and ρ for the next round (R287). -/
def correct (tr acc : Int) (d : Option Int) (rho : Int) : Int × Int :=
  let p := tr / 10
  match d with
  | none => (0, rho)
  | some d =>
    (clampRate (rnd (-d * 4294967296) p), if d ≤ acc && -d ≤ acc then clampRate (rho - rnd (d * 4294967296) (4 * p)) else rho)

/-- The difference of a lane's counter from the other lane's at the alignment, as the report says or as the counters stand (R23, R287). -/
def laneDiff (s : State) (k : TickIn) (l : Lane) : Int :=
  match k.counters.find? (fun e => e.1 == l.dom) with
  | some e => (match l with | .x => e.2.2 | .y => e.2.1)
  | none => (match l with | .x => s.clk.x.ns - s.clk.y.ns | .y => s.clk.y.ns - s.clk.x.ns)

/-- The d of a lane's round, its own or taken from the other lane (R287). -/
def roundD (s : State) (k : TickIn) (l : Lane) : Option Int :=
  let x := s.net.rct.lane l
  if x.master = nodeId s then none
  else
    match x.dNow with
    | some d => some d
    | none => if rctRound s l.other then (s.net.rct.lane l.other).dNow.map (· + laneDiff s k l) else none

/-- Whether a lane's round ends at this tick, in its own time. -/
def roundEnds (s : State) (l : Lane) : Bool := rctRound s l && laneTime s l s.now % roundNs s == 0

/-- Whether a deviation is beyond 2 ACC (R297). -/
def wide (s : State) (d : Int) : Bool := decide (d > 2 * accNs s) || decide (-d > 2 * accNs s)

/-- The corrections of a lane at its round's end (R287); a lane that integrates alone applies none of its own (R297). σ of the round that ends stands
no longer in any state. -/
def correctLane (s0 : State) (k : TickIn) (l : Lane) (s : State) : State :=
  let x := s0.net.rct.lane l
  if !roundEnds s0 l then s
  else if x.st != 2 && x.st != 3 then mapRct l (fun y => { y with sigma := 0 }) s
  else
    let d := roundD s0 k l
    let c := if x.master = nodeId s0 || alone s0 l then (0, x.rho) else correct (roundNs s0) (accNs s0) d x.rho
    mapRct l (fun y => { y with sigma := c.1, rho := c.2, d := match x.dNow with | some v => some v | none => x.d,
                                noD := if d.isSome || x.master = nodeId s0 then 0 else x.noD + 1 }) s

/-- Whether a JOINED lane closes its guardian at its round's end, and why: 0 a wide d, 1 no d for 4 rounds (R297). -/
def closes (s0 s : State) (l : Lane) : Option Nat :=
  let x := s0.net.rct.lane l
  if !roundEnds s0 l || x.st != 3 || x.master = nodeId s0 then none
  else if x.dNow.any (wide s0) then some 0
  else if (s.net.rct.lane l).noD ≥ 4 then some 1 else none

/-- A guardian closed: recorded and counted; the lane goes to INTEGRATING in network time (R290, R297). -/
def closeLane (l : Lane) (why : Nat) (s : State) : State :=
  let x := s.net.rct.lane l
  let s := bump (rctCtr l 3) (rctNote l evGuardian (w32 l.num) (w32i (x.d.getD (-2147483648))) (w32 why) s)
  mapRct l (fun y => { y with st := 2, since := s.now, runs := 0, full := false, ok := false, bad := false, own := false, delta := 0, noD := 0,
                              met := none }) s

/-- The guardians at a round's end: one lane alone, or both (R297). -/
def guardians (s0 s : State) : State :=
  let cx := closes s0 s .x
  let cy := closes s0 s .y
  let good := fun (l : Lane) => (s0.net.rct.lane l).st == 3 && (s0.net.rct.lane l).dNow.any (fun d => !wide s0 d)
  let gx := match cx, cy with | some w, _ => some w | none, some w => if roundEnds s0 .x && s0.net.rct.a.st == 3 && !good .x then some w else none | none, none => none
  let gy := match cy, cx with | some w, _ => some w | none, some w => if roundEnds s0 .y && s0.net.rct.b.st == 3 && !good .y then some w else none | none, none => none
  let s := match gx with | some w => closeLane .x w s | none => s
  let s := match gy with | some w => closeLane .y w s | none => s
  match gx, gy with
  | some _, none => if s.lcm.lead == Lane.x && serving s .y then { s with lcm := { s.lcm with lead := .y } } else s
  | none, some _ => if s.lcm.lead == Lane.y && serving s .x then { s with lcm := { s.lcm with lead := .x } } else s
  | _, _ => s

/-- A lane JOINED: a new epoch, and nothing held of other nodes' letters (R265 to R269). -/
def joinLane (l : Lane) (s : State) : State :=
  let ep := epochOf s
  let clear := fun (q : Peer) => { q with next := none, held := [] }
  if rctRound s l then
    bump (rctCtr l 5) (mapRct l (fun x =>
      { x with st := 3, since := s.now, delta := 0, runs := 0, noD := 0, marks := [], stream := { LStream.reset with epoch := ep },
               peers := x.peers.map (fun p => (p.1, p.2.map clear)) }) s)
  else s

/-- The device joins: every counter takes Δ, ticks fall in network time from now on, both lanes are JOINED (R293, R296). -/
def joinDevice (l : Lane) (delta : Int) (s : State) : State :=
  let first := !s.net.joined
  let s := if delta = 0 then s else rebase delta s
  let s := { s with net := { s.net with joined := true, joins := s.net.joins + 1, joinAt := s.now } }
  let s := if first || delta = 0 then s
    else bothLanes.foldl (fun s l => if rctRound s l then bump (rctCtr l 6) s else s) (rctNote l evTimeStep (lo32 delta) (hi32 delta) 0 s)
  let m := (s.net.rct.lane l).master
  rctNote l evJoined (w32 m) (roundLo s) (w32i (sat (if first then s.net.offset else delta) 32)) (joinLane .y (joinLane .x s))

/-- Whether a lane completed a full valid round on its channel (R292). -/
def fullValid (x : RctSt) : Bool := x.full && x.loops != [] && x.ok && !x.bad

/-- The start-up states at a round's end: joins, failures, the end of a cold start (R290, R292, R293, R296). -/
def startupStep (s0 : State) (l : Lane) (s : State) : State :=
  let x := s.net.rct.lane l
  let x0 := s0.net.rct.lane l
  if !roundEnds s0 l then s
  else if x.st = 1 && laneRound s0 l ≥ 5 then
    let m := joinDevice l 0 s
    mapRct .y (fun y => { y with own := true }) (mapRct .x (fun y => { y with own := true }) m)
  else if x.st = 3 && !x.own && x0.st ≠ 1 then (if fullValid x then mapRct l (fun y => { y with own := true }) s else s)
  else if x.st = 2 && x0.st = 2 then
    if fullValid x then
      let s := if alone s l then bump (rctCtr l 5) (mapRct l (fun y => { y with st := 3, since := s.now, delta := 0, stream := (s.net.rct.lane l.other).stream }) s)
        else joinDevice l x.delta s
      mapRct l (fun y => { y with own := true }) s
    else
      let n := x.runs + b2n x.full
      if n ≥ 16 then
        rctNote l evIntegrationFailed (w32 l.num) 0 0
          (mapRct l (fun y => { y with st := 0, since := s.now, delta := 0, runs := 0, full := false, master := 0, sigma := 0, lost := false }) s)
      else mapRct l (fun y => { y with runs := n }) s
  else s

/-- Another network's frames over 8 rounds take a JOINED node to its master (R295). -/
def meetStep (s0 : State) (l : Lane) (s : State) : State :=
  let x := s0.net.rct.lane l
  if !roundEnds s0 l || x.st != 3 then s
  else
    match x.metNow with
    | none => mapRct l (fun y => { y with met := none }) s
    | some (m, delta) =>
      let n := (match x.met with | some (m', c) => if m' = m then c + 1 else 1 | none => 1)
      if n ≥ 8 && (s.net.rct.lane l).st = 3 then
        let s := rctNote l evNetworksMet (w32 x.master) (w32 m) 0 s
        bothLanes.foldl (fun s l => if rctRound s l then
          mapRct l (fun y => { y with st := 2, since := s.now, master := m, delta := delta, runs := 0, full := false, ok := false, bad := false,
                                      own := false, noD := 0, met := none, metNow := none, newMaster := none }) s else s) s
      else mapRct l (fun y => { y with met := some (m, n) }) s

/-- A lane's channel judged SILENT or returned (R298). -/
def silentStep (s0 : State) (l : Lane) (s : State) : State :=
  let x := s0.net.rct.lane l
  if !roundEnds s0 l || (x.st != 3 && x.st != 2) then s
  else
    let other := rctRound s0 l.other && (s0.net.rct.lane l.other).heard
    let quiet := if x.heard then 0 else if other then x.quiet + 1 else 0
    let back := if x.heard then x.back + 1 else 0
    let now := if x.silent then !(decide (back ≥ 2)) else decide (quiet ≥ 2)
    let s := mapRct l (fun y => { y with quiet := quiet, back := back, silent := now }) s
    if now = x.silent then s else rctNote l evChannel (w32 l.num) (w32 (b2n now)) 0 s

/-- A change of master takes effect; the new master was last heard in the round that ends, if it sent in it; a node that becomes master corrects nothing
(R288, R289, R292). -/
def masterStep (s0 : State) (l : Lane) (s : State) : State :=
  let x0 := s0.net.rct.lane l
  match x0.newMaster with
  | none => s
  | some m =>
    let x := s.net.rct.lane l
    if !roundEnds s0 l || (x.st != 2 && x.st != 3) then s
    else
      laneNote l evMasterChange 3 (w32 x.master) (w32 m) 0
        (bump (rctCtr l 4) (mapRct l (fun y => { y with master := m, runs := 0, mRound := heardIn (laneRound s0 l - 1) m x0.times, newMaster := none, lost := false,
                                                        sigma := if m = nodeId s0 then 0 else y.sigma }) s))

/-- A master that loses eligibility resigns in this round and the next (R288). -/
def watchEligible (l : Lane) (s : State) : State :=
  mapRct l (fun x =>
    let e := eligible s l
    { x with elig := e, resign := if x.elig && !e && x.master = nodeId s then 2 else x.resign }) s

/-- What a lane's round held is cleared at its end; the next runs whole (R292). -/
def clearRound (s0 : State) (l : Lane) (s : State) : State :=
  if !(rctRound s l && (roundEnds s0 l || laneTime s l s.now % roundNs s == 0)) then s
  else
    let k := laneRound s l
    mapRct l (fun x => { x with dNow := none, heard := false, times := [], claims := [], claimed := [], ok := false, bad := false, shut := false,
                                metNow := none, newMaster := none, full := x.st == 2 || (x.st == 3 && !x.own), resign := x.resign - 1,
                                used := x.used.filter (fun u => decide (k ≤ u.2.2.2 + 9)) }) s

/-- Count messages that were not sent by the end of round k + 1 (R263). -/
def dropMessages (l : Lane) (s : State) : State :=
  let k := curRound s
  let x := s.net.rct.lane l
  let old := x.queue.filter (fun q => decide (q.round + 2 ≤ k))
  old.foldl (fun s q => rctNote l evMessageDiscarded (w32 (q.block + 256 * l.num)) (lo32 q.round) 0 s)
    (mapRct l (fun x => { x with queue := x.queue.filter (fun q => decide (k < q.round + 2)) }) s)

/-- The network's part of a tick in the lanes (R287, R292 to R298). The instant of the result is in network time after a join. -/
def lanesRound (k : TickIn) (s0 : State) : State :=
  let s := correctLane s0 k .y (correctLane s0 k .x s0)
  let s := guardians s0 s
  let s := meetStep s0 .y (meetStep s0 .x s)
  let s := silentStep s0 .y (silentStep s0 .x s)
  let s := startupStep s0 .y (startupStep s0 .x s)
  let s := masterStep s0 .y (masterStep s0 .x s)
  let s := watchEligible .y (watchEligible .x s)
  clearRound s0 .y (clearRound s0 .x s)

end Sys2Proof.Machine
end

