-- ==== Sys2Proof/Machine/Network.lean ====
section
/-!
DEFINITION. Machine/Network.lean: sending and receiving frames and claims on the channels, and the merge of letters
(11_round_network.md, R260 to R271; 17_integrity_map.md, R406 to R408).
-/
namespace Sys2Proof.Machine

/-! ## Ring queues (R304, R306) -/

/-- The bytes that a queued frame takes: its code groups on the line. -/
def ringFill (q : List (List Byte)) : Nat := q.foldl (fun n b => n + b.length + 3) 0

/-- Whether the RSW works (R304): RING ACTIVE, node role. -/
def rswLive (s : State) : Bool := active s .ring && !s.net.ridge && s.bsc.power != .safehalt && s.sec.lifecycle != 5

/-- A frame queued for RP3 (`to3`) or RP2; while that port is broken it goes out of the other (R305). A queue of 128 KiB that has no room takes no
frame. -/
def ringQueue (to3 : Bool) (b : List Byte) (s : State) : State :=
  let r := s.net.ring
  let dir := if to3 then !r.rp3Broken || r.rp2Broken else r.rp2Broken && !r.rp3Broken
  let q := (if dir then r.q3 else r.q2) ++ [b]
  if ringFill q > 131072 then s
  else
    bumpMax (0xAC00 + 0x100 * (if dir then 0 else 1) + 16) (ringFill q)
      { s with net := { s.net with ring := if dir then { r with q3 := q } else { r with q2 := q } } }

/-- Whether a lane sends its frames on the ring too (R306). -/
def ringSends (s : State) (l : Lane) : Bool :=
  let m := s.net.ringMode
  rswLive s && (m = 2 || (m = 1 && (s.net.rct.lane l).silent))

/-! ## Sending (R254, R256, R263, R268, R270) -/

/-- Whether a lane's guardian lets it send a frame of a kind now (R290, R297). -/
def maySend (s : State) (l : Lane) (kind : Nat) : Bool :=
  let x := s.net.rct.lane l
  rctRound s l && !x.shut && ((x.st = 3 && x.own) || (x.st = 1 && kind = 3 && 1 ≤ curRound s && curRound s ≤ 4))

/-- When the line carries a frame: from its /S/ to the end of its /R/ (R256). -/
def frameSpan (t : Int) (b : List Byte) : Int × Int := (t, t + 8 * ((b.length : Int) + 3))

/-- A frame leaves on a lane's channel, and on the ring where R306 says so. -/
def emitFrame (l : Lane) (type : Nat) (dyn : Bool) (index : Nat) (payload : List Byte) (s : State) : State :=
  let k := curRound s
  let b := frameBytes s false l.num type dyn index k payload
  let s := { s with out := s.out ++ [.frame (chanPort s l) s.now b], net := { s.net with tx := tput none (chanPort s l) (some (frameSpan s.now b)) s.net.tx } }
  if ringSends s l then ringQueue true (frameBytes s true l.num type dyn index k payload) s else s

/-- The records of a stream that entered by an instant, up to n. -/
def oldest (x : RctSt) (by_ : Int) (n : Nat) : List LRec := (x.stream.recs.filter (fun r => decide (r.at_ ≤ by_))).take n

/-- A LETTERS payload of some records (R267); SEQ is that of the first record, or of the next when there is none. -/
def lettersPayload (x : RctSt) (rs : List LRec) : List Byte :=
  let q := match rs.head?, x.stream.recs.head? with | some r, _ => r.seq | none, some r => r.seq | none, none => x.stream.next
  wordsBytes ([w32 q, halves rs.length x.stream.epoch] ++ rs.flatMap (·.words))

/-- The records of a LETTERS frame leave a lane's stream (R268). -/
def sentRecords (l : Lane) (n : Nat) (s : State) : State :=
  mapRct l (fun x => { x with stream := { x.stream with recs := x.stream.recs.drop n } }) s

/-- The TIME or STARTUP payload of a lane (R284, R288). -/
def timePayload (s : State) (l : Lane) : List Byte :=
  let x := s.net.rct.lane l
  let d : Int := match x.d with | some v => max (-2147483647) (min 2147483647 v) | none => -2147483648
  wordsBytes [w32 (x.master * 16777216 + 32768 * b2n (isSync s) + 16384 * b2n (eligible s l) + 8192 * b2n (decide (x.resign > 0))
      + 4096 * b2n (bitOf (reg s 0x901C) 2)), w32 ((loopOf x.loops).getD 0), w32i x.rho, w32i d]

/-- A TIME or STARTUP slot (R285): the sender's own frame counts among the round's. -/
def sendTime (l : Lane) (index : Nat) (s : State) : State :=
  let s := watchEligible l s
  let x := s.net.rct.lane l
  let up := x.st = 1
  let s := emitFrame l (if up then 4 else 3) false index (timePayload s l) s
  mapRct l (fun y => { y with mRound := if y.master = nodeId s then some (curRound s) else y.mRound,
                              times := y.times ++ [{ node := nodeId s, master := y.master, startup := up, sync := isSync s, eligible := eligible s l,
                                                     resign := decide (y.resign > 0) }] }) s

/-- A SECTION_STATE slot: up to three messages released 10 µs before, their postmarks read back; NULL for none (R263, R406). -/
def sendStates (l : Lane) (index : Nat) (readBackOk : Bool) (limit : Nat) (s : State) : State :=
  let x := s.net.rct.lane l
  let ready := x.queue.filter (fun q => decide (q.at_ + 10000 ≤ s.now))
  let ms := sortBy (fun q => (q.block : Int)) (ready.take (min 3 (limit / 276)))
  if ms = [] then emitFrame l 5 false index [] s
  else if !readBackOk then laneFault l 12 0 s
  else
    emitFrame l 1 false index (wordsBytes (ms.flatMap (·.words)))
      (mapRct l (fun y => { y with queue := y.queue.filter (fun q => !ms.contains q) }) s)

/-- A DIAG payload sent on a lane's channel: its DIAG_POST completes when every serving lane has sent it (R320). -/
def diagSent (l : Lane) (id : Nat) (s : State) : State :=
  let s := mapRct l (fun x => { x with diag := x.diag.filter (fun d => d.1 != id) }) s
  let wait := bothLanes.any (fun m => m != l && serving s m && (s.net.rct.lane m).diag.any (fun d => d.1 == id))
  if wait then s else finish id stApplied (roundLo s) 0 s

/-- A granted bay: exactly the frame claimed for (R270). -/
def sendBay (l : Lane) (index : Nat) (s : State) : State :=
  let x := s.net.rct.lane l
  match x.claimed.find? (fun c => c.id == index) with
  | none => s
  | some c =>
    if c.diag then
      match x.diag with
      | [] => s
      | d :: _ => diagSent l d.1 (emitFrame l 6 true index d.2 s)
    else
      let rs := x.stream.recs.take c.recs
      sentRecords l rs.length (emitFrame l 2 true index (lettersPayload x rs) s)

/-- The instant of a place's send point in the current round. -/
def sendAt (s : State) (l : Lane) (dyn : Bool) (index : Nat) : Option Int :=
  (placeSpan s (curRound s) (s.net.rct.lane l).claims dyn index).map (fun p => (curRound s : Int) * roundNs s + p.1 + 250)

/-- A lane's frame on its way to the RSW: if its crossing check fails there, it is not sent on the ring, and the failure is recorded (R403). -/
def ringCross (l : Lane) (ok : Bool) (s0 s : State) : State :=
  if ok || s.net.ring == s0.net.ring then s
  else note evCrossingFail .ring 0 5 (w32 l.num) (roundLo s) { s with net := { s.net with ring := s0.net.ring } }

/-- FRAME_SEND at the send point of a slot or bay that the node owns in the round (R254 to R256, R263, R268, R285, R297). -/
def execFrameSend (t : Int) (lane : Lane) (index : Nat) (dyn : Bool) (checks : SendCheck) (s : State) : Host.Outcome State Fault Refusal :=
  let s := atTime t s
  let settle := fun (u : State) => settle (ringCross lane checks.ringOk s u)
  match ownerOf s (curRound s) dyn index with
  | none => settle s
  | some e =>
    if e.node != nodeId s || !maySend s lane e.kind || sendAt s lane dyn index != some t then settle s
    else
      match e.kind with
      | 1 => settle (sendStates lane index checks.readBackOk (slotLimit s) s)
      | 2 =>
        let x := s.net.rct.lane lane
        let rs := oldest x (t - 10000) (min 63 ((slotLimit s - 8) / 16))
        settle (sentRecords lane rs.length (emitFrame lane 2 false index (lettersPayload x rs) s))
      | 3 => settle (sendTime lane index s)
      | _ => if (dynIds s (curRound s)).all (fun e => (claimOf (s.net.rct.lane lane).claims e.index).isSome) then settle (sendBay lane index s) else settle s

/-- What a dynamic ID's frame of the round would be: the claim, with its LENGTH (R268, R270, R271). -/
def claimFrame (s : State) (l : Lane) (e : Sched) (start : Int) : Option (Claimed × Nat) :=
  let x := s.net.rct.lane l
  let taken := x.claimed.foldl (fun n c => n + c.recs) 0
  if e.kind = 4 then
    let n := ((x.stream.recs.drop taken).filter (fun r => decide (r.at_ ≤ start - 10000))).length
    let n := min 63 n
    if n = 0 then none else some ({ id := e.index, recs := n, diag := false }, 8 + 16 * n)
  else
    match x.diag with
    | [] => none
    | d :: _ => if x.stream.recs = [] && !(x.claimed.any (·.diag)) then some ({ id := e.index, recs := 0, diag := true }, d.2.length) else none

/-- A view of the round's claims with one more. -/
def addClaim (id : Nat) (len : Option Nat) (cs : List (Nat × Option Nat)) : List (Nat × Option Nat) :=
  if cs.any (fun c => c.1 == id) then cs else cs ++ [(id, len)]

/-- CLAIM_SEND in the claim minislot of a dynamic ID that the node owns (R270, R297). -/
def execClaimSend (t : Int) (lane : Lane) (id : Nat) (s : State) : Host.Outcome State Fault Refusal :=
  let s := atTime t s
  match ownerOf s (curRound s) true id, claimStart s (curRound s) id with
  | some e, some o =>
    let start := (curRound s : Int) * roundNs s + o
    if e.node != nodeId s || !maySend s lane e.kind || t != start + 250 then settle s
    else
      let f := claimFrame s lane e start
      let len := match f with | some c => frameMinis c.2 | none => 0
      let s := mapRct lane (fun x => { x with claims := addClaim id (some len) x.claims,
                                              claimed := x.claimed ++ (match f with | some c => [c.1] | none => []) }) s
      settle { s with out := s.out ++ [.claim (chanPort s lane) t (id % 256) len (claimCheck id len)] }
  | _, _ => settle s

/-- What an observed claim of an ID says: its length, or nothing known (R270). -/
def readClaim (id : Nat) (rx : BranchRx) : Option Nat :=
  match rx with
  | .claim i len check => if i.toNat = id % 256 && check.toNat = claimCheck id len.toNat then some len.toNat else none
  | _ => none

/-- Whether a claim arrives within the bounds of its minislot at a lane that knows the owner's delay (R254). -/
def claimInTime (s : State) (l : Lane) (id : Nat) : Bool :=
  let k := laneRound s l
  match ownerOf s k true id, claimStart s k id with
  | some e, some o =>
    let x := s.net.rct.lane l
    match (peerOf x e.node).loop, loopOf x.loops with
    | some th, some own =>
      let d := if bitOf (reg s 0x901C) 2 && th.2 then rnd (((own + th.1 : Nat) : Int)) 4 else rnd (((own + th.1 : Nat) : Int)) 2 + 1024
      let a := laneTime s l s.now - ((k : Int) * roundNs s + o + 250 + d)
      decide (a ≤ accNs s) && decide (-a ≤ accNs s)
    | _, _ => true
  | _, _ => false

/-- CLAIM_RECEIVE: a node or the ridge reads a claim of an ID; one it cannot read is unknown to it (R270, R301). -/
def execClaimReceive (t : Int) (port : Nat) (id : Nat) (rx : BranchRx) (s : State) : Host.Outcome State Fault Refusal :=
  let s := atTime t s
  if ridgeLive s then
    let r := s.net.rdg
    if r.sched then settle { s with net := { s.net with rdg := { r with claims := addClaim id (readClaim id rx) r.claims } } } else settle s
  else
    match portLane s port with
    | none => settle s
    | some l =>
      if rctRound s l && (dynIds s (laneRound s l)).any (fun e => e.index == id) then
        let len := if claimInTime s l id then readClaim id rx else none
        settle (mapRct l (fun x => { x with claims := addClaim id len x.claims }) s)
      else settle s

/-! ## Receiving (R260 to R264, R283, R286, R291) -/

/-- An item for the host on STR7 (R329): the header, then the message or payload, padded to a multiple of 32 bytes. -/
def netItem (f : Frame) (body : List Byte) (s : State) : State :=
  if bitOf (reg s 0xC130) 0 then
    let b := f.raw.take 16 ++ body
    ringPut 7 0xF0 0 (b ++ zeros ((32 - b.length % 32) % 32)) s
  else s

/-- The n count messages of a SECTION_STATE payload. -/
def messagesOf (p : List Byte) : List (List Byte) := (List.range (p.length / 276)).map (fun i => (p.drop (276 * i)).take 276)

/-- A count message's postmark (R182). -/
def postmarkOk (m : List Byte) : Bool := (m.drop 272) == wordBytes (crc32c (m.take 272))

/-- What the host receives of a valid frame, once, from the lead lane (R264, R329). -/
def toHost (l : Lane) (f : Frame) (s : State) : State :=
  if l != s.lcm.lead then s
  else if f.type = 1 && bitOf (laneReg s l 0x9014) 8 then
    ((messagesOf f.payload).filter postmarkOk).foldl (fun s m => netItem f m s) s
  else if f.type = 6 then netItem f f.payload s
  else s

/-- Until when a lane waits for the second copy of a frame: 20 µs after the later of the two channels' bounds for its last code group; in polled mode, where
R254 gives no bound, after the copy's own end (R262; DEDUCED, log entry 149). -/
def copyDue (s : State) (f : Frame) (tEnd : Int) : Int :=
  let bound := fun (l : Lane) =>
    match placeSpan s f.round (s.net.rct.lane l).claims f.dyn f.index, delayOf s l f with
    | some p, some d => (f.round : Int) * roundNs s + p.2 + d + accNs s
    | _, _ => tEnd
  20000 + (if polled s then tEnd else max tEnd (max (bound .x) (bound .y)))

/-- The records of a LETTERS payload as one copy (R267). -/
def copyOf (due : Int) (f : Frame) : LCopy :=
  let ws := bytesWords f.payload
  let n := fld (nth 0 ws 1) 31 16
  { due := due, dyn := f.dyn, index := f.index, round := f.round, seq := (nth 0 ws 0).toNat, epoch := fld (nth 0 ws 1) 15 0,
    recs := (List.range n).map (fun i => (ws.drop (2 + 4 * i)).take 4) }

/-- One valid frame as a lane uses it: the first copy, but LETTERS, of which both copies wait for their merge (R262). -/
def useFrame (l : Lane) (f : Frame) (tEnd : Int) (s : State) : State :=
  let x := s.net.rct.lane l
  if f.type = 2 then
    if isJoined s || polled s then mapPeer l f.node (fun p => { p with held := p.held ++ [copyOf (copyDue s f tEnd) f] }) s else s
  else
    let key := (f.node, f.dyn, f.index, f.round)
    if x.used.contains key then s
    else
      let s := mapRct l (fun y => { y with used := (key :: y.used).take 4096 }) s
      if f.timed then
        let w := f.word 0
        mapRct l (fun y => { y with mRound := if f.node = y.master then some f.round else y.mRound,
                                    times := y.times ++ [{ node := f.node, master := fld w 31 24, startup := f.type = 4, sync := bitOf w 15,
                                                           eligible := bitOf w 14, resign := bitOf w 13 }] }) s
      else if isJoined s || polled s then toHost l f s
      else s

/-- A valid frame used by the lane of its channel and passed to the other (R31, R262, R403, R407). -/
def shareFrame (l : Lane) (f : Frame) (tEnd : Int) (crossOk : Bool) (s : State) : State :=
  let s := useFrame l f tEnd s
  if !rctLive s l.other || s.lcm.cond.lane l == .retired || s.lcm.cond.lane l == .failSilent then s
  else if crossOk then useFrame l.other f tEnd s
  else soloNote l.other evCrossingFail 3 2 (w32 l.other.num) (roundLo s) s

/-- The instant of a TIME or STARTUP frame in its network's time (R291). -/
def frameNt (s : State) (f : Frame) (d : Int) : Int := (f.round : Int) * roundNs s + ((f.index : Int) - 1) * slotNs s + 250 + d

/-- A TIME or STARTUP frame taken under R291 by a lane that has no time in common with its sender. -/
def takeStart (l : Lane) (rx : FrameRx) (f : Frame) (d : Int) (s : State) : State :=
  let c := frameCause s l rx f d false f.round
  if c ≠ 0 then deadLetter rx.port c f.node s
  else
    let x := s.net.rct.lane l
    let delta := frameNt s f d - rx.t
    let m := fld (f.word 0) 31 24
    if x.st = 0 then (if f.node = m then leaveListen l m delta s else s)
    else if f.node < nodeId s then
      let s := integrate l f.node delta s
      if rctRound s l.other then integrate l.other f.node delta s else s
    else s

/-- The deviation of the master's frame measured, and a wide one shuts the guardian (R286, R297). -/
def measure (l : Lane) (rx : FrameRx) (f : Frame) (d : Int) (s : State) : State :=
  let x := s.net.rct.lane l
  if !(f.timed && f.node = x.master && x.dNow.isNone && x.master != nodeId s && !x.lost) then s
  else
    match framePlace s l f with
    | none => s
    | some p =>
      let v := laneTime s l rx.t - (p.1 + d)
      let win := ((s.net.intwin * 1000 : Nat) : Int)
      let ok := frameCause s l { rx with t := rx.t - v, tEnd := rx.tEnd - v } f d true (laneRound s l) = 0
      if ok && v ≤ win && -v ≤ win then
        mapRct l (fun y => { y with dNow := some v, d := some v, shut := y.shut || (y.st = 3 && wide s v) }) s
      else s

/-- What a failing TIME frame shows: of a sync node outside its WINDOW (R292), or of another network (R295). -/
def failingTime (l : Lane) (rx : FrameRx) (f : Frame) (d : Int) (cause : Nat) (s : State) : State :=
  if f.type != 3 || (cause != 2 && cause != 7) || frameCause s l rx f d false f.round != 0 then s
  else
    let m := fld (f.word 0) 31 24
    mapRct l (fun x => { x with bad := x.bad || (cause = 2 && bitOf (f.word 0) 15),
                                metNow := if x.st = 3 && m < x.master then some (m, frameNt s f d - rx.t) else x.metNow }) s

/-- A valid frame's LOOP, and what it says of a full valid round (R283, R292). -/
def noteValid (l : Lane) (rx : FrameRx) (f : Frame) (d : Int) (s : State) : State :=
  let s := mapRct l (fun x => { x with heard := true }) s
  if !f.timed then s
  else
    let s := mapPeer l f.node (fun p => { p with loop := some ((f.word 1).toNat, bitOf (f.word 0) 12) }) s
    let half := match framePlace s l f with
      | some p => let v := laneTime s l rx.t - (p.1 + d); decide (2 * v ≤ accNs s) && decide (-2 * v ≤ accNs s)
      | none => false
    mapRct l (fun x => { x with ok := x.ok || (f.node = x.master && half) }) s

/-- A frame on a lane's channel in ROUND mode (R260, R283, R290, R291). -/
def chanFrame (l : Lane) (rx : FrameRx) (crossOk : Bool) (s : State) : State :=
  let f := parseFrame rx.bytes
  let x := s.net.rct.lane l
  if !isJoined s && !f.timed then s
  else
    match delayOf s l f with
    | none => bump (rctCtr l 2) s
    | some d =>
      if x.st = 0 || x.st = 1 then
        if f.timed then takeStart l rx f d s else s
      else
        let s := measure l rx f d s
        let c := frameCause s l rx f d true (laneRound s l)
        if c = 0 then shareFrame l f rx.tEnd crossOk (noteValid l rx f d s)
        else deadLetter rx.port c f.node (failingTime l rx f d c s)

/-! ## The merge of letters (R266, R269, R408) -/

/-- SEQ relative to E as a signed difference (R269). -/
def seqDiff (a b : Nat) : Int := wrap ((a : Int) - (b : Int)) 32

/-- A record of the stream as an item, none for a reserved type (R143, R266); a status starts at the last watermark accepted of its head. -/
def itemOfRec (node : Nat) (prev : Option Int) (ws : List Word) : Option HItem :=
  let w0 := nth 0 ws 0
  let w1 := nth 0 ws 1
  let ty := fld w0 31 28
  if ty = 15 then
    let w := signed (join64 (nth 0 ws 2) (nth 0 ws 3)) 64
    some (.status (some node) { head := fld w0 12 0, st := fld w0 27 25, start := prev.getD w, w := w, lt := bitOf w1 25, pend := fld w0 21 16,
                                nOver := fld w1 31 26, on1 := bitOf w0 24, on2 := bitOf w0 23, span := bitOf w0 22 })
  else if 1 ≤ ty && ty ≤ 8 then
    some (.ev (some node) { ty := ty, neg := bitOf w0 27, lt := bitOf w0 26, zone := fld w0 25 24, pending := fld w0 21 16, head := fld w0 12 0,
                            t := signed (join64 w1 (nth 0 ws 2)) 64, data := fld (nth 0 ws 3) 31 16, marks := fld (nth 0 ws 3) 15 0, rst := none })
  else none

/-- An item for a lane's ledger from the RCT (R157). -/
def rctItem (l : Lane) (it : HItem) (s : State) : State := { s with rctq := s.rctq.setLane l (s.rctq.lane l ++ [it]) }

/-- The key of a remote head among the last watermarks. -/
def markKey (node head : Nat) : Nat := 8192 * node + head

/-- An OVERFLOW of a remote head at the time of R269. -/
def overflowItem (l : Lane) (node head : Nat) (s : State) : State :=
  let t := (tget none (markKey node head) (s.net.rct.lane l).marks).getD (laneTime s l s.now)
  rctItem l (.ev (some node) { ty := 4, neg := false, lt := false, zone := 0, pending := 0, head := head, t := t, data := 0, marks := 0, rst := none }) s

/-- A gap: recorded with its size, and an OVERFLOW for every enabled remote entry that names the sender (R269). -/
def letterGap (l : Lane) (node lost epoch : Nat) (s : State) : State :=
  let s := laneNote l evLetterGap 3 (w32 node) (w32 lost) (w32 epoch) s
  ((remotes s).filter (fun e => e.2.node == node)).foldl (fun s e => overflowItem l node e.2.head s) s

/-- A record accepted: E advances, it is kept, and goes to the ledger (R157, R269, R408). -/
def acceptRec (l : Lane) (node seq epoch : Nat) (ws : List Word) (s : State) : State :=
  let head := fld (nth 0 ws 0) 12 0
  let prev := tget none (markKey node head) (s.net.rct.lane l).marks
  let s := mapPeer l node (fun p => { p with next := some ((seq + 1) % 4294967296, epoch), kept := ((seq, ws) :: p.kept).take 256 }) s
  match itemOfRec node prev ws with
  | none => s
  | some it =>
    let s := rctItem l it s
    match it with
    | .status _ x =>
      if (remotes s).any (fun e => e.2.node == node && e.2.head == head) then
        mapRct l (fun y => { y with marks := tput none (markKey node head) (some x.w) y.marks }) s
      else s
    | _ => s

/-- Two copies of one SEQ that differ (R408): recorded; a copy accepted before brings OVERFLOWs for the heads of either. -/
def disagree (l : Lane) (node seq : Nat) (acceptedHeads : List Nat) (s : State) : State :=
  let s := laneNote l evLetterDisagree 3 (w32 node) (w32 seq) 0 s
  ((remotes s).filter (fun e => e.2.node == node && acceptedHeads.contains e.2.head)).foldl (fun s e => overflowItem l node e.2.head s) s

/-- One record of a merge in SEQ order (R269, R408). -/
def mergeRec (l : Lane) (node epoch : Nat) (seq : Nat) (ws : List Word) (s : State) : State :=
  let p := peerOf (s.net.rct.lane l) node
  match p.next with
  | none => acceptRec l node seq epoch ws s
  | some (e, ep) =>
    if ep ≠ epoch then acceptRec l node seq epoch ws (letterGap l node 4294967295 epoch s)
    else
      let d := seqDiff seq e
      if d < 0 then
        match p.kept.find? (fun k => k.1 == seq) with
        | some k => if k.2 = ws then s else disagree l node seq [fld (nth 0 k.2 0) 12 0, fld (nth 0 ws 0) 12 0] s
        | none => s
      else if d = 0 then acceptRec l node seq epoch ws s
      else acceptRec l node seq epoch ws (letterGap l node d.toNat epoch s)

/-- The records of the copies of one frame: SEQ and words, each SEQ once, none where two copies differ; with the SEQs that differ. -/
def joinCopies (cs : List LCopy) : List (Nat × List Word) × List Nat :=
  let all := cs.flatMap (fun c => (List.range c.recs.length).map (fun i => ((c.seq + i) % 4294967296, nth [] c.recs i)))
  let bad := (all.filter (fun a => all.any (fun b => b.1 == a.1 && b.2 != a.2))).map (·.1) |>.eraseDups
  ((all.filter (fun a => !bad.contains a.1)).eraseDups, bad)

/-- The copies of one frame merged into a lane (R269, R408). Copies of two epochs are taken one after the other. -/
def mergeFrame (l : Lane) (node : Nat) (cs : List LCopy) (s : State) : State :=
  (cs.map (·.epoch)).eraseDups.foldl (fun s ep =>
    let j := joinCopies (cs.filter (fun c => c.epoch == ep))
    let p := peerOf (s.net.rct.lane l) node
    let base := match p.next with | some e => e.1 | none => (j.1.head?.map (·.1)).getD 0
    let past := j.2.filter (fun q => p.next.any (fun e => e.2 == ep && decide (seqDiff q e.1 < 0)))
    let s := (j.2.filter (fun q => !past.contains q)).foldl (fun s q => disagree l node q [] s) s
    let s := past.foldl (fun s q =>
      let hs := (cs.flatMap (fun c => (List.range c.recs.length).filterMap (fun i =>
        if (c.seq + i) % 4294967296 = q then some (fld (nth 0 (nth [] c.recs i) 0) 12 0) else none)))
      if p.kept.any (fun k => k.1 == q) then disagree l node q hs s else s) s
    (sortBy (fun a => seqDiff a.1 base) j.1).foldl (fun s a => mergeRec l node ep a.1 a.2 s) s) s

/-- Whether the wait for the second copy of a frame is over: it has come, or its instant has; while a channel is SILENT the wait is extended to the end of
round ROUND + LAG (R262, R306). -/
def waitOver (s : State) (n : Nat) (c : LCopy) : Bool :=
  let silent := bothLanes.any (fun l => rctRound s l && (s.net.rct.lane l).silent)
  let ext := ((c.round + regF s 0x9020 11 8 + 1 : Nat) : Int) * roundNs s
  2 ≤ n || decide (s.now ≥ (if silent then max c.due ext else c.due))

/-- LETTERS_MERGE: the wait for the second copy of the oldest frame held of a node is over (R262, R269). -/
def execLettersMerge (t : Int) (lane : Lane) (node : Nat) (s : State) : Host.Outcome State Fault Refusal :=
  let s := atTime t s
  let p := peerOf (s.net.rct.lane lane) node
  match p.held with
  | [] => settle s
  | c :: _ =>
    let same := fun (d : LCopy) => d.dyn == c.dyn && d.index == c.index && d.round == c.round
    if !laneTakes s lane || !waitOver s (p.held.filter same).length c then settle s
    else
      settle (mergeFrame lane node (p.held.filter same) (mapPeer lane node (fun p => { p with held := p.held.filter (fun d => !same d) }) s))

end Sys2Proof.Machine
end

