-- ==== Sys2Proof/Machine/Streams.lean ====
section
/-!
DEFINITION. Machine/Streams.lean: stream definitions, the packing of blocks into STR buffers, history regions, their holding and
retrieval, and the DRAM scrub (14_streams_history.md).
-/
namespace Sys2Proof.Machine

/-- The BAR0 offset of w0 of a stream definition (R457). -/
def sdefOff (d : Nat) : Nat := 0xD400 + 16 * d

/-- The BAR0 offset of w4 of a region, which holds EN, HOLD, TRIG and POST (R457). -/
def regionOff (k : Nat) : Nat := 0xD010 + 0x40 * k

/-- The usable DRAM: 7/8 of the physical capacity (R351). -/
def usableBytes : Nat := Config.dramBytes * 7 / 8

/-! ## Definitions (R340, R341, R347) -/

/-- Whether a definition's fields keep the table "Stream definition" and R341; the window is that of the plan its port runs. -/
def sdefOk (s : State) (d : Nat) : Bool :=
  let q := sdef s d
  let p := if q.port = 0 then Port.p0 else .p1
  let last := q.first + (q.nsel - 1) * q.stride
  let x := s.stg.port p
  let inWindow := match x.plan with
    | some w => x.run != 1 || (w.b0 ≤ q.first && last < w.b0 + w.nbins)
    | none => true
  (q.source == 1 || q.source == 2) && ((q.format == 4 && q.source == 2) || ((q.format == 1 || q.format == 2) && q.source == 1))
    && q.first ≤ 30719 && 1 ≤ q.stride && q.stride ≤ 1024 && 1 ≤ q.nsel && q.nsel ≤ 30720 && 1 ≤ q.div && last ≤ 30719 && inWindow

/-- Whether a port's stream load with a definition added keeps the limit of R347. -/
def sdefPace (s : State) (d : Nat) : Bool :=
  let i := if (sdef s d).port = 0 then Fch.f0 else .f1
  let o := fchOff i + 0x18
  loadOk s i (bitOf (reg s (o + 4)) 0) (reg s o).toNat (reg s (o + 8)).toNat [d]

/-- EN of a definition as it takes effect: a rise starts it, its first block carrying RESTART (R340, R358); a fall ends the output (R348). -/
def sdefEnable (d : Nat) (en : Bool) (s : State) : State :=
  let s := setRw (sdefOff d) (setBit (reg s (sdefOff d)) 0 en) s
  if en == (defOf s d).en then s
  else if en then flagDef d (mapDef d (fun _ => { en := true, restart := true, shed := false, lastLine := none }) s)
  else endOutput d (mapDef d (fun x => { x with en := false }) s)

/-- The whole of HSC_SDEFd takes effect, w0 and w2 as given and w1 as last written (R450); a rise of EN that breaks R341 or R347 is ignored,
recorded and signalled (R340). -/
def sdefTake (d : Nat) (w0 w2 : Word) (s : State) : State :=
  let o := sdefOff d
  let s' := release [o, o + 4, o + 8] (setRw (o + 8) w2 (setRw o (setBit w0 0 (defOf s d).en) s))
  if bitOf w0 0 && !(defOf s d).en && !(sdefOk s' d && sdefPace s' d) then ignoreWrite .host 1 (o + 8) w2 0 s
  else sdefEnable d (bitOf w0 0) s'

/-- HSC_SDEF_ENABLE (R340). -/
def execHscSdefEnable (t : Int) (d : Fin 16) (en : Bool) (s : State) : Host.Outcome State Fault Refusal :=
  let s := atTime t s
  let o := sdefOff d.val
  if !active s .host then settle (hreDiscard s) else settle (sdefTake d.val (setBit (regStored s o) 0 en) (regStored s (o + 8)) s)

/-! ## STR buffers (R348, R349) -/

/-- The FORMAT of blocks: byte 3 of the first header (R345). -/
def blockFormat (b : List Byte) : Nat := (nth 0 b 3).toNat

/-- The instant at which FLUSH completes a buffer begun now (R348). -/
def flushAt (s : State) (n : Nat) : Option Int :=
  let f := regF s (0xC110 + 4 * n) 25 16
  if f = 0 then none else some (s.now + (f : Nat) * 1000000)

/-- The deadline of the buffer being filled on STRn. -/
def setFlush (n : Nat) (v : Option Int) (s : State) : State := { s with hsc := { s.hsc with strAt := tput none n v s.hsc.strAt } }

/-- The buffer being filled on STRn completed, with END or without (R348). -/
def closeStr (n : Nat) (last : Bool) (s : State) : State :=
  let g := ringOf s.hre n
  setFlush n none (if g.fill = [] then s else ringClose n (blockFormat g.fill) 0 false last s)

/-- A block laid into the buffer of STRn, whole (R348, R349). -/
def packStr (n : Nat) (b : Block) (s : State) : State :=
  let g := ringOf s.hre n
  let s := ringPut n (blockFormat b.bytes) 0 b.bytes s
  let h := ringOf s.hre n
  if h.fill.length = b.bytes.length && (g.fill = [] || h.done != g.done) then setFlush n (flushAt s n) s else s

/-- STREAM_BLOCK_PACK: the next block for STRn, or the end of a definition's output (R348). -/
def execStreamBlockPack (t : Int) (n : Fin 8) (s : State) : Host.Outcome State Fault Refusal :=
  let s := atTime t s
  match tget [] n.val s.hsc.strq with
  | [] => settle s
  | b :: r =>
    let s := { s with hsc := { s.hsc with strq := tput [] n.val r s.hsc.strq } }
    if !active s .host then settle s
    else if b.bytes = [] then settle (closeStr n.val true s)
    else settle (packStr n.val b s)

/-- STREAM_FLUSH_TIMER: FLUSH has passed since the buffer's first block (R348). -/
def execStreamFlushTimer (t : Int) (n : Fin 8) (s : State) : Host.Outcome State Fault Refusal :=
  let s := atTime t s
  match tget none n.val s.hsc.strAt with
  | some e => if s.now ≥ e then settle (closeStr n.val false s) else settle s
  | none => settle s

/-! ## Regions (R351 to R353) -/

/-- BASE and LEN of a region (R457). -/
def regionSpan (s : State) (k : Nat) : Nat × Nat :=
  (reg64 s (regionOff k - 16) / 4096 * 4096, reg64 s (regionOff k - 8) / 4096 * 4096)

/-- Whether a region can be enabled: its length, the usable space, the other enabled regions (R351). -/
def regionOk (s : State) (k : Nat) : Bool :=
  let a := regionSpan s k
  a.2 ≥ 65536 && a.1 + a.2 ≤ usableBytes
    && (List.range 16).all (fun j =>
      let b := regionSpan s j
      j == k || !(regionOf s.hsc j).en || decide (b.1 + b.2 ≤ a.1) || decide (a.1 + a.2 ≤ b.1))

/-- The blocks that wait for a region. -/
def setHisq (k : Nat) (l : List Block) (s : State) : State := { s with hsc := { s.hsc with hisq := tput [] k l s.hsc.hisq } }

/-- Whether a job is a retrieval of a region (R354). -/
def isRetrieval (k : Nat) (j : Job) : Bool := j.kind == 0x50 && nth 0 j.args 0 == k

/-- The retrievals of a region cancelled (R358). -/
def cancelRetrieval (k : Nat) (s : State) : State :=
  ((s.bsc.jobs ++ s.bsc.running).filter (isRetrieval k)).foldl (fun s j => finish j.id stCancelled 0 0 (dropJob j s)) s

/-- EN of a region as it takes effect: a rise empties it, and its first block carries RESTART (R351, R352); a fall cancels a retrieval (R358). -/
def regionEnable (k : Nat) (en : Bool) (s : State) : State :=
  let s := setRw (regionOff k) (setBit (reg s (regionOff k)) 0 en) s
  if en == (regionOf s.hsc k).en then s
  else if en then
    mapRegion k (fun r => { r with en := true, wptr := 0, wraps := 0, countdown := none, armed := true, blocks := [], fresh := true,
                                   gap := false, lastN := none }) (setHisq k [] s)
  else mapRegion k (fun r => { r with en := false, countdown := none }) (setHisq k [] (cancelRetrieval k s))

/-- HOLD becomes 1: writes stop at once and the blocks on their way are shed and counted (R353). -/
def holdRegion (k : Nat) (s : State) : State :=
  let q := tget [] k s.hsc.hisq
  let s := setHisq k [] (setRw (regionOff k) (setBit (reg s (regionOff k)) 1 true) s)
  mapRegion k (fun r => { r with hold := true, heldAt := s.now, countdown := none, shed := satAdd 32 r.shed q.length, gap := r.gap || q != [] }) s

/-- HOLD written (R353). -/
def regionHold (k : Nat) (hold : Bool) (s : State) : State :=
  let r := regionOf s.hsc k
  if hold then (if r.hold then s else holdRegion k s)
  else
    mapRegion k (fun r => { r with hold := false, armed := true, countdown := none })
      (setRw (regionOff k) (setBit (reg s (regionOff k)) 1 false) s)

/-- The whole of HSC_REGk takes effect, w4 as given and w0 to w3 as last written (R450): TRIG and POST, then HOLD, then EN; a rise of EN
whose range R351 does not allow is ignored and recorded. -/
def regionTake (k : Nat) (v : Word) (s : State) : State :=
  let o := regionOff k
  let r := regionOf s.hsc k
  let s' := release (span (o - 16) 17) (setRw o (setBit (setBit v 0 r.en) 1 r.hold) s)
  if bitOf v 0 && !r.en && !regionOk s' k then ignoreWrite .host 1 o v 0 s
  else
    let s' := if bitOf v 1 != r.hold then regionHold k (bitOf v 1) s' else s'
    regionEnable k (bitOf v 0) s'

/-- HSC_REG_ENABLE (R351). -/
def execHscRegEnable (t : Int) (k : Fin 16) (en : Bool) (s : State) : Host.Outcome State Fault Refusal :=
  let s := atTime t s
  if !active s .host then settle (hreDiscard s) else settle (regionTake k.val (setBit (regStored s (regionOff k.val)) 0 en) s)

/-- HSC_REG_HOLD (R353). -/
def execHscRegHold (t : Int) (k : Fin 16) (hold : Bool) (s : State) : Host.Outcome State Fault Refusal :=
  let s := atTime t s
  if !active s .host then settle (hreDiscard s) else settle (regionTake k.val (setBit (regStored s (regionOff k.val)) 1 hold) s)

/-- HOLD_COUNTDOWN_END: POST ms after a trigger HOLD becomes 1 (R353). -/
def execHoldCountdownEnd (t : Int) (k : Fin 16) (s : State) : Host.Outcome State Fault Refusal :=
  let s := atTime t s
  match (regionOf s.hsc k.val).countdown with
  | some e => if s.now ≥ e && active s .host then settle (holdRegion k.val s) else settle s
  | none => settle s

/-- Whether a retrieval from t_a over span µs selects a block (R354). -/
def selects (ta spanUs : Nat) (b : Block) : Bool :=
  b.bytes != [] && !b.lt && decide ((ta : Int) ≤ b.time) && decide (b.time < (ta : Int) + 1000 * (spanUs : Nat))

/-- What the loss of a region's oldest m blocks does to a retrieval: its place, and how many selected blocks it loses (R355). Arguments
of a retrieval: region, t_a, span, blocks passed, blocks that stood at acceptance. -/
def overtakeJob (m : Nat) (bs : List Block) (j : Job) : Job × Nat :=
  let skip := nth 0 j.args 3
  let till := nth 0 j.args 4
  let lost := ((bs.take (min m till)).drop skip).countP (selects (nth 0 j.args 1) (nth 0 j.args 2))
  ({ j with args := j.args.take 3 ++ [skip - m, till - m] }, lost)

/-- Tokens reported as lost in the next done buffer of HIS (R355, R356). -/
def loseHis (n : Nat) (s : State) : State :=
  if n = 0 then s else mapRing 9 (fun g => { g with shed := satAdd 32 g.shed n }) s

/-- The oldest m blocks of a region overwritten (R351, R355). -/
def overwrite (k m : Nat) (s : State) : State :=
  if m = 0 then s
  else
    let bs := (regionOf s.hsc k).blocks.map (·.2)
    let f := fun (l : List Job) => l.map (fun j => if isRetrieval k j then overtakeJob m bs j else (j, 0))
    let js := f s.bsc.jobs
    let rs := f s.bsc.running
    let lost := ((js ++ rs).map (·.2)).foldl (· + ·) 0
    let s := { s with bsc := { s.bsc with jobs := js.map (·.1), running := rs.map (·.1) } }
    bumpBy 0xDC08 lost (loseHis lost (mapRegion k (fun r => { r with blocks := r.blocks.drop m }) s))

/-- The bytes that an entry of a region covers: a pad block runs to the region's end (R351). -/
def entryEnd (len : Nat) (e : Nat × Block) : Nat := if e.2.bytes = [] then len else e.1 + e.2.bytes.length

/-- Where a region's oldest blocks lie that the bytes a to b cover: how many of them are overwritten (R351). -/
def covered (len a b : Nat) (l : List (Nat × Block)) : Nat :=
  (l.takeWhile (fun e => decide (e.1 < b) && decide (a < entryEnd len e))).length

/-- One entry laid at WPTR (R351). -/
def layEntry (k len size : Nat) (b : Block) (s : State) : State :=
  let r := regionOf s.hsc k
  let s := overwrite k (covered len r.wptr (r.wptr + size) r.blocks) s
  mapRegion k (fun r =>
    let w := r.wptr + size
    { r with blocks := r.blocks ++ [(r.wptr, b)], wptr := if w ≥ len then 0 else w, wraps := if w ≥ len then satAdd 16 r.wraps 1 else r.wraps }) s

/-- A block written into its region, after a pad block where the rest is too short (R351). -/
def writeHistory (k : Nat) (b : Block) (s : State) : State :=
  let len := (regionSpan s k).2
  let rest := len - (regionOf s.hsc k).wptr
  let s := if rest < b.bytes.length then layEntry k len rest { b with bytes := [] } s else s
  mapRegion k (fun r => { r with lastN := some b.n }) (layEntry k len b.bytes.length b s)

/-- HISTORY_BLOCK_WRITE: the next block of region k (R351, R353); until the ECC is initialised every region is empty (R352). -/
def execHistoryBlockWrite (t : Int) (k : Fin 16) (s : State) : Host.Outcome State Fault Refusal :=
  let s := atTime t s
  match tget [] k.val s.hsc.hisq with
  | [] => settle s
  | b :: r =>
    let s := setHisq k.val r s
    let g := regionOf s.hsc k.val
    if !active s .host || !g.en then settle s
    else if g.hold || !s.hsc.eccReady then settle (markBusy .host <| mapRegion k.val (fun g => { g with shed := satAdd 32 g.shed 1, gap := true }) s)
    else settle (writeHistory k.val b s)

/-- HOST_ECC_INIT_DONE: every usable word has been written once (R352). -/
def execHostEccInitDone (t : Int) (s : State) : Host.Outcome State Fault Refusal :=
  let s := atTime t s
  settle (if active s .host then { s with hsc := { s.hsc with eccReady := true } } else s)

/-! ## Retrieval (R354 to R356) -/

/-- HIS_RETRIEVE accepted: a queued job on HOST with base priority 2; refused while its region is being read (R354, R355, R357). -/
def effHisRetrieve (c : HostCmd) (s : State) : State :=
  let k := fld c.a0 3 0
  if (s.bsc.jobs ++ s.bsc.running).any (isRetrieval k) then refuse 0x50 c stRefusedBusy s
  else
    addJob { id := newId s, index := c.index, prio := 2, res := .host, since := 0, kind := 0x50,
             args := [k, argA12 c, c.a3.toNat, 0, (regionOf s.hsc k).blocks.length], pos := 0, total := 0, waitAt := none } (accept c 0x50 s)

/-- HIS_RETRIEVE (R354). -/
def execHisRetrieve (c : HostCmd) (s : State) : Host.Outcome State Fault Refusal := hostCommand 0x50 effHisRetrieve c s

/-- An item of a job offered to a data ring: false where no buffer is posted for it (R328). -/
def jobPut (n fmt job : Nat) (item : List Byte) (s : State) : Bool × State :=
  if !ringReady s n then (false, s)
  else
    let s := ringFit n fmt job item.length (ringOf s.hre n).posted.length s
    if !ringReady s n then (false, s) else (true, ringPut n fmt job item s)

/-- A job that meets no posted buffer waits from now (R328). -/
def Job.wait (now : Int) (j : Job) : Job := { j with waitAt := some (j.waitAt.getD now) }

/-- An uncorrectable error in a block: counted, recorded, the block lost (R356). -/
def blockUe (k off : Nat) (s : State) : State :=
  loseHis 1 (note evDramUe .host 1 (w32 k) (w32 off) 0 (bump 0xDC04 s))

/-- A quantum of a retrieval: blocks placed on HIS, oldest first, as far as `room` bytes and the posted buffers go; whether it is complete
(R354 to R356). `ue` gives the offsets in the region at which a read was uncorrectable; `fuel` bounds the blocks passed. -/
def hisServe (ue : List Nat) : Nat → Nat → Job → State → Bool × Job × State
  | 0, _, j, s => (false, j, s)
  | f + 1, room, j, s =>
    let k := nth 0 j.args 0
    let skip := nth 0 j.args 3
    let till := nth 0 j.args 4
    let next : Job := { j with args := j.args.take 3 ++ [skip + 1, till], waitAt := none }
    match (if skip < till then (regionOf s.hsc k).blocks[skip]? else none) with
    | none => (true, j, s)
    | some (off, b) =>
      if !selects (nth 0 j.args 1) (nth 0 j.args 2) b then hisServe ue f room next s
      else if ue.contains off then hisServe ue f room next (blockUe k off s)
      else if room < b.bytes.length then (false, j, s)
      else
        let r := jobPut 9 (blockFormat b.bytes) j.index.toNat b.bytes s
        if !r.1 then (false, j.wait s.now, r.2)
        else hisServe ue f (room - b.bytes.length) { next with pos := next.pos + b.bytes.length } r.2

/-- The end of a retrieval: its last buffer carries END, RESULT0 the bytes placed (R354). -/
def hisDone (j : Job) (s : State) : State :=
  let g := ringOf s.hre 9
  let s := if g.fill = [] then s else ringClose 9 (blockFormat g.fill) j.index.toNat false true s
  finish j.id stApplied (w32 j.pos) 0 s

/-! ## The scrub (R356, R376) -/

/-- Whether a job is the DRAM scrub. -/
def isScrub (j : Job) : Bool := j.kind == 0

/-- A day in ns. -/
def dayNs : Int := 86400000000000

/-- SCRUB_PASS_START: a pass queued with base priority 7; one that has not ended 24 hours after it began is counted as reduced, once, and goes
on (R356, R357, R376). -/
def execScrubPassStart (t : Int) (s : State) : Host.Outcome State Fault Refusal :=
  let s := atTime t s
  if !active s .host then settle s
  else if (s.bsc.jobs ++ s.bsc.running).any isScrub then
    if s.now - s.hsc.scrubAt ≥ dayNs && !s.hsc.scrubReduced then
      settle (bump 0xDC10 { s with hsc := { s.hsc with scrubReduced := true } })
    else settle s
  else
    settle (addJob { id := 0, index := 0, prio := 7, res := .host, since := 0, kind := 0, args := [], pos := 0, total := usableBytes,
                     waitAt := none } { s with hsc := { s.hsc with scrubAt := s.now, scrubReduced := false } })

/-- A quantum of the scrub: so many bytes more; uncorrectable words met are counted and recorded with the region that holds them, if one
does (R356). -/
def scrubServe (ue : List Nat) (room : Nat) (j : Job) (s : State) : Bool × Job × State :=
  let s := ue.foldl (fun s a =>
    let k := (List.range 16).find? (fun k => (regionOf s.hsc k).en && decide ((regionSpan s k).1 ≤ a)
      && decide (a < (regionSpan s k).1 + (regionSpan s k).2))
    let s := bump 0xDC04 s
    match k with
    | some k => note evDramUe .host 1 (w32 k) (w32 (a - (regionSpan s k).1)) 0 s
    | none => s) s
  let j := { j with pos := j.pos + room }
  (decide (j.pos ≥ j.total), j, s)

end Sys2Proof.Machine
end

