-- ==== Sys2Proof/Machine/Jobs.lean ====
section
/-!
DEFINITION. Machine/Jobs.lean: queued bulk jobs: what each does in a quantum, how the Budget Scheduler picks the next (R357, R374 to R376),
the statistics of heads and sections (R321), and DIAG_POST (R320).
-/
namespace Sys2Proof.Machine

/-! ## Statistics (R321) -/

/-- The lane from which statistics are taken: the serving lane, Lane X when both serve; with none serving, the lead lane. -/
def statLane (s : State) : Lane :=
  if serving s .x then .x else if serving s .y then .y else s.lcm.lead

/-- Counters packed two to a word, the lower-numbered one low; `n` words (R321). -/
def packCounters (n : Nat) (c : List Nat) : List Word := (List.range n).map (fun i => halves (nth 0 c (2 * i + 1)) (nth 0 c (2 * i)))

/-- The 32 bytes of a head (R321). -/
def headStatRecord (s : State) (l : Lane) (h : Nat) : List Byte :=
  let x := tget none h (s.hen.lane l).heads
  let st := (x.map (·.st)).getD 0
  wordsBytes ([w32 (536870912 * st + h % 8192)] ++ packCounters 6 ((x.map (·.cnt)).getD []) ++ [0])

/-- The 64 bytes of a section (R321). -/
def sectStatRecord (s : State) (l : Lane) (i : Nat) : List Byte :=
  let x := tget none i (s.sld.lane l).sects
  let st := (x.map (·.st)).getD 0
  wordsBytes ([w32 (536870912 * st + i % 4096)] ++ packCounters 9 ((x.map (·.cnt)).getD []) ++ List.replicate 6 0)

/-- The counters of a head or section read and cleared (R7, R321). -/
def clearStat (head : Bool) (l : Lane) (i : Nat) (s : State) : State :=
  if head then
    mapHen l (fun e => match tget none i e.heads with
      | some x => { e with heads := tput none i (some { x with cnt := x.cnt.map (fun _ => 0) }) e.heads }
      | none => e) s
  else
    mapSld l (fun e => match tget none i e.sects with
      | some x => { e with sects := tput none i (some { x with cnt := x.cnt.map (fun _ => 0) }) e.sects }
      | none => e) s

/-- A statistics command accepted: a queued job on LANES with base priority 3 (R321, R357). Arguments: first, count, clear, buffer. -/
def effStats (op mask : Nat) (c : HostCmd) (s : State) : State :=
  addJob { id := newId s, index := c.index, prio := 3, res := .lanes, since := 0, kind := op,
           args := [c.a0.toNat &&& mask, c.a1.toNat, b2n (bitOf c.a0 31), argBuf c], pos := 0, total := c.a1.toNat, waitAt := none }
    (accept c op s)

/-- HEAD_STATS (R321). -/
def effHeadStats (c : HostCmd) (s : State) : State := effStats 0x21 0x1FFF c s

/-- HEAD_STATS (R321). -/
def execHeadStats (c : HostCmd) (s : State) : Host.Outcome State Fault Refusal := hostCommand 0x21 effHeadStats c s

/-- SECTION_STATS (R321). -/
def effSectionStats (c : HostCmd) (s : State) : State := effStats 0x2C 0xFFF c s

/-- SECTION_STATS (R321). -/
def execSectionStats (c : HostCmd) (s : State) : Host.Outcome State Fault Refusal := hostCommand 0x2C effSectionStats c s

/-- A quantum of a statistics job: records written to its buffer, in ascending number (R321). -/
def statServe (room : Nat) (j : Job) (s : State) : Bool × Job × State :=
  let head := j.kind == 0x21
  let size := if head then 32 else 64
  let n := min (room / size) (j.total - j.pos)
  let l := statLane s
  let ids := span (nth 0 j.args 0 + j.pos) n
  let bytes := ids.flatMap (fun i => if head then headStatRecord s l i else sectStatRecord s l i)
  let s := if n = 0 then s else hostWrite (nth 0 j.args 3 + size * j.pos) bytes s
  let s := if nth 0 j.args 2 = 1 then ids.foldl (fun s i => clearStat head l i s) s else s
  let j := { j with pos := j.pos + n }
  (decide (j.pos ≥ j.total), j, s)

/-! ## DIAG_POST (R320) -/

/-- Whether this node owns a dynamic DIAG ID in some round (R320). -/
def ownsDiag (s : State) : Bool := (sched s).any (fun e => e.kind == 5 && e.node == nodeId s)

/-- DIAG_POST: refused without a DIAG ID; its buffer is read at acceptance; then a queued job on HOST with base priority 5 (R320, R357). -/
def effDiagPost (c : HostCmd) (s : State) : State :=
  let n := fld c.a0 10 0
  if !ownsDiag s then refuse 0x58 c stRefusedState s
  else
    match c.buf with
    | none => refuse 0x58 c stFailedDma (dmaError 0xFF (argBuf c) s)
    | some b =>
      addJob { id := newId s, index := c.index, prio := 5, res := .host, since := 0, kind := 0x58, args := (padTo n b).map (·.toNat),
               pos := 0, total := n, waitAt := none } (accept c 0x58 s)

/-- DIAG_POST (R320). -/
def execDiagPost (c : HostCmd) (s : State) : Host.Outcome State Fault Refusal := hostCommand 0x58 effDiagPost c s

/-- The quantum of a DIAG_POST: its payload handed to the RCT of every serving lane (R320). -/
def diagServe (j : Job) (s : State) : State :=
  let p := (j.id, j.args.map (fun b => BitVec.ofNat 8 b))
  bothLanes.foldl (fun s l => if serving s l then mapRct l (fun x => { x with diag := x.diag ++ [p] }) s else s) s

/-! ## REC_READ (R432) -/

/-- The index in a REC_READ's range at place i: archive slots keep bit 31 (R432). -/
def recIndex (first i : Nat) : Nat := if first ≥ 2147483648 then 2147483648 + (first + i) % 2048 else first + i

/-- A quantum of REC_READ: records placed on REC in ascending index; invalid slots are recorded (R432). `total` counts the records placed, `fmt`
the FORMAT of its buffers, which the spec does not state. -/
def recServe (fmt : Nat) : Nat → Job → State → Bool × Job × State
  | 0, j, s => (false, j, s)
  | f + 1, j, s =>
    let count := nth 0 j.args 1
    if j.pos ≥ count then (true, j, s)
    else
      let next := { j with pos := j.pos + 1, waitAt := none }
      match recLookup s (recIndex (nth 0 j.args 0) j.pos) with
      | (none, some e) => recServe fmt f next (note evRecordInvalid .aon 3 (w32 e.1) (w32 e.2) 0 s)
      | (none, none) => recServe fmt f next s
      | (some ws, _) =>
        let r := jobPut 8 fmt j.index.toNat (wordsBytes ws) s
        if !r.1 then (false, j.wait s.now, r.2) else recServe fmt f { next with total := j.total + 1 } r.2

/-- The end of a REC_READ: its last buffer carries END; RESULT0 the records placed (R432). -/
def recDone (fmt : Nat) (j : Job) (s : State) : State :=
  let s := if (ringOf s.hre 8).fill = [] then s else ringClose 8 fmt j.index.toNat false true s
  finish j.id stApplied (w32 j.total) 0 s

/-! ## The scheduler (R374, R375) -/

/-- BSC_AGE.STEP in ns (R375, R458). -/
def ageStep (s : State) : Int := max 1 (regF s 0xE004 13 0 : Nat) * 1000000

/-- The effective priority of a job (R375). -/
def pEff (s : State) (j : Job) : Nat := j.prio - ((s.now - j.since) / ageStep s).toNat

/-- Whether the first job is picked before the second: lower effective priority, larger age, lower CMD index (R375). -/
def before (s : State) (a b : Job) : Bool :=
  let pa := pEff s a
  let pb := pEff s b
  pa < pb || (pa == pb && (a.since < b.since || (a.since == b.since && a.index.toNat < b.index.toNat)))

/-- The job picked among those of a resource (R375). -/
def pickOf (s : State) (l : List Job) : Option Job :=
  l.foldl (fun a j => match a with | none => some j | some b => if before s j b then some j else some b) none

/-- The place of a resource among the BSC's counters (R459). -/
def Resource.num (r : Resource) : Nat := match r with | .host => 0 | .lanes => 1 | .nvm => 2 | .port0 => 3 | .port1 => 4

/-- A free resource's next job begins a quantum; none while a LEAN cause stands (R373 to R375). -/
def pickJob (r : Resource) (s : State) : State :=
  if leanCause s.bsc || s.bsc.running.any (fun j => j.res == r) then s
  else
    match pickOf s (s.bsc.jobs.filter (fun j => j.res == r)) with
    | none => s
    | some j =>
      let s := bump (0xEC3C + 4 * Resource.num r) s
      let s := if pEff s j ≤ 1 then bump 0xEC50 s else s
      let s := match r with
        | .host => markBusy .host s
        | .lanes => markBusy .laney (markBusy .lanex s)
        | .nvm => s
        | .port0 => markBusy .port0 s
        | .port1 => markBusy .port1 s
      { s with bsc := { s.bsc with jobs := s.bsc.jobs.erase j, running := s.bsc.running ++ [j] } }

/-- What the job that ran did in its quantum; true when it leaves the queue (R374). -/
def serveJob (room : Nat) (ue : List Nat) (j : Job) (s : State) : Bool × Job × State :=
  match j.kind with
  | 0x50 =>
    let r := hisServe ue ((regionOf s.hsc (nth 0 j.args 0)).blocks.length + 1) room j s
    if r.1 then (true, r.2.1, hisDone r.2.1 r.2.2) else r
  | 0x48 =>
    let d := draw s
    let fmt := d.1.toNat % 256
    let r := recServe fmt (room / 32 + 1) j d.2
    if r.1 then (true, r.2.1, recDone fmt r.2.1 r.2.2) else r
  | 0x58 => (true, j, diagServe j s)
  | 0x42 => sweepServe room j s
  | 0x39 => seedServe room j s
  | 0x00 =>
    let r := scrubServe ue room j s
    if r.1 then (true, r.2.1, bump 0xDC0C r.2.2) else r
  | _ =>
    let r := statServe room j s
    if r.1 then (true, r.2.1, finish j.id stApplied (w32 r.2.1.pos) 0 r.2.2) else r

/-- JOB_QUANTUM_END: the job that ran on the resource has done its quantum; the BSC picks the next (R356, R374, R375). -/
def execJobQuantumEnd (t : Int) (res : Resource) (room ce : Nat) (ue : List Nat) (s : State) : Host.Outcome State Fault Refusal :=
  let s := atTime t s
  match s.bsc.running.find? (fun j => j.res == res) with
  | none => settle (pickJob res s)
  | some j =>
    let s := { s with bsc := { s.bsc with running := s.bsc.running.filter (fun i => i.res != res) } }
    let r := serveJob room ue j (if res == .host then bumpBy 0xDC00 ce s else s)
    settle (pickJob res (if r.1 then r.2.2 else addJob r.2.1 r.2.2))

end Sys2Proof.Machine
end

