-- ==== Sys2Proof/Machine/Lanes.lean ====
section
/-!
DEFINITION. Machine/Lanes.lean: the lanes side by side (08_lanes_single_fault.md): retirement and re-admission by command, the comparison of a tick
with adoption, and the release of blocks to AON, the network and the host.
-/
namespace Sys2Proof.Machine

/-! ## LANE_RETIRE and LANE_READMIT (R199 to R201) -/

/-- LANE_RETIRE (R189, R199, R210): refused for the only serving lane and for a lane that neither serves nor returns; completes at retirement. -/
def effLaneRetire (c : HostCmd) (s : State) : State :=
  let l := argLane c
  match s.lcm.cond.lane l with
  | .serving =>
    if !serving s l.other then refuse 0x30 c stRefusedState s
    else
      let id := newId s
      laneFaultAs .lanes true (some id) l 10 0 (accept c 0x30 s)
  | .readmission =>
    let id := newId s
    let s := laneFault l 10 0 (accept c 0x30 s)
    finish id stApplied (roundLo s) 0 s
  | _ => refuse 0x30 c stRefusedState s

/-- LANE_RETIRE (R199). -/
def execLaneRetire (c : HostCmd) (s : State) : Host.Outcome State Fault Refusal := hostCommand 0x30 effLaneRetire c s

/-- LANE_READMIT (R200, R210): refused when the lane is not retired or the other does not serve; during an automatic re-admission it waits for that one. -/
def effLaneReadmit (c : HostCmd) (s : State) : State :=
  let l := argLane c
  match s.lcm.cond.lane l, s.lcm.readm.lane l with
  | .retired, _ =>
    if !serving s l.other then refuse 0x31 c stRefusedState s
    else
      let id := newId s
      startReadmit l (some id) (accept c 0x31 s)
  | .readmission, some r =>
    if r.id.isSome then refuse 0x31 c stRefusedState s
    else
      let r := { r with id := some (newId s) }
      let s := accept c 0x31 s
      { s with lcm := { s.lcm with readm := s.lcm.readm.setLane l (some r) } }
  | _, _ => refuse 0x31 c stRefusedState s

/-- LANE_READMIT (R200). -/
def execLaneReadmit (c : HostCmd) (s : State) : Host.Outcome State Fault Refusal := hostCommand 0x31 effLaneReadmit c s

/-- The serving lane's slates taken by the returning lane, in true form (R201 step 4). -/
def copyLane (l : Lane) (s : State) : State :=
  let o := l.other
  let mine := s.net.rct.lane l
  let his := s.net.rct.lane o
  let loopOf := fun (n : Nat) => ((tget none n mine.peers).map (·.loop)).getD none
  let x := { mine with stream := his.stream, marks := his.marks,
                       peers := his.peers.map (fun p => (p.1, p.2.map (fun q => { q with loop := loopOf p.1 }))) }
  { s with hen := s.hen.setLane l (s.hen.lane o), sld := s.sld.setLane l (s.sld.lane o),
           rctq := s.rctq.setLane l (s.rctq.lane o), net := { s.net with rct := s.net.rct.setLane l x },
           clk := match l with | .x => { s.clk with x := s.clk.y } | .y => { s.clk with y := s.clk.x } }

/-- The lane registers of the serving lane taken by the returning lane (R201, R452). -/
def copyLaneRegs (l : Lane) (s : State) : State :=
  match l with
  | .x => { s with regs := { s.regs with laneX := s.regs.laneY } }
  | .y => { s with regs := { s.regs with laneY := s.regs.laneX } }

/-- A re-admission's state changed. -/
def mapReadmit (l : Lane) (f : Readmit → Readmit) (s : State) : State :=
  { s with lcm := { s.lcm with readm := s.lcm.readm.setLane l ((s.lcm.readm.lane l).map f) } }

/-- READMIT_SELFTEST_DONE (R201): a failure ends the re-admission, HARD; else the transfer begins, the forks deliver again and the lane's RCT
sets out to join its channel with its key copies written (R386). -/
def execReadmitSelftestDone (t : Int) (lane : Lane) (pass : Bool) (s : State) : Host.Outcome State Fault Refusal :=
  let s := atTime t s
  match s.lcm.readm.lane lane with
  | none => settle s
  | some r =>
    if r.step ≠ 3 || !active s lane.dom then settle s
    else if !pass then settle (laneFault lane 8 0 s)
    else settle (copyLane lane (rctStart lane (copyLaneRegs lane (mapReadmit lane (fun r => { r with step := 4 }) (setKeys lane (loadedKeys s.sec) s)))))

/-- Whether step 6 of a re-admission is complete (R201). -/
def channelJoined (s : State) (l : Lane) : Bool :=
  let x := s.net.rct.lane l
  !isJoined s || polled s || s.net.ridge || !x.on || x.st = 3

/-- A lane admitted (R201 step 7). -/
def admitLane (l : Lane) (s : State) : State :=
  let s := match (s.lcm.readm.lane l).bind (·.id) with
    | some i => finish i stApplied (roundLo s) 0 s
    | none => s
  setCond l .serving
    (note evReadmit l.dom 2 (w32 l.num) 2 0 { s with lcm := { s.lcm with readm := s.lcm.readm.setLane l none } })

/-- The re-admission of a lane at a tick boundary (R201): shadow begins, or the lane is admitted. -/
def readmitTick (l : Lane) (s : State) : State :=
  match s.lcm.readm.lane l with
  | none => s
  | some r =>
    if r.step = 4 then copyLane l (mapReadmit l (fun r => { r with step := 5, shadow := laneRegF s l 0x8000 26 16 }) s)
    else if r.step = 5 && r.shadow = 0 && channelJoined s l then admitLane l s
    else s

/-- Step 1 of a tick for a lane's retirement, due two ticks after its fault (R199). -/
def retireTick (l : Lane) (s : State) : State :=
  match s.lcm.fault.lane l with
  | some f => if f.round + 2 ≤ curRound s then retireLane l s else s
  | none => s

/-! ## Restrictiveness (R196, R209) -/

/-- The rank of an entry (table "Restrictiveness of section entries"). -/
def entryRank (w : Word) : Nat :=
  match fld w 31 29 with
  | 3 => 1 | 5 => 2 | 4 => 3 | 2 => 4 | 1 => 5 | _ => 6

/-- Whether Lane X's entry wins over Lane Y's. -/
def xWins (x y : Word) : Bool :=
  let cx := signed (fld x 15 0) 16
  let cy := signed (fld y 15 0) 16
  if entryRank x ≠ entryRank y then entryRank x < entryRank y
  else if cx ≠ cy then cy < cx
  else fld y 28 16 ≤ fld x 28 16

/-- The entry that wins. -/
def entryPick (x y : Word) : Word := if xWins x y then x else y

/-! ## Adoption (R196, R197) -/

/-- A counter of a lane's comparator (R459). -/
def lcmBump (k n : Nat) (l : Lane) (s : State) : State := bumpBy (0x8C00 + 0x100 * l.num + 4 * k) n s

/-- A section's working state taken over by a lane; what waits in its own item store stays. -/
def adoptInto (l : Lane) (i : Nat) (w : Option SectSt) (s : State) : State :=
  let mine := ((tget none i (s.sld.lane l).sects).map (·.items)).getD []
  mapSld l (fun e => { e with sects := tput none i (w.map (fun x => { x with items := mine })) e.sects,
                              entries := tput 0 i ((w.map (·.entry)).getD 0) e.entries }) s

/-- The count message of a block formed again from the entries (R181, R196). -/
def refreshMessage (l : Lane) (k : Nat) (s : State) : State :=
  let c := s.lcm.comp.lane l
  match tget [] k c.msgs with
  | [] => s
  | old =>
    let w := old.take 4 ++ blockEntries (s.sld.lane l) k
    { s with lcm := { s.lcm with comp := s.lcm.comp.setLane l { c with msgs := tput [] k (w ++ [crc32cWords w]) c.msgs } } }

/-- An adoption recorded and counted: whether it is one of a section adopted within 1 024 ticks, or the ninth within 3 600 s, decides R197. -/
def noteAdoption (head : Bool) (i : Nat) (x y : Word) (s : State) : State :=
  let s := note evAdoption s.lcm.lead.dom 2 (w32 (i + 65536 * b2n head)) x y s
  let s := lcmBump 2 1 .y (lcmBump 2 1 .x s)
  { s with lcm := { s.lcm with adopts := s.lcm.adopts.filter (fun a => decide (s.now - a < 3600000000000)) ++ [s.now] } }

/-- A section that differs: both lanes take the winning lane's state. Whether its adoption recurs within 1 024 ticks comes with it. -/
def adoptSection (i : Nat) (s : State) : Bool × State :=
  let x := tget none i s.sld.a.sects
  let y := tget none i s.sld.b.sects
  if sectDigest x = sectDigest y then (false, s)
  else
    let wx := nth 0 (sectDigest x) 0
    let wy := nth 0 (sectDigest y) 0
    let w := if xWins wx wy then x else y
    let again := (tget none i s.lcm.adopted).any (fun r => decide (curRound s ≤ r + 1024))
    let s := adoptInto .y i w (adoptInto .x i w s)
    let s := { s with lcm := { s.lcm with adopted := tput none i (some (curRound s)) s.lcm.adopted } }
    (again, noteAdoption false i wx wy s)

/-- A head that differs is treated in both lanes as if its slate had failed (R146, R196). -/
def adoptHead (h : Nat) (s : State) : State :=
  let x := tget none h s.hen.a.heads
  let y := tget none h s.hen.b.heads
  if headDigest x = headDigest y then s
  else
    let wx := nth 0 (headDigest x) 0
    let wy := nth 0 (headDigest y) 0
    noteAdoption true h wx wy (headSlateFail .y h (headSlateFail .x h s))

/-- The adoption of the mismatching blocks, and SAFEHALT where R197 demands it. -/
def adoptBlocks (m : List Nat) (s : State) : State :=
  let secs := (m.filter (fun k => decide (k < 64)))
  let r := (secs.flatMap (fun k => span (64 * k) 64)).foldl (fun (a : Bool × State) i =>
    let y := adoptSection i a.2; (a.1 || y.1, y.2)) (false, s)
  let s := secs.foldl (fun s k => refreshMessage .y k (refreshMessage .x k s)) r.2
  let s := ((m.filter (fun k => decide (64 ≤ k))).flatMap (fun k => span (64 * (k - 64)) 64)).foldl (fun s h => adoptHead h s) s
  if r.1 || s.lcm.adopts.length > 8 then lanesHalt 2 s else s

/-! ## The comparison (R192 to R195) -/

/-- A lane's comparison changed. -/
def mapComp (l : Lane) (f : CompSt → CompSt) (s : State) : State :=
  { s with lcm := { s.lcm with comp := s.lcm.comp.setLane l (f (s.lcm.comp.lane l)) } }

/-- Whether both halves compare this tick: both have formed digests of one round and none has been found uncompared. -/
def comparing (s : State) : Bool :=
  laneTakes s .x && laneTakes s .y && (serving s .x || serving s .y) && !s.lcm.comp.a.dig.isEmpty && !s.lcm.comp.b.dig.isEmpty
    && s.lcm.comp.a.round = s.lcm.comp.b.round && !s.lcm.comp.a.uncomp && !s.lcm.comp.b.uncomp

/-- Every block of a lane may be released. -/
def releaseAll (l : Lane) (s : State) : State := if serving s l then mapComp l (fun c => { c with rel := List.range 64 }) s else s

/-- The tick is uncompared (R194): each lane releases its own entries; recorded at first and after each further 16 in a row; a returning
lane's re-admission ends (R201). -/
def uncompared (s : State) : State :=
  let ret := bothLanes.filter (fun l => s.lcm.cond.lane l == .readmission)
  let run := s.lcm.uncompRun + 1
  let s := { s with lcm := { s.lcm with uncompRun := run } }
  let s := if run % 16 = 1 then note evUncompared s.lcm.lead.dom 2 (roundLo s) (w32 run) 0 s else s
  let s := bothLanes.foldl (fun s l => lcmBump 1 1 l s) s
  if ret.isEmpty then bothLanes.foldl (fun s l => releaseAll l (mapComp l (fun c => { c with uncomp := true }) s)) s
  else ret.foldl (fun s l => readmitBreak l s) s

/-- The decision on a tick that both serving lanes compared with one outcome (R194, R195): what the diagnosis located decides, else
adoption; what is decided is released. -/
def decideTick (m : List Nat) (located : List Lane) (s : State) : State :=
  let s := { s with lcm := { s.lcm with uncompRun := 0, mismatch := m.length } }
  let s := lcmBump 0 m.length .y (lcmBump 0 m.length .x s)
  let s := if m.isEmpty then s
    else if located.isEmpty then adoptBlocks m s
    else bothLanes.foldl (fun s l => if located.contains l then laneFault l 4 (nth 0 m 0) s else s) s
  releaseAll .y (releaseAll .x s)

/-- A half's outcome while the other lane is in shadow (R201): equal, one shadow tick done; else the re-admission ends. -/
def shadowOutcome (l : Lane) (m : List Nat) (s : State) : State :=
  if !m.isEmpty then
    let s := lcmBump 0 m.length .y (lcmBump 0 m.length .x s)
    bothLanes.foldl (fun s l => if s.lcm.cond.lane l == .readmission then readmitBreak l s else s) s
  else if s.lcm.cond.lane l == .readmission && (s.lcm.comp.lane l).out.isNone then
    mapReadmit l (fun r => { r with shadow := r.shadow - 1 })
      (mapComp l (fun c => { c with out := some [] }) { s with lcm := { s.lcm with uncompRun := 0 } })
  else s

/-- DIGEST_TRANSFER_RECEIVE (R192 to R198): an LCM half takes the other's digests and compares; with both outcomes known the tick is decided. -/
def execDigestTransferReceive (t : Int) (lane : Lane) (crcOk : Bool) (round : Word) (digests : List Word) (located : List Lane)
    (s : State) : Host.Outcome State Fault Refusal :=
  let s := atTime t s
  let c := s.lcm.comp.lane lane
  let m := (List.range 192).filter (fun k => nth 0 c.dig k != nth 0 digests k)
  if !comparing s then settle s
  else if !crcOk || round ≠ lo32 c.round then settle (uncompared s)
  else if !(serving s .x && serving s .y) then settle (shadowOutcome lane m s)
  else if c.out.isSome then settle s
  else
    let s := mapComp lane (fun c => { c with out := some m }) s
    match (s.lcm.comp.lane lane.other).out with
    | none => settle s
    | some o => settle (if o = m then decideTick m located s else uncompared s)

/-- COMPARISON_TIMEOUT (R192): the other half's transfer has not come. -/
def execComparisonTimeout (t : Int) (lane : Lane) (s : State) : Host.Outcome State Fault Refusal :=
  let s := atTime t s
  if !comparing s then settle s
  else if (s.lcm.comp.lane lane).out.isSome && (serving s .x && serving s .y || s.lcm.cond.lane lane == .readmission) then settle s
  else settle (uncompared s)

/-! ## BLOCK_RELEASE (R193, R330, R377, R403) -/

/-- The instant of a tick. -/
def tickInstant (s : State) (round : Nat) : Int := (round : Int) * roundNs s

/-- A tick buffer of the AON shadow: a lane's half, by the tick's parity (R377). -/
def shadowOf (s : State) (l : Lane) (round : Nat) : ShadowBuf :=
  let h := s.pst.shadow.lane l
  if round % 2 = 0 then h.a else h.b

/-- A tick buffer of the AON shadow replaced. -/
def setShadow (l : Lane) (round : Nat) (b : ShadowBuf) (s : State) : State :=
  let h := s.pst.shadow.lane l
  { s with pst := { s.pst with shadow := s.pst.shadow.setLane l (if round % 2 = 0 then { h with a := b } else { h with b := b }) } }

/-- A block's entries written into the shadow, or lost on the way (R377, R403). -/
def shadowBlock (l : Lane) (k : Nat) (ok : Bool) (s : State) : State :=
  let r := (s.lcm.comp.lane l).round
  let old := shadowOf s l r
  let b := if old.round = r && !old.blocks.isEmpty then old
    else { ShadowBuf.reset with round := r, time := tickInstant s r, lt := !s.net.joined, solo := !serving s l.other }
  let ents := blockEntries (s.sld.lane l) k
  let b := { b with blocks := b.blocks ++ [k], bad := b.bad || !ok,
                    entries := if ok then ((List.range 64).zip ents).foldl (fun e p => tput 0 (64 * k + p.1) p.2 e) b.entries else b.entries }
  setShadow l r b s

/-- A crossing check that failed, recorded by its receiver (R403, R434). -/
def crossFail (d : Dom) (blk link : Nat) (l : Lane) (round : Nat) (s : State) : State :=
  note evCrossingFail d blk (w32 link) (w32 l.num) (lo32 round) s

/-- What the HRE has of a lane's tick (R330). -/
def mirrorOf (s : State) (l : Lane) (round : Nat) : MirrorBuf :=
  let b := s.hre.mirror.lane l
  if b.round = round then b else { MirrorBuf.reset with round := round }

/-- A block handed to the HRE, or lost on the way with vector 13 (R330, R403). -/
def mirrorBlock (l : Lane) (k : Nat) (ok : Bool) (s : State) : State :=
  if !active s .host then s
  else
    let c := s.lcm.comp.lane l
    if !ok then vecItem 13 (crossFail .host 0 3 l c.round s)
    else
      let b := mirrorOf s l c.round
      let ents := blockEntries (s.sld.lane l) k
      let b := { b with blocks := b.blocks ++ [k], msgs := tput [] k (tget [] k c.msgs) b.msgs,
                        entries := ((List.range 64).zip ents).foldl (fun e p => tput 0 (64 * k + p.1) p.2 e) b.entries }
      { s with hre := { s.hre with mirror := s.hre.mirror.setLane l b } }

/-- The entry of a section for the mirror, and whether both lanes' entries differ (R330). -/
def mirrorEntry (x y : MirrorBuf) (i : Nat) : Word × Bool :=
  let hx := x.blocks.contains (i / 64)
  let hy := y.blocks.contains (i / 64)
  let ex := tget 0 i x.entries
  let ey := tget 0 i y.entries
  if hx && hy then (entryPick ex ey, ex != ey) else if hx then (ex, false) else (ey, false)

/-- The mirror buffer of a tick written (R330). -/
def mirrorWrite (round : Nat) (s : State) : State :=
  let x := mirrorOf s .x round
  let y := mirrorOf s .y round
  let base := reg64 s 0xC024 + 0x10000 * (round % 2)
  let es := (List.range 4096).map (mirrorEntry x y)
  let ents := es.map (·.1)
  let t := tickInstant s round
  let flags := b2n (!s.net.joined) + 2 * b2n (x.blocks.length = 64) + 4 * b2n (y.blocks.length = 64) + 8 * b2n (es.any (·.2))
  let head := [lo32 round, hi32 round, lo32 t, hi32 t, w32 flags, topoGen s round]
  let msgs := fun (l : Lane) (b : MirrorBuf) (s : State) =>
    b.msgs.foldl (fun s m => if m.2.isEmpty then s
      else hostWrite (base + 0x5000 + 288 * (2 * m.1 + l.num)) (wordsBytes (m.2 ++ [0, 0, 0])) s) s
  let s := hostWrite base (wordsBytes [0xFFFFFFFF]) s
  let s := hostWrite (base + 0x1000) (wordsBytes ents) s
  let s := if regF s 0xC020 1 1 = 1 then msgs .y y (msgs .x x s) else s
  let s := hostWrite (base + 4) (wordsBytes (head ++ [crc32cWords (head ++ ents)]) ++ zeros 0xFE0) s
  let s := hostWrite base (wordsBytes [lo32 round]) s
  vecItem 2 (bump 0xCC84 { s with hre := { s.hre with mirrorRound := lo32 round } })

/-- The mirror buffer written once every serving lane has released its tick, when every block reached the HRE from one of them (R330, R403). -/
def mirrorDone (l : Lane) (s : State) : State :=
  let r := (s.lcm.comp.lane l).round
  let done := bothLanes.all (fun m => !serving s m || ((s.lcm.comp.lane m).round = r && (s.lcm.comp.lane m).rel.isEmpty))
  let have_ := (List.range 64).all (fun k => (mirrorOf s .x r).blocks.contains k || (mirrorOf s .y r).blocks.contains k)
  if regF s 0xC020 0 0 = 1 && hostCan s && hreRun s && done && have_ then mirrorWrite r s else s

/-- The mirror buffer of a tick in which a lane fell silent after the other's last block had gone: the tick that follows writes it (R330; DEDUCED,
log entry 169). -/
def mirrorLate (s : State) : State :=
  let l := s.lcm.lead
  let r := (s.lcm.comp.lane l).round
  if serving s l && (s.lcm.fault.lane l.other).any (fun f => f.round = r) && s.hre.mirrorRound != lo32 r then mirrorDone l s else s

/-- A count message with SOLO set, its postmark formed again (R181, R199). -/
def soloWords (ws : List Word) : List Word :=
  let w := ws.take 3 ++ [nth 0 ws 3 ||| 1] ++ (ws.drop 4).take 64
  w ++ [crc32cWords w]

/-- The count message of a block as its lane releases it: with SOLO while the other lane does not serve (R194, R199). -/
def soloBlock (l : Lane) (k : Nat) (s : State) : State :=
  let m := tget [] k (s.lcm.comp.lane l).msgs
  if m.isEmpty || serving s l.other then s else mapComp l (fun c => { c with msgs := tput [] k (soloWords m) c.msgs }) s

/-- BLOCK_RELEASE (R193, R377, R330): a lane hands a block to the AON shadow, then to its RCT and to the HRE. -/
def execBlockRelease (t : Int) (lane : Lane) (block : Fin 64) (aonOk hostOk : Bool) (s : State) : Host.Outcome State Fault Refusal :=
  let s := atTime t s
  let k := block.val
  let c := s.lcm.comp.lane lane
  if !serving s lane || !c.rel.contains k then settle s
  else
    let s := soloBlock lane k (mapComp lane (fun c => { c with rel := c.rel.filter (· != k) }) s)
    let s := if !aonUp s then s
      else shadowBlock lane k aonOk (if aonOk then s else crossFail .aon 2 4 lane c.round s)
    let msg := tget [] k (s.lcm.comp.lane lane).msgs
    let q : QMsg := { block := k, round := c.round, at_ := s.now, words := msg }
    let s := if msg.isEmpty then s else mapRct lane (fun x => { x with queue := x.queue ++ [q] }) s
    settle (mirrorDone lane (mirrorBlock lane k hostOk s))

end Sys2Proof.Machine
end

