-- ==== Sys2Proof/Machine/Security.lean ====
section
/-!
DEFINITION. Machine/Security.lean: the Security Core (16_security_debug.md): lifecycle, attestation, debug sessions by challenge and response,
decommissioning.
-/
namespace Sys2Proof.Machine

/-- The security state changed. -/
def mapSec (f : SecSt → SecSt) (s : State) : State := { s with sec := f s.sec }

/-- An event that the SEC records. -/
def secNote (code : Nat) (p0 p1 p2 : Word) (s : State) : State := note code .aon 4 p0 p1 p2 s

/-! ## Sessions (R394 to R396) -/

/-- A debug session ends and the level returns to D0; a D2 unlock that waits is cancelled (R395): 0 DEBUG_CLOSE, 1 timeout, 2 LIFECYCLE_SET, 3 reset,
4 AON loss, 5 STANDBY (R434). -/
def endSession (why : Nat) (s : State) : State :=
  let s := match s.sec.d2 with
    | some (id, _) => finish id stCancelled 0 0 (mapSec (fun x => { x with d2 := none }) s)
    | none => s
  if s.sec.level = 0 then s else secNote evDebugEnd (w32 why) 0 0 (mapSec (fun x => { x with level := 0 }) s)

/-- DEBUG_CHALLENGE (R394, R395): the 64-byte challenge. Whether the entropy source fails its health test now is a free value. -/
def effDebugChallenge (c : HostCmd) (s : State) : State :=
  if !aonUp s then refuse 0x60 c stRefusedAon s
  else if s.sec.lockUntil.any (fun u => decide (s.now < u)) then refuse 0x60 c stRefusedState s
  else if Config.freeBool s.free then
    refuse 0x60 c stRefusedState (secNote evEntropyFail 0 0 0 { s with free := s.free + 1 })
  else
    let d := drawBytes 32 { s with free := s.free + 1 }
    let n := d.2.sec.challenges + 1
    let bytes := natBytes 8 Config.uid.toNat ++ natBytes 4 d.2.sec.lifecycle ++ natBytes 4 n ++ d.1 ++ zeros 16
    let s := mapSec (fun x => { x with challenge := some (bytes, s.now), challenges := n }) d.2
    finishNow c 0x60 stApplied 64 0 (hostWrite (argBuf c) bytes s)

/-- DEBUG_CHALLENGE (R394). -/
def execDebugChallenge (c : HostCmd) (s : State) : Host.Outcome State Fault Refusal := hostCommand 0x60 effDebugChallenge c s

/-- The highest level a lifecycle state permits to be unlocked (R397). -/
def levelLimit (lifecycle : Nat) : Nat :=
  match lifecycle with
  | 2 => 2 | 4 => 2 | 3 => 1 | _ => 0

/-- The response that a challenge demands for a level and a lane (R388, R394). -/
def debugAnswer (s : State) (ch : List Byte) (level : Nat) (l : Lane) : List Byte :=
  let block := natBytes 1 level ++ natBytes 1 (if level = 2 then l.num else 0) ++ zeros 14
  cmac (slotOf s.sec 0).key (frankPrefix 3 ++ ch.take 48 ++ block)

/-- The first of the six checks of a debug response that refuses, with its status (R394); `ok` that the response matches. -/
def responseCheck (s : State) (c : HostCmd) (level : Nat) (l : Lane) (ok : Bool) : Option (Nat × Nat) :=
  let returning := s.lcm.cond.a == .readmission || s.lcm.cond.b == .readmission
  if level = 0 || level = 3 || c.a1 ≠ 16 then some (1, stRefusedArgument)
  else if levelLimit s.sec.lifecycle < level then some (2, stRefusedLifecycle)
  else if !aonUp s then some (3, stRefusedAon)
  else if s.sec.challenge.all (fun h => decide (s.now - h.2 > 60000000000)) then some (4, stRefusedLate)
  else if !ok then some (5, stRefusedFrank)
  else if level = 2 && s.bsc.power != .safehalt && (!serving s l.other || returning || s.bsc.power == .start) then some (6, stRefusedState)
  else none

/-- A refused response: counted and recorded; the third in a row refused at check 5 starts the lockout (R394, R395). -/
def responseRefused (level chk : Nat) (s : State) : State :=
  let s := secNote evDebugRefused (w32 level) (w32 chk) 0 (bump (0x11C0C + 4 * chk) s)
  let fails := if chk = 5 then s.sec.fails + 1 else 0
  if fails ≥ 3 then
    secNote evDebugLockout 0 0 0 (bump 0x11C2C (mapSec (fun x => { x with fails := 0, lockUntil := some (s.now + 600000000000) }) s))
  else mapSec (fun x => { x with fails := fails }) s

/-- A level granted to a lane's session, recorded (R394, R395). -/
def unlock (level : Nat) (l : Lane) (s : State) : State :=
  secNote evDebugUnlock (w32 level) (w32 l.num) 0 (mapSec (fun x => { x with level := level, target := l, tapAt := s.now }) s)

/-- What a response that passes does (R394, R396): nothing at or below the level in force; D1 at once; D2 at once in SAFEHALT or on a
retired lane, else when the target has retired after a HARD fault; the target's key copies are zeroed first (R386). -/
def grant (c : HostCmd) (level : Nat) (l : Lane) (s : State) : State :=
  if level ≤ s.sec.level then finishNow c 0x61 stApplied (w32 level) 0 s
  else if level = 1 then finishNow c 0x61 stApplied 1 0 (unlock 1 s.sec.target s)
  else if s.bsc.power == .safehalt || s.lcm.cond.lane l == .retired then finishNow c 0x61 stApplied 2 0 (unlock 2 l (setKeys l [] s))
  else
    let id := newId s
    laneFault l 9 0 (setKeys l [] <| mapSec (fun x => { x with d2 := some (id, l), tapAt := s.now }) (accept c 0x61 s))

/-- DEBUG_RESPONSE (R394, R395): every response consumes the challenge. -/
def effDebugResponse (c : HostCmd) (s : State) : State :=
  let level := fld c.a0 1 0
  let l := if bitOf c.a0 8 then Lane.y else Lane.x
  let ch := (s.sec.challenge.map (·.1)).getD []
  let early := responseCheck s c level l true
  let used := mapSec (fun x => { x with challenge := none }) s
  match early, c.buf with
  | some (chk, st), none => if chk < 5 then refuse 0x61 c st (responseRefused level chk used) else refuse 0x61 c stFailedDma used
  | none, none => refuse 0x61 c stFailedDma used
  | _, some b =>
    match responseCheck s c level l (decide (b.take 16 = debugAnswer s ch level l) && (slotOf s.sec 0).status = 1) with
    | some (chk, st) => refuse 0x61 c st (responseRefused level chk used)
    | none => grant c level l (bump 0x11C0C (mapSec (fun x => { x with fails := 0 }) used))

/-- DEBUG_RESPONSE (R394). -/
def execDebugResponse (c : HostCmd) (s : State) : Host.Outcome State Fault Refusal := hostCommand 0x61 effDebugResponse c s

/-- DEBUG_CLOSE (R395). -/
def effDebugClose (c : HostCmd) (s : State) : State :=
  if !aonUp s then refuse 0x62 c stRefusedAon s else finishNow c 0x62 stApplied 0 0 (endSession 0 s)

/-- DEBUG_CLOSE (R395). -/
def execDebugClose (c : HostCmd) (s : State) : Host.Outcome State Fault Refusal := hostCommand 0x62 effDebugClose c s

/-- DEBUG_SESSION_TIMEOUT (R395): 3 600 s with no TAP access end an unlocked session. -/
def execDebugSessionTimeout (t : Int) (s : State) : Host.Outcome State Fault Refusal :=
  let s := atTime t s
  if (s.sec.level = 1 || s.sec.level = 2) && decide (s.now - s.sec.tapAt ≥ 3600000000000) then settle (endSession 1 s) else settle s

/-- DEBUG_LOCKOUT_END (R395): after its 600 s. -/
def execDebugLockoutEnd (t : Int) (s : State) : Host.Outcome State Fault Refusal :=
  let s := atTime t s
  if s.sec.lockUntil.any (fun u => decide (u ≤ s.now)) then settle (mapSec (fun x => { x with lockUntil := none }) s) else settle s

/-! ## Lifecycle (R381 to R383, R387) -/

/-- RCT_KEYS put in force (R387). -/
def takeKeys (s : State) : State := mapSec (fun x => { x with txGen := regF s 0x9018 1 0, rxMask := regF s 0x9018 7 4 }) s

/-- A change of lifecycle state, recorded (R382). -/
def setLifecycle (new : Nat) (s : State) : State :=
  secNote evLifecycle (w32 s.sec.lifecycle) (w32 new) 0 (mapSec (fun x => { x with lifecycle := new }) s)

/-- Whether a slot is loaded and not DAMAGED (R382, R387). -/
def slotLoaded (s : State) (j : Nat) : Bool := (slotOf s.sec j).status = 1

/-- Whether LIFECYCLE_SET may take the device to a state (R382). -/
def lifecycleOk (s : State) (new : Nat) : Bool :=
  match s.sec.lifecycle, new with
  | 1, 2 => slotLoaded s 0 && [1, 2, 3, 4].any (slotLoaded s)
  | 2, 3 => true
  | 3, 4 => s.sec.fdCount < 255
  | 4, 3 => true
  | 1, 5 => true
  | 2, 5 => true
  | 3, 5 => true
  | 4, 5 => true
  | _, _ => false

/-- LIFECYCLE_SET (R382): a session ends first; decommissioning programs its bit and goes on with the next ledger tick (R400). -/
def effLifecycleSet (c : HostCmd) (s : State) : State :=
  let new := fld c.a0 2 0
  if !lifecycleOk s new then refuse 0x63 c stRefusedState s
  else
    let was := s.sec.lifecycle
    let s := setLifecycle new (endSession 2 s)
    if new = 5 then
      let id := newId s
      mapSec (fun x => { x with decom := some id }) (accept c 0x63 s)
    else
      let s := if new = 2 then takeKeys s else s
      let s := if was = 3 && new = 4 then mapSec (fun x => { x with fdCount := x.fdCount + 1 }) s else s
      finishNow c 0x63 stApplied (w32 new) 0 s

/-- LIFECYCLE_SET (R382). -/
def execLifecycleSet (c : HostCmd) (s : State) : Host.Outcome State Fault Refusal := hostCommand 0x63 effLifecycleSet c s

/-- The NVM words that decommissioning leaves as they are: every word outside the banks that is no register word, no selector word and not the
snapshot's MARK. -/
def keptWord (w : Nat) : Bool :=
  !(4096 ≤ w && w < archBase) && !(w < 2624 && w % 64 < 56) && w != 2624 && !(20 ≤ w / 64 && w / 64 ≤ 23 && w % 64 ≥ 62)

/-- Step 4 of decommissioning (R400): banks zeroed and uncommitted, MARK 0, persistent registers at their reset values. -/
def decomStore (s : State) : State :=
  let p := s.pst
  { s with pst := { p with words := p.words.filter (fun e => keptWord e.1), bad := p.bad.filter (fun e => keptWord e.1),
                           wq := [], commits := p.commits.filter (fun m => m.words.all (fun w => keptWord w.1)),
                           bankA := .inactive, bankB := .inactive, committed := none, committedGen := 0, genActive := 0, topo := none } }

/-- Steps 3 to 5 of decommissioning (R400): every key destroyed, the store cleared, recorded. -/
def decomClear (s : State) : State :=
  let dead : KeySlot := { status := 3, key := BitVec.allOnes 128 }
  let s := mapSec (fun x => { x with decom := none, slots := List.replicate 5 dead, txGen := 0, rxMask := 0, keysWait := none }) s
  secNote evDecommissioned 0 0 0 (decomStore (topoCancel s))

/-- The rest of a decommissioning under way (R400 steps 2 to 5): SAFEHALT; the completion leaves under the CMD key, which is then destroyed with the
network keys; the store is cleared; recorded. -/
def decomSteps (s : State) : State :=
  match s.sec.decom with
  | none => s
  | some id =>
    let s := bothHard .decommissioned s
    decomClear (finish id stApplied 5 0 { s with bsc := { s.bsc with halt := .decommissioned } })

/-! ## ATTEST (R390, R391) -/

/-- Bytes 24 to 27 of the report (R390). -/
def attestBits (s : State) : Nat :=
  s.sec.lifecycle + 256 * s.sec.level + 1024 * s.sec.target.num + 65536 * s.bsc.power.code + 1048576 * b2n (serving s .x)
    + 2097152 * b2n (serving s .y) + 16777216 * (b2n (slotLoaded s 1) + 2 * b2n (slotLoaded s 2) + 4 * b2n (slotLoaded s 3) + 8 * b2n (slotLoaded s 4))
    + 268435456 * b2n (slotLoaded s 0) + 536870912 * b2n (isJoined s)

/-- The SHA-256 of the active bank, its seed area left out (R422, R461); with none active the spec states no value: 32 free bytes. -/
def bankHash (s : State) : List Byte × State :=
  match activeBank s with
  | some k => (sha256 (wordsBytes ((span (bankBase k) 0xBFC0).map (nvmWord s.pst))), s)
  | none => drawBytes 32 s

/-- ATTEST (R390, R391). -/
def effAttest (c : HostCmd) (s : State) : State :=
  if !aonUp s then refuse 0x64 c stRefusedAon s
  else
    let h := bankHash s
    let s := h.2
    let body := natBytes 4 0x00014154 ++ natBytes 8 Config.uid.toNat ++ wordBytes c.a0 ++ natBytes 8 (curRound s) ++ natBytes 4 (attestBits s)
      ++ wordBytes (topoGen s (curRound s)) ++ h.1 ++ (List.range 32).map Config.romHash
    finishNow c 0x64 stApplied 160 0 (hostWrite (argBuf c) (body ++ ecdsaSign identityKey (sha256 body)) s)

/-- ATTEST (R390). -/
def execAttest (c : HostCmd) (s : State) : Host.Outcome State Fault Refusal := hostCommand 0x64 effAttest c s

end Sys2Proof.Machine
end

