-- ==== Sys2Proof/Machine/Domains.lean ====
section
/-!
DEFINITION. Machine/Domains.lean: the power domains other than AON (15_power_budget.md, R360 to R362, R367): what a loss takes away, how a domain
starts and enters ACTIVE, trips and restarts, switching off by register; the loss and the return of AON (R14, R361).
-/
namespace Sys2Proof.Machine

/-! ## What a loss takes away (R13, R14, R360) -/

/-- The domain whose counter a counter word is: the lane of a per-lane instance, the owner of a round port's dead letters, else the block's domain
(R448, R459). -/
def ctrDom (s : State) (off : Nat) : Dom :=
  let laneOf := fun (i : Nat) => if i = 0 then Dom.lanex else Dom.laney
  match off / 0x1000 with
  | 6 => laneOf ((off - 0x6C00) / 0x100)
  | 7 => laneOf ((off - 0x7C00) / 0x100)
  | 8 => laneOf ((off - 0x8C00) / 0x100)
  | 9 =>
    if off < 0x9E00 then laneOf ((off - 0x9C00) / 0x100)
    else
      let p := (off - 0x9E00) / 0x40
      if p < 2 then laneOf p else if p < 6 then .ring else .field
  | _ => domAt s .lanex off

/-- The counters of a domain at 0 (R444). -/
def ctrReset (d : Dom) (s : State) : State := { s with ctr := s.ctr.filter (fun e => ctrDom s e.1 != d) }

/-- The RW words and counters of a domain at their reset values (R453). -/
def wordsReset (d : Dom) (s : State) : State := ctrReset d (resetRw (fun o => domAt s .lanex o == d) s)

/-- Outstanding commands completed CANCELLED. -/
def cancelIds (ids : List Nat) (s : State) : State := ids.foldl (fun s i => finish i stCancelled 0 0 s) s

/-- A filter chain as its domain's loss leaves it: pending syncs and bank swap cancelled (R122), no histories. -/
def fchLost (i : Fch) (s : State) : State :=
  let x := fchOf s i
  let s := mapFch i (fun _ => FchSt.reset (regF s (fchOff i) 4 0)) s
  cancelIds (x.swap.toList.map (·.id)) (x.syncs.foldl (fun s r => syncCancel i r s) s)

/-- A port's loss (R14): its commands cancelled, its pins low, nothing kept of its acquisition, its stream output ended, its heads FAILED with
cause 2. -/
def portLost (p : Port) (s : State) : State :=
  let x := s.stg.port p
  let ids := x.start.toList.map (·.id) ++ x.stop.toList.map (·.1) ++ x.apply.toList.map (·.id) ++ x.retunes.map (·.id)
    ++ x.gauge.toList.map (·.id) ++ (s.cal.survey.port p).toList.map (·.id)
  let s := if x.run = 1 then notePortRun p false (x.last.getD (-1)) s else s
  let defs := activeDefs s p.num 1 ++ activeDefs s p.num 2
  let s := defs.foldl (fun s d => endOutput d (flagDef d s)) s
  let s := fchLost (portFch p) s
  let s := { s with stg := s.stg.setPort p StgSt.reset,
                    clr := s.clr.setPort p ClrSt.reset,
                    sin := s.sin.setPort p SinSt.reset,
                    phx := s.phx.setPort p PhxSt.reset,
                    cal := { s.cal with survey := s.cal.survey.setPort p none },
                    bsc := { s.bsc with pace := s.bsc.pace.setPort p false } }
  headsFail p.num 2 (cancelIds ids s)

/-- FIELD's loss (R14): LEGACY_CAL completes CANCELLED (DEDUCED, log entry 46), excitation outputs high impedance, legacy heads FAILED with cause 2, the legacy round port silent. -/
def fieldLost (s : State) : State :=
  let ids := s.cal.legacy.toList.map (·.id)
  let s := cancelIds ids { s with cal := { s.cal with legacy := none } }
  let s := fchLost .field { s with lhf := LhfSt.reset, net := { s.net with bus := LBusSt.reset } }
  headsFail 2 2 s

/-- RING's loss (R14): ring ports, ring queues, the ridge role, reflections due on its ports. -/
def ringLost (s : State) : State :=
  let x := s.net
  { s with net := { x with ring := RingNet.reset,
                           rdg := if x.ridge then RidgeSt.reset else x.rdg,
                           refl := x.refl.filter (fun r => decide (r.port < 2)) } }

/-- A HOST domain without its state (R14, R361): the host is lost, bulk jobs on HOST are cancelled, history and link are gone. -/
def hostLost (s : State) : State :=
  let jobs := (s.bsc.jobs ++ s.bsc.running).filter (fun j => j.res == .host)
  let s := jobs.foldl (fun s j => dropJob j (finish j.id stCancelled 0 0 s)) (hostLoss true 2 s)
  let s := hostReset s
  { s with hsc := HscSt.reset,
           hre := { s.hre with linkUp := false, cfgReadyAt := none, mirror := ⟨MirrorBuf.reset, MirrorBuf.reset⟩ } }

/-- A lane's loss: a HARD located fault with check 5 (R189, R360). -/
def laneLost (l : Lane) (s : State) : State := dropDiag l (laneClear l (laneFault l 5 0 s))

/-- What a domain's loss does to the rest of the device (R14). -/
def domLost (d : Dom) (s : State) : State :=
  let s := match d with
    | .aon => s
    | .port0 => portLost .p0 s
    | .port1 => portLost .p1 s
    | .lanex => laneLost .x s
    | .laney => laneLost .y s
    | .ring => ringLost s
    | .host => hostLost s
    | .field => fieldLost s
  wordsReset d s

/-! ## Floors (R367) -/

/-- Whether FIELD carries legacy heads or the legacy round port. -/
def fieldUsed (s : State) : Bool := portHeads s 2 != [] || regF s 0x9028 1 0 != 0

/-- Whether RING serves the ring ports or the ridge role. -/
def ringUsed (s : State) : Bool := s.net.ridge || regF s 0x9020 1 0 != 0

/-- The floor of a domain (table "Floors", R367). Of a lane that is retired it is B0, though R25 names 0.75 V for both lanes (DEDUCED, log entry 143). -/
def domFloor (s : State) (d : Dom) : Nat :=
  let laneFloor := fun (l : Lane) => if s.lcm.cond.lane l == .retired then 0 else 2
  match d with
  | .aon => 3
  | .port0 => portFloor s .p0
  | .port1 => portFloor s .p1
  | .lanex => laneFloor .x
  | .laney => laneFloor .y
  | .ring => if ringUsed s then 2 else 0
  | .host => if hreRun s then 3 else 0
  | .field => if fieldUsed s then 1 else 0

/-- A floor put in force as it now is (R368). -/
def refloor (d : Dom) (s : State) : State := setFloor d (domFloor s d) s

/-! ## Starting and entering ACTIVE (R360, R440) -/

/-- A domain starts through RAMP, from OFF or TRIPPED, with nothing kept. -/
def domStart (d : Dom) (s : State) : State := startDom d (domFloor s d) s

/-- What a domain's entry into ACTIVE begins; its counter of network time is loaded from AON's (R235, R352, R440, R442, R451). -/
def enterActive (d : Dom) (s : State) : State :=
  let s := setDom d .active { s with regs := { s.regs with held := s.regs.held.filter (fun e => domAt s .lanex e.1 != d) } }
  match d with
  | .host =>
    { s with hre := { s.hre with linkUp := !s.hre.perst, cfgReadyAt := if s.hre.perst then none else some s.now },
             hsc := HscSt.reset }
  | .field => fieldStart s
  | .lanex => { s with clk := { s.clk with x := { ns := s.now, frac := 0 } } }
  | .laney => { s with clk := { s.clk with y := { ns := s.now, frac := 0 } } }
  | .ring => { s with clk := { s.clk with ring := { ns := s.now, frac := 0 } } }
  | _ => s

/-- The place of a domain among the BSC's counters of domains 1 to 7 (R459). -/
def domCtr (base : Nat) (d : Dom) : Nat := base + 4 * (d.num - 1)

/-- A domain TRIPPED with its cause (R360, R361, R434): 0 undervoltage, 1 overvoltage, 2 current limit, 3 ramp timeout. -/
def tripDom (d : Dom) (cause : Nat) (s : State) : State :=
  let s := note evDomainTrip .aon 0 (w32 d.num) (w32 cause) 0 (bump (domCtr 0xEC54 d) s)
  domLost d (setDom d .tripped s)

/-- Whether a lane is in the self-test of its bring-up: its ramp and test are not yet over (R440). -/
def laneStarting (s : State) (l : Lane) : Bool := s.bsc.power == .start && !s.bsc.tested.lane l && s.lcm.cond.lane l == .serving

/-- The domains of BSC_DOMCTL's bits, PORT0 the highest of its field (R458; DEDUCED, log entry 60). -/
def domctlDoms : List (Dom × Nat) := [(.port0, 3), (.port1, 2), (.field, 1), (.ring, 0)]

/-- Orders 2 of the start begin when both lanes have ended their self-tests; a domain whose OFF bit is set stays OFF (R440). -/
def startOrder2 (s : State) : State :=
  if s.bsc.bringup = 1 && s.bsc.tested.a && s.bsc.tested.b && s.bsc.power == .start then
    let off := regF s 0xE00C 3 0
    let ds := domctlDoms.filter (fun p => !off.testBit p.2)
    ds.foldl (fun s p => domStart p.1 s) { s with bsc := { s.bsc with bringup := 2 } }
  else s

/-- The end of a lane's self-test in START: a failure is a HARD fault with check 8, which retires the lane; both failing is SAFEHALT (R441). -/
def selfTested (l : Lane) (pass : Bool) (s : State) : State :=
  let s := { s with bsc := { s.bsc with tested := s.bsc.tested.setLane l true } }
  let s := if pass then rctStart l s
    else retireLane l (laneFaultAs .selftest true none l 8 0 s)
  startOrder2 s

/-- LANE_SELFTEST_DONE: the self-test of a lane in START (R440, R441). -/
def execLaneSelftestDone (t : Int) (lane : Lane) (pass : Bool) (s : State) : Host.Outcome State Fault Refusal :=
  let s := atTime t s
  if laneStarting s lane && active s lane.dom && s.bsc.bringup = 1 then settle (selfTested lane pass s) else settle s

/-- DOMAIN_TRIP: a supervisor trip of a domain other than AON (R360). -/
def execDomainTrip (t : Int) (dom : Dom) (cause : Fin 3) (s : State) : Host.Outcome State Fault Refusal :=
  let s := atTime t s
  match dom, (s.dom.get dom).st with
  | .aon, _ => settle s
  | _, .off => settle s
  | _, .tripped => settle s
  | d, _ =>
    let starting := (d == .lanex && laneStarting s .x) || (d == .laney && laneStarting s .y)
    let s := tripDom d cause.val s
    settle (if starting then
        startOrder2 { s with bsc := { s.bsc with tested := s.bsc.tested.setLane (if d == .lanex then .x else .y) true } }
      else s)

/-! ## Restart (R361) -/

/-- The restarts of a domain within 3 600 s. -/
def recentRestarts (s : State) (d : Dom) : List Int := (s.dom.get d).restarts.filter (fun a => decide (s.now - a < 3600000000000))

/-- A TRIPPED domain restarted, recorded and counted. -/
def restartDom (d : Dom) (s : State) : State :=
  let r := recentRestarts s d ++ [s.now]
  let s := note evDomainRestart .aon 0 (w32 d.num) (w32 r.length) 0 (bump (domCtr 0xEC70 d) s)
  let s := { s with bsc := { s.bsc with restartHold := s.bsc.restartHold.filter (· != d) } }
  domStart d (mapDom d (fun x => { x with restarts := r }) s)

/-- The largest word of a set, one word in place 63 of each page, that passes its check (R414, R420, R460). -/
def setMax (p : PstSt) (first n : Nat) : Nat :=
  (span first n).foldl (fun m page => match nvmWord? p (64 * page + 63) with | some v => max m v.toNat | none => m) 0

/-- The slots of a recorder area that hold a valid record, with their write numbers: every valid MARK is a listed word (R431). -/
def validSlots (p : PstSt) (circ : Bool) : List (Nat × Nat) :=
  let base := if circ then circBase else archBase
  let top := if circ then circBase + 8 * 15872 else circBase
  p.words.filterMap (fun e =>
    if base ≤ e.1 && e.1 < top && (e.1 - base) % 8 = 7 && e.2.toNat ≥ 2147483648 then
      let slot := (e.1 - base) / 8
      match slotAt p (base + 8 * slot) with
      | some ws => if slotValid circ slot ws then some (slot, e.2.toNat % 2147483648) else none
      | none => none
    else none)

/-- The ERC's scan of both areas: it goes on from the highest valid write number and the latest archive slot (R431). -/
def ercScan (s : State) : State :=
  let c := validSlots s.pst true
  let a := validSlots s.pst false
  let top := fun (l : List (Nat × Nat)) => l.foldl (fun (m : Nat × Nat) e => if e.2 ≥ m.2 then e else m) (0, 0)
  { s with erc := { ErcSt.reset with w := if c.isEmpty then 0 else (top c).2 + 1,
                                     oldest := (c.foldl (fun m e => min m e.2) (if c.isEmpty then 0 else (top c).2)),
                                     archSlot := if a.isEmpty then 0 else nextArch (top a).1 } }

/-- What AON reads of the NVM as it starts: operating seconds, C_res, kept gauges, recorder areas; C_last takes C_res (R318, R418, R420, R431). -/
def aonRead (s : State) : State :=
  let p := s.pst
  let cres := setMax p 16 4
  let s := { s with pst := { p with opSeconds := setMax p 0 16, cres := cres, gauge := p.gaugeKept, wq := [] } }
  ercScan (mapSec (fun x => { x with cLast := cres, challenge := none, fails := 0 }) s)

/-- While a LEAN cause stands every domain is held at its floor; with the cause AON the setpoints are frozen (R372, R373). -/
def leanFloors (s : State) : State :=
  if !leanCause s.bsc || !aonUp s then s
  else (allDoms.filter (· != Dom.aon)).foldl (fun s d => if active s d then orderBand d (s.dom.get d).floor s else s) s

/-- A LEAN cause set or cleared changes the device between SERVICE and LEAN, and holds the domains at their floors (R364, R373). -/
def leanUpdate (s : State) : State :=
  leanFloors (match s.bsc.power with
    | .service => if leanCause s.bsc then setPower .lean s else s
    | .lean => if leanCause s.bsc then s else setPower .service s
    | _ => s)

/-- AON lost (R14, R361, R401, R433): sessions end, a switchover that waits is cancelled, a freeze ends, what waited in AON to be recorded or
written is gone but for a seed save, which goes on when AON is back; setpoints freeze. -/
def aonLost (s : State) : State :=
  let s := topoCancel (endSession 4 s)
  let isSeed := fun (c : Commit) => match c.tag with | .seed _ => true | _ => false
  let s := { s with pst := { s.pst with wq := [],
                                        commits := s.pst.commits.filter isSeed,
                                        shadow := ⟨⟨ShadowBuf.reset, ShadowBuf.reset⟩, ⟨ShadowBuf.reset, ShadowBuf.reset⟩⟩ },
                    erc := { s.erc with inbox := [], queued := 0, pending := [], frozen := false },
                    bsc := { s.bsc with leanAon := true, hot := 0, cool := 0, nOver := 0, under := 0, trip := 0 } }
  leanUpdate (setDom .aon .tripped s)

/-- AON back from its own trip (R361, R435): no power-up; AON_TRIP with the outage in ms, the discarded writes reported, the LEAN cause cleared. -/
def aonReturn (s : State) : State :=
  let ms := rnd (s.now - (s.dom.get .aon).since) 1000000
  let s := wordsReset .aon (aonRead (setDom .aon .active s))
  let s := note evAonTrip .aon 0 (lo32 ms) 0 0 { s with bsc := { s.bsc with leanAon := false } }
  let n := s.pst.discarded
  let s := { s with pst := { s.pst with discarded := 0 } }
  leanUpdate (if n = 0 then s else note evWriteIgnored .aon 2 0 (w32 n) 3 s)

/-- AON_TRIP: the AON supervisor trips (R361); in no state kept by AON does it make a power-up. -/
def execAonTrip (t : Int) (s : State) : Host.Outcome State Fault Refusal :=
  let s := atTime t s
  if aonUp s then settle (aonLost s) else settle s

/-- A domain that a detected fault makes lost (R14): a lane takes a HARD located fault with a check; AON as by its supervisor; any other domain is
TRIPPED, from where R361 restarts it. -/
def faultDom (d : Dom) (check : Nat) (s : State) : State :=
  match d with
  | .lanex => laneFault .x check 0 s
  | .laney => laneFault .y check 0 s
  | .aon => if aonUp s then aonLost s else s
  | d => if active s d then domLost d (setDom d .tripped s) else s

/-- A domain lost through a fault that `record` records: of AON's loss the record is written when AON is back (R23, R26, R361; DEDUCED, log entry 156). -/
def faultNoted (d : Dom) (record : State → State) (s : State) : State :=
  match d with
  | .aon =>
    let late := (record s).erc.inbox.drop s.erc.inbox.length
    if aonUp s then { aonLost s with erc := { (aonLost s).erc with inbox := (aonLost s).erc.inbox ++ late } } else s
  | d => faultDom d 0 (record s)

/-- One ROM that failed its check: its domain is lost (R77). -/
def romCheck (e : Nat × Dom) (s : State) : State :=
  if active s e.2 then faultNoted e.2 (note evRomFail e.2 0 (w32 e.1) (w32 e.2.num) 0) s else s

/-- DOMAIN_RAMP_END (R360, R443): in range, the domain is ACTIVE; in SAFEHALT the domains that it holds become HELD; out of range for 200 µs it is
TRIPPED, which for a lane in START counts as a failed self-test (R447). A ROM that fails its check at start-up makes the domain lost (R77). -/
def execDomainRampEnd (t : Int) (dom : Dom) (r : RampRead) (s : State) : Host.Outcome State Fault Refusal :=
  let s := atTime t s
  let held := s.bsc.power == .safehalt && [Dom.lanex, .laney, .ring, .field].contains dom
  let trip := fun (s : State) =>
    match dom with
    | .lanex => if laneStarting s .x then selfTested .x false (note evDomainTrip .aon 0 3 3 0 (bump (domCtr 0xEC54 .lanex) (setDom .lanex .tripped s)))
                else tripDom .lanex 3 s
    | .laney => if laneStarting s .y then selfTested .y false (note evDomainTrip .aon 0 4 3 0 (bump (domCtr 0xEC54 .laney) (setDom .laney .tripped s)))
                else tripDom .laney 3 s
    | d => tripDom d 3 s
  if (s.dom.get dom).st != .ramp || dom == .aon then settle s
  else if !r.inRange then settle (trip s)
  else if held then settle (setDom dom .held s)
  else settle (r.roms.foldl (fun s e => romCheck (e, dom) s) (enterActive dom s))

/-- DOMAIN_RESTART: 10 ms after its trip a domain restarts (R361): AON and HOST every time; PORT0, PORT1, FIELD and RING at most LIM times in
3 600 s; a lane never by itself. -/
def execDomainRestart (t : Int) (dom : Dom) (s : State) : Host.Outcome State Fault Refusal :=
  let s := atTime t s
  let x := s.dom.get dom
  if x.st != .tripped || s.now - x.since < 10000000 then settle s
  else
    match dom with
    | .aon => settle (aonReturn s)
    | .lanex => settle s
    | .laney => settle s
    | .host => if aonUp s then settle (restartDom .host s) else settle s
    | d =>
      if !aonUp s || s.bsc.restartHold.contains d then settle s
      else if (recentRestarts s d).length < regF s 0xE008 2 0 then settle (restartDom d s)
      else settle (note evRestartLimit .aon 0 (w32 d.num) 0 0 { s with bsc := { s.bsc with restartHold := s.bsc.restartHold ++ [d] } })

/-! ## BSC_DOMCTL (R361, R362) -/

/-- Whether a domain may be switched off now. -/
def mayOff (s : State) (d : Dom) : Bool :=
  match d with
  | .port0 => (s.stg.port .p0).run = 0
  | .port1 => (s.stg.port .p1).run = 0
  | .field => !fieldUsed s
  | .ring => !ringUsed s
  | _ => false

/-- A domain switched off: its loss, and OFF. -/
def switchOff (d : Dom) (s : State) : State :=
  if (s.dom.get d).st == .off then s
  else
    let s := mapDom d (fun x => { x with band := 0, floor := 0, settle := none }) (setDom d .off s)
    domLost d s

/-- BSC_DOMCTL.OFF written: a rise that breaks its condition leaves the register as it was and is recorded; else each rise switches a domain off and
each fall starts one that is OFF, once order 2 of the start has begun (R362, R440). -/
def domctlOff (v : Word) (s : State) : State :=
  if !lands s (pregWord 0xE00C) then pstArrive 0xE00C (pregWord 0xE00C) (w32 (fld v 3 0)) s
  else
    let old := regStored s 0xE00C
    let rises := domctlDoms.filter (fun p => bitOf v p.2 && !bitOf old p.2)
    let falls := domctlDoms.filter (fun p => !bitOf v p.2 && bitOf old p.2)
    if rises.any (fun p => !mayOff s p.1) then ignoreWrite .aon 1 0xE00C v 1 s
    else
      let s := pstArrive 0xE00C (pregWord 0xE00C) (w32 (fld v 3 0)) s
      let s := rises.foldl (fun s p => switchOff p.1 s) s
      if s.bsc.bringup < 2 then s
      else falls.foldl (fun s p => if (s.dom.get p.1).st == .off then domStart p.1 s else s) s

/-- BSC_DOMCTL.RESTART written: a TRIPPED domain restarts (R361). -/
def domctlRestart (v : Nat) (s : State) : State :=
  if !aonUp s then s
  else domctlDoms.foldl (fun s p => if v.testBit p.2 && (s.dom.get p.1).st == .tripped then restartDom p.1 s else s) s

/-- BSC_DOMCTL_OFF (R362). -/
def execBscDomctlOff (t : Int) (off : BitVec 4) (s : State) : Host.Outcome State Fault Refusal :=
  let s := atTime t s
  if !active s .host then settle s else settle (domctlOff (w32 off.toNat) s)

/-- BSC_DOMCTL_RESTART (R361). -/
def execBscDomctlRestart (t : Int) (bits : BitVec 4) (s : State) : Host.Outcome State Fault Refusal :=
  let s := atTime t s
  if !active s .host then settle s else settle (domctlRestart bits.toNat s)

/-- BAND_CHANGE_SETTLED: 15 µs after a change its old band no longer counts (R360, R366). -/
def execBandChangeSettled (t : Int) (dom : Dom) (s : State) : Host.Outcome State Fault Refusal :=
  settle (mapDom dom (fun x => { x with settle := none }) (atTime t s))

end Sys2Proof.Machine
end

