-- ==== Sys2Proof/Machine/Power.lean ====
section
/-!
DEFINITION. Machine/Power.lean: VIN, resets and start-up (15_power_budget.md, R359, R364, R365, R377, R378; 19_startup_reset.md, R435 to R447;
09_calibration.md, R227 to R229): the AON start and the wake, the power-fail sequence with its snapshot, STANDBY, POWER_REQUEST.
-/
namespace Sys2Proof.Machine

/-! ## Every domain but AON off (R378 step 2, R363) -/

/-- A power domain that is off. -/
def offDom (d : Dom) (s : State) : State := mapDom d (fun x => { DomSt.reset with since := s.now, restarts := x.restarts }) s

/-- The device with every domain but AON off: their blocks keep nothing; AON's own registers, store, recorder and keys stay (R360). -/
def allOff (s : State) : State :=
  let n := { NetSt.reset with ridge := s.net.ridge, ridgeChan := s.net.ridgeChan, joins := s.net.joins }
  let s := (allDoms.filter (· != Dom.aon)).foldl (fun s d => wordsReset d (offDom d s)) s
  let fresh : State := State.reset
  { s with regs := { s.regs with held := [], latch := [], owed := [], laneX := [], laneY := [] },
           hre := { HreSt.reset with perst := s.hre.perst },
           hsc := fresh.hsc, stg := fresh.stg, refs := fresh.refs, clr := fresh.clr, sin := fresh.sin, phx := fresh.phx, fch := fresh.fch,
           fsync := fresh.fsync, hen := fresh.hen, sld := fresh.sld, lcm := fresh.lcm, convNote := fresh.convNote, rctq := fresh.rctq,
           lhf := fresh.lhf, cal := { fresh.cal with seedAt := s.cal.seedAt },
           net := n,
           pst := { s.pst with bankA := .inactive, bankB := .inactive, topo := none, genActive := 0, everActive := false },
           bsc := { s.bsc with jobs := [], running := [], pace := ⟨false, false⟩, tested := ⟨false, false⟩ } }

/-! ## The snapshot (R227 to R229, R377) -/

/-- A shadow tick buffer is complete when all its blocks were written (R377). -/
def ShadowBuf.complete (b : ShadowBuf) : Bool := !b.bad && (List.range 64).all (fun k => b.blocks.contains k)

/-- The complete tick buffers in the halves of the serving lanes. -/
def shadowsComplete (s : State) : List ShadowBuf :=
  (bothLanes.filter (fun l => serving s l)).flatMap (fun l => [(s.pst.shadow.lane l).a, (s.pst.shadow.lane l).b].filter ShadowBuf.complete)

/-- The tick that the snapshot describes: the latest that is complete in a serving lane's half, with the entry that wins where both halves hold it
(R196, R227, R377). -/
def snapTick (s : State) : Option ShadowBuf :=
  let l := shadowsComplete s
  let top := l.foldl (fun m b => max m b.round) 0
  match l.filter (fun b => b.round == top) with
  | [] => none
  | [b] => some b
  | b :: c :: _ =>
    let keys := (b.entries.map (·.1) ++ c.entries.map (·.1)).eraseDups
    some { b with entries := keys.foldl (fun e i => tput 0 i (entryPick (tget 0 i b.entries) (tget 0 i c.entries)) e) b.entries }

/-- An ENTRY word of a section's published entry; none when R229 leaves it out. -/
def snapEntry (i : Nat) (w : Word) : Option Word :=
  let doubt := bitOf w 25
  if fld w 31 29 = 0 then none
  else if fld w 31 29 = 1 && fld w 15 0 = 0 && !doubt then none
  else some (w32 (536870912 * fld w 31 29 + 268435456 * b2n doubt + 65536 * i + fld w 15 0))

/-- The words ROUND to CHECK of a snapshot (R228, R229). -/
def snapWords (s : State) (b : ShadowBuf) : List Word :=
  let es := b.entries.filterMap (fun e => snapEntry e.1 e.2)
  let nOver := es.length > 1400
  let n := if nOver then 0 else es.length
  let info := w32 (2147483648 * b2n b.lt + 1073741824 * b2n b.solo + 536870912 * b2n nOver + n)
  let body := [lo32 b.round, lo32 b.time, hi32 b.time, info, topoGen s b.round, w32 s.pst.cycles, w32 s.pst.opSeconds]
    ++ (if nOver then [] else es)
  body ++ [crc32cWords body]

/-- One commit written at once, as the power-fail sequence does (R416, R418). -/
def writeNow (words : List (Nat × Word)) (s : State) : State :=
  let one := fun (a : Bool × PstSt) (e : Nat × Word) => if wouldWrite a.2 e.1 e.2 then (true, nvmStore e.1 e.2 a.2) else a
  let pages := (words.map (fun e => e.1 / 64)).eraseDups
  pages.foldl (fun s g =>
    let r := (words.filter (fun e => e.1 / 64 == g)).foldl one (false, s.pst)
    let s := { s with pst := r.2 }
    if r.1 then gaugeInc g s else s) s

/-- The snapshot's MARK, the first word of its area (R228, R460). -/
def markWord : Nat := 2624

/-- MARK's final value (R228). -/
def markValid : Word := w32 0x534E4150

/-- What step 5 of the power-fail sequence will write: the words of the snapshot, none when MARK alone is written as 0 (R227, R377, R380). -/
def snapshotOf (s : State) : Option (Word × List Word) :=
  if s.bsc.power == .safehalt || !aonUp s then none else (snapTick s).map (fun b => (lo32 b.round, snapWords s b))

/-- Step 5 (R228): MARK 0, the words, the final MARK. -/
def snapshotWrite (x : Option (Word × List Word)) (s : State) : State :=
  let s := writeNow [(markWord, 0)] s
  match x with
  | none => s
  | some (_, ws) =>
    writeNow [(markWord, markValid)] (writeNow (((List.range ws.length).map (fun i => markWord + 1 + i)).zip ws) s)

/-- Whether the snapshot of this power-down has been written already: POWER_REQUEST to STANDBY wrote it (R365, R380). -/
def snapTaken (s : State) : Bool := s.bsc.standbyAt.isSome || (s.bsc.power == .standby && s.bsc.bringup != 0)

/-- Steps 2 to 5 of the power-fail sequence (R378): the queued register writes are completed and the snapshot is written as the other domains
go off. -/
def sequence25 (s : State) : State :=
  let snap := snapshotOf s
  let taken := snapTaken s
  let s := if aonUp s then flushQueue s.pst.wq.length s else s
  let s := if taken then s else snapshotWrite snap s
  allOff s

/-! ## Power failure (R359, R378) -/

/-- The records that a power-fail loses: the events on their way, the queue, the pending queue of a freeze (R433). -/
def recordsLost (s : State) : Nat := s.erc.inbox.length + s.erc.queued + s.erc.pending.length

/-- Step 6 (R378, R418, R420): operating seconds, gauges, and the power-fail record unless RESET_N caused the sequence. -/
def step6 (record : Bool) (snap : Option (Word × List Word)) (lost : Nat) (s : State) : State :=
  let page := s.pst.opCommits % 16
  let s := writeNow [(64 * page + 63, w32 s.pst.opSeconds)] { s with pst := { s.pst with opCommits := s.pst.opCommits + 1 } }
  let s := if record then
      let n := match snap with | some x => x.2.length + 2 | none => 0
      let r := (snap.map (·.1)).getD 0
      let e : EvIn := { code := evPowerFail, src := 0, p0 := r, p1 := w32 n, p2 := w32 lost, solo := false }
      let s := keepRecord (formRecord s e) s
      s.pst.commits.foldl (fun s c => writeNow c.words s) s
    else s
  { s with pst := { s.pst with gaugeKept := s.pst.gauge, cleanDown := true, lostDown := lost, commits := [] } }

/-- The whole sequence as far as the supply lasts: steps 2 and 3 always, 4 (the 16 words of the write queue, R415) to 6 as far as `stepsDone` says; without step 5 no snapshot stands
(R232). AON lost: no store is written. -/
def failSequence (record : Bool) (stepsDone : Nat) (s : State) : State :=
  let snap := if snapTaken s then none else snapshotOf s
  let taken := snapTaken s
  let lost := recordsLost s
  let up := aonUp s
  let s := if s.sec.level = 0 then s else mapSec (fun x => { x with level := 0 }) s
  let s := if up && stepsDone ≥ 4 then flushQueue (min 16 s.pst.wq.length) s else s
  let s := if taken then s else snapshotWrite (if stepsDone ≥ 5 then snap else none) s
  let s := allOff s
  let s := { s with pst := { s.pst with wq := [], commits := [], cleanDown := false, lostDown := 0 },
                    erc := { s.erc with inbox := [], queued := 0, pending := [], frozen := false } }
  let s := if up && stepsDone ≥ 6 then step6 record snap lost s else s
  { s with bsc := { s.bsc with power := .off, standbyAt := none } }

/-- POWER_FAIL (R359, R378): the sequence, then AON waits; `stepsDone` is the last step that ended before VIN fell below 2.20 V. -/
def execPowerFail (t : Int) (stepsDone : Nat) (s : State) : Host.Outcome State Fault Refusal :=
  let s := atTime t s
  if s.bsc.aon != .released then settle s
  else
    let s := failSequence true stepsDone s
    settle { s with bsc := { s.bsc with aon := .failWait } }

/-- AON_LOSS: VIN below 2.20 V; the device is OFF (R359). Without the sequence nothing more was written. -/
def execAonLoss (t : Int) (s : State) : Host.Outcome State Fault Refusal :=
  let s := atTime t s
  let s := if s.bsc.aon == .released then failSequence true 0 s else s
  settle (offDom .aon { s with bsc := { s.bsc with aon := .off, power := .off } })

/-- VIN_LOW: recorded; operation continues (R359). -/
def execVinLow (t : Int) (mv : Nat) (s : State) : Host.Outcome State Fault Refusal :=
  settle (note evVinLow .aon 0 (w32 mv) 0 0 (atTime t s))

/-- VIN_HIGH: recorded; operation continues (R359). -/
def execVinHigh (t : Int) (mv : Nat) (s : State) : Host.Outcome State Fault Refusal :=
  settle (note evVinHigh .aon 0 (w32 mv) 0 0 (atTime t s))

/-! ## The wake (R438, R440) -/

/-- The wake from STANDBY to START: HOST and both lanes start; Lane X leads (R438, R440). -/
def wake (s : State) : State :=
  let s := setPower .start { s with bsc := { s.bsc with bringup := 1, tested := ⟨false, false⟩, halt := .none, wakeWait := false },
                                    lcm := LcmSt.reset }
  [Dom.host, .lanex, .laney].foldl (fun s d => domStart d s) s

/-- Whether the junction lies at or below TJ - 2 °C; tj in 0.1 °C (R369, R438). -/
def coolEnough (s : State) (tj : Int) : Bool := tj ≤ 10 * (regF s 0xE000 22 16 : Nat) - 20

/-- The wake, or its wait after a thermal trip until the junction has cooled (R438, R446). -/
def wakeAt (tj : Int) (s : State) : State :=
  if s.bsc.halt == .thermal && !coolEnough s tj then { s with bsc := { s.bsc with wakeWait := true } } else wake s

/-! ## AON start (R437) -/

/-- Whether the last record kept is a THERMAL_TRIP (R438). -/
def lastThermal (s : State) : Bool :=
  s.erc.w != 0 && (nvmWord s.pst (circBase + 8 * ((s.erc.w - 1) % 15872))).toNat / 65536 == evThermalTrip

/-- An entry of the bank selector: GEN, sequence, bank, when it is valid (R426). -/
def selEntry (p : PstSt) (e : Nat) : Option (Word × Nat × Bank) :=
  match nvmWord? p (64 * (20 + e) + 62), nvmWord? p (64 * (20 + e) + 63) with
  | some w0, some w1 => if fld w1 31 16 = fld w0 15 0 && !(w0 == 0 && w1 == 0) then
      some (w0, fld w1 15 1, if bitOf w1 0 then Bank.b else Bank.a) else none
  | _, _ => none

/-- Whether a sequence number is later than another in wrapping order of 15 bits. -/
def seqLater (a b : Nat) : Bool := a != b && (a + 32768 - b) % 32768 < 16384

/-- The valid entry whose sequence is latest (R426). -/
def selLatest (p : PstSt) : Option (Word × Nat × Bank) :=
  (List.range 4).foldl (fun m e =>
    match m, selEntry p e with
    | none, x => x
    | some a, some b => if seqLater b.2.1 a.2.1 then some b else some a
    | some a, none => some a) none

/-- PREG register words that fail their check, recorded; their reset values are used (R417). -/
def pregFails (s : State) : State :=
  s.pst.bad.foldl (fun s e => if e.2 && (pregOffset e.1).isSome then note evNvmWordFail .aon 2 (w32 e.1) 0 0 s else s) s

/-- AON starts from OFF or from its reset, a power-up: its counter at `t`; everything volatile at its reset value; the lifecycle, a decommissioning to
resume, the level, PREG, the cycle count, which is committed before the first record, the recorder's areas; POWER_UP; STANDBY; the wake (R318, R383, R392, R400, R420, R421, R426, R431,
R437, R438). -/
def aonStart (tj : Int) (s : State) : State :=
  let fresh : State := State.reset
  let p := s.pst
  let cyc := satAdd 32 (nvmWord p (64 * 24 + 63)).toNat 1
  let sel := selLatest p
  let halt := s.bsc.halt
  let clean := p.cleanDown
  let lost := p.lostDown
  let s := { fresh with
    pending := s.pending, now := s.now, out := s.out, free := s.free,
    hre := { fresh.hre with perst := s.hre.perst },
    bsc := { fresh.bsc with power := .standby, halt := halt, rstLow := s.bsc.rstLow, tj := tj },
    sec := { fresh.sec with lifecycle := s.sec.lifecycle, slots := s.sec.slots, fdCount := s.sec.fdCount, decom := s.sec.decom,
                            level := if s.sec.lifecycle = 1 then 3 else 0 },
    pst := { fresh.pst with words := p.words, bad := p.bad, gaugeKept := p.gaugeKept, gauge := p.gaugeKept, opCommits := p.opCommits, cresK := p.cresK,
                            selK := p.selK, selSeq := ((sel.map (fun x => x.2.1)).getD 0), committed := sel.map (fun x => x.2.2), committedGen := (sel.map (·.1)).getD 0 } }
  let s := if s.sec.decom.isSome then decomClear s else s
  let s := aonRead s
  let s := writeNow [(64 * 24 + 63, w32 cyc)] { s with pst := { s.pst with cycles := cyc } }
  let s := if s.sec.lifecycle = 1 || s.sec.lifecycle = 5 then s else takeKeys s
  let s := { s with net := { s.net with ridge := regF s 0x9000 0 0 = 1, ridgeChan := if regF s 0x9000 1 1 = 1 then Lane.y else Lane.x } }
  let s := pregFails s
  let s := note evPowerUp .aon 0 (w32 (b2n clean)) (w32 lost) 0 s
  let s := note evPowerState .aon 1 (w32 PState.off.code) (w32 PState.standby.code) 0 s
  let thermal := halt == .thermal || lastThermal s
  wakeAt tj { s with bsc := { s.bsc with halt := if thermal then .thermal else .none } }

/-- VIN_RETURN (R359, R437): AON starts when it is off, or waits after a power-fail; it stays in reset while RESET_N is low (R447). A device at its
reset value, whose AON start has run no step yet, starts. -/
def execVinReturn (t : Int) (tj : Int) (s : State) : Host.Outcome State Fault Refusal :=
  let s := atTime t s
  match s.bsc.aon with
  | .resetLow => settle s
  | .released => if s.bsc.power == .start && s.bsc.bringup = 0 then settle (aonStart tj s) else settle s
  | _ => if s.bsc.rstLow then settle { s with bsc := { s.bsc with aon := .resetLow } } else settle (aonStart tj s)

/-- RESET_N_ASSERT (R435): steps 2 to 6 of the power-fail sequence, then AON holds itself in reset; a session ends (R395). -/
def execResetNAssert (t : Int) (s : State) : Host.Outcome State Fault Refusal :=
  let s := atTime t s
  let s := { s with bsc := { s.bsc with rstLow := true } }
  match s.bsc.aon with
  | .released =>
    let s := failSequence false 6 s
    settle { s with bsc := { s.bsc with aon := .resetLow } }
  | .failWait => settle { s with bsc := { s.bsc with aon := .resetLow } }
  | _ => settle s

/-- RESET_N_RELEASE: high for 1 ms, AON starts (R435, R437). -/
def execResetNRelease (t : Int) (tj : Int) (s : State) : Host.Outcome State Fault Refusal :=
  let s := atTime t s
  let s := { s with bsc := { s.bsc with rstLow := false } }
  if s.bsc.aon == .resetLow then settle (aonStart tj s) else settle s

/-- WAKE_N low for 1 ms: leaves a STANDBY; ignored in any other state (R438, R447). -/
def execWakeN (t : Int) (tj : Int) (s : State) : Host.Outcome State Fault Refusal :=
  let s := atTime t s
  if s.bsc.power == .standby && aonUp s then settle (wakeAt tj s) else settle s

/-! ## POWER_REQUEST and STANDBY (R365) -/

/-- Every queued job completed CANCELLED (R380). -/
def cancelJobs (s : State) : State :=
  let s := (s.bsc.jobs ++ s.bsc.running).foldl (fun s j => dropJob j (if j.id = 0 then s else finish j.id stCancelled 0 0 s)) s
  let ids := (s.cal.seed.toList.map (·.1)) ++ (s.cal.survey.a.toList.map (·.id)) ++ (s.cal.survey.b.toList.map (·.id))
  cancelIds ids { s with cal := { s.cal with seed := none, sweep := none, survey := ⟨none, none⟩ } }

/-- The power states from which STANDBY may be requested; a drive instruction's SAFEHALT is left by a power-up only (R365, R393, R446). -/
def mayStandby (s : State) : Bool :=
  match s.bsc.power with
  | .service => true
  | .lean => true
  | .holdover => true
  | .safehalt => s.bsc.halt != .drive
  | _ => false

/-- POWER_REQUEST (R365, R380). -/
def effPowerRequest (c : HostCmd) (s : State) : State :=
  let p := s.bsc.power
  match fld c.a0 2 0 with
  | 1 =>
    if !mayStandby s then refuse 0x68 c stRefusedState s
    else
      let s := finishNow c 0x68 stApplied 1 0 (cancelJobs s)
      let s := sequence25 (publish s)
      { s with bsc := { s.bsc with standbyAt := some (s.now + 1000000) } }
  | 3 =>
    if p == .lean || p == .holdover then
      let s := leanUpdate { s with bsc := { s.bsc with leanRequest := false } }
      finishNow c 0x68 stApplied (w32 s.bsc.power.code) 0 s
    else refuse 0x68 c stRefusedState s
  | 4 =>
    if p == .service || p == .holdover || (p == .lean && !s.bsc.leanRequest) then
      let s := leanUpdate { s with bsc := { s.bsc with leanRequest := true } }
      finishNow c 0x68 stApplied (w32 s.bsc.power.code) 0 s
    else refuse 0x68 c stRefusedState s
  | _ => refuse 0x68 c stRefusedArgument s

/-- POWER_REQUEST (R365). -/
def execPowerRequest (c : HostCmd) (s : State) : Host.Outcome State Fault Refusal := hostCommand 0x68 effPowerRequest c s

/-- STANDBY_ENTRY: 1 ms after the completion of POWER_REQUEST; D1 and D2 sessions end (R365, R398). -/
def execStandbyEntry (t : Int) (s : State) : Host.Outcome State Fault Refusal :=
  let s := atTime t s
  match s.bsc.standbyAt with
  | none => settle s
  | some u =>
    if s.now < u then settle s
    else
      let s := if s.sec.level = 3 then s else endSession 5 s
      settle (setPower .standby { s with bsc := { s.bsc with standbyAt := none } })

end Sys2Proof.Machine
end

