-- ==== Sys2Proof/Machine/Budget.lean ====
section
/-!
DEFINITION. Machine/Budget.lean: the budget scheduler's work per period and per pace request (15_power_budget.md, R369 to R373).
-/
namespace Sys2Proof.Machine

/-- The core voltage of a band, mV (table "Core-voltage bands"). -/
def bandMv (b : Nat) : Int := 650 + 50 * (b : Nat)

/-- A domain's share of the VIN current, mA (R369). -/
def shareOf (m : BudgetMeas) (d : Dom) : Int := ((m.share.find? (fun e => e.1 == d)).map (·.2)).getD 0

/-- ILIM in mA. -/
def ilim (s : State) : Int := 10 * (regF s 0xE000 9 0 : Nat)

/-- TJ in 0.1 °C. -/
def tjLimit (s : State) : Int := 10 * (regF s 0xE000 22 16 : Nat)

/-- Whether a raise of a domain by one band is affordable (R369): I_avg + I_d ((V + 0.05)² / V² - 1) ≤ ILIM and Tj ≤ TJ - 2 °C. -/
def affordable (s : State) (m : BudgetMeas) (d : Dom) : Bool :=
  let v := bandMv (s.dom.get d).band
  let w := v + 50
  decide (m.iAvg * (v * v) + shareOf m d * (w * w - v * v) ≤ ilim s * (v * v)) && decide (m.tj ≤ tjLimit s - 20)

/-- Whether a pending pace request can be granted (R371, R373). -/
def grantable (s : State) (m : BudgetMeas) (p : Port) : Bool :=
  active s p.dom && !leanCause s.bsc && s.bsc.power != .safehalt && (s.dom.get p.dom).band < 5 && affordable s m p.dom

/-- A pace request granted: one band more; counted (R371). -/
def grantPace (p : Port) (s : State) : State :=
  let s := orderBand p.dom ((s.dom.get p.dom).band + 1) (bump (0xEC1C + 4 * p.num) s)
  { s with bsc := { s.bsc with pace := s.bsc.pace.setPort p false } }

/-- PACE_REQUEST: the request that SIN made as step 1 started (R70), examined on arrival; refused, it stays pending and is counted once (R371). -/
def execPaceRequest (t : Int) (port : Port) (m : BudgetMeas) (s : State) : Host.Outcome State Fault Refusal :=
  let s := atTime t s
  if !s.bsc.pace.port port || !aonUp s then settle s
  else
    let s := markBusy port.dom s
    settle (if grantable s m port then grantPace port s else bump (0xEC24 + 4 * port.num) s)

/-! ## The steps of a budget period (R370) -/

/-- How many bands a domain stands above its floor; 0 where it is not ACTIVE. -/
def above (s : State) (d : Dom) : Nat := if active s d then (s.dom.get d).band - (s.dom.get d).floor else 0

/-- The lowering order (R372). -/
def lowerOrder (s : State) : List Dom :=
  [.host] ++ (if above s .port1 > above s .port0 then [.port1, .port0] else [.port0, .port1]) ++ [.ring, .field, .lanex, .laney]

/-- A domain lowered by one band, unless its band has changed in this period; the domains changed so far come along (R370). -/
def lowerOne (ctr : Nat) (a : List Dom × State) : List Dom × State :=
  match (lowerOrder a.2).find? (fun d => above a.2 d > 0 && !a.1.contains d) with
  | none => a
  | some d => (d :: a.1, orderBand d ((a.2.dom.get d).band - 1) (bump ctr a.2))

/-- Whether every domain stands at its floor (R372). -/
def allAtFloor (s : State) : Bool := (allDoms.filter (· != Dom.aon)).all (fun d => above s d = 0)

/-- The counts of consecutive periods and the LEAN causes THERMAL and CURRENT (R372). -/
def guardCounts (m : BudgetMeas) (s : State) : State :=
  let b := s.bsc
  let flat := allAtFloor s
  let hot := if decide (m.tj > tjLimit s + 50) && flat then b.hot + 1 else 0
  let cool := if decide (m.tj ≤ tjLimit s - 20) then b.cool + 1 else 0
  let nOver := if decide (m.iAvg > ilim s) && flat then b.nOver + 1 else 0
  let under := if decide (10 * m.iAvg ≤ 9 * ilim s) then b.under + 1 else 0
  let trip := if decide (m.tj ≥ 1200) then b.trip + 1 else 0
  let th := if b.leanThermal then decide (cool < 10000) else decide (hot ≥ 100)
  let cu := if b.leanCurrent then decide (under < 10000) else decide (nOver ≥ 100)
  let s := if th && !b.leanThermal then bump 0xEC34 s else s
  let s := if cu && !b.leanCurrent then bump 0xEC38 s else s
  leanUpdate { s with bsc := { s.bsc with hot := min hot 100, cool := min cool 10000, nOver := min nOver 100, under := min under 10000, trip := min trip 10,
                                          leanThermal := th, leanCurrent := cu } }

/-- The thermal trip: recorded; both lanes HARD, the ports stop, SAFEHALT (R372). -/
def thermalTrip (tj : Int) (s : State) : State := bothHard .thermal (note evThermalTrip .aon 1 (lo32 tj) 0 0 s)

/-- Step 2: the guards (R372). -/
def guards (m : BudgetMeas) (a : List Dom × State) : List Dom × State :=
  let s := guardCounts m a.2
  if s.bsc.trip ≥ 10 && s.bsc.power != .safehalt then (a.1, thermalTrip m.tj s)
  else
    let a := if decide (m.tj > tjLimit s) then lowerOne 0xEC2C (a.1, s) else (a.1, s)
    if decide (m.iAvg > ilim s) then lowerOne 0xEC30 a else a

/-- Step 3: every domain below its floor is raised (R370). -/
def raiseLow (a : List Dom × State) : List Dom × State :=
  (allDoms.filter (· != Dom.aon)).foldl (fun a d =>
    if active a.2 d && (a.2.dom.get d).band < (a.2.dom.get d).floor then (d :: a.1, orderBand d (a.2.dom.get d).floor a.2) else a) a

/-- Step 4: pending pace requests, in port order, when affordable (R371). -/
def servePace (m : BudgetMeas) (a : List Dom × State) : List Dom × State :=
  [Port.p0, .p1].foldl (fun a p =>
    if a.2.bsc.pace.port p && !a.1.contains p.dom && grantable a.2 m p then (p.dom :: a.1, grantPace p a.2) else a) a

/-- Step 5: a domain idle above its floor for 100 periods is lowered by one band (R370). -/
def lowerIdle (a : List Dom × State) : State :=
  (allDoms.filter (· != Dom.aon)).foldl (fun s d =>
    let x := s.dom.get d
    let waits := (d == .port0 && s.bsc.pace.a) || (d == .port1 && s.bsc.pace.b)
    let n := if above s d > 0 && !x.busy && !waits then x.idle + 1 else 0
    let s := mapDom d (fun x => { x with idle := n, busy := false }) s
    if n ≥ 100 && !a.1.contains d then orderBand d (x.band - 1) s else s) a.2

/-- BUDGET_PERIOD (R370): measurements, guards, floors, pace requests, idle domains, job queues; in STANDBY only a wake that waits for the junction
to cool is looked at (R438). No BSC runs while AON is lost (R373). -/
def execBudgetPeriod (t : Int) (m : BudgetMeas) (s : State) : Host.Outcome State Fault Refusal :=
  let s := atTime t s
  if !aonUp s then settle s
  else
    let s := { s with bsc := { s.bsc with iAvg := m.iAvg, tj := m.tj } }
    match s.bsc.power with
    | .off => settle s
    | .standby => if s.bsc.wakeWait && coolEnough s m.tj then settle (wake s) else settle s
    | _ =>
      let s := lowerIdle (servePace m (raiseLow (guards m ([], s))))
      settle ([Resource.host, .lanes, .nvm, .port0, .port1].foldl (fun s r => pickJob r s) s)

end Sys2Proof.Machine
end

