-- ==== Sys2Proof/Machine/PollBus.lean ====
section
/-!
DEFINITION. Machine/PollBus.lean: polled mode on the round ports and the legacy round port (R273 to R279), and FRAME_RECEIVE, which serves both modes.
-/
namespace Sys2Proof.Machine

/-! ## The poll schedule (R273) -/

/-- The entries of a bus in table order, up to the first with LAST set: words of the table "Poll entry". -/
def pollWalk : List Word → List Word
  | [] => []
  | w :: r => if bitOf w 31 then [w] else w :: pollWalk r

/-- The entries of a bus (R273). -/
def pollEntries (s : State) (bus : Nat) : List Word :=
  match activeBank s with
  | none => []
  | some k => pollWalk (((bankListed s k 0xAB40 0xBB3F).map (·.2)).filter (fun w => fld w 30 29 == bus && fld w 7 0 != 0))

/-! ## Round ports (R274, R275) -/

/-- RCT_CFG.MASTER (R275). -/
def pollMasterId (s : State) : Nat := regF s 0x9014 23 16

/-- Whether a lane polls or answers on its channel (R273, R274). -/
def pollLive (s : State) (l : Lane) : Bool := rctLive s l && polled s

/-- Where the round's polling must have ended (R275). -/
def pollLimit (s : State) : Int := (curRound s : Int) * roundNs s + nitStart s

/-- POLL_SEND: the master's next POLL, unless its reply window would reach into the network idle time (R275). -/
def execPollSend (t : Int) (lane : Lane) (s : State) : Host.Outcome State Fault Refusal :=
  let s := atTime t s
  let x := s.net.rct.lane lane
  match (pollEntries s 0)[x.pollIx]? with
  | none => settle s
  | some w =>
    let wait := ((fld w 19 12 * 1000 : Nat) : Int)
    let tEnd := t + 8 * 31
    if !pollLive s lane || !pollMaster s || x.poll.isSome || t < x.pollAt || tEnd + wait > pollLimit s then settle s
    else
      let b := frameBytes s false lane.num 7 false 0 (curRound s) (wordBytes (w32 (fld w 7 0 + 256 * fld w 23 20)))
      let s := { s with out := s.out ++ [.frame (chanPort s lane) t b], net := { s.net with tx := tput none (chanPort s lane) (some (frameSpan t b)) s.net.tx } }
      let o : PollOut := { addr := fld w 7 0, req := fld w 23 20, wait := wait, tEnd := tEnd, seq := 0 }
      settle (mapRct lane (fun x => { x with pollIx := x.pollIx + 1, poll := some o }) s)

/-- The frame checks of R260 in polled mode: 0 for a valid frame, else its cause. A reply that no POLL awaits lies outside every window (R275; DEDUCED, log
entry 150). -/
def pollCause (s : State) (l : Lane) (rx : FrameRx) (f : Frame) : Nat :=
  let p := (s.net.rct.lane l).poll
  let late := match p with
    | some p => pollMaster s && (decide (rx.t < p.tEnd) || decide (rx.t > p.tEnd + p.wait))
    | none => true
  let types := p.any (fun p => if p.req = 1 then f.type = 2 else f.type = 1 || f.type = 5)
  if !rx.codeOk then 1
  else if f.type ≠ 7 && late then 2
  else if !lengthOk s f then 3
  else if !f.crcOk then 4
  else if !frankOk s l f then 5
  else if !typeOk f none || (if f.type = 7 then f.node != pollMasterId s else !types) then 6
  else if f.round ≠ curRound s then 7
  else if f.ch ≠ l.num || f.ring then 8
  else if f.node = nodeId s || (f.type ≠ 7 && p.all (fun p => p.addr != f.node)) then 9
  else 0

/-- A frame on a channel port in polled mode: a POLL or a reply (R274, R275). -/
def polledFrame (l : Lane) (rx : FrameRx) (crossOk : Bool) (s : State) : State :=
  let f := parseFrame rx.bytes
  let c := pollCause s l rx f
  if c ≠ 0 then deadLetter rx.port c f.node s
  else if f.type = 7 then
    let addr := fld (f.word 0) 7 0
    let req := fld (f.word 0) 11 8
    mapRct l (fun x =>
      { x with heard := true, reply := if addr = nodeId s then some (req, rx.tEnd + 2000) else x.reply,
               poll := if addr = nodeId s then x.poll else some { addr := addr, req := req, wait := 0, tEnd := rx.tEnd, seq := 0 } }) s
  else
    shareFrame l f rx.tEnd crossOk (mapRct l (fun x => { x with heard := true, poll := none, pollAt := rx.tEnd + 2000 }) s)

/-- A frame taken on a round port (R260, R290). -/
def receiveFrame (rx : FrameRx) (crossOk : Bool) (s : State) : State :=
  match portLane s rx.port with
  | none => s
  | some l =>
    if pollLive s l then polledFrame l rx crossOk s
    else if rctRound s l then chanFrame l rx crossOk s
    else s

/-- FRAME_RECEIVE (R260). -/
def execFrameReceive (f : FrameRx) (crossOk : Bool) (s : State) : Host.Outcome State Fault Refusal :=
  let s := atTime f.tEnd s
  settle (receiveFrame (heardRx s f) crossOk s)

/-- POLL_RECEIVE: a polled node takes a POLL (R274, R275). -/
def execPollReceive (f : FrameRx) (s : State) : Host.Outcome State Fault Refusal :=
  let s := atTime f.tEnd s
  match portLane s f.port with
  | none => settle s
  | some l => if pollLive s l && !pollMaster s then settle (polledFrame l (heardRx s f) true s) else settle s

/-- POLL_REPLY_SEND: the reply of the requested type leaves 2.0 µs after the POLL (R274). -/
def execPollReplySend (t : Int) (lane : Lane) (s : State) : Host.Outcome State Fault Refusal :=
  let s := atTime t s
  match (s.net.rct.lane lane).reply with
  | none => settle s
  | some (req, due) =>
    let s := mapRct lane (fun x => { x with reply := none }) s
    if !pollLive s lane || due ≠ t then settle s
    else if req = 1 then
      let x := s.net.rct.lane lane
      let rs := oldest x (t - 10000) 63
      settle (sentRecords lane rs.length (emitFrame lane 2 false 0 (lettersPayload x rs) s))
    else if req = 2 then settle (sendStates lane 0 true 1024 s)
    else settle s

/-- POLL_REPLY_TIMEOUT: no reply within WAIT lets the master move on (R275). -/
def execPollReplyTimeout (t : Int) (lane : Lane) (s : State) : Host.Outcome State Fault Refusal :=
  let s := atTime t s
  match (s.net.rct.lane lane).poll with
  | none => settle s
  | some p =>
    if pollMaster s && t ≥ p.tEnd + p.wait then settle (mapRct lane (fun x => { x with poll := none, pollAt := t + 2000 }) s)
    else settle s

/-- A polling master's round begins: what the last left over is an overrun, and the walk begins again (R275). -/
def pollRound (s : State) : State :=
  if !pollMaster s then s
  else
    let n := (pollEntries s 0).length
    bothLanes.foldl (fun s l =>
      if !pollLive s l then s
      else
        let left := n - (s.net.rct.lane l).pollIx
        let s := if left > 0 && (s.net.rct.lane l).pollAt > 0 then laneNote l evPollOverrun 3 (w32 left) 0 0 s else s
        mapRct l (fun x => { x with pollIx := 0, poll := none, pollAt := s.now + 250 }) s) s

/-! ## The legacy round port (R276 to R278) -/

/-- The legacy round port changed. -/
def mapBus (f : LBusSt → LBusSt) (s : State) : State := { s with net := { s.net with bus := f s.net.bus } }

/-- RCT_LBUS taken for the next poll cycle: a cycle lasts while a walk runs or a reply is due (R253; DEDUCED, log entry 151). -/
def busCycle (s : State) : State :=
  if s.net.bus.running || s.net.bus.reply.isSome then s else mapBus (fun b => { b with mode := regF s 0x9028 1 0, shown := slaves s }) s

/-- Whether the legacy round port works in a mode: 1 MASTER, 2 SLAVE (R251, R277, R278). -/
def busLive (s : State) (mode : Nat) : Bool :=
  active s .field && !s.net.ridge && s.bsc.power != .safehalt && s.sec.lifecycle != 5 && s.net.bus.mode = mode

/-- The characters of a frame, the first with its address bit at 1, the rest at 0 (R276). -/
def busChars (b : List Byte) : List (Bool × Byte) := (b.take 1).map (fun c => (true, c)) ++ (b.drop 1).map (fun c => (false, c))

/-- The instant at which the last stop bit of n characters in a row ends, the first start bit at t: 11 bits of 500 ns each (R276). -/
def charsEnd (t : Int) (n : Nat) : Int := t + 5500 * (n : Int)

/-- A frame sent: LR_DE rises 1 bit time before its first start bit and falls 1 bit time after its last stop bit (R276). -/
def busSend (t : Int) (b : List Byte) (s : State) : State :=
  { s with out := s.out ++ [.chars t (t - 500) (charsEnd t b.length + 500) (busChars b)] }

/-- The characters after the first that belong to its frame: up to one with its address bit at 1 or after a gap of more than 10 bit times (R276). -/
def busTail : Int → List CharRx → List CharRx
  | _, [] => []
  | e, c :: r => if c.addr || c.t - e > 5000 then [] else c :: busTail (c.t + 5500) r

/-- The frame among the characters received: it begins at the first with its address bit at 1 (R276); none where there is no such character. -/
def busFrame : List CharRx → List CharRx
  | [] => []
  | c :: r => if c.addr then c :: busTail (c.t + 5500) r else busFrame r

/-- A frame's first start bit, its last stop bit's end, whether every stop bit was 1, its bytes. -/
structure BusRx where
  t : Int
  fin : Int
  stopsOk : Bool
  chars : List Byte
deriving DecidableEq, Repr

/-- What the port makes of the characters received (R276). -/
def busRx (cs : List CharRx) : Option BusRx :=
  match busFrame cs with
  | [] => none
  | c :: r => some { t := c.t, fin := (r.getLast?.getD c).t + 5500, stopsOk := (c :: r).all (·.stop), chars := (c :: r).map (·.data) }

/-- The instant at which the last character received ends. -/
def charsNow (cs : List CharRx) : Int := (cs.getLast?.map (fun c => c.t + 5500)).getD 0

/-- The CRC characters of an OB1160 frame (R276). -/
def busCrc (b : List Byte) : List Byte := let c := crc16 b; [BitVec.ofNat 8 (c % 256), BitVec.ofNat 8 (c / 256)]

/-- LEGACY_WALK_START, no sooner than CYCLE after the last (R277). -/
def execLegacyWalkStart (t : Int) (s : State) : Host.Outcome State Fault Refusal :=
  let s := busCycle (atTime t s)
  let cyc := ((regF s 0x9028 25 16 * 1000000 : Nat) : Int)
  if busLive s 1 && !s.net.bus.running && s.net.bus.walkAt.all (fun w => decide (t ≥ w + cyc)) && pollEntries s 1 != [] then
    settle (mapBus (fun b => { b with walkAt := some t, running := true, ix := 0, nextAt := t, out := none }) s)
  else settle s

/-- LEGACY_POLL_SEND: the next STATUS poll of the walk (R276, R277). The spec gives SEQ no value: it is free. -/
def execLegacyPollSend (t : Int) (s : State) : Host.Outcome State Fault Refusal :=
  let s := atTime t s
  let b := s.net.bus
  match (pollEntries s 1)[b.ix]? with
  | none => settle s
  | some w =>
    if !busLive s 1 || !b.running || b.out.isSome || t < b.nextAt then settle s
    else
      let d := draw s
      let seq := fld d.1 7 0
      let a : Byte := BitVec.ofNat 8 (fld w 7 0)
      let body : List Byte := [0x31, BitVec.ofNat 8 seq]
      let s := busSend t ([a] ++ body ++ busCrc body) d.2
      let wait := ((fld w 19 12 * 10000 : Nat) : Int)
      let o : PollOut := { addr := fld w 7 0, req := fld w 23 20, wait := wait, tEnd := charsEnd t 5, seq := seq }
      settle (mapBus (fun b => { b with ix := b.ix + 1, out := some o }) s)

/-- The walk after a poll that has ended at an instant (R277). -/
def pollOver (e : Int) (s : State) : State :=
  let n := (pollEntries s 1).length
  mapBus (fun b => { b with out := none, nextAt := e + 20000, running := decide (b.ix < n) }) s

/-- An item of an OB1160 for both ledgers (R157, R164, R277). -/
def busItem (it : Lane → State → HItem) (s : State) : State :=
  bothLanes.foldl (fun s l => if laneTakes s l && (s.net.joins != 0 || polled s) then rctItem l (it l s) s else s) s

/-- An event of an OB1160: AXLE or OVERFLOW (R277). -/
def busEvent (a ty : Nat) (neg : Bool) (t : Int) (s : State) : State :=
  let e : HEvent := { ty := ty, neg := neg, lt := false, zone := 3, pending := 0, head := 8191, t := t, data := 0, marks := 512, rst := none }
  busItem (fun _ _ => .ev (some a) e) s

/-- The status of an OB1160 that begins at an instant (R266, R277). -/
def busState (flags : Nat) (start w : Int) : HStatus :=
  { head := 8191, st := if flags.testBit 2 then 4 else 2, start := start, w := w, lt := false, pend := 0, nOver := 0, on1 := flags.testBit 0,
    on2 := flags.testBit 1, span := false }

/-- The status of an OB1160 given to both ledgers, and its watermark kept (R266, R277). -/
def busStatus (a : Nat) (flags : Nat) (w : Int) (s : State) : State :=
  let s := busItem (fun l s => .status (some a) (busState flags ((tget none (markKey a 8191) (s.net.rct.lane l).marks).getD w) w)) s
  bothLanes.foldl (fun s l => mapRct l (fun y => { y with marks := tput none (markKey a 8191) (some w) y.marks }) s) s

/-- A valid STATUS reply of address a evaluated (R277). -/
def evalReply (a : Nat) (ts : Int) (p : List Byte) (s : State) : State :=
  let byte := fun (i : Nat) => (nth 0 p i).toNat
  let tick := byte 0 + 256 * byte 1
  let flags := byte 2
  let pos := byte 3
  let neg := byte 4
  let hist := (List.range 4).map (fun i => (byte (6 + 3 * i) + 256 * byte (7 + 3 * i), byte (8 + 3 * i)))
  let o := (tget none a s.net.bus.nodes).getD { service := false, pos := 0, neg := 0, tPrev := none, wmPrev := 0 }
  let moved := pos ≠ o.pos || neg ≠ o.neg
  let fresh := o.tPrev.isNone || flags.testBit 3 || o.tPrev.any (fun q => decide (ts - q > 3000000000))
  let s := if flags.testBit 3 && o.service then note evOb1160Restart .field 4 (w32 a) 0 0 s else s
  let np := (pos + 256 - o.pos) % 256
  let nn := (neg + 256 - o.neg) % 256
  let used := hist.take (np + nn)
  let s := if fresh then (if o.service && moved then busEvent a 4 false o.wmPrev s else s)
    else if np + nn > 4 || (used.filter (fun h => h.2 == 0)).length ≠ np || (used.filter (fun h => h.2 == 1)).length ≠ nn then
      busEvent a 4 false o.wmPrev s
    else used.reverse.foldl (fun s h => busEvent a 1 (h.2 == 1) (ts - 100000 * (((tick + 65536 - h.1) % 65536 : Nat) : Int) - 50000) s) s
  busStatus a flags (ts - 150000)
    (mapBus (fun b => { b with nodes := tput none a (some { service := true, pos := pos, neg := neg, tPrev := some ts, wmPrev := ts - 150000 }) b.nodes }) s)

/-- The checks on a STATUS reply: 0 for a valid one, else its cause (R276). -/
def replyCause (p : PollOut) (r : BusRx) : Nat :=
  let c := r.chars
  let byte := fun (i : Nat) => (nth 0 c i).toNat
  if !r.stopsOk then 1
  else if r.t > p.tEnd + p.wait then 2
  else if c.length ≠ 25 || byte 1 ≠ 21 then 3
  else if busCrc ((c.drop 1).take 22) != c.drop 23 then 4
  else if byte 0 ≠ 0 || byte 2 ≠ 0xB1 then 6
  else if byte 3 ≠ p.addr || byte 4 ≠ p.seq then 9
  else 0

/-- LEGACY_REPLY_RECEIVE: a reply evaluated, or a dead letter of the legacy round port; characters without a first one are no frame (R276, R277). -/
def execLegacyReplyReceive (cs : List CharRx) (s : State) : Host.Outcome State Fault Refusal :=
  let s := atTime (charsNow cs) s
  match busRx cs with
  | none => settle s
  | some r =>
    if !busLive s 1 then settle s
    else
      match s.net.bus.out with
      | none => settle (deadLetter 6 2 (nth 0 r.chars 3).toNat s)
      | some p =>
        let c := replyCause p r
        let s := pollOver r.fin s
        if c ≠ 0 then settle (deadLetter 6 c (nth 0 r.chars 3).toNat s)
        else settle (evalReply p.addr r.t ((r.chars.drop 5).take 18) s)

/-- LEGACY_REPLY_TIMEOUT: no reply within WAIT ends the poll as a WINDOW dead letter (R261, R277). -/
def execLegacyReplyTimeout (t : Int) (s : State) : Host.Outcome State Fault Refusal :=
  let s := atTime t s
  match s.net.bus.out with
  | none => settle s
  | some p => if busLive s 1 && t ≥ p.tEnd + p.wait then settle (deadLetter 6 2 p.addr (pollOver t s)) else settle s

/-- LEGACY_POLL_RECEIVE: a STATUS poll to one of the addresses is answered 20 µs after its last stop bit (R278). -/
def execLegacyPollReceive (cs : List CharRx) (s : State) : Host.Outcome State Fault Refusal :=
  let s := busCycle (atTime (charsNow cs) s)
  match busRx cs with
  | none => settle s
  | some r =>
    let c := r.chars
    let a := (nth 0 c 0).toNat
    let ok := r.stopsOk && c.length == 5 && (nth 0 c 1).toNat == 0x31 && busCrc ((c.drop 1).take 2) == c.drop 3
    if busLive s 2 && ok && s.net.bus.shown.any (fun p => p.1 == a) then
      settle (mapBus (fun b => { b with reply := some (a, (nth 0 c 2).toNat, r.fin + 20000) }) s)
    else settle s

/-- The state of a local head in the lead lane: 0 when it is not enabled (R144). -/
def headState (s : State) (h : Nat) : Nat :=
  match headRec s h with
  | none => 0
  | some r => (headOf s s.lcm.lead h (profile s r.profile)).st

/-- Four history entries of a head; those of which it has had no event are free (R278). -/
def slaveHist (x : SlaveHead) (s : State) : List Byte × State :=
  (List.range 4).foldl (fun (a : List Byte × State) i =>
    match x.hist[i]? with
    | some h => (a.1 ++ natBytes 2 ((h.2 / 100000) % 65536).toNat ++ [BitVec.ofNat 8 (b2n h.1)], a.2)
    | none => let d := draw a.2; (a.1 ++ natBytes 2 (fld d.1 15 0) ++ [BitVec.ofNat 8 (fld d.1 16 16)], d.2)) ([], s)

/-- LEGACY_REPLY_SEND: the STATUS reply (R276, R278). -/
def execLegacyReplySend (t : Int) (s : State) : Host.Outcome State Fault Refusal :=
  let s := atTime t s
  match s.net.bus.reply with
  | none => settle s
  | some (a, seq, due) =>
    let s := mapBus (fun b => { b with reply := none }) s
    match s.net.bus.shown.find? (fun p => p.1 == a) with
    | none => settle s
    | some p =>
      if !busLive s 2 || t > due + 1000 || t < due - 1000 then settle s
      else
        let x := (tget none p.2 s.net.bus.heads).getD { pos := 0, neg := 0, hist := [], on1 := false, on2 := false }
        let st := headState s p.2
        let flags := b2n x.on1 + 2 * b2n x.on2 + 4 * b2n (st = 0 || st = 4) + 8 * b2n (!s.net.bus.replied.contains a)
        let hs := slaveHist x s
        let pay := natBytes 2 ((t / 100000) % 65536).toNat ++ [BitVec.ofNat 8 flags, BitVec.ofNat 8 x.pos, BitVec.ofNat 8 x.neg, 0] ++ hs.1
        let body : List Byte := [21, 0xB1, BitVec.ofNat 8 a, BitVec.ofNat 8 seq] ++ pay
        let s := busSend t ([0] ++ body ++ busCrc body) hs.2
        settle (mapBus (fun b => { b with replied := if b.replied.contains a then b.replied else a :: b.replied }) s)

end Sys2Proof.Machine
end

