-- ==== Sys2Proof/Machine/Ridge.lean ====
section
/-!
DEFINITION. Machine/Ridge.lean: the ridge role (R299 to R303) and the ring fall-back (R304 to R306).
-/
namespace Sys2Proof.Machine

/-! ## The ridge -/

/-- The ridge changed. -/
def mapRidge (f : RidgeSt → RidgeSt) (s : State) : State := { s with net := { s.net with rdg := f s.net.rdg } }

/-- A branch of the ridge. -/
def branchOf (s : State) (b : Nat) : BranchSt := nth BranchSt.reset s.net.rdg.branches b

/-- a_b of a branch (R282). -/
def branchDelay (s : State) (b : Nat) : Int := rnd (((loopOf (branchOf s b).loops).getD 0 : Nat) : Int) 2

/-- W_R (R301). -/
def ridgeWin (s : State) : Int := (regF s 0x9024 8 0 : Nat)

/-- A window that is open on a branch at an instant: its entry, its send point in the ridge's NT and its end (R301). -/
def openWindow (s : State) (b : Nat) (t : Int) : Option (Sched × Int × Int) :=
  let k := curRound s
  let o := (k : Int) * roundNs s
  let a := branchDelay s b
  ((sched s).filter (fun e => e.inRound k && ridgeBranch s e.node == b)).findSome? (fun e =>
    match placeSpan s k s.net.rdg.claims e.dyn e.index with
    | none => none
    | some p =>
      let sp := o + p.1 + 250
      let close := o + p.2 + a + ridgeWin s
      if sp + a - ridgeWin s ≤ t && t ≤ close then some (e, sp, close) else none)

/-- The claim minislot whose window is open on a branch at an instant (R301). -/
def openClaim (s : State) (b : Nat) (t : Int) : Option Nat :=
  let k := curRound s
  let a := branchDelay s b
  ((dynIds s k).filter (fun e => ridgeBranch s e.node == b)).findSome? (fun e =>
    match claimStart s k e.index with
    | none => none
    | some c =>
      let o := (k : Int) * roundNs s + c
      if o + 250 + a - ridgeWin s ≤ t && t ≤ o + 1000 + a + ridgeWin s then some e.index else none)

/-- The branches that a frame or claim of one branch goes to (R299). -/
def otherBranches (b : Nat) : List Nat := (List.range 6).filter (· != b)

/-- A frame forwarded to every other branch with the ridge's latency (R299). -/
def forwardFrame (b : Nat) (t : Int) (bytes : List Byte) (s : State) : State :=
  { s with out := s.out ++ (otherBranches b).map (fun p => .frame p (t + 1024) bytes),
           net := { s.net with tx := (otherBranches b).foldl (fun x p => tput none p (some (frameSpan (t + 1024) bytes)) x) s.net.tx } }

/-- The instant at which a frame's /R/ has arrived. -/
def frameEnd (t : Int) (bytes : List Byte) : Int := (frameSpan t bytes).2

/-- A violation of a branch (R301). -/
def violation (b node : Nat) (s : State) : State :=
  bump (0xAE00 + 4 * b) (if (branchOf s b).blocked.isSome then s else mapBranch b (fun x => { x with violNow := true, node := node }) s)

/-- Whether a TIME or STARTUP frame passes the checks of R260 that a ridge makes: all but WINDOW and FRANK, of which it holds no key (R286, R299). -/
def ridgeChecks (s : State) (f : Frame) : Bool :=
  let own := ownerOf s (curRound s) f.dyn f.index
  f.timed && lengthOk s f && f.crcOk && typeOk f (own.map (·.kind)) && f.round == curRound s && f.ch == s.net.ridgeChan.num && !f.ring
    && own.any (fun e => e.node == f.node)

/-- What the ridge uses of a TIME or STARTUP frame, forwarded or withheld: the master's deviation within INTWIN of its place, and the frame itself where it
also passes WINDOW (R286, R289, R299, R300). -/
def ridgeTime (b : Nat) (t : Int) (f : Frame) (s : State) : State :=
  match placeSpan s (curRound s) s.net.rdg.claims f.dyn f.index with
  | none => s
  | some p =>
    if !ridgeChecks s f || ridgeBranch s f.node != b then s
    else
      let w := f.word 0
      let v := t - ((curRound s : Int) * roundNs s + p.1 + 250 + branchDelay s b)
      let win := ((s.net.intwin * 1000 : Nat) : Int)
      let ok := v ≤ accNs s && -v ≤ accNs s
      mapRidge (fun r =>
        { r with times := if ok then r.times ++ [{ node := f.node, master := fld w 31 24, startup := f.type = 4, sync := bitOf w 15, eligible := bitOf w 14,
                                                   resign := bitOf w 13 }] else r.times,
                 mRound := if ok && f.node = r.master then some f.round else r.mRound,
                 dNow := if r.dNow.isNone && !r.lost && f.node = r.master && v ≤ win && -v ≤ win then some v else r.dNow }) s

/-- Whether a lower branch's STARTUP or TIME frame that waits in the queue arrives within 8 ns of one at t: it wins (R302; DESIGN CHOICE, log entry 152). -/
def idleBeaten (b : Nat) (t : Int) (q : List Instr) : Bool :=
  q.any (fun c =>
    match c with
    | .ridgeForward t' b' (.frame bytes) =>
      let f := parseFrame bytes
      decide (b'.val < b) && decide (t' - t ≤ 8) && decide (t - t' ≤ 8) && f.timed && f.node == fld (f.word 0) 31 24
    | _ => false)

/-- IDLE: a STARTUP or TIME frame whose NODE is its MASTER is forwarded; a right CRC takes the ridge to SCHEDULED on its time (R300, R302). -/
def idleFrame (b : Nat) (t : Int) (bytes : List Byte) (s : State) : State :=
  let f := parseFrame bytes
  let busy := s.net.rdg.idleFwd.any (fun e => decide (t < e.2))
  if !f.timed || f.node ≠ fld (f.word 0) 31 24 then s
  else if busy || idleBeaten b t s.pending then bump (0xAE00 + 4 * (12 + b)) s
  else
    let s := forwardFrame b t bytes (mapRidge (fun r => { r with idleFwd := some (b, frameEnd t bytes) }) s)
    if !f.crcOk || !lengthOk s f || (branchOf s b).loops = [] then s
    else
      let delta := frameNt s f (branchDelay s b) - t
      let first := !s.net.joined
      let s := if delta = 0 then s else rebase delta s
      let s := { s with net := { s.net with joined := true, joins := s.net.joins + 1, joinAt := s.now } }
      let s := if first || delta = 0 then s else note evTimeStep .ring 1 (lo32 delta) (hi32 delta) 0 s
      let s := note evJoined .ring 1 (w32 f.node) (roundLo s) (w32i (sat delta 32)) s
      mapRidge (fun r => { r with sched := true, master := f.node, rho := 0, sigma := 0, lost := false, d := none, dNow := some 0, mRound := some f.round, claims := [],
                                  times := [], newMaster := none, idleFwd := none }) s

/-- SCHEDULED: a frame goes through an open window of its branch, when its NODE owns it and its ROUND is current; one that outlasts the window is cut
(R301). -/
def schedFrame (b : Nat) (t : Int) (bytes : List Byte) (s : State) : State :=
  let f := parseFrame bytes
  let s := ridgeTime b t f s
  if (branchOf s b).blocked.isSome then violation b f.node s
  else
    match openWindow s b t with
    | none =>
      let unknown := f.dyn && (dynIds s (curRound s)).any (fun e => (claimOf s.net.rdg.claims e.index).isNone)
      if unknown then s else violation b f.node s
    | some (e, _, close) =>
      if f.node ≠ e.node || f.round ≠ curRound s then violation b f.node s
      else
        let fin := frameEnd t bytes
        if fin ≤ close then forwardFrame b t bytes s
        else
          mapBranch b (fun x => { x with fwd := some close, node := f.node }) (forwardFrame b t (bytes.take (((close - t) / 8).toNat - 1)) s)

/-- A claim in a window of its minislot on the owner's branch is forwarded and read (R301). -/
def schedClaim (b : Nat) (t : Int) (rx : BranchRx) (s : State) : State :=
  if (branchOf s b).blocked.isSome then s
  else
    match openClaim s b t with
    | none => s
    | some id =>
      let s := mapRidge (fun r => { r with claims := addClaim id (readClaim id rx) r.claims }) s
      match rx with
      | .claim i n c => { s with out := s.out ++ (otherBranches b).map (fun p => .claim p (t + 1024) i.toNat n.toNat c.toNat) }
      | _ => s

/-- RIDGE_FORWARD (R299, R301, R302). -/
def execRidgeForward (t : Int) (branch : Fin 6) (rx : BranchRx) (s : State) : Host.Outcome State Fault Refusal :=
  let s := atTime t s
  if !ridgeLive s then settle s
  else
    match rx with
    | .frame bytes => if s.net.rdg.sched then settle (schedFrame branch.val t bytes s) else settle (idleFrame branch.val t bytes s)
    | _ => if s.net.rdg.sched then settle (schedClaim branch.val t rx s) else settle s

/-- RIDGE_WINDOW_CLOSE: a frame whose /R/ had not arrived was cut, a violation of its branch (R301). -/
def execRidgeWindowClose (t : Int) (branch : Fin 6) (s : State) : Host.Outcome State Fault Refusal :=
  let s := atTime t s
  let x := branchOf s branch.val
  if ridgeLive s && x.fwd.any (fun c => decide (c ≤ t)) then
    settle (violation branch.val x.node (mapBranch branch.val (fun x => { x with fwd := none }) s))
  else settle s

/-- BRANCH_UNBLOCK: a blocked branch returns after 64 rounds (R301). -/
def execBranchUnblock (t : Int) (branch : Fin 6) (s : State) : Host.Outcome State Fault Refusal :=
  let s := atTime t s
  if (branchOf s branch.val).blocked.any (fun k => decide (k ≤ curRound s)) then
    settle (mapBranch branch.val (fun x => { x with blocked := none, viol := 0, violNow := false }) s)
  else settle s

/-- RIDGE_IDLE_TIMEOUT: 8 rounds with no valid frame of the master or a successor (R302). -/
def execRidgeIdleTimeout (t : Int) (s : State) : Host.Outcome State Fault Refusal :=
  let s := atTime t s
  if ridgeLive s && s.net.rdg.sched && s.net.rdg.mRound.all (fun k => decide (k + 8 < curRound s)) then
    settle (mapRidge (fun r => { r with sched := false, claims := [], times := [], dNow := none, newMaster := none, idleFwd := none, sigma := 0 }) s)
  else settle s

/-- The branches at a round's end: three rounds in a row with a violation block one for 64 rounds (R301). -/
def branchRound (s : State) : State :=
  (List.range 6).foldl (fun s b =>
    let x := branchOf s b
    let n := if x.violNow then x.viol + 1 else 0
    if n ≥ 3 && x.blocked.isNone then
      bump (0xAE00 + 4 * (6 + b)) (note evBranchBlocked .ring 1 (w32 b) (w32 x.node) 0
        (mapBranch b (fun x => { x with viol := 0, violNow := false, blocked := some (curRound s + 64) }) s))
    else mapBranch b (fun x => { x with viol := n, violNow := false }) s) s

/-- The ridge at a round's end: its corrections, its master, its branches (R287, R289, R300, R301). -/
def ridgeRound (s : State) : State :=
  if !ridgeLive s || !s.net.rdg.sched || s.now % roundNs s ≠ 0 then s
  else
    let r := s.net.rdg
    let c := correct (roundNs s) (accNs s) r.dNow r.rho
    let s := match r.newMaster with
      | some m => note evMasterChange .ring 1 (w32 r.master) (w32 m) 0 s
      | none => s
    let s := branchRound s
    let k := curRound s - 1
    mapRidge (fun r => { r with sigma := c.1, rho := c.2, mRound := match r.newMaster with | some m => heardIn k m r.times | none => r.mRound,
                                lost := r.lost && r.newMaster.isNone, d := match r.dNow with | some v => some v | none => r.d, dNow := none, claims := [], times := [],
                                master := r.newMaster.getD r.master, newMaster := none }) s

/-! ## The ring (R304 to R306) -/

/-- The checks of R306 on a ring frame that its lane receives: 0, or its cause. -/
def ringCause (s : State) (l : Lane) (f : Frame) : Nat :=
  let k := curRound s
  let own := ownerOf s f.round f.dyn f.index
  if !frankOk s l f then 5
  else if !typeOk f (own.map (·.kind)) then 6
  else if f.round > k || f.round + regF s 0x9020 11 8 < k then 7
  else if own.all (fun e => e.node != f.node) then 9
  else 0

/-- A ring frame handed to the lane of its CH, which passes it on (R304, R306). -/
def ringToLane (port : Nat) (f : Frame) (tEnd : Int) (s : State) : State :=
  let l := chLane f.ch
  if !rctRound s l || !(isJoined s || f.timed) then s
  else
    let c := ringCause s l f
    if c ≠ 0 then deadLetter port c f.node s else shareFrame l f tEnd true s

/-- RING_FRAME_RECEIVE: checked, handed to its lane, removed after its circuit or queued for the other port (R304). -/
def execRingFrameReceive (f : FrameRx) (s : State) : Host.Outcome State Fault Refusal :=
  let s := atTime f.tEnd s
  let g := parseFrame f.bytes
  if !rswLive s || (f.port ≠ 2 && f.port ≠ 3) then settle s
  else if !(heardRx s f).codeOk then settle (deadLetter f.port 1 g.node s)
  else if !lengthOk s g then settle (deadLetter f.port 3 g.node s)
  else if !g.crcOk then settle (deadLetter f.port 4 g.node s)
  else if !g.ring then settle (deadLetter f.port 8 g.node s)
  else
    let own := g.node = nodeId s
    let s := if own then s else ringToLane f.port g f.tEnd s
    if own && f.port = 2 then settle (bump (0xAC00 + 4) s) else settle (ringQueue (f.port = 2) f.bytes s)

/-- RING_FRAME_SEND: the frame at the head of a queue leaves, or is dropped when its ROUND is older than LAG allows (R304). -/
def execRingFrameSend (t : Int) (dir : RingDir) (s : State) : Host.Outcome State Fault Refusal :=
  let s := atTime t s
  let r := s.net.ring
  let to3 := dir == .towardRp3
  let o := 0xAC00 + 0x100 * (if to3 then 0 else 1)
  if !rswLive s || (if to3 then r.rp3Broken else r.rp2Broken) then settle s
  else
    match if to3 then r.q3 else r.q2 with
    | [] => settle s
    | b :: q =>
      let s := { s with net := { s.net with ring := if to3 then { r with q3 := q } else { r with q2 := q } } }
      let f := parseFrame b
      if f.round + regF s 0x9020 11 8 < curRound s then settle (bump (o + 8) s)
      else
        let s := if f.node = nodeId s then s else bump o s
        let p := if to3 then 3 else 2
        settle { s with out := s.out ++ [.frame p t b], net := { s.net with tx := tput none p (some (frameSpan t b)) s.net.tx } }

/-- A ring port breaks: recorded and counted; what is queued for it goes out of the other (R305). -/
def ringBreak (rp3 : Bool) (s : State) : State :=
  let r := s.net.ring
  if !rswLive s || (if rp3 then r.rp3Broken else r.rp2Broken) then s
  else
    let s := bump (0xAC00 + 0x100 * (if rp3 then 0 else 1) + 12) (note evRingPort .ring 0 (w32 (if rp3 then 3 else 2)) 1 0 s)
    let r' := if rp3 then { r with rp3Broken := true } else { r with rp2Broken := true }
    let r' := if rp3 then (if r.rp2Broken then r' else { r' with q2 := r.q2 ++ r.q3, q3 := [] })
      else (if r.rp3Broken then r' else { r' with q3 := r.q3 ++ r.q2, q2 := [] })
    { s with net := { s.net with ring := r' } }

/-- RING_PORT_BREAK (R305). -/
def execRingPortBreak (t : Int) (rp3 : Bool) (s : State) : Host.Outcome State Fault Refusal := settle (ringBreak rp3 (atTime t s))

/-- RING_PORT_RETURN after 1 ms of clean /I2/ (R305). -/
def execRingPortReturn (t : Int) (rp3 : Bool) (s : State) : Host.Outcome State Fault Refusal :=
  let s := atTime t s
  let r := s.net.ring
  if !rswLive s || !(if rp3 then r.rp3Broken else r.rp2Broken) then settle s
  else
    let s := note evRingPort .ring 0 (w32 (if rp3 then 3 else 2)) 0 0 s
    settle { s with net := { s.net with ring := if rp3 then { r with rp3Broken := false } else { r with rp2Broken := false } } }

/-- RP_LOS: the port's receiver has lost sync, which breaks a ring port (R305, R465) and loses a frame in arrival (R484). -/
def execRpLos (t : Int) (port : Fin 6) (s : State) : Host.Outcome State Fault Refusal :=
  let s := atTime t s
  let s := { s with net := { s.net with los := tput none port.val (some t) s.net.los } }
  if port.val = 2 then settle (ringBreak false s) else if port.val = 3 then settle (ringBreak true s) else settle s

end Sys2Proof.Machine
end

