-- ==== Sys2Proof/Machine/RegWrite.lean ====
section
/-!
DEFINITION. Machine/RegWrite.lean: writes through BAR0 (20_register_map.md, R448 to R462; R5 to R8): which access code a word has, the rule of its
fields, what a multi-word register waits for, which lane takes it, and what taking effect brings.
-/
namespace Sys2Proof.Machine

/-! ## Where a word lies (R448) -/

/-- The domain that answers for an offset, the lead lane's for the lane blocks (R448, R452). -/
def wordDom (s : State) (off : Nat) : Dom := domAt s s.lcm.lead.dom off

/-- The block code of an offset in its domain (table "Record sources", R428; of AON's words in port blocks the port block's code). -/
def offBlock (off : Nat) : Nat :=
  match off / 0x1000 with
  | 5 => if off % 0x1000 ≥ 0x800 && off % 0x1000 < 0xB00 then 3 else 5
  | 6 => 0 | 7 => 1 | 8 => 2 | 9 => 3 | 10 => 0 | 11 => 0 | 12 => 0 | 13 => 1 | 14 => 1 | 15 => 2 | 16 => 3 | 17 => 4 | 18 => 2
  | n => n

/-- A write ignored at an offset (R434). -/
def ignoreAt (off : Nat) (v : Word) (reason : Nat) (s : State) : State := ignoreWrite (wordDom s off) (offBlock off) off v reason s

/-- The offsets of a register's words, from the row and offset of one of them (R450). -/
def regWords (r : RegRow) (off : Nat) : List Nat := (List.range r.len).map (fun k => off - 4 * r.word + 4 * k)

/-! ## The rules of the fields -/

/-- Whether a number lies in a range. -/
def within (lo hi x : Nat) : Bool := lo ≤ x && x ≤ hi

/-- The reason of a write that breaks its field's rule (0, R434). -/
def unlessRange (ok : Bool) : Option Nat := if ok then none else some 0

/-- The reason of a write to an object that is enabled, active or locked (1, R434). -/
def unlessFree (ok : Bool) : Option Nat := if ok then none else some 1

/-- Whether a port is stopped (R52). -/
def portIdle (s : State) (p : Port) : Bool := (s.stg.port p).run = 0

/-- The port of an offset in a port block. -/
def offPort (off : Nat) : Port := if off % 0x1000 / 0x400 = 0 then .p0 else .p1

/-- Whether both converters of a port are DOWN or RETIRED. -/
def convIdle (s : State) (p : Port) : Bool :=
  let c := (s.clr.port p).conv
  (c.a.st = 0 || c.a.st = 4) && (c.b.st = 0 || c.b.st = 4)

/-- CLR_CFGn (table "Ingest parameters"). -/
def clrCfgRule (s : State) (off : Nat) (v : Word) : Option Nat :=
  let p := offPort off
  let old := reg s off
  let ok := within 1 8 (fld v 27 24) && within 1 3 (fld v 17 16) && within 12 16 (fld v 8 4) && (!bitOf v 12 || fld v 8 4 ≤ 15)
  let shape := fld v 8 0 != fld old 8 0 || bitOf v 12 != bitOf old 12
  if !ok then some 0
  else unlessFree ((!shape || (portIdle s p && convIdle s p)) && (fld v 27 24 = fld old 27 24 || portIdle s p))

/-- SIN_MARKSn with its second word as given (R69). -/
def marksRule (s : State) (off : Nat) (v : Word) : Option Nat :=
  let w0 := regStored s (off - 4)
  let hy := fld v 26 16
  unlessRange (within 64 1024 hy && hy + 64 ≤ fld w0 11 0 && fld w0 11 0 + hy + 64 ≤ fld w0 27 16 && fld w0 27 16 + hy + 64 ≤ fld v 11 0
    && fld v 11 0 ≤ 3840)

/-- The instance of an offset in the FCH block. -/
def offFch (off : Nat) : Fch := match off % 0x1000 / 0x400 with | 0 => .f0 | 1 => .f1 | _ => .field

/-- The FCH words: the staged M (R98, R241), the banks (R112), the output period (R108, R347). -/
def fchRule (s : State) (off : Nat) (v : Word) : Option Nat :=
  let i := offFch off
  let x := fchOf s i
  let o := off % 0x400
  if o = 0 then
    if i == .field && portHeads s 2 != [] then unlessRange (within 2 12 (fld v 4 0)) else unlessRange (within 1 16 (fld v 4 0))
  else if 0x100 ≤ o && o < 0x300 then unlessFree (!active s i.dom || (x.swap.isNone && x.bankB != (o ≥ 0x200 : Bool)))
  else if o = 0x20 && i != .field then
    let al := bitOf (reg s (off - 4)) 0
    unlessRange (loadOk s i al (reg s (off - 8)).toNat v.toNat [] && (!al || periodInRange s i v.toNat))
  else none

/-- The port blocks' words. -/
def portRule (s : State) (off : Nat) (v : Word) : Option Nat :=
  let o := off % 0x400
  match off / 0x1000 with
  | 0 =>
    if off = 0x800 then
      if 2 < fld v 1 0 then some 0 else unlessFree (v = reg s off || (portIdle s .p0 && portIdle s .p1))
    else if o = 0x10 then unlessRange (within 14000 15000 (fld v 13 0))
    else if o = 4 then unlessRange (within 64 30720 (fld v 14 0))
    else if o = 0x14 || o = 0x18 then unlessRange ((List.range 4).all (fun j => within 10 200 (fld v (8 * j + 7) (8 * j))))
    else none
  | 1 =>
    if off = 0x1800 then unlessRange (1 ≤ fld v 7 0)
    else if o = 0 then clrCfgRule s off v
    else unlessFree (v = reg s off || portIdle s (offPort off))
  | 2 => if o = 4 then marksRule s off v else none
  | 4 =>
    if o = 0 then unlessRange (within 1 16 (fld v 4 0))
    else if o = 4 then unlessRange (1 ≤ v.toNat)
    else if o = 0xC then unlessRange (4096 ≤ fld v 14 0)
    else if o = 0x10 then unlessRange (((s.stg.port (offPort off)).plan.filter (fun _ => !portIdle s (offPort off))).all (fun q => decide (fld v 2 0 < q.groups)))
    else none
  | 5 => fchRule s off v
  | _ => none

/-- A round layout is valid (R252). -/
def layoutOk (w0 w1 : Word) : Bool :=
  let len := fld w0 13 0
  let n := fld w0 25 16
  let sl := fld w1 20 16
  within 250 10000 len && within 2 1023 n && within 4 20 sl && within 20 200 (fld w1 31 24) && n * sl + fld w1 12 0 + 40 ≤ len

/-- The keys that RCT_KEYS names while PROVISIONED: TX_GEN in RX_MASK, every slot named loaded (R387). -/
def keysRule (s : State) (v : Word) : Option Nat :=
  let mask := fld v 7 4
  unlessRange (s.sec.lifecycle != 2
    || (mask.testBit (fld v 1 0) && (List.range 4).all (fun j => !mask.testBit j || slotLoaded s (j + 1))))

/-- The RCT's words: the round parameters and roles only while not joined (R253, R279). -/
def rctRule (s : State) (off : Nat) (v : Word) : Option Nat :=
  let old := reg s off
  let free := !isJoined s
  let ifBusOk := fun (_ : Unit) =>
    let w := fun (k : Nat) => if off = 0x9028 + 4 * k then v else regStored s (0x9028 + 4 * k)
    unlessRange (fld (w 0) 1 0 ≤ 2 && within 1 1000 (fld (w 0) 25 16) && (List.range 4).all (fun i => fld (w (i + 1)) 7 0 ≤ 254))
  match off with
  | 0x9004 => if 254 < fld v 7 0 then some 0 else unlessFree (v = old || free)
  | 0x9008 => unlessFree (v = old || free)
  | 0x900C => if !(v = old || free) then some 1 else unlessRange (layoutOk (regStored s 0x9008) v)
  | 0x9010 => unlessFree (v = old || free)
  | 0x9014 =>
    if !(fld v 13 12 ≤ 2 && within 1 254 (fld v 23 16) && within 1 16 (fld v 4 0)) then some 0
    else unlessFree (free || (fld v 13 12 = fld old 13 12 && fld v 23 16 = fld old 23 16))
  | 0x9018 => keysRule s v
  | 0x901C =>
    if !(within 1 500 (fld v 24 16)) then some 0
    else unlessFree (free || (bitOf v 0 == bitOf old 0 && bitOf v 2 == bitOf old 2))
  | 0x9020 => unlessRange (fld v 1 0 ≤ 2 && within 1 8 (fld v 11 8))
  | 0x9024 => unlessRange (within 50 400 (fld v 8 0))
  | 0x9038 => ifBusOk ()
  | _ => none

/-- The lane blocks' words. -/
def laneRule (s : State) (off : Nat) (v : Word) : Option Nat :=
  match off with
  | 0x6000 => unlessRange (within 1 16 (fld v 20 16))
  | 0x6004 => unlessRange (within 1 16 (fld v 20 16))
  | 0x6010 => unlessRange (fld v 7 0 ≤ 168)
  | 0x7000 => unlessRange (within 8 250 (fld v 7 0) && fld v 21 8 ≤ 10000 && within 1 100 (fld v 28 22))
  | 0x7004 => unlessRange (within 1 250 (fld v 7 0) && within 100 60000 (fld v 31 16))
  | 0x7010 => unlessRange (within 1 64 (fld v 6 0))
  | 0x8000 => unlessRange (within 16 1024 (fld v 26 16))
  | _ => rctRule s off v

/-- The LHF's words beside LHF_EXCs and LHF_CTLs (table of LHF parameters, R219). -/
def fieldRule (s : State) (off : Nat) (v : Word) : Option Nat :=
  if off = 0xB084 then
    let w0 := regStored s 0xB080
    unlessRange (within 8 20 (fld w0 20 16) && within 1 16384 (fld w0 14 0) && within 1 16384 (fld v 14 0))
  else if 0xB100 ≤ off && off < 0xB180 then
    let o := signed (fld v 15 0) 16
    unlessRange (within 0x3800 0x4800 (fld v 31 16) && -1024 ≤ o && o ≤ 1024)
  else none

/-- The host blocks' words that the HRE and HSC take as they come. -/
def hostRule (s : State) (off : Nat) (v : Word) : Option Nat :=
  let ringBase := 0xC040 ≤ off && off < 0xC110
  if off = 0xC008 || off = 0xC00C then unlessFree (v = reg s off || !hreRun s)
  else if off = 0xC014 then unlessRange (within 1 1000 (fld v 9 0))
  else if off = 0xC018 then unlessRange (fld v 13 0 ≤ 10000)
  else if off = 0xC028 then
    unlessFree (!bitOf (reg s 0xC020) 0 || (v = reg s off && regStored s 0xC024 = reg s 0xC024))
  else if off = 0xC02C then unlessFree (v = reg s off || !ringEn s 10)
  else if ringBase then unlessFree (!ringEn s ((off - 0xC040) / 16))
  else if 0xC110 ≤ off && off < 0xC130 then unlessRange (fld v 25 16 ≤ 1000)
  else if 0xC180 ≤ off && off < 0xC1B8 then unlessRange (1 ≤ fld v 15 0)
  else if 0xD000 ≤ off && off < 0xD400 then unlessFree (!(regionOf s.hsc ((off - 0xD000) / 0x40)).en)
  else if 0xD400 ≤ off && off < 0xD500 then
    let d := (off - 0xD400) / 16
    let keep := if off % 16 = 0 then setBit v 0 false = setBit (reg s off) 0 false else v = reg s off
    unlessFree (!(defOf s d).en || keep)
  else none

/-- The AON blocks' words. -/
def aonRule (off : Nat) (v : Word) : Option Nat :=
  match off with
  | 0xE000 => unlessRange (within 100 520 (fld v 9 0) && within 70 105 (fld v 22 16))
  | 0xE004 => unlessRange (within 10 10000 (fld v 13 0))
  | 0x10000 => unlessRange (fld v 3 0 ≤ fld v 11 8)
  | _ => none

/-- Why a write of a word is ignored, if it is (R434). -/
def wordRule (s : State) (off : Nat) (v : Word) : Option Nat :=
  if off < 0x6000 then portRule s off v
  else if off < 0xA000 then laneRule s off v
  else if off < 0xC000 then fieldRule s off v
  else if off < 0xE000 then hostRule s off v
  else aonRule off v

/-! ## Lane copies (R452) -/

/-- Whether a lane takes register writes: not while fail-silent, retired, HELD, or in re-admission before step 4 (R201, R452). -/
def laneGets (s : State) (l : Lane) : Bool :=
  active s l.dom && (s.lcm.cond.lane l == .serving || (s.lcm.readm.lane l).any (fun r => 4 ≤ r.step))

/-- A lane's copy of a word at its write: kept as it was where the lane takes no writes. -/
def laneCopy (s0 : State) (l : Lane) (off : Nat) (t : Tab (Option Word)) : Tab (Option Word) :=
  if laneGets s0 l then tput none off none t
  else if (tget none off t).isSome then t
  else tput none off (some (reg s0 off)) t

/-- The lane copies of the words of a register that takes effect; `s0` is the state before. -/
def laneCopies (s0 : State) (offs : List Nat) (s : State) : State :=
  offs.foldl (fun s off =>
    if 0x6000 ≤ off && off < 0xA000 then
      { s with regs := { s.regs with laneX := laneCopy s0 .x off s.regs.laneX, laneY := laneCopy s0 .y off s.regs.laneY } }
    else s) s

/-! ## What taking effect brings -/

/-- The ranges of FIELD's channels after a write of LHF_RUSE: fault 7 where none is usable; only LEGACY_CAL clears it (R238, R247). -/
def ruseTaken (s : State) : State :=
  if !s.lhf.on then s
  else (List.range 8).foldl (fun s n => if usableRanges s n = [] then setFault n 7 0 s else s) s

/-- A change of STRn's definition: the buffer in progress completes with END (table "Stream and history parameters"). -/
def strSelTaken (n : Nat) (old v : Word) (s : State) : State :=
  if fld old 3 0 = fld v 3 0 then s
  else
    let b : Block := { d := fld old 3 0, bytes := [], k := 0, time := 0, lt := false, n := 0 }
    { s with hsc := { s.hsc with strq := tput [] n (tget [] n s.hsc.strq ++ [b]) s.hsc.strq } }

/-- What a register word that takes effect brings beyond its new value. -/
def wordTaken (off : Nat) (old v : Word) (s : State) : State :=
  if off = 0x4004 || off = 0x4404 then
    mapStg (offPort off) (fun x => { x with gauge := x.gauge.map (fun g => { g with scale := v.toNat }) }) s
  else if off = 0x5020 || off = 0x5420 then mapFch (offFch off) (fun x => { x with rsDue := x.rsOn || x.rsDue }) s
  else if off = 0x9018 then
    if s.sec.lifecycle = 2 then { s with sec := { s.sec with keysWait := some (fld v 1 0, fld v 7 4) } } else s
  else if off = 0x9020 then refloor .ring s
  else if off = 0x9038 then refloor .field s
  else if off = 0xB180 then ruseTaken s
  else if 0xC110 ≤ off && off < 0xC130 then strSelTaken ((off - 0xC110) / 4) old v s
  else if 0x12000 ≤ off && off < 0x12200 && off % 16 = 12 then vecRelease s
  else s

/-! ## Writing (R5, R6, R415, R450, R451) -/

/-- A lower word of a multi-word register: stored, the value in force kept until the highest word is written (R450). -/
def holdWord (off : Nat) (s : State) : State :=
  { s with regs := { s.regs with held := tput none off (some (reg s off)) s.regs.held } }

/-- A word stored by its access code: an RW word in its block, an RWP or RWS word through the PST (R5, R415). -/
def storeWord (r : RegRow) (off : Nat) (v : Word) (s : State) : State :=
  if r.persistent then pstArrive off (pregWord off) v s else setRw off v s

/-- A word stored, and its register in force where it is the highest one (R450). -/
def takeWord (r : RegRow) (off : Nat) (v : Word) (s : State) : State :=
  if r.word + 1 < r.len then storeWord r off v (holdWord off s)
  else
    let offs := regWords r off
    wordTaken off (reg s off) v (laneCopies s offs (release offs (storeWord r off v s)))

/-- A word stored where its rule allows it. -/
def ruledWrite (r : RegRow) (off : Nat) (v : Word) (s : State) : State :=
  match wordRule s off v with
  | some reason => ignoreAt off v reason s
  | none => takeWord r off v s

/-- An RW word (R451): discarded while its domain is not ACTIVE; the ROM address registers name their domain themselves. -/
def rwWrite (r : RegRow) (off : Nat) (v : Word) (s : State) : State :=
  let d := match off with
    | 0x3000 => if bitOf v 16 then Dom.port1 else .port0
    | 0x5B00 => if bitOf v 16 then Dom.port1 else .port0
    | _ => wordDom s off
  if !active s d then hreDiscard s
  else if off = 0xC000 then ctlRun (bitOf v 0) s
  else if 0xC040 ≤ off && off < 0xC110 && off % 16 = 8 then ringWrite ((off - 0xC040) / 16) v s
  else if off = 0x5014 || off = 0x5414 || off = 0x5814 then armSync (offFch off) v s
  else if 0xD000 ≤ off && off < 0xD400 && off % 0x40 = 0x10 then regionTake ((off - 0xD000) / 0x40) v s
  else if 0xD400 ≤ off && off < 0xD500 && off % 16 = 8 then
    match wordRule s off v with
    | some reason => ignoreAt off v reason s
    | none => sdefTake ((off - 0xD400) / 16) (regStored s (off - 8)) v s
  else ruledWrite r off v s

/-- An RWP word, or an RWS word before SEALED (R5, R415). -/
def persistWrite (r : RegRow) (off : Nat) (v : Word) (s : State) : State :=
  if !lands s (pregWord off) then pstArrive off (pregWord off) v s
  else if off = 0x501C || off = 0x541C || off = 0x581C then rsmpWrite (offFch off) v s
  else if 0xB000 ≤ off && off < 0xB080 && off % 16 < 8 then excitationWrite ((off - 0xB000) / 16) (off % 16 == 4) v s
  else if off = 0xE00C then domctlOff v s
  else ruledWrite r off v s

/-- An RWS write once SEALED: discarded and recorded (R8). -/
def rwsDiscard (off : Nat) (v : Word) (s : State) : State :=
  vecItem 13 (note evRwsDiscarded (wordDom s off) (offBlock off) (w32 off) v 0 s)

/-- A write through the table window (R415, R423). -/
def tableWrite (w : Nat) (v : Word) (s : State) : State :=
  let k := if bitOf (reg s 0xF000) 0 then Bank.b else .a
  let st := match k with | .a => s.pst.bankA | .b => s.pst.bankB
  if lands s (bankBase k + w) && st != .inactive then ignoreWrite .aon 2 (0x40000 + 4 * w) v 1 s
  else pstArrive (0x40000 + 4 * w) (bankBase k + w) v s

/-- A 32-bit write at an aligned BAR0 offset: bits without a field are dropped (R6, R449). -/
def regWrite (off : Nat) (value : Word) (s : State) : State :=
  if 0x40000 ≤ off && off < 0x78000 then tableWrite ((off - 0x40000) / 4) value s
  else
    match rowAt off with
    | none => s
    | some r =>
      let v := w32 (value.toNat &&& r.mask)
      match r.acc with
      | .ro => s
      | .wo => knockHre s
      | .rw => rwWrite r off v s
      | .rwp => if off = 0xE00C then domctlRestart (fld value 19 16) (persistWrite r off v s) else persistWrite r off v s
      | .rws => if 3 ≤ s.sec.lifecycle then rwsDiscard off v s else persistWrite r off v s

/-- A BAR0 write as PCIe brings it: one that is no aligned 32-bit access has no effect (R449). -/
def barWrite (off : Nat) (aligned : Bool) (value : Word) (s : State) : State :=
  if !active s .host then s
  else if !aligned || off % 4 != 0 then hreDiscard s
  else regWrite off value s

/-- The size of BAR0 in bytes (R309). -/
def barBytes : Nat := 0x100000

/-- REGISTER_WRITE (R5). -/
def execRegisterWrite (t : Int) (off : Nat) (aligned : Bool) (value : Word) (s : State) : Host.Outcome State Fault Refusal :=
  if off < barBytes then settle (barWrite off aligned value (atTime t s)) else .fault .noAddress

/-- RWP_WRITE (R415). -/
def execRwpWrite (t : Int) (off : Nat) (value : Word) (s : State) : Host.Outcome State Fault Refusal :=
  if off < barBytes then settle (barWrite off true value (atTime t s)) else .fault .noAddress

/-- TABLE_WINDOW_WRITE (R423). -/
def execTableWindowWrite (t : Int) (word : Nat) (value : Word) (s : State) : Host.Outcome State Fault Refusal :=
  if word < 57344 then settle (barWrite (0x40000 + 4 * word) true value (atTime t s)) else .fault .noAddress

end Sys2Proof.Machine
end

