-- ==== Sys2Proof/Machine/RegRead.lean ====
section
/-!
DEFINITION. Machine/RegRead.lean: reads through BAR0 (R5, R417, R448 to R461): the status registers as the state gives them, ROM windows, counter
windows that clear, the latch of multi-word registers.
-/
namespace Sys2Proof.Machine

/-! ## Status registers of the ports (R454) -/

/-- A word of flags: bit i from entry i. -/
def flagWord (l : List Bool) : Nat := (List.range l.length).foldl (fun a i => a + b2n (nth false l i) * 2 ^ i) 0

/-- STG_STATn. -/
def stgStat (s : State) (p : Port) : Word :=
  let x := s.stg.port p
  let lit := (x.plan.map (fun q => q.en % 2 ^ q.groups)).getD 0
  let ret := x.retunes.foldl (fun m r => m ||| 2 ^ r.group) 0
  w32 (65536 * lit + 256 * ret + 4 * b2n x.apply.isSome + x.run)

/-- STG_REFSTAT. -/
def refStat (s : State) : Word :=
  let r := s.refs
  w32 (flagWord [r.sel == some .b, r.aAvail, r.bAvail, r.pcie, r.holdover, r.disagree])

/-- CLR_STATn. -/
def clrStat (s : State) (p : Port) : Word :=
  let c := s.clr.port p
  w32 (256 * b2n c.grid.isSome + 16 * c.conv.b.st + c.conv.a.st)

/-- SIN_STATn: the highest shedding step in force, and F. -/
def sinStat (s : State) (p : Port) : Word :=
  let x := s.sin.port p
  let step := if x.lost != [] then 4 else if x.step3 then 3 else if x.step2 then 2 else b2n x.step1
  w32 (65536 * step + x.fill)

/-- PHX_STATn: G_ACTIVE reads 4 where no plan has been in force. -/
def phxStat (s : State) (p : Port) : Word :=
  let x := s.stg.port p
  w32 (256 * b2n x.gauge.isSome + (x.plan.map (·.gauge)).getD 4)

/-- FCH_STATn. -/
def fchStat (s : State) (i : Fch) : Word :=
  let x := fchOf s i
  w32 (flagWord [x.bankB, x.swap.isSome, x.syncs != []])

/-- The word of the channeliser ROM at an address, where it has one (R76, R454). -/
def schRom (a : Nat) : Option Word :=
  if a < 200 then some (w32 (schH a).toNat)
  else if a < 1800 then
    let k := (a - 200) / 200
    let i := (a - 200) % 200
    some (halves (schCq k i).toNat (schCi k i).toNat)
  else if a = 1800 then some (Config.romCrc 0) else none

/-- The word of the resampler ROM at an address (R106, R454). -/
def fchRom (a : Nat) : Option Word :=
  if a < 512 then some (w32 (lo16 (hrCoef (a / 8) (a % 8)))) else if a = 512 then some (Config.romCrc 1) else none

/-- The word of the demodulator ROM at an address, sign-extended (R240, R456). -/
def lhfRom (a : Nat) : Option Word :=
  if a < 4096 then some (w32i (cosTab a))
  else if a < 8192 then some (w32i (sinTab (a - 4096)))
  else if a < 8281 then some (w32i (winAt (a - 8192)))
  else if a = 8281 then some (Config.romCrc 2) else none

/-! ## Status registers of the lanes, RING and FIELD (R455, R456) -/

/-- LCM_STATUS. -/
def lcmStatus (s : State) : Word :=
  let c := s.lcm
  let step := ((c.readm.a.orElse (fun _ => c.readm.b)).map (·.step)).getD 0
  w32 (16777216 * min c.mismatch 255 + 65536 * step + 256 * b2n (serving s .x != serving s .y) + 128 * b2n (c.comp.lane c.lead).uncomp
    + 64 * c.lead.num + 16 * c.cond.b.code + 4 * c.cond.a.code)

/-- Word k of RCT_STATX or RCT_STATY. -/
def rctStat (s : State) (l : Lane) (k : Nat) : Word :=
  let x := s.net.rct.lane l
  match k with
  | 0 => w32 (256 * x.master + 16 * b2n x.silent + x.st)
  | 1 => w32 ((loopOf x.loops).getD 0)
  | 2 => w32i x.rho
  | 3 => (x.d.map w32i).getD 0x80000000
  | 4 => lo32 (curRound s)
  | _ => hi32 (curRound s)

/-- RSW_STAT: loop-back is in force while exactly one ring port is broken (R305). -/
def rswStat (s : State) : Word :=
  let n := s.net
  let blocked := flagWord (n.rdg.branches.map (fun b => b.blocked.isSome))
  w32 (65536 * b2n n.rdg.sched + 256 * blocked + 4 * b2n (n.ring.rp2Broken != n.ring.rp3Broken) + 2 * b2n n.ring.rp3Broken
    + b2n n.ring.rp2Broken)

/-- Word k of LHF_STAT. -/
def lhfStat (s : State) (k : Nat) : Word :=
  let x := s.lhf
  let faults := fun (n : Nat) => flagWord (nth LSys.reset x.sys n).faults
  let four := fun (a : Nat) => w32 (faults a + 256 * faults (a + 1) + 65536 * faults (a + 2) + 16777216 * faults (a + 3))
  match k with
  | 0 => halves (lo16 x.temp) x.vin
  | 1 => halves ((x.ref1 % 4096).toNat) ((x.ref0 % 4096).toNat)
  | 10 => four 0
  | 11 => four 4
  | k => (nth LSys.reset x.sys (k - 2)).q

/-! ## Status registers of HOST and AON (R457, R458) -/

/-- Words w5 to w9 of HSC_REGk, j from 0. -/
def regionStat (s : State) (k j : Nat) : Word :=
  let r := regionOf s.hsc k
  match j with
  | 0 => w32 (r.wptr / 256)
  | 1 => w32 r.wraps
  | 2 => w32 r.shed
  | 3 => lo32 r.heldAt
  | _ => hi32 r.heldAt

/-- Word k of BSC_STAT. -/
def bscStat (s : State) (k : Nat) : Word :=
  match k with
  | 0 => w32 (256 * leanBits s.bsc + s.bsc.power.code)
  | 8 => w32i s.bsc.iAvg
  | 9 => w32i s.bsc.tj
  | k =>
    let d := s.dom.get (nth Dom.aon allDoms k)
    w32 (256 * d.floor + 16 * d.band + d.st.code)

/-- The highest gauge of the pages from a to before b (R413, R458). -/
def gaugeMax (p : PstSt) (a b : Nat) : Nat := nmax ((p.gauge.filter (fun e => a ≤ e.1 && e.1 < b)).map (·.2))

/-- Word k of PST_STAT. -/
def pstStat (s : State) (k : Nat) : Word :=
  let p := s.pst
  match k with
  | 0 => w32 (32 * b2n p.committed.isSome + 16 * b2n (p.committed == some .b) + 4 * p.bankB.code + p.bankA.code)
  | 1 => p.committedGen
  | 2 => w32 (gaugeMax p 0 64)
  | 3 => w32 (gaugeMax p 64 1856)
  | 4 => w32 (gaugeMax p 1856 2112)
  | _ => w32 (gaugeMax p 2112 4096)

/-- Word k of ERC_STAT. -/
def ercStat (s : State) (k : Nat) : Word :=
  let e := s.erc
  match k with
  | 0 => w32 e.w
  | 1 => w32 (max e.oldest (e.w - 15872))
  | 2 => w32 e.archSlot
  | 3 => w32 (65536 * b2n e.frozen + e.queued % 2048)
  | k => w32 (tget 0 (k - 3) e.dropped)

/-- Word k of SEC_STAT: LOCKOUT in whole seconds, rounded up. -/
def secStat (s : State) (k : Nat) : Word :=
  let x := s.sec
  match k with
  | 0 => w32 (65536 * (x.fdCount % 256) + 1024 * x.target.num + 256 * x.level + x.lifecycle)
  | 1 => w32 ((x.lockUntil.map (fun u => (max 0 (cdiv (u - s.now) 1000000000)).toNat)).getD 0)
  | _ => w32 ((List.range 5).foldl (fun a j => a + (slotOf x j).status * 4 ^ j) 0)

/-- SEC_KCVj: the key check value of a loaded slot, else 0 (R384). -/
def secKcv (s : State) (j : Nat) : Word := let k := slotOf s.sec j; if k.status = 1 then keyCheck k.key else 0

/-- An MSI-X pending-bit word (R333, R448). -/
def pbaWord (s : State) (k : Nat) : Word := w32 (flagWord ((List.range 32).map (fun i => tget false (32 * k + i) s.hre.vecPend)))

/-- An RO word as it now is; none where the spec gives no content (a ROM address beyond the ROM). -/
def roWord (s : State) (off : Nat) : Option Word :=
  let p := offPort off
  let o := off % 0x400
  match off / 0x1000 with
  | 0 =>
    if off = 0x804 then some (refStat s)
    else
      match o with
      | 0x20 => some (stgStat s p)
      | 0x28 => some (lo32 ((s.stg.port p).last.getD 0))
      | 0x2C => some (hi32 ((s.stg.port p).last.getD 0))
      | 0x30 => some (lo32 (s.stg.port p).t0)
      | _ => some (hi32 (s.stg.port p).t0)
  | 1 => some (clrStat s p)
  | 2 => some (sinStat s p)
  | 3 => schRom (regF s 0x3000 10 0)
  | 4 => some (phxStat s p)
  | 5 => if off = 0x5B04 then fchRom (regF s 0x5B00 9 0) else some (fchStat s (offFch off))
  | 7 => some (w32 (4194304 * (s.sld.lane s.lcm.lead).twin + 256 * (s.sld.lane s.lcm.lead).orderTol))
  | 8 => some (lcmStatus s)
  | 9 => some (rctStat s (if off < 0x9140 then .x else .y) (off % 0x40 / 4))
  | 10 => some (rswStat s)
  | 11 => if off = 0xB1C4 then lhfRom (regF s 0xB1C0 13 0) else some (lhfStat s ((off - 0xB190) / 4))
  | 12 => some (w32 (s.sec.cLast + 1))
  | 13 =>
    if off = 0xD500 then some (w32 (tget 0 0xDC00 s.ctr))
    else if off = 0xD504 then some (w32 (tget 0 0xDC04 s.ctr))
    else some (regionStat s ((off - 0xD000) / 0x40) ((off % 0x40 - 0x14) / 4))
  | 14 => some (bscStat s ((off - 0xE010) / 4))
  | 15 => if off = 0xF00C then some (w32 (gaugeOf s.pst (regF s 0xF008 11 0))) else some (pstStat s ((off - 0xF010) / 4))
  | 16 => some (ercStat s ((off - 0x10004) / 4))
  | 17 =>
    if off < 0x11010 then some (secStat s ((off - 0x11000) / 4))
    else if off = 0x11010 then some (lo32 (Config.uid.toNat : Int))
    else if off = 0x11014 then some (hi32 (Config.uid.toNat : Int))
    else if off < 0x11060 then some (pubkeyWord ((off - 0x11020) / 4))
    else some (secKcv s ((off - 0x11060) / 4))
  | _ => some (pbaWord s ((off - 0x12800) / 4))

/-! ## Counter windows (R459) -/

/-- The counter windows: base, instances, stride, words. -/
def ctrWindows : List (Nat × Nat × Nat × Nat) :=
  [(0x1C00, 2, 0x100, 4), (0x2C00, 2, 0x100, 13), (0x4C00, 2, 0x100, 5), (0x5C00, 3, 0x100, 8), (0x6C00, 2, 0x100, 2), (0x7C00, 2, 0x100, 2),
   (0x8C00, 2, 0x100, 5), (0x9C00, 2, 0x100, 7), (0x9E00, 7, 0x40, 5), (0xAC00, 2, 0x100, 5), (0xAE00, 1, 0x100, 18), (0xBC00, 8, 0x60, 17),
   (0xBF00, 1, 0x100, 4), (0xCC00, 1, 0x100, 35), (0xDC00, 1, 0x100, 5), (0xEC00, 1, 0x100, 35), (0x11C00, 1, 0x100, 12)]

/-- Whether an offset holds a counter word. -/
def isCounter (off : Nat) : Bool :=
  ctrWindows.any (fun w => w.1 ≤ off && off < w.1 + w.2.1 * w.2.2.1 && (off - w.1) % w.2.2.1 < 4 * w.2.2.2 && off % 4 = 0)

/-- A counter word read: returned and cleared; 0 while its domain is not ACTIVE (R451, R459). -/
def counterTake (off : Nat) (s : State) : Word × State :=
  if !active s (ctrDom s off) then (0, s) else (w32 (tget 0 off s.ctr), { s with ctr := tput 0 off 0 s.ctr })

/-! ## Reading -/

/-- The word that an RO offset reads as, a free value where the spec gives no content. -/
def roRead (off : Nat) (s : State) : Word × State :=
  match roWord s off with
  | some w => (w, s)
  | none => draw s

/-- What reading a word that clears on read takes away: n, no event that came later (R7, R457, R458). -/
def clearRead (off n : Nat) (s : State) : State :=
  let sub := fun (k : Nat) (t : Tab Nat) => tput 0 k (tget 0 k t - n) t
  if off = 0xD500 then { s with ctr := sub 0xDC00 s.ctr }
  else if off = 0xD504 then { s with ctr := sub 0xDC04 s.ctr }
  else if 0x10014 ≤ off && off ≤ 0x10034 then { s with erc := { s.erc with dropped := sub ((off - 0x10004) / 4 - 3) s.erc.dropped } }
  else s

/-- A latched word read: what a word that clears on read takes away goes with the first read of the latch alone (R7, R450). -/
def clearLatched (off : Nat) (s : State) : State :=
  clearRead off (tget 0 off s.regs.owed) { s with regs := { s.regs with owed := tput 0 off 0 s.regs.owed } }

/-- The higher words of a multi-word RO register latched at the read of its lowest (R450). -/
def latchWords (r : RegRow) (off : Nat) (s : State) : State :=
  ((regWords r off).drop 1).foldl (fun s o =>
    let v := (roWord s o).getD 0
    { s with regs := { s.regs with latch := tput none o (some v) s.regs.latch, owed := tput 0 o v.toNat s.regs.owed } }) s

/-- A register word read: RO words by their latch, others as last written; 0 for RW and RO words of a domain that is not ACTIVE (R5, R450 to
R452). -/
def rowRead (r : RegRow) (off : Nat) (s : State) : Word × State :=
  let up := active s (if r.acc == .ro && off / 0x1000 = 9 then (if off < 0x9140 then Dom.lanex else .laney) else wordDom s off)
  match r.acc with
  | .wo => (0, s)
  | .ro =>
    if !up then (0, s)
    else if r.word = 0 then
      let v := roRead off s
      (v.1, clearRead off v.1.toNat (latchWords r off v.2))
    else
      let v := (tget none off s.regs.latch).getD (regReset off)
      (v, clearLatched off s)
  | .rw => if off = 0xC000 then (w32 (b2n (hreRun s)), s) else (if up then regStored s off else 0, s)
  | _ =>
    let copy := match s.lcm.lead with | .x => s.regs.laneX | .y => s.regs.laneY
    ((tget none off copy).getD (regStored s off), s)

/-- A PREG word that fails its check at a read is recorded (R417, R434). -/
def readFails (w : Nat) (s : State) : State :=
  if tget false w s.pst.bad && (queued? s.pst.wq w).isNone then note evNvmWordFail .aon 2 (w32 w) 0 0 s else s

/-- A word of the PREG window: a snapshot word that fails its check reads 0 (R460). -/
def pregRead (w : Nat) (s : State) : Word × State :=
  if !aonUp s then (0, s)
  else if 2624 ≤ w then ((nvmWord? s.pst w).getD 0, s)
  else (nvmRead s.pst w, readFails w s)

/-- An aligned 32-bit read at a BAR0 offset; a reserved address reads 0 (R6, R449). -/
def regRead (off : Nat) (s : State) : Word × State :=
  if 0x40000 ≤ off && off < 0x78000 then
    (if aonUp s then nvmRead s.pst (bankBase (if bitOf (reg s 0xF000) 0 then .b else .a) + (off - 0x40000) / 4) else 0, s)
  else if 0x80000 ≤ off && off < 0x84000 then pregRead ((off - 0x80000) / 4) s
  else if isCounter off then counterTake off s
  else
    match rowAt off with
    | none => (0, s)
    | some r => rowRead r off (if r.persistent then readFails (pregWord off) s else s)

/-- A BAR0 read as PCIe brings it; one that is not aligned returns 0 and fires vector 13 (R449). -/
def barRead (off : Nat) (s : State) : State :=
  if !active s .host then { s with rdata := [] }
  else if off % 4 != 0 then vecItem 13 { s with rdata := [0] }
  else
    let v := regRead off s
    { v.2 with rdata := [v.1] }

/-- COUNTER_READ (R459). -/
def execCounterRead (t : Int) (off : Nat) (s : State) : Host.Outcome State Fault Refusal :=
  if off < barBytes then settle (barRead off (atTime t s)) else .fault .noAddress

/-- MULTIWORD_READ_LATCH (R450). -/
def execMultiwordReadLatch (t : Int) (off : Nat) (s : State) : Host.Outcome State Fault Refusal :=
  if off < barBytes then settle (barRead off (atTime t s)) else .fault .noAddress

end Sys2Proof.Machine
end

