-- ==== Sys2Proof/Machine/Tap.lean ====
section
/-!
DEFINITION. Machine/Tap.lean: the test access port (16_security_debug.md, R385, R392, R393, R396, R398, R435).
-/
namespace Sys2Proof.Machine

/-- Data shifted out of the TAP. -/
def tapOut (b : List Byte) (s : State) : State := { s with out := s.out ++ [.tdo b] }

/-- The instruction BYPASS: the one-bit register, which captures 0 (R393). -/
def tapBypass (s : State) : State := tapOut [0] (mapSec (fun x => { x with drive := 0 }) s)

/-- A TAP instruction of a level: the TAP is in AON and answers once AON is released; above the debug level the instruction behaves as BYPASS and is
counted (R392, R393, R395). -/
def tapCommand (t : Int) (level : Nat) (eff : State → State) (s : State) : Host.Outcome State Fault Refusal :=
  let s := atTime t s
  if !aonUp s then settle s
  else
    let s := mapSec (fun x => { x with tapAt := s.now }) s
    if s.sec.level < level then settle (tapBypass (bump 0x11C28 s)) else settle (eff s)

/-- A TAP instruction that drives no ball replaces one that did. -/
def undrive (s : State) : State := mapSec (fun x => { x with drive := 0 }) s

/-- IDCODE (R393, R483). -/
def execIdcode (t : Int) (s : State) : Host.Outcome State Fault Refusal :=
  tapCommand t 0 (fun s => tapOut (wordBytes (w32 Config.idcode)) { undrive s with rdata := [w32 Config.idcode] }) s

/-- BYPASS (R393). -/
def execBypass (t : Int) (s : State) : Host.Outcome State Fault Refusal := tapCommand t 0 tapBypass s

/-- Ball states as bytes, the first in bit 0 of the first byte; `fuel` bounds the bytes. -/
def packBits : Nat → List Bool → List Byte
  | 0, _ => []
  | _, [] => []
  | f + 1, l => BitVec.ofNat 8 (flagWord (l.take 8)) :: packBits f (l.drop 8)

/-- SAMPLE/PRELOAD: the ball states are captured and shifted out; the boundary register keeps them only at D3 (R393). -/
def execSamplePreload (t : Int) (balls : List Bool) (s : State) : Host.Outcome State Fault Refusal :=
  tapCommand t 1 (fun s =>
    let s := undrive s
    tapOut (packBits balls.length balls) (if s.sec.level = 3 then mapSec (fun x => { x with preload := balls }) s else s)) s

/-- The words of a slate as a debug read finds them: what a D2 session wrote there in the target lane, else what the store holds (R392, R393). -/
def debugSlate (d : Dom) (k : Nat) (s : State) : List Word × State :=
  match tget [] k s.sec.written with
  | [] => slateWords d k s
  | ws => if s.sec.level == 2 && d == s.sec.target.dom then (ws, s) else slateWords d k s

/-- What a debug read returns: a register without the effects of a read, the 64 words of a slate, an NVM word (R392). -/
def debugRead (what : DbgTarget) (s : State) : List Word × State :=
  match what with
  | .register off =>
    let r := regRead off s
    ([r.1], { s with free := r.2.free })
  | .slate d k => debugSlate d k s
  | .nvm w => ([nvmRead s.pst w], s)

/-- DBG_READ (R392, R393). -/
def execDbgRead (t : Int) (what : DbgTarget) (s : State) : Host.Outcome State Fault Refusal :=
  tapCommand t 1 (fun s =>
    let r := debugRead what (undrive s)
    tapOut (wordsBytes r.1) { r.2 with rdata := r.1 }) s

/-- What DBG_LANE does in the target lane (R392, R393, R396). -/
def debugLane (op : DbgLaneOp) (s : State) : State :=
  match op with
  | .halt => mapSec (fun x => { x with halted := true, steps := 0 }) s
  | .step => mapSec (fun x => if x.halted then { x with steps := x.steps + 1 } else x) s
  | .resume => mapSec (fun x => { x with halted := false, steps := 0 }) s
  | .writeCount sec count =>
    let l := s.sec.target
    let e := s.sld.lane l
    match tget none sec e.sects with
    | none => s
    | some x => { s with sld := s.sld.setLane l { e with sects := tput none sec (some { x with count := sat16 count }) e.sects } }
  | .writeSlate k words => mapSec (fun x => { x with written := tput [] k words x.written }) s
  | .inject check => mapSec (fun x => { x with injected := x.injected ++ [check] }) s

/-- DBG_LANE (R393). -/
def execDbgLane (t : Int) (op : DbgLaneOp) (s : State) : Host.Outcome State Fault Refusal :=
  tapCommand t 2 (fun s => debugLane op (undrive s)) s

/-- A drive or scan instruction: before it is updated both lanes take a HARD fault, so the device enters SAFEHALT and stays there until the
next power-up (R198, R393, R446). -/
def tapDrive (n : Nat) (s : State) : State :=
  let s :=
    if s.bsc.power == .standby || s.bsc.power == .off then s
    else
      let s := bothHard .drive s
      { s with bsc := { s.bsc with halt := .drive } }
  mapSec (fun x => { x with drive := n }) s

/-- EXTEST (R393). -/
def execExtest (t : Int) (s : State) : Host.Outcome State Fault Refusal := tapCommand t 3 (tapDrive 1) s

/-- INTEST (R393). -/
def execIntest (t : Int) (s : State) : Host.Outcome State Fault Refusal := tapCommand t 3 (tapDrive 2) s

/-- CLAMP (R393). -/
def execClamp (t : Int) (s : State) : Host.Outcome State Fault Refusal := tapCommand t 3 (tapDrive 3) s

/-- HIGHZ (R393). -/
def execHighz (t : Int) (s : State) : Host.Outcome State Fault Refusal := tapCommand t 3 (tapDrive 4) s

/-- SCAN (R393). -/
def execScan (t : Int) (s : State) : Host.Outcome State Fault Refusal := tapCommand t 3 (tapDrive 5) s

/-- KEY_LOAD: the slot is programmed, read back and compared; a slot whose comparison fails is DAMAGED, and what it then holds, and so its KCV, is a
free value. A slot that is not empty ignores it (R385, R434). -/
def keyLoad (j : Nat) (key : BitVec 128) (same : Bool) (s : State) : State :=
  if (slotOf s.sec j).status != 0 then s
  else
    let put := fun (k : KeySlot) => mapSec (fun x => { x with slots := setNth x.slots j k })
    if same then secNote evKeyLoad (w32 j) 0 (keyCheck key) (put { status := 1, key := key } s)
    else
      let d := draw s
      secNote evKeyLoad (w32 j) 1 d.1 (put { status := 2, key := 0 } d.2)

/-- KEY_LOAD (R385). -/
def execKeyLoad (t : Int) (slot : Fin 5) (key : BitVec 128) (same : Bool) (s : State) : Host.Outcome State Fault Refusal :=
  tapCommand t 3 (fun s => keyLoad slot.val key same (undrive s)) s

/-- TRST_N_RESET: Test-Logic-Reset; no ball is driven, the debug level stands (R435). -/
def execTrstNReset (t : Int) (s : State) : Host.Outcome State Fault Refusal :=
  settle (mapSec (fun x => { x with drive := 0, preload := [] }) (atTime t s))

end Sys2Proof.Machine
end

