-- ==== Sys2Proof/Machine/TopoSwitch.lean ====
section
/-!
DEFINITION. Machine/TopoSwitch.lean: TOPO_SWITCH, the check of a bank and the switchover (18_persistence_recorder.md, R422 to R427), with each
consumer's own response: heads (R152), sections (R184), restore (R230, R231), keys (R387), floors (R367, R368); the end of bring-up (R443).
-/
namespace Sys2Proof.Machine

/-! ## TOPO_SWITCH (R424) -/

/-- The other bank. -/
def otherBank (k : Bank) : Bank := match k with | .a => .b | .b => .a

/-- The state of a bank (R423). -/
def bankState (s : State) (k : Bank) : BankState := match k with | .a => s.pst.bankA | .b => s.pst.bankB

/-- The effective round of a TOPO_SWITCH and the instant at which it begins; 0 names the first round that begins at least 40 ms from now
(R253, R424). -/
def topoStart (s : State) (r : Nat) : Nat × Int :=
  let tr := max 1 (roundNs s)
  let k : Int := if r = 0 then (s.now + 40000000 + tr - 1) / tr else (r : Int)
  (u64 k, k * roundNs s)

/-- The status with which check 10 refuses a TOPO_SWITCH, none where it is accepted (R424). -/
def topoRefusal (s : State) (k : Bank) (r : Nat) : Option Nat :=
  let o := bankState s (otherBank k)
  if bankState s k != .inactive then some stRefusedState
  else if o == .checking || o == .pending then some stRefusedBusy
  else if (topoStart s r).2 - s.now < 40000000 then some stRefusedLate
  else none

/-- The named bank is CHECKING (R423, R424). -/
def topoAccept (id : Nat) (k : Bank) (gen : Word) (r : Nat) (s : State) : State :=
  let x := topoStart s r
  let w : TopoWait := { id := id, bank := k, gen := gen, round := x.1, startAt := x.2, acceptedAt := s.now }
  setBankState k .checking { s with pst := { s.pst with topo := some w } }

/-- TOPO_SWITCH (R424). -/
def effTopoSwitch (c : HostCmd) (s : State) : State :=
  let k := if bitOf c.a0 0 then Bank.b else .a
  let r := join64 c.a2 c.a3
  match topoRefusal s k r with
  | some st => refuse 0x38 c st s
  | none => topoAccept (newId s) k c.a1 r (accept c 0x38 s)

/-- TOPO_SWITCH (R424). -/
def execTopoSwitch (c : HostCmd) (s : State) : Host.Outcome State Fault Refusal := hostCommand 0x38 effTopoSwitch c s

/-! ## The check of a bank (R422, R424) -/

/-- Whether a head profile keeps its ranges (table "Head profile"). -/
def profileOk (p : Profile) : Bool :=
  p.envShift ≤ 6 && 8 ≤ p.ntShift && p.ntShift ≤ 16 && 0x18 ≤ p.kon && 0x10 ≤ p.koff && p.koff < p.kon
    && 1 ≤ p.tmin && 1 ≤ p.toff && p.toff < p.tmin && 1 ≤ p.nqInit && 1 ≤ p.nqCeil && 1 ≤ p.minOn && 64 ≤ p.maxOn && 1 ≤ p.blindMin
    && 1 ≤ p.blindLim && p.blindLim ≤ 1023 && 64 ≤ p.warm && 1 ≤ p.recWin && 1 ≤ p.failWin && 20 ≤ p.legSep && p.legSep ≤ 2000

/-- Twice the distance of the centre of Z2 above that of Z1 (R123). -/
def centreGap (r : HeadRec) : Int := (2 * r.z2 + r.w2 - 1 : Int) - (2 * r.z1 + r.w1 - 1 : Int)

/-- Whether a head record keeps R123 and its ranges. -/
def headOk (r : HeadRec) : Bool :=
  5 ≤ r.vmin && r.vmin ≤ r.vmax && r.vmax ≤ 4000
    && (if r.port = 2 then r.z1 ≤ 7 && r.z2 ≤ 7 && r.w1 = 1 && r.w2 = 1 && r.z1 ≠ r.z2
        else r.port ≤ 1 && r.z1 + r.w1 ≤ 30720 && r.z2 + r.w2 ≤ 30720 && 4 ≤ centreGap r && centreGap r ≤ 128 && r.z1 + r.w1 ≤ r.z2)

/-- Whether a fibre head suits its port's plan in force, where the port runs: its zones in the window and not in its last g bins, the decimated rate
at 500 to 4 000 Hz (R124). -/
def headPlanOk (s : State) (r : HeadRec) : Bool :=
  if r.port = 2 then true
  else
    let p := if r.port = 1 then Port.p1 else .p0
    let x := s.stg.port p
    match x.plan with
    | none => true
    | some q =>
      x.run = 0 || ((zoneBins r).all (fun b => q.b0 ≤ b && b + q.gauge + 1 ≤ q.b0 + q.nbins)
        && 250000 * q.groups ≤ (fchOf s (portFch p)).m * q.ts && (fchOf s (portFch p)).m * q.ts ≤ 2000000 * q.groups)

/-- The heads of a bank pass (R123, R124): those that are not OFF, since the zeros of an unused record break R123 (DEDUCED, log entry 145). -/
def headsPass (s : State) (k : Bank) : Bool :=
  let hs := headsIn s k
  hs.all (fun e => headOk e.2 && profileOk (profileIn s k e.2.profile) && headPlanOk s e.2)
    && (hs.filter (fun e => e.2.port == 2)).length ≤ 4

/-- The heads that a boundary entry names: kind and number, with the partner and the product of the NEG bits (R154). -/
def boundUses (b : Bound) : List ((Nat × Nat) × Option ((Nat × Nat) × Bool)) :=
  if b.coverKind = 0 then [((b.leadKind, b.lead), none)]
  else
    let neg := b.leadNeg != b.coverNeg
    [((b.leadKind, b.lead), some ((b.coverKind, b.cover), neg)), ((b.coverKind, b.cover), some ((b.leadKind, b.lead), neg))]

/-- Whether a list holds no element twice. -/
def distinct {α : Type} [BEq α] : List α → Bool
  | [] => true
  | a :: l => !l.contains a && distinct l

/-- The bits that the record at a bank word may use; all of them where the word belongs to no record of R461's table. -/
def recordMask (w : Nat) : Word :=
  if w < 0x0040 then 0xFFFFFFFF
  else if w < 0x0240 then
    (match w % 8 with | 0 => 0xFFFF01F7 | 3 => 0xFFFF03FF | 5 => 0x03FF00FF | 7 => 0x0000FFFF | _ => 0xFFFFFFFF)
  else if w < 0x4240 then (if w % 2 = 0 then 0xFFF87FFF else 0x0FFF7FFF)
  else if w < 0x5240 then 0xFFFFFFFF
  else if w < 0x6240 then 0xF8007FFF
  else if w < 0x9A40 then 0xFFFFFFFF
  else if w < 0xA240 then (if w % 2 = 0 then 0x80FF1FFF else 0x0000FFFF)
  else if w < 0xAA40 then (if w % 2 = 0 then 0x3F07FFFF else 0x000000FF)
  else if w < 0xAB40 then 0x80001FFF
  else if w < 0xBB40 then 0xE0FFF0FF
  else if w < 0xBF50 then (if (w - 0xBB40) % 0x208 % 2 = 1 && (w - 0xBB40) % 0x208 ≤ 513 then 0x0007FFFF else 0xFFFFFFFF)
  else if w < 0xBF58 then (if w % 2 = 0 then 0x80001FFF else 0xFFFFFFFF)
  else 0xFFFFFFFF

/-- No reserved bit of a record is set (R461). -/
def reservedOk (s : State) (k : Bank) : Bool := (bankListed s k 0x0040 0xBF57).all (fun e => e.2 &&& ~~~ recordMask e.1 == 0)

/-- The sections, boundaries and remote entries of a bank pass (R153, R154, R461). -/
def sectionsPass (s : State) (k : Bank) : Bool :=
  let hs := (headsIn s k).map (·.1)
  let rs := remotesIn s k
  let named := fun (e : Nat × Nat) => if e.1 = 1 then hs.contains e.2 else e.1 = 2 && rs.any (fun r => r.1 == e.2)
  let ss := sectionsIn s k
  let uses := ss.map (fun e => (boundsIn s k e.1).flatMap boundUses)
  let all := uses.flatten
  rs.all (fun e => 1 ≤ e.2.node && e.2.node ≤ 254 && 1 ≤ e.2.minTransit && e.2.minTransit ≤ 60000)
    && distinct (rs.map (fun e => (e.2.node, e.2.head)))
    && (bankListed s k 0x5240 0x623F).foldl (fun n e => n + fld e.2 30 27) 0 ≤ 14336
    && ss.all (fun e => 1 ≤ e.2.nbound && e.2.nbound ≤ 8 && 1 ≤ e.2.limit && (boundsIn s k e.1).all (fun b => b.coverKind ≤ 2))
    && all.all (fun u => named u.1)
    && uses.all (fun l => distinct (l.map (·.1)))
    && all.all (fun u => (all.filter (fun v => v.1 == u.1)).length ≤ 4 && all.all (fun v => v.1 != u.1 || v.2 == u.2))
    && reservedOk s k

/-- Whether label positions strictly ascend. -/
def ascending : List Nat → Bool
  | a :: b :: l => a < b && ascending (b :: l)
  | _ => true

/-- The chainage of a bank passes (R212). -/
def chainagePass (s : State) (k : Bank) : Bool :=
  [0, 1].all (fun p =>
    let ks := knotsIn s k p
    (ks.length = 0 || (2 ≤ ks.length && ks.length ≤ 257)) && ascending (ks.map (·.1))
      && ks.all (fun e => e.1 ≤ 491520 && e.2 ≠ -2147483648))
    && (legacyChainIn s k).all (fun e => fld (bankWord s k (0x0240 + 2 * e.1)) 30 29 = 2)

/-- Whether two schedule entries give the same slot or the same dynamic ID in one round (R255). -/
def schedClash (a b : Sched) : Bool :=
  (a.kind ≤ 3) == (b.kind ≤ 3) && a.index == b.index && a.base % 2 ^ min a.cycle b.cycle == b.base % 2 ^ min a.cycle b.cycle

/-- Whether no entry clashes with a later one. -/
def schedFree : List Sched → Bool
  | [] => true
  | a :: l => !l.any (schedClash a) && schedFree l

/-- The schedule and the export list of a bank pass (R255, R265, R271, R285). -/
def schedulePass (s : State) (k : Bank) : Bool :=
  let l := schedIn s k
  let ns := nslot s
  let nm := nmini s
  let inRange := fun (e : Sched) =>
    if e.kind ≤ 3 then 1 ≤ e.index && e.index ≤ ns else if e.kind = 4 then 1 ≤ e.index && e.index ≤ 64 else 65 ≤ e.index && e.index ≤ 8191
  l.all (fun e => e.kind ≤ 5 && e.cycle ≤ 6 && e.base < 2 ^ e.cycle && 1 ≤ e.node && e.node ≤ 254 && inRange e)
    && schedFree l
    && l.all (fun e => l.any (fun y => y.kind == 3 && y.node == e.node))
    && (List.range 64).all (fun r =>
      let own := l.filter (fun e => e.kind ≥ 4 && r % 2 ^ e.cycle == e.base)
      own.length + 10 * (own.filter (fun e => e.kind == 4)).length ≤ nm)
    && distinct (exportsIn s k)

/-- The key entry of a bank passes (R387). -/
def keyEntryPass (s : State) (k : Bank) : Bool :=
  let w := bankWord s k 4
  let mask := fld w 7 4
  mask.testBit (fld w 1 0) && [0, 1, 2, 3].all (fun j => !mask.testBit j || slotLoaded s (j + 1))

/-- Whether a FIELD decimation factor suits a legacy head (R241). -/
def fieldRate (m : Nat) : Bool := 2 ≤ m && m ≤ 12

/-- Whether GEN breaks R424: it differs from A1, or is not above the committed bank's and this is no re-activation. -/
def genFails (s : State) (w : TopoWait) (gen : Word) : Bool :=
  gen != w.gen || (s.pst.committed.isSome && gen.toNat ≤ s.pst.committedGen.toNat
    && !(!s.pst.everActive && s.pst.committed == some w.bank && w.gen == s.pst.committedGen))

/-- The cause with which a bank fails its check, the lowest code that applies; none where it passes (R422, R424, R434). -/
def bankFails (s : State) (w : TopoWait) : Option Nat :=
  let k := w.bank
  if bankWord s k 0 ≠ 1 then some 1
  else if genFails s w (bankWord s k 1) then some 2
  else if s.pst.bad.any (fun e => e.2 && bankBase k ≤ e.1 && e.1 < bankBase k + 57344) then some 3
  else if crc32cWords ((span 4 0xBFBC).map (bankWord s k)) ≠ bankWord s k 2 then some 4
  else if !headsPass s k then some 5
  else if !sectionsPass s k then some 6
  else if !chainagePass s k then some 7
  else if !schedulePass s k then some 8
  else if s.net.ridge && (schedIn s k).any (fun e => ridgeBranchIn s k e.node > 5) then some 9
  else if !keyEntryPass s k then some 10
  else if (headsIn s k).any (fun e => e.2.port == 2) && !(fieldRate (fchOf s .field).m && fieldRate (regF s (fchOff .field) 4 0)) then some 11
  else if s.net.ridge && (exportsIn s k != [] || (sectionsIn s k).any (fun e => (boundsIn s k e.1).any (fun b => b.leadKind = 2 || b.coverKind = 2)))
    then some 12
  else none

/-- A bank made the ACTIVE one (R425 step 3). -/
def makeActive (k : Bank) (s : State) : State := setBankState (otherBank k) .inactive (setBankState k .active s)

/-- The floors that a bank would raise at its switchover, raised ahead of it (R368). -/
def raiseAhead (k : Bank) (s : State) : State :=
  let s' := makeActive k s
  let fieldHeads := (headsIn s k).any (fun e => e.2.port == 2)
  let s := [Port.p0, .p1].foldl (fun s p => raiseFloor p.dom (portFloor s' p) s) s
  if fieldHeads then raiseFloor .field 1 s else s

/-- BANK_CHECK_DONE: the bank is PENDING, or refused and INACTIVE (R423, R424). -/
def execBankCheckDone (t : Int) (s : State) : Host.Outcome State Fault Refusal :=
  let s := atTime t s
  match s.pst.topo with
  | none => settle s
  | some w =>
    if bankState s w.bank != .checking then settle s
    else
      match bankFails s w with
      | none => settle (raiseAhead w.bank (setBankState w.bank .pending s))
      | some c =>
        let gen := bankWord s w.bank 1
        let s := setBankState w.bank .inactive { s with pst := { s.pst with topo := none } }
        settle (finish w.id stRefusedBank 0 0 (note evBankRefused .aon 2 (w32 (bankNum w.bank)) gen (w32 c) s))

/-! ## The switchover (R425) -/

/-- A boundary with what its remote sides name: two boundaries are the same only when the heads behind their entries are. -/
abbrev BoundId := Bound × Option (Nat × Nat) × Option (Nat × Nat)

/-- The identity of a boundary under some remote entries. -/
def boundId (rs : List (Nat × Remote)) (b : Bound) : BoundId :=
  let at_ := fun (k n : Nat) => if k = 2 then (rs.find? (fun e => e.1 == n)).map (fun e => (e.2.node, e.2.head)) else none
  (b, at_ b.leadKind b.lead, at_ b.coverKind b.cover)

/-- What a bank in force gives the consumers that compare it with the next: heads with profiles, sections with boundaries, remote entries, the
schedule. -/
structure TopoView where
  heads : List (Nat × HeadRec × Profile)
  sects : List (Nat × SectRec × List BoundId)
  remotes : List (Nat × Remote)
  sched : List Sched


/-- The view of the ACTIVE bank. -/
def topoView (s : State) : TopoView :=
  let rs := remotes s
  { heads := (heads s).map (fun e => (e.1, e.2, profile s e.2.profile)),
    sects := (sections s).map (fun e => (e.1, e.2, (bounds s e.1).map (boundId rs))), remotes := rs, sched := sched s }

/-- A record of a view by its number. -/
def viewAt {α : Type} (l : List (Nat × α)) (i : Nat) : Option α := (l.find? (fun e => e.1 == i)).map (·.2)

/-- Whether a change of a head's record makes it settle again (R152). -/
def headMoved (a b : HeadRec × Profile) : Bool :=
  a.1.port != b.1.port || a.1.z1 != b.1.z1 || a.1.w1 != b.1.w1 || a.1.z2 != b.1.z2 || a.1.w2 != b.1.w2 || a.2.envShift != b.2.envShift

/-- Whether a front-end fault stands for a system that a legacy head names (R247). -/
def legacyFaulty (s : State) (r : HeadRec) : Bool := r.port == 2 && ((sysOf s r.z1).faulty || (sysOf s r.z2).faulty)

/-- One head of one lane at the switchover (R144, R152); a fault that stands for a legacy head's system makes it FAILED with cause 10 (R247). -/
def switchHead (l : Lane) (h : Nat) (old new : Option (HeadRec × Profile)) (s : State) : State :=
  match old, new with
  | none, none => s
  | some (r, p), none =>
    let x := headOf s l h p
    let t := x.tLast.getD s.now
    let w := HWork.goto r p h 0 0 t none (HWork.flush r h t none { x := x, out := [] })
    mapHen l (fun e => { e with heads := tput none h none e.heads }) (keepWork l h x.st w s)
  | none, some (r, p) =>
    let x := { (HeadSt.new p) with st := 0, lt := !s.net.joined }
    let w := HWork.goto r p h 1 0 s.now none { x := x, out := [] }
    keepWork l h 0 (if legacyFaulty s r then HWork.goto r p h 4 10 s.now none w else w) s
  | some a, some (r, p) =>
    if headMoved a (r, p) then
      let x := headOf s l h p
      let t := x.tLast.getD s.now
      let w := HWork.goto r p h 1 0 t none (HWork.flush r h t none { x := x, out := [] })
      keepWork l h x.st (if legacyFaulty s r then HWork.goto r p h 4 10 t none w else w) s
    else s

/-- The heads of a lane at the switchover, in rising order. -/
def switchHeads (l : Lane) (old new : TopoView) (s : State) : State :=
  (normNat (old.heads.map (·.1) ++ new.heads.map (·.1))).foldl (fun s h => switchHead l h (viewAt old.heads h) (viewAt new.heads h) s) s

/-- A section with its boundaries as the new record gives them: those that stay keep their condition, blind period and waiting items, the items of
those removed are discarded, new ones start now (R184). -/
def rebound (c : SCtx) (old new : List BoundId) (x : SectSt) : SectSt :=
  let place := fun (i : Nat) => (old[i]?).bind (fun k => new.findIdx? (· == k))
  { x with bounds := new.map (fun k => match old.findIdx? (· == k) with | some i => bndOf x i | none => BoundSt.new c.t c.h),
           items := x.items.filterMap (fun y => (place y.bi).map (fun b => { y with bi := b })) }

/-- An ENTRY of a snapshot: state, DOUBTFUL, count (R228). -/
abbrev SnapEnt := Nat × Bool × Int

/-- A section enabled: DISTURBED with cause ENABLE, or as the table "Restored states" has it (R174, R184, R230). -/
def startSect (c : SCtx) (n : Nat) (restore : Option (List (Nat × SnapEnt))) : SWork :=
  let x := { (SectSt.new c.t c.h n) with st := 0, cause := 0 }
  match restore with
  | none => SWork.disturb c 1 { x := x, ev := [] }
  | some es =>
    match viewAt es c.i with
    | none => SWork.goto c 5 { x := x, ev := [] }
    | some (st, d, n) =>
      if st = 3 || st = 4 then SWork.disturb c 1 { x := x, ev := [] }
      else SWork.goto c 5 { x := { x with doubtful := d, count := n }, ev := [] }

/-- The pending command of a section whose record changed is cancelled (R184). -/
def dropSectCmd (l : Lane) (i : Nat) (s : State) : State :=
  match (tget none i (s.sld.lane l).sects) with
  | none => s
  | some x =>
    match x.cmd with
    | none => s
    | some m => finish m.id stCancelled 0 0 (putSect l i { x with cmd := none } s)

/-- One section of one lane at the switchover (R184). -/
def switchSect (l : Lane) (i : Nat) (restore : Option (List (Nat × SnapEnt))) (old new : Option (SectRec × List BoundId)) (s : State) : State :=
  match old, new with
  | none, none => s
  | some a, none =>
    let s := dropSectCmd l i s
    let x := (tget none i (s.sld.lane l).sects).getD (SectSt.new s.now (horizon s l) a.1.nbound)
    keepSect l i (SWork.goto (sctx s l i a.1) 0 { x := { x with items := [], count := 0 }, ev := [] }) s
  | none, some b =>
    let s := dropSectCmd l i s
    keepSect l i (startSect (sctx s l i b.1) b.1.nbound restore) s
  | some a, some b =>
    if a == b then s
    else
      let s := dropSectCmd l i s
      let c := sctx s l i b.1
      let x := rebound c a.2 b.2 (sectOf s l i b.1)
      let moved := a.2.any (fun k => !b.2.contains k) || b.2.any (fun k => !a.2.contains k)
      keepSect l i (if moved then SWork.disturb c 10 { x := x, ev := [] } else { x := x, ev := [] }) s

/-- The ledger of a lane at the switchover: its sections, and the staged ORDERTOL and TWIN (R184, R425). -/
def switchLedger (l : Lane) (restore : Option (List (Nat × SnapEnt))) (old new : TopoView) (s : State) : State :=
  let s := mapSld l (fun e => { e with orderTol := laneRegF s l 0x7000 21 8, twin := laneRegF s l 0x7000 28 22 }) s
  (normNat (old.sects.map (·.1) ++ new.sects.map (·.1))).foldl (fun s i =>
    switchSect l i restore (viewAt old.sects i) (viewAt new.sects i) s) s

/-- A lane's network part at the switchover: the last watermarks of entries that were not enabled before are forgotten (R266), and a change of
schedule makes the round that begins not full. -/
def switchNet (l : Lane) (old new : TopoView) (s : State) : State :=
  let keys := fun (v : TopoView) => v.remotes.map (fun e => markKey e.2.node e.2.head)
  let stay := (keys new).filter (fun k => (keys old).contains k)
  mapRct l (fun x => { x with marks := x.marks.filter (fun e => stay.contains e.1), full := x.full && old.sched == new.sched }) s

/-- The snapshot's words from MARK, as stored (R228, R460). -/
def snapArea (s : State) (n : Nat) : List Word := (span markWord n).map (nvmWord s.pst)

/-- What the snapshot area gives at the first switchover: the outcome of R434, and the entries of a valid snapshot (R230). -/
def snapshotCheck (s : State) (gen : Word) : Nat × List (Nat × SnapEnt) :=
  let a := snapArea s 8
  let n := fld (nth 0 a 4) 10 0
  let es := snapArea s (9 + n)
  if regF s 0x7014 0 0 = 0 then (5, [])
  else if nth 0 a 0 ≠ markValid then (1, [])
  else if n > 1400 || crc32cWords ((es.drop 1).take (7 + n)) ≠ nth 0 es (8 + n) then (2, [])
  else if bitOf (nth 0 a 4) 29 then (3, [])
  else if nth 0 a 5 ≠ gen then (4, [])
  else (0, ((es.drop 8).take n).map (fun w => (fld w 27 16, fld w 31 29, bitOf w 28, signed (fld w 15 0) 16)))

/-- The restore at the first switchover after reset: recorded, and a snapshot restored is consumed (R230, R231). -/
def restoreStep (gen : Word) (s : State) : Option (List (Nat × SnapEnt)) × State :=
  let x := snapshotCheck s gen
  let a := snapArea s 8
  let ms : Int := rnd (signed (join64 (nth 0 a 2) (nth 0 a 3)) 64) 1000000
  let s := laneNote s.lcm.lead evRestore 1 (w32 (x.1 + 2147483648 * b2n (bitOf (nth 0 a 4) 31))) (nth 0 a 1) (lo32 ms) s
  if x.1 = 0 then (some x.2, writeNow [(markWord, 0)] s) else (none, s)

/-- The bank-selector entry committed before step 1 of the round's tick (R425, R426). -/
def selectorCommit (k : Bank) (gen : Word) (s : State) : State :=
  let seq := (s.pst.selSeq + 1) % 32768
  let page := 64 * (20 + s.pst.selK % 4)
  let s := { s with pst := { s.pst with selSeq := seq, selK := s.pst.selK + 1, committed := some k, committedGen := gen } }
  writeNow [(page + 62, gen), (page + 63, w32 (65536 * fld gen 15 0 + 2 * seq + bankNum k))] s

/-- Keys from the bank's key entry once the device is SEALED (R387). -/
def switchKeys (k : Bank) (s : State) : State :=
  if s.sec.lifecycle < 3 then s
  else
    let w := bankWord s k 4
    let s := selfCommit 0x9018 (w32 (16 * fld w 7 4 + fld w 1 0)) s
    mapSec (fun x => { x with txGen := fld w 1 0, rxMask := fld w 7 4, keysWait := none }) s

/-- The switchover at the start of its effective round (R425). -/
def switchover (w : TopoWait) (s : State) : State :=
  let first := !s.pst.everActive
  let old := topoView s
  let s := selectorCommit w.bank w.gen s
  let s := makeActive w.bank { s with pst := { s.pst with topo := none, genActive := w.gen, everActive := true } }
  let r := if first then restoreStep w.gen s else (none, s)
  let s := r.2
  let new := topoView s
  let s := bothLanes.foldl (fun s l =>
    if laneTakes s l then switchNet l old new (switchLedger l r.1 old new (switchHeads l old new s)) else s) s
  let s := refloor .field (refloor .port1 (refloor .port0 (switchKeys w.bank s)))
  finish w.id stApplied w.gen (roundLo s)
    (note evBankActivated .aon 2 (w32 (bankNum w.bank)) w.gen (roundLo s) s)

/-- A switchover that is due at this round start (R425). -/
def switchStep (s : State) : State :=
  match s.pst.topo with
  | none => s
  | some w => if bankState s w.bank == .pending && w.startAt ≤ s.now then switchover w s else s

/-! ## The end of bring-up (R427, R443) -/

/-- Whether every domain of order 2 that is not switched off has left RAMP (R443). -/
def order2Up (s : State) : Bool :=
  domctlDoms.all (fun p => (regF s 0xE00C 3 0).testBit p.2 || (s.dom.get p.1).st != .ramp)

/-- The re-activation of the committed bank with AUTOACT on, as a TOPO_SWITCH with R_s = 0 (R427, R443). -/
def autoActivate (s : State) : State :=
  match s.pst.committed with
  | none => s
  | some k =>
    if regF s 0xF004 0 0 = 1 && (topoRefusal s k 0).isNone then topoAccept 0 k s.pst.committedGen 0 s else s

/-- BRINGUP_COMPLETE (R443). -/
def execBringupComplete (t : Int) (s : State) : Host.Outcome State Fault Refusal :=
  let s := atTime t s
  if s.bsc.power == .start && s.bsc.bringup = 2 && order2Up s then
    let s := { s with bsc := { s.bsc with bringup := 3 } }
    if s.sec.lifecycle = 5 then settle (enterHalt .decommissioned s)
    else settle (autoActivate (setPower (serviceOrLean s) s))
  else settle s

end Sys2Proof.Machine
end

