-- ==== Sys2Proof/Machine/Tick.lean ====
section
/-!
DEFINITION. Machine/Tick.lean: LEDGER_TICK: what falls at the start of a round, in its order: the network's part (12_round_time_startup.md), the
switchover before step 1 (R425), keys (R387), the lanes' checks (R189), steps 1 to 5 of the ledgers (R161), the once-a-round supervision of domains,
ports and converters (R23, R26, R63, R71, R77), decommissioning (R400).
-/
namespace Sys2Proof.Machine

/-! ## Supervision once a round -/

/-- Whether a difference is beyond 8 ns (R23). -/
def apart (x : Int) : Bool := decide (x > 8) || decide (x < -8)

/-- One counter at the alignment: faulty when it differs from both lanes' counters, in ridge role from RING's and AON's (R23, R189, R300). -/
def counterCheck (e : Dom × Int × Int) (s : State) : State :=
  let lead := if s.net.ridge then e.2.1 else match s.lcm.lead with | .x => e.2.1 | .y => e.2.2
  if !(apart e.2.1 && apart e.2.2) || !active s e.1 then s
  else
    match e.1 with
    | .lanex => faultDom .lanex 7 s
    | .laney => faultDom .laney 7 s
    | d => faultNoted d (note evCounterFault d 0 (w32 d.num) (w32i (sat lead 32)) 0) s

/-- Whether a domain stood at or above its floor throughout the round that ends (R26, R71). -/
def stoodFloor (s : State) (d : Dom) : Bool :=
  let x := s.dom.get d
  x.st == .active && !x.below && s.now - x.since ≥ roundNs s

/-- A domain that fell short of its safety tokens (R26). -/
def paceFault (d : Dom) (done demanded : Word) (s : State) : State :=
  match d with
  | .lanex => faultDom .lanex 6 s
  | .laney => faultDom .laney 6 s
  | d => faultNoted d (note evPaceShortfall d 0 (w32 d.num) done demanded) s

/-- The tokens of one domain in the round (R26). -/
def paceCheck (e : Dom × Nat × Nat) (s : State) : State :=
  if e.2.1 < e.2.2 && stoodFloor s e.1 then paceFault e.1 (w32 e.2.1) (w32 e.2.2) s else s

/-- A port's round closed: line samples dropped or overrun reported, the drop at a held floor a shortfall, whose tokens the round's report gives or
leave open (R71, R434); the CRC-12 counts start again (R63). -/
def portRound (k : TickIn) (p : Port) (s : State) : State :=
  let x := s.sin.port p
  let s := if x.missCount > 0 then note evLinesMissed p.dom 2 (w32 p.num) (lo32 (x.missFirst.getD 0)) (w32 x.missCount) s else s
  let s := if x.overCount > 0 then note evLinesOverrun p.dom 2 (w32 p.num) (lo32 (x.overFirst.getD 0)) (w32 x.overCount) s else s
  let s := { s with sin := s.sin.setPort p { x with missFirst := none, missCount := 0, overFirst := none, overCount := 0 } }
  let s := mapConv p .x (fun c => { c with crcRound := 0 }) (mapConv p .y (fun c => { c with crcRound := 0 }) s)
  if x.missCount > 0 && stoodFloor s p.dom then
    match k.tokens.find? (fun e => e.1 == p.dom) with
    | some e => paceFault p.dom (w32 e.2.1) (w32 e.2.2) s
    | none =>
      let a := draw s
      let b := draw a.2
      paceFault p.dom a.1 b.1 b.2
  else s

/-- Which domains stand below their floor as the next round begins (R71). -/
def floorRound (s : State) : State := allDoms.foldl (fun s d => mapDom d (fun x => { x with below := decide (x.band < x.floor) }) s) s

/-- The counters aligned to the lead counter: RING's to the lead lane's, in ridge role both lanes' to RING's (R23, R300). -/
def alignClocks (s : State) : State :=
  let c := s.clk
  { s with clk := if s.net.ridge then { c with x := c.ring, y := c.ring } else { c with ring := match s.lcm.lead with | .x => c.x | .y => c.y } }

/-- The supervision of a round that ends. -/
def superviseRound (k : TickIn) (s : State) : State :=
  let s := k.roms.foldl (fun s e => romCheck e s) s
  let s := portRound k .p1 (portRound k .p0 s)
  let s := k.tokens.foldl (fun s e => paceCheck e s) s
  alignClocks (floorRound (k.counters.foldl (fun s e => counterCheck e s) s))

/-! ## The ledgers -/

/-- RCT_KEYS as written while PROVISIONED takes effect (R387). -/
def keyRound (s : State) : State :=
  match s.sec.keysWait with
  | none => s
  | some (g, m) => mapSec (fun x => { x with txGen := g, rxMask := m, keysWait := none }) s

/-- Steps 2 to 4 for every section of a lane, in rising order (R161). -/
def sectTicks (l : Lane) (s : State) : State := (sections s).foldl (fun s e => sectTick l e.1 e.2 s) s

/-- Step 5 of a lane's tick and its digests; comparison starts once both self-tests are over (R191, R444). -/
def publishTick (l : Lane) (s : State) : State :=
  clearHeadTick l (if s.bsc.tested.a && s.bsc.tested.b then publishLane l s else s)

/-- The items that a lane's sections applied in the tick. -/
def itemsApplied (s : State) (l : Lane) : Nat := (s.sld.lane l).sects.foldl (fun n p => n + (p.2.map (·.applied)).getD 0) 0

/-- Steps 2 to 5 of a lane's tick, each with its place in the lane's signature (R161, R188). -/
def laneSteps (fails : List CheckFail) (l : Lane) (s : State) : State :=
  let n := (sections s).length
  let s := sectTicks l (passStatuses l s)
  let s := signStep fails 4 l n (signStep fails 3 l n (signStep fails 2 l (itemsApplied s l) s))
  if laneTakes s l then signStep fails 5 l n (publishTick l s) else s

/-- What the lanes do at a tick: retirement and re-admission, faults of the tick, steps 1 to 5 (R161, R188, R189, R199, R201). -/
def lanesTick (fails : List CheckFail) (lost : List Lane) (s : State) : State :=
  let s := readmitTick .y (readmitTick .x (retireTick .y (retireTick .x s)))
  let s := laneFaults true fails (signStart .y (signStart .x s))
  let due := fun (l : Lane) => commandsDue s l
  let s := signStep fails 1 .y (due .y) (signStep fails 1 .x (due .x) (commandStep lost s))
  bothLanes.foldl (fun s l => if laneTakes s l then laneSteps fails l s else s) s

/-- The start of a round of the device (R161, R253). -/
def roundTick (k : TickIn) (s : State) : State :=
  let s := roundParams (mirrorLate s)
  let s := pollRound (ridgeRound (dropMessages .y (dropMessages .x s)))
  superviseRound k (lanesTick k.fails k.hreLost (keyRound (switchStep s)))

/-- LEDGER_TICK: the rounds of the lanes that end now, then the device's own round start; a decommissioning goes on (R161, R400). -/
def execLedgerTick (k : TickIn) (s : State) : Host.Outcome State Fault Refusal :=
  let s := atTime k.t s
  let s :=
    if s.bsc.power == .off || s.bsc.power == .standby then s
    else
      let s := lanesRound k s
      if s.now % roundNs s = 0 then roundTick k s else s
  settle (if aonUp s then decomSteps s else s)

end Sys2Proof.Machine
end

