-- ==== Sys2Proof/Machine/Poll.lean ====
section
/-!
DEFINITION. Machine/Poll.lean: HRE_POLL: one read of the letterbox host area (13_host_rings.md, R311, R313, R315), what its indices bring: posted
buffers (R327), a changed HOST_BEAT (R337), and the command descriptors up to CMD_PROD, examined in index order (R317, R319).
-/
namespace Sys2Proof.Machine

/-- The effect of a listed opcode once it passed checks 1 to 8; an opcode that is not listed never gets that far (R317, R320). -/
def effOf (op : Nat) : HostCmd → State → State :=
  match op with
  | 0x01 => effNop
  | 0x10 => effPortStart
  | 0x11 => effPortStop
  | 0x12 => effPlanApply
  | 0x13 => effGroupRetune
  | 0x14 => effGaugeSet
  | 0x15 => effRefclkSelect
  | 0x16 => effLinkReadmit
  | 0x18 => effFilterSync
  | 0x19 => effBankSwap
  | 0x20 => effHeadFlush
  | 0x21 => effHeadStats
  | 0x28 => effPrepReset
  | 0x29 => effCondReset
  | 0x2A => effDirectReset
  | 0x2B => effRestoreConfirm
  | 0x2C => effSectionStats
  | 0x30 => effLaneRetire
  | 0x31 => effLaneReadmit
  | 0x38 => effTopoSwitch
  | 0x39 => effSeedSave
  | 0x40 => effSurvey
  | 0x41 => effLegacyCal
  | 0x42 => effSweepCal
  | 0x48 => effRecRead
  | 0x49 => effRecFreeze
  | 0x4A => effRecUnfreeze
  | 0x50 => effHisRetrieve
  | 0x58 => effDiagPost
  | 0x60 => effDebugChallenge
  | 0x61 => effDebugResponse
  | 0x62 => effDebugClose
  | 0x63 => effLifecycleSet
  | 0x64 => effAttest
  | 0x68 => effPowerRequest
  | _ => fun c s => refuse op c stRefusedOpcode s

/-! ## Indices (R315) -/

/-- The host index of a ring in the host area: CMD, CPL, EVT, STR0 to STR7, REC, HIS (R311). -/
def hostIndex (ws : List Word) (r : Nat) : Word :=
  nth 0 ws (if r < 3 then r else if r < 11 then 5 + r else if r = 11 then 3 else 4)

/-- The used count of a ring under a host index (R315). -/
def usedCount (s : State) (r : Nat) (v : Word) : Nat :=
  match r with
  | 0 => wrap32 v s.hre.cmdCons
  | 1 => wrap32 s.hre.cplProd v
  | 2 => wrap32 s.hre.evtProd v
  | n + 3 => wrap32 v (ringOf s.hre n).done

/-- The posted descriptors that a new POST covers, read in index order; one that was not read, for a DMA error, ends the reading. -/
def readPosts (n : Nat) (posts : List Posted) : Nat → State → State
  | 0, s => s
  | k + 1, s =>
    let i := (ringOf s.hre n).post
    match posts.find? (fun p => ringNum p.ring == n && p.index == i) with
    | some p => readPosts n posts k (mapRing n (fun g => { g with post := g.post + 1, posted := g.posted ++ [p] }) s)
    | none => dmaError (3 + n) (ringAddr s (3 + n) i) s

/-- A host index that lies in range is taken (R315). -/
def takeIndex (posts : List Posted) (r : Nat) (v : Word) (s : State) : State :=
  match r with
  | 0 => { s with hre := { s.hre with cmdProd := v } }
  | 1 => { s with hre := { s.hre with cplCons := v } }
  | 2 => { s with hre := { s.hre with evtCons := v } }
  | n + 3 =>
    let g := ringOf s.hre n
    let s := readPosts n posts (wrap32 v g.done - wrap32 g.post g.done) s
    ringPrune n (ringOf s.hre n).posted.length s

/-- One ring's host index: taken, or kept as it was with an index error (R315). -/
def indexStep (ws : List Word) (posts : List Posted) (a : Bool × State) (r : Nat) : Bool × State :=
  let s := a.2
  let v := hostIndex ws r
  if !ringEn s r then a
  else if usedCount s r v ≤ ringSize s r then (a.1, takeIndex posts r v s)
  else (true, vecItem 13 (note evIndexError .host 0 (w32 r) 0 0 (bump 0xCC0C s)))

/-- Every host index of a poll; the index error stands until a poll at which all are valid (R315). -/
def takeIndices (ws : List Word) (posts : List Posted) (s : State) : State :=
  let x := (List.range 13).foldl (indexStep ws posts) (false, s)
  { x.2 with hre := { x.2.hre with indexErr := x.1 } }

/-- HOST_BEAT as read: a changed one shows the host alive and ends a SUSPENDED loss (R337). -/
def takeBeat (v : Word) (s : State) : State :=
  let s' := { s with hre := { s.hre with beat := some v } }
  if s.hre.beat.any (· != v) then
    { s' with hre := { s'.hre with beatAt := s.now, loss := if s.hre.loss == .suspended then .none else s.hre.loss } }
  else s'

/-! ## Commands (R317) -/

/-- A descriptor whose read met a DMA error: FAILED_DMA with OPCODE 0; its TAG, unread, is a free value (R317 check 1, R322). -/
def unread (c : HostCmd) (s : State) : State :=
  let d := draw (dmaError 0 (ringAddr s 0 c.index) (takeCmd c s))
  cplEmit { (outOf c 0 0) with tag := BitVec.ofNat 16 d.1.toNat, franked := false } stFailedDma 0 0 false false d.2

/-- The next command descriptor examined at its instant, if it is the one at CMD_CONS, below CMD_PROD, and a command may be examined
(R317, R319). -/
def nextCmd (r : RingCmd) (s : State) : State :=
  let c := descCmd r (r.words.getD [])
  if !examinable c s then s
  else
    let s := atTime r.t s
    match r.words with
    | none => unread c s
    | some ws => runCommand (descOp ws) (effOf (descOp ws)) c s

/-! ## The poll (R313, R337) -/

/-- Whether a poll is due: after a knock, INTERVAL from the start of the previous poll, or as the first since RUN (R313). -/
def pollDue (s : State) : Bool :=
  s.hre.knock || s.hre.pollAt.all (fun a => decide (s.now - a ≥ ((regF s 0xC014 9 0 * 1000 : Nat) : Int)))

/-- A poll that failed with a DMA error: the third in a row is a host loss (R310, R337). -/
def pollFailed (s : State) : State :=
  let n := s.hre.pollFails + 1
  let s := dmaError 255 (reg64 s 0xC008) { s with hre := { s.hre with pollFails := n } }
  if n ≥ 3 then hostLoss true 1 s else s

/-- A poll that read the host area. -/
def pollTaken (p : PollRead) (ws : List Word) (s : State) : State :=
  let s := takeBeat (nth 0 ws 5) { s with hre := { s.hre with pollFails := 0 } }
  p.cmds.foldl (fun s r => nextCmd r s) (takeIndices ws p.posts s)

/-- HRE_POLL (R313). -/
def execHrePoll (p : PollRead) (s : State) : Host.Outcome State Fault Refusal :=
  let s := atTime p.t s
  if !(hreRun s && hostCan s && pollDue s) then settle s
  else
    let s := bump 0xCC00 { s with hre := { s.hre with knock := false, pollAt := some s.now } }
    match p.area with
    | none => settle (pollFailed s)
    | some ws => settle (pollTaken p ws s)

end Sys2Proof.Machine
end

