-- ==== Sys2Proof/Machine/Dispatch.lean ====
section
/-!
DEFINITION. Machine/Dispatch.lean: one arm per command, each a direct call of its meaning.
-/
namespace Sys2Proof.Machine

/-- The effect of a command on everything but the queue (spec/opcode_table.json). -/
def exec (i : Instr) (s : State) : Host.Outcome State Fault Refusal :=
  match i with
  | .nop c => Sys2Proof.Machine.execNop c s
  | .portStart c => Sys2Proof.Machine.execPortStart c s
  | .portStop c => Sys2Proof.Machine.execPortStop c s
  | .planApply c => Sys2Proof.Machine.execPlanApply c s
  | .groupRetune c => Sys2Proof.Machine.execGroupRetune c s
  | .gaugeSet c => Sys2Proof.Machine.execGaugeSet c s
  | .refclkSelect c => Sys2Proof.Machine.execRefclkSelect c s
  | .linkReadmit c => Sys2Proof.Machine.execLinkReadmit c s
  | .filterSync c => Sys2Proof.Machine.execFilterSync c s
  | .bankSwap c => Sys2Proof.Machine.execBankSwap c s
  | .headFlush c => Sys2Proof.Machine.execHeadFlush c s
  | .headStats c => Sys2Proof.Machine.execHeadStats c s
  | .prepReset c => Sys2Proof.Machine.execPrepReset c s
  | .condReset c => Sys2Proof.Machine.execCondReset c s
  | .directReset c => Sys2Proof.Machine.execDirectReset c s
  | .restoreConfirm c => Sys2Proof.Machine.execRestoreConfirm c s
  | .sectionStats c => Sys2Proof.Machine.execSectionStats c s
  | .laneRetire c => Sys2Proof.Machine.execLaneRetire c s
  | .laneReadmit c => Sys2Proof.Machine.execLaneReadmit c s
  | .topoSwitch c => Sys2Proof.Machine.execTopoSwitch c s
  | .seedSave c => Sys2Proof.Machine.execSeedSave c s
  | .survey c => Sys2Proof.Machine.execSurvey c s
  | .legacyCal c => Sys2Proof.Machine.execLegacyCal c s
  | .sweepCal c => Sys2Proof.Machine.execSweepCal c s
  | .recRead c => Sys2Proof.Machine.execRecRead c s
  | .recFreeze c => Sys2Proof.Machine.execRecFreeze c s
  | .recUnfreeze c => Sys2Proof.Machine.execRecUnfreeze c s
  | .hisRetrieve c => Sys2Proof.Machine.execHisRetrieve c s
  | .diagPost c => Sys2Proof.Machine.execDiagPost c s
  | .debugChallenge c => Sys2Proof.Machine.execDebugChallenge c s
  | .debugResponse c => Sys2Proof.Machine.execDebugResponse c s
  | .debugClose c => Sys2Proof.Machine.execDebugClose c s
  | .lifecycleSet c => Sys2Proof.Machine.execLifecycleSet c s
  | .attest c => Sys2Proof.Machine.execAttest c s
  | .powerRequest c => Sys2Proof.Machine.execPowerRequest c s
  | .idcode t => Sys2Proof.Machine.execIdcode t s
  | .bypass t => Sys2Proof.Machine.execBypass t s
  | .samplePreload t balls => Sys2Proof.Machine.execSamplePreload t balls s
  | .dbgRead t what => Sys2Proof.Machine.execDbgRead t what s
  | .dbgLane t op => Sys2Proof.Machine.execDbgLane t op s
  | .extest t => Sys2Proof.Machine.execExtest t s
  | .intest t => Sys2Proof.Machine.execIntest t s
  | .clamp t => Sys2Proof.Machine.execClamp t s
  | .highz t => Sys2Proof.Machine.execHighz t s
  | .scan t => Sys2Proof.Machine.execScan t s
  | .keyLoad t slot key same => Sys2Proof.Machine.execKeyLoad t slot key same s
  | .trstNReset t => Sys2Proof.Machine.execTrstNReset t s
  | .registerWrite t off aligned value => Sys2Proof.Machine.execRegisterWrite t off aligned value s
  | .rwpWrite t off value => Sys2Proof.Machine.execRwpWrite t off value s
  | .tableWindowWrite t word value => Sys2Proof.Machine.execTableWindowWrite t word value s
  | .hreKnock t value => Sys2Proof.Machine.execHreKnock t value s
  | .hreCtlRun t run => Sys2Proof.Machine.execHreCtlRun t run s
  | .hreRingEnable t ring value => Sys2Proof.Machine.execHreRingEnable t ring value s
  | .fchSyncntArm t inst high => Sys2Proof.Machine.execFchSyncntArm t inst high s
  | .fchRsmpWrite t inst value => Sys2Proof.Machine.execFchRsmpWrite t inst value s
  | .bscDomctlOff t off => Sys2Proof.Machine.execBscDomctlOff t off s
  | .bscDomctlRestart t bits => Sys2Proof.Machine.execBscDomctlRestart t bits s
  | .hscRegEnable t k en => Sys2Proof.Machine.execHscRegEnable t k en s
  | .hscRegHold t k hold => Sys2Proof.Machine.execHscRegHold t k hold s
  | .hscSdefEnable t d en => Sys2Proof.Machine.execHscSdefEnable t d en s
  | .lhfExcitationChange t sys ctl value => Sys2Proof.Machine.execLhfExcitationChange t sys ctl value s
  | .counterRead t off => Sys2Proof.Machine.execCounterRead t off s
  | .multiwordReadLatch t off => Sys2Proof.Machine.execMultiwordReadLatch t off s
  | .vinReturn t tj => Sys2Proof.Machine.execVinReturn t tj s
  | .powerFail t stepsDone => Sys2Proof.Machine.execPowerFail t stepsDone s
  | .aonLoss t => Sys2Proof.Machine.execAonLoss t s
  | .vinLow t mv => Sys2Proof.Machine.execVinLow t mv s
  | .vinHigh t mv => Sys2Proof.Machine.execVinHigh t mv s
  | .resetNAssert t => Sys2Proof.Machine.execResetNAssert t s
  | .resetNRelease t tj => Sys2Proof.Machine.execResetNRelease t tj s
  | .wakeN t tj => Sys2Proof.Machine.execWakeN t tj s
  | .perstN t => Sys2Proof.Machine.execPerstN t s
  | .functionLevelReset t => Sys2Proof.Machine.execFunctionLevelReset t s
  | .d3hotEntry t => Sys2Proof.Machine.execD3hotEntry t s
  | .pcieLinkDown t => Sys2Proof.Machine.execPcieLinkDown t s
  | .busMasterDisable t => Sys2Proof.Machine.execBusMasterDisable t s
  | .hostTimeout t => Sys2Proof.Machine.execHostTimeout t s
  | .syncInEdge t => Sys2Proof.Machine.execSyncInEdge t s
  | .sysrefEdge t port => Sys2Proof.Machine.execSysrefEdge t port s
  | .refLoss t ref => Sys2Proof.Machine.execRefLoss t ref s
  | .refMonitorWindow t a b p => Sys2Proof.Machine.execRefMonitorWindow t a b p s
  | .holdoverExpiry t => Sys2Proof.Machine.execHoldoverExpiry t s
  | .refReturn t ref => Sys2Proof.Machine.execRefReturn t ref s
  | .refAvailable t ref => Sys2Proof.Machine.execRefAvailable t ref s
  | .referenceSelect t ref => Sys2Proof.Machine.execReferenceSelect t ref s
  | .laneSelftestDone t lane pass => Sys2Proof.Machine.execLaneSelftestDone t lane pass s
  | .bringupComplete t => Sys2Proof.Machine.execBringupComplete t s
  | .domainRampEnd t dom r => Sys2Proof.Machine.execDomainRampEnd t dom r s
  | .domainTrip t dom cause => Sys2Proof.Machine.execDomainTrip t dom cause s
  | .domainRestart t dom => Sys2Proof.Machine.execDomainRestart t dom s
  | .aonTrip t => Sys2Proof.Machine.execAonTrip t s
  | .hostEccInitDone t => Sys2Proof.Machine.execHostEccInitDone t s
  | .standbyEntry t => Sys2Proof.Machine.execStandbyEntry t s
  | .planStartAtT0 t port => Sys2Proof.Machine.execPlanStartAtT0 t port s
  | .portStopEffect t port => Sys2Proof.Machine.execPortStopEffect t port s
  | .planChangeAtP t port => Sys2Proof.Machine.execPlanChangeAtP t port s
  | .shot t port => Sys2Proof.Machine.execShot t port s
  | .extendedMultiblockRelease m => Sys2Proof.Machine.execExtendedMultiblockRelease m s
  | .lineSampleHandover t port => Sys2Proof.Machine.execLineSampleHandover t port s
  | .paceRequest t port m => Sys2Proof.Machine.execPaceRequest t port m s
  | .channeliserBlock t port slateFails => Sys2Proof.Machine.execChanneliserBlock t port slateFails s
  | .cornerTurnBlockClose t inst slateFails cross => Sys2Proof.Machine.execCornerTurnBlockClose t inst slateFails cross s
  | .zoneSample t inst fails slateFails => Sys2Proof.Machine.execZoneSample t inst fails slateFails s
  | .ledgerItemTake t lane source => Sys2Proof.Machine.execLedgerItemTake t lane source s
  | .ledgerTick k => Sys2Proof.Machine.execLedgerTick k s
  | .digestTransferReceive t lane crcOk round digests located => Sys2Proof.Machine.execDigestTransferReceive t lane crcOk round digests located s
  | .comparisonTimeout t lane => Sys2Proof.Machine.execComparisonTimeout t lane s
  | .blockRelease t lane block aonOk hostOk => Sys2Proof.Machine.execBlockRelease t lane block aonOk hostOk s
  | .readmitSelftestDone t lane pass => Sys2Proof.Machine.execReadmitSelftestDone t lane pass s
  | .frameSend t lane index dyn checks => Sys2Proof.Machine.execFrameSend t lane index dyn checks s
  | .claimSend t lane id => Sys2Proof.Machine.execClaimSend t lane id s
  | .frameReceive f crossOk => Sys2Proof.Machine.execFrameReceive f crossOk s
  | .claimReceive t port id rx => Sys2Proof.Machine.execClaimReceive t port id rx s
  | .lettersMerge t lane node => Sys2Proof.Machine.execLettersMerge t lane node s
  | .masterDecision t => Sys2Proof.Machine.execMasterDecision t s
  | .probeRequestSend t port => Sys2Proof.Machine.execProbeRequestSend t port s
  | .probeRequestReceive t port set => Sys2Proof.Machine.execProbeRequestReceive t port set s
  | .probeReflectionSend t port => Sys2Proof.Machine.execProbeReflectionSend t port s
  | .probeReflectionReceive t port wait => Sys2Proof.Machine.execProbeReflectionReceive t port wait s
  | .probeLost t port => Sys2Proof.Machine.execProbeLost t port s
  | .listenTimeout t lane => Sys2Proof.Machine.execListenTimeout t lane s
  | .ridgeForward t branch rx => Sys2Proof.Machine.execRidgeForward t branch rx s
  | .ridgeWindowClose t branch => Sys2Proof.Machine.execRidgeWindowClose t branch s
  | .branchUnblock t branch => Sys2Proof.Machine.execBranchUnblock t branch s
  | .ridgeIdleTimeout t => Sys2Proof.Machine.execRidgeIdleTimeout t s
  | .ringFrameReceive f => Sys2Proof.Machine.execRingFrameReceive f s
  | .ringFrameSend t dir => Sys2Proof.Machine.execRingFrameSend t dir s
  | .ringPortBreak t rp3 => Sys2Proof.Machine.execRingPortBreak t rp3 s
  | .ringPortReturn t rp3 => Sys2Proof.Machine.execRingPortReturn t rp3 s
  | .rpLos t port => Sys2Proof.Machine.execRpLos t port s
  | .pollSend t lane => Sys2Proof.Machine.execPollSend t lane s
  | .pollReceive f => Sys2Proof.Machine.execPollReceive f s
  | .pollReplySend t lane => Sys2Proof.Machine.execPollReplySend t lane s
  | .pollReplyTimeout t lane => Sys2Proof.Machine.execPollReplyTimeout t lane s
  | .legacyPollSend t => Sys2Proof.Machine.execLegacyPollSend t s
  | .legacyReplyReceive cs => Sys2Proof.Machine.execLegacyReplyReceive cs s
  | .legacyReplyTimeout t => Sys2Proof.Machine.execLegacyReplyTimeout t s
  | .legacyWalkStart t => Sys2Proof.Machine.execLegacyWalkStart t s
  | .legacyPollReceive cs => Sys2Proof.Machine.execLegacyPollReceive cs s
  | .legacyReplySend t => Sys2Proof.Machine.execLegacyReplySend t s
  | .sarConversion t sar code => Sys2Proof.Machine.execSarConversion t sar code s
  | .routineConversion t reading0 reading1 => Sys2Proof.Machine.execRoutineConversion t reading0 reading1 s
  | .urgentConversion t sys reading => Sys2Proof.Machine.execUrgentConversion t sys reading s
  | .clampTrip t sys positive => Sys2Proof.Machine.execClampTrip t sys positive s
  | .clampRelease t sys => Sys2Proof.Machine.execClampRelease t sys s
  | .toneBurstStart t sys => Sys2Proof.Machine.execToneBurstStart t sys s
  | .toneBurstEvaluate t sys => Sys2Proof.Machine.execToneBurstEvaluate t sys s
  | .budgetPeriod t m => Sys2Proof.Machine.execBudgetPeriod t m s
  | .jobQuantumEnd t res room ce ue => Sys2Proof.Machine.execJobQuantumEnd t res room ce ue s
  | .hrePoll p => Sys2Proof.Machine.execHrePoll p s
  | .msixCoalesceTimer t v => Sys2Proof.Machine.execMsixCoalesceTimer t v s
  | .streamBlockPack t n => Sys2Proof.Machine.execStreamBlockPack t n s
  | .streamFlushTimer t n => Sys2Proof.Machine.execStreamFlushTimer t n s
  | .jobBufferTimeout t his => Sys2Proof.Machine.execJobBufferTimeout t his s
  | .historyBlockWrite t k => Sys2Proof.Machine.execHistoryBlockWrite t k s
  | .holdCountdownEnd t k => Sys2Proof.Machine.execHoldCountdownEnd t k s
  | .eventTake t => Sys2Proof.Machine.execEventTake t s
  | .nvmWordWrite t torn => Sys2Proof.Machine.execNvmWordWrite t torn s
  | .operatingSecond t => Sys2Proof.Machine.execOperatingSecond t s
  | .seedPeriodExpiry t => Sys2Proof.Machine.execSeedPeriodExpiry t s
  | .bankCheckDone t => Sys2Proof.Machine.execBankCheckDone t s
  | .freezeTimeout t => Sys2Proof.Machine.execFreezeTimeout t s
  | .sweepCalEnd t => Sys2Proof.Machine.execSweepCalEnd t s
  | .debugSessionTimeout t => Sys2Proof.Machine.execDebugSessionTimeout t s
  | .debugLockoutEnd t => Sys2Proof.Machine.execDebugLockoutEnd t s
  | .multiblockArrival t port pol lanes => Sys2Proof.Machine.execMultiblockArrival t port pol lanes s
  | .configurationRequest t req => Sys2Proof.Machine.execConfigurationRequest t req s
  | .perstNRelease t => Sys2Proof.Machine.execPerstNRelease t s
  | .scrubPassStart t => Sys2Proof.Machine.execScrubPassStart t s
  | .bandChangeSettled t dom => Sys2Proof.Machine.execBandChangeSettled t dom s

end Sys2Proof.Machine
end

