-- ==== Sys2Proof/Safety.lean ====
section
/-!
DEFINITION. Safety.lean: what the statements speak of beside the machine itself: when a host command takes its effect, how it completes, what a
command may leave changed beside its own effect, and the invariants.
-/
namespace Sys2Proof.Machine

/-! ## Host commands (R317, R322, R324) -/

/-- A host command is examined at its instant and passes checks 2 to 8 (R317, R319). -/
def Passes (op : Nat) (c : HostCmd) (s : State) : Prop :=
  examinable c (atTime c.t s) = true ∧ (examine op c (takeCmd c (atTime c.t s))).1 = none

/-- A host command is examined at its instant and refused with a status by checks 2 to 8 (R317). -/
def Fails (op : Nat) (c : HostCmd) (st : Nat) (s : State) : Prop :=
  examinable c (atTime c.t s) = true ∧ (examine op c (takeCmd c (atTime c.t s))).1 = some st

/-- The opcode and descriptor of a host command (R320); none for every other command. -/
def hostOp : Instr → Option (Nat × HostCmd)
  | .nop c => some (0x01, c)
  | .portStart c => some (0x10, c)
  | .portStop c => some (0x11, c)
  | .planApply c => some (0x12, c)
  | .groupRetune c => some (0x13, c)
  | .gaugeSet c => some (0x14, c)
  | .refclkSelect c => some (0x15, c)
  | .linkReadmit c => some (0x16, c)
  | .filterSync c => some (0x18, c)
  | .bankSwap c => some (0x19, c)
  | .headFlush c => some (0x20, c)
  | .headStats c => some (0x21, c)
  | .prepReset c => some (0x28, c)
  | .condReset c => some (0x29, c)
  | .directReset c => some (0x2A, c)
  | .restoreConfirm c => some (0x2B, c)
  | .sectionStats c => some (0x2C, c)
  | .laneRetire c => some (0x30, c)
  | .laneReadmit c => some (0x31, c)
  | .topoSwitch c => some (0x38, c)
  | .seedSave c => some (0x39, c)
  | .survey c => some (0x40, c)
  | .legacyCal c => some (0x41, c)
  | .sweepCal c => some (0x42, c)
  | .recRead c => some (0x48, c)
  | .recFreeze c => some (0x49, c)
  | .recUnfreeze c => some (0x4A, c)
  | .hisRetrieve c => some (0x50, c)
  | .diagPost c => some (0x58, c)
  | .debugChallenge c => some (0x60, c)
  | .debugResponse c => some (0x61, c)
  | .debugClose c => some (0x62, c)
  | .lifecycleSet c => some (0x63, c)
  | .attest c => some (0x64, c)
  | .powerRequest c => some (0x68, c)
  | _ => none

/-- The completion descriptor of a command as it is written to CPL at the command's own examination (R315, R322). -/
def completion (op : Nat) (c : HostCmd) (st : Nat) (r0 r1 : Word) (s : State) : Out :=
  .hostWrite (ringAddr (atTime c.t s) 1 s.hre.cplProd) (wordsBytes (cplWords (atTime c.t s) (outOf c op 0) st r0 r1 false false))

/-! ## Frames -/

/-- The state s with what publishing to the host may change taken from t: the instant with the counters that show it, what left the part, the letterbox's
device area, the vectors on their way (R280, R312, R333, R334). -/
def shown (s t : State) : State :=
  { s with now := t.now, clk := t.clk, out := t.out,
           hre := { s.hre with devSeq := t.hre.devSeq, devImage := t.hre.devImage, devAt := t.hre.devAt, firing := t.hre.firing,
                               vecPend := t.hre.vecPend } }

/-- The state s with what publishing, counting and reporting may change taken from t: beside `shown`, the counters, the events on their way to the
recorder and the age of the vectors' items (R333, R429, R459). -/
def reported (s t : State) : State :=
  { shown s t with ctr := t.ctr, erc := { s.erc with inbox := t.erc.inbox },
                   hre := { (shown s t).hre with vecCount := t.hre.vecCount, vecAt := t.hre.vecAt } }

/-- The state s with what the acceptance and the completion of host commands may change taken from t: beside `reported`, the ring indices and the
outstanding commands (R315, R319). -/
def answered (s t : State) : State :=
  { reported s t with
    hre := { (reported s t).hre with cmdCons := t.hre.cmdCons, cplProd := t.hre.cplProd, out := t.hre.out, nextId := t.hre.nextId,
                                     orphans := t.hre.orphans, orphansOver := t.hre.orphansOver } }

/-- The store p with a commit of C_res where q's count of them shows one more, else p (R318). -/
def reserved (p q : PstSt) : PstSt := if q.cresK = p.cresK then p else cresStored q.cres p

/-- The state s with what the examination, the acceptance and the completion of a host command may change taken from t: beside `answered`, the
franked-command counter and a commit of its reserve (R317, R318). -/
def commanded (s t : State) : State :=
  { answered s t with sec := { s.sec with cLast := t.sec.cLast }, pst := reserved s.pst t.pst }

/-- A command completed at its examination with a status and results: taken from CMD, nothing outstanding, one descriptor written to CPL (R324). -/
def Completed (op : Nat) (c : HostCmd) (st : Nat) (r0 r1 : Word) (s t : State) : Prop :=
  t.hre.cmdCons = c.index + 1 ∧ t.hre.cplProd = s.hre.cplProd + 1 ∧ t.hre.out = s.hre.out ∧ t.hre.nextId = s.hre.nextId
    ∧ completion op c st r0 r1 s ∈ t.out

/-- A command accepted: taken from CMD, outstanding under a new id, nothing written to CPL (R319, R324). -/
def Accepted (op : Nat) (c : HostCmd) (s t : State) : Prop :=
  t.hre.cmdCons = c.index + 1 ∧ t.hre.cplProd = s.hre.cplProd ∧ t.hre.nextId = s.hre.nextId + 1
    ∧ t.hre.out = s.hre.out ++ [outOf c op (s.hre.nextId + 1)]

/-- The outstanding command of an id completed at t by something else than its own examination: no longer outstanding, and its descriptor written to CPL
where the host takes it (R324). -/
def Finished (t : Int) (id st : Nat) (r0 r1 : Word) (s u : State) : Prop :=
  u.hre.out = s.hre.out.filter (fun o => o.id != id)
    ∧ ∀ o, outFind s id = some o → hreRun s = true → hostCan s = true →
      u.hre.cplProd = s.hre.cplProd + 1
        ∧ Out.hostWrite (ringAddr (atTime t s) 1 s.hre.cplProd) (wordsBytes (cplWords (atTime t s) o st r0 r1 false false)) ∈ u.out

/-! ## Invariants -/

/-- The canonical form of the NVM's words: keys rising, no word listed that holds what it was delivered with (INVENTORY.md, Memory and
ordering). -/
def nvmWf (p : PstSt) : Bool := rising p.words && p.words.all (fun e => e.2 ≠ nvmDelivered e.1)

/-- What the host sees is current: while the HRE runs and may write, the letterbox's device area as last written holds its fields' values, or
less than a microsecond has passed since that write; and once it holds them, no vector waits (R312, R334). -/
def AreaCurrent (s : State) : Prop :=
  hostCan s = true → hreRun s = true →
    (devArea s = s.hre.devImage ∧ s.hre.firing = []) ∨ (s.hre.devImage ≠ [] ∧ s.now - s.hre.devAt < 1000)

/-- No head of either lane holds more peaks than its list has entries (R137, R142). -/
def PeakListsBounded (s : State) : Prop :=
  ∀ l, ∀ e ∈ (s.hen.lane l).heads, ∀ x, e.2 = some x → x.list.length ≤ 32

end Sys2Proof.Machine
end

