-- ==== Sys2Proof/Certificates/Slice0/Obligations.lean ====
section
/-!
DEFINITION. Certificates/Slice0/Obligations.lean: what the block does, family by family, as the spec's rules say it: each statement says that its commands
complete, with what, and what they leave as it was.
-/
open Sys2Proof Sys2Proof.Machine

/-! ## The queue and the host interface -/

/-- The queue (log entry 2): a step takes the command at the front and runs it on the state with the queue's rest; on an empty queue the
block idles.
The model's own choices that it rests on: log entry 2. -/
def Obligations.StepServesQueueFront : Prop :=
  (∀ (c : Instr) (rest : List Instr) (s : State), s.pending = c :: rest → step s = exec c { s with pending := rest })
    ∧ (∀ s : State, s.pending = [] → step s = .next s)

/-- NOP completes at acceptance, with the current round in its results; it does nothing else (R320, R324). -/
def Obligations.NopCompletesWithRound : Prop :=
  ∀ (c : HostCmd) (s : State), Passes 0x01 c s →
    ∃ t, exec (.nop c) s = .next t
      ∧ Completed 0x01 c stApplied (lo32 (c.t / roundNs s)) (hi32 (u64 (c.t / roundNs s))) s t
      ∧ t.sec = s.sec ∧ t.pst = s.pst ∧ t = { commanded s t with now := c.t }

/-- The power states (R325) and DECOMMISSIONED (of R397). In SAFEHALT a host command that passes checks 1 to 3 and is not among those that R325 permits completes with
REFUSED_POWER; in STANDBY, where HOST is off, none is examined; in every other power state, and for a permitted one, check 4 passes. In DECOMMISSIONED one that its matrix does not
permit completes with REFUSED_LIFECYCLE. A refused command has no effect: only the ring indices, counters and interrupts of the completion change. -/
def Obligations.HaltedDeviceRefusesCommands : Prop :=
  ∀ (i : Instr) (op : Nat) (c : HostCmd) (s : State), hostOp i = some (op, c) →
    (s.bsc.power = .standby → active s .host = false → ∃ t, exec i s = .next t ∧ t = { shown s t with now := c.t })
    ∧ (examinable c (atTime c.t s) = true → argsOk op c = true → argsAt s op c = true →
      (s.bsc.power = .safehalt → safehaltOps.contains op = false →
        ∃ t, exec i s = .next t ∧ Completed op c stRefusedPower 0 0 s t ∧ t.sec = s.sec ∧ t.pst = s.pst ∧ t = { commanded s t with now := c.t })
      ∧ ((s.bsc.power ≠ .safehalt ∨ safehaltOps.contains op = true) →
        (examine op c (takeCmd c (atTime c.t s))).1 ≠ some stRefusedPower
        ∧ (s.sec.lifecycle = 5 → decommissionedOps.contains op = false →
          ∃ t, exec i s = .next t ∧ Completed op c stRefusedLifecycle 0 0 s t ∧ t.sec = s.sec ∧ t.pst = s.pst
            ∧ t = { commanded s t with now := c.t })))

/-- A franked command (class F) that reaches checks 6 to 8 outside MANUFACTURE: REFUSED_AON while AON is lost; REFUSED_COUNTER when CCOUNT is not above
C_last by 1 to 65 536 or C_last is at its end; else REFUSED_FRANK when its frank is not that of the CMD key. It has no effect, C_last
stays, and checks 7 and 8 record FRANK_REFUSED with opcode, CCOUNT and check (R317).
The model's own choices that it rests on: log entries 119, 153. -/
def Obligations.UnauthenticCommandHasNoEffect : Prop :=
  ∀ (i : Instr) (op : Nat) (c : HostCmd) (s : State), hostOp i = some (op, c) → examinable c (atTime c.t s) = true → argsOk op c = true →
    argsAt s op c = true → levelOk s op c = true → classF op = true → s.bsc.power ≠ .safehalt → s.sec.lifecycle ≠ 5 → s.sec.lifecycle ≠ 1 →
    let fresh := s.sec.cLast < c.ccount.toNat ∧ c.ccount.toNat ≤ s.sec.cLast + 65536 ∧ s.sec.cLast ≠ 4294967295
    let gone := fun (st : Nat) => ∃ t, exec i s = .next t ∧ Completed op c st 0 0 s t ∧ t.sec = s.sec ∧ t.pst = s.pst
      ∧ t = { commanded s t with now := c.t }
      ∧ t.erc.inbox = s.erc.inbox ++ (if st = stRefusedAon then [] else
          [{ code := evFrankRefused, src := 4, p0 := w32 op, p1 := c.ccount, p2 := w32 (if st = stRefusedCounter then 7 else 8), solo := false }])
    (aonUp s = false → gone stRefusedAon)
    ∧ (aonUp s = true → ¬ fresh → gone stRefusedCounter)
    ∧ (aonUp s = true → fresh → ((slotOf s.sec 0).status ≠ 1 ∨ cmdFrank s 1 (cmdBody op c) ≠ wordsBytes [c.w6, c.w7]) → gone stRefusedFrank)

/-- HRE_KNOCK: while HOST is ACTIVE a write of any value counts at 0xCC04 and a poll is due when the HRE runs; otherwise the write is
discarded. Nothing else changes (R313, R451, R459).
The control of the rings (R314): HRE_CTL.RUN and each ring's third word are written as given; SIZE stays as it is while its ring is
enabled, a SIZE outside 6 to 16 leaves the whole word, and both attempts are recorded; a ring whose EN rises starts at index 0 on both sides, and a rise of
RUN ends a host loss and restarts the enabled rings. No other register word changes.
The model's own choices that it rests on: log entry 88. -/
def Obligations.RingControlWritesItsWord : Prop :=
  (∀ (t : Int) (v : Word) (s : State),
       (active s .host = true → ∃ u, exec (.hreKnock t v) s = .next u ∧ u.hre.knock = hreRun s
         ∧ u = { shown s u with now := t, ctr := (bump 0xCC04 s).ctr, hre := { (shown s u).hre with knock := hreRun s } })
       ∧ (active s .host = false → ∃ u, exec (.hreKnock t v) s = .next u ∧ u = { shown s u with now := t }))
  ∧ ((∀ (t : Int) (run : Bool) (s : State), active s .host = true →
         ∃ u, exec (.hreCtlRun t run) s = .next u ∧ u.regs = { s.regs with rw := tput (regReset 0xC000) 0xC000 (w32 (b2n run)) s.regs.rw }
           ∧ u.hsc = s.hsc ∧ u.pst = s.pst ∧ u.sec = s.sec ∧ u.stg = s.stg
           ∧ (hreRun s = false → hreRun u = true → u.hre.loss = .none ∧ u.hre.cmdCons = 0 ∧ u.hre.cmdProd = 0 ∧ u.hre.cplCons = 0
             ∧ u.hre.evtCons = 0 ∧ (s.hre.busMaster = true → u.hre.orphans = []))
           ∧ ((hreRun s = true ∨ hreRun u = false) → u.hre = (shown s u).hre))
       ∧ (∀ (t : Int) (r : Fin 13) (v : Word) (s : State), active s .host = true →
         let off := 0xC048 + 16 * r.val
         let word := fun (size : Nat) => tput (regReset off) off (w32 (256 * b2n (bitOf v 8) + size)) s.regs.rw
         ∃ u, exec (.hreRingEnable t r v) s = .next u ∧ u.hsc = s.hsc ∧ u.pst = s.pst ∧ u.sec = s.sec ∧ u.stg = s.stg ∧ u.dom = s.dom
           ∧ (ringEn s r = true → u.regs.rw = word (regF s off 4 0))
           ∧ (ringEn s r = true → fld v 4 0 ≠ regF s off 4 0 → aonUp s = true →
             { code := evWriteIgnored, src := 96, p0 := w32 off, p1 := v, p2 := 1, solo := false } ∈ u.erc.inbox)
           ∧ (ringEn s r = false → 6 ≤ fld v 4 0 → fld v 4 0 ≤ 16 → u.regs.rw = word (fld v 4 0)
             ∧ (bitOf v 8 = true → (r.val = 0 → u.hre.cmdCons = 0 ∧ u.hre.cmdProd = 0) ∧ (r.val = 1 → u.hre.cplCons = 0)
               ∧ (r.val = 2 → u.hre.evtCons = 0)))
           ∧ (ringEn s r = false → (fld v 4 0 < 6 ∨ 16 < fld v 4 0) → u.regs = s.regs ∧ (aonUp s = true →
             { code := evWriteIgnored, src := 96, p0 := w32 off, p1 := v, p2 := 0, solo := false } ∈ u.erc.inbox))))

/-- The host losses of kind STOPPED (R337): the loss stands, it is counted, HOST_LOSS records kind and cause, and the HRE may issue no more requests.
Link loss, function-level reset, D3hot and PERST_N reset HOST besides: its RW words at their reset values, its rings empty, its stream definitions and
regions disabled (R435). Everything outside HOST stays.
The PCIe function (R309, R442): PERST_N_RELEASE lets configuration requests in once HOST is ACTIVE; a configuration request gets Retry Status until
then, and a successful completion after: word 0x00 is device ID 0x4820 over the vendor ID, BAR0 reads as a 64-bit memory BAR that is not prefetchable at the
1 MiB boundary last written, the BARs that do not exist read 0, bus mastering turns as written.
The model's own choices that it rests on: log entries 4, 94, 155. -/
def Obligations.HostLossAndConfiguration : Prop :=
  (∀ (t : Int) (s : State), s.hre.loss ≠ .stopped →
       let said := fun (cause : Nat) (u : State) => u.hre.loss = .stopped ∧ u.hre.losses = satAdd 32 s.hre.losses 1 ∧ hostCan u = false
         ∧ u.hre.out = s.hre.out ∧ u.hre.orphans = s.hre.orphans ∧ u.out = s.out
         ∧ u.erc.inbox = s.erc.inbox ++ (if aonUp s then
             [{ code := evHostLoss, src := 96, p0 := 1, p1 := w32 cause, p2 := 0, solo := false }] else [])
       let reset := fun (cause : Nat) (u : State) => said cause u ∧ u.hre.rings = [] ∧ u.hre.busMaster = false ∧ u.hsc = hscDisable s.hsc
         ∧ u.regs.rw = s.regs.rw.filter (fun e => !hostOff e.1)
         ∧ u = { s with now := t, clk := runClocks t s, regs := u.regs, hsc := u.hsc, hre := u.hre, erc := { s.erc with inbox := u.erc.inbox } }
       (∃ u, exec (.pcieLinkDown t) s = .next u ∧ reset 2 u ∧ u.hre.linkUp = false)
       ∧ (∃ u, exec (.functionLevelReset t) s = .next u ∧ reset 4 u)
       ∧ (∃ u, exec (.d3hotEntry t) s = .next u ∧ reset 5 u ∧ u.hre.d3hot = true)
       ∧ (∃ u, exec (.perstN t) s = .next u ∧ reset 2 u ∧ u.hre.perst = true ∧ u.hre.linkUp = false)
       ∧ (∃ u, exec (.busMasterDisable t) s = .next u ∧ said 3 u
           ∧ u = { s with now := t, clk := runClocks t s, hre := { s.hre with loss := .stopped, losses := u.hre.losses, busMaster := false },
                          erc := { s.erc with inbox := u.erc.inbox } }))
  ∧ ((∀ (t : Int) (s : State), ∃ u, exec (.perstNRelease t) s = .next u
         ∧ u = { shown s u with now := t, hre := { (shown s u).hre with perst := false, linkUp := active s .host,
                                                                        cfgReadyAt := if active s .host then some t else none } })
       ∧ (∀ (t : Int) (req : CfgReq) (s : State), active s .host = false →
         exec (.configurationRequest t req) s = .next { s with now := t, clk := runClocks t s, out := s.out ++ [.config false 0] })
       ∧ (∀ (t : Int) (off : Nat) (s : State), active s .host = true → 
         (off = 0 ∨ off = 0x10 ∨ off = 0x14 ∨ off = 0x18 ∨ off = 0x1C ∨ off = 0x20 ∨ off = 0x24) →
         ∃ u, exec (.configurationRequest t (.read off)) s = .next u ∧ u = { shown s u with now := t }
           ∧ .config true (if off = 0 then 0x48201F7C else if off = 0x10 then w32 (s.hre.bar % 4294967296 + 4)
                           else if off = 0x14 then w32 (s.hre.bar / 4294967296) else 0) ∈ u.out)
       ∧ (∀ (t : Int) (a : BitVec 64) (s : State), active s .host = true →
         ∃ u, exec (.configurationRequest t (.bar a)) s = .next u ∧ u.hre.bar = a.toNat / 0x100000 * 0x100000 ∧ .config true 0 ∈ u.out
           ∧ u = { shown s u with now := t, hre := { (shown s u).hre with bar := u.hre.bar } })
       ∧ (∀ (t : Int) (s : State), active s .host = true → (hreRun s = false ∨ s.hre.orphans = [] ∧ s.hre.evtHold = []) →
         ∃ u, exec (.configurationRequest t (.busMaster true)) s = .next u ∧ .config true 0 ∈ u.out
           ∧ u = { shown s u with now := t, hre := { (shown s u).hre with busMaster := true, d3hot := false } }))

/-- HOST_TIMEOUT: with the HRE running and TIMEOUT at 1 to 10 000 ms, a HOST_BEAT unchanged that long suspends the host: counted and recorded with
kind 0 and cause 0; otherwise nothing happens (R337).
Two timers of the host interface. A vector whose oldest item is TIME µs old fires (R333): its count and age return to none, and its message leaves
at once where the device area need not go first (R334). A job of REC or HIS whose data has met no posted buffer for 1 s completes and leaves the queue; the
others stay (R328). -/
def Obligations.HostTimersFire : Prop :=
  (∀ (t : Int) (s : State), s.hre.loss = .none →
       let due := hreRun s = true ∧ 1 ≤ regF s 0xC018 13 0 ∧ regF s 0xC018 13 0 ≤ 10000
         ∧ (regF s 0xC018 13 0 : Int) * 1000000 ≤ t - s.hre.beatAt
       (due → ∃ u, exec (.hostTimeout t) s = .next u ∧ u.hre.loss = .suspended ∧ u.hre.losses = satAdd 32 s.hre.losses 1
         ∧ u.erc.inbox = s.erc.inbox ++ (if aonUp s then [{ code := evHostLoss, src := 96, p0 := 0, p1 := 0, p2 := 0, solo := false }] else [])
         ∧ u = { shown s u with now := t, hre := { (shown s u).hre with loss := .suspended, losses := u.hre.losses },
                                erc := { s.erc with inbox := u.erc.inbox } })
       ∧ (¬ due → ∃ u, exec (.hostTimeout t) s = .next u ∧ u = { shown s u with now := t }))
  ∧ ((∀ (t t0 : Int) (v : Fin 32) (s : State), active s .host = true → tget none v.val s.hre.vecAt = some t0 →
         (regF s (0xC180 + 4 * v.val) 31 16 : Int) * 1000 ≤ t - t0 →
         ∃ u, exec (.msixCoalesceTimer t v) s = .next u
           ∧ u = { shown s u with now := t, hre := { (shown s u).hre with vecCount := tput 0 v.val 0 s.hre.vecCount,
                                                                          vecAt := tput none v.val none s.hre.vecAt } }
           ∧ (hostCan s = false → u.hre.firing = s.hre.firing ++ [v.val])
           ∧ (hostCan s = true → hreRun s = false → vecMasked s v.val = false →
             .msix v.val (reg64 s (0x12000 + 16 * v.val)) (reg s (0x12008 + 16 * v.val)) ∈ u.out))
       ∧ (∀ (t : Int) (his : Bool) (s : State),
         let late := fun (j : Job) => j.kind = (if his then 0x50 else 0x48) ∧ ∃ w, j.waitAt = some w ∧ 1000000000 ≤ t - w
         ∃ u, exec (.jobBufferTimeout t his) s = .next u ∧ u.pst = s.pst ∧ u.hsc = s.hsc ∧ u.stg = s.stg
           ∧ (∀ j, j ∈ u.bsc.jobs ↔ j ∈ s.bsc.jobs ∧ ∀ k ∈ s.bsc.jobs ++ s.bsc.running, late k → k.id ≠ j.id ∨ k.kind ≠ j.kind)
           ∧ (∀ j, j ∈ u.bsc.running ↔ j ∈ s.bsc.running ∧ ∀ k ∈ s.bsc.jobs ++ s.bsc.running, late k → k.id ≠ j.id ∨ k.kind ≠ j.kind)))

/-! ## The persistent store and the recorder -/

/-- NVM_WORD_WRITE (R412, R415, R416): with AON up and no commit of a higher priority waiting, the word at the front of the write queue is written and
leaves the queue: it then reads as written, unless the write was cut short, and every other word of the NVM reads as before; the canonical form of the NVM
stays. A page write is counted in its wear gauge only when the word was in fact written (R418). A LEGACY_CAL whose channels are all done completes with
the last word that it had queued (R221).
The model's own choices that it rests on: log entry 126. -/
def Obligations.QueuedWordIsWrittenAlone : Prop :=
  ∀ (t : Int) (torn : Bool) (w : Nat) (v : Word) (q : List (Nat × Word)) (s : State), aonUp s = true → nvmWf s.pst = true →
    s.pst.wq = (w, v) :: q → 3 ≤ bestPrio s.pst.commits →
    ∃ u, exec (.nvmWordWrite t torn) s = .next u ∧ u.pst.wq = q ∧ nvmWf u.pst = true
      ∧ (torn = false → rising s.pst.bad = true → nvmWord? u.pst w = some v)
      ∧ (∀ a, a ≠ w → nvmWord? u.pst a = nvmWord? s.pst a)
      ∧ gaugeOf u.pst (w / 64) = gaugeOf s.pst (w / 64) + (if nvmWord? s.pst w = some v then 0 else 1)
      ∧ u = { answered s u with now := t, pst := u.pst, cal := { s.cal with legacy := u.cal.legacy } }
      ∧ (s.cal.legacy = none → u = { shown s u with now := t, pst := u.pst, erc := { s.erc with inbox := u.erc.inbox } })
      ∧ (∀ x, s.cal.legacy = some x →
        u.cal.legacy = if x.left = [] ∧ calQueued { s with pst := { s.pst with wq := q } } = false then none else some x)

/-- EVENT_TAKE (R429, R430, R433): with AON up, room in the recorder and no drop to report, the oldest event that reached the recorder is taken. Not frozen, its
record goes to the next circulating slot when its severity is at or above the keeping level, and the write number advances; frozen with room, it joins the
pending records instead.
OPERATING_SECOND (R420): with AON up and the device not off, one operating second is added modulo 2^32; every 360 s the count is put to
its set's next word, and only then.
The model's own choices that it rests on: log entry 121. -/
def Obligations.EventsAndSecondsAreKept : Prop :=
  (∀ (t : Int) (e : EvIn) (r : List EvIn) (s : State), aonUp s = true → s.erc.inbox = e :: r → s.erc.queued < 1024 → s.erc.dropPending = 0 →
       ∃ u, exec (.eventTake t) s = .next u ∧ u.erc.inbox = r ∧ u.pst.words = s.pst.words ∧ u.sec = s.sec ∧ u.bsc = s.bsc ∧ u.stg = s.stg
         ∧ (s.erc.frozen = false → regF s 0x10000 3 0 ≤ severity e.code → u.erc.w = s.erc.w + 1 ∧ u.erc.queued = s.erc.queued + 1
           ∧ { prio := 4, words := [(circBase + 8 * (s.erc.w % 15872) + 7, 0)], wrote := false,
               page := (circBase + 8 * (s.erc.w % 15872)) / 64, tag := .recErase } ∈ u.pst.commits)
         ∧ (s.erc.frozen = false → severity e.code < regF s 0x10000 3 0 → u.erc.w = s.erc.w ∧ u.pst.commits = s.pst.commits)
         ∧ (s.erc.frozen = true → s.erc.pending.length < 64 → u.erc.w = s.erc.w ∧ u.erc.pending.length = s.erc.pending.length + 1
           ∧ u.pst.commits = s.pst.commits))
  ∧ (∀ (t : Int) (s : State), aonUp s = true → s.bsc.power ≠ .off →
         let n := (s.pst.opSeconds + 1) % 4294967296
         ∃ u, exec (.operatingSecond t) s = .next u
           ∧ (n % 360 ≠ 0 → u = { shown s u with now := t, pst := { s.pst with opSeconds := n } })
           ∧ (n % 360 = 0 → u = { shown s u with
               now := t,
               pst := { s.pst with opSeconds := n, opCommits := s.pst.opCommits + 1,
                                   commits := s.pst.commits ++ [{ prio := 5, words := [(64 * (s.pst.opCommits % 16) + 63, w32 n)], wrote := false,
                                                                  page := s.pst.opCommits % 16, tag := .opsec }] } }))

/-- The freeze of the recorder (R433): REC_FREEZE is refused while frozen, and otherwise freezes from its instant; REC_UNFREEZE gives the number of pending
records and ends the freeze; a freeze that has stood for 10 s ends by itself, a younger one stands.
REC_READ is accepted as a queued job on the NVM, with base priority 2, that has read nothing yet (R357, R374, R432); it reads and writes no
word at its acceptance.
The model's own choices that it rests on: log entries 70, 121. -/
def Obligations.RecorderFreezesAndReads : Prop :=
  ((∀ (c : HostCmd) (s : State), Passes 0x49 c s → s.erc.frozen = false →
       ∃ u, exec (.recFreeze c) s = .next u ∧ Completed 0x49 c stApplied (w32 s.erc.pending.length) 0 s u
         ∧ u = { commanded s u with now := c.t, sec := s.sec, pst := s.pst,
                                    erc := { s.erc with frozen := true, frozenAt := c.t } })
     ∧ (∀ (c : HostCmd) (s : State), Passes 0x49 c s → s.erc.frozen = true →
       ∃ u, exec (.recFreeze c) s = .next u ∧ Completed 0x49 c stRefusedState 0 0 s u ∧ u = { commanded s u with now := c.t, sec := s.sec, pst := s.pst })
     ∧ (∀ (c : HostCmd) (s : State), Passes 0x4A c s →
       ∃ u, exec (.recUnfreeze c) s = .next u ∧ Completed 0x4A c stApplied (w32 s.erc.pending.length) 0 s u ∧ u.erc.frozen = false ∧ u.pst.words = s.pst.words ∧ u.sec = s.sec ∧ u.hre.cmdCons = c.index + 1
         ∧ (s.erc.frozen = true → u.erc.pending = []) ∧ u.erc.inbox = s.erc.inbox)
     ∧ (∀ (t : Int) (s : State), s.erc.frozen = true →
       (t - s.erc.frozenAt < 10000000000 → ∃ u, exec (.freezeTimeout t) s = .next u ∧ u = { shown s u with now := t })
       ∧ (10000000000 ≤ t - s.erc.frozenAt → ∃ u, exec (.freezeTimeout t) s = .next u ∧ u.erc.frozen = false ∧ u.erc.pending = []
         ∧ u.pst.words = s.pst.words ∧ u.sec = s.sec)))
  ∧ (∀ (c : HostCmd) (s : State), Passes 0x48 c s →
         ∃ u, exec (.recRead c) s = .next u ∧ Accepted 0x48 c s u
           ∧ u = { commanded s u with
                   now := c.t, sec := s.sec, pst := s.pst, erc := s.erc,
                   bsc := { s.bsc with
                     jobs := s.bsc.jobs ++ [
                       { id := s.hre.nextId + 1, index := c.index, prio := 2, res := .nvm, since := c.t, kind := 0x48,
                         args := [c.a0.toNat, c.a1.toNat], pos := 0, total := 0, waitAt := none }] } })

/-! ## Ports: plans, shots, references -/

/-- PORT_START (R52): on a stopped port whose domain is ACTIVE, with a reference selected, a t0 in the base in use and not past, and a staged plan that
passes its check, the plan is taken from the registers at acceptance and waits for t0, which for an immediate start is the first
instant of the 10 ns grid at least 20 µs away; the port's floor rises to the plan's at once (R368). A pending PORT_STOP makes it busy.
PORT_STOP (R52): a running port takes the stop at the end of the shot period in progress, and its pending changes are cancelled; a pending PORT_START
is cancelled instead and the stop completes at once; a stopped port without one refuses; one that waits for its restart after holdover gives the restart
up.
The model's own choices that it rests on: log entries 38, 40, 128. -/
def Obligations.PortsStartAndStopWithTheirPlan : Prop :=
  (∀ (c : HostCmd) (s : State), Passes 0x10 c s →
       let p := argPort c
       let x := s.stg.port p
       let t0 : Int := if bitOf c.a0 8 then grid10 (c.t + 20000) else (argA12 c : Int)
       (x.stop = none → x.run = 0 → x.start = none → (bitOf c.a0 8 = true ∨ bitOf c.a0 9 ≠ s.net.joined) → s.refs.sel ≠ none →
         active s p.dom = true → c.t ≤ t0 → planOk s p (stagedPlan s p) = true →
         ∃ u, exec (.portStart c) s = .next u ∧ Accepted 0x10 c s u
           ∧ (bitOf c.a0 8 = true → t0 % 10 = 0 ∧ c.t + 20000 ≤ t0 ∧ t0 < c.t + 20010)
           ∧ planFloor s p (stagedPlan s p) ≤ (u.dom.get p.dom).floor ∧ (∀ d, d ≠ p.dom → u.dom.get d = s.dom.get d)
           ∧ u = { commanded s u with now := c.t, dom := u.dom,
                                      stg := s.stg.setPort p { x with start := some { id := s.hre.nextId + 1, t0 := t0, plan := stagedPlan s p } } })
       ∧ (x.stop ≠ none → ∃ u, exec (.portStart c) s = .next u ∧ Completed 0x10 c stRefusedBusy 0 0 s u ∧ u = { commanded s u with now := c.t }))
  ∧ (∀ (c : HostCmd) (s : State), Passes 0x11 c s →
         let p := argPort c
         let x := s.stg.port p
         (x.stop = none → x.start = none → x.run = 1 → ∀ q, x.plan = some q → 0 < q.ts →
           ∃ u te, exec (.portStop c) s = .next u ∧ u.hre.nextId = s.hre.nextId + 1
             ∧ (u.stg.port p).stop = some (s.hre.nextId + 1, te) ∧ (te - x.t0) % (q.ts : Int) = 0 ∧ c.t < te ∧ te ≤ c.t + q.ts
             ∧ (u.stg.port p).retunes = [] ∧ (u.stg.port p).gauge = none ∧ (u.stg.port p).apply = none
             ∧ u = { commanded s u with now := c.t, stg := s.stg.setPort p (u.stg.port p) })
         ∧ (∀ r, x.stop = none → x.start = some r → x.run ≠ 2 →
           ∃ u, exec (.portStop c) s = .next u ∧ (u.stg.port p).start = none ∧ (u.stg.port p).stop = none ∧ (u.stg.port p).run = x.run
             ∧ outFind u r.id = none ∧ u.hre.nextId = s.hre.nextId
             ∧ u = { commanded s u with now := c.t, dom := u.dom, stg := s.stg.setPort p { x with start := none } })
         ∧ (x.stop = none → x.run = 2 →
           ∃ u, exec (.portStop c) s = .next u ∧ u.hre.nextId = s.hre.nextId + 1 ∧ (u.stg.port p).stop = some (s.hre.nextId + 1, c.t)
             ∧ (u.stg.port p).start = none ∧ (u.stg.port p).run = 2 ∧ (u.stg.port p).retunes = [] ∧ (u.stg.port p).gauge = none ∧ (u.stg.port p).apply = none
             ∧ u = { commanded s u with now := c.t, stg := s.stg.setPort p (u.stg.port p) })
         ∧ (x.stop = none → x.start = none → x.run = 0 →
           ∃ u, exec (.portStop c) s = .next u ∧ Completed 0x11 c stRefusedState 0 0 s u ∧ u = { commanded s u with now := c.t }))

/-- The pending changes of a running plan: PLAN_APPLY at the first shot-period boundary at or after t_a, the new plan one period later (R53); GROUP_RETUNE at
the first line index of its group at or after the one named (R54); GAUGE_SET at the first of group 0 (R92).
The model's own choices that it rests on: log entries 39, 131. -/
def Obligations.PlanChangesWaitForTheirLine : Prop :=
  (∀ (c : HostCmd) (s : State) (old : Plan), Passes 0x12 c s →
    let p := argPort c
    let x := s.stg.port p
    x.apply = none → x.plan = some old → 0 < old.ts → x.run ≠ 0 → x.stop = none → c.t + 20000 ≤ argA12 c →
    planOk s p (stagedPlan s p) = true →
    ∃ u a, exec (.planApply c) s = .next u ∧ u.hre.nextId = s.hre.nextId + 1 ∧ (u.stg.port p).apply = some a ∧ a.id = s.hre.nextId + 1
      ∧ (a.p - x.t0) % (old.ts : Int) = 0 ∧ (argA12 c : Int) ≤ a.p ∧ a.p < (argA12 c : Int) + old.ts ∧ a.t0 = a.p + old.ts
      ∧ a.np * (old.ts : Int) = (a.p - x.t0) * (old.groups : Int) ∧ a.plan = stagedPlan s p
      ∧ (∀ r, r ∈ (u.stg.port p).retunes ↔ r ∈ x.retunes ∧ r.n < a.np) ∧ (u.stg.port p).plan = x.plan ∧ (u.stg.port p).run = x.run
      ∧ u = { commanded s u with now := c.t, dom := u.dom, stg := s.stg.setPort p (u.stg.port p) })
  ∧ (∀ (c : HostCmd) (s : State) (q : Plan), Passes 0x13 c s →
    let p := argPort c
    let x := s.stg.port p
    let j := fld c.a0 10 8
    let w := stagedWidth s p j
    let en := bitOf (reg s (stgOff p + 0x1C)) j
    let r : Retune := { id := s.hre.nextId + 1, group := j, n := nextOf (argA12 c) j q.groups, width := w, en := en }
    x.plan = some q → x.run ≠ 0 → x.stop = none → x.apply = none → (∀ y ∈ x.retunes, y.group ≠ j) → j < q.groups →
    (x.last.getD (-1)) < argA12 c → (∀ y ∈ retuneSteps q ((x.retunes ++ [r]).foldr insertRetune []), retuneOk y = true) →
    ∃ u, exec (.groupRetune c) s = .next u ∧ Accepted 0x13 c s u ∧ (argA12 c : Int) ≤ r.n ∧ r.n < (argA12 c : Int) + q.groups
      ∧ r.n % (q.groups : Int) = j
      ∧ u = { commanded s u with now := c.t, stg := s.stg.setPort p { x with retunes := x.retunes ++ [r] } })
  ∧ (∀ (c : HostCmd) (s : State) (q : Plan), Passes 0x14 c s →
    let p := argPort c
    let x := s.stg.port p
    let g := stagedGauge s p
    x.plan = some q → 0 < q.groups → x.gauge = none → x.run ≠ 0 → x.stop = none → (x.last.getD (-1)) < argA12 c →
    1 ≤ g → g ≤ 16 → zonesOk s p q g = true →
    ∃ u n, exec (.gaugeSet c) s = .next u ∧ Accepted 0x14 c s u ∧ (argA12 c : Int) ≤ n ∧ n < (argA12 c : Int) + q.groups
      ∧ n % (q.groups : Int) = 0
      ∧ u = { commanded s u with now := c.t, dom := u.dom,
                                 stg := s.stg.setPort p { x with gauge := some { id := s.hre.nextId + 1, n := n, gauge := g,
                                                                                 scale := stagedScale s p } } })

/-- SHOT (R41, R42, R44, R54): on a running port the next line index is launched: SLOT_CODE names its group's slot, SHOT_GATE rises for the width of an enabled
group and stays low for a disabled one, and one line-sample token joins the port's queue, dark when the group was not lit before; the next index is
due. On a port that is not to launch, nothing happens.
The model's own choices that it rests on: log entry 14. -/
def Obligations.ShotLaunchesNextLine : Prop :=
  (∀ (t : Int) (p : Port) (q : Plan) (s : State), shotDue s p t = true → (s.stg.port p).plan = some q →
    let x := s.stg.port p
    ∃ u y sh, exec (.shot t p) s = .next u ∧ (u.stg.port p).plan = some y ∧ y.groups = q.groups
      ∧ (u.stg.port p).last = some x.next ∧ (u.stg.port p).next = x.next + 1
      ∧ (u.stg.port p).code = y.slotBase + (x.next % (q.groups : Int)).toNat * y.div
      ∧ (u.stg.port p).gate = (if y.lit (x.next % (q.groups : Int)).toNat then nth 0 y.widths (x.next % (q.groups : Int)).toNat else 0)
      ∧ (u.sin.port p).queue = (s.sin.port p).queue ++ [sh] ∧ sh.n = x.next ∧ sh.group = (x.next % (q.groups : Int)).toNat
      ∧ (y.lit sh.group = true → sh.t = t ∧ (sh.dark = true ↔ nth none x.lit sh.group = none))
      ∧ (y.lit sh.group = false → sh.lit = none ∧ sh.dark = true ∧ sh.t = nominal y x.t0 x.next)
      ∧ u = { commanded s u with now := t, dom := u.dom, stg := s.stg.setPort p (u.stg.port p), sin := s.sin.setPort p (u.sin.port p) })
  ∧ (∀ (t : Int) (p : Port) (s : State), shotDue s p t = false → ∃ u, exec (.shot t p) s = .next u ∧ u = { shown s u with now := t })

/-- The starts, changes and ends of a plan (R49, R52, R53): at t0 a pending start puts its plan in force from line index 0 and PORT_RUN records it; at P the
old plan falls silent until the new t0; at the end of a stop's shot period the port is stopped with SHOT_GATE low and SLOT_CODE 0, or at that of a holdover it
waits stopped with its plan.
The model's own choices that it rests on: log entry 41. -/
def Obligations.PlanEventsTakeEffectAtTheirInstant : Prop :=
  ∀ (t : Int) (p : Port) (s : State),
    let x := s.stg.port p
    let still := fun (u : State) => u.clr = s.clr ∧ u.sin = s.sin ∧ u.phx = s.phx ∧ u.hen = s.hen ∧ u.sld = s.sld ∧ u.net = s.net ∧ u.sec = s.sec
      ∧ u.pst.words = s.pst.words ∧ u.lhf = s.lhf ∧ u.now = t
    let running := fun (q : Plan) (t0 : Int) (u : State) => (u.stg.port p).run = 1 ∧ (u.stg.port p).plan = some q ∧ (u.stg.port p).t0 = t0
      ∧ (u.stg.port p).next = 0 ∧ (u.stg.port p).last = none ∧ (fchOf u (portFch p)).run = true
      ∧ (aonUp s = true → ({ code := evPortRun, src := 16 * p.dom.num, p0 := w32 (p.num + 256), p1 := lo32 t0, p2 := hi32 t0,
                             solo := false } : EvIn) ∈ u.erc.inbox)
    (∀ r, active s p.dom = true → x.start = some r → r.t0 ≤ t →
      ∃ u, exec (.planStartAtT0 t p) s = .next u ∧ running r.plan r.t0 u ∧ (u.stg.port p).start = none ∧ still u)
    ∧ (∀ a, active s p.dom = true → x.start = none → x.apply = some a → x.gap = true → a.t0 ≤ t →
      ∃ u, exec (.planStartAtT0 t p) s = .next u ∧ running a.plan a.t0 u ∧ (u.stg.port p).apply = none ∧ still u)
    ∧ (∀ a, x.apply = some a → x.run = 1 → a.p ≤ t →
      ∃ u, exec (.planChangeAtP t p) s = .next u
        ∧ u = { shown s u with now := t, stg := s.stg.setPort p { x with gap := true, gate := 0 }, fch := u.fch }
        ∧ fchOf u (portFch p) = { fchOf s (portFch p) with close := some (a.np - 1) })
    ∧ (∀ id te, x.stop = some (id, te) → te ≤ t →
      ∃ u, exec (.portStopEffect t p) s = .next u ∧ (u.stg.port p).run = 0 ∧ (u.stg.port p).gate = 0 ∧ (u.stg.port p).code = 0
        ∧ (u.stg.port p).stop = none ∧ (u.stg.port p).apply = none ∧ (u.stg.port p).retunes = [] ∧ (fchOf u (portFch p)).run = false ∧ still u)
    ∧ (∀ te, x.stop = none → x.holdStop = some te → te ≤ t →
      ∃ u, exec (.portStopEffect t p) s = .next u ∧ (u.stg.port p).run = 2 ∧ (u.stg.port p).plan = x.plan ∧ (u.stg.port p).t0 = x.t0
        ∧ (u.stg.port p).gate = 0 ∧ (u.stg.port p).code = 0 ∧ still u)

/-- The reference inputs (R47, R48, R439): what is lost, returns, becomes available or is chosen changes the inputs and the selection alone, hitlessly: no
register, port, lane or network state changes with it. Losing the selected input goes over to the other when that is available, and
into holdover when not.
REFCLK_SELECT goes over to the other input when it is available, and is refused when it is not or while none is selected (R47).
The model's own choices that it rests on: log entry 39. -/
def Obligations.ReferencesAreSelectedAndLost : Prop :=
  (∀ (t : Int) (s : State),
       let only := fun (u : State) => u = { shown s u with now := t, refs := u.refs, erc := { s.erc with inbox := u.erc.inbox } }
       (∀ r : RefIn, r ≠ .pcie →
         ∃ u, exec (.refLoss t r) s = .next u ∧ only u ∧ refAvail u r = false
           ∧ (s.refs.sel = some r → refAvail s (refOther r) = true → u.refs.sel = some (refOther r) ∧ u.refs.holdover = s.refs.holdover)
           ∧ (s.refs.sel = some r → refAvail s (refOther r) = false → u.refs.sel = none ∧ u.refs.holdover = true ∧ u.refs.holdAt = t)
           ∧ (s.refs.sel ≠ some r → (∀ q, s.refs.sel = some q → refAvail s q = true) → u.refs.sel = s.refs.sel ∧ u.refs.holdover = s.refs.holdover)
           ∧ refAvail u (refOther r) = refAvail s (refOther r))
       ∧ (∀ r : RefIn, r ≠ .pcie → ∃ u, exec (.refAvailable t r) s = .next u ∧ only u ∧ refAvail u r = true ∧ u.refs.sel = s.refs.sel
           ∧ u.refs.holdover = s.refs.holdover ∧ refAvail u (refOther r) = refAvail s (refOther r))
       ∧ (∀ r : RefIn, r ≠ .pcie → s.refs.sel = none → ∃ u, exec (.referenceSelect t (some r)) s = .next u ∧ only u ∧ u.erc.inbox = s.erc.inbox
           ∧ u.refs.sel = some r ∧ refAvail u r = true)
       ∧ (∃ u, exec (.referenceSelect t none) s = .next u ∧ u = { shown s u with now := t })
       ∧ (∀ a b p : RefMeas,
           let off := fun (d : Int) => 1000 < d ∨ d < -1000
           let two := (s.refs.aPresent || a.present) = true ∧ (s.refs.bPresent || b.present) = true
           ∃ u, exec (.refMonitorWindow t a b p) s = .next u ∧ only u
             ∧ (two → (s.refs.pcie || p.present) = false → (u.refs.disagree = true ↔ off a.diff)
               ∧ ((∀ q, s.refs.sel = some q → refAvail s q = true) → u.refs.sel = s.refs.sel))
             ∧ (two → (s.refs.pcie || p.present) = true → off a.diff → off p.diff → refAvail u .a = false)
             ∧ (two → (s.refs.pcie || p.present) = true → off a.diff → off p.diff → off b.diff → s.refs.sel ≠ none → u.refs.sel = none ∧ u.refs.holdover = true)))
  ∧ (∀ (c : HostCmd) (s : State), Passes 0x15 c s →
         (∀ r, s.refs.sel = some r → refAvail s (refOther r) = true →
           ∃ u, exec (.refclkSelect c) s = .next u ∧ Completed 0x15 c stApplied (w32 (refNum (refOther r))) 0 s u
             ∧ u = { commanded s u with now := c.t, refs := { s.refs with sel := some (refOther r) } })
         ∧ ((s.refs.sel = none ∨ ∃ r, s.refs.sel = some r ∧ refAvail s (refOther r) = false) →
           ∃ u, exec (.refclkSelect c) s = .next u ∧ Completed 0x15 c stRefusedState 0 0 s u ∧ u = { commanded s u with now := c.t }))

/-- Holdover (R49, R364): 1 ms after the loss each running port is to stop at the end of its shot period; the device enters HOLDOVER at once when
none runs. A reference that returns ends holdover; each port that was stopped for it starts again at the next boundary of its own grid, and with none to wait for, the
device leaves HOLDOVER.
The model's own choices that it rests on: log entry 41. -/
def Obligations.HoldoverStopsAndRestartsPorts : Prop :=
  (∀ (t : Int) (s : State), s.refs.holdover = true → 1000000 ≤ t - s.refs.holdAt →
    ∃ u, exec (.holdoverExpiry t) s = .next u ∧ u.refs = s.refs ∧ u.clr = s.clr ∧ u.sin = s.sin ∧ u.fch = s.fch ∧ u.net = s.net ∧ u.sec = s.sec
      ∧ (∀ (p : Port) (q : Plan), (s.stg.port p).run = 1 → (s.stg.port p).plan = some q → 0 < q.ts →
        ∃ te, (u.stg.port p) = { s.stg.port p with holdStop := some te } ∧ (te - (s.stg.port p).t0) % (q.ts : Int) = 0 ∧ t < te ∧ te ≤ t + q.ts)
      ∧ (∀ p : Port, (s.stg.port p).run ≠ 1 → u.stg.port p = s.stg.port p)
      ∧ ((s.stg.port .p0).run ≠ 1 → (s.stg.port .p1).run ≠ 1 → (s.bsc.power = .service ∨ s.bsc.power = .lean) → u.bsc.power = .holdover)
      ∧ (((s.stg.port .p0).run = 1 ∨ (s.stg.port .p1).run = 1) → u.bsc = s.bsc))
  ∧ (∀ (t : Int) (r : RefIn) (s : State), s.refs.holdover = true → r ≠ .pcie →
    ∃ u, exec (.refReturn t r) s = .next u ∧ u.refs.holdover = false ∧ u.refs.sel = some r ∧ refAvail u r = true ∧ u.clr = s.clr ∧ u.sin = s.sin
      ∧ u.fch = s.fch ∧ u.net = s.net ∧ u.sec = s.sec
      ∧ (∀ (p : Port) (q : Plan), (s.stg.port p).run = 2 → (s.stg.port p).plan = some q → 0 < q.ts →
        ∃ t0, (u.stg.port p) = { s.stg.port p with start := some { id := 0, t0 := t0, plan := q } } ∧ (t0 - (s.stg.port p).t0) % (q.ts : Int) = 0
          ∧ t < t0 ∧ t0 ≤ t + q.ts)
      ∧ ((s.stg.port .p0).run ≠ 2 → (s.stg.port .p1).run ≠ 2 → s.bsc.power = .holdover →
        u.bsc.power = (if leanCause s.bsc then .lean else .service)))

/-! ## Converter links, ingest, channeliser, filter chains -/

/-- The converter link states (R58, R60, R63): an arrival on a converter's lanes moves a converter of an ACTIVE port as its state has it, and touches no other
converter: DOWN to SH_LOCK after 64 valid sync headers on every lane, SH_LOCK to EMB_LOCK after four pilots, back to DOWN when the link is lost, when EMB_LOCK
misses a pilot or when one lane of ALIGNED misses its third in a row, and to RETIRED at the fourth loss from ALIGNED within 1 s. LINK_READMIT takes a RETIRED converter to DOWN, and is refused in any other state.
SYSREF_EDGE (R61, R439): with the port's domain ACTIVE and a reference selected, the edge sets the LEMC grid of a stopped port none of whose converters is
aligned while it has none, and sets it anew when every converter is DOWN or RETIRED; otherwise, in holdover too, it leaves a grid as it is and is recorded with
its offset when that exceeds 1 ns.
The model's own choices that it rests on: log entries 44, 129, 130, 133. -/
def Obligations.LinksAndGridFollowArrivals : Prop :=
  ((∀ (t : Int) (p : Port) (q : Pol) (l : List LaneArrival) (s : State), active s p.dom = true →
       (ownArrivals s p q l).map (·.lane.val) = convLanes s p q →
       let c := convOf s p q
       let own := ownArrivals s p q l
       let lost := own.any (fun a => decide (a.invalidIn64 ≥ 16))
       let miss := own.any (·.pilotMissing)
       let third := (List.range own.length).any (fun i => (own.map (·.pilotMissing)).getD i false && decide (2 ≤ nth 0 c.missRun i))
       let fourth := decide (3 ≤ (c.downs.filter (fun d => decide (t - d < 1000000000))).length)
       ∃ u, exec (.multiblockArrival t p q l) s = .next u
         ∧ (c.st = 0 → (convOf u p q).st = if own.all (fun a => decide (a.validRun ≥ 64)) then 1 else 0)
         ∧ (c.st = 1 → (convOf u p q).st = if lost then 0 else if own.all (fun a => decide (a.pilotRun ≥ 4)) then 2 else 1)
         ∧ (c.st = 2 → (convOf u p q).st = if miss || lost then 0 else 2)
         ∧ (c.st = 3 → (convOf u p q).st = if lost || third then (if fourth then 4 else 0) else 3)
         ∧ (c.st = 4 → convOf u p q = c)
         ∧ (∀ p' q', (p', q') ≠ (p, q) → convOf u p' q' = convOf s p' q')
         ∧ u = { reported s u with now := t, clr := u.clr, convNote := u.convNote, sin := s.sin.setPort p (u.sin.port p) })
     ∧ (∀ (c : HostCmd) (s : State), Passes 0x16 c s →
       let p := if bitOf c.a0 1 then Port.p1 else .p0
       let q := if bitOf c.a0 0 then Pol.y else .x
       ((convOf s p q).st = 4 → active s p.dom = true →
         ∃ u, exec (.linkReadmit c) s = .next u ∧ Completed 0x16 c stApplied 0 0 s u ∧ (convOf u p q).st = 0
           ∧ (∀ p' q', (p', q') ≠ (p, q) → convOf u p' q' = convOf s p' q')
           ∧ u = { commanded s u with now := c.t, clr := u.clr, convNote := u.convNote })
       ∧ (((convOf s p q).st ≠ 4 ∨ active s p.dom = false) →
         ∃ u, exec (.linkReadmit c) s = .next u ∧ Completed 0x16 c stRefusedState 0 0 s u ∧ u = { commanded s u with now := c.t })))
  ∧ (∀ (t : Int) (p : Port) (s : State), active s p.dom = true →
         (s.refs.sel ≠ none → (s.clr.port p).grid = none → (s.stg.port p).run = 0 → (convOf s p .x).st ≠ 3 → (convOf s p .y).st ≠ 3 →
           ∃ u, exec (.sysrefEdge t p) s = .next u ∧ u = { shown s u with now := t, clr := s.clr.setPort p { s.clr.port p with grid := some t } })
         ∧ ((s.clr.port p).grid = none → (s.refs.sel = none ∨ (s.stg.port p).run ≠ 0 ∨ (convOf s p .x).st = 3 ∨ (convOf s p .y).st = 3) →
           ∃ u, exec (.sysrefEdge t p) s = .next u ∧ u = { shown s u with now := t })
         ∧ (∀ g, s.refs.sel ≠ none → (s.clr.port p).grid = some g → (s.stg.port p).run = 0 → (∀ q, (convOf s p q).st = 0 ∨ (convOf s p q).st = 4) →
           ∃ u, exec (.sysrefEdge t p) s = .next u ∧ u = { shown s u with now := t, clr := s.clr.setPort p { s.clr.port p with grid := some t } })
         ∧ (∀ g, (s.clr.port p).grid = some g → (s.refs.sel = none ∨ (s.stg.port p).run ≠ 0 ∨ ∃ q, (convOf s p q).st ≠ 0 ∧ (convOf s p q).st ≠ 4) →
           let off := wrap (t - g) (if lemcPeriod s p = 256 then 8 else 7)
           ∃ u, exec (.sysrefEdge t p) s = .next u ∧ u = { shown s u with now := t, erc := { s.erc with inbox := u.erc.inbox } }
             ∧ u.erc.inbox = s.erc.inbox ++ (if (1 < off ∨ off < -1) ∧ aonUp s = true then
                 [{ code := evSysrefOffGrid, src := 16 * p.dom.num + 1, p0 := w32 p.num, p1 := w32i off, p2 := 0, solo := false }] else [])))

/-- EXTENDED_MULTIBLOCK_RELEASE (R62, R64, R65): at the release of boundary k to a converter in EMB_LOCK or ALIGNED every instant of the extended multiblock
that lies in the capture span of an open line sample is stored for its converter, or known as lost because no slate was free; instants stored before stay stored;
the line samples themselves stay as they are but for OVERRUN (R70). At any other instant nothing happens.
The model's own choices that it rests on: log entries 44, 133. -/
def Obligations.CapturedInstantsAreStored : Prop :=
  ∀ (m : MultiblockRelease) (g : Int) (s : State), (s.clr.port m.port).grid = some g → active s m.port.dom = true →
    let tc := signed (match m.pol with | .x => regF s (clrOff m.port + 4) 12 0 | .y => regF s (clrOff m.port + 4) 28 16) 13
    let due := g + (m.k + (regF s (clrOff m.port) 27 24 : Nat)) * lemcPeriod s m.port
    let st := (convOf s m.port m.pol).st
    (m.t = due → (st = 2 ∨ st = 3) → ∃ u, exec (.extendedMultiblockRelease m) s = .next u
      ∧ (∀ i : Nat, (i : Int) < lemcPeriod s m.port →
        inSpans (openSpans (s.sin.port m.port)) (g + m.k * lemcPeriod s m.port + tc + i) = true →
        gotSample (u.sin.port m.port) m.pol (g + m.k * lemcPeriod s m.port + tc + i) = true
          ∨ (g + m.k * lemcPeriod s m.port + tc + i) ∈ (u.sin.port m.port).lost)
      ∧ (∀ q t, gotSample (s.sin.port m.port) q t = true → gotSample (u.sin.port m.port) q t = true)
      ∧ (u.sin.port m.port).queue = (s.sin.port m.port).queue ∧ (u.sin.port m.port).lines.map (fun l => { l with overrun := false })
        = (s.sin.port m.port).lines.map (fun l => { l with overrun := false })
      ∧ ((s.sin.port m.port).slates.length ≤ 4096 → (u.sin.port m.port).slates.length ≤ 4096)
      ∧ u = { reported s u with now := m.t, clr := u.clr, convNote := u.convNote, sin := s.sin.setPort m.port (u.sin.port m.port) })
    ∧ ((m.t ≠ due ∨ (st ≠ 2 ∧ st ≠ 3)) → ∃ u, exec (.extendedMultiblockRelease m) s = .next u ∧ u = { shown s u with now := m.t })

/-- LINE_SAMPLE_HANDOVER (R19, R68, R70): a ready line sample at the head of the queue, for which SIN holds a credit, is handed over as it is unless step 3 is in force; under step 3 it is handed
over dropped, MISSED when it was lit, and the next one follows when it is ready.
CHANNELISER_BLOCK (R80, R87, R88, R95): of the oldest line sample handed over, a dark or MISSED one goes to the corner-turn at once with no valid increment;
a lit one whose block is readable advances by one block of 64 bins, and after the last block of its window goes to the corner-turn; slate failures are recorded and
end nothing. Without a credit of the filter chain it waits (R19).
The model's own choices that it rests on: log entries 12, 135, 137. -/
def Obligations.LineSamplesAdvanceInOrder : Prop :=
  (∀ (t : Int) (p : Port) (q : Shot) (r : List Shot) (s : State), active s p.dom = true → (s.sin.port p).queue = q :: r → lineReady (atTime t s) p q = true →
       schCredit s p = true →
       let three := ((sampleSteps p (atTime t s)).sin.port p).step3
       ∃ u, exec (.lineSampleHandover t p) s = .next u 
         ∧ (three = false → ∃ l, (u.sin.port p).queue = r ∧ (u.sin.port p).lines = (s.sin.port p).lines ++ [l] ∧ l.shot = q ∧ l.missed = false
           ∧ l.block = 0)
         ∧ (three = true → ∃ l, l.shot = q ∧ l.missed = q.lit.isSome ∧
           (((u.sin.port p).queue = r ∧ (u.sin.port p).lines = (s.sin.port p).lines ++ [l])
             ∨ ∃ q2 r2 l2, r = q2 :: r2 ∧ (u.sin.port p).queue = r2 ∧ (u.sin.port p).lines = (s.sin.port p).lines ++ [l, l2] ∧ l2.shot = q2
               ∧ l2.missed = false))
         ∧ u = { reported s u with now := t, sin := s.sin.setPort p (u.sin.port p), bsc := { s.bsc with pace := u.bsc.pace }, dom := u.dom })
  ∧ (∀ (t : Int) (p : Port) (f : List SlateFail) (l : LineS) (r : List LineS) (s : State), active s p.dom = true → (s.sin.port p).lines = l :: r →
         let cur := (fchOf s (portFch p)).buf
         let go := fchCredit s (portFch p) = true
         ∃ u, exec (.channeliserBlock t p f) s = .next u
           ∧ u = { commanded s u with now := t, sin := s.sin.setPort p (u.sin.port p), phx := s.phx.setPort p (u.phx.port p), fch := u.fch, cal := u.cal }
           ∧ (go → (l.shot.lit = none ∨ l.missed = true) → (u.sin.port p).lines = r
             ∧ ∃ k, (fchOf u (portFch p)).buf = cur ++ [k] ∧ k.n = l.shot.n ∧ (∀ e ∈ k.bins, e.2.cause = 1))
           ∧ (go → l.shot.lit ≠ none → l.missed = false → blockReady (atTime t s) p l = true →
             (64 * (l.block + 1) < l.shot.plan.nbins → (u.sin.port p).lines = { l with block := l.block + 1 } :: r ∧ (fchOf u (portFch p)).buf = cur)
             ∧ (l.shot.plan.nbins ≤ 64 * (l.block + 1) → (u.sin.port p).lines = r
               ∧ ∃ k, (fchOf u (portFch p)).buf = cur ++ [k] ∧ k.n = l.shot.n ∧ k.delta = ((l.shot.plan.ts / l.shot.plan.groups : Nat) : Int)))
           ∧ ((¬ go ∨ (l.shot.lit ≠ none ∧ l.missed = false ∧ blockReady (atTime t s) p l = false)) → (u.sin.port p).lines = l :: r
             ∧ (fchOf u (portFch p)).buf = cur))

/-- CORNER_TURN_BLOCK_CLOSE (R95, R97): a closed block leaves the corner-turn whole and what follows it stays; points for the heads are only added. A running
chain with no sync, swap or restart pending gives one decimation point at the line sample that completes M since the last sync, with the decimated period M Δ,
and none at any other.
The model's own choices that it rests on: log entries 17, 137, 163. -/
def Obligations.ClosedBlockPassesThroughChain : Prop :=
  ∀ (t : Int) (i : Fch) (f : List SlateFail) (cross : List StreamCross) (ks rest : List LineTok) (s : State), active s i.dom = true →
    henCredit s i = true → closedBlock (lastLineOf (fchOf s i)) [] (fchOf s i).buf = some (ks, rest) →
    ∃ u, exec (.cornerTurnBlockClose t i f cross) s = .next u ∧ (fchOf u i).buf = rest
      ∧ (∃ l, (fchOf u i).zq = (fchOf s i).zq ++ l) ∧ (∀ j, j ≠ i → fchOf u j = fchOf s j)
      ∧ u.stg = s.stg ∧ u.clr = s.clr ∧ u.sin = s.sin ∧ u.phx = s.phx ∧ u.hen = s.hen ∧ u.sld = s.sld ∧ u.net = s.net ∧ u.sec = s.sec
      ∧ u.pst.words = s.pst.words ∧ u.regs = s.regs ∧ u.now = t
      ∧ (∀ k ny, ks = [k] → k.start = false → k.gaugeNew = false → (fchOf s i).run = true → (fchOf s i).syncs = [] → (fchOf s i).swap = none →
        (fchOf s i).endAt ≠ some k.n → (fchOf s i).implicit ≠ some k.n → (fchOf s i).nY = some ny → ny ≤ k.n → (fchOf s i).gate ≤ k.n →
        if (k.n - ny) % ((fchOf s i).m : Int) = ((fchOf s i).m : Int) - 1 then
          ∃ z, (fchOf u i).zq = (fchOf s i).zq ++ [z] ∧ z.kind = 0 ∧ z.n = k.n ∧ z.t = k.t ∧ z.pd = ((fchOf s i).m : Int) * k.delta
        else (fchOf u i).zq = (fchOf s i).zq)

/-- The syncs of the filter chains (R115, R121). FILTER_SYNC joins the pending syncs of every named instance that runs and whose n_y has not
entered; with none such it is refused with the first one's status. A SYNC_IN edge joins them at each instance whose pin sync is on, and is counted where one is already
pending. The arming of FCH_SYNCNT joins them where the chain runs, at FCH-FIELD too where the port's register says so, and is recorded as cancelled where it does
not run.
The model's own choices that it rests on: log entries 21, 22, 139, 141. -/
def Obligations.SyncsWaitAtTheirInstances : Prop :=
  (∀ (c : HostCmd) (s : State), Passes 0x18 c s →
    let now := bitOf c.a0 8
    let ty : Int := if now then grid10 (c.t + 20000) else (argA12 c : Int)
    let takes := fun (i : Fch) => bitOf c.a0 i.num = true ∧ (fchOf s i).run = true ∧ syncLate s i ty = false
    (now = true ∨ bitOf c.a0 9 ≠ s.net.joined) →
    ((∃ i, takes i) → ∃ u, exec (.filterSync c) s = .next u ∧ Accepted 0x18 c s u
      ∧ u = { commanded s u with now := c.t, fch := u.fch, fsync := u.fsync } ∧ u.fsync.length = s.fsync.length + 1
      ∧ (∀ i, takes i → fchOf u i = { fchOf s i with syncs := (fchOf s i).syncs ++
          [{ src := 1, ty := ty, lt := if now then !s.net.joined else bitOf c.a0 9, id := s.hre.nextId + 1 }] })
      ∧ (∀ i, ¬ takes i → fchOf u i = fchOf s i))
    ∧ ((∀ i, ¬ takes i) → ∃ u st, exec (.filterSync c) s = .next u ∧ Completed 0x18 c st 0 0 s u ∧ (st = stRefusedState ∨ st = stRefusedLate)
      ∧ u = { commanded s u with now := c.t }))
  ∧ (∀ (t : Int) (i : Fch) (s : State), i ≠ .field →
    let on := bitOf (reg s (fchOff i + 8)) 0
    let pending := (fchOf s i).syncs.any (fun r => r.src == 0)
    ∃ u, exec (.syncInEdge t) s = .next u ∧ u = { shown s u with now := t, ctr := u.ctr, fch := u.fch }
      ∧ (on = true → (fchOf s i).run = true → active s i.dom = true → pending = false →
        fchOf u i = { fchOf s i with syncs := (fchOf s i).syncs ++ [{ src := 0, ty := t, lt := !s.net.joined, id := 0 }] })
      ∧ ((on = false ∨ (fchOf s i).run = false ∨ active s i.dom = false ∨ pending = true) → fchOf u i = fchOf s i))
  ∧ (∀ (t : Int) (i : Fch) (hi : Word) (s : State), active s i.dom = true →
    let also := i ≠ .field ∧ bitOf (reg s (fchOff i + 8)) 1 = true
    ∃ u, exec (.fchSyncntArm t i hi) s = .next u
      ∧ (∀ j, (j = i ∨ (j = .field ∧ also)) → active s j.dom = true → (fchOf s j).run = true →
        ∃ r : SyncReq, fchOf u j = { fchOf s j with syncs := (fchOf s j).syncs ++ [r] } ∧ r.src = 2 ∧ r.lt = false
          ∧ (rising s.regs.rw = true → rising s.regs.held = true → r.ty = join64 (regStored s (fchOff i + 0x10)) hi))
      ∧ (∀ j, (fchOf s j).run = false → fchOf u j = fchOf s j)
      ∧ (aonUp s = true → (fchOf s i).run = false →
        ({ code := evSyncCancelled, src := 16 * i.dom.num + (if i = .field then 3 else 5), p0 := w32 i.num, p1 := 0, p2 := 0, solo := false } : EvIn)
          ∈ u.erc.inbox)
      ∧ (∀ j, j ≠ i → (j ≠ .field ∨ ¬ also) → fchOf u j = fchOf s j)
      ∧ u.regs.rw = tput (regReset (fchOff i + 0x14)) (fchOff i + 0x14) hi s.regs.rw
      ∧ u = { shown s u with now := t, regs := u.regs, fch := u.fch, erc := { s.erc with inbox := u.erc.inbox } })

/-- BANK_SWAP waits for the line named, one at a time, on a running chain whose other bank passes its check and whose n_e has not entered (R113,
R114); a write of FCH_RSMP's high word by a host that is up goes to the store when its step and period keep their limits, restarting the resampler at the next output,
and is otherwise ignored and recorded (R108, R120, R347).
The model's own choices that it rests on: log entry 19. -/
def Obligations.ChainChangesKeepTheirLimits : Prop :=
  (∀ (c : HostCmd) (s : State), Passes 0x19 c s →
    let i := nth Fch.f0 [Fch.f0, .f1, .field] (fld c.a0 1 0)
    let x := fchOf s i
    let late := x.entered.any (fun e => decide (swapLine (phaseOf s i) (argA12 c) ≤ e.1))
    (x.run = true → x.swap = none → late = false → (fchBank s i (!x.bankB)).ok = true →
      ∃ u, exec (.bankSwap c) s = .next u ∧ Accepted 0x19 c s u ∧ fchOf u i = { x with swap := some { id := s.hre.nextId + 1, ns := argA12 c } }
        ∧ (∀ j, j ≠ i → fchOf u j = fchOf s j) ∧ u = { commanded s u with now := c.t, fch := u.fch })
    ∧ ((x.run = false ∨ x.swap ≠ none ∨ late = true ∨ (fchBank s i (!x.bankB)).ok = false) →
      ∃ u st, exec (.bankSwap c) s = .next u ∧ Completed 0x19 c st 0 0 s u ∧ u = { commanded s u with now := c.t }
        ∧ (x.run = false → st = stRefusedState) ∧ (x.run = true → x.swap ≠ none → st = stRefusedBusy)
        ∧ (x.run = true → x.swap = none → late = true → st = stRefusedLate)
        ∧ (x.run = true → x.swap = none → late = false → st = stRefusedBank)))
  ∧ (∀ (t : Int) (i : Fch) (v : Word) (s : State), active s .host = true → i ≠ .field → lands s (pregWord (fchOff i + 0x1C)) = true →
    let step := (regStored s (fchOff i + 0x18)).toNat
    let per := (reg s (fchOff i + 0x20)).toNat
    let keeps := 0x1000000 ≤ step ∧ step ≤ 0xF0000000 ∧ (bitOf v 0 = true → periodInRange s i per = true)
      ∧ loadOk s i (bitOf v 0) step per [] = true
    (keeps → ∃ u, exec (.fchRsmpWrite t i v) s = .next u ∧ u.pst = { s.pst with wq := s.pst.wq ++ [(pregWord (fchOff i + 0x1C), w32 (v.toNat % 2))] }
      ∧ (fchOf u i).rsDue = ((fchOf s i).rsOn || (fchOf s i).rsDue) ∧ u = { shown s u with now := t, pst := u.pst, regs := u.regs, fch := u.fch })
    ∧ (¬ keeps → ∃ u, exec (.fchRsmpWrite t i v) s = .next u ∧ u = { reported s u with now := t }
      ∧ (aonUp s = true → ({ code := evWriteIgnored, src := 16 * i.dom.num + 5, p0 := w32 (fchOff i + 0x1C), p1 := w32 (v.toNat % 2), p2 := 0,
                             solo := false } : EvIn) ∈ u.erc.inbox)))

/-! ## Heads and the section ledger -/

/-- ZONE_SAMPLE and HEAD_FLUSH (R127, R137, R141, R149). The oldest decimation point of an instance leaves its queue for the heads unless a lane's event queue or
letter stream is full; no peak list ever grows past 32 entries; a lane that takes no tokens keeps its heads. HEAD_FLUSH empties the head's list in every lane that takes
commands and completes with the number of entries removed, 0 for a head that is FAILED or OFF, with the serving lane's flag, or both lanes' where both serve and
agree; no entry of another head goes.
The model's own choices that it rests on: log entries 27, 157. -/
def Obligations.DecimationPointReachesHeads : Prop :=
  (∀ (t : Int) (i : Fch) (z : ZPoint) (r : List ZPoint) (s : State), (fchOf s i).zq = z :: r →
    let full := bothLanes.any (fun l => laneTakes s l && henFull s l)
    (∀ l, s.lcm.sig.lane l = s.lcm.sigRef.lane l) →
    (full = false → ∃ u, exec (.zoneSample t i [] []) s = .next u ∧ fchOf u i = { fchOf s i with zq := r }
      ∧ (∀ j, j ≠ i → fchOf u j = fchOf s j) ∧ (PeakListsBounded s → PeakListsBounded u)
      ∧ (∀ l, laneTakes s l = false → (u.hen.lane l).heads = (s.hen.lane l).heads)
      ∧ u = { reported s u with now := t, hen := u.hen, fch := u.fch, cal := u.cal, net := u.net, convNote := u.convNote,
                                 lcm := { s.lcm with sig := u.lcm.sig, sigRef := u.lcm.sigRef } }
      ∧ (∀ l, u.lcm.sig.lane l = u.lcm.sigRef.lane l))
    ∧ (full = true → ∃ u, exec (.zoneSample t i [] []) s = .next u ∧ u = { shown s u with now := t }))
  ∧ (∀ (c : HostCmd) (s : State), Passes 0x20 c s → c.cross = [] → (∀ o ∈ s.hre.out, o.id ≠ s.hre.nextId + 1) →
    let h := fld c.a0 12 0
    let had := fun (l : Lane) => match headRec s h with
      | none => 0
      | some r => if (headOf s l h (profile s r.profile)).st = 4 then 0 else (headOf s l h (profile s r.profile)).list.length
    let done := fun (n : Nat) (x y : Bool) => Out.hostWrite (ringAddr (atTime c.t s) 1 s.hre.cplProd)
      (wordsBytes (cplWords (atTime c.t s) (outOf c 0x20 (s.hre.nextId + 1)) stApplied (w32 n) 0 x y))
    ∃ u, exec (.headFlush c) s = .next u ∧ u.hre.out = s.hre.out ∧ u.hre.cmdCons = c.index + 1
      ∧ u.hre.cplProd = s.hre.cplProd + 1
      ∧ (∀ r l, headRec s h = some r → laneTakes s l = true → (headOf u l h (profile s r.profile)).list = [])
      ∧ (∀ l k, k ≠ h → tget none k (u.hen.lane l).heads = tget none k (s.hen.lane l).heads)
      ∧ (∀ l, laneTakes s l = false → (u.hen.lane l).heads = (s.hen.lane l).heads)
      ∧ (∀ l, serving s l = true → serving s l.other = false → done (had l) (l == .x) (l == .y) ∈ u.out)
      ∧ (serving s .x = true → serving s .y = true → done (had s.lcm.lead) true true ∈ u.out)
      ∧ u = { commanded s u with now := c.t, hen := u.hen, cal := u.cal, net := u.net })

/-- HEAD_STATS and SECTION_STATS are queued: each is accepted with a job at the end of the queue, of priority 3 on LANES, for the named heads or
sections (R321, R374).
HIS_RETRIEVE, DIAG_POST, JOB_QUANTUM_END (R320, R321, R354, R374). A retrieval of a region that none reads joins the queue with the blocks that stand; a diagnostic frame
joins it where the node owns a DIAG ID and its buffer was read. A quantum hands the frame to each serving lane and ends its job; one of a seed save puts as many of its
page writes behind those that wait as it has room for; a statistics job that has covered its range
completes with the number of records.
The model's own choices that it rests on: log entries 69, 72, 73, 74. -/
def Obligations.JobsRunInQuanta : Prop :=
  (∀ (c : HostCmd) (s : State) (i : Instr) (op n : Nat), (i, op, n) ∈ [(Instr.headStats c, 0x21, 0x1FFF), (Instr.sectionStats c, 0x2C, 0xFFF)] →
       Passes op c s →
       ∃ u, exec i s = .next u ∧ Accepted op c s u
         ∧ u = { commanded s u with now := c.t, sec := s.sec, pst := s.pst, bsc := { s.bsc with jobs := s.bsc.jobs ++ [{ id := s.hre.nextId + 1, index := c.index, prio := 3, res := .lanes, since := c.t, kind := op, args := [c.a0.toNat &&& n, c.a1.toNat, b2n (bitOf c.a0 31), argBuf c], pos := 0, total := c.a1.toNat, waitAt := none }] } })
  ∧ ((∀ (c : HostCmd) (s : State), Passes 0x50 c s →
         let k := fld c.a0 3 0
         let busy := (s.bsc.jobs ++ s.bsc.running).any (isRetrieval k)
         (busy = false → ∃ u, exec (.hisRetrieve c) s = .next u ∧ Accepted 0x50 c s u ∧ u = { commanded s u with now := c.t, sec := s.sec, pst := s.pst, erc := s.erc, bsc := { s.bsc with jobs := s.bsc.jobs ++ [{ id := s.hre.nextId + 1, index := c.index, prio := 2, res := .host, since := c.t, kind := 0x50, args := [k, argA12 c, c.a3.toNat, 0, (regionOf s.hsc k).blocks.length], pos := 0, total := 0, waitAt := none }] } })
         ∧ (busy = true → ∃ u, exec (.hisRetrieve c) s = .next u ∧ Completed 0x50 c stRefusedBusy 0 0 s u
           ∧ u = { commanded s u with now := c.t, sec := s.sec, pst := s.pst }))
       ∧ (∀ (c : HostCmd) (s : State), Passes 0x58 c s →
         let n := fld c.a0 10 0
         (∀ b, ownsDiag s = true → c.buf = some b → ∃ u, exec (.diagPost c) s = .next u ∧ Accepted 0x58 c s u
           ∧ u = { commanded s u with now := c.t, sec := s.sec, pst := s.pst, erc := s.erc, bsc := { s.bsc with jobs := s.bsc.jobs ++ [{ id := s.hre.nextId + 1, index := c.index, prio := 5, res := .host, since := c.t, kind := 0x58, args := (padTo n b).map (·.toNat), pos := 0, total := n, waitAt := none }] } })
         ∧ (∀ st, (ownsDiag s = false ∧ st = stRefusedState ∨ ownsDiag s = true ∧ c.buf = none ∧ st = stFailedDma) →
           ∃ u, exec (.diagPost c) s = .next u ∧ Completed 0x58 c st 0 0 s u ∧ u = { commanded s u with now := c.t, sec := s.sec, pst := s.pst }))
       ∧ (∀ (t : Int) (r : Resource) (room ce : Nat) (ue : List Nat) (j : Job) (s : State), s.bsc.running = [j] → j.res = r → s.bsc.jobs = [] →
         (j.kind = 0x58 → ∃ u, exec (.jobQuantumEnd t r room ce ue) s = .next u ∧ u.bsc.running = [] ∧ u.bsc.jobs = []
           ∧ (∀ l, (u.net.rct.lane l).diag = (s.net.rct.lane l).diag ++ (if serving s l then [(j.id, j.args.map (fun b => BitVec.ofNat 8 b))] else []))
           ∧ u = { shown s u with now := t, ctr := u.ctr, net := u.net, bsc := u.bsc })
         ∧ (∀ x, j.kind = 0x39 → r = .nvm → s.cal.seed = some x → aonUp s = true →
           let n := min (room / 256) (j.total - j.pos)
           ∃ u, exec (.jobQuantumEnd t r room ce ue) s = .next u ∧ (j.total ≤ j.pos + n → u.bsc.running = [] ∧ u.bsc.jobs = [])
             ∧ (j.pos + n < j.total → ∃ k, u.bsc.running ++ u.bsc.jobs = [k] ∧ k.id = j.id ∧ k.pos = j.pos + n)
             ∧ u = { shown s u with now := t, ctr := u.ctr, bsc := { s.bsc with running := u.bsc.running, jobs := u.bsc.jobs },
                                    pst := { s.pst with commits := s.pst.commits ++ (span j.pos n).map (fun i => seedCommit (if nth 0 j.args 0 = 0 then .a else .b) x.2 i s) } })
         ∧ ((j.kind = 0x21 ∨ j.kind = 0x2C) → j.total ≤ j.pos + room / (if j.kind = 0x21 then 32 else 64) → j.pos ≤ j.total →
           ∃ u, exec (.jobQuantumEnd t r room ce ue) s = .next u ∧ u.bsc.running = [] ∧ u.bsc.jobs = [] ∧ Finished t j.id stApplied (w32 j.total) 0 s u
             ∧ u = { commanded s u with now := t, sec := s.sec, pst := s.pst, bsc := u.bsc, hen := u.hen, sld := u.sld })))

/-- LEDGER_ITEM_TAKE (R160, R161, R165): a lane that takes tokens and has room takes the next item of its HEN queue or of its RCT: it leaves that queue, and waits in
the sections that it concerns behind what waits there; no count and no section state changes before a tick. A store without room for all
that it yields takes nothing.
The model's own choices that it rests on: log entry 29. -/
def Obligations.ItemsWaitForTheTick : Prop :=
  ∀ (t : Int) (l : Lane) (it : HItem) (r : List HItem) (s : State),
    let kept := fun (u : State) => u.sld.lane l.other = s.sld.lane l.other
      ∧ ∀ n x, tget none n (s.sld.lane l).sects = some x → x.st ≠ 0 →
        ∃ y, tget none n (u.sld.lane l).sects = some y ∧ x.items <+: y.items ∧ y.count = x.count ∧ y.st = x.st ∧ y.cause = x.cause
          ∧ y.net = x.net ∧ y.doubtful = x.doubtful
    let room := laneTakes s l = true ∧ storeRoom s l it = true
    (room → (s.hen.lane l).queue = it :: r →
      ∃ u, exec (.ledgerItemTake t l .hen) s = .next u ∧ kept u ∧ (u.hen.lane l).queue = r ∧ (u.hen.lane l).heads = (s.hen.lane l).heads
        ∧ u.hen.lane l.other = s.hen.lane l.other ∧ u = { reported s u with now := t, hen := u.hen, sld := u.sld })
    ∧ (room → s.rctq.lane l = it :: r →
      ∃ u, exec (.ledgerItemTake t l .rct) s = .next u ∧ kept u ∧ u = { reported s u with now := t, rctq := s.rctq.setLane l r, sld := u.sld })
    ∧ (¬ room → ∀ src, (src = .hen → (s.hen.lane l).queue = it :: r) → (src = .rct → s.rctq.lane l = it :: r) →
      ∃ u, exec (.ledgerItemTake t l src) s = .next u ∧ u = { shown s u with now := t })

/-- PREP_RESET, COND_RESET, DIRECT_RESET and RESTORE_CONFIRM (R176, R178): while a command for the section waits in a lane that takes commands, another is
refused with REFUSED_BUSY; otherwise it is accepted, and waits in every such lane, with its reference round, for the tick two rounds on. The section keeps its
state and count until then.
The model's own choices that it rests on: log entry 31. -/
def Obligations.SectionCommandsWaitTwoRounds : Prop :=
  ∀ (c : HostCmd) (s : State) (i : Instr) (op kind : Nat),
    (i, op, kind) ∈ [(Instr.prepReset c, 0x28, 0), (Instr.condReset c, 0x29, 1), (Instr.directReset c, 0x2A, 2), (Instr.restoreConfirm c, 0x2B, 3)] →
    Passes op c s → c.cross = [] →
    let n := fld c.a0 11 0
    let b := atTime c.t s
    let busy := bothLanes.any (fun l => laneTakes b l && (sectCmd b l n).cmd.isSome)
    (busy = true → ∃ u, exec i s = .next u ∧ Completed op c stRefusedBusy 0 0 s u ∧ u = { commanded s u with now := c.t })
    ∧ (busy = false → ∃ u, exec i s = .next u ∧ Accepted op c s u ∧ u = { commanded s u with now := c.t, sld := u.sld }
      ∧ (∀ l, laneTakes b l = true → (u.sld.lane l) = { s.sld.lane l with sects := tput none n (some { sectCmd b l n with cmd := some { id := s.hre.nextId + 1, kind := kind, ref := argA12 c, re := curRound b + 2 } }) (s.sld.lane l).sects })
      ∧ (∀ l, laneTakes b l = false → u.sld.lane l = s.sld.lane l))

/-- What a section command does at its tick in a lane (R176, R177): failing a condition it changes nothing but to end; passing, a reset sets the count
to the net log's sum of the rounds after its reference, saturated, and clears DOUBTFUL; PREP_RESET leaves PREPARATORY, the others CLEAR or OCCUPIED by the count
and the holds, or DISTURBED below 0; RESTORE_CONFIRM keeps the count.
The model's own choices that it rests on: log entry 30. -/
def Obligations.ResetsSetCountFromNetLog : Prop :=
  ∀ (l : Lane) (i : Nat) (r : SectRec) (m : SCmd) (s : State),
    let x := sectCmd s l i
    let a := cmdRun l i r m s
    let net := isum ((x.net.filter (fun e => m.ref < e.round && e.round < m.re)).map (·.sum))
    (∀ st, cmdFails m x = some st → a.1 = { status := st, r0 := 0, r1 := 0 } ∧ a.2.hen = s.hen
      ∧ (x.st ≠ 0 → tget none i (a.2.sld.lane l).sects = some { x with cmd := none }))
    ∧ (cmdFails m x = none → a.1.status = stApplied ∧ a.1.r1 = w32 ((m.re - 2) % 4294967296)
      ∧ a.2.sld.lane l.other = s.sld.lane l.other
      ∧ ∃ y, tget none i (a.2.sld.lane l).sects = some y ∧ a.1.r0 = y.form false ∧ y.doubtful = false ∧ y.cmd = none ∧ y.net = x.net
        ∧ y.count = (if m.kind = 3 then x.count else sat16 net)
        ∧ (m.kind = 0 → y.st = 4)
        ∧ (m.kind ≠ 0 → y.count < 0 → y.st = 3 ∧ y.cause = (if m.kind = 3 then 13 else 2))
        ∧ (m.kind ≠ 0 → 0 ≤ y.count → y.st = (if y.count > 0 || y.held then 2 else 1)))

/-! ## The topology banks and the tick -/

/-- TOPO_SWITCH and BANK_CHECK_DONE (R423, R424). An INACTIVE bank is accepted for a round at least 40 ms off while the other is neither CHECKING nor PENDING, and is
CHECKING; otherwise the command is refused with the status that says why. The end of the check makes a bank that passes PENDING, its floors raised ahead; one that fails
is INACTIVE, recorded with the lowest cause, and its command completes with REFUSED_BANK.
The model's own choices that it rests on: log entries 109, 112. -/
def Obligations.BankIsCheckedBeforeItsRound : Prop :=
  (∀ (c : HostCmd) (s : State), Passes 0x38 c s →
    let k := if bitOf c.a0 0 then Bank.b else .a
    let b := atTime c.t s
    let x := topoStart b (join64 c.a2 c.a3)
    let other := bankState s (otherBank k)
    let busy := other = .checking ∨ other = .pending
    (bankState s k = .inactive → ¬ busy → 40000000 ≤ x.2 - c.t →
      ∃ u, exec (.topoSwitch c) s = .next u ∧ Accepted 0x38 c s u ∧ bankState u k = .checking ∧ bankState u (otherBank k) = other
        ∧ u.pst.topo = some { id := s.hre.nextId + 1, bank := k, gen := c.a1, round := x.1, startAt := x.2, acceptedAt := c.t }
        ∧ u = { commanded s u with now := c.t, pst := { (commanded s u).pst with topo := u.pst.topo, bankA := u.pst.bankA, bankB := u.pst.bankB } })
    ∧ ((bankState s k ≠ .inactive ∨ busy ∨ x.2 - c.t < 40000000) →
      ∃ u st, exec (.topoSwitch c) s = .next u ∧ Completed 0x38 c st 0 0 s u ∧ u = { commanded s u with now := c.t }
        ∧ (bankState s k ≠ .inactive → st = stRefusedState) ∧ (bankState s k = .inactive → busy → st = stRefusedBusy)
        ∧ (bankState s k = .inactive → ¬ busy → st = stRefusedLate)))
  ∧ (∀ (t : Int) (w : TopoWait) (s : State), s.pst.topo = some w →
    (bankState s w.bank = .checking → bankFails (atTime t s) w = none →
      ∃ u, exec (.bankCheckDone t) s = .next u ∧ bankState u w.bank = .pending ∧ u.pst.topo = some w ∧ u.hre.out = s.hre.out
        ∧ (∀ d, (u.dom.get d).st = (s.dom.get d).st)
        ∧ u = { reported s u with now := t, dom := u.dom, pst := (setBankState w.bank .pending s).pst, erc := s.erc })
    ∧ (∀ k, bankState s w.bank = .checking → bankFails (atTime t s) w = some k →
      ∃ u, exec (.bankCheckDone t) s = .next u ∧ Finished t w.id stRefusedBank 0 0 s u
        ∧ u.pst = { (setBankState w.bank .inactive s).pst with topo := none }
        ∧ (aonUp s = true → ({ code := evBankRefused, src := 2, p0 := w32 (bankNum w.bank), p1 := bankWord s w.bank 1, p2 := w32 k, solo := false } : EvIn) ∈ u.erc.inbox)
        ∧ u = { commanded s u with now := t, pst := u.pst, sec := s.sec })
    ∧ (bankState s w.bank ≠ .checking → ∃ u, exec (.bankCheckDone t) s = .next u ∧ u = { shown s u with now := t }))

/-- BRINGUP_COMPLETE (R427, R443): once order 2 has left RAMP in START, bring-up ends: in SERVICE, or LEAN where a cause stands, and a committed bank that
may be switched to is CHECKING where AUTOACT is on; a DECOMMISSIONED device goes to SAFEHALT instead. Before that nothing happens.
LANE_SELFTEST_DONE (R440, R441): during bring-up a lane that passes its self-test sets out to join its channel; one that fails takes a HARD fault with check 8
and is retired, and with the other not serving either the device is in SAFEHALT; with the other's test already over the domains of order 2 start. At any other time it says nothing. -/
def Obligations.BringupTestsThenServes : Prop :=
  (∀ (t : Int) (s : State),
       let due := s.bsc.power = .start ∧ s.bsc.bringup = 2 ∧ order2Up (atTime t s) = true
       (due → s.sec.lifecycle = 5 → ∃ u, exec (.bringupComplete t) s = .next u ∧ u.bsc.bringup = 3 ∧ u.bsc.power = .safehalt
         ∧ u.bsc.halt = .decommissioned ∧ u.sec = s.sec ∧ u.regs = s.regs)
       ∧ (due → s.sec.lifecycle ≠ 5 → ∃ u, exec (.bringupComplete t) s = .next u ∧ u.bsc.bringup = 3
         ∧ u.bsc.power = (if leanCause s.bsc then .lean else .service)
         ∧ (∀ k, s.pst.committed = some k → regF s 0xF004 0 0 = 1 → topoRefusal (atTime t s) k 0 = none →
           bankState u k = .checking ∧ ∃ w, u.pst.topo = some w ∧ w.bank = k ∧ w.gen = s.pst.committedGen ∧ w.id = 0)
         ∧ ((s.pst.committed = none ∨ regF s 0xF004 0 0 ≠ 1) → u.pst = s.pst)
         ∧ u = { shown s u with now := t, bsc := { s.bsc with bringup := 3, power := u.bsc.power }, erc := { s.erc with inbox := u.erc.inbox }, pst := { s.pst with topo := u.pst.topo, bankA := u.pst.bankA, bankB := u.pst.bankB } })
       ∧ (¬ due → ∃ u, exec (.bringupComplete t) s = .next u ∧ u = { shown s u with now := t }))
  ∧ (∀ (t : Int) (l : Lane) (s : State),
         let due := laneStarting s l = true ∧ active s l.dom = true ∧ s.bsc.bringup = 1
         (due → ∃ u, exec (.laneSelftestDone t l true) s = .next u ∧ u.bsc.tested.lane l = true
           ∧ u.bsc.tested.lane l.other = s.bsc.tested.lane l.other ∧ u.lcm = s.lcm ∧ (u.net.rct.lane l).since = t
           ∧ u.net.rct.lane l.other = s.net.rct.lane l.other
           ∧ u.bsc.bringup = (if s.bsc.tested.lane l.other then 2 else 1)
           ∧ (s.bsc.tested.lane l.other = true → ∀ p ∈ domctlDoms, (regF s 0xE00C 3 0).testBit p.2 = false → (u.dom.get p.1).st = .ramp)
           ∧ u = { reported s u with now := t, net := u.net, bsc := { s.bsc with tested := u.bsc.tested, bringup := u.bsc.bringup }, dom := u.dom, erc := s.erc })
         ∧ (due → serving s l.other = true → ∃ u, exec (.laneSelftestDone t l false) s = .next u ∧ u.bsc.tested.lane l = true
           ∧ u.lcm.cond.lane l = .retired ∧ u.lcm.cond.lane l.other = .serving ∧ (u.dom.get l.dom).st = .held
           ∧ (aonUp s = true → ({ code := evLaneFault, src := 16 * l.dom.num + 2, p0 := w32 l.num, p1 := 8, p2 := 1, solo := true } : EvIn) ∈ u.erc.inbox))
         ∧ (due → serving s l.other = false → ∃ u, exec (.laneSelftestDone t l false) s = .next u ∧ u.bsc.power = .safehalt ∧ u.bsc.bringup = 1
           ∧ u.lcm.cond.lane l = .retired)
         ∧ (¬ due → ∀ ok, ∃ u, exec (.laneSelftestDone t l ok) s = .next u ∧ u = { shown s u with now := t }))

/-- LEDGER_TICK (R161). It always completes, and does nothing in OFF and STANDBY. Of a section's tick: every item due by the applied instant is applied, late ones with
them, and the applied instant never goes back, nor beyond H before the tick where none stood.
The model's own choices that it rests on: log entries 29, 35, 157, 168, 169. -/
def Obligations.TickAppliesWhatIsDue : Prop :=
  (∀ (k : TickIn) (s : State), ∃ u, exec (.ledgerTick k) s = .next u
    ∧ ((s.bsc.power = .off ∨ s.bsc.power = .standby) → (s.sec.decom = none ∨ aonUp s = false) → u = { shown s u with now := k.t }))
  ∧ (∀ (c : SCtx) (upto : Int) (w : SWork), ∀ it ∈ (applyDue c upto (2 * w.x.items.length) w).x.items, it.late = false ∧ upto < it.key)
  ∧ (∀ (l : Lane) (i : Nat) (r : SectRec) (s : State),
    let x := sectOf s l i r
    x.st ≠ 0 → ∃ y a, tget none i ((sectTick l i r s).sld.lane l).sects = some y ∧ y.at_ = some a ∧ (∀ p, x.at_ = some p → p ≤ a)
      ∧ (x.at_ = none → a ≤ s.now - horizon s l) ∧ y.cmd = x.cmd ∧ y.net = x.net ∧ (sectTick l i r s).sld.lane l.other = s.sld.lane l.other
      ∧ (sectTick l i r s).hen = s.hen)

/-! ## The lanes -/

/-- LANE_RETIRE (R189, R199): a serving lane beside another that serves takes a HARD fault with check 10: it is fail-silent from that instant, the other leads, and
the command waits for the retirement. The only serving lane is not retired, nor one that neither serves nor returns; a lane that returns stops returning.
The model's own choices that it rests on: log entry 77. -/
def Obligations.RetiredLaneFallsSilent : Prop :=
  ∀ (c : HostCmd) (s : State), Passes 0x30 c s →
    let l := argLane c
    (s.lcm.cond.lane l = .serving → serving s l.other = true →
      ∃ u, exec (.laneRetire c) s = .next u ∧ Accepted 0x30 c s u ∧ u.lcm.cond.lane l = .failSilent ∧ u.lcm.cond.lane l.other = s.lcm.cond.lane l.other
        ∧ u.lcm.lead = (if s.lcm.lead = l then l.other else s.lcm.lead)
        ∧ u.lcm.fault.lane l = some { check := 10, hard := true, round := curRound (atTime c.t s), id := some (s.hre.nextId + 1) }
        ∧ (u.lcm.comp.lane l).rel = []
        ∧ (aonUp s = true → ({ code := evLaneFault, src := 16 * l.dom.num + 2, p0 := w32 l.num, p1 := 10, p2 := 1, solo := true } : EvIn) ∈ u.erc.inbox)
        ∧ u = { commanded s u with now := c.t, lcm := { u.lcm with readm := s.lcm.readm, retired := s.lcm.retired, adopts := s.lcm.adopts, adopted := s.lcm.adopted, mismatch := s.lcm.mismatch, uncompRun := s.lcm.uncompRun, sig := s.lcm.sig, sigRef := s.lcm.sigRef } })
    ∧ ((s.lcm.cond.lane l = .serving ∧ serving s l.other = false ∨ s.lcm.cond.lane l = .failSilent ∨ s.lcm.cond.lane l = .retired) →
      ∃ u, exec (.laneRetire c) s = .next u ∧ Completed 0x30 c stRefusedState 0 0 s u ∧ u = { commanded s u with now := c.t })
    ∧ (s.lcm.cond.lane l = .readmission → ∃ u, exec (.laneRetire c) s = .next u ∧ u.hre.cmdCons = c.index + 1
      ∧ u.hre.nextId = s.hre.nextId + 1 ∧ outFind u (s.hre.nextId + 1) = none ∧ u.lcm.cond.lane l ≠ .serving ∧ u.lcm.cond.lane l.other = s.lcm.cond.lane l.other)

/-- LANE_READMIT and READMIT_SELFTEST_DONE (R200, R201). A retired lane beside one that serves returns: its engines are reset, its domain is ACTIVE or, from OFF or
TRIPPED, ramps, and the command waits. During an automatic re-admission the command waits for that one; for a D2 target it is refused with REFUSED_LIFECYCLE and else
with REFUSED_STATE. A self-test that passes in step 3 gives the lane the serving lane's slates and registers; one that fails retires it again.
The model's own choices that it rests on: log entries 77, 80. -/
def Obligations.ReturningLaneTakesServingSlates : Prop :=
  (∀ (c : HostCmd) (s : State), Passes 0x31 c s →
    let l := argLane c
    (s.lcm.cond.lane l = .retired → serving s l.other = true →
      ∃ u, exec (.laneReadmit c) s = .next u ∧ Accepted 0x31 c s u ∧ u.lcm.cond.lane l = .readmission
        ∧ u.lcm.readm.lane l = some { step := 3, id := some (s.hre.nextId + 1), shadow := 0, joined := false, since := c.t }
        ∧ (u.dom.get l.dom).st = (if (s.dom.get l.dom).st = .off ∨ (s.dom.get l.dom).st = .tripped then .ramp else .active)
        ∧ u.hen.lane l = HenSt.reset ∧ u.sld.lane l = SldSt.reset ∧ u.hen.lane l.other = s.hen.lane l.other ∧ u.sld.lane l.other = s.sld.lane l.other
        ∧ u.net.rct.lane l.other = s.net.rct.lane l.other ∧ u.lcm.cond.lane l.other = s.lcm.cond.lane l.other)
    ∧ (∀ r, s.lcm.cond.lane l = .readmission → s.lcm.readm.lane l = some r → r.id = none →
      ∃ u, exec (.laneReadmit c) s = .next u ∧ Accepted 0x31 c s u
        ∧ u = { commanded s u with now := c.t, lcm := { s.lcm with readm := s.lcm.readm.setLane l (some { r with id := some (s.hre.nextId + 1) }) } })
    ∧ ((s.lcm.cond.lane l = .retired ∧ serving s l.other = false) ∨ s.lcm.cond.lane l = .serving ∨ s.lcm.cond.lane l = .failSilent
        ∨ (s.lcm.cond.lane l = .readmission ∧ ∀ r, s.lcm.readm.lane l = some r → r.id ≠ none) →
      ∃ u, exec (.laneReadmit c) s = .next u ∧ Completed 0x31 c stRefusedState 0 0 s u ∧ u = { commanded s u with now := c.t }))
  ∧ (∀ (c : HostCmd) (s : State), examinable c (atTime c.t s) = true → argsOk 0x31 c = true → s.bsc.power ≠ .safehalt →
    s.sec.level = 2 → s.sec.target = argLane c →
    ∃ u, exec (.laneReadmit c) s = .next u ∧ Completed 0x31 c stRefusedLifecycle 0 0 s u ∧ u.sec = s.sec ∧ u.pst = s.pst
      ∧ u = { commanded s u with now := c.t })
  ∧ (∀ (t : Int) (l : Lane) (r : Readmit) (s : State), s.lcm.readm.lane l = some r →
    (r.step = 3 → active s l.dom = true →
      ∃ u, exec (.readmitSelftestDone t l true) s = .next u ∧ u.lcm.readm.lane l = some { r with step := 4 }
        ∧ u.hen.lane l = s.hen.lane l.other ∧ u.sld.lane l = s.sld.lane l.other ∧ u.rctq.lane l = s.rctq.lane l.other
        ∧ (u.net.rct.lane l).stream = (s.net.rct.lane l.other).stream
        ∧ (∀ o, laneReg u l o = laneReg u l.other o)
        ∧ u = { shown s u with now := t, hen := u.hen, sld := u.sld, rctq := u.rctq, net := u.net, lcm := { s.lcm with readm := u.lcm.readm }, regs := u.regs })
    ∧ (r.step = 3 → active s l.dom = true → s.lcm.cond.lane l = .readmission →
      ∃ u, exec (.readmitSelftestDone t l false) s = .next u ∧ u.lcm.cond.lane l = .retired ∧ u.lcm.readm.lane l = none
        ∧ u.lcm.cond.lane l.other = s.lcm.cond.lane l.other)
    ∧ (∀ ok, (r.step ≠ 3 ∨ active s l.dom = false) → ∃ u, exec (.readmitSelftestDone t l ok) s = .next u ∧ u = { shown s u with now := t }))

/-- The comparison of a tick (R192 to R195). While both serving lanes have digests of one round, each half keeps its outcome; the second that agrees on no difference
lets every block of both go. A transfer that fails its CRC or names another round, and one that does not come, leave the tick uncompared: each serving lane releases its
own blocks. Nothing else changes.
BLOCK_RELEASE (R193, R377, R403): a block that a serving lane may release leaves it once: into the AON shadow, where its entries stand as the lane has them
unless the crossing failed, and as a count message into the lane's queue to the round ports. Its SOLO is set and its postmark formed again while the
other lane does not serve (R194, R199). A block that may not be released goes nowhere.
The model's own choices that it rests on: log entries 34, 82. -/
def Obligations.LanesCompareBeforeRelease : Prop :=
  (∀ (t : Int) (l : Lane) (round : Word) (d : List Word) (s : State), serving s .x = true → serving s .y = true →
       let c := s.lcm.comp.lane l
       let m := (List.range 192).filter (fun k => nth 0 c.dig k != nth 0 d k)
       let freed := fun (u : State) => (∀ n, (u.lcm.comp.lane n).rel = List.range 64 ∧ (u.lcm.comp.lane n).dig = (s.lcm.comp.lane n).dig
           ∧ (u.lcm.comp.lane n).msgs = (s.lcm.comp.lane n).msgs) ∧ u.lcm.cond = s.lcm.cond
         ∧ u = { reported s u with now := t, lcm := u.lcm }
       let alone := fun (u : State) => freed u ∧ u.lcm.uncompRun = s.lcm.uncompRun + 1 ∧ ∀ n, (u.lcm.comp.lane n).uncomp = true
       (comparing s = false → ∀ ok loc, ∃ u, exec (.digestTransferReceive t l ok round d loc) s = .next u ∧ u = { shown s u with now := t })
       ∧ (comparing s = true → round = lo32 c.round → c.out = none → ∀ loc,
         (s.lcm.comp.lane l.other).out = none →
           ∃ u, exec (.digestTransferReceive t l true round d loc) s = .next u
             ∧ u = { shown s u with now := t, lcm := { s.lcm with comp := s.lcm.comp.setLane l { c with out := some m } } })
       ∧ (comparing s = true → round = lo32 c.round → c.out = none → m = [] → (s.lcm.comp.lane l.other).out = some [] → ∀ loc,
           ∃ u, exec (.digestTransferReceive t l true round d loc) s = .next u ∧ freed u ∧ u.lcm.uncompRun = 0 ∧ u.lcm.mismatch = 0)
       ∧ (comparing s = true → ∀ ok loc, (ok = false ∨ round ≠ lo32 c.round) →
         ∃ u, exec (.digestTransferReceive t l ok round d loc) s = .next u ∧ alone u)
       ∧ (comparing s = true → c.out = none → ∃ u, exec (.comparisonTimeout t l) s = .next u ∧ alone u)
       ∧ ((comparing s = false ∨ c.out ≠ none) → ∃ u, exec (.comparisonTimeout t l) s = .next u ∧ u = { shown s u with now := t }))
  ∧ (∀ (t : Int) (l : Lane) (k : Fin 64) (aonOk hostOk : Bool) (s : State),
         let c := s.lcm.comp.lane l
         let may := serving s l = true ∧ k.val ∈ c.rel
         let old := tget [] k.val c.msgs
         let msg := if old = [] ∨ serving s l.other = true then old else soloWords old
         (may → ∃ u, exec (.blockRelease t l k aonOk hostOk) s = .next u
           ∧ u.lcm = { s.lcm with comp := s.lcm.comp.setLane l { c with rel := c.rel.filter (· != k.val), msgs := if msg = old then c.msgs else tput [] k.val msg c.msgs } }
           ∧ (aonUp s = true → k.val ∈ (shadowOf u l c.round).blocks ∧ (shadowOf u l c.round).round = c.round
             ∧ (aonOk = true → ∀ i, 64 * k.val ≤ i → i < 64 * k.val + 64 → tget 0 i (s.sld.lane l).entries ≠ 0 →
               tget 0 i (shadowOf u l c.round).entries = tget 0 i (s.sld.lane l).entries)
             ∧ (aonOk = false → (shadowOf u l c.round).bad = true))
           ∧ (aonUp s = false → u.pst = s.pst)
           ∧ (msg ≠ [] → (u.net.rct.lane l).queue = (s.net.rct.lane l).queue ++ [{ block := k.val, round := c.round, at_ := t, words := msg }])
           ∧ (msg = [] → u.net = s.net)
           ∧ u = { reported s u with now := t, lcm := u.lcm, net := u.net, pst := { s.pst with shadow := u.pst.shadow }, hre := { (reported s u).hre with mirror := u.hre.mirror, mirrorRound := u.hre.mirrorRound } })
         ∧ (¬ may → ∃ u, exec (.blockRelease t l k aonOk hostOk) s = .next u ∧ u = { shown s u with now := t }))

/-! ## Calibration and the legacy front end -/

/-- SURVEY, SWEEP_CAL and its end (R216, R222). A survey runs on a port with a plan in force whose window holds its bins, one at a time; a sweep runs alone for its seconds;
each waits to complete, and is refused with the status that says why. A sweep is a job on LANES: at its end it forms a record of 8 words for each head and, where LANES is free and no
LEAN cause stands, completes with their number and is gone; else the job waits with its records.
The model's own choices that it rests on: log entries 48, 49, 50. -/
def Obligations.SurveysAndSweepsWait : Prop :=
  (∀ (c : HostCmd) (s : State) (q : Plan), examinable c (atTime c.t s) = true → argsOk 0x40 c = true → (s.stg.port (argPort c)).plan = some q →
    (fld c.a1 15 0 < q.b0 ∨ q.b0 + q.nbins < fld c.a1 15 0 + 64 * fld c.a1 31 16) →
    ∃ u, exec (.survey c) s = .next u ∧ Completed 0x40 c stRefusedArgument 0 0 s u ∧ u = { commanded s u with now := c.t, sec := s.sec, pst := s.pst })
  ∧ (∀ (c : HostCmd) (s : State), Passes 0x40 c s →
    let p := argPort c
    let ba := fld c.a1 15 0
    let nb := 64 * fld c.a1 31 16
    let x := s.stg.port p
    let refused := fun (st : Nat) => ∃ u, exec (.survey c) s = .next u ∧ Completed 0x40 c st 0 0 s u ∧ u = { commanded s u with now := c.t, sec := s.sec, pst := s.pst }
    ((x.plan = none ∨ x.run = 0) → refused stRefusedState)
    ∧ (∀ q, x.plan = some q → x.run ≠ 0 → s.cal.survey.port p ≠ none → refused stRefusedBusy)
    ∧ (∀ q, x.plan = some q → x.run ≠ 0 → s.cal.survey.port p = none →
      ∃ u, exec (.survey c) s = .next u ∧ Accepted 0x40 c s u ∧ u = { commanded s u with now := c.t, sec := s.sec, pst := s.pst, erc := s.erc, cal := { s.cal with survey := s.cal.survey.setPort p (some { id := s.hre.nextId + 1, bin := bitOf c.a0 8, ba := ba, nb := nb, lines := c.a2.toNat, buf := argBuf c, begun := false, taken := 0, missed := 0, terms := [], bins := [] }) } }))
  ∧ (∀ (c : HostCmd) (s : State), Passes 0x42 c s →
    (s.cal.sweep = none → ∃ u, exec (.sweepCal c) s = .next u ∧ Accepted 0x42 c s u ∧ u = { commanded s u with
        now := c.t, sec := s.sec, pst := s.pst, erc := s.erc,
        bsc := { s.bsc with jobs := s.bsc.jobs ++ [{ id := s.hre.nextId + 1, index := c.index, prio := 3, res := .lanes, since := c.t, kind := 0x42, args := [], pos := 0, total := 0, waitAt := none }] },
        cal := { s.cal with sweep := some { id := s.hre.nextId + 1, first := fld c.a0 12 0, count := c.a1.toNat, endAt := c.t + (c.a2.toNat : Int) * 1000000000, buf := argBuf c, recs := [], words := none } } })
    ∧ (s.cal.sweep ≠ none → ∃ u, exec (.sweepCal c) s = .next u ∧ Completed 0x42 c stRefusedBusy 0 0 s u
      ∧ u = { commanded s u with now := c.t, sec := s.sec, pst := s.pst }))
  ∧ (∀ (t : Int) (s : State),
    (∀ x j, s.cal.sweep = some x → x.words = none → x.endAt ≤ t → (s.bsc.jobs ++ s.bsc.running).find? (fun j => j.id == x.id) = some j →
      let n := ((heads s).filter (fun e => x.first ≤ e.1 && e.1 < x.first + x.count)).length
      (j.pos = 0 → leanCause s.bsc = false → (∀ k ∈ s.bsc.running, k.res = .lanes → k.id = x.id) → ∃ u, exec (.sweepCalEnd t) s = .next u
        ∧ Finished t x.id stApplied (w32 n) 0 s u
        ∧ u = { commanded s u with now := t, sec := s.sec, pst := s.pst, bsc := (dropJob j s).bsc, cal := { s.cal with sweep := none }, free := u.free })
      ∧ ((leanCause s.bsc = true ∨ ∃ k ∈ s.bsc.running, k.res = .lanes ∧ k.id ≠ x.id) → ∃ u ws, exec (.sweepCalEnd t) s = .next u ∧ ws.length = 8 * n
        ∧ u = { shown s u with now := t, cal := { s.cal with sweep := some { x with words := some ws } }, free := u.free }))
    ∧ ((s.cal.sweep = none ∨ ∃ x, s.cal.sweep = some x ∧ x.words = none ∧ t < x.endAt) → ∃ u, exec (.sweepCalEnd t) s = .next u ∧ u = { shown s u with now := t }))

/-- Seeds and LEGACY_CAL (R220, R221, R224). A seed save is a job of 130 page writes on NVM, one save at a time and only with an ACTIVE bank; the period's own
save counts from the operating seconds. LEGACY_CAL, with FIELD ACTIVE and no head that uses a named channel in service, puts each named channel to its reference and waits; else it is
refused, as it is with BUSY while another runs (the model's choice, log entry 46).
The model's own choices that it rests on: log entries 46, 50. -/
def Obligations.CalibrationIsCommitted : Prop :=
  let seedJob := fun (k : Bank) (t : Int) => ({ id := 0, index := 0, prio := 4, res := .nvm, since := t, kind := 0x39, args := [bankNum k], pos := 0, total := 130, waitAt := none } : Job)
  (∀ (c : HostCmd) (s : State), Passes 0x39 c s →
    (∀ k, activeBank s = some k → s.cal.seed = none → ∃ u, exec (.seedSave c) s = .next u ∧ Accepted 0x39 c s u
      ∧ u = { commanded s u with now := c.t, bsc := { s.bsc with jobs := s.bsc.jobs ++ [{ seedJob k c.t with id := s.hre.nextId + 1, index := c.index }] },
                                 cal := { s.cal with seed := some (s.hre.nextId + 1, s.pst.genActive) } })
    ∧ (∀ k, activeBank s = some k → s.cal.seed ≠ none →
      ∃ u, exec (.seedSave c) s = .next u ∧ Completed 0x39 c stRefusedBusy 0 0 s u ∧ u = { commanded s u with now := c.t })
    ∧ (activeBank s = none → ∃ u, exec (.seedSave c) s = .next u ∧ Completed 0x39 c stRefusedState 0 0 s u ∧ u = { commanded s u with now := c.t }))
  ∧ (∀ (t : Int) (s : State),
    let p := regF s 0x6010 7 0
    let due := activeBank s ≠ none ∧ 1 ≤ p ∧ p ≤ 168 ∧ s.cal.seedAt + 3600 * p ≤ s.pst.opSeconds ∧ aonUp s = true
    (∀ k, due → activeBank s = some k → s.cal.seed = none → ∃ u, exec (.seedPeriodExpiry t) s = .next u
      ∧ u = { shown s u with now := t, bsc := { s.bsc with jobs := s.bsc.jobs ++ [seedJob k t] }, cal := { s.cal with seedAt := s.pst.opSeconds, seed := some (0, s.pst.genActive) } })
    ∧ (due → s.cal.seed ≠ none → ∃ u, exec (.seedPeriodExpiry t) s = .next u ∧ u = { shown s u with now := t, cal := { s.cal with seedAt := s.pst.opSeconds } })
    ∧ (¬ due → ∃ u, exec (.seedPeriodExpiry t) s = .next u ∧ u = { shown s u with now := t }))
  ∧ (∀ (c : HostCmd) (s : State), Passes 0x41 c s →
    let chans := (List.range 8).filter (fun n => (fld c.a0 7 0).testBit n)
    let busy := (portHeads s 2).any (fun e => (chans.contains e.2.z1 || chans.contains e.2.z2)
      && bothLanes.any (fun l => laneTakes s l && (headOf s l e.1 (profile s e.2.profile)).st != 4))
    (active s .field = true → busy = false → s.cal.legacy = none → ∃ u, exec (.legacyCal c) s = .next u ∧ Accepted 0x41 c s u
      ∧ u = { commanded s u with now := c.t, cal := { s.cal with legacy := some { id := s.hre.nextId + 1, left := chans, res := 0 } },
                                 lhf := { s.lhf with sys := chans.foldl (fun l n => setNth l n { nth LSys.reset l n with ref := some (RefCal.new c.t) }) s.lhf.sys } })
    ∧ (active s .field = true → busy = false → s.cal.legacy ≠ none →
      ∃ u, exec (.legacyCal c) s = .next u ∧ Completed 0x41 c stRefusedBusy 0 0 s u ∧ u = { commanded s u with now := c.t })
    ∧ ((active s .field = false ∨ busy = true) →
      ∃ u, exec (.legacyCal c) s = .next u ∧ Completed 0x41 c stRefusedState 0 0 s u ∧ u = { commanded s u with now := c.t }))

/-- The conversions of the legacy front end (R235 to R237, R247). With FIELD in service a sense conversion ends 1 790 ns after the later of its slot's grid instant and the end of
the conversion before, stores one sample strobed 1 000 ns earlier and moves the SAR on; an urgent conversion that begins before then runs first, and its reading of 19 mA and more
faults its output; at each 1 ms strobe both SARs are given the next routine conversion. Out of service none has an effect. -/
def Obligations.ConversionsFollowTheirSlots : Prop :=
  ∀ (t : Int) (s : State),
    let on := active s .field = true ∧ s.lhf.on = true
    let same := fun (u : State) => u = { shown s u with now := t }
    (∀ (u2 : Fin 2) (code : Int), on →
      let x := if u2.val = 0 then s.lhf.sar.a else s.lhf.sar.b
      let n := 4 * u2.val + x.k
      let grid := s.lhf.tG + 7200 * (x.c : Int) + 1800 * (x.k : Int)
      let next := { x with c := if x.k = 3 then x.c + 1 else x.c, k := if x.k = 3 then 0 else x.k + 1, free := t }
      let sampled := fun (u : State) => n < s.lhf.sys.length → ∃ y, (sysOf u n).win = (y :: (sysOf s n).win).take 89 ∧ y.t = t - 1000 ∧ y.lt = !s.net.joined
        ∧ y.code = max (-2048) (min 2047 code) ∧ (clampAt (sysOf s n) (t - 1000) 20000 = none → y.m % 2 = b2n (decide (2047 ≤ code) || decide (code ≤ -2048)))
      let kept := fun (u : State) => u.stg = s.stg ∧ u.clr = s.clr ∧ u.sin = s.sin ∧ u.sld = s.sld ∧ u.regs = s.regs ∧ u.sec = s.sec ∧ u.bsc = s.bsc ∧ u.dom = s.dom
        ∧ ((sysOf s n).ref = none → u.pst = s.pst)
      (x.wait = [] → x.routine = none → t = max grid x.free + 1790 → ∃ u, exec (.sarConversion t u2 code) s = .next u
        ∧ u.lhf.sar = (if u2.val = 0 then { s.lhf.sar with a := next } else { s.lhf.sar with b := next }) ∧ sampled u ∧ kept u)
      ∧ (∀ b m r, x.wait = [(b, m, r)] → x.routine = none → b < max grid x.free + 1790 → t = max grid (b + 1790) + 1790 → (sysOf s n).change = none →
        ∃ u, exec (.sarConversion t u2 code) s = .next u
        ∧ u.lhf.sar = (if u2.val = 0 then { s.lhf.sar with a := { next with wait := [] } } else { s.lhf.sar with b := { next with wait := [] } }) ∧ sampled u ∧ kept u
        ∧ (190 ≤ r → m < s.lhf.sys.length → 0 < (sysOf s m).faults.length → nth false (sysOf u m).faults 0 = true))
      ∧ (x.wait = [] → x.routine = none → t ≠ max grid x.free + 1790 → ∃ u, exec (.sarConversion t u2 code) s = .next u ∧ same u))
    ∧ (∀ (a b : Int), on →
      (t % 1000000 = 0 → ∃ u, exec (.routineConversion t a b) s = .next u
        ∧ u = { shown s u with now := t, lhf := { s.lhf with rot := (s.lhf.rot + 1) % 6, sar := ⟨{ s.lhf.sar.a with routine := some (t, s.lhf.rot, a) }, { s.lhf.sar.b with routine := some (t, s.lhf.rot, b) }⟩ } })
      ∧ (t % 1000000 ≠ 0 → ∃ u, exec (.routineConversion t a b) s = .next u ∧ same u))
    ∧ (∀ (n : Fin 8) (r : Int), on →
      let x := if n.val < 4 then s.lhf.sar.a else s.lhf.sar.b
      let b := match x.urg with | some k => max (grid10 t) (k + 2000000) | none => grid10 t
      let y := { x with urg := some b, wait := x.wait ++ [(b, n.val, r)] }
      ∃ u, exec (.urgentConversion t n r) s = .next u
        ∧ u = { shown s u with now := t, ctr := u.ctr, lhf := { s.lhf with sar := if n.val < 4 then { s.lhf.sar with a := y } else { s.lhf.sar with b := y } } })
    ∧ (∀ (u2 : Fin 2) (a b : Int) (n : Fin 8), ¬ on → ∀ i ∈ [Instr.sarConversion t u2 a, .routineConversion t a b, .urgentConversion t n a],
      ∃ u, exec i s = .next u ∧ same u)

/-- Clamps, test tones and excitation of a legacy system (R239, R244 to R246). A clamp's trip and release mark the system; the release starts it on its highest usable range
and clears a held clamp. A tone burst starts at t_T + 250k + 31.25n ms where tones are on and the output is driven, and its evaluation ends it once the values past it are
formed, keeping its q unless it is skipped. A write to the excitation changes it at the next value's cycle, and is ignored and recorded where it breaks a limit.
The model's own choices that it rests on: log entry 47. -/
def Obligations.LegacySystemsFollowTheirCommands : Prop :=
  ∀ (t : Int) (n : Fin 8) (s : State),
    let on := active s .field = true ∧ s.lhf.on = true
    let x := sysOf s n
    let with_ := fun (y : LSys) (u : State) => u = { shown s u with now := t, lhf := { s.lhf with sys := setNth s.lhf.sys n y } }
    let same := fun (u : State) => u = { shown s u with now := t }
    (∀ pos, on → ∃ u, exec (.clampTrip t n pos) s = .next u ∧ with_ { x with clamp := some (t, pos) } u)
    ∧ (∀ pos, ¬ on → ∃ u, exec (.clampTrip t n pos) s = .next u ∧ same u)
    ∧ (x.clamp = none → ∃ u, exec (.clampRelease t n) s = .next u ∧ same u)
    ∧ (∀ k, x.clamp = some k → ∃ u, exec (.clampRelease t n) s = .next u ∧ (sysOf u n).clamp = none ∧ (sysOf u n).past = some (k.1, t, k.2)
      ∧ (sysOf u n).range = topRange s n
      ∧ (nth false x.faults 4 = false → with_ { x with clamp := none, past := some (k.1, t, k.2), range := topRange s n, down := 0 } u))
    ∧ (let driven := on ∧ ctlF s n 1 1 ≠ 0 ∧ x.en = true ∧ nth false x.faults 0 = false
      (∀ k : Nat, driven → t = s.lhf.tT + 250000000 * (k : Int) + 31250000 * (n.val : Int) → ∃ u, exec (.toneBurstStart t n) s = .next u
        ∧ with_ { x with burst := some { n := k, start := t, stop := t + 2000000, f := if k % 2 = 0 then x.freq + 54975581 else x.freq - 54975581, bb := x.bb,
                                         ti := 0, tq := 0, cnt := 0, skip := false, past := false } } u)
      ∧ ((¬ driven ∨ ∀ k : Nat, t ≠ s.lhf.tT + 250000000 * (k : Int) + 31250000 * (n.val : Int)) → ∃ u, exec (.toneBurstStart t n) s = .next u ∧ same u))
    ∧ (∀ b, x.burst = some b → b.past = true → b.skip = false → ∃ u, exec (.toneBurstEvaluate t n) s = .next u ∧ (sysOf u n).burst = none
      ∧ (sysOf u n).q = w32i (satu (rnd (1048576 * (rnd b.ti 8 * rnd b.ti 8 + rnd b.tq 8 * rnd b.tq 8)) b.bb) 32))
    ∧ (∀ b, x.burst = some b → b.past = true → b.skip = true → ∃ u, exec (.toneBurstEvaluate t n) s = .next u
      ∧ u = { shown s u with now := t, ctr := u.ctr, lhf := { s.lhf with sys := setNth s.lhf.sys n { x with burst := none } } })
    ∧ ((x.burst = none ∨ ∃ b, x.burst = some b ∧ b.past = false) → ∃ u, exec (.toneBurstEvaluate t n) s = .next u ∧ same u)
    ∧ (∀ ctl v, active s .host = true →
      let off := 0xB000 + 0x10 * n.val + (if ctl then 4 else 0)
      let ok := if ctl then fld v 23 16 ≤ 200 ∧ fld v 15 8 ≤ (if bitOf v 1 then 181 else 200) else 175921860 ≤ fld v 29 0 ∧ fld v 29 0 ≤ 615726512
      let w := w32 (if ctl then v.toNat &&& 0xFFFF03 else fld v 29 0)
      let moves := ctl = false ∨ fld w 15 8 ≠ fld (reg s off) 15 8 ∨ bitOf w 0 ≠ bitOf (reg s off) 0
      (ok → lands s (pregWord off) = true → active s .field = true → moves → (∀ h, x.change = some h → cycleNow (atTime t s) < 22 * (h : Int)) →
        ∃ u, exec (.lhfExcitationChange t n ctl v) s = .next u
        ∧ u = { shown s u with now := t, pst := { s.pst with wq := s.pst.wq ++ [(pregWord off, w)] },
                               lhf := { s.lhf with sys := setNth s.lhf.sys n { x with change := some (x.change.getD (nextValue (atTime t s))), enLow := x.enLow || (ctl && !bitOf w 0) } } })
      ∧ (ok → lands s (pregWord off) = true → (active s .field = false ∨ ¬ moves) → ∃ u, exec (.lhfExcitationChange t n ctl v) s = .next u
        ∧ u = { shown s u with now := t, pst := { s.pst with wq := s.pst.wq ++ [(pregWord off, w)] } })
      ∧ (¬ ok → ∃ u, exec (.lhfExcitationChange t n ctl v) s = .next u ∧ u = { reported s u with now := t, ctr := s.ctr }
        ∧ (aonUp s = true → ({ code := evWriteIgnored, src := 112, p0 := w32 off, p1 := v, p2 := 0, solo := false } : EvIn) ∈ u.erc.inbox)))

/-! ## Streams, history, queued jobs -/

/-- STREAM_BLOCK_PACK and STREAM_FLUSH_TIMER (R328, R348, R349). The next block for a ring leaves its queue: laid whole behind what the buffer holds where one is posted
with room, else shed and counted; a buffer whose FLUSH has passed leaves it, its data before its done form, and no buffer waits for FLUSH then.
HISTORY_BLOCK_WRITE (R351 to R353). The next block for an enabled region that is not held, once the ECC is initialised, is its youngest, whole within the region's
length, and no other region changes; for a held one, or before, it is shed and counted, and a disabled region drops it.
The model's own choices that it rests on: log entries 68, 71. -/
def Obligations.BlocksReachStreamsAndHistory : Prop :=
  ((∀ (t : Int) (n : Fin 8) (b : Block) (r : List Block) (s : State), tget [] n.val s.hsc.strq = b :: r →
       let g := ringOf s.hre n.val
       let q := tput [] n.val r s.hsc.strq
       (active s .host = false → ∃ u, exec (.streamBlockPack t n) s = .next u ∧ u = { shown s u with now := t, hsc := { s.hsc with strq := q } })
       ∧ (∀ p l, active s .host = true → b.bytes ≠ [] → ringReady s n.val = true → g.posted = p :: l → g.fill.length + b.bytes.length ≤ p.length →
         ∃ u, exec (.streamBlockPack t n) s = .next u ∧ ringOf u.hre n.val = { g with fill := g.fill ++ b.bytes, items := g.items + 1 }
           ∧ (∀ m, m ≠ n.val → ringOf u.hre m = ringOf s.hre m)
           ∧ u = { shown s u with now := t, hsc := { s.hsc with strq := q, strAt := u.hsc.strAt }, hre := { (shown s u).hre with rings := u.hre.rings } })
       ∧ (active s .host = true → b.bytes ≠ [] → ringReady s n.val = false →
         ∃ u, exec (.streamBlockPack t n) s = .next u ∧ ringOf u.hre n.val = { g with shed := satAdd 32 g.shed 1 }
           ∧ u = { shown s u with now := t, ctr := (bump (0xCC5C + 4 * n.val) s).ctr, dom := s.dom.put .host { s.dom.get .host with busy := true }, hsc := { s.hsc with strq := q, strAt := u.hsc.strAt }, hre := { (shown s u).hre with rings := u.hre.rings } }))
     ∧ (∀ (t : Int) (n : Fin 8) (s : State), tget [] n.val s.hsc.strq = [] → ∃ u, exec (.streamBlockPack t n) s = .next u ∧ u = { shown s u with now := t })
     ∧ (∀ (t e : Int) (n : Fin 8) (s : State), tget none n.val s.hsc.strAt = some e →
       let g := ringOf s.hre n.val
       (t < e → ∃ u, exec (.streamFlushTimer t n) s = .next u ∧ u = { shown s u with now := t })
       ∧ (e ≤ t → g.fill = [] → ∃ u, exec (.streamFlushTimer t n) s = .next u
         ∧ u = { shown s u with now := t, hsc := { s.hsc with strAt := tput none n.val none s.hsc.strAt } })
       ∧ (∀ p l, e ≤ t → g.fill ≠ [] → g.posted = p :: l → hostCan s = true → hreRun s = true → ∃ u, exec (.streamFlushTimer t n) s = .next u
         ∧ .hostWrite p.addr g.fill ∈ u.out ∧ (ringOf u.hre n.val).fill = [] ∧ (ringOf u.hre n.val).items = 0 ∧ (ringOf u.hre n.val).posted <:+ l
         ∧ u = { reported s u with now := t, ctr := s.ctr, erc := s.erc, hsc := { s.hsc with strAt := tput none n.val none s.hsc.strAt }, hre := { (reported s u).hre with rings := u.hre.rings } })))
  ∧ (∀ (t : Int) (k : Fin 16) (s : State),
         let g := regionOf s.hsc k.val
         let done := fun (u : State) (r : List Block) => tput [] k.val r s.hsc.hisq = u.hsc.hisq ∧ (∀ j, j ≠ k.val → regionOf u.hsc j = regionOf s.hsc j)
           ∧ u.hsc.defs = s.hsc.defs ∧ u.hsc.strq = s.hsc.strq ∧ u.stg = s.stg ∧ u.sec = s.sec ∧ u.pst = s.pst ∧ u.regs = s.regs
         (tget [] k.val s.hsc.hisq = [] → ∃ u, exec (.historyBlockWrite t k) s = .next u ∧ u = { shown s u with now := t })
         ∧ (∀ b r, tget [] k.val s.hsc.hisq = b :: r → active s .host = true → g.en = true → g.hold = false → s.hsc.eccReady = true →
           ∃ u off, exec (.historyBlockWrite t k) s = .next u ∧ done u r ∧ (regionOf u.hsc k.val).blocks.getLast? = some (off, b)
             ∧ (regionOf u.hsc k.val).lastN = some b.n ∧ (regionOf u.hsc k.val).shed = g.shed
             ∧ (b.bytes ≠ [] → b.bytes.length ≤ (regionSpan s k.val).2 → off + b.bytes.length ≤ (regionSpan s k.val).2))
         ∧ (∀ b r, tget [] k.val s.hsc.hisq = b :: r → active s .host = true → g.en = true → (g.hold = true ∨ s.hsc.eccReady = false) →
           ∃ u, exec (.historyBlockWrite t k) s = .next u ∧ done u r ∧ regionOf u.hsc k.val = { g with shed := satAdd 32 g.shed 1, gap := true })
         ∧ (∀ b r, tget [] k.val s.hsc.hisq = b :: r → (active s .host = false ∨ g.en = false) →
           ∃ u, exec (.historyBlockWrite t k) s = .next u ∧ done u r ∧ u.hsc.regions = s.hsc.regions))

/-- HSC_REG_ENABLE, HSC_REG_HOLD and HOLD_COUNTDOWN_END (R351 to R353, R450). A region whose range is allowed is enabled empty, its pointer at 0; one whose range is not stays
as it is and the write is recorded; HOLD, written or at the end of a countdown, sheds what waits for the region at once, and its release arms the trigger again.
HSC_SDEF_ENABLE, HOST_ECC_INIT_DONE, SCRUB_PASS_START (R340, R348, R352, R356). A definition that keeps its limits and the pace is enabled, its first block to carry
RESTART; one that does not stays disabled and the write is recorded; a fall ends its output. The ECC is ready from its instant; a scrub pass joins the queue alone.
The model's own choices that it rests on: log entry 75. -/
def Obligations.RegionsAndDefinitionsFollowTheirEnable : Prop :=
  (∀ (t : Int) (k : Fin 16) (s : State),
       let g := regionOf s.hsc k.val
       let o := regionOff k.val
       let q := tget [] k.val s.hsc.hisq
       let held := { g with hold := true, heldAt := t, countdown := none, shed := satAdd 32 g.shed q.length, gap := g.gap || q != [] }
       let others := fun (u : State) => (∀ j, j ≠ k.val → regionOf u.hsc j = regionOf s.hsc j) ∧ u.hsc.defs = s.hsc.defs ∧ u.stg = s.stg ∧ u.sec = s.sec
         ∧ u.pst = s.pst ∧ u.dom = s.dom
       let taken := fun (v : Word) => release (span (o - 16) 17) (setRw o (setBit (setBit v 0 g.en) 1 g.hold) (atTime t s))
       let v := setBit (regStored s o) 0 true
       (active s .host = true → bitOf (regStored s o) 1 = g.hold →
         (g.en = false → regionOk (taken v) k.val = true → ∃ u, exec (.hscRegEnable t k true) s = .next u ∧ others u
           ∧ regionOf u.hsc k.val = { g with en := true, wptr := 0, wraps := 0, countdown := none, armed := true, blocks := [], fresh := true, gap := false, lastN := none })
         ∧ (g.en = false → regionOk (taken v) k.val = false → ∃ u, exec (.hscRegEnable t k true) s = .next u ∧ u = { reported s u with now := t, ctr := s.ctr }
           ∧ (aonUp s = true → ({ code := evWriteIgnored, src := 97, p0 := w32 o, p1 := v, p2 := 0, solo := false } : EvIn) ∈ u.erc.inbox))
         ∧ (g.en = true → ∃ u, exec (.hscRegEnable t k false) s = .next u ∧ others u ∧ regionOf u.hsc k.val = { g with en := false, countdown := none }))
       ∧ (active s .host = true → bitOf (regStored s o) 0 = g.en →
         (g.hold = false → ∃ u, exec (.hscRegHold t k true) s = .next u ∧ others u ∧ regionOf u.hsc k.val = held)
         ∧ (g.hold = true → ∃ u, exec (.hscRegHold t k false) s = .next u ∧ others u ∧ regionOf u.hsc k.val = { g with hold := false, armed := true, countdown := none }))
       ∧ (∀ e, g.countdown = some e → active s .host = true → e ≤ t → ∃ u, exec (.holdCountdownEnd t k) s = .next u ∧ others u ∧ regionOf u.hsc k.val = held)
       ∧ ((g.countdown = none ∨ (∃ e, g.countdown = some e ∧ t < e) ∨ active s .host = false) →
         ∃ u, exec (.holdCountdownEnd t k) s = .next u ∧ u = { shown s u with now := t })
       ∧ (∀ b, active s .host = false → ∀ i ∈ [Instr.hscRegEnable t k b, .hscRegHold t k b], ∃ u, exec i s = .next u ∧ u = { shown s u with now := t }))
  ∧ ((∀ (t : Int) (d : Fin 16) (s : State), active s .host = true →
         let o := sdefOff d.val
         let x := defOf s d.val
         let w2 := regStored s (o + 8)
         let taken := fun (b : Bool) => release [o, o + 4, o + 8] (setRw (o + 8) w2 (setRw o (setBit (setBit (regStored s o) 0 b) 0 x.en) (atTime t s)))
         let ok := sdefOk (taken true) d.val && sdefPace (taken true) d.val
         let others := fun (u : State) => (∀ j, j ≠ d.val → defOf u j = defOf s j) ∧ u.hsc.regions = s.hsc.regions ∧ u.stg = s.stg ∧ u.sec = s.sec ∧ u.pst = s.pst
           ∧ u.dom = s.dom
         (x.en = false → ok = true → ∃ u, exec (.hscSdefEnable t d true) s = .next u ∧ others u
           ∧ defOf u d.val = { en := true, restart := true, shed := false, lastLine := none })
         ∧ (x.en = false → ok = false → ∃ u, exec (.hscSdefEnable t d true) s = .next u ∧ u = { reported s u with now := t, ctr := s.ctr }
           ∧ (aonUp s = true → ({ code := evWriteIgnored, src := 97, p0 := w32 (o + 8), p1 := w2, p2 := 0, solo := false } : EvIn) ∈ u.erc.inbox))
         ∧ (x.en = true → ∃ u, exec (.hscSdefEnable t d false) s = .next u ∧ others u ∧ defOf u d.val = { x with en := false }))
       ∧ (∀ (t : Int) (s : State),
         (∃ u, exec (.hostEccInitDone t) s = .next u ∧ u = { shown s u with now := t, hsc := { s.hsc with eccReady := s.hsc.eccReady || active s .host } })
         ∧ (active s .host = true → (s.bsc.jobs ++ s.bsc.running).any isScrub = false → ∃ u, exec (.scrubPassStart t) s = .next u
           ∧ u = { shown s u with now := t, hsc := { s.hsc with scrubAt := t, scrubReduced := false }, bsc := { s.bsc with jobs := s.bsc.jobs ++ [{ id := 0, index := 0, prio := 7, res := .host, since := t, kind := 0, args := [], pos := 0, total := usableBytes, waitAt := none }] } })
         ∧ (active s .host = true → (s.bsc.jobs ++ s.bsc.running).any isScrub = true → ∃ u, exec (.scrubPassStart t) s = .next u
           ∧ u = { shown s u with now := t, ctr := u.ctr, hsc := { s.hsc with scrubReduced := s.hsc.scrubReduced || decide (dayNs ≤ t - s.hsc.scrubAt) } })
         ∧ (active s .host = false → ∃ u, exec (.scrubPassStart t) s = .next u ∧ u = { shown s u with now := t })))

/-! ## The round network -/

/-- FRAME_SEND and CLAIM_SEND (R254 to R256, R263, R268, R270, R297). In a place that the node owns in the round, at its send point and with the lane's guardian open, a
lane sends the frame of the place's kind: its waiting count messages or NULL, its letters, TIME or STARTUP, or exactly the bay it claimed; and in its claim minislot its
claim. Anywhere else it sends nothing.
The model's own choices that it rests on: log entry 66. -/
def Obligations.FramesAndClaimsLeaveAtTheirPlace : Prop :=
  ∀ (t : Int) (l : Lane) (s : State),
    let a := atTime t s
    let k := curRound a
    let x := s.net.rct.lane l
    let same := fun (u : State) => u = { shown s u with now := t }
    let with_ := fun (y : RctSt) (u : State) =>
      u = { reported s u with now := t, net := { s.net with rct := s.net.rct.setLane l y, ring := u.net.ring, tx := u.net.tx } } ∧ (ringSends a l = false → u.net.ring = s.net.ring)
    let sent := fun (type : Nat) (dyn : Bool) (index : Nat) (payload : List Byte) (u : State) =>
      Out.frame (chanPort s l) t (frameBytes a false l.num type dyn index k payload) ∈ u.out
    (∀ index dyn ck, (∀ e, ownerOf a k dyn index = some e → e.node ≠ nodeId s ∨ maySend a l e.kind = false ∨ sendAt a l dyn index ≠ some t) →
      ∃ u, exec (.frameSend t l index dyn ck) s = .next u ∧ same u)
    ∧ (∀ index dyn ck e, ownerOf a k dyn index = some e → e.node = nodeId s → maySend a l e.kind = true → sendAt a l dyn index = some t →
      let ms := sortBy (fun q => (q.block : Int)) ((x.queue.filter (fun q => decide (q.at_ + 10000 ≤ t))).take (min 3 (slotLimit s / 276)))
      let rs := oldest x (t - 10000) (min 63 ((slotLimit s - 8) / 16))
      let known := (dynIds a k).all (fun e => (claimOf x.claims e.index).isSome)
      (e.kind = 1 → ms = [] → ∃ u, exec (.frameSend t l index dyn ck) s = .next u ∧ sent 5 false index [] u ∧ with_ x u)
      ∧ (e.kind = 1 → ms ≠ [] → ck.readBackOk = true → ∃ u, exec (.frameSend t l index dyn ck) s = .next u ∧ sent 1 false index (wordsBytes (ms.flatMap (·.words))) u
        ∧ with_ { x with queue := x.queue.filter (fun q => !ms.contains q) } u)
      ∧ (e.kind = 1 → ms ≠ [] → ck.readBackOk = false → ∃ u, exec (.frameSend t l index dyn ck) s = .next u
        ∧ (∀ p t' b, Out.frame p t' b ∈ u.out → Out.frame p t' b ∈ s.out))
      ∧ (e.kind = 2 → ∃ u, exec (.frameSend t l index dyn ck) s = .next u ∧ sent 2 false index (lettersPayload x rs) u
        ∧ with_ { x with stream := { x.stream with recs := x.stream.recs.drop rs.length } } u)
      ∧ (e.kind = 3 → ∃ u, exec (.frameSend t l index dyn ck) s = .next u
        ∧ sent (if x.st = 1 then 4 else 3) false index (timePayload (watchEligible l a) l) u
        ∧ with_ (u.net.rct.lane l) u ∧ (u.net.rct.lane l).st = x.st ∧ (u.net.rct.lane l).stream = x.stream ∧ (u.net.rct.lane l).queue = x.queue
        ∧ (u.net.rct.lane l).times.length = x.times.length + 1)
      ∧ (dyn = true → known = true → ∀ c, x.claimed.find? (fun c => c.id == index) = some c → c.diag = false →
        (e.kind = 4 ∨ e.kind = 5) → ∃ u, exec (.frameSend t l index dyn ck) s = .next u ∧ sent 2 true index (lettersPayload x (x.stream.recs.take c.recs)) u
          ∧ with_ { x with stream := { x.stream with recs := x.stream.recs.drop (x.stream.recs.take c.recs).length } } u)
      ∧ (dyn = true → known = true → ∀ c d r, x.claimed.find? (fun c => c.id == index) = some c → c.diag = true → x.diag = d :: r →
        (e.kind = 4 ∨ e.kind = 5) → ∃ u, exec (.frameSend t l index dyn ck) s = .next u ∧ sent 6 true index d.2 u
          ∧ u = { commanded s u with now := t, net := { s.net with rct := s.net.rct.setLane l { x with diag := x.diag.filter (fun z => z.1 != d.1) }, ring := u.net.ring, tx := u.net.tx } })
      ∧ (dyn = true → (known = false ∨ x.claimed.find? (fun c => c.id == index) = none) → (e.kind = 4 ∨ e.kind = 5) →
        ∃ u, exec (.frameSend t l index dyn ck) s = .next u ∧ same u))
    ∧ (∀ id e o, ownerOf a k true id = some e → claimStart a k id = some o →
      let start := (k : Int) * roundNs s + o
      let f := claimFrame a l e start
      let len := match f with | some c => frameMinis c.2 | none => 0
      (e.node = nodeId s → maySend a l e.kind = true → t = start + 250 → ∃ u, exec (.claimSend t l id) s = .next u
        ∧ Out.claim (chanPort s l) t (id % 256) len (claimCheck id len) ∈ u.out
        ∧ u = { shown s u with now := t, net := { s.net with rct := s.net.rct.setLane l { x with claims := addClaim id (some len) x.claims, claimed := x.claimed ++ (match f with | some c => [c.1] | none => []) } } })
      ∧ ((e.node ≠ nodeId s ∨ maySend a l e.kind = false ∨ t ≠ start + 250) → ∃ u, exec (.claimSend t l id) s = .next u ∧ same u))
    ∧ (∀ id, (ownerOf a k true id = none ∨ claimStart a k id = none) → ∃ u, exec (.claimSend t l id) s = .next u ∧ same u)

/-- FRAME_RECEIVE and CLAIM_RECEIVE in round mode (R260 to R262, R270, R283, R291). A frame on a port with no live lane has no effect, nor has, before the join, one that is
neither TIME nor STARTUP; a sender whose delay is not known is counted; a lane in LISTEN takes the time of a master's frame; a frame that fails a check is a dead letter
of its cause with no other effect on letters or items, one during whose arrival the port's RPn_LOS rose with cause CODE (R465, R484); a LETTERS frame that passes waits for its merge. A claim is kept with its length, or as unknown when it cannot be read.
The model's own choices that it rests on: log entries 57, 170. -/
def Obligations.FramesAndClaimsAreTaken : Prop :=
  (∀ (f : FrameRx) (crossOk : Bool) (s : State),
    let a := atTime f.tEnd s
    let h := heardRx a f
    let g := parseFrame f.bytes
    let same := fun (u : State) => u = { shown s u with now := f.tEnd }
    let kept := fun (u : State) => u = { reported s u with now := f.tEnd, net := { s.net with rct := u.net.rct, dead := u.net.dead } }
    (portLane s f.port = none → ∃ u, exec (.frameReceive f crossOk) s = .next u ∧ same u)
    ∧ (∀ l, portLane s f.port = some l → rctRound a l = false → pollLive a l = false → ∃ u, exec (.frameReceive f crossOk) s = .next u ∧ same u)
    ∧ (∀ l, portLane s f.port = some l → rctRound a l = true → isJoined s = false → g.timed = false →
      ∃ u, exec (.frameReceive f crossOk) s = .next u ∧ same u)
    ∧ (∀ l, portLane s f.port = some l → rctRound a l = true → (isJoined s = true ∨ g.timed = true) → delayOf a l g = none →
      ∃ u, exec (.frameReceive f crossOk) s = .next u ∧ u = { shown s u with now := f.tEnd, ctr := (bump (rctCtr l 2) s).ctr })
    ∧ (∀ l d, portLane s f.port = some l → rctRound a l = true → g.timed = true → delayOf a l g = some d → (s.net.rct.lane l).st = 0 →
      frameCause a l h g d false g.round = 0 → s.net.joined = false → (s.net.rct.lane l.other).st ≠ 3 → g.node = fld (g.word 0) 31 24 →
      ∃ u, exec (.frameReceive f crossOk) s = .next u ∧ kept u ∧ (u.net.rct.lane l).st = 2 ∧ (u.net.rct.lane l).master = g.node
        ∧ (u.net.rct.lane l).delta = frameNt a g d - f.t)
    ∧ (∀ w l d, tget none f.port s.net.los = some w → f.t ≤ w → w ≤ f.tEnd → portLane s f.port = some l → rctRound a l = true → isJoined s = true →
      delayOf a l g = some d → 2 ≤ (s.net.rct.lane l).st → ∃ u, exec (.frameReceive f crossOk) s = .next u
        ∧ tget 0 (0x9E00 + 0x40 * f.port) u.ctr / 65536 = satAdd 16 (tget 0 (0x9E00 + 0x40 * f.port) s.ctr / 65536) 1)
    ∧ (∀ l d, portLane s f.port = some l → rctRound a l = true → (isJoined s = true ∨ g.timed = true) → delayOf a l g = some d →
      2 ≤ (s.net.rct.lane l).st →
      let b := measure l h g d a
      let c := frameCause b l h g d true (laneRound b l)
      (c ≠ 0 → ∃ u, exec (.frameReceive f crossOk) s = .next u ∧ kept u ∧ u.net.rct.lane l.other = s.net.rct.lane l.other
        ∧ (u.net.rct.lane l).stream = (s.net.rct.lane l).stream ∧ (u.net.rct.lane l).peers = (s.net.rct.lane l).peers
        ∧ (u.net.rct.lane l).times = (s.net.rct.lane l).times ∧ (u.net.rct.lane l).used = (s.net.rct.lane l).used
        ∧ tget 0 (0x9E00 + 0x40 * f.port) u.ctr % 65536 = satAdd 16 (tget 0 (0x9E00 + 0x40 * f.port) s.ctr % 65536) 1)
      ∧ (c = 0 → g.type = 2 → ∃ u, exec (.frameReceive f crossOk) s = .next u ∧ kept u ∧ (u.net.rct.lane l).heard = true
        ∧ (isJoined s = true → (peerOf (u.net.rct.lane l) g.node).held = (peerOf (s.net.rct.lane l) g.node).held ++ [copyOf (copyDue a g f.tEnd) g])
        ∧ (isJoined s = true → crossOk = true → rctLive a l.other = true → s.lcm.cond.lane l = .serving →
          (peerOf (u.net.rct.lane l.other) g.node).held = (peerOf (s.net.rct.lane l.other) g.node).held ++ [copyOf (copyDue a g f.tEnd) g]))
      ∧ (c = 0 → g.timed = true → ∃ u, exec (.frameReceive f crossOk) s = .next u ∧ kept u ∧ (u.net.rct.lane l).heard = true
        ∧ (peerOf (u.net.rct.lane l) g.node).loop = some ((g.word 1).toNat, bitOf (g.word 0) 12)
        ∧ ((s.net.rct.lane l).used.contains (g.node, g.dyn, g.index, g.round) = false →
          (u.net.rct.lane l).times.length = (s.net.rct.lane l).times.length + 1))))
  ∧ (∀ (t : Int) (port id : Nat) (rx : BranchRx) (s : State),
    let a := atTime t s
    let same := fun (u : State) => u = { shown s u with now := t }
    (ridgeLive a = true → s.net.rdg.sched = true → ∃ u, exec (.claimReceive t port id rx) s = .next u
      ∧ u = { shown s u with now := t, net := { s.net with rdg := { s.net.rdg with claims := addClaim id (readClaim id rx) s.net.rdg.claims } } })
    ∧ (ridgeLive a = true → s.net.rdg.sched = false → ∃ u, exec (.claimReceive t port id rx) s = .next u ∧ same u)
    ∧ (∀ l, ridgeLive a = false → portLane s port = some l →
      let x := s.net.rct.lane l
      let used := rctRound a l && (dynIds a (laneRound a l)).any (fun e => e.index == id)
      (used = true → ∃ u, exec (.claimReceive t port id rx) s = .next u ∧ u = { shown s u with now := t, net := { s.net with rct := s.net.rct.setLane l { x with claims := addClaim id (if claimInTime a l id then readClaim id rx else none) x.claims } } })
      ∧ (used = false → ∃ u, exec (.claimReceive t port id rx) s = .next u ∧ same u))
    ∧ (ridgeLive a = false → portLane s port = none → ∃ u, exec (.claimReceive t port id rx) s = .next u ∧ same u))

/-- LETTERS_MERGE, MASTER_DECISION and LISTEN_TIMEOUT (R262, R269, R289, R291, R294). A merge waits for the second copy of the oldest frame held, or for its
instant, which a SILENT channel puts off to the end of round ROUND + LAG; it takes that frame's copies; a single record in order advances E,
is kept and goes to its lane's ledger. At the end of the static segment each lane that integrates or is joined, and a scheduled ridge, decides its next master; of one given
up without a successor it measures no more. A lane that
may cold-start after its listen time takes the device there as its own master, 20 µs before round 1.
The model's own choices that it rests on: log entries 56, 149. -/
def Obligations.LettersMastersAndColdStart : Prop :=
  ∀ (t : Int) (s : State),
    let a := atTime t s
    let same := fun (u : State) => u = { shown s u with now := t }
    let copies := fun (l : Lane) (n : Nat) (c : LCopy) => ((peerOf (s.net.rct.lane l) n).held.filter (fun d => d.dyn == c.dyn && d.index == c.index && d.round == c.round)).length
    let waited := fun (l : Lane) (n : Nat) (c : LCopy) => 2 ≤ copies l n c ∨
      (if bothLanes.any (fun m => rctRound a m && (s.net.rct.lane m).silent) then max c.due (((c.round + regF s 0x9020 11 8 + 1 : Nat) : Int) * roundNs s) else c.due) ≤ t
    (∀ l n, ((peerOf (s.net.rct.lane l) n).held = [] ∨ laneTakes s l = false ∨ ∃ c r, (peerOf (s.net.rct.lane l) n).held = c :: r ∧ ¬ waited l n c) → ∃ u, exec (.lettersMerge t l n) s = .next u ∧ same u)
    ∧ (∀ l n c r, (peerOf (s.net.rct.lane l) n).held = c :: r → laneTakes s l = true → waited l n c → ∃ u, exec (.lettersMerge t l n) s = .next u
      ∧ u = { reported s u with now := t, net := { s.net with rct := u.net.rct }, rctq := u.rctq }
      ∧ u.net.rct.lane l.other = s.net.rct.lane l.other ∧ u.rctq.lane l.other = s.rctq.lane l.other
      ∧ (peerOf (u.net.rct.lane l) n).held = (c :: r).filter (fun d => !(d.dyn == c.dyn && d.index == c.index && d.round == c.round))
      ∧ (∀ m, m ≠ n → peerOf (u.net.rct.lane l) m = peerOf (s.net.rct.lane l) m))
    ∧ (∀ l n c ws it, (peerOf (s.net.rct.lane l) n).held = [c] → c.recs = [ws] → laneTakes s l = true → waited l n c →
      let q := c.seq % 4294967296
      (peerOf (s.net.rct.lane l) n).next = some (q, c.epoch) →
      itemOfRec n (tget none (markKey n (fld (nth 0 ws 0) 12 0)) (s.net.rct.lane l).marks) ws = some it →
      ∃ u, exec (.lettersMerge t l n) s = .next u ∧ (peerOf (u.net.rct.lane l) n).next = some ((q + 1) % 4294967296, c.epoch)
        ∧ (peerOf (u.net.rct.lane l) n).kept = ((q, ws) :: (peerOf (s.net.rct.lane l) n).kept).take 256
        ∧ u.rctq = s.rctq.setLane l (s.rctq.lane l ++ [it]))
    ∧ (∃ u, exec (.masterDecision t) s = .next u ∧ u = { shown s u with now := t, net := { s.net with rct := u.net.rct, rdg := u.net.rdg } }
      ∧ (∀ l, let x := s.net.rct.lane l
        let m := decideMaster (laneRound a l) x.master x.mRound x.times
        let lost := x.master != nodeId s && m == x.master && masterLost (laneRound a l) x.master x.mRound x.times
        u.net.rct.lane l = if rctRound a l ∧ (x.st = 2 ∨ x.st = 3) then { x with newMaster := if m = x.master then none else some m, lost := lost, dNow := if lost then none else x.dNow } else x)
      ∧ (let r := s.net.rdg
        let m := decideMaster (curRound a) r.master r.mRound r.times
        let lost := m == r.master && masterLost (curRound a) r.master r.mRound r.times
        u.net.rdg = if ridgeLive a ∧ r.sched = true then { r with newMaster := if m = r.master then none else some m, lost := lost, dNow := if lost then none else r.dNow } else r))
    ∧ (∀ l, (mayColdstart a l = false → ∃ u, exec (.listenTimeout t l) s = .next u ∧ same u)
      ∧ (mayColdstart a l = true → ∃ u, exec (.listenTimeout t l) s = .next u ∧ u.now = roundNs s - 20000 ∧ u.net.joined = true
        ∧ (u.net.rct.lane l).st = 1 ∧ (u.net.rct.lane l).master = nodeId s ∧ (u.net.rct.lane l).delta = 0 ∧ (u.net.rct.lane l).own = true
        ∧ (rctRound a l.other = true → (u.net.rct.lane l.other).st = 1)
        ∧ u.regs = s.regs ∧ u.sec = { s.sec with lockUntil := u.sec.lockUntil, tapAt := u.sec.tapAt, challenge := u.sec.challenge } ∧ u.phx = s.phx))

/-- Probes (R281, R282). A due request leaves and its departure is kept; a port that reflects sends each request back 256 ns + 8 WAIT ns after it, WAIT the
code groups left of the frame that it sends then, else 0; a reflection takes the
newest departure and gives a sample, of which eight are kept; a departure 4 ms old is lost and counted. Ports of no live lane and a silent ridge do nothing.
The model's own choices that it rests on: log entry 58. -/
def Obligations.ProbesMeasureTheLoop : Prop :=
  ∀ (t : Int) (port : Fin 6) (w : BitVec 16) (set : List (Bool × Byte)) (s : State),
    let a := atTime t s
    let p := port.val
    let same := fun (u : State) => u = { shown s u with now := t }
    let br := branchOf s p
    let onBranch := fun (y : BranchSt) (u : State) =>
      u = { shown s u with now := t, net := { s.net with rdg := { s.net.rdg with branches := setNth s.net.rdg.branches p y } } }
    let smp := fun (d : Int) => t - d - 256 - 8 * (w.toNat : Int)
    (ridgeLive a = true → ∃ u, exec (.probeRequestSend t port) s = .next u ∧ (if probeDue a br.probed then
        onBranch { br with dep := t :: br.dep, probed := some t } u ∧ Out.probe p t 1 0 ∈ u.out else same u))
    ∧ (∀ l, ridgeLive a = false → portLane s p = some l → let x := s.net.rct.lane l
      ∃ u, exec (.probeRequestSend t port) s = .next u ∧ (if rctRound a l ∧ probeDue a x.probed then
        u = { shown s u with now := t, ctr := (bump (rctCtr l 0) s).ctr, net := { s.net with rct := s.net.rct.setLane l { x with dep := t :: x.dep, probed := some t } } } ∧ Out.probe p t 1 0 ∈ u.out
        else same u))
    ∧ (ridgeLive a = false → portLane s p = none → ∀ i ∈ [Instr.probeRequestSend t port, .probeReflectionReceive t port w, .probeLost t port],
      ∃ u, exec i s = .next u ∧ same u)
    ∧ (∃ u, exec (.probeRequestReceive t port set) s = .next u ∧ u = { shown s u with now := t, net := { s.net with refl := if set = requestSet ∧ reflects a p then s.net.refl ++ [{ port := p, at_ := t }] else s.net.refl } })
    ∧ (s.net.refl.find? (fun r => r.port == p) = none → ∃ u, exec (.probeReflectionSend t port) s = .next u ∧ same u)
    ∧ (∀ r, s.net.refl.find? (fun r => r.port == p) = some r →
      let sending := fun (k e : Int) => tget none p s.net.tx = some (k, e) ∧ k ≤ r.at_ + 256 ∧ r.at_ + 256 < e
      (∀ n : Nat, ((∃ k e, sending k e ∧ (n : Int) = (e - (r.at_ + 256) + 7) / 8) ∨ (¬ (∃ k e, sending k e) ∧ n = 0)) →
        let due := r.at_ + 256 + 8 * (n : Int)
        (t < due → ∃ u, exec (.probeReflectionSend t port) s = .next u ∧ same u)
        ∧ (due ≤ t → ∃ u, exec (.probeReflectionSend t port) s = .next u
          ∧ u = { shown s u with now := t, net := { s.net with refl := s.net.refl.erase r } } ∧ (reflects a p = true → Out.probe p due 2 n ∈ u.out))))
    ∧ (ridgeLive a = true → ∃ u, exec (.probeReflectionReceive t port w) s = .next u ∧
      onBranch (match br.dep with | d :: r => { br with dep := r, loops := (smp d :: br.loops).take 8 } | [] => br) u)
    ∧ (∀ l, ridgeLive a = false → portLane s p = some l → let x := s.net.rct.lane l
      ∃ u, exec (.probeReflectionReceive t port w) s = .next u ∧ (if rctRound a l then
        u = { shown s u with now := t, net := { s.net with rct := s.net.rct.setLane l (match x.dep with | d :: r => { x with dep := r, loops := (smp d :: x.loops).take 8 } | [] => x) } }
        else same u))
    ∧ (ridgeLive a = true → ∃ u, exec (.probeLost t port) s = .next u ∧ onBranch { br with dep := br.dep.filter (fun d => decide (t - d < 4000000)) } u)
    ∧ (∀ l, ridgeLive a = false → portLane s p = some l → let x := s.net.rct.lane l
      ∃ u, exec (.probeLost t port) s = .next u
        ∧ u = { shown s u with now := t, ctr := (bumpBy (rctCtr l 1) ((x.dep.filter (fun d => decide (4000000 ≤ t - d))).length) s).ctr, net := { s.net with rct := s.net.rct.setLane l { x with dep := x.dep.filter (fun d => decide (t - d < 4000000)) } } })

/-- The ridge (R299 to R302). IDLE, a STARTUP or TIME frame of a master goes to every other branch unless another came first, and with a right CRC
takes the ridge to SCHEDULED, any other goes nowhere; SCHEDULED, a frame of the owner and of the round that ends within an open
window of its branch goes whole to every other branch after 1 024 ns, one that outlasts it cut short, one outside every window or on a blocked branch goes nowhere and is a violation; a claim goes on in its
owner's window; a window that closes on a frame is a violation; a branch returns after its rounds; eight rounds without a master make the ridge IDLE.
The model's own choices that it rests on: log entries 64, 152. -/
def Obligations.RidgeForwardsWithinWindows : Prop :=
  ∀ (t : Int) (b : Fin 6) (s : State),
    let a := atTime t s
    let r := s.net.rdg
    let br := branchOf s b.val
    let same := fun (u : State) => u = { shown s u with now := t }
    let silent := fun (u : State) => ∀ p t' x, Out.frame p t' x ∈ u.out → Out.frame p t' x ∈ s.out
    let counted := fun (u : State) => tget 0 (0xAE00 + 4 * b.val) u.ctr = satAdd 32 (tget 0 (0xAE00 + 4 * b.val) s.ctr) 1
    let timed := fun (y : RidgeSt) (u : State) => { y with times := u.net.rdg.times, mRound := u.net.rdg.mRound, dNow := u.net.rdg.dNow }
    (∀ rx, ridgeLive a = false → ∃ u, exec (.ridgeForward t b rx) s = .next u ∧ same u)
    ∧ (∀ bytes, ridgeLive a = true → r.sched = false → let f := parseFrame bytes
      f.timed = true → f.node = fld (f.word 0) 31 24 →
      let later := (∃ e, r.idleFwd = some e ∧ t < e.2) ∨ idleBeaten b.val t s.pending = true
      (later → ∃ u, exec (.ridgeForward t b (.frame bytes)) s = .next u ∧ u = { shown s u with now := t, ctr := (bump (0xAE00 + 4 * (12 + b.val)) s).ctr })
      ∧ (¬ later → ∃ u, exec (.ridgeForward t b (.frame bytes)) s = .next u ∧ (∀ p : Nat, p < 6 → p ≠ b.val → Out.frame p (t + 1024) bytes ∈ u.out)
        ∧ (f.crcOk = true → lengthOk a f = true → br.loops ≠ [] → u.net.rdg.sched = true ∧ u.net.rdg.master = f.node ∧ u.net.joined = true)))
    ∧ (∀ bytes, ridgeLive a = true → r.sched = false → let f := parseFrame bytes
      (f.timed = false ∨ f.node ≠ fld (f.word 0) 31 24) → ∃ u, exec (.ridgeForward t b (.frame bytes)) s = .next u ∧ same u)
    ∧ (∀ rx, ridgeLive a = true → r.sched = false → (∀ x, rx ≠ BranchRx.frame x) → ∃ u, exec (.ridgeForward t b rx) s = .next u ∧ same u)
    ∧ (∀ bytes, ridgeLive a = true → r.sched = true → let f := parseFrame bytes
      (br.blocked ≠ none → ∃ u, exec (.ridgeForward t b (.frame bytes)) s = .next u ∧ silent u ∧ counted u
        ∧ u = { shown s u with now := t, ctr := u.ctr, net := { s.net with rdg := timed r u } })
      ∧ (∀ e sp close, br.blocked = none → openWindow a b.val t = some (e, sp, close) →
        ((f.node ≠ e.node ∨ f.round ≠ curRound a) → ∃ u, exec (.ridgeForward t b (.frame bytes)) s = .next u ∧ silent u ∧ counted u
          ∧ u = { shown s u with now := t, ctr := u.ctr, net := { s.net with rdg := timed { r with branches := setNth r.branches b.val { br with violNow := true, node := f.node } } u } })
        ∧ (f.node = e.node → f.round = curRound a → frameEnd t bytes ≤ close → ∃ u, exec (.ridgeForward t b (.frame bytes)) s = .next u
          ∧ (∀ p : Nat, p < 6 → p ≠ b.val → Out.frame p (t + 1024) bytes ∈ u.out)
          ∧ u = { shown s u with now := t, net := { s.net with tx := u.net.tx, rdg := timed r u } })
        ∧ (f.node = e.node → f.round = curRound a → close < frameEnd t bytes → ∃ u, exec (.ridgeForward t b (.frame bytes)) s = .next u
          ∧ (∀ p : Nat, p < 6 → p ≠ b.val → Out.frame p (t + 1024) (bytes.take (((close - t) / 8).toNat - 1)) ∈ u.out)
          ∧ u = { shown s u with now := t, net := { s.net with tx := u.net.tx, rdg := timed { r with branches := setNth r.branches b.val { br with fwd := some close, node := f.node } } u } }))
      ∧ (br.blocked = none → openWindow a b.val t = none → ∃ u, exec (.ridgeForward t b (.frame bytes)) s = .next u ∧ silent u ∧ (f.dyn = false → counted u)))
    ∧ (∀ i n c id, ridgeLive a = true → r.sched = true → br.blocked = none → openClaim a b.val t = some id →
      ∃ u, exec (.ridgeForward t b (.claim i n c)) s = .next u ∧ (∀ p : Nat, p < 6 → p ≠ b.val → Out.claim p (t + 1024) i.toNat n.toNat c.toNat ∈ u.out)
        ∧ u = { shown s u with now := t, net := { s.net with rdg := { r with claims := addClaim id (readClaim id (.claim i n c)) r.claims } } })
    ∧ (∀ rx, ridgeLive a = true → r.sched = true → (∀ x, rx ≠ BranchRx.frame x) → (br.blocked ≠ none ∨ openClaim a b.val t = none) →
      ∃ u, exec (.ridgeForward t b rx) s = .next u ∧ same u)
    ∧ ((ridgeLive a = true ∧ ∃ c, br.fwd = some c ∧ c ≤ t) → ∃ u, exec (.ridgeWindowClose t b) s = .next u ∧ counted u
      ∧ (b.val < r.branches.length → (branchOf u b.val).fwd = none ∧ (br.blocked = none → (branchOf u b.val).violNow = true))
      ∧ u = { shown s u with now := t, ctr := u.ctr, net := { s.net with rdg := { r with branches := u.net.rdg.branches } } })
    ∧ ((ridgeLive a = false ∨ ∀ c, br.fwd = some c → t < c) → ∃ u, exec (.ridgeWindowClose t b) s = .next u ∧ same u)
    ∧ (∀ k, br.blocked = some k → k ≤ curRound a → ∃ u, exec (.branchUnblock t b) s = .next u
      ∧ u = { shown s u with now := t, net := { s.net with rdg := { r with branches := setNth r.branches b.val { br with blocked := none, viol := 0, violNow := false } } } })
    ∧ ((∀ k, br.blocked = some k → curRound a < k) → ∃ u, exec (.branchUnblock t b) s = .next u ∧ same u)
    ∧ ((ridgeLive a = true ∧ r.sched = true ∧ ∀ k, r.mRound = some k → k + 8 < curRound a) → ∃ u, exec (.ridgeIdleTimeout t) s = .next u ∧ u.net.rdg.sched = false
      ∧ u = { shown s u with now := t, net := { s.net with rdg := { r with sched := false, claims := [], times := [], dNow := none, newMaster := none, idleFwd := none, sigma := 0 } } })
    ∧ ((ridgeLive a = false ∨ r.sched = false ∨ ∃ k, r.mRound = some k ∧ curRound a ≤ k + 8) → ∃ u, exec (.ridgeIdleTimeout t) s = .next u ∧ same u)

/-- The ring (R304 to R306). A frame with a wrong code, length, CRC or RING bit is a dead letter of its port; the node's own frame that comes in at RP2 is removed and counted; the
oldest queued frame leaves, or is dropped when it is older than the lag allows; a break moves what is queued for the port to the other, and is recorded; a return ends it. RPn_LOS breaks a ring port, and loses a frame in arrival at any port (R465,
R484).
The model's own choices that it rests on: log entries 63, 170. -/
def Obligations.RingPassesRemovesAndHeals : Prop :=
  ∀ (t : Int) (s : State),
    let a := atTime t s
    let r := s.net.ring
    let same := fun (u : State) => u = { shown s u with now := t }
    (∀ f : FrameRx, let b := atTime f.tEnd s
      let h := heardRx b f
      let g := parseFrame f.bytes
      ((rswLive b = false ∨ (f.port ≠ 2 ∧ f.port ≠ 3)) → ∃ u, exec (.ringFrameReceive f) s = .next u ∧ u = { shown s u with now := f.tEnd })
      ∧ (rswLive b = true → (f.port = 2 ∨ f.port = 3) → (h.codeOk = false ∨ lengthOk b g = false ∨ g.crcOk = false ∨ g.ring = false) →
        ∃ u, exec (.ringFrameReceive f) s = .next u ∧ u = { reported s u with now := f.tEnd, net := { s.net with dead := u.net.dead } }
          ∧ tget 0 (0x9E00 + 0x40 * f.port) u.ctr % 65536 = satAdd 16 (tget 0 (0x9E00 + 0x40 * f.port) s.ctr % 65536) 1)
      ∧ (rswLive b = true → f.port = 2 → h.codeOk = true → lengthOk b g = true → g.crcOk = true → g.ring = true → g.node = nodeId s →
        ∃ u, exec (.ringFrameReceive f) s = .next u ∧ u = { shown s u with now := f.tEnd, ctr := (bump 0xAC04 s).ctr })
      ∧ (rswLive b = true → (f.port = 2 ∨ f.port = 3) → h.codeOk = true → lengthOk b g = true → g.crcOk = true → g.ring = true → g.node ≠ nodeId s →
        r.rp2Broken = false → r.rp3Broken = false → ∃ u, exec (.ringFrameReceive f) s = .next u
          ∧ (f.port = 2 → ringFill (r.q3 ++ [f.bytes]) ≤ 131072 → u.net.ring = { r with q3 := r.q3 ++ [f.bytes] })
          ∧ (f.port = 3 → ringFill (r.q2 ++ [f.bytes]) ≤ 131072 → u.net.ring = { r with q2 := r.q2 ++ [f.bytes] })
          ∧ u.stg = s.stg ∧ u.clr = s.clr ∧ u.sin = s.sin ∧ u.hen = s.hen ∧ u.sld = s.sld ∧ u.regs = s.regs ∧ u.sec = s.sec ∧ u.pst = s.pst))
    ∧ (∀ dir, let to3 := dir == RingDir.towardRp3
      let q := if to3 then r.q3 else r.q2
      let broken := if to3 then r.rp3Broken else r.rp2Broken
      ((rswLive a = false ∨ broken = true ∨ q = []) → ∃ u, exec (.ringFrameSend t dir) s = .next u ∧ same u)
      ∧ (∀ b q', rswLive a = true → broken = false → q = b :: q' → ∃ u, exec (.ringFrameSend t dir) s = .next u
        ∧ u = { shown s u with now := t, ctr := u.ctr, net := { s.net with tx := u.net.tx, ring := if to3 then { r with q3 := q' } else { r with q2 := q' } } }
        ∧ (curRound a ≤ (parseFrame b).round + regF s 0x9020 11 8 → Out.frame (if to3 then 3 else 2) t b ∈ u.out)
        ∧ ((parseFrame b).round + regF s 0x9020 11 8 < curRound a → ∀ p t' x, Out.frame p t' x ∈ u.out → Out.frame p t' x ∈ s.out)))
    ∧ (∀ (rp3 : Bool) (i : Instr) w, (i = .ringPortBreak t rp3 ∧ w = s.net.los
          ∨ i = .rpLos t (if rp3 then 3 else 2) ∧ w = tput none (if rp3 then 3 else 2) (some t) s.net.los) →
      let broken := if rp3 then r.rp3Broken else r.rp2Broken
      ((rswLive a = false ∨ broken = true) → ∃ u, exec i s = .next u ∧ u = { shown s u with now := t, net := { s.net with los := w } })
      ∧ (rswLive a = true → broken = false → ∃ u, exec i s = .next u ∧ u = { reported s u with now := t, net := { s.net with ring := u.net.ring, los := w } }
        ∧ u.net.ring.rp3Broken = (r.rp3Broken || rp3) ∧ u.net.ring.rp2Broken = (r.rp2Broken || !rp3)
        ∧ (rp3 = true → r.rp2Broken = false → u.net.ring.q2 = r.q2 ++ r.q3 ∧ u.net.ring.q3 = [])
        ∧ (rp3 = false → r.rp3Broken = false → u.net.ring.q3 = r.q3 ++ r.q2 ∧ u.net.ring.q2 = [])
        ∧ (aonUp s = true → u.erc.inbox = s.erc.inbox ++ [{ code := evRingPort, src := 80, p0 := w32 (if rp3 then 3 else 2), p1 := 1, p2 := 0, solo := false }])))
    ∧ (∀ port : Fin 6, port.val ≠ 2 → port.val ≠ 3 → ∃ u, exec (.rpLos t port) s = .next u
      ∧ u = { shown s u with now := t, net := { s.net with los := tput none port.val (some t) s.net.los } })
    ∧ (∀ rp3 : Bool, let broken := if rp3 then r.rp3Broken else r.rp2Broken
      ((rswLive a = false ∨ broken = false) → ∃ u, exec (.ringPortReturn t rp3) s = .next u ∧ same u)
      ∧ (rswLive a = true → broken = true → ∃ u, exec (.ringPortReturn t rp3) s = .next u
        ∧ u = { reported s u with now := t, ctr := s.ctr, net := { s.net with ring := if rp3 then { r with rp3Broken := false } else { r with rp2Broken := false } } }))

/-- Polled mode on the round ports (R273 to R275). A polling master sends its next POLL while the reply window ends before the network idle time, and goes on 2 µs after a timeout; a
polled node answers a POLL with the requested type 2 µs after it; a frame that fails a check is a dead letter.
The model's own choices that it rests on: log entries 53, 150, 170. -/
def Obligations.PollsAndRepliesAlternate : Prop :=
  ∀ (t : Int) (l : Lane) (s : State),
    let a := atTime t s
    let x := s.net.rct.lane l
    let same := fun (u : State) => u = { shown s u with now := t }
    let with_ := fun (y : RctSt) (u : State) => u = { reported s u with now := t, net := { s.net with rct := s.net.rct.setLane l y, ring := u.net.ring, tx := u.net.tx } }
    ((pollEntries s 0)[x.pollIx]? = none → ∃ u, exec (.pollSend t l) s = .next u ∧ same u)
    ∧ (∀ w, (pollEntries s 0)[x.pollIx]? = some w →
      let wait := ((fld w 19 12 * 1000 : Nat) : Int)
      let may := pollLive a l = true ∧ pollMaster s = true ∧ x.poll = none ∧ x.pollAt ≤ t ∧ t + 248 + wait ≤ pollLimit a
      (may → ∃ u, exec (.pollSend t l) s = .next u
        ∧ Out.frame (chanPort s l) t (frameBytes a false l.num 7 false 0 (curRound a) (wordBytes (w32 (fld w 7 0 + 256 * fld w 23 20)))) ∈ u.out
        ∧ with_ { x with pollIx := x.pollIx + 1, poll := some { addr := fld w 7 0, req := fld w 23 20, wait := wait, tEnd := t + 248, seq := 0 } } u ∧ u.net.ring = s.net.ring)
      ∧ (¬ may → ∃ u, exec (.pollSend t l) s = .next u ∧ same u))
    ∧ (x.poll = none → ∃ u, exec (.pollReplyTimeout t l) s = .next u ∧ same u)
    ∧ (∀ p, x.poll = some p →
      (pollMaster s = true → p.tEnd + p.wait ≤ t → ∃ u, exec (.pollReplyTimeout t l) s = .next u ∧ with_ { x with poll := none, pollAt := t + 2000 } u ∧ u.net.ring = s.net.ring)
      ∧ ((pollMaster s = false ∨ t < p.tEnd + p.wait) → ∃ u, exec (.pollReplyTimeout t l) s = .next u ∧ same u))
    ∧ (x.reply = none → ∃ u, exec (.pollReplySend t l) s = .next u ∧ same u)
    ∧ (∀ req due, x.reply = some (req, due) →
      let y := { x with reply := none }
      let ms := sortBy (fun q => (q.block : Int)) ((x.queue.filter (fun q => decide (q.at_ + 10000 ≤ t))).take 3)
      ((pollLive a l = false ∨ due ≠ t ∨ (req ≠ 1 ∧ req ≠ 2)) → ∃ u, exec (.pollReplySend t l) s = .next u ∧ with_ y u ∧ u.net.ring = s.net.ring)
      ∧ (pollLive a l = true → due = t → req = 1 → let rs := oldest x (t - 10000) 63
        ∃ u, exec (.pollReplySend t l) s = .next u
          ∧ Out.frame (chanPort s l) t (frameBytes a false l.num 2 false 0 (curRound a) (lettersPayload x rs)) ∈ u.out
          ∧ with_ { y with stream := { x.stream with recs := x.stream.recs.drop rs.length } } u)
      ∧ (pollLive a l = true → due = t → req = 2 → ∃ u, exec (.pollReplySend t l) s = .next u
          ∧ (if ms = [] then Out.frame (chanPort s l) t (frameBytes a false l.num 5 false 0 (curRound a) []) ∈ u.out
            else Out.frame (chanPort s l) t (frameBytes a false l.num 1 false 0 (curRound a) (wordsBytes (ms.flatMap (·.words)))) ∈ u.out)
          ∧ with_ { y with queue := x.queue.filter (fun q => !ms.contains q) } u))
    ∧ (∀ f : FrameRx, let b := atTime f.tEnd s
      let g := parseFrame f.bytes
      (portLane s f.port = none → ∃ u, exec (.pollReceive f) s = .next u ∧ u = { shown s u with now := f.tEnd })
      ∧ (portLane s f.port = some l → (pollLive b l = false ∨ pollMaster s = true) → ∃ u, exec (.pollReceive f) s = .next u ∧ u = { shown s u with now := f.tEnd })
      ∧ (∀ i, (i = Instr.pollReceive f ∧ pollMaster s = false ∨ i = .frameReceive f true) → portLane s f.port = some l → pollLive b l = true →
        (pollCause b l (heardRx b f) g ≠ 0 → ∃ u, exec i s = .next u ∧ u = { reported s u with now := f.tEnd, net := { s.net with dead := u.net.dead } })
        ∧ (pollCause b l (heardRx b f) g = 0 → g.type = 7 → ∃ u, exec i s = .next u
          ∧ u = { shown s u with now := f.tEnd, net := { s.net with rct := s.net.rct.setLane l (u.net.rct.lane l) } } ∧ (u.net.rct.lane l).heard = true
          ∧ (fld (g.word 0) 7 0 = nodeId s → (u.net.rct.lane l).reply = some (fld (g.word 0) 11 8, f.tEnd + 2000)))))

/-- The legacy round port (R276 to R278). RCT_LBUS is taken for a poll cycle as it begins. As MASTER a walk starts no sooner than CYCLE after the last, its polls follow one another,
a reply or its timeout ends a poll and lets the next leave 20 µs after, a failing reply is a dead letter; a valid reply takes the OB1160 into service with its counts. As SLAVE a
good poll to one of its addresses is answered 20 µs after it. A frame begins at a character whose address bit is 1, and LR_DE is high from 1 bit time before it to 1 after it.
The model's own choices that it rests on: log entries 65, 151, 158. -/
def Obligations.LegacyBusWalksAndAnswers : Prop :=
  ∀ (t : Int) (s : State),
    let b := s.net.bus
    let n := (pollEntries s 1).length
    let same := fun (u : State) => u = { shown s u with now := t }
    let cycle := if b.running = true ∨ b.reply ≠ none then b else { b with mode := regF s 0x9028 1 0, shown := slaves s }
    let lives := fun (y : LBusSt) (m : Nat) => active s .field = true ∧ s.net.ridge = false ∧ s.bsc.power ≠ .safehalt ∧ s.sec.lifecycle ≠ 5 ∧ y.mode = m
    let cyc := ((regF s 0x9028 25 16 * 1000000 : Nat) : Int)
    let may := lives cycle 1 ∧ b.running = false ∧ (∀ w, b.walkAt = some w → w + cyc ≤ t) ∧ pollEntries s 1 ≠ []
    (may → ∃ u, exec (.legacyWalkStart t) s = .next u ∧ u = { shown s u with now := t, net := { s.net with bus := { cycle with walkAt := some t, running := true, ix := 0, nextAt := t, out := none } } })
    ∧ (¬ may → ∃ u, exec (.legacyWalkStart t) s = .next u ∧ u = { shown s u with now := t, net := { s.net with bus := cycle } })
    ∧ (∀ w, (pollEntries s 1)[b.ix]? = some w → let go := lives b 1 ∧ b.running = true ∧ b.out = none ∧ b.nextAt ≤ t
      (go → ∃ u seq, exec (.legacyPollSend t) s = .next u
        ∧ (let q : Byte := BitVec.ofNat 8 seq
          Out.chars t (t - 500) (t + 28000) (busChars (BitVec.ofNat 8 (fld w 7 0) :: 0x31 :: q :: busCrc [0x31, q])) ∈ u.out)
        ∧ u = { shown s u with now := t, free := s.free + 1, net := { s.net with bus := { b with ix := b.ix + 1, out := some { addr := fld w 7 0, req := fld w 23 20, wait := ((fld w 19 12 * 10000 : Nat) : Int), tEnd := t + 27500, seq := seq } } } })
      ∧ (¬ go → ∃ u, exec (.legacyPollSend t) s = .next u ∧ same u))
    ∧ ((pollEntries s 1)[b.ix]? = none → ∃ u, exec (.legacyPollSend t) s = .next u ∧ same u)
    ∧ (b.out = none → ∃ u, exec (.legacyReplyTimeout t) s = .next u ∧ same u)
    ∧ (∀ p, b.out = some p →
      (lives b 1 → p.tEnd + p.wait ≤ t → ∃ u, exec (.legacyReplyTimeout t) s = .next u
        ∧ u = { reported s u with now := t, net := { s.net with dead := u.net.dead, bus := { b with out := none, nextAt := t + 20000, running := decide (b.ix < n) } } })
      ∧ ((¬ lives b 1 ∨ t < p.tEnd + p.wait) → ∃ u, exec (.legacyReplyTimeout t) s = .next u ∧ same u))
    ∧ (∀ cs : List CharRx, let e := charsNow cs
      ((busRx cs = none ∨ ¬ lives b 1) → ∃ u, exec (.legacyReplyReceive cs) s = .next u ∧ u = { shown s u with now := e })
      ∧ (∀ r, busRx cs = some r → lives b 1 →
        (b.out = none → ∃ u, exec (.legacyReplyReceive cs) s = .next u ∧ u = { reported s u with now := e, net := { s.net with dead := u.net.dead } })
        ∧ (∀ p, b.out = some p → replyCause p r ≠ 0 → ∃ u, exec (.legacyReplyReceive cs) s = .next u
          ∧ u = { reported s u with now := e, net := { s.net with dead := u.net.dead, bus := { b with out := none, nextAt := r.fin + 20000, running := decide (b.ix < n) } } })
        ∧ (∀ p, b.out = some p → replyCause p r = 0 → ∃ u, exec (.legacyReplyReceive cs) s = .next u
          ∧ u.net.bus = { b with out := none, nextAt := r.fin + 20000, running := decide (b.ix < n), nodes := tput none p.addr (some { service := true, pos := (nth 0 r.chars 8).toNat, neg := (nth 0 r.chars 9).toNat, tPrev := some r.t, wmPrev := r.t - 150000 }) b.nodes }
          ∧ u = { reported s u with now := e, ctr := s.ctr, rctq := u.rctq, net := { s.net with bus := u.net.bus, rct := u.net.rct } }
          ∧ tget none (markKey p.addr 8191) u.net.rct.a.marks = some (r.t - 150000) ∧ tget none (markKey p.addr 8191) u.net.rct.b.marks = some (r.t - 150000))))
    ∧ (∀ cs : List CharRx, let e := charsNow cs
      let ok := fun (r : BusRx) => lives cycle 2 ∧ r.stopsOk = true ∧ r.chars.length = 5 ∧ (nth 0 r.chars 1).toNat = 0x31
        ∧ busCrc ((r.chars.drop 1).take 2) = r.chars.drop 3 ∧ ∃ h, ((nth 0 r.chars 0).toNat, h) ∈ cycle.shown
      (∀ r, busRx cs = some r → ok r → ∃ u, exec (.legacyPollReceive cs) s = .next u
        ∧ u = { shown s u with now := e, net := { s.net with bus := { cycle with reply := some ((nth 0 r.chars 0).toNat, (nth 0 r.chars 2).toNat, r.fin + 20000) } } })
      ∧ ((∀ r, busRx cs = some r → ¬ ok r) → ∃ u, exec (.legacyPollReceive cs) s = .next u ∧ u = { shown s u with now := e, net := { s.net with bus := cycle } }))
    ∧ (b.reply = none → ∃ u, exec (.legacyReplySend t) s = .next u ∧ same u)
    ∧ (∀ ad seq due, b.reply = some (ad, seq, due) →
      let go := lives b 2 ∧ due - 1000 ≤ t ∧ t ≤ due + 1000 ∧ ∃ h, (ad, h) ∈ b.shown
      (go → ∃ u c, exec (.legacyReplySend t) s = .next u
        ∧ Out.chars t (t - 500) (t + 138000) (busChars (0 :: 21 :: 0xB1 :: BitVec.ofNat 8 ad :: BitVec.ofNat 8 seq :: c)) ∈ u.out ∧ c.length = 20
        ∧ u = { shown s u with now := t, free := u.free, net := { s.net with bus := { b with reply := none, replied := if b.replied.contains ad then b.replied else ad :: b.replied } } })
      ∧ (¬ go → ∃ u, exec (.legacyReplySend t) s = .next u ∧ u = { shown s u with now := t, net := { s.net with bus := { b with reply := none } } }))

/-! ## Security, debug, the test port -/

/-- Debug sessions (R394 to R397). A challenge of 64 bytes with this part's UID is written and kept with its instant, unless a lockout stands, AON is lost, or the entropy source
fails. Every response consumes it; one that a check refuses completes with that check's status, is recorded, and the third in a row at check 5 locks for 600 s. One that
passes grants its level: D1 at once, D2 at once in SAFEHALT or on a retired lane, else when the target has retired. DEBUG_CLOSE, 3 600 s without the TAP, and the lockout's
end return to D0 and to no lockout.
The model's own choices that it rests on: log entries 83, 84, 85. -/
def Obligations.DebugNeedsAChallengeAnswered : Prop :=
  (∀ (c : HostCmd) (s : State), Passes 0x60 c s →
    (aonUp s = true → (∀ a, s.sec.lockUntil = some a → a ≤ c.t) → ∃ u, exec (.debugChallenge c) s = .next u ∧
      ((Completed 0x60 c stRefusedState 0 0 s u ∧ u = { commanded s u with now := c.t, sec := s.sec, pst := s.pst, free := s.free + 1 }
          ∧ ({ code := evEntropyFail, src := 4, p0 := 0, p1 := 0, p2 := 0, solo := false } : EvIn) ∈ u.erc.inbox)
        ∨ ∃ b, Completed 0x60 c stApplied 64 0 s u ∧ .hostWrite (argBuf c) b ∈ u.out ∧ b.length = 64 ∧ b.take 8 = natBytes 8 Config.uid.toNat
            ∧ u = { commanded s u with now := c.t, pst := s.pst, free := s.free + 33, erc := s.erc, sec := { s.sec with challenge := some (b, c.t), challenges := s.sec.challenges + 1 } }))
    ∧ (aonUp s = true → (∃ a, s.sec.lockUntil = some a ∧ c.t < a) → ∃ u, exec (.debugChallenge c) s = .next u ∧ Completed 0x60 c stRefusedState 0 0 s u
      ∧ u = { commanded s u with now := c.t, sec := s.sec, pst := s.pst, erc := s.erc })
    ∧ (aonUp s = false → ∃ u, exec (.debugChallenge c) s = .next u ∧ Completed 0x60 c stRefusedAon 0 0 s u
      ∧ u = { commanded s u with now := c.t, sec := s.sec, pst := s.pst, erc := s.erc }))
  ∧ (∀ (c : HostCmd) (b : List Byte) (s : State), Passes 0x61 c s → c.buf = some b →
    let level := fld c.a0 1 0
    let l := if bitOf c.a0 8 then Lane.y else Lane.x
    let ok := decide (b.take 16 = debugAnswer s ((s.sec.challenge.map (·.1)).getD []) level l) && (slotOf s.sec 0).status = 1
    let chk := responseCheck (atTime c.t s) c level l ok
    let passed := { s.sec with challenge := none, fails := 0 }
    (∀ k st, chk = some (k, st) → ∃ u, exec (.debugResponse c) s = .next u ∧ Completed 0x61 c st 0 0 s u
      ∧ (aonUp s = true → ({ code := evDebugRefused, src := 4, p0 := w32 level, p1 := w32 k, p2 := 0, solo := false } : EvIn) ∈ u.erc.inbox)
      ∧ u = { commanded s u with now := c.t, pst := s.pst, sec := { s.sec with challenge := none, fails := (if k = 5 ∧ s.sec.fails < 2 then s.sec.fails + 1 else 0), lockUntil := (if k = 5 ∧ 2 ≤ s.sec.fails then some (c.t + 600000000000) else s.sec.lockUntil) } })
    ∧ (chk = none → level ≤ s.sec.level → ∃ u, exec (.debugResponse c) s = .next u ∧ Completed 0x61 c stApplied (w32 level) 0 s u
      ∧ u = { commanded s u with now := c.t, pst := s.pst, sec := passed })
    ∧ (chk = none → s.sec.level < level → level = 1 → ∃ u, exec (.debugResponse c) s = .next u ∧ Completed 0x61 c stApplied 1 0 s u
      ∧ u = { commanded s u with now := c.t, pst := s.pst, sec := { passed with level := 1, tapAt := c.t } })
    ∧ (chk = none → s.sec.level < level → level = 2 → (s.bsc.power = .safehalt ∨ s.lcm.cond.lane l = .retired) →
      ∃ u, exec (.debugResponse c) s = .next u ∧ Completed 0x61 c stApplied 2 0 s u
        ∧ u = { commanded s u with now := c.t, pst := s.pst, net := (setKeys l [] s).net, sec := { passed with level := 2, target := l, tapAt := c.t } })
    ∧ (chk = none → s.sec.level < level → level = 2 → s.bsc.power ≠ .safehalt → s.lcm.cond.lane l = .serving →
      ∃ u, exec (.debugResponse c) s = .next u ∧ Accepted 0x61 c s u ∧ u.sec = { passed with d2 := some (s.hre.nextId + 1, l), tapAt := c.t }
        ∧ u.lcm.cond.lane l = .failSilent ∧ u.lcm.cond.lane l.other = s.lcm.cond.lane l.other))
  ∧ (∀ (c : HostCmd) (s : State), Passes 0x62 c s → aonUp s = true → ∃ u, exec (.debugClose c) s = .next u
    ∧ u = { commanded s u with now := c.t, pst := s.pst, sec := { s.sec with level := 0, d2 := none } }
    ∧ (s.sec.d2 = none → Completed 0x62 c stApplied 0 0 s u))
  ∧ (∀ (t : Int) (s : State),
    let idle := (s.sec.level = 1 ∨ s.sec.level = 2) ∧ 3600000000000 ≤ t - s.sec.tapAt
    (idle → ∃ u, exec (.debugSessionTimeout t) s = .next u ∧ u = { commanded s u with now := t, pst := s.pst, sec := { s.sec with level := 0, d2 := none } })
    ∧ (¬ idle → ∃ u, exec (.debugSessionTimeout t) s = .next u ∧ u = { shown s u with now := t })
    ∧ (∀ a, s.sec.lockUntil = some a → ∃ u, exec (.debugLockoutEnd t) s = .next u
      ∧ u = { shown s u with now := t, sec := { s.sec with lockUntil := if a ≤ t then none else some a } })
    ∧ (s.sec.lockUntil = none → ∃ u, exec (.debugLockoutEnd t) s = .next u ∧ u = { shown s u with now := t }))

/-- LIFECYCLE_SET and ATTEST (R382, R390, R395, R400). A transition that the lifecycle allows ends a session, is recorded, and completes with the new state; entering
FIELD_DEBUG is counted; decommissioning is programmed and goes on; any other is refused with no effect. The report stands in the buffer with its header, UID and signature,
and nothing else changes.
The model's own choices that it rests on: log entries 86, 87. -/
def Obligations.LifecycleMovesOnlyWherePermitted : Prop :=
  (∀ (c : HostCmd) (s : State), Passes 0x63 c s →
    let new := fld c.a0 2 0
    let x := { s.sec with lifecycle := new, level := 0, d2 := none }
    let said := ({ code := evLifecycle, src := 4, p0 := w32 s.sec.lifecycle, p1 := w32 new, p2 := 0, solo := false } : EvIn)
    (lifecycleOk s new = true → new ≠ 5 → ∃ u a, exec (.lifecycleSet c) s = .next u
      ∧ .hostWrite a (wordsBytes (cplWords (atTime c.t s) (outOf c 0x63 0) stApplied (w32 new) 0 false false)) ∈ u.out
      ∧ (aonUp s = true → said ∈ u.erc.inbox)
      ∧ u.sec = { x with cLast := u.sec.cLast, txGen := (if new = 2 then regF s 0x9018 1 0 else s.sec.txGen), rxMask := (if new = 2 then regF s 0x9018 7 4 else s.sec.rxMask), fdCount := (if new = 4 then s.sec.fdCount + 1 else s.sec.fdCount) }
      ∧ u = { commanded s u with now := c.t, sec := u.sec })
    ∧ (lifecycleOk s new = true → new = 5 → ∃ u, exec (.lifecycleSet c) s = .next u ∧ u.sec = { x with cLast := u.sec.cLast, decom := some (s.hre.nextId + 1) }
      ∧ outOf c 0x63 (s.hre.nextId + 1) ∈ u.hre.out ∧ (aonUp s = true → said ∈ u.erc.inbox) ∧ u = { commanded s u with now := c.t, sec := u.sec })
    ∧ (lifecycleOk s new = false → ∃ u, exec (.lifecycleSet c) s = .next u ∧ Completed 0x63 c stRefusedState 0 0 s u ∧ u = { commanded s u with now := c.t }))
  ∧ (∀ (c : HostCmd) (s : State), Passes 0x64 c s →
    (aonUp s = true → ∃ u body, exec (.attest c) s = .next u ∧ Completed 0x64 c stApplied 160 0 s u
      ∧ .hostWrite (argBuf c) (body ++ ecdsaSign identityKey (sha256 body)) ∈ u.out
      ∧ body.take 16 = natBytes 4 0x00014154 ++ natBytes 8 Config.uid.toNat ++ wordBytes c.a0
      ∧ u = { commanded s u with now := c.t, sec := s.sec, pst := s.pst, erc := s.erc, free := u.free })
    ∧ (aonUp s = false → ∃ u, exec (.attest c) s = .next u ∧ Completed 0x64 c stRefusedAon 0 0 s u
      ∧ u = { commanded s u with now := c.t, sec := s.sec, pst := s.pst, erc := s.erc }))

/-- KEY_LOAD and the level of the TAP's instructions (R385, R392, R393). An instruction above the debug level behaves as BYPASS and is counted, and has no other effect; with
AON lost none answers. A key goes to an empty slot at D3 and stands there LOADED, or leaves it DAMAGED when its read-back differs; a slot that is not empty stays as it is.
The TAP's instructions at their level (R392, R393, R396, R435): IDCODE shifts out the part's code, BYPASS one 0, SAMPLE the balls, DBG_READ what it read, without a read's
effects; DBG_LANE halts and resumes the target; a drive or scan instruction ends in SAFEHALT with no lane serving; Test-Logic-Reset drives no ball and keeps the level.
The model's own choices that it rests on: log entries 12, 89, 107. -/
def Obligations.TapObeysTheDebugLevel : Prop :=
  ((∀ (t : Int) (s : State) (i : Instr) (lv : Nat), (i, lv) ∈ [(Instr.idcode t, 0), (.bypass t, 0), (.extest t, 3), (.intest t, 3), (.clamp t, 3), (.highz t, 3), (.scan t, 3)]
         ∨ (∃ b, i = .samplePreload t b ∧ lv = 1) ∨ (∃ w, i = .dbgRead t w ∧ lv = 1) ∨ (∃ o, i = .dbgLane t o ∧ lv = 2)
         ∨ (∃ j k e, i = .keyLoad t j k e ∧ lv = 3) →
       (aonUp s = true → s.sec.level < lv → ∃ u, exec i s = .next u ∧ .tdo [0] ∈ u.out
         ∧ u = { shown s u with now := t, ctr := (bump 0x11C28 s).ctr, sec := { s.sec with tapAt := t, drive := 0 } })
       ∧ (aonUp s = false → ∃ u, exec i s = .next u ∧ u = { shown s u with now := t }))
     ∧ (∀ (t : Int) (j : Fin 5) (k : BitVec 128) (s : State), aonUp s = true → 3 ≤ s.sec.level →
       ((slotOf s.sec j).status = 0 → ∃ u, exec (.keyLoad t j k true) s = .next u
         ∧ u = { shown s u with now := t, sec := { s.sec with tapAt := t, drive := 0, slots := setNth s.sec.slots j { status := 1, key := k } }, erc := { s.erc with inbox := s.erc.inbox ++ [{ code := evKeyLoad, src := 4, p0 := w32 j, p1 := 0, p2 := keyCheck k, solo := false }] } })
       ∧ ((slotOf s.sec j).status = 0 → ∃ u, exec (.keyLoad t j k false) s = .next u
         ∧ (∃ v, u.erc = { s.erc with inbox := s.erc.inbox ++ [{ code := evKeyLoad, src := 4, p0 := w32 j, p1 := 1, p2 := v, solo := false }] })
         ∧ ∃ x, x.status = 2 ∧ u = { shown s u with now := t, sec := { s.sec with tapAt := t, drive := 0, slots := setNth s.sec.slots j x }, erc := u.erc, free := s.free + 1 })
       ∧ (∀ same, (slotOf s.sec j).status ≠ 0 → ∃ u, exec (.keyLoad t j k same) s = .next u
         ∧ u = { shown s u with now := t, sec := { s.sec with tapAt := t, drive := 0 } })))
  ∧ (∀ (t : Int) (s : State), aonUp s = true →
         let x := { s.sec with tapAt := t, drive := 0 }
         (∃ u, exec (.idcode t) s = .next u ∧ .tdo (wordBytes (w32 Config.idcode)) ∈ u.out ∧ u = { shown s u with now := t, sec := x, rdata := [w32 Config.idcode] })
         ∧ (∃ u, exec (.bypass t) s = .next u ∧ .tdo [0] ∈ u.out ∧ u = { shown s u with now := t, sec := x })
         ∧ (∀ b, 1 ≤ s.sec.level → ∃ u, exec (.samplePreload t b) s = .next u ∧ .tdo (packBits b.length b) ∈ u.out
           ∧ u = { shown s u with now := t, sec := { x with preload := if s.sec.level = 3 then b else s.sec.preload } })
         ∧ (∀ w, 1 ≤ s.sec.level → ∃ u, exec (.dbgRead t w) s = .next u ∧ .tdo (wordsBytes u.rdata) ∈ u.out
           ∧ (∀ n, w = .nvm n → u.rdata = [nvmRead s.pst n]) ∧ u = { shown s u with now := t, sec := x, rdata := u.rdata, free := u.free })
         ∧ (2 ≤ s.sec.level → (∃ u, exec (.dbgLane t .halt) s = .next u ∧ u = { shown s u with now := t, sec := { x with halted := true, steps := 0 } })
           ∧ (∃ u, exec (.dbgLane t .resume) s = .next u ∧ u = { shown s u with now := t, sec := { x with halted := false, steps := 0 } })
           ∧ (∃ u, exec (.dbgLane t .step) s = .next u
             ∧ u = { shown s u with now := t, sec := { x with steps := if s.sec.halted then s.sec.steps + 1 else s.sec.steps } })
           ∧ (∀ k ws, ∃ u, exec (.dbgLane t (.writeSlate k ws)) s = .next u ∧ u = { shown s u with now := t, sec := { x with written := tput [] k ws s.sec.written } })
           ∧ (∀ k, ∃ u, exec (.dbgLane t (.inject k)) s = .next u ∧ u = { shown s u with now := t, sec := { x with injected := s.sec.injected ++ [k] } })
           ∧ (∀ n v y, tget none n (s.sld.lane s.sec.target).sects = some y → ∃ u, exec (.dbgLane t (.writeCount n v)) s = .next u
             ∧ tget none n (u.sld.lane s.sec.target).sects = some { y with count := sat16 v } ∧ u = { shown s u with now := t, sec := x, sld := u.sld }))
         ∧ (3 ≤ s.sec.level → ∀ i k, (i, k) ∈ [(Instr.extest t, 1), (.intest t, 2), (.clamp t, 3), (.highz t, 4), (.scan t, 5)] →
           ∃ u, exec i s = .next u ∧ u.sec.drive = k ∧ u.sec.slots = s.sec.slots ∧ u.pst.words = s.pst.words
             ∧ (s.bsc.power ≠ .standby → s.bsc.power ≠ .off → u.bsc.power = .safehalt ∧ u.bsc.halt = .drive ∧ ∀ l, u.lcm.cond.lane l ≠ .serving))
         ∧ (∃ u, exec (.trstNReset t) s = .next u ∧ u = { shown s u with now := t, sec := { s.sec with drive := 0, preload := [] } }))

/-! ## Power, start and domains -/

/-- POWER_REQUEST (R365, R380): STANDBY is completed at once and then turns every domain but AON off, with entry due 1 ms on; LEAN and its release set and clear the
REQUEST cause, with the power state that follows in RESULT0; a request that the power state does not allow is refused with REFUSED_STATE and no effect.
The bands (R360, R370, R371). A pending pace request that may be granted raises its port's domain by one band and ends; else it stays. A change that settles leaves
no old band. After every budget period of a running device no ACTIVE domain other than AON stands below its floor.
The model's own choices that it rests on: log entries 90, 91, 92. -/
def Obligations.PowerRequestsAndBandsKeepFloors : Prop :=
  (∀ (c : HostCmd) (s : State), Passes 0x68 c s →
       let v := fld c.a0 2 0
       let none_ := fun (st : Nat) => ∃ u, exec (.powerRequest c) s = .next u ∧ Completed 0x68 c st 0 0 s u ∧ u = { commanded s u with now := c.t }
       let goes := fun (on : Bool) (b : BscSt) => ∃ u, exec (.powerRequest c) s = .next u ∧ Completed 0x68 c stApplied (w32 u.bsc.power.code) 0 s u
         ∧ u.bsc.leanRequest = on
         ∧ u.bsc.power = (if s.bsc.power = .holdover then .holdover else if leanCause b then .lean else .service)
         ∧ (∀ d, (u.dom.get d).st = (s.dom.get d).st)
         ∧ u = { commanded s u with now := c.t, dom := u.dom, bsc := { s.bsc with leanRequest := on, power := u.bsc.power } }
       (v = 1 → mayStandby s = true → ∃ u a, exec (.powerRequest c) s = .next u ∧ u.bsc.standbyAt = some (c.t + 1000000) ∧ u.bsc.power = s.bsc.power
         ∧ .hostWrite a (wordsBytes (cplWords (atTime c.t s) (outOf c 0x68 0) stApplied 1 0 false false)) ∈ u.out
         ∧ (∀ d, d ≠ .aon → (u.dom.get d).st = .off) ∧ u.dom.aon = s.dom.aon ∧ u.bsc.jobs = [] ∧ u.sec.slots = s.sec.slots)
       ∧ (v = 1 → mayStandby s = false → none_ stRefusedState)
       ∧ (v = 3 → (s.bsc.power = .lean ∨ s.bsc.power = .holdover) → goes false { s.bsc with leanRequest := false })
       ∧ (v = 3 → s.bsc.power ≠ .lean → s.bsc.power ≠ .holdover → none_ stRefusedState)
       ∧ (v = 4 → (s.bsc.power = .service ∨ s.bsc.power = .holdover ∨ s.bsc.power = .lean ∧ s.bsc.leanRequest = false) →
         goes true { s.bsc with leanRequest := true })
       ∧ (v = 4 → s.bsc.power ≠ .service → s.bsc.power ≠ .holdover → (s.bsc.power ≠ .lean ∨ s.bsc.leanRequest = true) → none_ stRefusedState))
  ∧ ((∀ (t : Int) (p : Port) (m : BudgetMeas) (s : State),
         let due := s.bsc.pace.port p = true ∧ aonUp s = true
         (due → grantable s m p = true → ∃ u, exec (.paceRequest t p m) s = .next u ∧ (u.dom.get p.dom).band = (s.dom.get p.dom).band + 1
           ∧ (u.dom.get p.dom).settle = some (s.dom.get p.dom).band ∧ (u.dom.get p.dom).st = .active ∧ (∀ d, d ≠ p.dom → u.dom.get d = s.dom.get d)
           ∧ u = { reported s u with now := t, dom := u.dom, erc := s.erc, bsc := { s.bsc with pace := s.bsc.pace.setPort p false } })
         ∧ (due → grantable s m p = false → ∃ u, exec (.paceRequest t p m) s = .next u
           ∧ u = { reported s u with now := t, erc := s.erc, dom := s.dom.put p.dom { s.dom.get p.dom with busy := true } })
         ∧ (¬ due → ∃ u, exec (.paceRequest t p m) s = .next u ∧ u = { shown s u with now := t }))
       ∧ (∀ (t : Int) (d : Dom) (s : State), ∃ u, exec (.bandChangeSettled t d) s = .next u
         ∧ u = { shown s u with now := t, dom := s.dom.put d { s.dom.get d with settle := none } })
       ∧ (∀ (t : Int) (m : BudgetMeas) (s : State),
         (aonUp s = true → s.bsc.power ≠ .off → s.bsc.power ≠ .standby → ∃ u, exec (.budgetPeriod t m) s = .next u ∧ u.bsc.iAvg = m.iAvg ∧ u.bsc.tj = m.tj
           ∧ ∀ d, d ≠ .aon → active u d = true → (u.dom.get d).floor ≤ (u.dom.get d).band)
         ∧ (aonUp s = false → ∃ u, exec (.budgetPeriod t m) s = .next u ∧ u = { shown s u with now := t })
         ∧ (aonUp s = true → s.bsc.power = .off → ∃ u, exec (.budgetPeriod t m) s = .next u
           ∧ u = { shown s u with now := t, bsc := { s.bsc with iAvg := m.iAvg, tj := m.tj } })))

/-- The supply (R359, R378, R381). VIN out of its range is recorded and nothing else. A power failure runs the sequence: the device is OFF, every other domain off, the
level D0, the keys and the lifecycle stand, queued writes are gone; with step 5 not done no snapshot stands. Below 2.20 V AON is off too.
The model's own choices that it rests on: log entries 98, 99. -/
def Obligations.PowerFailureTurnsTheDeviceOff : Prop :=
  (∀ (t : Int) (mv : Nat) (s : State),
    let said := fun (i : Instr) (code : Nat) => ∃ u, exec i s = .next u ∧ u = { shown s u with now := t, erc := { s.erc with inbox := s.erc.inbox ++ (if aonUp s then [{ code := code, src := 0, p0 := w32 mv, p1 := 0, p2 := 0, solo := false }] else []) } }
    said (.vinLow t mv) evVinLow ∧ said (.vinHigh t mv) evVinHigh)
  ∧ (∀ (t : Int) (n : Nat) (s : State),
    let down := fun (u : State) => u.bsc.power = .off ∧ u.bsc.standbyAt = none ∧ (∀ d, d ≠ .aon → (u.dom.get d).st = .off) ∧ u.pst.wq = []
      ∧ u.pst.commits = [] ∧ u.pending = s.pending ∧ u.sec = { s.sec with level := 0 }
    (s.bsc.aon = .released → ∃ u, exec (.powerFail t n) s = .next u ∧ down u ∧ u.bsc.aon = .failWait
      ∧ (n < 5 → snapTaken s = false → nvmWf s.pst = true → rising s.pst.bad = true → nvmWord? u.pst markWord = some 0))
    ∧ (s.bsc.aon ≠ .released → ∃ u, exec (.powerFail t n) s = .next u ∧ u = { shown s u with now := t })
    ∧ (∃ u, exec (.aonLoss t) s = .next u ∧ u.bsc.aon = .off ∧ u.bsc.power = .off ∧ (u.dom.get .aon).st = .off
      ∧ (s.bsc.aon = .released → down u) ∧ (s.bsc.aon ≠ .released → u.sec = s.sec ∧ u.pst = s.pst)))

/-- AON starts (R435, R437, R438, R440). VIN_RETURN with AON off, RESET_N_RELEASE from the reset that RESET_N holds: a power-up; POWER_UP is recorded, the NVM's words, keys
and lifecycle stand, one more cycle is counted, and the device wakes to START, HOST and both lanes in RAMP, unless it waits to cool after a thermal trip. WAKE_N wakes a
STANDBY in the same way and is ignored in any other state. RESET_N low runs the sequence and holds AON in reset.
STANDBY_ENTRY and AON_TRIP (R361, R365, R395, R398). Once its millisecond is over the device is in STANDBY, and a D1 or D2 session has ended; before, nothing
happens. A trip of AON ends a session, loses what waited in AON but a seed save, makes AON a LEAN cause, and keeps lifecycle and keys.
The model's own choices that it rests on: log entries 92, 93, 97, 98. -/
def Obligations.PowerUpAndTripsRestartState : Prop :=
  ((∀ (t tj : Int) (s : State) (i : Instr),
       (i = .vinReturn t tj ∧ (s.bsc.aon = .off ∨ s.bsc.aon = .failWait) ∧ s.bsc.rstLow = false ∨ i = .resetNRelease t tj ∧ s.bsc.aon = .resetLow) →
       ∃ u, exec i s = .next u ∧ u.bsc.aon = .released ∧ u.pending = s.pending
         ∧ (u.bsc.power = .start ∧ (u.dom.get .host).st = .ramp ∧ (u.dom.get .lanex).st = .ramp ∧ (u.dom.get .laney).st = .ramp ∧ u.bsc.bringup = 1
           ∨ u.bsc.power = .standby ∧ u.bsc.wakeWait = true)
         ∧ (coolEnough u tj = true → u.bsc.power = .start)
         ∧ (u.dom.get .aon).st = .active ∧ (u.dom.get .port0).st = .off ∧ (u.dom.get .port1).st = .off ∧ (u.dom.get .ring).st = .off
         ∧ (u.dom.get .field).st = .off ∧ u.sec.lifecycle = s.sec.lifecycle ∧ u.hre.busMaster = false
         ∧ (s.sec.decom = none → u.sec.slots = s.sec.slots ∧ (∀ k, k ≠ 1599 → nvmWord u.pst k = nvmWord s.pst k) ∧ u.pst.cycles = satAdd 32 (nvmWord s.pst 1599).toNat 1)
         ∧ ({ code := evPowerUp, src := 0, p0 := w32 (b2n s.pst.cleanDown), p1 := w32 s.pst.lostDown, p2 := 0, solo := false } : EvIn) ∈ u.erc.inbox)
     ∧ (∀ (t tj : Int) (s : State),
       (s.bsc.aon = .resetLow → ∃ u, exec (.vinReturn t tj) s = .next u ∧ u = { shown s u with now := t })
       ∧ (s.bsc.power = .standby → aonUp s = true → ∃ u, exec (.wakeN t tj) s = .next u
         ∧ (u.bsc.power = .start ∧ u.lcm = LcmSt.reset ∧ (u.dom.get .host).st = .ramp ∧ (u.dom.get .lanex).st = .ramp ∧ (u.dom.get .laney).st = .ramp
             ∧ u.bsc.bringup = 1 ∧ u.bsc.halt = .none
           ∨ u.bsc.power = .standby ∧ s.bsc.halt = .thermal ∧ coolEnough s tj = false ∧ u.bsc.wakeWait = true)
         ∧ u.sec = s.sec ∧ u.pst = s.pst ∧ u.regs = s.regs)
       ∧ ((s.bsc.power ≠ .standby ∨ aonUp s = false) → ∃ u, exec (.wakeN t tj) s = .next u ∧ u = { shown s u with now := t })
       ∧ (s.bsc.aon = .released → ∃ u, exec (.resetNAssert t) s = .next u ∧ u.bsc.aon = .resetLow ∧ u.bsc.rstLow = true ∧ u.bsc.power = .off
         ∧ ∀ d, d ≠ .aon → (u.dom.get d).st = .off)
       ∧ (s.bsc.aon = .failWait → ∃ u, exec (.resetNAssert t) s = .next u
         ∧ u = { shown s u with now := t, bsc := { s.bsc with rstLow := true, aon := .resetLow } })))
  ∧ ((∀ (t : Int) (s : State),
         let due := ∃ a, s.bsc.standbyAt = some a ∧ a ≤ t
         (due → ∃ u, exec (.standbyEntry t) s = .next u ∧ u.bsc = { s.bsc with power := .standby, standbyAt := none }
           ∧ u.sec = (if s.sec.level = 3 then s.sec else { s.sec with level := 0, d2 := none })
           ∧ u = { commanded s u with now := t, bsc := u.bsc, sec := u.sec, pst := s.pst })
         ∧ (¬ due → ∃ u, exec (.standbyEntry t) s = .next u ∧ u = { shown s u with now := t }))
       ∧ (∀ (t : Int) (s : State),
         (aonUp s = true → ∃ u, exec (.aonTrip t) s = .next u ∧ (u.dom.get .aon).st = .tripped ∧ aonUp u = false ∧ u.bsc.leanAon = true
           ∧ u.bsc.power = (if s.bsc.power = .service then .lean else s.bsc.power) ∧ u.sec.level = 0 ∧ u.sec.d2 = none ∧ u.sec.slots = s.sec.slots
           ∧ u.sec.lifecycle = s.sec.lifecycle ∧ u.pst.words = s.pst.words ∧ u.pst.wq = [] ∧ u.pst.topo = none ∧ u.erc.inbox = [] ∧ u.erc.frozen = false
           ∧ u.regs = s.regs ∧ (∀ d, d ≠ .aon → u.dom.get d = s.dom.get d))
         ∧ (aonUp s = false → ∃ u, exec (.aonTrip t) s = .next u ∧ u = { shown s u with now := t })))

/-- The power domains other than AON and the lanes (R77, R360 to R362): a ramp in range ends ACTIVE, or HELD where SAFEHALT holds the domain; with a ROM that fails its check, out of range, or at a trip, the
domain is TRIPPED, recorded with its cause; 10 ms later it restarts, HOST every time, the others at most LIM times in 3 600 s; past that, and by BSC_DOMCTL only,
it stays. OFF switches idle domains off and on again.
The model's own choices that it rests on: log entries 60, 94, 156. -/
def Obligations.DomainsTripAndRestart : Prop :=
  (∀ (t : Int) (d : Dom) (s : State), d ≠ .aon → d ≠ .lanex → d ≠ .laney →
    let st := (s.dom.get d).st
    let held := s.bsc.power = .safehalt ∧ (d = .ring ∨ d = .field)
    let gone := fun (u : State) (cause : Nat) => (u.dom.get d).st = .tripped ∧ (aonUp s = true →
      ({ code := evDomainTrip, src := 0, p0 := w32 d.num, p1 := w32 cause, p2 := 0, solo := false } : EvIn) ∈ u.erc.inbox)
      ∧ (∀ e, e ≠ d → u.dom.get e = s.dom.get e) ∧ u.sec = s.sec
    (st = .ramp → ¬ held → ∃ u, exec (.domainRampEnd t d ⟨true, []⟩) s = .next u ∧ u.dom = s.dom.put d { s.dom.get d with st := .active, since := t }
      ∧ u.sec = s.sec ∧ u.pst = s.pst ∧ u.stg = s.stg)
    ∧ (∀ n, st = .ramp → ¬ held → ∃ u, exec (.domainRampEnd t d ⟨true, [n]⟩) s = .next u ∧ (u.dom.get d).st = .tripped ∧ (∀ e, e ≠ d → u.dom.get e = s.dom.get e)
      ∧ (aonUp s = true → ({ code := evRomFail, src := 16 * d.num, p0 := w32 n, p1 := w32 d.num, p2 := 0, solo := false } : EvIn) ∈ u.erc.inbox))
    ∧ (∀ roms, st = .ramp → held → ∃ u, exec (.domainRampEnd t d ⟨true, roms⟩) s = .next u
      ∧ u = { shown s u with now := t, dom := s.dom.put d { s.dom.get d with st := .held, since := t } })
    ∧ (st = .ramp → ∃ u, exec (.domainRampEnd t d ⟨false, []⟩) s = .next u ∧ gone u 3)
    ∧ (st ≠ .ramp → ∀ ok roms, ∃ u, exec (.domainRampEnd t d ⟨ok, roms⟩) s = .next u ∧ u = { shown s u with now := t })
    ∧ (∀ k : Fin 3, st ≠ .off → st ≠ .tripped → ∃ u, exec (.domainTrip t d k) s = .next u ∧ gone u k.val)
    ∧ (∀ k : Fin 3, (st = .off ∨ st = .tripped) → ∃ u, exec (.domainTrip t d k) s = .next u ∧ u = { shown s u with now := t })
    ∧ (st = .tripped → 10000000 ≤ t - (s.dom.get d).since → aonUp s = true →
      let recent := recentRestarts (atTime t s) d
      ((d = .host ∨ s.bsc.restartHold.contains d = false ∧ recent.length < regF s 0xE008 2 0) →
        ∃ u, exec (.domainRestart t d) s = .next u ∧ (u.dom.get d).st = .ramp ∧ (u.dom.get d).restarts = recent ++ [t]
          ∧ (∀ e, e ≠ d → u.dom.get e = s.dom.get e)
          ∧ u = { reported s u with now := t, dom := u.dom, bsc := { s.bsc with restartHold := u.bsc.restartHold } })
      ∧ (d ≠ .host → s.bsc.restartHold.contains d = false → regF s 0xE008 2 0 ≤ recent.length →
        ∃ u, exec (.domainRestart t d) s = .next u ∧ u = { shown s u with now := t, bsc := { s.bsc with restartHold := s.bsc.restartHold ++ [d] }, erc := { s.erc with inbox := s.erc.inbox ++ [{ code := evRestartLimit, src := 0, p0 := w32 d.num, p1 := 0, p2 := 0, solo := false }] } }))
    ∧ ((st ≠ .tripped ∨ t - (s.dom.get d).since < 10000000) → ∃ u, exec (.domainRestart t d) s = .next u ∧ u = { shown s u with now := t }))
  ∧ (∀ (t : Int) (b : BitVec 4) (s : State), active s .host = true → aonUp s = true →
    (∃ u, exec (.bscDomctlRestart t b) s = .next u ∧ u.sec = s.sec ∧ u.pst = s.pst ∧ u.regs = s.regs
      ∧ (∀ p ∈ domctlDoms, (u.dom.get p.1).st = (if b.toNat.testBit p.2 && (s.dom.get p.1).st == .tripped then .ramp else (s.dom.get p.1).st)))
    ∧ (lands s (pregWord 0xE00C) = true →
      let old := regStored s 0xE00C
      let rises := fun (p : Dom × Nat) => b.toNat.testBit p.2 = true ∧ bitOf old p.2 = false
      ((∀ p ∈ domctlDoms, rises p → mayOff s p.1 = true) → ∃ u, exec (.bscDomctlOff t b) s = .next u
        ∧ u.pst.wq = s.pst.wq ++ [(pregWord 0xE00C, w32 b.toNat)] ∧ (∀ p ∈ domctlDoms, rises p → (u.dom.get p.1).st = .off)
        ∧ (∀ p ∈ domctlDoms, b.toNat.testBit p.2 = false → bitOf old p.2 = true → (s.dom.get p.1).st = .off → 2 ≤ s.bsc.bringup →
          (u.dom.get p.1).st = .ramp)
        ∧ (∀ e ∈ [Dom.aon, .lanex, .laney, .host], (u.dom.get e).st = (s.dom.get e).st))
      ∧ ((∃ p ∈ domctlDoms, rises p ∧ mayOff s p.1 = false) → ∃ u, exec (.bscDomctlOff t b) s = .next u ∧ u = { reported s u with now := t }
        ∧ (aonUp s = true → ({ code := evWriteIgnored, src := 1, p0 := 0xE00C, p1 := w32 b.toNat, p2 := 1, solo := false } : EvIn) ∈ u.erc.inbox))))

/-! ## Registers, the table window, reads and polls -/

/-- REGISTER_WRITE and RWP_WRITE (R5 to R8, R415, R434, R449, R451). An access above BAR0 faults; while HOST is not ACTIVE a write has no effect; a misaligned one is counted and
discarded, one of an address without a register or of an RO word has no effect. An RW word of an ACTIVE domain holds what is written to its fields, every other register as
before; an RWP word joins the write queue and reads as written; one that breaks its rule is ignored and recorded, an RWS word discarded once SEALED. RWP_WRITE is such a write.
The model's own choices that it rests on: log entries 88, 101, 102. -/
def Obligations.RegisterWriteReachesItsWord : Prop :=
  ∀ (t : Int) (off : Nat) (v : Word) (s : State),
    let a := atTime t s
    let w := fun (al : Bool) => Instr.registerWrite t off al v
    let same := fun (u : State) => u = { shown s u with now := t }
    exec (.rwpWrite t off v) s = exec (w true) s
    ∧ (0x100000 ≤ off → ∀ al, exec (w al) s = .fault .noAddress)
    ∧ (off < 0x100000 → active s .host = false → ∀ al, ∃ u, exec (w al) s = .next u ∧ same u)
    ∧ (off < 0x100000 → active s .host = true →
      (∀ al, (al = false ∨ off % 4 ≠ 0) → ∃ u, exec (w al) s = .next u ∧ u = { reported s u with now := t, erc := s.erc, ctr := (bump 0xCC88 s).ctr })
      ∧ (off % 4 = 0 → off < 0x40000 →
        (rowAt off = none → ∃ u, exec (w true) s = .next u ∧ same u)
        ∧ (∀ r, rowAt off = some r →
          let x := w32 (v.toNat &&& r.mask)
          (r.acc = .ro → ∃ u, exec (w true) s = .next u ∧ same u)
          ∧ (r.acc = .rw → r.len = 1 → off ∉ [0xC000, 0x5014, 0x5414, 0x5814, 0x3000, 0x5B00, 0xB180] →
            (active s (wordDom s off) = false → ∃ u, exec (w true) s = .next u ∧ u = { reported s u with now := t, erc := s.erc, ctr := (bump 0xCC88 s).ctr })
            ∧ (active s (wordDom s off) = true → wordRule a off x = none → rising s.regs.rw = true → ∃ u, exec (w true) s = .next u
              ∧ regStored u off = x ∧ (∀ o, o ≠ off → regStored u o = regStored s o)
              ∧ u.pst = s.pst ∧ u.sec = s.sec ∧ u.hen = s.hen ∧ u.sld = s.sld ∧ u.lcm = s.lcm ∧ u.net = s.net ∧ u.clr = s.clr ∧ u.sin = s.sin)
            ∧ (∀ why, active s (wordDom s off) = true → wordRule a off x = some why → ∃ u, exec (w true) s = .next u
              ∧ u = { reported s u with now := t, ctr := s.ctr } ∧ (aonUp s = true →
                ({ code := evWriteIgnored, src := 16 * (wordDom s off).num + offBlock off, p0 := w32 off, p1 := x, p2 := w32 why, solo := false } : EvIn) ∈ u.erc.inbox)))
          ∧ (r.acc = .rwp → r.len = 1 → lands s (pregWord off) = true → off ∉ [0x501C, 0x541C, 0x581C, 0xE00C, 0xB180] → (off < 0xB000 ∨ 0xB080 ≤ off) →
            (wordRule a off x = none → ∃ u, exec (w true) s = .next u ∧ u.pst = { s.pst with wq := s.pst.wq ++ [(pregWord off, x)] } ∧ regStored u off = x
              ∧ u.hen = s.hen ∧ u.sld = s.sld ∧ u.lcm = s.lcm ∧ u.net = s.net ∧ u.clr = s.clr ∧ u.sin = s.sin)
            ∧ (∀ why, wordRule a off x = some why → ∃ u, exec (w true) s = .next u ∧ u = { reported s u with now := t, ctr := s.ctr } ∧ (aonUp s = true →
                ({ code := evWriteIgnored, src := 16 * (wordDom s off).num + offBlock off, p0 := w32 off, p1 := x, p2 := w32 why, solo := false } : EvIn) ∈ u.erc.inbox)))
          ∧ (r.acc = .rws → 3 ≤ s.sec.lifecycle → ∃ u, exec (w true) s = .next u ∧ u = { reported s u with now := t, ctr := s.ctr } ∧ (aonUp s = true →
                ({ code := evRwsDiscarded, src := 16 * (wordDom s off).num + offBlock off, p0 := w32 off, p1 := x, p2 := 0, solo := false } : EvIn) ∈ u.erc.inbox)))))

/-- TABLE_WINDOW_WRITE (R415, R423): a write through the window joins the write queue at its word of the bank that PST_TBL selects when that bank is INACTIVE, and is ignored and
recorded otherwise; a word beyond the bank does not exist.
COUNTER_READ and MULTIWORD_READ_LATCH (R7, R449, R450, R459). A counter is returned and cleared, and no other counter changes; the read of the lowest word of a two-word RO
register keeps its higher word, which the read of that word then returns, taking away
once what it clears; a misaligned read returns 0, and none is answered while HOST is not ACTIVE.
The model's own choices that it rests on: log entries 9, 104. -/
def Obligations.WindowWritesAndReadsKeepTheirRules : Prop :=
  (∀ (t : Int) (w : Nat) (v : Word) (s : State),
       let k := if bitOf (reg s 0xF000) 0 then Bank.b else .a
       let st := match k with | .a => s.pst.bankA | .b => s.pst.bankB
       (57344 ≤ w → exec (.tableWindowWrite t w v) s = .fault .noAddress)
       ∧ (w < 57344 → active s .host = false → ∃ u, exec (.tableWindowWrite t w v) s = .next u ∧ u = { shown s u with now := t })
       ∧ (w < 57344 → active s .host = true → lands s (bankBase k + w) = true →
         (st = .inactive → ∃ u, exec (.tableWindowWrite t w v) s = .next u ∧ nvmRead u.pst (bankBase k + w) = v
           ∧ u = { shown s u with now := t, pst := { s.pst with wq := s.pst.wq ++ [(bankBase k + w, v)] } })
         ∧ (st ≠ .inactive → ∃ u, exec (.tableWindowWrite t w v) s = .next u ∧ u = { reported s u with now := t, ctr := s.ctr }
           ∧ (aonUp s = true → ({ code := evWriteIgnored, src := 2, p0 := w32 (0x40000 + 4 * w), p1 := v, p2 := 1, solo := false } : EvIn) ∈ u.erc.inbox))))
  ∧ (∀ (t : Int) (off : Nat) (s : State),
         let a := atTime t s
         exec (.counterRead t off) s = exec (.multiwordReadLatch t off) s
         ∧ (0x100000 ≤ off → exec (.counterRead t off) s = .fault .noAddress)
         ∧ (off < 0x100000 → active s .host = false → ∃ u, exec (.counterRead t off) s = .next u ∧ u = { shown s u with now := t, rdata := [] })
         ∧ (off < 0x100000 → active s .host = true →
           (off % 4 ≠ 0 → ∃ u, exec (.counterRead t off) s = .next u ∧ u = { reported s u with now := t, rdata := [0], ctr := s.ctr, erc := s.erc })
           ∧ (isCounter off = true → active s (ctrDom s off) = true → ∃ u, exec (.counterRead t off) s = .next u
             ∧ u = { shown s u with now := t, rdata := [w32 (tget 0 off s.ctr)], ctr := tput 0 off 0 s.ctr } ∧ (rising s.ctr = true → tget 0 off u.ctr = 0)
             ∧ ∀ o, o ≠ off → tget 0 o u.ctr = tget 0 o s.ctr)
           ∧ (isCounter off = true → active s (ctrDom s off) = false → ∃ u, exec (.counterRead t off) s = .next u ∧ u = { shown s u with now := t, rdata := [0] })
           ∧ (off % 4 = 0 → off < 0x40000 → isCounter off = false → rowAt off = none → ∃ u, exec (.counterRead t off) s = .next u ∧ u = { shown s u with now := t, rdata := [0] })
           ∧ (∀ r, off % 4 = 0 → off < 0x40000 → isCounter off = false → rowAt off = some r → r.acc = .ro → off / 0x1000 ≠ 9 → active s (wordDom s off) = true → r.len = 2 →
             (∀ x, r.word = 0 → roWord a off = some x → ∃ u, exec (.multiwordReadLatch t off) s = .next u ∧ u.rdata = [x]
               ∧ tget none (off + 4) u.regs.latch = some ((roWord a (off + 4)).getD 0) ∧ u.regs.rw = s.regs.rw ∧ u.pst = s.pst ∧ u.sec = s.sec ∧ u.hen = s.hen ∧ u.sld = s.sld)
             ∧ (∀ x, r.word = 1 → tget none off s.regs.latch = some x → ∃ u, exec (.multiwordReadLatch t off) s = .next u ∧ u.rdata = [x]
               ∧ u.regs = { s.regs with owed := tput 0 off 0 s.regs.owed } ∧ (off = 0xD504 → rising s.ctr = true → tget 0 0xDC04 u.ctr = tget 0 0xDC04 s.ctr - tget 0 off s.regs.owed)
               ∧ u.pst = s.pst ∧ u.sec = s.sec ∧ u.hen = s.hen ∧ u.sld = s.sld))))

/-- HRE_POLL (R310, R311, R313, R315, R317, R337). A poll that is not due does nothing; a due one ends the knock. A poll whose read fails is counted in a row of failures, and at the
third the host is lost. One that reads takes the command index that lies in range, keeps the one out of range as an index error, and a descriptor that is not the next one is not
examined; one whose own read failed completes FAILED_DMA, an unlisted opcode is taken from CMD and refused, a NOP among the listed ones completes with the round.
The model's own choices that it rests on: log entries 115, 116, 117, 153. -/
def Obligations.PollTakesIndicesAndCommands : Prop :=
  ∀ (p : PollRead) (s : State),
    let a := atTime p.t s
    let due := hreRun s = true ∧ hostCan s = true ∧ pollDue a = true
    (¬ due → ∃ u, exec (.hrePoll p) s = .next u ∧ u = { shown s u with now := p.t })
    ∧ (due → p.area = none → ∃ u, exec (.hrePoll p) s = .next u ∧ u.hre.knock = false ∧ u.hre.pollAt = some p.t ∧ u.hre.pollFails = s.hre.pollFails + 1
      ∧ (2 ≤ s.hre.pollFails → u.hre.loss = .stopped)
      ∧ u = { reported s u with now := p.t, hre := { (reported s u).hre with knock := false, pollAt := some p.t, pollFails := s.hre.pollFails + 1, loss := u.hre.loss, losses := u.hre.losses } })
    ∧ (∀ ws, due → p.area = some ws →
      let b := takeIndices ws p.posts (takeBeat (nth 0 ws 5) (bump 0xCC00 { a with hre := { s.hre with knock := false, pollAt := some p.t, pollFails := 0 } }))
      let inRange := (nth 0 ws 0 - s.hre.cmdCons).toNat ≤ ringSize s 0
      (p.cmds = [] → ∃ u, exec (.hrePoll p) s = .next u ∧ u.hre.knock = false ∧ u.hre.pollFails = 0 ∧ u.hre.cmdCons = s.hre.cmdCons
        ∧ (inRange → u.hre.cmdProd = nth 0 ws 0) ∧ (¬ inRange → u.hre.cmdProd = s.hre.cmdProd ∧ u.hre.indexErr = true)
        ∧ u.regs = s.regs ∧ u.sec = s.sec ∧ u.pst = s.pst ∧ u.stg = s.stg ∧ u.hen = s.hen ∧ u.sld = s.sld)
      ∧ (∀ r, p.cmds = [r] → r.index ≠ s.hre.cmdCons → ∃ u, exec (.hrePoll p) s = .next u ∧ u.hre.cmdCons = s.hre.cmdCons ∧ u.hre.out = s.hre.out
        ∧ u.regs = s.regs ∧ u.sec = s.sec ∧ u.pst = s.pst ∧ u.stg = s.stg ∧ u.hen = s.hen ∧ u.sld = s.sld)
      ∧ (∀ r ws, p.cmds = [r] → r.words = some ws → opcodeList.contains (descOp ws) = false → r.index = s.hre.cmdCons → b.hre.cmdProd ≠ s.hre.cmdCons →
        canExamine b = true → ∃ u, exec (.hrePoll p) s = .next u ∧ u.hre.cmdCons = s.hre.cmdCons + 1 ∧ u.hre.cplProd = s.hre.cplProd + 1
          ∧ Out.hostWrite (ringAddr s 1 s.hre.cplProd) (wordsBytes (cplWords (atTime r.t s) (outOf (descCmd r ws) (descOp ws) 0) stRefusedOpcode 0 0 false false)) ∈ u.out
          ∧ u.hre.out = s.hre.out ∧ u.sec = s.sec ∧ u.pst = s.pst ∧ u.stg = s.stg)
      ∧ (∀ r, p.cmds = [r] → r.words = none → r.index = s.hre.cmdCons → b.hre.cmdProd ≠ s.hre.cmdCons →
        canExamine b = true → ∃ u tag, exec (.hrePoll p) s = .next u ∧ u.hre.cmdCons = s.hre.cmdCons + 1 ∧ u.hre.cplProd = s.hre.cplProd + 1
          ∧ Out.hostWrite (ringAddr s 1 s.hre.cplProd) (wordsBytes (cplWords (atTime r.t s) { (outOf (descCmd r []) 0 0) with tag := tag, franked := false } stFailedDma 0 0 false false)) ∈ u.out
          ∧ u.hre.out = s.hre.out ∧ u.sec = s.sec ∧ u.pst = s.pst ∧ u.stg = s.stg)
      ∧ (∀ r ws, p.cmds = [r] → r.words = some ws → descOp ws = 0x01 → r.index = s.hre.cmdCons → b.hre.cmdProd ≠ s.hre.cmdCons → canExamine b = true →
        argsOk 0x01 (descCmd r ws) = true → ∃ u, exec (.hrePoll p) s = .next u ∧ u.hre.cmdCons = s.hre.cmdCons + 1 ∧ u.hre.cplProd = s.hre.cplProd + 1
          ∧ Out.hostWrite (ringAddr s 1 s.hre.cplProd) (wordsBytes (cplWords (atTime r.t s) (outOf (descCmd r ws) 0x01 0) stApplied (roundLo (atTime r.t s)) (hi32 (curRound (atTime r.t s))) false false)) ∈ u.out
          ∧ u.hre.out = s.hre.out ∧ u.sec = s.sec ∧ u.pst = s.pst ∧ u.stg = s.stg))

/-! ## Invariants -/

/-- What the host sees is current (R312, R334): every step from a state in which the letterbox device area and the interrupt messages are current leads to such a state.
The model's own choices that it rests on: log entry 10. -/
def Obligations.WhatTheHostSeesStaysCurrent : Prop := ∀ s u : State, AreaCurrent s → step s = .next u → AreaCurrent u

/-- After reset what the host sees is current, the persistent store and every head list are in their canonical form, and nothing waits.
The model's own choices that it rests on: log entries 5, 6, 7. -/
def Obligations.ResetKeepsTheInvariants : Prop :=
  AreaCurrent State.reset ∧ nvmWf State.reset.pst = true ∧ PeakListsBounded State.reset ∧ State.reset.pending = [] ∧ State.reset.hre.out = []
    ∧ State.reset.pst.wq = [] ∧ State.reset.pst.commits = []

/-! ## Each command's own effect -/

/-- Where commands complete with their own effect, each under conditions on the state and the operands alone: the host commands FILTER_SYNC, HEAD_FLUSH, LANE_RETIRE,
LIFECYCLE_SET, ATTEST and POWER_REQUEST; the ring registers; syncs and head samples; pace requests, bands and budget; the legacy systems, conversions and bus; merges, probes,
polls, the ridge and the ring. Of each it says one effect; the statements of its family say the rest (R115, R151, R199, R235, R245, R262, R276, R281, R302, R313, R382, R390).
The model's own choices that it rests on: log entries 1, 22, 53, 58, 63, 64, 65, 92. -/
def Obligations.CommandsTakeEffect : Prop :=
  (∀ (c : HostCmd) (s : State),
    (∀ i : Fch, Passes 0x18 c s → bitOf c.a0 8 = true → bitOf c.a0 i.num = true → (fchOf s i).run = true → syncLate s i (grid10 (c.t + 20000)) = false →
      ∃ u, exec (.filterSync c) s = .next u ∧ Accepted 0x18 c s u
        ∧ (fchOf u i).syncs = (fchOf s i).syncs ++ [{ src := 1, ty := grid10 (c.t + 20000), lt := !s.net.joined, id := s.hre.nextId + 1 }])
    ∧ (∀ r l, Passes 0x20 c s → c.cross = [] → (∀ o ∈ s.hre.out, o.id ≠ s.hre.nextId + 1) → headRec s (fld c.a0 12 0) = some r → laneTakes s l = true →
      ∃ u, exec (.headFlush c) s = .next u ∧ u.hre.cplProd = s.hre.cplProd + 1 ∧ (headOf u l (fld c.a0 12 0) (profile s r.profile)).list = [])
    ∧ (Passes 0x30 c s → s.lcm.cond.lane (argLane c) = .serving → serving s (argLane c).other = true →
      ∃ u, exec (.laneRetire c) s = .next u ∧ Accepted 0x30 c s u ∧ u.lcm.cond.lane (argLane c) = .failSilent)
    ∧ (Passes 0x63 c s → lifecycleOk s (fld c.a0 2 0) = true → fld c.a0 2 0 ≠ 5 →
      ∃ u, exec (.lifecycleSet c) s = .next u ∧ u.sec.lifecycle = fld c.a0 2 0 ∧ u.sec.level = 0)
    ∧ (Passes 0x64 c s → aonUp s = true → ∃ u, exec (.attest c) s = .next u ∧ Completed 0x64 c stApplied 160 0 s u)
    ∧ (Passes 0x68 c s → fld c.a0 2 0 = 4 → s.bsc.power = .service → ∃ u, exec (.powerRequest c) s = .next u ∧ u.bsc.leanRequest = true
      ∧ u.bsc.power = .lean)
    ∧ (Passes 0x68 c s → fld c.a0 2 0 = 1 → mayStandby s = true → ∃ u, exec (.powerRequest c) s = .next u ∧ u.bsc.standbyAt = some (c.t + 1000000)))
  ∧ (∀ (t : Int) (s : State), active s .host = true →
    (∀ v, ∃ u, exec (.hreKnock t v) s = .next u ∧ u.hre.knock = hreRun s)
    ∧ (∀ run, ∃ u, exec (.hreCtlRun t run) s = .next u ∧ u.regs.rw = tput (regReset 0xC000) 0xC000 (w32 (b2n run)) s.regs.rw)
    ∧ (∀ (r : Fin 13) (v : Word), let off := 0xC048 + 16 * r.val
      ringEn s r = false → 6 ≤ fld v 4 0 → fld v 4 0 ≤ 16 →
      ∃ u, exec (.hreRingEnable t r v) s = .next u ∧ u.regs.rw = tput (regReset off) off (w32 (256 * b2n (bitOf v 8) + fld v 4 0)) s.regs.rw))
  ∧ (∀ (t : Int) (i : Fch) (s : State),
    (i ≠ .field → bitOf (reg s (fchOff i + 8)) 0 = true → (fchOf s i).run = true → active s i.dom = true →
      (fchOf s i).syncs.any (fun r => r.src == 0) = false → ∃ u, exec (.syncInEdge t) s = .next u
        ∧ (fchOf u i).syncs = (fchOf s i).syncs ++ [{ src := 0, ty := t, lt := !s.net.joined, id := 0 }])
    ∧ (∀ hi, active s i.dom = true → (fchOf s i).run = true → ∃ u r, exec (.fchSyncntArm t i hi) s = .next u
        ∧ (fchOf u i).syncs = (fchOf s i).syncs ++ [r] ∧ r.src = 2 ∧ r.lt = false)
    ∧ (∀ z r, (fchOf s i).zq = z :: r → (∀ l, s.lcm.sig.lane l = s.lcm.sigRef.lane l) → (∀ l, laneTakes s l = true → henFull s l = false) →
      ∃ u, exec (.zoneSample t i [] []) s = .next u ∧ (fchOf u i).zq = r))
  ∧ (∀ (t : Int) (s : State),
    (∀ p m, s.bsc.pace.port p = true → aonUp s = true → grantable s m p = true →
      ∃ u, exec (.paceRequest t p m) s = .next u ∧ (u.dom.get p.dom).band = (s.dom.get p.dom).band + 1)
    ∧ (∀ d, ∃ u, exec (.bandChangeSettled t d) s = .next u ∧ (u.dom.get d).settle = none)
    ∧ (∀ m, aonUp s = true → s.bsc.power ≠ .off → s.bsc.power ≠ .standby →
      ∃ u, exec (.budgetPeriod t m) s = .next u ∧ u.bsc.iAvg = m.iAvg ∧ u.bsc.tj = m.tj))
  ∧ (∀ (t : Int) (n : Fin 8) (s : State), active s .field = true → s.lhf.on = true → s.lhf.sys.length = 8 →
    let x := sysOf s n
    (∀ pos, ∃ u, exec (.clampTrip t n pos) s = .next u ∧ (sysOf u n).clamp = some (t, pos))
    ∧ (∀ k, x.clamp = some k → ∃ u, exec (.clampRelease t n) s = .next u ∧ (sysOf u n).clamp = none)
    ∧ (∀ k : Nat, ctlF s n 1 1 ≠ 0 → x.en = true → nth false x.faults 0 = false → t = s.lhf.tT + 250000000 * (k : Int) + 31250000 * (n.val : Int) →
      ∃ u b, exec (.toneBurstStart t n) s = .next u ∧ (sysOf u n).burst = some b ∧ b.n = k ∧ b.start = t)
    ∧ (∀ b, x.burst = some b → b.past = true → ∃ u, exec (.toneBurstEvaluate t n) s = .next u ∧ (sysOf u n).burst = none)
    ∧ (∀ v, active s .host = true → lands s (pregWord (0xB000 + 0x10 * n.val)) = true → 175921860 ≤ fld v 29 0 → fld v 29 0 ≤ 615726512 → x.change = none →
      ∃ u, exec (.lhfExcitationChange t n false v) s = .next u ∧ (sysOf u n).change = some (nextValue (atTime t s))
        ∧ u.pst.wq = s.pst.wq ++ [(pregWord (0xB000 + 0x10 * n.val), w32 (fld v 29 0))])
    ∧ (∀ (u2 : Fin 2) (code : Int), let y := if u2.val = 0 then s.lhf.sar.a else s.lhf.sar.b
      y.wait = [] → y.routine = none → t = max (s.lhf.tG + 7200 * (y.c : Int) + 1800 * (y.k : Int)) y.free + 1790 →
      ∃ u, exec (.sarConversion t u2 code) s = .next u ∧ (if u2.val = 0 then u.lhf.sar.a else u.lhf.sar.b).free = t)
    ∧ (∀ a b, t % 1000000 = 0 → ∃ u, exec (.routineConversion t a b) s = .next u ∧ u.lhf.rot = (s.lhf.rot + 1) % 6)
    ∧ (∀ r, let y := if n.val < 4 then s.lhf.sar.a else s.lhf.sar.b
      y.urg = none → ∃ u, exec (.urgentConversion t n r) s = .next u
        ∧ (if n.val < 4 then u.lhf.sar.a else u.lhf.sar.b).wait = y.wait ++ [(grid10 t, n.val, r)]))
  ∧ (∀ (t : Int) (s : State), active s .field = true → s.net.ridge = false → s.bsc.power ≠ .safehalt → s.sec.lifecycle ≠ 5 →
    let b := s.net.bus
    (regF s 0x9028 1 0 = 1 → b.running = false → b.reply = none → b.walkAt = none → pollEntries s 1 ≠ [] →
      ∃ u, exec (.legacyWalkStart t) s = .next u ∧ u.net.bus.running = true ∧ u.net.bus.walkAt = some t ∧ u.net.bus.ix = 0)
    ∧ (∀ w, (pollEntries s 1)[b.ix]? = some w → b.mode = 1 → b.running = true → b.out = none → b.nextAt ≤ t →
      ∃ u p, exec (.legacyPollSend t) s = .next u ∧ u.net.bus.out = some p ∧ p.addr = fld w 7 0 ∧ u.net.bus.ix = b.ix + 1)
    ∧ (∀ p, b.out = some p → b.mode = 1 → p.tEnd + p.wait ≤ t → ∃ u, exec (.legacyReplyTimeout t) s = .next u ∧ u.net.bus.out = none
      ∧ u.net.bus.nextAt = t + 20000)
    ∧ (∀ cs r p, busRx cs = some r → b.mode = 1 → b.out = some p → replyCause p r = 0 → ∃ u n, exec (.legacyReplyReceive cs) s = .next u
      ∧ u.net.bus.nodes = tput none p.addr (some n) b.nodes ∧ n.service = true ∧ n.pos = (nth 0 r.chars 8).toNat ∧ n.neg = (nth 0 r.chars 9).toNat)
    ∧ (∀ cs r h, busRx cs = some r → b.mode = 2 → b.reply ≠ none → r.stopsOk = true → r.chars.length = 5 → (nth 0 r.chars 1).toNat = 0x31 →
      busCrc ((r.chars.drop 1).take 2) = r.chars.drop 3 → ((nth 0 r.chars 0).toNat, h) ∈ b.shown → ∃ u, exec (.legacyPollReceive cs) s = .next u
      ∧ u.net.bus.reply = some ((nth 0 r.chars 0).toNat, (nth 0 r.chars 2).toNat, r.fin + 20000))
    ∧ (∀ ad seq h, b.reply = some (ad, seq, t) → b.mode = 2 → (ad, h) ∈ b.shown → ∃ u, exec (.legacyReplySend t) s = .next u
      ∧ u.net.bus.reply = none ∧ ad ∈ u.net.bus.replied))
  ∧ (∀ (t : Int) (l : Lane) (s : State),
    let a := atTime t s
    let x := s.net.rct.lane l
    (∀ n c d r, (peerOf x n).held = c :: d :: r → (d.dyn, d.index, d.round) = (c.dyn, c.index, c.round) → laneTakes s l = true →
      ∃ u, exec (.lettersMerge t l n) s = .next u
        ∧ (peerOf (u.net.rct.lane l) n).held = r.filter (fun d => !(d.dyn == c.dyn && d.index == c.index && d.round == c.round)))
    ∧ (let m := decideMaster (laneRound a l) x.master x.mRound x.times
      rctRound a l = true → (x.st = 2 ∨ x.st = 3) → ∃ u, exec (.masterDecision t) s = .next u ∧ (u.net.rct.lane l).newMaster = if m = x.master then none else some m)
    ∧ (mayColdstart a l = true → ∃ u, exec (.listenTimeout t l) s = .next u ∧ u.net.joined = true ∧ (u.net.rct.lane l).master = nodeId s)
    ∧ (∀ w, (pollEntries s 0)[x.pollIx]? = some w → pollLive a l = true → pollMaster s = true → x.poll = none → x.pollAt ≤ t →
      t + 248 + ((fld w 19 12 * 1000 : Nat) : Int) ≤ pollLimit a → ∃ u p, exec (.pollSend t l) s = .next u ∧ (u.net.rct.lane l).poll = some p
        ∧ p.addr = fld w 7 0 ∧ (u.net.rct.lane l).pollIx = x.pollIx + 1)
    ∧ (∀ p, x.poll = some p → pollMaster s = true → p.tEnd + p.wait ≤ t → ∃ u, exec (.pollReplyTimeout t l) s = .next u ∧ (u.net.rct.lane l).poll = none
        ∧ (u.net.rct.lane l).pollAt = t + 2000)
    ∧ (x.reply = some (1, t) → pollLive a l = true → ∃ u, exec (.pollReplySend t l) s = .next u ∧ (u.net.rct.lane l).reply = none
        ∧ Out.frame (chanPort s l) t (frameBytes a false l.num 2 false 0 (curRound a) (lettersPayload x (oldest x (t - 10000) 63))) ∈ u.out)
    ∧ (∀ f : FrameRx, let b := atTime f.tEnd s
      let g := parseFrame f.bytes
      portLane s f.port = some l → pollLive b l = true → pollMaster s = false → pollCause b l (heardRx b f) g = 0 → g.type = 7 → fld (g.word 0) 7 0 = nodeId s →
      ∃ u, exec (.pollReceive f) s = .next u ∧ (u.net.rct.lane l).reply = some (fld (g.word 0) 11 8, f.tEnd + 2000)))
  ∧ (∀ (t : Int) (port : Fin 6) (l : Lane) (s : State),
    let a := atTime t s
    let x := s.net.rct.lane l
    ridgeLive a = false → portLane s port.val = some l → rctRound a l = true →
    (probeDue a x.probed = true → ∃ u, exec (.probeRequestSend t port) s = .next u ∧ (u.net.rct.lane l).dep = t :: x.dep ∧ Out.probe port.val t 1 0 ∈ u.out)
    ∧ (reflects a port.val = true → ∃ u, exec (.probeRequestReceive t port requestSet) s = .next u ∧ u.net.refl = s.net.refl ++ [{ port := port.val, at_ := t }])
    ∧ (∀ r, s.net.refl = [r] → r.port = port.val → tget none port.val s.net.tx = none → r.at_ + 256 ≤ t →
      ∃ u, exec (.probeReflectionSend t port) s = .next u ∧ u.net.refl = [])
    ∧ (∀ w d r, x.dep = d :: r → ∃ u, exec (.probeReflectionReceive t port w) s = .next u ∧ (u.net.rct.lane l).dep = r)
    ∧ (∃ u, exec (.probeLost t port) s = .next u ∧ (u.net.rct.lane l).dep = x.dep.filter (fun d => decide (t - d < 4000000))))
  ∧ (∀ (t : Int) (b : Fin 6) (s : State),
    let a := atTime t s
    let r := s.net.rdg
    let br := branchOf s b.val
    ridgeLive a = true →
    (∀ bytes, let f := parseFrame bytes
      r.sched = false → f.timed = true → f.node = fld (f.word 0) 31 24 → r.idleFwd = none → idleBeaten b.val t s.pending = false →
      ∃ u, exec (.ridgeForward t b (.frame bytes)) s = .next u ∧ ∀ p : Nat, p < 6 → p ≠ b.val → Out.frame p (t + 1024) bytes ∈ u.out)
    ∧ (∀ c, br.fwd = some c → c ≤ t → ∃ u, exec (.ridgeWindowClose t b) s = .next u
      ∧ tget 0 (0xAE00 + 4 * b.val) u.ctr = satAdd 32 (tget 0 (0xAE00 + 4 * b.val) s.ctr) 1)
    ∧ (∀ k, br.blocked = some k → k ≤ curRound a → ∃ u, exec (.branchUnblock t b) s = .next u
      ∧ u.net.rdg.branches = setNth r.branches b.val { br with blocked := none, viol := 0, violNow := false })
    ∧ (r.sched = true → r.mRound = none → ∃ u, exec (.ridgeIdleTimeout t) s = .next u ∧ u.net.rdg.sched = false))
  ∧ (∀ (t : Int) (s : State),
    let a := atTime t s
    let r := s.net.ring
    (∀ f : FrameRx, let g := parseFrame f.bytes
      rswLive (atTime f.tEnd s) = true → f.port = 2 → (heardRx (atTime f.tEnd s) f).codeOk = true → lengthOk (atTime f.tEnd s) g = true → g.crcOk = true → g.ring = true →
      g.node = nodeId s → ∃ u, exec (.ringFrameReceive f) s = .next u ∧ u.ctr = (bump 0xAC04 s).ctr ∧ u.net.ring = r)
    ∧ (∀ b q, rswLive a = true → r.rp3Broken = false → r.q3 = b :: q → ∃ u, exec (.ringFrameSend t .towardRp3) s = .next u ∧ u.net.ring.q3 = q)
    ∧ (rswLive a = true → r.rp3Broken = false → ∃ u, exec (.ringPortBreak t true) s = .next u ∧ u.net.ring.rp3Broken = true)
    ∧ (rswLive a = true → r.rp2Broken = false → ∃ u, exec (.rpLos t 2) s = .next u ∧ u.net.ring.rp2Broken = true)
    ∧ (rswLive a = true → r.rp3Broken = true → ∃ u, exec (.ringPortReturn t true) s = .next u ∧ u.net.ring.rp3Broken = false))
end

