-- ==== Sys2Proof/Laws/Crypto.lean ====
section
/-!
SUPPORT. Laws/Crypto.lean: the lengths of what AES-128 and CMAC answer, and the words of a frank read back as its bytes (R388).
-/
namespace Sys2Proof.Laws
open Sys2Proof.Machine

theorem aesNextKey_length (rc : Nat) (k : List Nat) (h : k.length = 16) : (aesNextKey rc k).length = 16 := by
  simp [aesNextKey, xorL, h]

theorem aesRounds_length (r k s : List Nat) (hr : r ≠ []) (h : k.length = 16) : (aesRounds r k s).length = 16 := by
  induction r generalizing k s with
  | nil => exact absurd rfl hr
  | cons rc r ih =>
    cases r with
    | nil => simp [aesRounds, xorL, aesShift, aesNextKey_length rc k h]
    | cons rc2 r => exact ih _ _ (by simp) (aesNextKey_length rc k h)

theorem aes_length (k b : List Nat) (h : k.length = 16) : (aes k b).length = 16 := aesRounds_length _ _ _ (by simp) h

theorem cmacChain_length (k : List Nat) (h : k.length = 16) (f : Nat) (c m : List Nat) (hc : c.length = 16) : (cmacChain k f c m).length = 16 := by
  induction f generalizing c m with
  | zero => exact hc
  | succ f ih =>
    cases m with
    | nil => exact hc
    | cons x m => exact ih _ _ (aes_length k _ h)

theorem natBytes_length (n x : Nat) : (natBytes n x).length = n := by
  induction n generalizing x with
  | zero => rfl
  | succ n ih => simp [natBytes, ih]

theorem natBlock_length (n x : Nat) : (natBlock n x).length = n := by simp [natBlock, natBytes_length]

/-- A tag has 16 bytes. -/
theorem cmac_length (key : BitVec 128) (m : List Byte) : (cmac key m).length = 16 := by
  simp [cmac, cmacChain_length _ (natBlock_length 16 _)]

/-- A frank has 8 bytes (R388). -/
theorem cmdFrank_length (s : State) (d : Nat) (b : List Byte) : (cmdFrank s d b).length = 8 := by simp [cmdFrank, cmac_length]

/-- A response has 16 bytes (R394). -/
theorem debugAnswer_length (s : State) (ch : List Byte) (n : Nat) (l : Lane) : (debugAnswer s ch n l).length = 16 := by simp [debugAnswer, cmac_length]

theorem wordBytes_w32 (a b c d : Byte) : wordBytes (w32 (bytesNat [a, b, c, d])) = [a, b, c, d] := by
  have ha := a.isLt
  have hb := b.isLt
  have hc := c.isLt
  have hd := d.isLt
  simp only [wordBytes, w32, bytesNat, BitVec.toNat_ofNat, Nat.shiftRight_eq_div_pow, List.cons.injEq, and_true]
  refine ⟨?_, ?_, ?_, ?_⟩ <;> apply BitVec.eq_of_toNat_eq <;> simp only [BitVec.toNat_ofNat] <;> omega

/-- The words that carry eight bytes give them back. -/
theorem wordsBytes_bytesWords (l : List Byte) (h : l.length = 8) : wordsBytes [nth 0 (bytesWords l) 0, nth 0 (bytesWords l) 1] = l := by
  match l, h with
  | [a, b, c, d, e, f, g, i], _ =>
    have h1 := wordBytes_w32 a b c d
    have h2 := wordBytes_w32 e f g i
    simp [wordsBytes, bytesWords, bytesWordsFuel, nth, h1, h2]

end Sys2Proof.Laws
end

