-- ==== Sys2Proof/Laws/Tab.lean ====
section
/-!
SUPPORT. Laws/Tab.lean: the sparse tables in which the machine keeps what is addressed by number: a key read after a write, every other key, and the canonical
form kept; with them the words of the NVM.
-/
namespace Sys2Proof.Laws
open Sys2Proof.Machine

variable {α : Type}

/-! ## Reads after writes -/

theorem tget_tins (d : α) (k : Nat) (a : α) (t : Tab α) : tget d k (tins k a t) = a := by
  induction t with
  | nil => simp [tins, tget]
  | cons e t ih =>
    obtain ⟨j, b⟩ := e
    unfold tins
    split
    · simp [tget]
    · split
      · simp [tget]
      · rename_i h; simp [tget, h, ih]

theorem tget_tins_ne (d : α) {k m : Nat} (a : α) (t : Tab α) (h : m ≠ k) : tget d m (tins k a t) = tget d m t := by
  induction t with
  | nil => simp [tins, tget, h.symm]
  | cons e t ih =>
    obtain ⟨j, b⟩ := e
    unfold tins
    split
    · simp [tget, h.symm]
    · split
      · rename_i hj; subst hj; simp [tget, h.symm]
      · simp only [tget]; split <;> [rfl; exact ih]

theorem tget_tdel_ne (d : α) {k m : Nat} (t : Tab α) (h : m ≠ k) : tget d m (tdel k t) = tget d m t := by
  induction t with
  | nil => rfl
  | cons e t ih =>
    obtain ⟨j, b⟩ := e
    unfold tdel
    split
    · rename_i hj; subst hj; simp [tget, h.symm]
    · simp only [tget]; split <;> [rfl; exact ih]

/-- A key other than the one written reads as before. -/
theorem tget_tput_ne [DecidableEq α] (d e : α) {k m : Nat} (a : α) (t : Tab α) (h : m ≠ k) : tget d m (tput e k a t) = tget d m t := by
  unfold tput; split
  · exact tget_tdel_ne d t h
  · exact tget_tins_ne d a t h

/-- A key written with a value of its own reads as it. -/
theorem tget_tput_of_ne [DecidableEq α] (d e : α) (k : Nat) (a : α) (t : Tab α) (h : a ≠ e) : tget d k (tput e k a t) = a := by
  unfold tput; rw [if_neg h]; exact tget_tins d k a t

/-- A key written with some value reads as it. -/
@[simp] theorem tget_tput_some {β : Type} [DecidableEq β] (k : Nat) (b : β) (t : Tab (Option β)) :
    tget none k (tput none k (some b) t) = some b := tget_tput_of_ne none none k (some b) t (by simp)

/-! ## The canonical form -/

theorem risingFrom_mono {k m : Nat} (t : Tab α) (h : k ≤ m) (hm : risingFrom m t = true) : risingFrom k t = true := by
  cases t with
  | nil => rfl
  | cons e t =>
    obtain ⟨j, b⟩ := e
    simp only [risingFrom, Bool.and_eq_true, decide_eq_true_eq] at *
    exact ⟨Nat.lt_of_le_of_lt h hm.1, hm.2⟩

theorem tget_of_risingFrom (d : α) {k : Nat} (t : Tab α) (h : risingFrom k t = true) : tget d k t = d := by
  induction t generalizing k with
  | nil => rfl
  | cons e t ih =>
    obtain ⟨j, b⟩ := e
    simp only [risingFrom, Bool.and_eq_true, decide_eq_true_eq] at h
    have hk : j ≠ k := by omega
    simp only [tget, hk, if_false]
    exact ih (risingFrom_mono t (Nat.le_of_lt h.1) h.2)

theorem risingFrom_tins {m k : Nat} (a : α) (t : Tab α) (h : risingFrom m t = true) (hk : m < k) : risingFrom m (tins k a t) = true := by
  induction t generalizing m with
  | nil => simp [tins, risingFrom, hk]
  | cons e t ih =>
    obtain ⟨j, b⟩ := e
    simp only [risingFrom, Bool.and_eq_true, decide_eq_true_eq] at h
    unfold tins
    split
    · rename_i hj; simp only [risingFrom, Bool.and_eq_true, decide_eq_true_eq]; exact ⟨hk, hj, h.2⟩
    · split
      · rename_i hj; subst hj; simp only [risingFrom, Bool.and_eq_true, decide_eq_true_eq]; exact ⟨hk, h.2⟩
      · simp only [risingFrom, Bool.and_eq_true, decide_eq_true_eq]; exact ⟨h.1, ih h.2 (by omega)⟩

theorem risingFrom_tdel {m k : Nat} (t : Tab α) (h : risingFrom m t = true) : risingFrom m (tdel k t) = true := by
  induction t generalizing m with
  | nil => rfl
  | cons e t ih =>
    obtain ⟨j, b⟩ := e
    simp only [risingFrom, Bool.and_eq_true, decide_eq_true_eq] at h
    unfold tdel
    split
    · exact risingFrom_mono t (Nat.le_of_lt h.1) h.2
    · simp only [risingFrom, Bool.and_eq_true, decide_eq_true_eq]; exact ⟨h.1, ih h.2⟩

/-- A write keeps the keys rising. -/
theorem rising_tput [DecidableEq α] (d : α) (k : Nat) (a : α) (t : Tab α) (h : rising t = true) : rising (tput d k a t) = true := by
  cases t with
  | nil => unfold tput; split <;> rfl
  | cons e t =>
    obtain ⟨j, b⟩ := e
    simp only [rising] at h
    unfold tput
    split
    · unfold tdel
      split
      · cases t with
        | nil => rfl
        | cons f t => simp only [risingFrom, Bool.and_eq_true] at h; exact h.2
      · exact risingFrom_tdel t h
    · unfold tins
      split
      · rename_i hj; simp only [rising, risingFrom, Bool.and_eq_true, decide_eq_true_eq]; exact ⟨hj, h⟩
      · split
        · rename_i hj; subst hj; exact h
        · exact risingFrom_tins a t h (by omega)

theorem mem_tins {k : Nat} {a : α} {t : Tab α} {e : Nat × α} (h : e ∈ tins k a t) : e = (k, a) ∨ e ∈ t := by
  induction t with
  | nil => simpa [tins] using h
  | cons f t ih =>
    obtain ⟨j, b⟩ := f
    unfold tins at h
    split at h
    · simpa using h
    · split at h
      · rcases List.mem_cons.1 h with h | h
        · exact .inl h
        · exact .inr (List.mem_cons_of_mem _ h)
      · rcases List.mem_cons.1 h with h | h
        · exact .inr (h ▸ List.mem_cons_self ..)
        · exact (ih h).imp_right (List.mem_cons_of_mem _)

theorem mem_tdel {k : Nat} {t : Tab α} {e : Nat × α} (h : e ∈ tdel k t) : e ∈ t := by
  induction t with
  | nil => exact h
  | cons f t ih =>
    obtain ⟨j, b⟩ := f
    unfold tdel at h
    split at h
    · exact List.mem_cons_of_mem _ h
    · rcases List.mem_cons.1 h with h | h
      · exact h ▸ List.mem_cons_self ..
      · exact List.mem_cons_of_mem _ (ih h)

/-- A key deleted from a table of rising keys reads as an unlisted one. -/
theorem tget_tdel (d : α) (k : Nat) (t : Tab α) (h : rising t = true) : tget d k (tdel k t) = d := by
  have hf : ∀ (t : Tab α) (m : Nat), risingFrom m t = true → tget d k (tdel k t) = d := by
    intro t
    induction t with
    | nil => intro _ _; rfl
    | cons e t ih =>
      intro m h
      obtain ⟨j, b⟩ := e
      simp only [risingFrom, Bool.and_eq_true, decide_eq_true_eq] at h
      unfold tdel
      split
      · rename_i hj; subst hj; exact tget_of_risingFrom d t h.2
      · rename_i hj; simp only [tget, hj, if_false]; exact ih j h.2
  cases t with
  | nil => rfl
  | cons e t =>
    obtain ⟨j, b⟩ := e
    simp only [rising] at h
    unfold tdel
    split
    · rename_i hj; subst hj; exact tget_of_risingFrom d t h
    · rename_i hj; simp only [tget, hj, if_false]; exact hf t j h

/-- In a table of rising keys a key reads as it was written. -/
theorem tget_tput [DecidableEq α] (d : α) (k : Nat) (a : α) (t : Tab α) (h : rising t = true) : tget d k (tput d k a t) = a := by
  unfold tput; split
  · rename_i ha; rw [ha]; exact tget_tdel d k t h
  · exact tget_tins d k a t

/-- A write keeps the canonical form. -/
theorem wf_tput [DecidableEq α] (d : α) (k : Nat) (a : α) (t : Tab α) (h : Tab.wf d t = true) : Tab.wf d (tput d k a t) = true := by
  unfold Tab.wf at *
  simp only [Bool.and_eq_true, List.all_eq_true] at *
  refine ⟨rising_tput d k a t h.1, fun e he => ?_⟩
  unfold tput at he
  split at he
  · exact h.2 e (mem_tdel he)
  · rename_i ha
    rcases mem_tins he with rfl | he
    · simpa using ha
    · exact h.2 e he

/-! ## The NVM -/

/-- A stored word keeps the canonical form of the NVM. -/
theorem nvmWf_nvmStore (w : Nat) (v : Word) (p : PstSt) (h : nvmWf p = true) : nvmWf (nvmStore w v p) = true := by
  unfold nvmWf nvmStore at *
  simp only [Bool.and_eq_true, List.all_eq_true] at *
  refine ⟨rising_tput _ w v p.words h.1, fun e he => ?_⟩
  unfold tput at he
  split at he
  · exact h.2 e (mem_tdel he)
  · rename_i ha
    rcases mem_tins he with rfl | he
    · simpa using ha
    · exact h.2 e he

/-- A word left failing its check keeps the canonical form of the NVM. -/
theorem nvmWf_nvmTear (w : Nat) (p : PstSt) (h : nvmWf p = true) : nvmWf (nvmTear w p) = true := h

/-- Storing a word leaves every other word. -/
theorem nvmWord?_nvmStore_ne {w a : Nat} (v : Word) (p : PstSt) (h : a ≠ w) : nvmWord? (nvmStore w v p) a = nvmWord? p a := by
  unfold nvmWord? nvmStore
  simp only [tget_tput_ne _ _ _ _ h]

/-! ## What publishing adds -/

/-- What an update adds to what left the part is a memory write or an interrupt message. -/
def OnlyShows (s u : State) : Prop := ∀ o ∈ u.out, o ∈ s.out ∨ (∃ a d, o = .hostWrite a d) ∨ ∃ v a d, o = .msix v a d

theorem onlyShows_vecSend (v : Nat) (s : State) : OnlyShows s (vecSend v s) := by
  intro o h
  unfold vecSend at h
  split at h
  · exact .inl h
  · rcases List.mem_append.1 h with h | h
    · exact .inl h
    · exact .inr (.inr ⟨_, _, _, List.mem_singleton.1 h⟩)

theorem OnlyShows.trans {s t u : State} (h : OnlyShows s t) (k : OnlyShows t u) : OnlyShows s u := fun o ho => by
  rcases k o ho with k | k
  · exact h o k
  · exact .inr k

theorem onlyShows_sendFiring (s : State) : OnlyShows s (sendFiring s) := by
  have h : ∀ (l : List Nat) (s : State), OnlyShows s (l.foldl (fun s v => vecSend v s) s) := by
    intro l
    induction l with
    | nil => exact fun _ _ h => .inl h
    | cons v l ih => exact fun s => (onlyShows_vecSend v s).trans (ih _)
  unfold sendFiring
  exact fun o ho => h s.hre.firing { s with hre := { s.hre with firing := [] } } o ho

/-- Publishing sends no frame, claim, probe or character. -/
theorem onlyShows_publish (s : State) : OnlyShows s (publish s) := by
  unfold publish
  split
  · exact fun _ h => .inl h
  split
  · exact onlyShows_sendFiring s
  split
  · exact onlyShows_sendFiring s
  split
  · exact fun _ h => .inl h
  · refine OnlyShows.trans ?_ (onlyShows_sendFiring _)
    intro o h
    unfold hostWrite at h
    split at h
    · rcases List.mem_append.1 h with h | h
      · exact .inl h
      · exact .inr (.inl ⟨_, _, List.mem_singleton.1 h⟩)
    · exact .inl h

/-! ## The letterbox device area -/

/-- Sending the messages that wait changes what left the part and the pending bits, and leaves none waiting. -/
theorem sendFiring_eq (s : State) : ∃ o p, sendFiring s = { s with out := o, hre := { s.hre with firing := [], vecPend := p } } := by
  have hv : ∀ (v : Nat) (s : State), ∃ o p, vecSend v s = { s with out := o, hre := { s.hre with vecPend := p } } := by
    intro v s
    unfold vecSend
    split
    · exact ⟨s.out, _, rfl⟩
    · exact ⟨_, s.hre.vecPend, rfl⟩
  have hf : ∀ (l : List Nat) (s : State), ∃ o p, l.foldl (fun s v => vecSend v s) s = { s with out := o, hre := { s.hre with vecPend := p } } := by
    intro l
    induction l with
    | nil => exact fun s => ⟨s.out, s.hre.vecPend, rfl⟩
    | cons v l ih =>
      intro s
      obtain ⟨o, p, h⟩ := hv v s
      obtain ⟨o', p', h'⟩ := ih (vecSend v s)
      exact ⟨o', p', by rw [List.foldl_cons, h', h]⟩
  obtain ⟨o, p, h⟩ := hf s.hre.firing { s with hre := { s.hre with firing := [] } }
  exact ⟨o, p, by unfold sendFiring; rw [h]⟩

/-- Whatever the state, once it is published what the host sees is current. -/
theorem areaCurrent_publish (s : State) : AreaCurrent (publish s) := by
  unfold publish
  split
  · rename_i h
    intro hc
    simp [hc] at h
  split
  · rename_i h
    obtain ⟨o, p, e⟩ := sendFiring_eq s
    rw [e]
    intro _ hr
    exact absurd (show hreRun s = true from hr) (by simpa using h)
  split
  · rename_i h
    obtain ⟨o, p, e⟩ := sendFiring_eq s
    rw [e]
    exact fun _ _ => .inl ⟨h, rfl⟩
  split
  · rename_i h
    intro _ _
    right
    simp only [bne_iff_ne, Bool.and_eq_true, decide_eq_true_eq] at h
    exact h
  · obtain ⟨o, p, e⟩ := sendFiring_eq (hostWrite (reg64 s 0xC008 + 0x800) (wordsBytes ((s.hre.devSeq + 1) :: devArea s))
      { s with hre := { s.hre with devSeq := s.hre.devSeq + 1, devImage := devArea s, devAt := s.now } })
    dsimp only
    rw [e]
    intro _ _
    left
    unfold hostWrite
    split <;> exact ⟨rfl, rfl⟩

end Sys2Proof.Laws
end

