-- ==== Sys2Proof/Laws/Ops.lean ====
section
/-!
SUPPORT. Laws/Ops.lean: for each shared operation, once, everything it can change: `f s` is `shown s (f s)` or one of its kin of Safety.lean, and so every
field those keep is the field of s.
-/
namespace Sys2Proof.Laws
open Sys2Proof.Machine

/-- A message of a vector changes what left the part and the pending bits. -/
theorem vecSend_frame (v : Nat) (s : State) : vecSend v s = shown s (vecSend v s) := by
  unfold vecSend shown; split <;> rfl

/-- A write of the HRE only adds to what left the part. -/
theorem hostWrite_frame (a : Nat) (d : List Byte) (s : State) : hostWrite a d s = { s with out := (hostWrite a d s).out } := by
  unfold hostWrite; split <;> rfl

/-- Frames compose. -/
theorem shown_shown (s t u : State) : shown (shown s t) u = shown s u := by
  unfold shown; rfl

/-- The vectors' messages change nothing else. -/
theorem foldl_shown (f : State → Nat → State) (h : ∀ s v, f s v = shown s (f s v)) (l : List Nat) (s : State) :
    l.foldl f s = shown s (l.foldl f s) := by
  induction l generalizing s with
  | nil => rfl
  | cons v l ih =>
    rw [List.foldl_cons, ih (f s v)]
    generalize List.foldl f (f s v) l = u
    rw [h s v]
    rfl

/-- The vectors that fired are sent; nothing else changes. -/
theorem sendFiring_frame (s : State) : sendFiring s = shown s (sendFiring s) := by
  unfold sendFiring
  rw [foldl_shown _ (fun s v => vecSend_frame v s)]
  rfl

/-- Publishing changes nothing but what is shown. -/
theorem publish_frame (s : State) : publish s = shown s (publish s) := by
  unfold publish
  split
  · rfl
  · split
    · exact sendFiring_frame s
    · split
      · exact sendFiring_frame s
      · split
        · rfl
        · rw [sendFiring_frame, hostWrite_frame]
          rfl

/-! ## Counting and reporting -/

/-- Two frames of reports in a row are one. -/
theorem reported_trans {s t u : State} (h : t = reported s t) (k : u = reported t u) : u = reported s u :=
  calc u = reported t u := k
    _ = reported (reported s t) u := by rw [← h]
    _ = reported s u := by unfold reported shown; rfl

/-- What publishing changes is a report. -/
theorem reported_of_shown {s t : State} (h : t = shown s t) : t = reported s t := by
  rw [h]; unfold reported shown; rfl

/-- A counter. -/
theorem bumpBy_frame (o n : Nat) (s : State) : bumpBy o n s = reported s (bumpBy o n s) := by
  unfold bumpBy reported shown; rfl

/-- A counter, by one. -/
theorem bump_frame (o : Nat) (s : State) : bump o s = reported s (bump o s) := bumpBy_frame o 1 s

/-- A highest counter. -/
theorem bumpMax_frame (o v : Nat) (s : State) : bumpMax o v s = reported s (bumpMax o v s) := by
  unfold bumpMax reported shown; rfl

/-- A counter of a halfword. -/
theorem bumpHalf_frame (o : Nat) (h : Bool) (s : State) : bumpHalf o h s = reported s (bumpHalf o h s) := by
  unfold bumpHalf reported shown; rfl

/-- An event sent to the recorder changes only its inbox, and nothing while AON is lost. -/
theorem noteEv_frame (e : EvIn) (s : State) : noteEv e s = reported s (noteEv e s) := by
  unfold noteEv reported shown; split <;> rfl

/-- An event with its parameters. -/
theorem note_frame (code : Nat) (d : Dom) (b : Nat) (p0 p1 p2 : Word) (s : State) :
    note code d b p0 p1 p2 s = reported s (note code d b p0 p1 p2 s) := noteEv_frame _ s

/-- An item of a vector. -/
theorem vecItem_frame (v : Nat) (s : State) : vecItem v s = reported s (vecItem v s) := by
  unfold vecItem vecFire reported shown
  split
  · rfl
  · dsimp only
    split <;> rfl

/-- A write of the HRE is a report. -/
theorem hostWrite_reported (a : Nat) (d : List Byte) (s : State) : hostWrite a d s = reported s (hostWrite a d s) := by
  unfold hostWrite reported shown; split <;> rfl

/-- A discarded register write. -/
theorem hreDiscard_frame (s : State) : hreDiscard s = reported s (hreDiscard s) := by
  unfold hreDiscard
  split
  · exact reported_trans (bump_frame _ s) (vecItem_frame _ _)
  · rfl

/-- A DMA error. -/
theorem dmaError_frame (r a : Nat) (s : State) : dmaError r a s = reported s (dmaError r a s) :=
  reported_trans (reported_trans (bump_frame _ s) (note_frame ..)) (vecItem_frame _ _)

/-! ## The examination and completion of host commands -/

/-- Two frames of answers in a row are one. -/
theorem answered_trans {s t u : State} (h : t = answered s t) (k : u = answered t u) : u = answered s u :=
  calc u = answered t u := k
    _ = answered (answered s t) u := by rw [← h]
    _ = answered s u := by unfold answered reported shown; rfl

/-- A report is within what an answer may change. -/
theorem answered_of_reported {s t : State} (h : t = reported s t) : t = answered s t := by
  rw [h]; unfold answered reported shown; rfl

/-- Nothing changed. -/
theorem answered_refl (s : State) : s = answered s s := by
  unfold answered reported shown; rfl

/-- A store whose count of C_res commits stands is as it was. -/
theorem reserved_self (p : PstSt) : reserved p p = p := by
  unfold reserved; rw [if_pos rfl]

/-- A commit of the reserve, taken again. -/
theorem reserved_reserved (p q : PstSt) : reserved p (reserved p q) = reserved p q := by
  by_cases h : q.cresK = p.cresK
  · have e : reserved p q = p := if_pos h
    rw [e]; exact reserved_self p
  · have e : reserved p q = cresStored q.cres p := if_neg h
    rw [e]
    exact if_neg (by show p.cresK + 1 ≠ p.cresK; omega)

/-- A command's frame, an answer after it. -/
theorem commanded_answered {s t u : State} (h : t = commanded s t) (k : u = answered t u) : u = commanded s u := by
  have e : u.pst = t.pst := by rw [k]; rfl
  have f : u.sec = t.sec := by rw [k]; rfl
  calc u = answered t u := k
    _ = answered (commanded s t) u := by rw [← h]
    _ = commanded s u := by unfold commanded; rw [e, f]; unfold answered reported shown; rfl

/-- An answer is within what a command may change. -/
theorem commanded_of_answered {s t : State} (h : t = answered s t) : t = commanded s t := by
  have e : t.pst = s.pst := by rw [h]; rfl
  have f : t.sec = s.sec := by rw [h]; rfl
  unfold commanded
  rw [e, f, reserved_self]
  exact h

/-- An answer, a command's frame after it. -/
theorem answered_commanded {s t u : State} (h : t = answered s t) (k : u = commanded t u) : u = commanded s u := by
  have e : t.pst = s.pst := by rw [h]; rfl
  have f : t.sec = s.sec := by rw [h]; rfl
  calc u = commanded t u := k
    _ = { answered t u with sec := { s.sec with cLast := u.sec.cLast }, pst := reserved s.pst u.pst } := by unfold commanded; rw [e, f]
    _ = { answered (answered s t) u with sec := { s.sec with cLast := u.sec.cLast }, pst := reserved s.pst u.pst } := by rw [← h]
    _ = commanded s u := by unfold commanded answered reported shown; rfl

/-- A report is within what a command may change. -/
theorem commanded_of_reported {s t : State} (h : t = reported s t) : t = commanded s t := commanded_of_answered (answered_of_reported h)

/-- Nothing changed. -/
theorem commanded_refl (s : State) : s = commanded s s := commanded_of_answered (answered_refl s)

/-- The instant set. -/
theorem atTime_frame (t : Int) (s : State) : atTime t s = answered s (atTime t s) := by
  unfold atTime answered reported shown; rfl

/-- The descriptor taken from CMD. -/
theorem takeCmd_frame (c : HostCmd) (s : State) : takeCmd c s = answered s (takeCmd c s) := by
  unfold takeCmd answered reported shown; rfl

/-! ## The store (R318, R412, R418) -/

/-- A page write counted leaves the words. -/
@[simp] theorem gaugeUp_words (g : Nat) (p : PstSt) : (gaugeUp g p).words = p.words := rfl
/-- A page write counted leaves which words fail their check. -/
@[simp] theorem gaugeUp_bad (g : Nat) (p : PstSt) : (gaugeUp g p).bad = p.bad := rfl
/-- A page write counted leaves the queue. -/
@[simp] theorem gaugeUp_wq (g : Nat) (p : PstSt) : (gaugeUp g p).wq = p.wq := rfl
/-- A C_res commit leaves the queue. -/
@[simp] theorem cresStored_wq (v : Nat) (p : PstSt) : (cresStored v p).wq = p.wq := rfl
/-- A C_res commit is counted. -/
@[simp] theorem cresStored_cresK (v : Nat) (p : PstSt) : (cresStored v p).cresK = p.cresK + 1 := rfl
/-- A C_res commit keeps its value. -/
@[simp] theorem cresStored_cres (v : Nat) (p : PstSt) : (cresStored v p).cres = v := rfl

/-- A C_res commit leaves every word but word 63 of its page. -/
theorem nvmWord?_cresStored {v a : Nat} (p : PstSt) (h : a % 64 ≠ 63) : nvmWord? (cresStored v p) a = nvmWord? p a := by
  have h2 : a ≠ 64 * cresPage p + 63 := by omega
  exact nvmWord?_nvmStore_ne _ p h2

/-- A register word reads the same after a C_res commit. -/
theorem nvmRead_cresStored {v a : Nat} (p : PstSt) (h : a % 64 ≠ 63) : nvmRead (cresStored v p) a = nvmRead p a := by
  unfold nvmRead nvmWord
  rw [nvmWord?_cresStored p h, cresStored_wq]

/-- A register word lies in one of the first 56 words of its page (R460). -/
theorem pregWord_mod (o : Nat) : pregWord o % 64 ≠ 63 := by
  unfold pregWord; omega

/-- A gauge's notices are reports. -/
theorem gaugeNote_frame (page g : Nat) (s : State) : gaugeNote page g s = reported s (gaugeNote page g s) := by
  unfold gaugeNote
  split
  · exact note_frame ..
  split
  · exact note_frame ..
  · unfold reported shown; rfl

/-- The command-counter reserve. -/
theorem commitCres_frame (v : Nat) (s : State) : commitCres v s = commanded s (commitCres v s) := by
  have h := gaugeNote_frame (cresPage s.pst) (gaugeOf s.pst (cresPage s.pst) + 1) { s with pst := cresStored (min v 4294967295) s.pst }
  have hk : commitCres v s = gaugeNote (cresPage s.pst) (gaugeOf s.pst (cresPage s.pst) + 1) { s with pst := cresStored (min v 4294967295) s.pst } := rfl
  rw [hk]
  generalize gaugeNote (cresPage s.pst) (gaugeOf s.pst (cresPage s.pst) + 1) { s with pst := cresStored (min v 4294967295) s.pst } = u at h
  have hp : u.pst = cresStored (min v 4294967295) s.pst := by rw [h]; rfl
  have hs : u.sec = s.sec := by rw [h]; rfl
  have hr : reserved s.pst u.pst = cresStored (min v 4294967295) s.pst := by
    unfold reserved
    rw [hp, cresStored_cresK, if_neg (by omega), cresStored_cres]
  unfold commanded
  rw [hr, hs]
  rw [h]
  unfold answered reported shown
  rfl

/-- A franked command refused. -/
theorem frankRefused_frame (op : Nat) (c : HostCmd) (k : Nat) (s : State) : frankRefused op c k s = reported s (frankRefused op c k s) :=
  reported_trans (bump_frame _ s) (note_frame ..)

/-- Checks 6 to 8. -/
theorem secChecks_frame (op : Nat) (c : HostCmd) (s : State) : (secChecks op c s).2 = commanded s (secChecks op c s).2 := by
  have hb : bump 0x11C00 s = reported s (bump 0x11C00 s) := bump_frame _ s
  have hf : ∀ k, frankRefused op c k (bump 0x11C00 s) = commanded s (frankRefused op c k (bump 0x11C00 s)) := fun k =>
    commanded_of_reported (reported_trans (bump_frame _ s) (frankRefused_frame ..))
  have hs : ∀ u : State, u = commanded s u → { u with sec := { u.sec with cLast := c.ccount.toNat } } =
      commanded s { u with sec := { u.sec with cLast := c.ccount.toNat } } := fun u hu => by
    have e : { u with sec := { u.sec with cLast := c.ccount.toNat } }
        = { commanded s u with sec := { (commanded s u).sec with cLast := c.ccount.toNat } } := by rw [← hu]
    exact e
  unfold secChecks
  generalize bump 0x11C00 s = b at hb hf
  dsimp only
  split
  · exact commanded_refl s
  split
  · exact commanded_refl s
  split
  · exact commanded_of_reported hb
  split
  · exact hf 7
  split
  · exact hf 8
  · split
    · exact hs _ (answered_commanded (answered_of_reported hb) (commitCres_frame ..))
    · exact hs _ (commanded_of_reported hb)

/-- What an examination answers when it does not reach the Security Core is its own state (R317). -/
theorem examine_cases (op : Nat) (c : HostCmd) (s : State) : (examine op c s).2 = s ∨ examine op c s = secChecks op c s := by
  unfold examine
  by_cases h1 : (!opcodeList.contains op) = true
  · rw [if_pos h1]; exact .inl rfl
  rw [if_neg h1]
  by_cases h2 : (!argsOk op c || !argsAt s op c) = true
  · rw [if_pos h2]; exact .inl rfl
  rw [if_neg h2]
  by_cases h3 : (s.bsc.power == .safehalt && !safehaltOps.contains op) = true
  · rw [if_pos h3]; exact .inl rfl
  rw [if_neg h3]
  by_cases h4 : (decide (s.sec.lifecycle = 5) && !decommissionedOps.contains op || !levelOk s op c) = true
  · rw [if_pos h4]; exact .inl rfl
  rw [if_neg h4]
  exact .inr rfl

/-- The examination of a command. -/
theorem examine_frame (op : Nat) (c : HostCmd) (s : State) : (examine op c s).2 = commanded s (examine op c s).2 := by
  rcases examine_cases op c s with h | h
  · rw [h]; exact commanded_refl s
  · rw [h]; exact secChecks_frame op c s

/-- A completion descriptor. -/
theorem cplWrite_frame (ws : List Word) (s : State) : cplWrite ws s = answered s (cplWrite ws s) := by
  unfold cplWrite
  refine answered_trans ?_ (answered_of_reported (vecItem_frame _ _))
  rw [hostWrite_frame]
  unfold answered reported shown; rfl

/-- A completion that falls due, written or held. -/
theorem cplEmit_frame (o : OutCmd) (st : Nat) (r0 r1 : Word) (lx ly : Bool) (s : State) :
    cplEmit o st r0 r1 lx ly s = answered s (cplEmit o st r0 r1 lx ly s) := by
  unfold cplEmit
  dsimp only
  refine answered_trans (answered_of_reported (bump_frame (0xCC10 + 4 * statusIndex st) s)) ?_
  split
  · exact cplWrite_frame _ _
  · generalize bump (0xCC10 + 4 * statusIndex st) s = b
    split
    · unfold answered reported shown; rfl
    · refine answered_trans ?_ (answered_of_reported (note_frame ..))
      unfold answered reported shown; rfl

/-- A command completed at its examination. -/
theorem finishNow_frame (c : HostCmd) (op st : Nat) (r0 r1 : Word) (s : State) :
    finishNow c op st r0 r1 s = answered s (finishNow c op st r0 r1 s) := cplEmit_frame ..

/-- A command refused by its own conditions. -/
theorem refuse_frame (op : Nat) (c : HostCmd) (st : Nat) (s : State) : refuse op c st s = answered s (refuse op c st s) :=
  cplEmit_frame ..

/-- A command accepted. -/
theorem accept_frame (c : HostCmd) (op : Nat) (s : State) : accept c op s = answered s (accept c op s) := by
  unfold accept answered reported shown; rfl

/-- An outstanding command removed. -/
theorem outDrop_frame (id : Nat) (s : State) : outDrop id s = answered s (outDrop id s) := by
  unfold outDrop answered reported shown; rfl

/-- An outstanding command completed. -/
theorem finish_frame (id st : Nat) (r0 r1 : Word) (s : State) : finish id st r0 r1 s = answered s (finish id st r0 r1 s) := by
  unfold finish
  split
  · exact answered_refl s
  · exact answered_trans (outDrop_frame id s) (cplEmit_frame ..)

/-- A command delivered to the lanes completed. -/
theorem finishLanes_frame (id : Nat) (x y : Option LaneResult) (s : State) : finishLanes id x y s = answered s (finishLanes id x y s) := by
  unfold finishLanes
  split
  · exact answered_refl s
  · dsimp only
    refine answered_trans ?_ (cplEmit_frame ..)
    split
    · split
      · exact outDrop_frame id s
      · exact answered_trans (outDrop_frame id s) (answered_of_reported (note_frame ..))
    · exact outDrop_frame id s

/-- What a command's own effect finds after its examination, and what a refused one leaves: nothing but what a command may change. -/
theorem taken_frame (op : Nat) (c : HostCmd) (s : State) :
    (examine op c (takeCmd c (atTime c.t s))).2 = commanded s (examine op c (takeCmd c (atTime c.t s))).2 :=
  answered_commanded (answered_trans (atTime_frame c.t s) (takeCmd_frame c (atTime c.t s))) (examine_frame ..)

/-- A host command that passes has its effect on the state as examined, which is then published. -/
theorem hostCommand_passes {op : Nat} {eff : HostCmd → State → State} {c : HostCmd} {s : State} (h : Passes op c s) :
    hostCommand op eff c s = .next (publish (eff c (examine op c (takeCmd c (atTime c.t s))).2)) := by
  unfold hostCommand runCommand settle
  obtain ⟨h1, h2⟩ := h
  rcases hx : examine op c (takeCmd c (atTime c.t s)) with ⟨r, u⟩
  rw [hx] at h2
  dsimp only at h2
  subst h2
  simp [h1]

/-- A host command that fails a check completes with that check's status. -/
theorem hostCommand_fails {op : Nat} {eff : HostCmd → State → State} {c : HostCmd} {st : Nat} {s : State} (h : Fails op c st s) :
    hostCommand op eff c s
      = .next (publish (finishNow c op st 0 0 (examine op c (takeCmd c (atTime c.t s))).2)) := by
  unfold hostCommand runCommand settle
  obtain ⟨h1, h2⟩ := h
  rcases hx : examine op c (takeCmd c (atTime c.t s)) with ⟨r, u⟩
  rw [hx] at h2
  dsimp only at h2
  subst h2
  simp [h1]

/-! ## Publishing leaves every other field -/

/-- Sending a vector's message takes no time. -/
theorem vecSend_now (v : Nat) (s : State) : (vecSend v s).now = s.now := by
  unfold vecSend; split <;> rfl

/-- Sending the messages that wait takes no time. -/
theorem sendFiring_now (s : State) : (sendFiring s).now = s.now := by
  have h : ∀ (l : List Nat) (s : State), (l.foldl (fun s v => vecSend v s) s).now = s.now := by
    intro l
    induction l with
    | nil => intro s; rfl
    | cons v l ih => intro s; rw [List.foldl_cons, ih, vecSend_now]
  unfold sendFiring
  rw [h]

/-- Publishing takes no time. -/
@[simp] theorem publish_now (s : State) : (publish s).now = s.now := by
  unfold publish
  split
  · rfl
  split
  · exact sendFiring_now s
  split
  · exact sendFiring_now s
  split
  · rfl
  · rw [sendFiring_now, hostWrite_frame]

@[simp] theorem publish_pending (s : State) : (publish s).pending = s.pending := by rw [publish_frame]; rfl
@[simp] theorem publish_rdata (s : State) : (publish s).rdata = s.rdata := by rw [publish_frame]; rfl
@[simp] theorem publish_ctr (s : State) : (publish s).ctr = s.ctr := by rw [publish_frame]; rfl
@[simp] theorem publish_free (s : State) : (publish s).free = s.free := by rw [publish_frame]; rfl
@[simp] theorem publish_regs (s : State) : (publish s).regs = s.regs := by rw [publish_frame]; rfl
@[simp] theorem publish_dom (s : State) : (publish s).dom = s.dom := by rw [publish_frame]; rfl
@[simp] theorem publish_bsc (s : State) : (publish s).bsc = s.bsc := by rw [publish_frame]; rfl
@[simp] theorem publish_pst (s : State) : (publish s).pst = s.pst := by rw [publish_frame]; rfl
@[simp] theorem publish_erc (s : State) : (publish s).erc = s.erc := by rw [publish_frame]; rfl
@[simp] theorem publish_sec (s : State) : (publish s).sec = s.sec := by rw [publish_frame]; rfl
@[simp] theorem publish_hsc (s : State) : (publish s).hsc = s.hsc := by rw [publish_frame]; rfl
@[simp] theorem publish_stg (s : State) : (publish s).stg = s.stg := by rw [publish_frame]; rfl
@[simp] theorem publish_refs (s : State) : (publish s).refs = s.refs := by rw [publish_frame]; rfl
@[simp] theorem publish_clr (s : State) : (publish s).clr = s.clr := by rw [publish_frame]; rfl
@[simp] theorem publish_sin (s : State) : (publish s).sin = s.sin := by rw [publish_frame]; rfl
@[simp] theorem publish_phx (s : State) : (publish s).phx = s.phx := by rw [publish_frame]; rfl
@[simp] theorem publish_fch (s : State) : (publish s).fch = s.fch := by rw [publish_frame]; rfl
@[simp] theorem publish_fsync (s : State) : (publish s).fsync = s.fsync := by rw [publish_frame]; rfl
@[simp] theorem publish_hen (s : State) : (publish s).hen = s.hen := by rw [publish_frame]; rfl
@[simp] theorem publish_sld (s : State) : (publish s).sld = s.sld := by rw [publish_frame]; rfl
@[simp] theorem publish_lcm (s : State) : (publish s).lcm = s.lcm := by rw [publish_frame]; rfl
@[simp] theorem publish_convNote (s : State) : (publish s).convNote = s.convNote := by rw [publish_frame]; rfl
@[simp] theorem publish_rctq (s : State) : (publish s).rctq = s.rctq := by rw [publish_frame]; rfl
@[simp] theorem publish_lhf (s : State) : (publish s).lhf = s.lhf := by rw [publish_frame]; rfl
@[simp] theorem publish_cal (s : State) : (publish s).cal = s.cal := by rw [publish_frame]; rfl
@[simp] theorem publish_net (s : State) : (publish s).net = s.net := by rw [publish_frame]; rfl
@[simp] theorem publish_hre_cmdCons (s : State) : (publish s).hre.cmdCons = s.hre.cmdCons := by rw [publish_frame]; rfl
@[simp] theorem publish_hre_cmdProd (s : State) : (publish s).hre.cmdProd = s.hre.cmdProd := by rw [publish_frame]; rfl
@[simp] theorem publish_hre_cplProd (s : State) : (publish s).hre.cplProd = s.hre.cplProd := by rw [publish_frame]; rfl
@[simp] theorem publish_hre_cplCons (s : State) : (publish s).hre.cplCons = s.hre.cplCons := by rw [publish_frame]; rfl
@[simp] theorem publish_hre_evtProd (s : State) : (publish s).hre.evtProd = s.hre.evtProd := by rw [publish_frame]; rfl
@[simp] theorem publish_hre_evtCons (s : State) : (publish s).hre.evtCons = s.hre.evtCons := by rw [publish_frame]; rfl
@[simp] theorem publish_hre_rings (s : State) : (publish s).hre.rings = s.hre.rings := by rw [publish_frame]; rfl
@[simp] theorem publish_hre_vecCount (s : State) : (publish s).hre.vecCount = s.hre.vecCount := by rw [publish_frame]; rfl
@[simp] theorem publish_hre_vecAt (s : State) : (publish s).hre.vecAt = s.hre.vecAt := by rw [publish_frame]; rfl
@[simp] theorem publish_hre_out (s : State) : (publish s).hre.out = s.hre.out := by rw [publish_frame]; rfl
@[simp] theorem publish_hre_nextId (s : State) : (publish s).hre.nextId = s.hre.nextId := by rw [publish_frame]; rfl
@[simp] theorem publish_hre_orphans (s : State) : (publish s).hre.orphans = s.hre.orphans := by rw [publish_frame]; rfl
@[simp] theorem publish_hre_orphansOver (s : State) : (publish s).hre.orphansOver = s.hre.orphansOver := by rw [publish_frame]; rfl
@[simp] theorem publish_hre_orphansLost (s : State) : (publish s).hre.orphansLost = s.hre.orphansLost := by rw [publish_frame]; rfl
@[simp] theorem publish_hre_evtLost (s : State) : (publish s).hre.evtLost = s.hre.evtLost := by rw [publish_frame]; rfl
@[simp] theorem publish_hre_evtGap (s : State) : (publish s).hre.evtGap = s.hre.evtGap := by rw [publish_frame]; rfl
@[simp] theorem publish_hre_losses (s : State) : (publish s).hre.losses = s.hre.losses := by rw [publish_frame]; rfl
@[simp] theorem publish_hre_loss (s : State) : (publish s).hre.loss = s.hre.loss := by rw [publish_frame]; rfl
@[simp] theorem publish_hre_pollFails (s : State) : (publish s).hre.pollFails = s.hre.pollFails := by rw [publish_frame]; rfl
@[simp] theorem publish_hre_beat (s : State) : (publish s).hre.beat = s.hre.beat := by rw [publish_frame]; rfl
@[simp] theorem publish_hre_beatAt (s : State) : (publish s).hre.beatAt = s.hre.beatAt := by rw [publish_frame]; rfl
@[simp] theorem publish_hre_indexErr (s : State) : (publish s).hre.indexErr = s.hre.indexErr := by rw [publish_frame]; rfl
@[simp] theorem publish_hre_mirrorRound (s : State) : (publish s).hre.mirrorRound = s.hre.mirrorRound := by rw [publish_frame]; rfl
@[simp] theorem publish_hre_pollAt (s : State) : (publish s).hre.pollAt = s.hre.pollAt := by rw [publish_frame]; rfl
@[simp] theorem publish_hre_knock (s : State) : (publish s).hre.knock = s.hre.knock := by rw [publish_frame]; rfl
@[simp] theorem publish_hre_linkUp (s : State) : (publish s).hre.linkUp = s.hre.linkUp := by rw [publish_frame]; rfl
@[simp] theorem publish_hre_busMaster (s : State) : (publish s).hre.busMaster = s.hre.busMaster := by rw [publish_frame]; rfl
@[simp] theorem publish_hre_d3hot (s : State) : (publish s).hre.d3hot = s.hre.d3hot := by rw [publish_frame]; rfl
@[simp] theorem publish_hre_perst (s : State) : (publish s).hre.perst = s.hre.perst := by rw [publish_frame]; rfl
@[simp] theorem publish_hre_functionMask (s : State) : (publish s).hre.functionMask = s.hre.functionMask := by rw [publish_frame]; rfl
@[simp] theorem publish_hre_ecrcGen (s : State) : (publish s).hre.ecrcGen = s.hre.ecrcGen := by rw [publish_frame]; rfl
@[simp] theorem publish_hre_ecrcChk (s : State) : (publish s).hre.ecrcChk = s.hre.ecrcChk := by rw [publish_frame]; rfl
@[simp] theorem publish_hre_cfgReadyAt (s : State) : (publish s).hre.cfgReadyAt = s.hre.cfgReadyAt := by rw [publish_frame]; rfl
@[simp] theorem publish_hre_everRun (s : State) : (publish s).hre.everRun = s.hre.everRun := by rw [publish_frame]; rfl
@[simp] theorem publish_hre_evtHold (s : State) : (publish s).hre.evtHold = s.hre.evtHold := by rw [publish_frame]; rfl
@[simp] theorem publish_hre_mirror (s : State) : (publish s).hre.mirror = s.hre.mirror := by rw [publish_frame]; rfl

/-! ## What left the part stays; completions while the HRE runs -/

/-- Publishing only adds to what left the part. -/
theorem publish_out (s : State) : ∃ l, (publish s).out = s.out ++ l := by
  have hv : ∀ (v : Nat) (s : State), ∃ l, (vecSend v s).out = s.out ++ l := by
    intro v s
    unfold vecSend
    split
    · exact ⟨[], (List.append_nil _).symm⟩
    · exact ⟨_, rfl⟩
  have hf : ∀ (vs : List Nat) (s : State), ∃ l, (vs.foldl (fun s v => vecSend v s) s).out = s.out ++ l := by
    intro vs
    induction vs with
    | nil => intro s; exact ⟨[], (List.append_nil _).symm⟩
    | cons v vs ih =>
      intro s
      obtain ⟨a, ha⟩ := hv v s
      obtain ⟨b, hb⟩ := ih (vecSend v s)
      exact ⟨a ++ b, by rw [List.foldl_cons, hb, ha, List.append_assoc]⟩
  have hs : ∀ s : State, ∃ l, (sendFiring s).out = s.out ++ l := fun s => hf s.hre.firing _
  unfold publish
  split
  · exact ⟨[], (List.append_nil _).symm⟩
  split
  · exact hs s
  split
  · exact hs s
  split
  · exact ⟨[], (List.append_nil _).symm⟩
  · dsimp only
    obtain ⟨b, hb⟩ := hs (hostWrite (reg64 s 0xC008 + 0x800) (wordsBytes ((s.hre.devSeq + 1) :: devArea s))
      { s with hre := { s.hre with devSeq := s.hre.devSeq + 1, devImage := devArea s, devAt := s.now } })
    rw [hb]
    unfold hostWrite
    split
    · exact ⟨_, List.append_assoc ..⟩
    · exact ⟨b, rfl⟩

/-- What had left the part is still there after publishing. -/
theorem mem_publish_out {o : Out} {s : State} (h : o ∈ s.out) : o ∈ (publish s).out := by
  obtain ⟨l, hl⟩ := publish_out s
  rw [hl]
  exact List.mem_append_left _ h

/-- An item of a vector leaves what left the part. -/
theorem vecItem_out (v : Nat) (s : State) : (vecItem v s).out = s.out := by
  unfold vecItem vecFire
  split
  · rfl
  · dsimp only
    split <;> rfl

/-- A completion while the HRE runs: one descriptor at CPL's index, which advances. -/
theorem cplWrite_runs (ws : List Word) {s : State} (hr : hreRun s = true) (hc : hostCan s = true) :
    (cplWrite ws s).out = s.out ++ [.hostWrite (ringAddr s 1 s.hre.cplProd) (wordsBytes ws)]
      ∧ (cplWrite ws s).hre.cplProd = s.hre.cplProd + 1 ∧ (cplWrite ws s).hre.cmdCons = s.hre.cmdCons
      ∧ (cplWrite ws s).hre.out = s.hre.out ∧ (cplWrite ws s).hre.nextId = s.hre.nextId ∧ (cplWrite ws s).hre.orphans = s.hre.orphans := by
  unfold cplWrite
  dsimp only
  rw [vecItem_out, vecItem_frame]
  unfold hostWrite
  rw [hr, hc]
  exact ⟨rfl, rfl, rfl, rfl, rfl, rfl⟩

/-- A completion that falls due while the HRE runs. -/
theorem cplEmit_runs (o : OutCmd) (st : Nat) (r0 r1 : Word) (lx ly : Bool) {s : State} (hr : hreRun s = true) (hc : hostCan s = true) :
    (cplEmit o st r0 r1 lx ly s).out
        = s.out ++ [.hostWrite (ringAddr s 1 s.hre.cplProd) (wordsBytes (cplWords s o st r0 r1 lx ly))]
      ∧ (cplEmit o st r0 r1 lx ly s).hre.cplProd = s.hre.cplProd + 1 ∧ (cplEmit o st r0 r1 lx ly s).hre.cmdCons = s.hre.cmdCons
      ∧ (cplEmit o st r0 r1 lx ly s).hre.out = s.hre.out ∧ (cplEmit o st r0 r1 lx ly s).hre.nextId = s.hre.nextId
      ∧ (cplEmit o st r0 r1 lx ly s).hre.orphans = s.hre.orphans := by
  have h1 : hreRun (bump (0xCC10 + 4 * statusIndex st) s) = true := hr
  have h2 : hostCan (bump (0xCC10 + 4 * statusIndex st) s) = true := hc
  unfold cplEmit
  dsimp only
  rw [h1, h2]
  exact cplWrite_runs _ h1 h2

/-- Publishing leaves whether the HRE runs. -/
@[simp] theorem hreRun_publish (s : State) : hreRun (publish s) = hreRun s := by rw [publish_frame]; rfl

/-- What the examination of a command needs of the host. -/
theorem can_of_examinable {c : HostCmd} {s : State} (h : examinable c s = true) : hreRun s = true ∧ hostCan s = true := by
  unfold examinable canExamine at h
  simp only [Bool.and_eq_true] at h
  exact ⟨h.1.1.1.1.1.1.1.1, h.1.1.1.1.1.1.1.2⟩

/-- What the completion of a command at its examination reads is the same in two states. -/
structure SameForCpl (s v : State) : Prop where
  now : v.now = s.now
  regs : v.regs = s.regs
  read : ∀ w, w % 64 ≠ 63 → nvmRead v.pst w = nvmRead s.pst w
  dom : v.dom = s.dom
  bsc : v.bsc = s.bsc
  slots : v.sec.slots = s.sec.slots

/-- Equal to itself. -/
theorem SameForCpl.refl (s : State) : SameForCpl s s := ⟨rfl, rfl, fun _ _ => rfl, rfl, rfl, rfl⟩

/-- Two in a row. -/
theorem SameForCpl.trans {s t u : State} (h : SameForCpl s t) (k : SameForCpl t u) : SameForCpl s u :=
  ⟨k.now.trans h.now, k.regs.trans h.regs, fun w e => (k.read w e).trans (h.read w e), k.dom.trans h.dom, k.bsc.trans h.bsc,
    k.slots.trans h.slots⟩

/-- Register words read the same. -/
theorem SameForCpl.reg {s v : State} (h : SameForCpl s v) (o : Nat) : reg v o = reg s o := by
  unfold Machine.reg regStored
  rw [h.regs, h.read _ (pregWord_mod o)]

/-- The completion's words are the same. -/
theorem SameForCpl.cplWords {s v : State} (h : SameForCpl s v) (o : OutCmd) (st : Nat) (r0 r1 : Word) (lx ly : Bool) :
    cplWords v o st r0 r1 lx ly = cplWords s o st r0 r1 lx ly := by
  unfold Machine.cplWords aonUp active roundLo curRound roundNs regF cmdFrank slotOf
  rw [h.dom, h.bsc, h.slots, h.now, h.reg]

/-- The place of a descriptor is the same. -/
theorem SameForCpl.ringAddr {s v : State} (h : SameForCpl s v) (r : Nat) (i : Word) : ringAddr v r i = ringAddr s r i := by
  unfold Machine.ringAddr ringSize reg64 regF
  simp only [h.reg]

/-- Whether the HRE runs is the same. -/
theorem SameForCpl.hreRun {s v : State} (h : SameForCpl s v) : hreRun v = hreRun s := by
  unfold Machine.hreRun ringEn active
  rw [h.dom, h.reg, h.reg, h.reg, h.reg]

/-- An answer with the instant kept leaves what a completion reads. -/
theorem sameForCpl_of_answered {s t : State} (h : t = answered s t) (hn : t.now = s.now) : SameForCpl s t := by
  refine ⟨hn, ?_, fun w _ => ?_, ?_, ?_, ?_⟩ <;> rw [h] <;> rfl

/-- A command completed at its examination, on a state that still reads as the command's own for its completion. -/
theorem completed_of {op : Nat} {c : HostCmd} {st : Nat} {r0 r1 : Word} {s v : State} (h : SameForCpl (atTime c.t s) v)
    (hr : hreRun v = true) (hc : hostCan v = true) (hi : v.hre.cmdCons = c.index + 1) (hp : v.hre.cplProd = s.hre.cplProd)
    (ho : v.hre.out = s.hre.out) (hn : v.hre.nextId = s.hre.nextId) :
    Completed op c st r0 r1 s (publish (finishNow c op st r0 r1 v)) := by
  obtain ⟨e1, e2, e3, e4, e5, _⟩ := cplEmit_runs (outOf c op 0) st r0 r1 false false hr hc
  refine ⟨?_, ?_, ?_, ?_, mem_publish_out ?_⟩
  · rw [publish_hre_cmdCons]; exact e3.trans hi
  · rw [publish_hre_cplProd]; exact e2.trans (by rw [hp])
  · rw [publish_hre_out]; exact e4.trans ho
  · rw [publish_hre_nextId]; exact e5.trans hn
  · unfold finishNow completion
    rw [e1, h.cplWords, h.ringAddr, hp]
    exact List.mem_append_right _ (List.mem_singleton.2 rfl)

/-- An event takes no time. -/
theorem note_now (code : Nat) (d : Dom) (b : Nat) (p0 p1 p2 : Word) (s : State) : (note code d b p0 p1 p2 s).now = s.now := by
  unfold note noteEv; split <;> rfl

/-- An item of a vector takes no time. -/
theorem vecItem_now (v : Nat) (s : State) : (vecItem v s).now = s.now := by
  unfold vecItem vecFire
  split
  · rfl
  · dsimp only
    split <;> rfl

/-- A completion takes no time. -/
theorem cplEmit_now (o : OutCmd) (st : Nat) (r0 r1 : Word) (lx ly : Bool) (s : State) : (cplEmit o st r0 r1 lx ly s).now = s.now := by
  unfold cplEmit cplWrite hostWrite
  dsimp only
  split
  · rw [vecItem_now]
    split <;> rfl
  · split
    · rfl
    · rw [note_now]; rfl

/-- A C_res commit takes no time. -/
theorem commitCres_now (v : Nat) (s : State) : (commitCres v s).now = s.now := by
  unfold commitCres gaugeNote
  split
  · rw [note_now]
  split
  · rw [note_now]
  · rfl

/-- Checks 6 to 8 take no time. -/
theorem secChecks_now (op : Nat) (c : HostCmd) (s : State) : (secChecks op c s).2.now = s.now := by
  unfold secChecks frankRefused
  dsimp only
  split
  · rfl
  split
  · rfl
  split
  · rfl
  split
  · rw [note_now]; rfl
  split
  · rw [note_now]; rfl
  · split
    · exact commitCres_now ..
    · rfl

/-- The examination of a command takes no time. -/
theorem examine_now (op : Nat) (c : HostCmd) (s : State) : (examine op c s).2.now = s.now := by
  rcases examine_cases op c s with h | h
  · rw [h]
  · rw [h]; exact secChecks_now op c s

/-- What a command may change of the store leaves its register words. -/
theorem nvmRead_reserved (p q : PstSt) {w : Nat} (h : w % 64 ≠ 63) : nvmRead (reserved p q) w = nvmRead p w := by
  unfold reserved
  split
  · rfl
  · exact nvmRead_cresStored p h

/-- An examination leaves what a completion reads as it was. -/
theorem taken_same (op : Nat) (c : HostCmd) (s : State) :
    SameForCpl (atTime c.t s) (examine op c (takeCmd c (atTime c.t s))).2 := by
  have h := examine_frame op c (takeCmd c (atTime c.t s))
  have hn := examine_now op c (takeCmd c (atTime c.t s))
  generalize (examine op c (takeCmd c (atTime c.t s))).2 = u at h hn ⊢
  refine ⟨hn, ?_, fun w e => ?_, ?_, ?_, ?_⟩ <;> rw [h]
  · rfl
  · exact nvmRead_reserved _ _ e
  · rfl
  · rfl
  · rfl

/-- An event leaves the HRE. -/
theorem note_hre (code : Nat) (d : Dom) (b : Nat) (p0 p1 p2 : Word) (s : State) : (note code d b p0 p1 p2 s).hre = s.hre := by
  unfold note noteEv; split <;> rfl

/-- The checks leave the HRE. -/
theorem secChecks_hre (op : Nat) (c : HostCmd) (s : State) : (secChecks op c s).2.hre = s.hre := by
  unfold secChecks frankRefused commitCres gaugeNote
  dsimp only
  split
  · rfl
  split
  · rfl
  split
  · rfl
  split
  · rw [note_hre]; rfl
  split
  · rw [note_hre]; rfl
  · split
    · split
      · exact note_hre ..
      split
      · exact note_hre ..
      · rfl
    · rfl

/-- The examination leaves the HRE. -/
theorem examine_hre (op : Nat) (c : HostCmd) (s : State) : (examine op c s).2.hre = s.hre := by
  rcases examine_cases op c s with h | h
  · rw [h]
  · rw [h]; exact secChecks_hre op c s

/-- A class U command that passes leaves the Security Core and the store. -/
theorem examine_classU {op : Nat} (hF : classF op = false) (c : HostCmd) (s : State) : (examine op c s).2 = s := by
  rcases examine_cases op c s with h | h
  · exact h
  · rw [h]; unfold secChecks; rw [hF]; rfl

/-- What an examination tests of the host is as before it. -/
theorem taken_can {op : Nat} {c : HostCmd} {s : State} (h : examinable c (atTime c.t s) = true) :
    hreRun (examine op c (takeCmd c (atTime c.t s))).2 = true ∧ hostCan (examine op c (takeCmd c (atTime c.t s))).2 = true := by
  obtain ⟨h1, h2⟩ := can_of_examinable h
  refine ⟨(taken_same op c s).hreRun.trans h1, ?_⟩
  unfold hostCan active at h2 ⊢
  rw [(taken_same op c s).dom, examine_hre]
  exact h2

/-- A command completed at its examination by its own effect on the state as examined. -/
theorem completed_taken {op : Nat} {c : HostCmd} {st : Nat} {r0 r1 : Word} {s v : State} (h : examinable c (atTime c.t s) = true)
    (hs : SameForCpl (examine op c (takeCmd c (atTime c.t s))).2 v) (hh : v.hre = (examine op c (takeCmd c (atTime c.t s))).2.hre) :
    Completed op c st r0 r1 s (publish (finishNow c op st r0 r1 v)) := by
  obtain ⟨hr, hc⟩ := taken_can (op := op) h
  have hx := taken_same op c s
  have hH := examine_hre op c (takeCmd c (atTime c.t s))
  generalize (examine op c (takeCmd c (atTime c.t s))).2 = u at *
  refine completed_of (hx.trans hs) (hs.hreRun.trans hr) ?_ ?_ ?_ ?_ ?_
  · unfold hostCan active at hc ⊢
    rw [hs.dom, hh]; exact hc
  · rw [hh, hH]; rfl
  · rw [hh, hH]; rfl
  · rw [hh, hH]; rfl
  · rw [hh, hH]; rfl

/-- A frame during which the port's RPn_LOS did not rise is taken as it came (R465). -/
theorem heardRx_quiet {s : State} {f : FrameRx} (h : ∀ t, tget none f.port s.net.los = some t → t < f.t ∨ f.tEnd < t) : heardRx s f = f := by
  unfold heardRx
  cases hw : tget none f.port s.net.los with
  | none => simp
  | some t =>
    have : (decide (t < f.t) || decide (f.tEnd < t)) = true := by simpa using h t hw
    simp [this]

/-- A frame during which it rose has lost its code groups (R465, R484). -/
theorem heardRx_lost {s : State} {f : FrameRx} {t : Int} (h : tget none f.port s.net.los = some t) (h1 : f.t ≤ t) (h2 : t ≤ f.tEnd) :
    (heardRx s f).codeOk = false := by
  unfold heardRx
  simp [h]; omega

end Sys2Proof.Laws
end

