-- ==== Sys2Proof/Laws/Rom.lean ====
section
/-!
SUPPORT. Laws/Rom.lean: what the prototype's stand-in meets, so that the channeliser's prototype meets R77 whatever the opaque one is.
-/
namespace Sys2Proof.Laws
open Sys2Proof.Machine

/-- The stand-in meets what R77 states of the prototype. -/
theorem protoOk_plainProto : protoOk plainProto = true := by decide +kernel

/-- The prototype is the opaque one where that meets R77, else the stand-in. -/
theorem schH_eq : schH = if protoOk Config.schProto then Config.schProto else plainProto := by
  funext i
  unfold schH
  split <;> rfl

end Sys2Proof.Laws
end

