-- ==== Sys2Proof/Laws/Slates.lean ====
section
/-!
SUPPORT. Laws/Slates.lean: the stored form of a lane read back (R185), and the residue of a wrong result (R187).
-/
namespace Sys2Proof.Laws
open Sys2Proof.Machine

/-- Decoding the stored form of a word gives the word. -/
@[simp] theorem storedBits_storedBits {w : Nat} (l : Lane) (v : BitVec w) : storedBits l (storedBits l v) = v := by
  cases l
  · rfl
  · exact BitVec.not_not

/-- Decoding the stored form of a signed value gives the value. -/
@[simp] theorem storedInt_storedInt (l : Lane) (v : Int) : storedInt l (storedInt l v) = v := by
  cases l
  · rfl
  · show -(-v - 1) - 1 = v; omega

/-- Decoding the stored form of an unsigned value of w bits gives the value. -/
theorem storedNat_storedNat (l : Lane) {w n : Nat} (h : n < 2 ^ w) : storedNat l w (storedNat l w n) = n := by
  cases l
  · rfl
  · show 2 ^ w - 1 - (2 ^ w - 1 - n) = n; omega

/-- A step of a value is its lane's step of the stored form. -/
theorem storedInt_step (l : Lane) (v d : Int) : storedInt l (v + d) = storedInt l v + storedStep l d := by
  cases l
  · rfl
  · show -(v + d) - 1 = -v - 1 + -d; omega

/-- The residue check misses no error but a multiple of 3. -/
theorem resFails_iff (x err : Int) : resFails x err = true ↔ err % 3 ≠ 0 := by
  unfold resFails res
  rw [bne_iff_ne]
  omega

end Sys2Proof.Laws
end

