-- ==== Sys2Proof/Laws/State.lean ====
section
/-!
SUPPORT. Laws/State.lean: for each named update of the state one lemma for each field it leaves or sets, so that no proof unfolds a record update, and the
pairs of ports and lanes and the eight domains read back after a write.
-/
namespace Sys2Proof.Laws
open Sys2Proof.Machine

/-! ## Pairs and domains -/

@[simp] theorem port_setPort {α : Type} (t : Two α) (p : Port) (v : α) : (t.setPort p v).port p = v := by cases p <;> rfl
@[simp] theorem lane_setLane {α : Type} (t : Two α) (l : Lane) (v : α) : (t.setLane l v).lane l = v := by cases l <;> rfl
@[simp] theorem pol_setPol {α : Type} (t : Two α) (q : Pol) (v : α) : (t.setPol q v).pol q = v := by cases q <;> rfl
@[simp] theorem get_put (t : Doms) (d : Dom) (v : DomSt) : (t.put d v).get d = v := by cases d <;> rfl
theorem port_setPort_ne {α : Type} (t : Two α) {p q : Port} (v : α) (h : q ≠ p) : (t.setPort p v).port q = t.port q := by
  cases p <;> cases q <;> first | rfl | exact absurd rfl h
theorem lane_setLane_ne {α : Type} (t : Two α) {l m : Lane} (v : α) (h : m ≠ l) : (t.setLane l v).lane m = t.lane m := by
  cases l <;> cases m <;> first | rfl | exact absurd rfl h
theorem pol_setPol_ne {α : Type} (t : Two α) {p q : Pol} (v : α) (h : q ≠ p) : (t.setPol p v).pol q = t.pol q := by
  cases p <;> cases q <;> first | rfl | exact absurd rfl h
theorem get_put_ne (t : Doms) {d e : Dom} (v : DomSt) (h : e ≠ d) : (t.put d v).get e = t.get e := by
  cases d <;> cases e <;> first | rfl | exact absurd rfl h
@[simp] theorem setPort_port {α : Type} (t : Two α) (p : Port) : t.setPort p (t.port p) = t := by cases p <;> rfl
@[simp] theorem setLane_lane {α : Type} (t : Two α) (l : Lane) : t.setLane l (t.lane l) = t := by cases l <;> rfl
@[simp] theorem put_get (t : Doms) (d : Dom) : t.put d (t.get d) = t := by cases d <;> rfl
@[simp] theorem setPort_setPort {α : Type} (t : Two α) (p : Port) (v w : α) : (t.setPort p v).setPort p w = t.setPort p w := by cases p <;> rfl
@[simp] theorem setLane_setLane {α : Type} (t : Two α) (l : Lane) (v w : α) : (t.setLane l v).setLane l w = t.setLane l w := by cases l <;> rfl
@[simp] theorem put_put (t : Doms) (d : Dom) (v w : DomSt) : (t.put d v).put d w = t.put d w := by cases d <;> rfl
@[simp] theorem lane_setLane_other {α : Type} (t : Two α) (l : Lane) (v : α) : (t.setLane l v).lane l.other = t.lane l.other := by cases l <;> rfl

/-! ## atTime -/

@[simp] theorem atTime_pending (t : Int) (s : State) : (atTime t s).pending = s.pending := rfl
@[simp] theorem atTime_now (t : Int) (s : State) : (atTime t s).now = t := rfl
@[simp] theorem atTime_out (t : Int) (s : State) : (atTime t s).out = s.out := rfl
@[simp] theorem atTime_rdata (t : Int) (s : State) : (atTime t s).rdata = s.rdata := rfl
@[simp] theorem atTime_ctr (t : Int) (s : State) : (atTime t s).ctr = s.ctr := rfl
@[simp] theorem atTime_free (t : Int) (s : State) : (atTime t s).free = s.free := rfl
@[simp] theorem atTime_regs (t : Int) (s : State) : (atTime t s).regs = s.regs := rfl
@[simp] theorem atTime_dom (t : Int) (s : State) : (atTime t s).dom = s.dom := rfl
@[simp] theorem atTime_bsc (t : Int) (s : State) : (atTime t s).bsc = s.bsc := rfl
@[simp] theorem atTime_pst (t : Int) (s : State) : (atTime t s).pst = s.pst := rfl
@[simp] theorem atTime_erc (t : Int) (s : State) : (atTime t s).erc = s.erc := rfl
@[simp] theorem atTime_hre (t : Int) (s : State) : (atTime t s).hre = s.hre := rfl
@[simp] theorem atTime_sec (t : Int) (s : State) : (atTime t s).sec = s.sec := rfl
@[simp] theorem atTime_hsc (t : Int) (s : State) : (atTime t s).hsc = s.hsc := rfl
@[simp] theorem atTime_stg (t : Int) (s : State) : (atTime t s).stg = s.stg := rfl
@[simp] theorem atTime_refs (t : Int) (s : State) : (atTime t s).refs = s.refs := rfl
@[simp] theorem atTime_clr (t : Int) (s : State) : (atTime t s).clr = s.clr := rfl
@[simp] theorem atTime_sin (t : Int) (s : State) : (atTime t s).sin = s.sin := rfl
@[simp] theorem atTime_phx (t : Int) (s : State) : (atTime t s).phx = s.phx := rfl
@[simp] theorem atTime_fch (t : Int) (s : State) : (atTime t s).fch = s.fch := rfl
@[simp] theorem atTime_fsync (t : Int) (s : State) : (atTime t s).fsync = s.fsync := rfl
@[simp] theorem atTime_hen (t : Int) (s : State) : (atTime t s).hen = s.hen := rfl
@[simp] theorem atTime_sld (t : Int) (s : State) : (atTime t s).sld = s.sld := rfl
@[simp] theorem atTime_lcm (t : Int) (s : State) : (atTime t s).lcm = s.lcm := rfl
@[simp] theorem atTime_convNote (t : Int) (s : State) : (atTime t s).convNote = s.convNote := rfl
@[simp] theorem atTime_rctq (t : Int) (s : State) : (atTime t s).rctq = s.rctq := rfl
@[simp] theorem atTime_lhf (t : Int) (s : State) : (atTime t s).lhf = s.lhf := rfl
@[simp] theorem atTime_cal (t : Int) (s : State) : (atTime t s).cal = s.cal := rfl
@[simp] theorem atTime_net (t : Int) (s : State) : (atTime t s).net = s.net := rfl

/-! ## bumpBy -/

@[simp] theorem bumpBy_pending (o n : Nat) (s : State) : (bumpBy o n s).pending = s.pending := rfl
@[simp] theorem bumpBy_now (o n : Nat) (s : State) : (bumpBy o n s).now = s.now := rfl
@[simp] theorem bumpBy_clk (o n : Nat) (s : State) : (bumpBy o n s).clk = s.clk := rfl
@[simp] theorem bumpBy_out (o n : Nat) (s : State) : (bumpBy o n s).out = s.out := rfl
@[simp] theorem bumpBy_rdata (o n : Nat) (s : State) : (bumpBy o n s).rdata = s.rdata := rfl
@[simp] theorem bumpBy_free (o n : Nat) (s : State) : (bumpBy o n s).free = s.free := rfl
@[simp] theorem bumpBy_regs (o n : Nat) (s : State) : (bumpBy o n s).regs = s.regs := rfl
@[simp] theorem bumpBy_dom (o n : Nat) (s : State) : (bumpBy o n s).dom = s.dom := rfl
@[simp] theorem bumpBy_bsc (o n : Nat) (s : State) : (bumpBy o n s).bsc = s.bsc := rfl
@[simp] theorem bumpBy_pst (o n : Nat) (s : State) : (bumpBy o n s).pst = s.pst := rfl
@[simp] theorem bumpBy_erc (o n : Nat) (s : State) : (bumpBy o n s).erc = s.erc := rfl
@[simp] theorem bumpBy_hre (o n : Nat) (s : State) : (bumpBy o n s).hre = s.hre := rfl
@[simp] theorem bumpBy_sec (o n : Nat) (s : State) : (bumpBy o n s).sec = s.sec := rfl
@[simp] theorem bumpBy_hsc (o n : Nat) (s : State) : (bumpBy o n s).hsc = s.hsc := rfl
@[simp] theorem bumpBy_stg (o n : Nat) (s : State) : (bumpBy o n s).stg = s.stg := rfl
@[simp] theorem bumpBy_refs (o n : Nat) (s : State) : (bumpBy o n s).refs = s.refs := rfl
@[simp] theorem bumpBy_clr (o n : Nat) (s : State) : (bumpBy o n s).clr = s.clr := rfl
@[simp] theorem bumpBy_sin (o n : Nat) (s : State) : (bumpBy o n s).sin = s.sin := rfl
@[simp] theorem bumpBy_phx (o n : Nat) (s : State) : (bumpBy o n s).phx = s.phx := rfl
@[simp] theorem bumpBy_fch (o n : Nat) (s : State) : (bumpBy o n s).fch = s.fch := rfl
@[simp] theorem bumpBy_fsync (o n : Nat) (s : State) : (bumpBy o n s).fsync = s.fsync := rfl
@[simp] theorem bumpBy_hen (o n : Nat) (s : State) : (bumpBy o n s).hen = s.hen := rfl
@[simp] theorem bumpBy_sld (o n : Nat) (s : State) : (bumpBy o n s).sld = s.sld := rfl
@[simp] theorem bumpBy_lcm (o n : Nat) (s : State) : (bumpBy o n s).lcm = s.lcm := rfl
@[simp] theorem bumpBy_convNote (o n : Nat) (s : State) : (bumpBy o n s).convNote = s.convNote := rfl
@[simp] theorem bumpBy_rctq (o n : Nat) (s : State) : (bumpBy o n s).rctq = s.rctq := rfl
@[simp] theorem bumpBy_lhf (o n : Nat) (s : State) : (bumpBy o n s).lhf = s.lhf := rfl
@[simp] theorem bumpBy_cal (o n : Nat) (s : State) : (bumpBy o n s).cal = s.cal := rfl
@[simp] theorem bumpBy_net (o n : Nat) (s : State) : (bumpBy o n s).net = s.net := rfl

/-! ## bumpMax -/

@[simp] theorem bumpMax_pending (o v : Nat) (s : State) : (bumpMax o v s).pending = s.pending := rfl
@[simp] theorem bumpMax_now (o v : Nat) (s : State) : (bumpMax o v s).now = s.now := rfl
@[simp] theorem bumpMax_clk (o v : Nat) (s : State) : (bumpMax o v s).clk = s.clk := rfl
@[simp] theorem bumpMax_out (o v : Nat) (s : State) : (bumpMax o v s).out = s.out := rfl
@[simp] theorem bumpMax_rdata (o v : Nat) (s : State) : (bumpMax o v s).rdata = s.rdata := rfl
@[simp] theorem bumpMax_free (o v : Nat) (s : State) : (bumpMax o v s).free = s.free := rfl
@[simp] theorem bumpMax_regs (o v : Nat) (s : State) : (bumpMax o v s).regs = s.regs := rfl
@[simp] theorem bumpMax_dom (o v : Nat) (s : State) : (bumpMax o v s).dom = s.dom := rfl
@[simp] theorem bumpMax_bsc (o v : Nat) (s : State) : (bumpMax o v s).bsc = s.bsc := rfl
@[simp] theorem bumpMax_pst (o v : Nat) (s : State) : (bumpMax o v s).pst = s.pst := rfl
@[simp] theorem bumpMax_erc (o v : Nat) (s : State) : (bumpMax o v s).erc = s.erc := rfl
@[simp] theorem bumpMax_hre (o v : Nat) (s : State) : (bumpMax o v s).hre = s.hre := rfl
@[simp] theorem bumpMax_sec (o v : Nat) (s : State) : (bumpMax o v s).sec = s.sec := rfl
@[simp] theorem bumpMax_hsc (o v : Nat) (s : State) : (bumpMax o v s).hsc = s.hsc := rfl
@[simp] theorem bumpMax_stg (o v : Nat) (s : State) : (bumpMax o v s).stg = s.stg := rfl
@[simp] theorem bumpMax_refs (o v : Nat) (s : State) : (bumpMax o v s).refs = s.refs := rfl
@[simp] theorem bumpMax_clr (o v : Nat) (s : State) : (bumpMax o v s).clr = s.clr := rfl
@[simp] theorem bumpMax_sin (o v : Nat) (s : State) : (bumpMax o v s).sin = s.sin := rfl
@[simp] theorem bumpMax_phx (o v : Nat) (s : State) : (bumpMax o v s).phx = s.phx := rfl
@[simp] theorem bumpMax_fch (o v : Nat) (s : State) : (bumpMax o v s).fch = s.fch := rfl
@[simp] theorem bumpMax_fsync (o v : Nat) (s : State) : (bumpMax o v s).fsync = s.fsync := rfl
@[simp] theorem bumpMax_hen (o v : Nat) (s : State) : (bumpMax o v s).hen = s.hen := rfl
@[simp] theorem bumpMax_sld (o v : Nat) (s : State) : (bumpMax o v s).sld = s.sld := rfl
@[simp] theorem bumpMax_lcm (o v : Nat) (s : State) : (bumpMax o v s).lcm = s.lcm := rfl
@[simp] theorem bumpMax_convNote (o v : Nat) (s : State) : (bumpMax o v s).convNote = s.convNote := rfl
@[simp] theorem bumpMax_rctq (o v : Nat) (s : State) : (bumpMax o v s).rctq = s.rctq := rfl
@[simp] theorem bumpMax_lhf (o v : Nat) (s : State) : (bumpMax o v s).lhf = s.lhf := rfl
@[simp] theorem bumpMax_cal (o v : Nat) (s : State) : (bumpMax o v s).cal = s.cal := rfl
@[simp] theorem bumpMax_net (o v : Nat) (s : State) : (bumpMax o v s).net = s.net := rfl

/-! ## bumpHalf -/

@[simp] theorem bumpHalf_pending (o : Nat) (h : Bool) (s : State) : (bumpHalf o h s).pending = s.pending := rfl
@[simp] theorem bumpHalf_now (o : Nat) (h : Bool) (s : State) : (bumpHalf o h s).now = s.now := rfl
@[simp] theorem bumpHalf_clk (o : Nat) (h : Bool) (s : State) : (bumpHalf o h s).clk = s.clk := rfl
@[simp] theorem bumpHalf_out (o : Nat) (h : Bool) (s : State) : (bumpHalf o h s).out = s.out := rfl
@[simp] theorem bumpHalf_rdata (o : Nat) (h : Bool) (s : State) : (bumpHalf o h s).rdata = s.rdata := rfl
@[simp] theorem bumpHalf_free (o : Nat) (h : Bool) (s : State) : (bumpHalf o h s).free = s.free := rfl
@[simp] theorem bumpHalf_regs (o : Nat) (h : Bool) (s : State) : (bumpHalf o h s).regs = s.regs := rfl
@[simp] theorem bumpHalf_dom (o : Nat) (h : Bool) (s : State) : (bumpHalf o h s).dom = s.dom := rfl
@[simp] theorem bumpHalf_bsc (o : Nat) (h : Bool) (s : State) : (bumpHalf o h s).bsc = s.bsc := rfl
@[simp] theorem bumpHalf_pst (o : Nat) (h : Bool) (s : State) : (bumpHalf o h s).pst = s.pst := rfl
@[simp] theorem bumpHalf_erc (o : Nat) (h : Bool) (s : State) : (bumpHalf o h s).erc = s.erc := rfl
@[simp] theorem bumpHalf_hre (o : Nat) (h : Bool) (s : State) : (bumpHalf o h s).hre = s.hre := rfl
@[simp] theorem bumpHalf_sec (o : Nat) (h : Bool) (s : State) : (bumpHalf o h s).sec = s.sec := rfl
@[simp] theorem bumpHalf_hsc (o : Nat) (h : Bool) (s : State) : (bumpHalf o h s).hsc = s.hsc := rfl
@[simp] theorem bumpHalf_stg (o : Nat) (h : Bool) (s : State) : (bumpHalf o h s).stg = s.stg := rfl
@[simp] theorem bumpHalf_refs (o : Nat) (h : Bool) (s : State) : (bumpHalf o h s).refs = s.refs := rfl
@[simp] theorem bumpHalf_clr (o : Nat) (h : Bool) (s : State) : (bumpHalf o h s).clr = s.clr := rfl
@[simp] theorem bumpHalf_sin (o : Nat) (h : Bool) (s : State) : (bumpHalf o h s).sin = s.sin := rfl
@[simp] theorem bumpHalf_phx (o : Nat) (h : Bool) (s : State) : (bumpHalf o h s).phx = s.phx := rfl
@[simp] theorem bumpHalf_fch (o : Nat) (h : Bool) (s : State) : (bumpHalf o h s).fch = s.fch := rfl
@[simp] theorem bumpHalf_fsync (o : Nat) (h : Bool) (s : State) : (bumpHalf o h s).fsync = s.fsync := rfl
@[simp] theorem bumpHalf_hen (o : Nat) (h : Bool) (s : State) : (bumpHalf o h s).hen = s.hen := rfl
@[simp] theorem bumpHalf_sld (o : Nat) (h : Bool) (s : State) : (bumpHalf o h s).sld = s.sld := rfl
@[simp] theorem bumpHalf_lcm (o : Nat) (h : Bool) (s : State) : (bumpHalf o h s).lcm = s.lcm := rfl
@[simp] theorem bumpHalf_convNote (o : Nat) (h : Bool) (s : State) : (bumpHalf o h s).convNote = s.convNote := rfl
@[simp] theorem bumpHalf_rctq (o : Nat) (h : Bool) (s : State) : (bumpHalf o h s).rctq = s.rctq := rfl
@[simp] theorem bumpHalf_lhf (o : Nat) (h : Bool) (s : State) : (bumpHalf o h s).lhf = s.lhf := rfl
@[simp] theorem bumpHalf_cal (o : Nat) (h : Bool) (s : State) : (bumpHalf o h s).cal = s.cal := rfl
@[simp] theorem bumpHalf_net (o : Nat) (h : Bool) (s : State) : (bumpHalf o h s).net = s.net := rfl

/-! ## setRw -/

@[simp] theorem setRw_pending (o : Nat) (v : Word) (s : State) : (setRw o v s).pending = s.pending := rfl
@[simp] theorem setRw_now (o : Nat) (v : Word) (s : State) : (setRw o v s).now = s.now := rfl
@[simp] theorem setRw_clk (o : Nat) (v : Word) (s : State) : (setRw o v s).clk = s.clk := rfl
@[simp] theorem setRw_out (o : Nat) (v : Word) (s : State) : (setRw o v s).out = s.out := rfl
@[simp] theorem setRw_rdata (o : Nat) (v : Word) (s : State) : (setRw o v s).rdata = s.rdata := rfl
@[simp] theorem setRw_ctr (o : Nat) (v : Word) (s : State) : (setRw o v s).ctr = s.ctr := rfl
@[simp] theorem setRw_free (o : Nat) (v : Word) (s : State) : (setRw o v s).free = s.free := rfl
@[simp] theorem setRw_dom (o : Nat) (v : Word) (s : State) : (setRw o v s).dom = s.dom := rfl
@[simp] theorem setRw_bsc (o : Nat) (v : Word) (s : State) : (setRw o v s).bsc = s.bsc := rfl
@[simp] theorem setRw_pst (o : Nat) (v : Word) (s : State) : (setRw o v s).pst = s.pst := rfl
@[simp] theorem setRw_erc (o : Nat) (v : Word) (s : State) : (setRw o v s).erc = s.erc := rfl
@[simp] theorem setRw_hre (o : Nat) (v : Word) (s : State) : (setRw o v s).hre = s.hre := rfl
@[simp] theorem setRw_sec (o : Nat) (v : Word) (s : State) : (setRw o v s).sec = s.sec := rfl
@[simp] theorem setRw_hsc (o : Nat) (v : Word) (s : State) : (setRw o v s).hsc = s.hsc := rfl
@[simp] theorem setRw_stg (o : Nat) (v : Word) (s : State) : (setRw o v s).stg = s.stg := rfl
@[simp] theorem setRw_refs (o : Nat) (v : Word) (s : State) : (setRw o v s).refs = s.refs := rfl
@[simp] theorem setRw_clr (o : Nat) (v : Word) (s : State) : (setRw o v s).clr = s.clr := rfl
@[simp] theorem setRw_sin (o : Nat) (v : Word) (s : State) : (setRw o v s).sin = s.sin := rfl
@[simp] theorem setRw_phx (o : Nat) (v : Word) (s : State) : (setRw o v s).phx = s.phx := rfl
@[simp] theorem setRw_fch (o : Nat) (v : Word) (s : State) : (setRw o v s).fch = s.fch := rfl
@[simp] theorem setRw_fsync (o : Nat) (v : Word) (s : State) : (setRw o v s).fsync = s.fsync := rfl
@[simp] theorem setRw_hen (o : Nat) (v : Word) (s : State) : (setRw o v s).hen = s.hen := rfl
@[simp] theorem setRw_sld (o : Nat) (v : Word) (s : State) : (setRw o v s).sld = s.sld := rfl
@[simp] theorem setRw_lcm (o : Nat) (v : Word) (s : State) : (setRw o v s).lcm = s.lcm := rfl
@[simp] theorem setRw_convNote (o : Nat) (v : Word) (s : State) : (setRw o v s).convNote = s.convNote := rfl
@[simp] theorem setRw_rctq (o : Nat) (v : Word) (s : State) : (setRw o v s).rctq = s.rctq := rfl
@[simp] theorem setRw_lhf (o : Nat) (v : Word) (s : State) : (setRw o v s).lhf = s.lhf := rfl
@[simp] theorem setRw_cal (o : Nat) (v : Word) (s : State) : (setRw o v s).cal = s.cal := rfl
@[simp] theorem setRw_net (o : Nat) (v : Word) (s : State) : (setRw o v s).net = s.net := rfl

/-! ## pstQueue -/

@[simp] theorem pstQueue_pending (w : Nat) (v : Word) (s : State) : (pstQueue w v s).pending = s.pending := rfl
@[simp] theorem pstQueue_now (w : Nat) (v : Word) (s : State) : (pstQueue w v s).now = s.now := rfl
@[simp] theorem pstQueue_clk (w : Nat) (v : Word) (s : State) : (pstQueue w v s).clk = s.clk := rfl
@[simp] theorem pstQueue_out (w : Nat) (v : Word) (s : State) : (pstQueue w v s).out = s.out := rfl
@[simp] theorem pstQueue_rdata (w : Nat) (v : Word) (s : State) : (pstQueue w v s).rdata = s.rdata := rfl
@[simp] theorem pstQueue_ctr (w : Nat) (v : Word) (s : State) : (pstQueue w v s).ctr = s.ctr := rfl
@[simp] theorem pstQueue_free (w : Nat) (v : Word) (s : State) : (pstQueue w v s).free = s.free := rfl
@[simp] theorem pstQueue_regs (w : Nat) (v : Word) (s : State) : (pstQueue w v s).regs = s.regs := rfl
@[simp] theorem pstQueue_dom (w : Nat) (v : Word) (s : State) : (pstQueue w v s).dom = s.dom := rfl
@[simp] theorem pstQueue_bsc (w : Nat) (v : Word) (s : State) : (pstQueue w v s).bsc = s.bsc := rfl
@[simp] theorem pstQueue_pst (w : Nat) (v : Word) (s : State) : (pstQueue w v s).pst = { s.pst with wq := s.pst.wq ++ [(w, v)] } := rfl
@[simp] theorem pstQueue_erc (w : Nat) (v : Word) (s : State) : (pstQueue w v s).erc = s.erc := rfl
@[simp] theorem pstQueue_hre (w : Nat) (v : Word) (s : State) : (pstQueue w v s).hre = s.hre := rfl
@[simp] theorem pstQueue_sec (w : Nat) (v : Word) (s : State) : (pstQueue w v s).sec = s.sec := rfl
@[simp] theorem pstQueue_hsc (w : Nat) (v : Word) (s : State) : (pstQueue w v s).hsc = s.hsc := rfl
@[simp] theorem pstQueue_stg (w : Nat) (v : Word) (s : State) : (pstQueue w v s).stg = s.stg := rfl
@[simp] theorem pstQueue_refs (w : Nat) (v : Word) (s : State) : (pstQueue w v s).refs = s.refs := rfl
@[simp] theorem pstQueue_clr (w : Nat) (v : Word) (s : State) : (pstQueue w v s).clr = s.clr := rfl
@[simp] theorem pstQueue_sin (w : Nat) (v : Word) (s : State) : (pstQueue w v s).sin = s.sin := rfl
@[simp] theorem pstQueue_phx (w : Nat) (v : Word) (s : State) : (pstQueue w v s).phx = s.phx := rfl
@[simp] theorem pstQueue_fch (w : Nat) (v : Word) (s : State) : (pstQueue w v s).fch = s.fch := rfl
@[simp] theorem pstQueue_fsync (w : Nat) (v : Word) (s : State) : (pstQueue w v s).fsync = s.fsync := rfl
@[simp] theorem pstQueue_hen (w : Nat) (v : Word) (s : State) : (pstQueue w v s).hen = s.hen := rfl
@[simp] theorem pstQueue_sld (w : Nat) (v : Word) (s : State) : (pstQueue w v s).sld = s.sld := rfl
@[simp] theorem pstQueue_lcm (w : Nat) (v : Word) (s : State) : (pstQueue w v s).lcm = s.lcm := rfl
@[simp] theorem pstQueue_convNote (w : Nat) (v : Word) (s : State) : (pstQueue w v s).convNote = s.convNote := rfl
@[simp] theorem pstQueue_rctq (w : Nat) (v : Word) (s : State) : (pstQueue w v s).rctq = s.rctq := rfl
@[simp] theorem pstQueue_lhf (w : Nat) (v : Word) (s : State) : (pstQueue w v s).lhf = s.lhf := rfl
@[simp] theorem pstQueue_cal (w : Nat) (v : Word) (s : State) : (pstQueue w v s).cal = s.cal := rfl
@[simp] theorem pstQueue_net (w : Nat) (v : Word) (s : State) : (pstQueue w v s).net = s.net := rfl

/-! ## mapDom -/

@[simp] theorem mapDom_pending (d : Dom) (f : DomSt → DomSt) (s : State) : (mapDom d f s).pending = s.pending := rfl
@[simp] theorem mapDom_now (d : Dom) (f : DomSt → DomSt) (s : State) : (mapDom d f s).now = s.now := rfl
@[simp] theorem mapDom_clk (d : Dom) (f : DomSt → DomSt) (s : State) : (mapDom d f s).clk = s.clk := rfl
@[simp] theorem mapDom_out (d : Dom) (f : DomSt → DomSt) (s : State) : (mapDom d f s).out = s.out := rfl
@[simp] theorem mapDom_rdata (d : Dom) (f : DomSt → DomSt) (s : State) : (mapDom d f s).rdata = s.rdata := rfl
@[simp] theorem mapDom_ctr (d : Dom) (f : DomSt → DomSt) (s : State) : (mapDom d f s).ctr = s.ctr := rfl
@[simp] theorem mapDom_free (d : Dom) (f : DomSt → DomSt) (s : State) : (mapDom d f s).free = s.free := rfl
@[simp] theorem mapDom_regs (d : Dom) (f : DomSt → DomSt) (s : State) : (mapDom d f s).regs = s.regs := rfl
@[simp] theorem mapDom_dom (d : Dom) (f : DomSt → DomSt) (s : State) : (mapDom d f s).dom = s.dom.put d (f (s.dom.get d)) := rfl
@[simp] theorem mapDom_bsc (d : Dom) (f : DomSt → DomSt) (s : State) : (mapDom d f s).bsc = s.bsc := rfl
@[simp] theorem mapDom_pst (d : Dom) (f : DomSt → DomSt) (s : State) : (mapDom d f s).pst = s.pst := rfl
@[simp] theorem mapDom_erc (d : Dom) (f : DomSt → DomSt) (s : State) : (mapDom d f s).erc = s.erc := rfl
@[simp] theorem mapDom_hre (d : Dom) (f : DomSt → DomSt) (s : State) : (mapDom d f s).hre = s.hre := rfl
@[simp] theorem mapDom_sec (d : Dom) (f : DomSt → DomSt) (s : State) : (mapDom d f s).sec = s.sec := rfl
@[simp] theorem mapDom_hsc (d : Dom) (f : DomSt → DomSt) (s : State) : (mapDom d f s).hsc = s.hsc := rfl
@[simp] theorem mapDom_stg (d : Dom) (f : DomSt → DomSt) (s : State) : (mapDom d f s).stg = s.stg := rfl
@[simp] theorem mapDom_refs (d : Dom) (f : DomSt → DomSt) (s : State) : (mapDom d f s).refs = s.refs := rfl
@[simp] theorem mapDom_clr (d : Dom) (f : DomSt → DomSt) (s : State) : (mapDom d f s).clr = s.clr := rfl
@[simp] theorem mapDom_sin (d : Dom) (f : DomSt → DomSt) (s : State) : (mapDom d f s).sin = s.sin := rfl
@[simp] theorem mapDom_phx (d : Dom) (f : DomSt → DomSt) (s : State) : (mapDom d f s).phx = s.phx := rfl
@[simp] theorem mapDom_fch (d : Dom) (f : DomSt → DomSt) (s : State) : (mapDom d f s).fch = s.fch := rfl
@[simp] theorem mapDom_fsync (d : Dom) (f : DomSt → DomSt) (s : State) : (mapDom d f s).fsync = s.fsync := rfl
@[simp] theorem mapDom_hen (d : Dom) (f : DomSt → DomSt) (s : State) : (mapDom d f s).hen = s.hen := rfl
@[simp] theorem mapDom_sld (d : Dom) (f : DomSt → DomSt) (s : State) : (mapDom d f s).sld = s.sld := rfl
@[simp] theorem mapDom_lcm (d : Dom) (f : DomSt → DomSt) (s : State) : (mapDom d f s).lcm = s.lcm := rfl
@[simp] theorem mapDom_convNote (d : Dom) (f : DomSt → DomSt) (s : State) : (mapDom d f s).convNote = s.convNote := rfl
@[simp] theorem mapDom_rctq (d : Dom) (f : DomSt → DomSt) (s : State) : (mapDom d f s).rctq = s.rctq := rfl
@[simp] theorem mapDom_lhf (d : Dom) (f : DomSt → DomSt) (s : State) : (mapDom d f s).lhf = s.lhf := rfl
@[simp] theorem mapDom_cal (d : Dom) (f : DomSt → DomSt) (s : State) : (mapDom d f s).cal = s.cal := rfl
@[simp] theorem mapDom_net (d : Dom) (f : DomSt → DomSt) (s : State) : (mapDom d f s).net = s.net := rfl

/-! ## mapRing -/

@[simp] theorem mapRing_pending (n : Nat) (f : RingSt → RingSt) (s : State) : (mapRing n f s).pending = s.pending := rfl
@[simp] theorem mapRing_now (n : Nat) (f : RingSt → RingSt) (s : State) : (mapRing n f s).now = s.now := rfl
@[simp] theorem mapRing_clk (n : Nat) (f : RingSt → RingSt) (s : State) : (mapRing n f s).clk = s.clk := rfl
@[simp] theorem mapRing_out (n : Nat) (f : RingSt → RingSt) (s : State) : (mapRing n f s).out = s.out := rfl
@[simp] theorem mapRing_rdata (n : Nat) (f : RingSt → RingSt) (s : State) : (mapRing n f s).rdata = s.rdata := rfl
@[simp] theorem mapRing_ctr (n : Nat) (f : RingSt → RingSt) (s : State) : (mapRing n f s).ctr = s.ctr := rfl
@[simp] theorem mapRing_free (n : Nat) (f : RingSt → RingSt) (s : State) : (mapRing n f s).free = s.free := rfl
@[simp] theorem mapRing_regs (n : Nat) (f : RingSt → RingSt) (s : State) : (mapRing n f s).regs = s.regs := rfl
@[simp] theorem mapRing_dom (n : Nat) (f : RingSt → RingSt) (s : State) : (mapRing n f s).dom = s.dom := rfl
@[simp] theorem mapRing_bsc (n : Nat) (f : RingSt → RingSt) (s : State) : (mapRing n f s).bsc = s.bsc := rfl
@[simp] theorem mapRing_pst (n : Nat) (f : RingSt → RingSt) (s : State) : (mapRing n f s).pst = s.pst := rfl
@[simp] theorem mapRing_erc (n : Nat) (f : RingSt → RingSt) (s : State) : (mapRing n f s).erc = s.erc := rfl
@[simp] theorem mapRing_sec (n : Nat) (f : RingSt → RingSt) (s : State) : (mapRing n f s).sec = s.sec := rfl
@[simp] theorem mapRing_hsc (n : Nat) (f : RingSt → RingSt) (s : State) : (mapRing n f s).hsc = s.hsc := rfl
@[simp] theorem mapRing_stg (n : Nat) (f : RingSt → RingSt) (s : State) : (mapRing n f s).stg = s.stg := rfl
@[simp] theorem mapRing_refs (n : Nat) (f : RingSt → RingSt) (s : State) : (mapRing n f s).refs = s.refs := rfl
@[simp] theorem mapRing_clr (n : Nat) (f : RingSt → RingSt) (s : State) : (mapRing n f s).clr = s.clr := rfl
@[simp] theorem mapRing_sin (n : Nat) (f : RingSt → RingSt) (s : State) : (mapRing n f s).sin = s.sin := rfl
@[simp] theorem mapRing_phx (n : Nat) (f : RingSt → RingSt) (s : State) : (mapRing n f s).phx = s.phx := rfl
@[simp] theorem mapRing_fch (n : Nat) (f : RingSt → RingSt) (s : State) : (mapRing n f s).fch = s.fch := rfl
@[simp] theorem mapRing_fsync (n : Nat) (f : RingSt → RingSt) (s : State) : (mapRing n f s).fsync = s.fsync := rfl
@[simp] theorem mapRing_hen (n : Nat) (f : RingSt → RingSt) (s : State) : (mapRing n f s).hen = s.hen := rfl
@[simp] theorem mapRing_sld (n : Nat) (f : RingSt → RingSt) (s : State) : (mapRing n f s).sld = s.sld := rfl
@[simp] theorem mapRing_lcm (n : Nat) (f : RingSt → RingSt) (s : State) : (mapRing n f s).lcm = s.lcm := rfl
@[simp] theorem mapRing_convNote (n : Nat) (f : RingSt → RingSt) (s : State) : (mapRing n f s).convNote = s.convNote := rfl
@[simp] theorem mapRing_rctq (n : Nat) (f : RingSt → RingSt) (s : State) : (mapRing n f s).rctq = s.rctq := rfl
@[simp] theorem mapRing_lhf (n : Nat) (f : RingSt → RingSt) (s : State) : (mapRing n f s).lhf = s.lhf := rfl
@[simp] theorem mapRing_cal (n : Nat) (f : RingSt → RingSt) (s : State) : (mapRing n f s).cal = s.cal := rfl
@[simp] theorem mapRing_net (n : Nat) (f : RingSt → RingSt) (s : State) : (mapRing n f s).net = s.net := rfl

/-! ## addJob -/

@[simp] theorem addJob_pending (j : Job) (s : State) : (addJob j s).pending = s.pending := rfl
@[simp] theorem addJob_now (j : Job) (s : State) : (addJob j s).now = s.now := rfl
@[simp] theorem addJob_clk (j : Job) (s : State) : (addJob j s).clk = s.clk := rfl
@[simp] theorem addJob_out (j : Job) (s : State) : (addJob j s).out = s.out := rfl
@[simp] theorem addJob_rdata (j : Job) (s : State) : (addJob j s).rdata = s.rdata := rfl
@[simp] theorem addJob_ctr (j : Job) (s : State) : (addJob j s).ctr = s.ctr := rfl
@[simp] theorem addJob_free (j : Job) (s : State) : (addJob j s).free = s.free := rfl
@[simp] theorem addJob_regs (j : Job) (s : State) : (addJob j s).regs = s.regs := rfl
@[simp] theorem addJob_dom (j : Job) (s : State) : (addJob j s).dom = s.dom := rfl
@[simp] theorem addJob_pst (j : Job) (s : State) : (addJob j s).pst = s.pst := rfl
@[simp] theorem addJob_erc (j : Job) (s : State) : (addJob j s).erc = s.erc := rfl
@[simp] theorem addJob_hre (j : Job) (s : State) : (addJob j s).hre = s.hre := rfl
@[simp] theorem addJob_sec (j : Job) (s : State) : (addJob j s).sec = s.sec := rfl
@[simp] theorem addJob_hsc (j : Job) (s : State) : (addJob j s).hsc = s.hsc := rfl
@[simp] theorem addJob_stg (j : Job) (s : State) : (addJob j s).stg = s.stg := rfl
@[simp] theorem addJob_refs (j : Job) (s : State) : (addJob j s).refs = s.refs := rfl
@[simp] theorem addJob_clr (j : Job) (s : State) : (addJob j s).clr = s.clr := rfl
@[simp] theorem addJob_sin (j : Job) (s : State) : (addJob j s).sin = s.sin := rfl
@[simp] theorem addJob_phx (j : Job) (s : State) : (addJob j s).phx = s.phx := rfl
@[simp] theorem addJob_fch (j : Job) (s : State) : (addJob j s).fch = s.fch := rfl
@[simp] theorem addJob_fsync (j : Job) (s : State) : (addJob j s).fsync = s.fsync := rfl
@[simp] theorem addJob_hen (j : Job) (s : State) : (addJob j s).hen = s.hen := rfl
@[simp] theorem addJob_sld (j : Job) (s : State) : (addJob j s).sld = s.sld := rfl
@[simp] theorem addJob_lcm (j : Job) (s : State) : (addJob j s).lcm = s.lcm := rfl
@[simp] theorem addJob_convNote (j : Job) (s : State) : (addJob j s).convNote = s.convNote := rfl
@[simp] theorem addJob_rctq (j : Job) (s : State) : (addJob j s).rctq = s.rctq := rfl
@[simp] theorem addJob_lhf (j : Job) (s : State) : (addJob j s).lhf = s.lhf := rfl
@[simp] theorem addJob_cal (j : Job) (s : State) : (addJob j s).cal = s.cal := rfl
@[simp] theorem addJob_net (j : Job) (s : State) : (addJob j s).net = s.net := rfl

/-! ## mapStg -/

@[simp] theorem mapStg_pending (p : Port) (f : StgSt → StgSt) (s : State) : (mapStg p f s).pending = s.pending := rfl
@[simp] theorem mapStg_now (p : Port) (f : StgSt → StgSt) (s : State) : (mapStg p f s).now = s.now := rfl
@[simp] theorem mapStg_clk (p : Port) (f : StgSt → StgSt) (s : State) : (mapStg p f s).clk = s.clk := rfl
@[simp] theorem mapStg_out (p : Port) (f : StgSt → StgSt) (s : State) : (mapStg p f s).out = s.out := rfl
@[simp] theorem mapStg_rdata (p : Port) (f : StgSt → StgSt) (s : State) : (mapStg p f s).rdata = s.rdata := rfl
@[simp] theorem mapStg_ctr (p : Port) (f : StgSt → StgSt) (s : State) : (mapStg p f s).ctr = s.ctr := rfl
@[simp] theorem mapStg_free (p : Port) (f : StgSt → StgSt) (s : State) : (mapStg p f s).free = s.free := rfl
@[simp] theorem mapStg_regs (p : Port) (f : StgSt → StgSt) (s : State) : (mapStg p f s).regs = s.regs := rfl
@[simp] theorem mapStg_dom (p : Port) (f : StgSt → StgSt) (s : State) : (mapStg p f s).dom = s.dom := rfl
@[simp] theorem mapStg_bsc (p : Port) (f : StgSt → StgSt) (s : State) : (mapStg p f s).bsc = s.bsc := rfl
@[simp] theorem mapStg_pst (p : Port) (f : StgSt → StgSt) (s : State) : (mapStg p f s).pst = s.pst := rfl
@[simp] theorem mapStg_erc (p : Port) (f : StgSt → StgSt) (s : State) : (mapStg p f s).erc = s.erc := rfl
@[simp] theorem mapStg_hre (p : Port) (f : StgSt → StgSt) (s : State) : (mapStg p f s).hre = s.hre := rfl
@[simp] theorem mapStg_sec (p : Port) (f : StgSt → StgSt) (s : State) : (mapStg p f s).sec = s.sec := rfl
@[simp] theorem mapStg_hsc (p : Port) (f : StgSt → StgSt) (s : State) : (mapStg p f s).hsc = s.hsc := rfl
@[simp] theorem mapStg_stg (p : Port) (f : StgSt → StgSt) (s : State) : (mapStg p f s).stg = s.stg.setPort p (f (s.stg.port p)) := rfl
@[simp] theorem mapStg_refs (p : Port) (f : StgSt → StgSt) (s : State) : (mapStg p f s).refs = s.refs := rfl
@[simp] theorem mapStg_clr (p : Port) (f : StgSt → StgSt) (s : State) : (mapStg p f s).clr = s.clr := rfl
@[simp] theorem mapStg_sin (p : Port) (f : StgSt → StgSt) (s : State) : (mapStg p f s).sin = s.sin := rfl
@[simp] theorem mapStg_phx (p : Port) (f : StgSt → StgSt) (s : State) : (mapStg p f s).phx = s.phx := rfl
@[simp] theorem mapStg_fch (p : Port) (f : StgSt → StgSt) (s : State) : (mapStg p f s).fch = s.fch := rfl
@[simp] theorem mapStg_fsync (p : Port) (f : StgSt → StgSt) (s : State) : (mapStg p f s).fsync = s.fsync := rfl
@[simp] theorem mapStg_hen (p : Port) (f : StgSt → StgSt) (s : State) : (mapStg p f s).hen = s.hen := rfl
@[simp] theorem mapStg_sld (p : Port) (f : StgSt → StgSt) (s : State) : (mapStg p f s).sld = s.sld := rfl
@[simp] theorem mapStg_lcm (p : Port) (f : StgSt → StgSt) (s : State) : (mapStg p f s).lcm = s.lcm := rfl
@[simp] theorem mapStg_convNote (p : Port) (f : StgSt → StgSt) (s : State) : (mapStg p f s).convNote = s.convNote := rfl
@[simp] theorem mapStg_rctq (p : Port) (f : StgSt → StgSt) (s : State) : (mapStg p f s).rctq = s.rctq := rfl
@[simp] theorem mapStg_lhf (p : Port) (f : StgSt → StgSt) (s : State) : (mapStg p f s).lhf = s.lhf := rfl
@[simp] theorem mapStg_cal (p : Port) (f : StgSt → StgSt) (s : State) : (mapStg p f s).cal = s.cal := rfl
@[simp] theorem mapStg_net (p : Port) (f : StgSt → StgSt) (s : State) : (mapStg p f s).net = s.net := rfl

/-! ## mapSin -/

@[simp] theorem mapSin_pending (p : Port) (f : SinSt → SinSt) (s : State) : (mapSin p f s).pending = s.pending := rfl
@[simp] theorem mapSin_now (p : Port) (f : SinSt → SinSt) (s : State) : (mapSin p f s).now = s.now := rfl
@[simp] theorem mapSin_clk (p : Port) (f : SinSt → SinSt) (s : State) : (mapSin p f s).clk = s.clk := rfl
@[simp] theorem mapSin_out (p : Port) (f : SinSt → SinSt) (s : State) : (mapSin p f s).out = s.out := rfl
@[simp] theorem mapSin_rdata (p : Port) (f : SinSt → SinSt) (s : State) : (mapSin p f s).rdata = s.rdata := rfl
@[simp] theorem mapSin_ctr (p : Port) (f : SinSt → SinSt) (s : State) : (mapSin p f s).ctr = s.ctr := rfl
@[simp] theorem mapSin_free (p : Port) (f : SinSt → SinSt) (s : State) : (mapSin p f s).free = s.free := rfl
@[simp] theorem mapSin_regs (p : Port) (f : SinSt → SinSt) (s : State) : (mapSin p f s).regs = s.regs := rfl
@[simp] theorem mapSin_dom (p : Port) (f : SinSt → SinSt) (s : State) : (mapSin p f s).dom = s.dom := rfl
@[simp] theorem mapSin_bsc (p : Port) (f : SinSt → SinSt) (s : State) : (mapSin p f s).bsc = s.bsc := rfl
@[simp] theorem mapSin_pst (p : Port) (f : SinSt → SinSt) (s : State) : (mapSin p f s).pst = s.pst := rfl
@[simp] theorem mapSin_erc (p : Port) (f : SinSt → SinSt) (s : State) : (mapSin p f s).erc = s.erc := rfl
@[simp] theorem mapSin_hre (p : Port) (f : SinSt → SinSt) (s : State) : (mapSin p f s).hre = s.hre := rfl
@[simp] theorem mapSin_sec (p : Port) (f : SinSt → SinSt) (s : State) : (mapSin p f s).sec = s.sec := rfl
@[simp] theorem mapSin_hsc (p : Port) (f : SinSt → SinSt) (s : State) : (mapSin p f s).hsc = s.hsc := rfl
@[simp] theorem mapSin_stg (p : Port) (f : SinSt → SinSt) (s : State) : (mapSin p f s).stg = s.stg := rfl
@[simp] theorem mapSin_refs (p : Port) (f : SinSt → SinSt) (s : State) : (mapSin p f s).refs = s.refs := rfl
@[simp] theorem mapSin_clr (p : Port) (f : SinSt → SinSt) (s : State) : (mapSin p f s).clr = s.clr := rfl
@[simp] theorem mapSin_sin (p : Port) (f : SinSt → SinSt) (s : State) : (mapSin p f s).sin = s.sin.setPort p (f (s.sin.port p)) := rfl
@[simp] theorem mapSin_phx (p : Port) (f : SinSt → SinSt) (s : State) : (mapSin p f s).phx = s.phx := rfl
@[simp] theorem mapSin_fch (p : Port) (f : SinSt → SinSt) (s : State) : (mapSin p f s).fch = s.fch := rfl
@[simp] theorem mapSin_fsync (p : Port) (f : SinSt → SinSt) (s : State) : (mapSin p f s).fsync = s.fsync := rfl
@[simp] theorem mapSin_hen (p : Port) (f : SinSt → SinSt) (s : State) : (mapSin p f s).hen = s.hen := rfl
@[simp] theorem mapSin_sld (p : Port) (f : SinSt → SinSt) (s : State) : (mapSin p f s).sld = s.sld := rfl
@[simp] theorem mapSin_lcm (p : Port) (f : SinSt → SinSt) (s : State) : (mapSin p f s).lcm = s.lcm := rfl
@[simp] theorem mapSin_convNote (p : Port) (f : SinSt → SinSt) (s : State) : (mapSin p f s).convNote = s.convNote := rfl
@[simp] theorem mapSin_rctq (p : Port) (f : SinSt → SinSt) (s : State) : (mapSin p f s).rctq = s.rctq := rfl
@[simp] theorem mapSin_lhf (p : Port) (f : SinSt → SinSt) (s : State) : (mapSin p f s).lhf = s.lhf := rfl
@[simp] theorem mapSin_cal (p : Port) (f : SinSt → SinSt) (s : State) : (mapSin p f s).cal = s.cal := rfl
@[simp] theorem mapSin_net (p : Port) (f : SinSt → SinSt) (s : State) : (mapSin p f s).net = s.net := rfl

/-! ## mapPhx -/

@[simp] theorem mapPhx_pending (p : Port) (f : PhxSt → PhxSt) (s : State) : (mapPhx p f s).pending = s.pending := rfl
@[simp] theorem mapPhx_now (p : Port) (f : PhxSt → PhxSt) (s : State) : (mapPhx p f s).now = s.now := rfl
@[simp] theorem mapPhx_clk (p : Port) (f : PhxSt → PhxSt) (s : State) : (mapPhx p f s).clk = s.clk := rfl
@[simp] theorem mapPhx_out (p : Port) (f : PhxSt → PhxSt) (s : State) : (mapPhx p f s).out = s.out := rfl
@[simp] theorem mapPhx_rdata (p : Port) (f : PhxSt → PhxSt) (s : State) : (mapPhx p f s).rdata = s.rdata := rfl
@[simp] theorem mapPhx_ctr (p : Port) (f : PhxSt → PhxSt) (s : State) : (mapPhx p f s).ctr = s.ctr := rfl
@[simp] theorem mapPhx_free (p : Port) (f : PhxSt → PhxSt) (s : State) : (mapPhx p f s).free = s.free := rfl
@[simp] theorem mapPhx_regs (p : Port) (f : PhxSt → PhxSt) (s : State) : (mapPhx p f s).regs = s.regs := rfl
@[simp] theorem mapPhx_dom (p : Port) (f : PhxSt → PhxSt) (s : State) : (mapPhx p f s).dom = s.dom := rfl
@[simp] theorem mapPhx_bsc (p : Port) (f : PhxSt → PhxSt) (s : State) : (mapPhx p f s).bsc = s.bsc := rfl
@[simp] theorem mapPhx_pst (p : Port) (f : PhxSt → PhxSt) (s : State) : (mapPhx p f s).pst = s.pst := rfl
@[simp] theorem mapPhx_erc (p : Port) (f : PhxSt → PhxSt) (s : State) : (mapPhx p f s).erc = s.erc := rfl
@[simp] theorem mapPhx_hre (p : Port) (f : PhxSt → PhxSt) (s : State) : (mapPhx p f s).hre = s.hre := rfl
@[simp] theorem mapPhx_sec (p : Port) (f : PhxSt → PhxSt) (s : State) : (mapPhx p f s).sec = s.sec := rfl
@[simp] theorem mapPhx_hsc (p : Port) (f : PhxSt → PhxSt) (s : State) : (mapPhx p f s).hsc = s.hsc := rfl
@[simp] theorem mapPhx_stg (p : Port) (f : PhxSt → PhxSt) (s : State) : (mapPhx p f s).stg = s.stg := rfl
@[simp] theorem mapPhx_refs (p : Port) (f : PhxSt → PhxSt) (s : State) : (mapPhx p f s).refs = s.refs := rfl
@[simp] theorem mapPhx_clr (p : Port) (f : PhxSt → PhxSt) (s : State) : (mapPhx p f s).clr = s.clr := rfl
@[simp] theorem mapPhx_sin (p : Port) (f : PhxSt → PhxSt) (s : State) : (mapPhx p f s).sin = s.sin := rfl
@[simp] theorem mapPhx_phx (p : Port) (f : PhxSt → PhxSt) (s : State) : (mapPhx p f s).phx = s.phx.setPort p (f (s.phx.port p)) := rfl
@[simp] theorem mapPhx_fch (p : Port) (f : PhxSt → PhxSt) (s : State) : (mapPhx p f s).fch = s.fch := rfl
@[simp] theorem mapPhx_fsync (p : Port) (f : PhxSt → PhxSt) (s : State) : (mapPhx p f s).fsync = s.fsync := rfl
@[simp] theorem mapPhx_hen (p : Port) (f : PhxSt → PhxSt) (s : State) : (mapPhx p f s).hen = s.hen := rfl
@[simp] theorem mapPhx_sld (p : Port) (f : PhxSt → PhxSt) (s : State) : (mapPhx p f s).sld = s.sld := rfl
@[simp] theorem mapPhx_lcm (p : Port) (f : PhxSt → PhxSt) (s : State) : (mapPhx p f s).lcm = s.lcm := rfl
@[simp] theorem mapPhx_convNote (p : Port) (f : PhxSt → PhxSt) (s : State) : (mapPhx p f s).convNote = s.convNote := rfl
@[simp] theorem mapPhx_rctq (p : Port) (f : PhxSt → PhxSt) (s : State) : (mapPhx p f s).rctq = s.rctq := rfl
@[simp] theorem mapPhx_lhf (p : Port) (f : PhxSt → PhxSt) (s : State) : (mapPhx p f s).lhf = s.lhf := rfl
@[simp] theorem mapPhx_cal (p : Port) (f : PhxSt → PhxSt) (s : State) : (mapPhx p f s).cal = s.cal := rfl
@[simp] theorem mapPhx_net (p : Port) (f : PhxSt → PhxSt) (s : State) : (mapPhx p f s).net = s.net := rfl

/-! ## mapFch -/

@[simp] theorem mapFch_pending (i : Fch) (f : FchSt → FchSt) (s : State) : (mapFch i f s).pending = s.pending := by cases i <;> rfl
@[simp] theorem mapFch_now (i : Fch) (f : FchSt → FchSt) (s : State) : (mapFch i f s).now = s.now := by cases i <;> rfl
@[simp] theorem mapFch_clk (i : Fch) (f : FchSt → FchSt) (s : State) : (mapFch i f s).clk = s.clk := by cases i <;> rfl
@[simp] theorem mapFch_out (i : Fch) (f : FchSt → FchSt) (s : State) : (mapFch i f s).out = s.out := by cases i <;> rfl
@[simp] theorem mapFch_rdata (i : Fch) (f : FchSt → FchSt) (s : State) : (mapFch i f s).rdata = s.rdata := by cases i <;> rfl
@[simp] theorem mapFch_ctr (i : Fch) (f : FchSt → FchSt) (s : State) : (mapFch i f s).ctr = s.ctr := by cases i <;> rfl
@[simp] theorem mapFch_free (i : Fch) (f : FchSt → FchSt) (s : State) : (mapFch i f s).free = s.free := by cases i <;> rfl
@[simp] theorem mapFch_regs (i : Fch) (f : FchSt → FchSt) (s : State) : (mapFch i f s).regs = s.regs := by cases i <;> rfl
@[simp] theorem mapFch_dom (i : Fch) (f : FchSt → FchSt) (s : State) : (mapFch i f s).dom = s.dom := by cases i <;> rfl
@[simp] theorem mapFch_bsc (i : Fch) (f : FchSt → FchSt) (s : State) : (mapFch i f s).bsc = s.bsc := by cases i <;> rfl
@[simp] theorem mapFch_pst (i : Fch) (f : FchSt → FchSt) (s : State) : (mapFch i f s).pst = s.pst := by cases i <;> rfl
@[simp] theorem mapFch_erc (i : Fch) (f : FchSt → FchSt) (s : State) : (mapFch i f s).erc = s.erc := by cases i <;> rfl
@[simp] theorem mapFch_hre (i : Fch) (f : FchSt → FchSt) (s : State) : (mapFch i f s).hre = s.hre := by cases i <;> rfl
@[simp] theorem mapFch_sec (i : Fch) (f : FchSt → FchSt) (s : State) : (mapFch i f s).sec = s.sec := by cases i <;> rfl
@[simp] theorem mapFch_hsc (i : Fch) (f : FchSt → FchSt) (s : State) : (mapFch i f s).hsc = s.hsc := by cases i <;> rfl
@[simp] theorem mapFch_stg (i : Fch) (f : FchSt → FchSt) (s : State) : (mapFch i f s).stg = s.stg := by cases i <;> rfl
@[simp] theorem mapFch_refs (i : Fch) (f : FchSt → FchSt) (s : State) : (mapFch i f s).refs = s.refs := by cases i <;> rfl
@[simp] theorem mapFch_clr (i : Fch) (f : FchSt → FchSt) (s : State) : (mapFch i f s).clr = s.clr := by cases i <;> rfl
@[simp] theorem mapFch_sin (i : Fch) (f : FchSt → FchSt) (s : State) : (mapFch i f s).sin = s.sin := by cases i <;> rfl
@[simp] theorem mapFch_phx (i : Fch) (f : FchSt → FchSt) (s : State) : (mapFch i f s).phx = s.phx := by cases i <;> rfl
@[simp] theorem mapFch_fsync (i : Fch) (f : FchSt → FchSt) (s : State) : (mapFch i f s).fsync = s.fsync := by cases i <;> rfl
@[simp] theorem mapFch_hen (i : Fch) (f : FchSt → FchSt) (s : State) : (mapFch i f s).hen = s.hen := by cases i <;> rfl
@[simp] theorem mapFch_sld (i : Fch) (f : FchSt → FchSt) (s : State) : (mapFch i f s).sld = s.sld := by cases i <;> rfl
@[simp] theorem mapFch_lcm (i : Fch) (f : FchSt → FchSt) (s : State) : (mapFch i f s).lcm = s.lcm := by cases i <;> rfl
@[simp] theorem mapFch_convNote (i : Fch) (f : FchSt → FchSt) (s : State) : (mapFch i f s).convNote = s.convNote := by cases i <;> rfl
@[simp] theorem mapFch_rctq (i : Fch) (f : FchSt → FchSt) (s : State) : (mapFch i f s).rctq = s.rctq := by cases i <;> rfl
@[simp] theorem mapFch_lhf (i : Fch) (f : FchSt → FchSt) (s : State) : (mapFch i f s).lhf = s.lhf := by cases i <;> rfl
@[simp] theorem mapFch_cal (i : Fch) (f : FchSt → FchSt) (s : State) : (mapFch i f s).cal = s.cal := by cases i <;> rfl
@[simp] theorem mapFch_net (i : Fch) (f : FchSt → FchSt) (s : State) : (mapFch i f s).net = s.net := by cases i <;> rfl

/-! ## setCond -/

@[simp] theorem setCond_pending (l : Lane) (c : LaneCond) (s : State) : (setCond l c s).pending = s.pending := rfl
@[simp] theorem setCond_now (l : Lane) (c : LaneCond) (s : State) : (setCond l c s).now = s.now := rfl
@[simp] theorem setCond_clk (l : Lane) (c : LaneCond) (s : State) : (setCond l c s).clk = s.clk := rfl
@[simp] theorem setCond_out (l : Lane) (c : LaneCond) (s : State) : (setCond l c s).out = s.out := rfl
@[simp] theorem setCond_rdata (l : Lane) (c : LaneCond) (s : State) : (setCond l c s).rdata = s.rdata := rfl
@[simp] theorem setCond_ctr (l : Lane) (c : LaneCond) (s : State) : (setCond l c s).ctr = s.ctr := rfl
@[simp] theorem setCond_free (l : Lane) (c : LaneCond) (s : State) : (setCond l c s).free = s.free := rfl
@[simp] theorem setCond_regs (l : Lane) (c : LaneCond) (s : State) : (setCond l c s).regs = s.regs := rfl
@[simp] theorem setCond_dom (l : Lane) (c : LaneCond) (s : State) : (setCond l c s).dom = s.dom := rfl
@[simp] theorem setCond_bsc (l : Lane) (c : LaneCond) (s : State) : (setCond l c s).bsc = s.bsc := rfl
@[simp] theorem setCond_pst (l : Lane) (c : LaneCond) (s : State) : (setCond l c s).pst = s.pst := rfl
@[simp] theorem setCond_erc (l : Lane) (c : LaneCond) (s : State) : (setCond l c s).erc = s.erc := rfl
@[simp] theorem setCond_hre (l : Lane) (c : LaneCond) (s : State) : (setCond l c s).hre = s.hre := rfl
@[simp] theorem setCond_sec (l : Lane) (c : LaneCond) (s : State) : (setCond l c s).sec = s.sec := rfl
@[simp] theorem setCond_hsc (l : Lane) (c : LaneCond) (s : State) : (setCond l c s).hsc = s.hsc := rfl
@[simp] theorem setCond_stg (l : Lane) (c : LaneCond) (s : State) : (setCond l c s).stg = s.stg := rfl
@[simp] theorem setCond_refs (l : Lane) (c : LaneCond) (s : State) : (setCond l c s).refs = s.refs := rfl
@[simp] theorem setCond_clr (l : Lane) (c : LaneCond) (s : State) : (setCond l c s).clr = s.clr := rfl
@[simp] theorem setCond_sin (l : Lane) (c : LaneCond) (s : State) : (setCond l c s).sin = s.sin := rfl
@[simp] theorem setCond_phx (l : Lane) (c : LaneCond) (s : State) : (setCond l c s).phx = s.phx := rfl
@[simp] theorem setCond_fch (l : Lane) (c : LaneCond) (s : State) : (setCond l c s).fch = s.fch := rfl
@[simp] theorem setCond_fsync (l : Lane) (c : LaneCond) (s : State) : (setCond l c s).fsync = s.fsync := rfl
@[simp] theorem setCond_hen (l : Lane) (c : LaneCond) (s : State) : (setCond l c s).hen = s.hen := rfl
@[simp] theorem setCond_sld (l : Lane) (c : LaneCond) (s : State) : (setCond l c s).sld = s.sld := rfl
@[simp] theorem setCond_lcm (l : Lane) (c : LaneCond) (s : State) : (setCond l c s).lcm = { s.lcm with cond := s.lcm.cond.setLane l c } := rfl
@[simp] theorem setCond_convNote (l : Lane) (c : LaneCond) (s : State) : (setCond l c s).convNote = s.convNote := rfl
@[simp] theorem setCond_rctq (l : Lane) (c : LaneCond) (s : State) : (setCond l c s).rctq = s.rctq := rfl
@[simp] theorem setCond_lhf (l : Lane) (c : LaneCond) (s : State) : (setCond l c s).lhf = s.lhf := rfl
@[simp] theorem setCond_cal (l : Lane) (c : LaneCond) (s : State) : (setCond l c s).cal = s.cal := rfl
@[simp] theorem setCond_net (l : Lane) (c : LaneCond) (s : State) : (setCond l c s).net = s.net := rfl

/-! ## mapRct -/

@[simp] theorem mapRct_pending (l : Lane) (f : RctSt → RctSt) (s : State) : (mapRct l f s).pending = s.pending := rfl
@[simp] theorem mapRct_now (l : Lane) (f : RctSt → RctSt) (s : State) : (mapRct l f s).now = s.now := rfl
@[simp] theorem mapRct_clk (l : Lane) (f : RctSt → RctSt) (s : State) : (mapRct l f s).clk = s.clk := rfl
@[simp] theorem mapRct_out (l : Lane) (f : RctSt → RctSt) (s : State) : (mapRct l f s).out = s.out := rfl
@[simp] theorem mapRct_rdata (l : Lane) (f : RctSt → RctSt) (s : State) : (mapRct l f s).rdata = s.rdata := rfl
@[simp] theorem mapRct_ctr (l : Lane) (f : RctSt → RctSt) (s : State) : (mapRct l f s).ctr = s.ctr := rfl
@[simp] theorem mapRct_free (l : Lane) (f : RctSt → RctSt) (s : State) : (mapRct l f s).free = s.free := rfl
@[simp] theorem mapRct_regs (l : Lane) (f : RctSt → RctSt) (s : State) : (mapRct l f s).regs = s.regs := rfl
@[simp] theorem mapRct_dom (l : Lane) (f : RctSt → RctSt) (s : State) : (mapRct l f s).dom = s.dom := rfl
@[simp] theorem mapRct_bsc (l : Lane) (f : RctSt → RctSt) (s : State) : (mapRct l f s).bsc = s.bsc := rfl
@[simp] theorem mapRct_pst (l : Lane) (f : RctSt → RctSt) (s : State) : (mapRct l f s).pst = s.pst := rfl
@[simp] theorem mapRct_erc (l : Lane) (f : RctSt → RctSt) (s : State) : (mapRct l f s).erc = s.erc := rfl
@[simp] theorem mapRct_hre (l : Lane) (f : RctSt → RctSt) (s : State) : (mapRct l f s).hre = s.hre := rfl
@[simp] theorem mapRct_sec (l : Lane) (f : RctSt → RctSt) (s : State) : (mapRct l f s).sec = s.sec := rfl
@[simp] theorem mapRct_hsc (l : Lane) (f : RctSt → RctSt) (s : State) : (mapRct l f s).hsc = s.hsc := rfl
@[simp] theorem mapRct_stg (l : Lane) (f : RctSt → RctSt) (s : State) : (mapRct l f s).stg = s.stg := rfl
@[simp] theorem mapRct_refs (l : Lane) (f : RctSt → RctSt) (s : State) : (mapRct l f s).refs = s.refs := rfl
@[simp] theorem mapRct_clr (l : Lane) (f : RctSt → RctSt) (s : State) : (mapRct l f s).clr = s.clr := rfl
@[simp] theorem mapRct_sin (l : Lane) (f : RctSt → RctSt) (s : State) : (mapRct l f s).sin = s.sin := rfl
@[simp] theorem mapRct_phx (l : Lane) (f : RctSt → RctSt) (s : State) : (mapRct l f s).phx = s.phx := rfl
@[simp] theorem mapRct_fch (l : Lane) (f : RctSt → RctSt) (s : State) : (mapRct l f s).fch = s.fch := rfl
@[simp] theorem mapRct_fsync (l : Lane) (f : RctSt → RctSt) (s : State) : (mapRct l f s).fsync = s.fsync := rfl
@[simp] theorem mapRct_hen (l : Lane) (f : RctSt → RctSt) (s : State) : (mapRct l f s).hen = s.hen := rfl
@[simp] theorem mapRct_sld (l : Lane) (f : RctSt → RctSt) (s : State) : (mapRct l f s).sld = s.sld := rfl
@[simp] theorem mapRct_lcm (l : Lane) (f : RctSt → RctSt) (s : State) : (mapRct l f s).lcm = s.lcm := rfl
@[simp] theorem mapRct_convNote (l : Lane) (f : RctSt → RctSt) (s : State) : (mapRct l f s).convNote = s.convNote := rfl
@[simp] theorem mapRct_rctq (l : Lane) (f : RctSt → RctSt) (s : State) : (mapRct l f s).rctq = s.rctq := rfl
@[simp] theorem mapRct_lhf (l : Lane) (f : RctSt → RctSt) (s : State) : (mapRct l f s).lhf = s.lhf := rfl
@[simp] theorem mapRct_cal (l : Lane) (f : RctSt → RctSt) (s : State) : (mapRct l f s).cal = s.cal := rfl
@[simp] theorem mapRct_net (l : Lane) (f : RctSt → RctSt) (s : State) : (mapRct l f s).net = { s.net with rct := s.net.rct.setLane l (f (s.net.rct.lane l)) } := rfl

end Sys2Proof.Laws
end

