-- ==== Sys2Proof/Tests/Slice0.lean ====
section
/-!
SUPPORT. Tests/Slice0.lean: for every statement of Certificates/Slice0/Obligations.lean a concrete state and operands that meet the hypotheses of each of its clauses;
terms that WellFormed refuses; and small tests of single steps whose expected results are worked out by hand from the spec.
-/
namespace Sys2Proof.Tests
open Sys2Proof.Machine

set_option Elab.async false

/-! ## Small states -/

/-- A domain that is ACTIVE. -/
def on : DomSt := { DomSt.reset with st := .active, band := 3, floor := 0 }

/-- Every domain ACTIVE. -/
def doms : Doms := { aon := on, port0 := on, port1 := on, lanex := on, laney := on, ring := on, host := on, field := on }

/-- RUN set, the CMD, CPL and EVT rings enabled with 64 entries. -/
def runRegs : RegSt := { RegSt.reset with rw := [(0xC000, 1), (0xC048, 0x106), (0xC058, 0x106), (0xC068, 0x106)] }

/-- A device in service in MANUFACTURE, with a reference selected and the HRE running. -/
def up : State :=
  { State.reset with dom := doms, regs := runRegs, bsc := { BscSt.reset with power := .service }, hre := { HreSt.reset with busMaster := true, everRun := true, cmdProd := 1 },
                     refs := { RefSt.reset with aPresent := true, aAvail := true, sel := some .a } }

/-- A command descriptor at index 0, examined at 1 µs. -/
def cmd (op : Nat) (a0 a1 a2 : Word) : HostCmd :=
  { t := 1000, index := 0, tag := 7, reserved := 0, franked := classF op, ccount := if classF op then 1 else 0, a0 := a0, a1 := a1, a2 := a2, a3 := 0, w6 := 0,
    w7 := 0, buf := none, cross := [] }

/-- A port that is up beside what a test sets of its STG. -/
def withStg (f : StgSt → StgSt) (s : State) : State := mapStg .p0 f s

/-- A plan of one group of 128 bins. -/
def plan : Plan :=
  { b0 := 0, nbins := 128, fibreEnd := 100, slotBase := 0, div := 1, groups := 1, ts := 20000, toff := 0, widths := [100, 0, 0, 0, 0, 0, 0, 0], en := 1, gauge := 10,
    scale := 1000, decim := 1 }

/-- A port that runs the plan from t0 = 0. -/
def running : State := withStg (fun x => { x with run := 1, plan := some plan }) up

/-! ## The hypotheses of the statements are met -/

theorem test_meets_StepServesQueueFront : ({ up with pending := [Instr.idcode 1] } : State).pending = Instr.idcode 1 :: [] ∧ up.pending = [] := by decide +kernel

theorem test_meets_NopCompletesWithRound : Passes 0x01 (cmd 0x01 0 0 0) up := by unfold Passes; decide +kernel

theorem test_meets_HaltedDeviceRefusesCommands :
    (let s := { up with bsc := { up.bsc with power := .safehalt } };
      hostOp (.portStart (cmd 0x10 0x101 0 0)) = some (0x10, cmd 0x10 0x101 0 0) ∧ canExamine (atTime 1000 s) = true ∧ argsOk 0x10 (cmd 0x10 0x101 0 0) = true
        ∧ s.bsc.power = .safehalt ∧ safehaltOps.contains 0x10 = false)
    ∧ (let s := { up with sec := { up.sec with lifecycle := 5 } };
      hostOp (.portStart (cmd 0x10 0x101 0 0)) = some (0x10, cmd 0x10 0x101 0 0) ∧ canExamine (atTime 1000 s) = true ∧ s.bsc.power ≠ .safehalt ∧ s.sec.lifecycle = 5
        ∧ decommissionedOps.contains 0x10 = false ∧ argsOk 0x10 (cmd 0x10 0x101 0 0) = true)
    ∧ (let s := { up with bsc := { up.bsc with power := .standby }, dom := { doms with host := DomSt.reset } };
      s.bsc.power = .standby ∧ active s .host = false) ∧ safehaltOps.contains 0x01 = true := by decide +kernel

theorem test_meets_UnauthenticCommandHasNoEffect :
    let c := cmd 0x11 0 0 0;
    let s := { up with sec := { up.sec with lifecycle := 3 } };
    hostOp (.portStop c) = some (0x11, c) ∧ canExamine (atTime c.t s) = true ∧ argsOk 0x11 c = true ∧ classF 0x11 = true ∧ s.bsc.power ≠ .safehalt ∧ s.sec.lifecycle ≠ 5
      ∧ s.sec.lifecycle ≠ 1 ∧ aonUp { s with bsc := { s.bsc with aon := .resetLow } } = false ∧ canExamine (atTime c.t { s with bsc := { s.bsc with aon := .resetLow } }) = true
      ∧ aonUp s = true ∧ ¬ (s.sec.cLast < ({ c with ccount := 0 } : HostCmd).ccount.toNat) ∧ (s.sec.cLast < c.ccount.toNat ∧ c.ccount.toNat ≤ s.sec.cLast + 65536 ∧ s.sec.cLast ≠ 4294967295)
      ∧ (slotOf s.sec 0).status ≠ 1 := by decide +kernel

theorem test_meets_RingControlWritesItsWord :
    active up .host = true ∧ active State.reset .host = false ∧ hreRun up = true ∧ ringEn up 0 = true ∧ fld 0x107 4 0 ≠ regF up 0xC048 4 0 ∧ aonUp up = true
      ∧ ringEn up 12 = false ∧ 6 ≤ fld 0x106 4 0 ∧ fld 0x106 4 0 ≤ 16 ∧ bitOf 0x106 8 = true ∧ fld 0x105 4 0 < 6 ∧ 16 < fld 0x111 4 0 := by decide +kernel

theorem test_meets_HostLossAndConfiguration : up.hre.loss ≠ .stopped ∧ aonUp up = true ∧ active up .host = true ∧ active State.reset .host = false := by decide +kernel

theorem test_meets_HostTimersFire :
    (let s := { up with regs := { up.regs with rw := up.regs.rw.take 1 ++ [(0xC018, 1)] ++ up.regs.rw.drop 1 } };
      s.hre.loss = .none ∧ hreRun s = true ∧ 1 ≤ regF s 0xC018 13 0 ∧ regF s 0xC018 13 0 ≤ 10000 ∧ (regF s 0xC018 13 0 : Int) * 1000000 ≤ 1000000 - s.hre.beatAt)
    ∧ ¬ (1 ≤ regF up 0xC018 13 0)
    ∧ (let s := { up with hre := { up.hre with vecAt := [(2, some 0)] }, regs := { up.regs with rw := up.regs.rw ++ [(0x1202C, 0)] } };
      active s .host = true ∧ tget none 2 s.hre.vecAt = some 0 ∧ (regF s (0xC180 + 4 * 2) 31 16 : Int) * 1000 ≤ 5 ∧ hostCan s = true ∧ vecMasked s 2 = false
        ∧ hostCan { s with hre := { s.hre with busMaster := false } } = false ∧ hreRun { s with regs := RegSt.reset } = false) := by decide +kernel

theorem test_meets_QueuedWordIsWrittenAlone :
    let s := { up with pst := { up.pst with wq := [(0, 5)] } };
    aonUp s = true ∧ nvmWf s.pst = true ∧ s.pst.wq = [(0, 5)] ∧ 3 ≤ bestPrio s.pst.commits ∧ rising s.pst.bad = true ∧ nvmWord? s.pst 1 = nvmWord? s.pst 1 ∧ (1 : Nat) ≠ 0 := by
  decide +kernel

/-- An event of severity 9. -/
def anEvent : EvIn := { code := evHostLoss, src := 96, p0 := 0, p1 := 0, p2 := 0, solo := false }

theorem test_meets_EventsAndSecondsAreKept :
    (let s := { up with erc := { up.erc with inbox := [anEvent] } };
      aonUp s = true ∧ s.erc.inbox = [anEvent] ∧ s.erc.queued < 1024 ∧ s.erc.dropPending = 0 ∧ s.erc.frozen = false ∧ regF s 0x10000 3 0 ≤ severity anEvent.code
        ∧ (let z := { s with regs := { s.regs with rw := s.regs.rw ++ [(0x10000, 15)], held := [(0x10000, some 15)] } };
          severity anEvent.code < regF z 0x10000 3 0)
        ∧ (let z := { s with erc := { s.erc with frozen := true } };
          z.erc.frozen = true ∧ z.erc.pending.length < 64))
    ∧ aonUp up = true ∧ up.bsc.power ≠ .off ∧ (up.pst.opSeconds + 1) % 4294967296 % 360 ≠ 0
    ∧ (let s := { up with pst := { up.pst with opSeconds := 359 } };
      (s.pst.opSeconds + 1) % 4294967296 % 360 = 0) := by decide +kernel

theorem test_meets_RecorderFreezesAndReads :
    (Passes 0x49 (cmd 0x49 0 0 0) up ∧ up.erc.frozen = false)
    ∧ (Passes 0x49 (cmd 0x49 0 0 0) { up with erc := { up.erc with frozen := true } } ∧ Passes 0x4A (cmd 0x4A 0 0 0) { up with erc := { up.erc with frozen := true } })
    ∧ (5 : Int) - up.erc.frozenAt < 10000000000 ∧ (10000000000 : Int) ≤ 10000000000 - up.erc.frozenAt
    ∧ Passes 0x48 { cmd 0x48 0 1 0 with a2 := 0 } up := by unfold Passes; decide +kernel

/-- The registers that stage a plan of one group. -/
def planRegs : RegSt :=
  { runRegs with rw := runRegs.rw, held := [(0x000, some (w32 (128 * 65536))), (0x004, some (w32 (100 + 65536 + 1048576))), (0x008, some 1000), (0x014, some 100), (0x01C, some 1)] }

theorem test_meets_PortsStartAndStopWithTheirPlan :
    (let c := cmd 0x10 0x100 0 0;
      let s := { up with regs := planRegs };
      let x := s.stg.port (argPort c);
      Passes 0x10 c s ∧ x.stop = none ∧ x.run = 0 ∧ x.start = none ∧ bitOf c.a0 8 = true ∧ s.refs.sel ≠ none ∧ active s .port0 = true ∧ c.t ≤ grid10 (c.t + 20000)
        ∧ planOk s .p0 (stagedPlan s .p0) = true)
    ∧ (let c := cmd 0x10 0x100 0 0;
      let s := withStg (fun x => { x with stop := some (1, 5) }) up;
      Passes 0x10 c s ∧ (s.stg.port (argPort c)).stop ≠ none)
    ∧ (let c := cmd 0x11 0 0 0;
      let x := running.stg.port (argPort c);
      Passes 0x11 c running ∧ x.stop = none ∧ x.start = none ∧ x.run = 1 ∧ x.plan = some plan ∧ 0 < plan.ts ∧ x.gap = false)
    ∧ (let c := cmd 0x11 0 0 0;
      let s := withStg (fun x => { x with start := some { id := 1, t0 := 50000, plan := plan } }) up;
      Passes 0x11 c s ∧ (s.stg.port (argPort c)).stop = none ∧ (s.stg.port (argPort c)).start = some { id := 1, t0 := 50000, plan := plan })
    ∧ (let c := cmd 0x11 0 0 0;
      Passes 0x11 c up ∧ (up.stg.port (argPort c)).stop = none ∧ (up.stg.port (argPort c)).start = none ∧ (up.stg.port (argPort c)).run = 0) := by
  unfold Passes; decide +kernel

theorem test_meets_PlanChangesWaitForTheirLine :
    (let c := cmd 0x12 0 100000 0;
      let s := { running with regs := planRegs };
      let x := s.stg.port (argPort c);
      Passes 0x12 c s ∧ x.apply = none ∧ x.plan = some plan ∧ 0 < plan.ts ∧ x.run ≠ 0 ∧ x.start = none ∧ x.stop = none ∧ c.t + 20000 ≤ argA12 c
        ∧ planOk s .p0 (stagedPlan s .p0) = true)
    ∧ (let c := cmd 0x13 0 5 0;
      let x := running.stg.port (argPort c);
      let q := plan.retuned 0 (stagedWidth { running with regs := planRegs } .p0 0) true;
      Passes 0x13 c { running with regs := planRegs } ∧ x.plan = some plan ∧ x.run ≠ 0 ∧ x.start = none ∧ x.stop = none ∧ x.apply = none ∧ x.retunes = [] ∧ fld c.a0 10 8 < plan.groups
        ∧ (x.last.getD (-1)) < argA12 c ∧ someLit q = true ∧ q.maxWidth + 80 ≤ plan.ts / plan.groups ∧ bitOf (reg { running with regs := planRegs } (stgOff .p0 + 0x1C)) 0 = true)
    ∧ (let c := cmd 0x14 0 5 0;
      let x := running.stg.port (argPort c);
      Passes 0x14 c running ∧ x.plan = some plan ∧ x.gauge = none ∧ x.run ≠ 0 ∧ x.start = none ∧ x.stop = none ∧ (x.last.getD (-1)) < argA12 c ∧ 1 ≤ stagedGauge running .p0
        ∧ stagedGauge running .p0 ≤ 16 ∧ zonesOk running .p0 plan (stagedGauge running .p0) = true) := by
  unfold Passes; decide +kernel

theorem test_meets_ShotLaunchesNextLine : shotDue running .p0 0 = true ∧ shotDue running .p0 10 = false ∧ (running.stg.port .p0).plan = some plan ∧ shotDue up .p0 5 = false := by decide +kernel

theorem test_meets_PlanEventsTakeEffectAtTheirInstant :
    let r : StartReq := { id := 1, t0 := 5, plan := plan };
    let a : ApplyReq := { id := 1, p := 5, np := 1, t0 := 5, plan := plan };
    let st := fun (f : StgSt → StgSt) => (withStg f running).stg.port .p0;
    active running .port0 = true ∧ aonUp running = true ∧ (st (fun x => { x with start := some r })).start = some r ∧ r.t0 ≤ 5
      ∧ (st (fun x => { x with apply := some a, gap := true })).apply = some a ∧ (st (fun x => { x with apply := some a, gap := true })).gap = true
      ∧ (st (fun x => { x with apply := some a, gap := true })).start = none ∧ a.t0 ≤ 5 ∧ (st (fun x => { x with apply := some a })).run = 1 ∧ a.p ≤ 5
      ∧ (st (fun x => { x with stop := some (1, 5) })).stop = some (1, 5) ∧ (5 : Int) ≤ 5
      ∧ (st (fun x => { x with holdStop := some 5 })).holdStop = some 5 ∧ (st (fun x => { x with holdStop := some 5 })).stop = none := by decide +kernel

/-- Both reference inputs available, A selected. -/
def bothRefs : State := { up with refs := { up.refs with bPresent := true, bAvail := true } }

theorem test_meets_ReferencesAreSelectedAndLost :
    RefIn.a ≠ .pcie ∧ RefIn.b ≠ .pcie ∧ bothRefs.refs.sel = some .a ∧ refAvail bothRefs (refOther .a) = true ∧ refAvail up (refOther .a) = false ∧ bothRefs.refs.sel ≠ some .b
      ∧ State.reset.refs.sel = none ∧ bothRefs.refs.aPresent = true ∧ bothRefs.refs.bPresent = true ∧ bothRefs.refs.pcie = false ∧ bothRefs.refs.aAvail = true
      ∧ ({ bothRefs.refs with pcie := true } : RefSt).pcie = true ∧ (1000 : Int) < 1001 ∧ Passes 0x15 (cmd 0x15 0 0 0) bothRefs ∧ Passes 0x15 (cmd 0x15 0 0 0) up
      ∧ Passes 0x15 (cmd 0x15 0 0 0) { up with refs := RefSt.reset } := by unfold Passes; decide +kernel

theorem test_meets_HoldoverStopsAndRestartsPorts :
    let h := fun (s : State) => { s with refs := { s.refs with holdover := true, sel := none } };
    let r2 := withStg (fun x => { x with run := 2 }) running;
    (h running).refs.holdover = true ∧ (1000000 : Int) ≤ 1000000 - (h running).refs.holdAt ∧ ((h running).stg.port .p0).run = 1 ∧ ((h running).stg.port .p0).plan = some plan ∧ 0 < plan.ts
      ∧ ((h running).stg.port .p1).run ≠ 1 ∧ ((h up).stg.port .p0).run ≠ 1 ∧ (h up).bsc.power = .service ∧ ((h r2).stg.port .p0).run = 2 ∧ ((h r2).stg.port .p0).plan = some plan
      ∧ ((h up).stg.port .p0).run ≠ 2 ∧ ({ (h up).bsc with power := .holdover } : BscSt).power = .holdover ∧ RefIn.a ≠ .pcie := by decide +kernel

/-- Port 0's converters in a state. -/
def withConv (c : ConvSt) (s : State) : State := { s with clr := s.clr.setPort .p0 { s.clr.port .p0 with conv := ⟨c, c⟩ } }

/-- One lane's arrival, all clean. -/
def arrival : LaneArrival :=
  { lane := 0, validRun := 64, invalidIn64 := 0, pilotRun := 4, pilotMissing := false, k := 0, pilotAt := 0, octets := [], crcOk := true }

theorem test_meets_LinksAndGridFollowArrivals :
    active up .port0 = true ∧ linkLanes up .p0 = 2 ∧ (let l := [arrival, { arrival with lane := 1 }]; (ownArrivals up .p0 .x l).map (·.lane.val) = convLanes up .p0 .x)
      ∧ (∀ k ∈ [0, 1, 2, 3, 4], (convOf (withConv { ConvSt.reset with st := k } up) .p0 .x).st = k)
      ∧ Passes 0x16 (cmd 0x16 0 0 0) (withConv { ConvSt.reset with st := 4 } up) ∧ Passes 0x16 (cmd 0x16 0 0 0) up ∧ (convOf up .p0 .x).st ≠ 4 ∧ up.refs.sel ≠ none
      ∧ (up.clr.port .p0).grid = none ∧ (up.stg.port .p0).run = 0 ∧ (convOf up .p0 .x).st ≠ 3 ∧ (convOf up .p0 .y).st ≠ 3
      ∧ (({ running with clr := running.clr.setPort .p0 { running.clr.port .p0 with grid := some 7 } } : State).clr.port .p0).grid = some 7 ∧ (running.stg.port .p0).run ≠ 0
      ∧ (running.clr.port .p0).grid = none 
      ∧ (let g := { up with clr := up.clr.setPort .p0 { up.clr.port .p0 with grid := some 7 } };
          (g.clr.port .p0).grid = some 7 ∧ (g.stg.port .p0).run = 0 ∧ (∀ q ∈ [Pol.x, .y], (convOf g .p0 q).st = 0 ∨ (convOf g .p0 q).st = 4)) ∧ (convOf (withConv { ConvSt.reset with st := 1 } up) .p0 .x).st ≠ 0 := by
  unfold Passes; decide +kernel

/-- A lit shot of the plan. -/
def shot0 : Shot := { n := 0, group := 0, t := 0, lit := some 0, dark := false, step := false, lt := true, plan := plan, gset := false }

/-- A dark shot of the plan. -/
def dark0 : Shot := { shot0 with lit := none, dark := true }

/-- A line sample handed over. -/
def line0 (q : Shot) (block : Nat) : LineS := { shot := q, missed := false, prevMissed := false, overrun := false, bulk := false, noStream := false, block := block }

/-- Port 0 with shots that wait. -/
def queued (q : List Shot) : State := { running with sin := running.sin.setPort .p0 { running.sin.port .p0 with queue := q } }

/-- Port 0 with line samples handed over. -/
def handed (l : List LineS) : State := { running with sin := running.sin.setPort .p0 { running.sin.port .p0 with lines := l } }

theorem test_meets_CapturedInstantsAreStored :
    let s := { queued [shot0] with clr := running.clr.setPort .p0 { running.clr.port .p0 with grid := some 0 } };
    let tc := signed (regF s (clrOff .p0 + 4) 12 0) 13;
    (s.clr.port .p0).grid = some 0 ∧ active s .port0 = true ∧ (s.sin.port .p0).slates.length ≤ 4096
      ∧ ((List.range 127).map (fun (i : Nat) => inSpans (openSpans (s.sin.port .p0)) (0 + 5 * lemcPeriod s .p0 + tc + i))).any id = true
      ∧ (126 : Int) < lemcPeriod s .p0
      ∧ gotSample { s.sin.port .p0 with slates := [{ start := 0, x := [], y := [], gotX := 1, gotY := 0, marks := 0 }] } .x 0 = true := by decide +kernel

theorem test_meets_LineSamplesAdvanceInOrder :
    (let s := queued [dark0];
      active s .port0 = true ∧ (s.sin.port .p0).queue = [dark0] ∧ lineReady (atTime 5 s) .p0 dark0 = true ∧ ((sampleSteps .p0 (atTime 5 s)).sin.port .p0).step3 = false)
    ∧ (let s0 := queued [dark0];
      let s := { s0 with regs := { runRegs with held := [(0x2000, some 0), (0x2004, some 0)] } };
      active s .port0 = true ∧ (s.sin.port .p0).queue = [dark0] ∧ lineReady (atTime 5 s) .p0 dark0 = true ∧ ((sampleSteps .p0 (atTime 5 s)).sin.port .p0).step3 = true)
    ∧ ((handed [line0 dark0 0]).sin.port .p0).lines = [line0 dark0 0] ∧ dark0.lit = none
    ∧ ((handed [line0 shot0 0]).sin.port .p0).lines = [line0 shot0 0] ∧ shot0.lit ≠ none ∧ blockReady (atTime 100000 (handed [line0 shot0 0])) .p0 (line0 shot0 0) = true
    ∧ 64 * (0 + 1) < plan.nbins ∧ blockReady (atTime 100000 (handed [line0 shot0 1])) .p0 (line0 shot0 1) = true ∧ plan.nbins ≤ 64 * (1 + 1)
    ∧ blockReady (atTime 0 (handed [line0 shot0 0])) .p0 (line0 shot0 0) = false := by decide +kernel

/-- A line sample in the corner-turn, the last of a block of 16. -/
def tok : LineTok :=
  { n := 15, t := 0, lt := true, ts := 20000, delta := 20000, toff := 0, groups := 1, start := false, gaugeNew := false, scale := 1000, ofSlow := false, decim := 1, noStream := false, bins := [], offs := [] }

/-- FCH0 with something set. -/
def withFch (f : FchSt → FchSt) (s : State) : State := mapFch .f0 f s

theorem test_meets_ClosedBlockPassesThroughChain :
    let s := withFch (fun x => { x with run := true, buf := [tok], nY := some 0 }) up;
    active s .port0 = true ∧ closedBlock (lastLineOf (fchOf s .f0)) [] (fchOf s .f0).buf = some ([tok], []) ∧ tok.start = false ∧ tok.gaugeNew = false ∧ (fchOf s .f0).run = true
      ∧ (fchOf s .f0).syncs = [] ∧ (fchOf s .f0).swap = none ∧ (fchOf s .f0).endAt ≠ some tok.n ∧ (fchOf s .f0).implicit ≠ some tok.n ∧ (fchOf s .f0).nY = some 0 ∧ (fchOf s .f0).gate ≤ tok.n
      ∧ (tok.n - 0) % ((fchOf s .f0).m : Int) = ((fchOf s .f0).m : Int) - 1 := by decide +kernel

theorem test_meets_SyncsWaitAtTheirInstances :
    let r := withFch (fun x => { x with run := true }) up;
    let c := cmd 0x18 0x101 0 0;
    let pin := { r with regs := { runRegs with held := [(fchOff .f0 + 8, some 1)] } };
    Passes 0x18 c r ∧ Passes 0x18 c up ∧ bitOf c.a0 8 = true ∧ bitOf c.a0 0 = true ∧ (fchOf r .f0).run = true ∧ syncLate r .f0 (grid10 (c.t + 20000)) = false
      ∧ (fchOf up .f0).run = false ∧ (fchOf up .f1).run = false ∧ (fchOf up .field).run = false
      ∧ bitOf (reg pin (fchOff .f0 + 8)) 0 = true ∧ active pin .port0 = true ∧ (fchOf pin .f0).syncs.any (fun r => r.src == 0) = false
      ∧ bitOf (reg r (fchOff .f0 + 8)) 0 = false ∧ bitOf (reg r (fchOff .f0 + 8)) 1 = false ∧ active r .port0 = true := by
  unfold Passes; decide +kernel

theorem test_meets_ChainChangesKeepTheirLimits :
    let c := cmd 0x19 0 64 0;
    let r := withFch (fun x => { x with run := true }) up;
    let w := withFch (fun x => { x with swap := some { id := 1, ns := 0 } }) r;
    let e := withFch (fun x => { x with entered := some (64, 0, true) }) r;
    let bad := { r with regs := { runRegs with held := [(fchOff .f0 + 0x200, some 0x50000001)] } };
    let low := { up with pst := { up.pst with words := [(pregWord (fchOff .f0 + 0x18), 1)] } };
    Passes 0x19 c r ∧ Passes 0x19 c up ∧ Passes 0x19 c w ∧ Passes 0x19 c e ∧ Passes 0x19 c bad ∧ (fchOf r .f0).run = true ∧ (fchOf r .f0).swap = none
      ∧ (fchOf r .f0).entered.any (fun e => decide (swapLine (phaseOf r .f0) (argA12 c) ≤ e.1)) = false ∧ (fchBank r .f0 (!(fchOf r .f0).bankB)).ok = true
      ∧ (fchOf up .f0).run = false ∧ (fchOf w .f0).swap ≠ none ∧ (fchOf e .f0).entered.any (fun x => decide (swapLine (phaseOf e .f0) (argA12 c) ≤ x.1)) = true
      ∧ (fchBank bad .f0 true).ok = false
      ∧ active up .host = true ∧ lands up (pregWord (fchOff .f0 + 0x1C)) = true ∧ loadOk up .f0 (bitOf 0 0) 0x10000000 (reg up (fchOff .f0 + 0x20)).toNat [] = true
      ∧ (regStored up (fchOff .f0 + 0x18)).toNat = 0x10000000 ∧ active low .host = true ∧ lands low (pregWord (fchOff .f0 + 0x1C)) = true
      ∧ (regStored low (fchOff .f0 + 0x18)).toNat = 1 := by
  unfold Passes; decide +kernel

/-- A device whose bank A is ACTIVE and holds some words, by their word numbers in the NVM. -/
def banked (ws : Tab Word) : State := { up with pst := { up.pst with bankA := .active, words := ws } }

/-- One lane retired. -/
def retired (l : Lane) (s : State) : State := { s with lcm := { s.lcm with cond := s.lcm.cond.setLane l .retired } }

/-- A decimation point for the heads. -/
def point : ZPoint := { kind := 0, n := 15, t := 0, thb := 0, toff := 0, lt := true, pd := 20000, outs := [], offs := [] }

/-- An AXLE event of head 0 in the + direction. -/
def axle : HEvent := { ty := 1, neg := false, lt := true, zone := 1, pending := 0, head := 0, t := 0, data := 0, marks := 0, rst := none }

/-- Lane X's event queue at its 4096 events. -/
def fullQueue (s : State) : State := mapHen .x (fun e => { e with queue := List.replicate 4096 (.ev none axle) }) s

/-- Head 0 enabled on port 0. -/
def head0 : Tab Word := [(4096 + 0x240, 0x80000000)]

theorem test_meets_DecimationPointReachesHeads :
    let s := withFch (fun x => { x with zq := [point] }) up;
    let c := cmd 0x20 0 0 0;
    (fchOf s .f0).zq = [point] ∧ bothLanes.any (fun l => laneTakes s l && henFull s l) = false ∧ laneTakes (retired .y s) .y = false
      ∧ bothLanes.any (fun l => laneTakes (fullQueue s) l && henFull (fullQueue s) l) = true ∧ Passes 0x20 c (retired .y (banked head0))
      ∧ (headRec (retired .y (banked head0)) (fld c.a0 12 0)).isSome = true ∧ (retired .y (banked head0)).hre.out = [] ∧ serving (retired .y (banked head0)) .x = true
      ∧ serving (retired .y (banked head0)) .y = false ∧ laneTakes (retired .y (banked head0)) .x = true := by unfold Passes; decide +kernel

/-- A bulk job. -/
def job (kind : Nat) (res : Resource) : Job :=
  { id := 1, index := 0, prio := 3, res := res, since := 0, kind := kind, args := [1], pos := 0, total := 1, waitAt := none }

/-- A job that runs. -/
def working (j : Job) : State := { up with bsc := { up.bsc with running := [j] } }

/-- This node owns a DIAG ID. -/
def diagOwner : State := { banked [(4096 + 0xA240, 0xA041), (4096 + 0xA241, 1)] with regs := { runRegs with held := [(0x9004, some 1)] } }

theorem test_meets_JobsRunInQuanta :
    Passes 0x21 (cmd 0x21 0 1 0) up ∧ Passes 0x2C (cmd 0x2C 0 1 0) up ∧ Passes 0x50 (cmd 0x50 0 0 0) up ∧ (up.bsc.jobs ++ up.bsc.running).any (isRetrieval 0) = false
      ∧ ((working { job 0x50 .host with args := [0] }).bsc.jobs ++ (working { job 0x50 .host with args := [0] }).bsc.running).any (isRetrieval 0) = true
      ∧ Passes 0x58 { cmd 0x58 32 0 0 with buf := some [0] } diagOwner ∧ ownsDiag diagOwner = true ∧ Passes 0x58 (cmd 0x58 32 0 0) up ∧ ownsDiag up = false
      ∧ Passes 0x58 (cmd 0x58 32 0 0) diagOwner ∧ (cmd 0x58 32 0 0).buf = none
      ∧ (∀ j ∈ [job 0x58 .host, job 0x21 .lanes, job 0x2C .lanes], (working j).bsc.running = [j] ∧ (working j).bsc.jobs = [])
      ∧ (let j := { job 0x39 .nvm with args := [0], total := 130 }; let s := { working j with cal := { up.cal with seed := some (1, 1) } };
          s.bsc.running = [j] ∧ j.res = .nvm ∧ s.cal.seed = some (1, 1) ∧ aonUp s = true)
      ∧ (job 0x21 .lanes).total ≤ (job 0x21 .lanes).pos + 64 / 32 ∧ (job 0x2C .lanes).total ≤ (job 0x2C .lanes).pos + 64 / 64 := by unfold Passes; decide +kernel

/-- A lane's store at its 32768 items. -/
def fullStore : State :=
  mapSld .x (fun e => { e with sects := [(0, some { SectSt.new 0 0 0 with items := List.replicate 32768 { key := 0, cls := 0, bi := 0, cover := false, ord := 0, late := false, ev := .rock } })] }) up

theorem test_meets_ItemsWaitForTheTick :
    let s := mapHen .x (fun e => { e with queue := [.ev none axle] }) up;
    let r := { up with rctq := ⟨[.ev (some 1) axle], []⟩ };
    (laneTakes s .x = true ∧ storeRoom s .x (.ev none axle) = true) ∧ (s.hen.lane .x).queue = [.ev none axle]
      ∧ (laneTakes r .x = true ∧ storeRoom r .x (.ev (some 1) axle) = true) ∧ r.rctq.lane .x = [.ev (some 1) axle] ∧ ¬ laneTakes (retired .x up) .x = true
      ∧ ¬ storeRoom fullStore .x (.ev none axle) = true := by decide +kernel

/-- Section 0 as lane X has it. -/
def withSect (x : SectSt) (s : State) : State := mapSld .x (fun e => { e with sects := [(0, some x)] }) s

/-- A PREP_RESET that waits. -/
def scmd (kind : Nat) : SCmd := { id := 1, kind := kind, ref := 5, re := 7 }

theorem test_meets_SectionCommandsWaitTwoRounds :
    (∀ op ∈ [0x28, 0x29, 0x2A, 0x2B], (examine op (cmd op 0 0 0) (takeCmd (cmd op 0 0 0) (atTime 1000 up))).1 = none ∧ canExamine (atTime 1000 up) = true)
      ∧ bothLanes.any (fun l => laneTakes (atTime 1000 up) l && (sectCmd (atTime 1000 up) l 0).cmd.isSome) = false
      ∧ (let s := withSect { SectSt.new 0 0 0 with cmd := some (scmd 0) } up;
          bothLanes.any (fun l => laneTakes (atTime 1000 s) l && (sectCmd (atTime 1000 s) l 0).cmd.isSome) = true)
      ∧ laneTakes (atTime 1000 (retired .y up)) .y = false := by decide +kernel

theorem test_meets_ResetsSetCountFromNetLog :
    let s := withSect { SectSt.new 0 0 0 with st := 1, count := -1, net := [{ round := 6, sum := 2, sat := false }], cmd := some (scmd 0) } up;
    let n := withSect { SectSt.new 0 0 0 with st := 5, count := -1, net := [{ round := 6, sum := -2, sat := false }], cmd := some (scmd 2) } up;
    cmdFails (scmd 0) (sectCmd s .x 0) = none ∧ cmdFails (scmd 1) (sectCmd s .x 0) ≠ none ∧ (sectCmd s .x 0).st ≠ 0 ∧ cmdFails (scmd 2) (sectCmd s .x 0) = none
      ∧ cmdFails (scmd 2) (sectCmd n .x 0) = none ∧ cmdFails (scmd 3) (sectCmd n .x 0) = none
      ∧ (∃ y, tget none 0 ((cmdRun .x 0 { nbound := 0, limit := 9 } (scmd 2) n).2.sld.lane .x).sects = some y ∧ y.count = -2)
      ∧ (∃ y, tget none 0 ((cmdRun .x 0 { nbound := 0, limit := 9 } (scmd 3) n).2.sld.lane .x).sects = some y ∧ y.count = -1)
      ∧ (∃ y, tget none 0 ((cmdRun .x 0 { nbound := 0, limit := 9 } (scmd 2) s).2.sld.lane .x).sects = some y ∧ y.count = 2) := by
  refine ⟨by decide +kernel, by decide +kernel, by decide +kernel, by decide +kernel, by decide +kernel, by decide +kernel, ⟨_, rfl, by decide +kernel⟩, ⟨_, rfl, by decide +kernel⟩,
    ⟨_, rfl, by decide +kernel⟩⟩

/-- A device with words of bank A that is CHECKING, with a CMD key and a DATA key. -/
def checking (ws : Tab Word) : State :=
  { up with pst := { up.pst with bankA := .checking, words := ws },
            sec := { up.sec with slots := [{ status := 1, key := 1 }, { status := 1, key := 2 }, KeySlot.reset, KeySlot.reset, KeySlot.reset] } }

/-- A bank switch that waits for its check. -/
def switch : TopoWait := { id := 1, bank := .a, gen := 1, round := 1, startAt := 0, acceptedAt := 0 }

/-- The words of a bank that names nothing: FORMAT 1, GEN 1, a CRC, key 1 named and valid. -/
def bareBank (crc : Word) : Tab Word := [(4096, 1), (4097, 1), (4098, crc), (4100, 0x10)]

/-- The CRC of that bank's words from word 4 on. -/
def bareCrc : Word := crc32cWords ((span 4 0xBFBC).map (bankWord (checking (bareBank 0)) .a))

theorem bankWord_bareBank (v : Word) (w : Nat) (h : 4 ≤ w) : bankWord (checking (bareBank v)) .a w = bankWord (checking (bareBank 0)) .a w := by
  have h2 : ¬ 4098 = 4096 + w := by omega
  simp [bankWord, checking, bareBank, nvmWord, nvmWord?, bankBase, tget, h2]

theorem bareCrc_holds : crc32cWords ((span 4 0xBFBC).map (bankWord (checking (bareBank bareCrc)) .a)) = bankWord (checking (bareBank bareCrc)) .a 2 := by
  have h : (span 4 0xBFBC).map (bankWord (checking (bareBank bareCrc)) .a) = (span 4 0xBFBC).map (bankWord (checking (bareBank 0)) .a) := by
    apply List.map_congr_left
    intro w hw
    apply bankWord_bareBank
    simp [span] at hw
    omega
  rw [h]
  show bareCrc = _
  generalize bareCrc = v
  simp [bankWord, checking, bareBank, nvmWord, nvmWord?, bankBase, tget, up, State.reset, PstSt.reset]

theorem bareBank_passes : bankFails (atTime 0 (checking (bareBank bareCrc))) switch = none := by
  have hc : crc32cWords ((span 4 0xBFBC).map (bankWord (atTime 0 (checking (bareBank bareCrc))) .a)) = bankWord (atTime 0 (checking (bareBank bareCrc))) .a 2 := bareCrc_holds
  unfold bankFails
  simp only [show switch.bank = .a from rfl]
  rw [if_neg (by decide +kernel), if_neg (by decide +kernel), if_neg (by decide +kernel), if_neg (not_not.mpr hc), if_neg (by decide +kernel), if_neg (by decide +kernel),
    if_neg (by decide +kernel), if_neg (by decide +kernel), if_neg (by decide +kernel), if_neg (by decide +kernel), if_neg (by decide +kernel), if_neg (by decide +kernel)]

theorem test_meets_BankIsCheckedBeforeItsRound :
    (let c := cmd 0x38 0 1 0;
      let b := atTime 1000 up;
      Passes 0x38 c up ∧ bankState up .a = .inactive ∧ bankState up .b = .inactive ∧ 40000000 ≤ (topoStart b (join64 c.a2 c.a3)).2 - c.t
      ∧ bankState (banked []) .a ≠ .inactive ∧ Passes 0x38 c (banked []) ∧ (topoStart b (join64 1 0)).2 - c.t < 40000000 ∧ Passes 0x38 { c with a2 := 1 } up
      ∧ bankState (setBankState .b .checking up) .b = .checking ∧ Passes 0x38 c (setBankState .b .checking up))
    ∧ (let s := { checking (bareBank bareCrc) with pst := { (checking (bareBank bareCrc)).pst with topo := some switch } };
      let e := { checking [] with pst := { (checking []).pst with topo := some switch } };
      s.pst.topo = some switch ∧ bankState s switch.bank = .checking ∧ bankFails (atTime 0 s) switch = none
      ∧ e.pst.topo = some switch ∧ bankState e switch.bank = .checking ∧ bankFails (atTime 0 e) switch = some 1 ∧ bankState (setBankState .a .pending e) .a ≠ .checking) := by
  refine ⟨by unfold Passes; decide +kernel, rfl, rfl, bareBank_passes, rfl, rfl, ?_, ?_⟩
  · unfold bankFails; rw [if_pos (by decide +kernel)]
  · decide +kernel

/-- A device in START with its lanes' self-tests over. -/
def starting (n : Nat) : State := { up with bsc := { up.bsc with power := .start, bringup := n } }

theorem test_meets_BringupTestsThenServes :
    let com := fun (auto : Word) (s : State) => ({ s with pst := { s.pst with committed := some .a, committedGen := 1 }, regs := { s.regs with held := [(0xF004, some auto)] } } : State);
    let dead := { starting 2 with sec := { up.sec with lifecycle := 5 } };
    let t1 := { starting 1 with bsc := { (starting 1).bsc with tested := ⟨false, true⟩ } };
    (starting 2).bsc.power = .start ∧ (starting 2).bsc.bringup = 2 ∧ order2Up (atTime 0 (starting 2)) = true ∧ (starting 2).sec.lifecycle ≠ 5
      ∧ dead.sec.lifecycle = 5 ∧ order2Up (atTime 0 dead) = true ∧ (com 1 (starting 2)).pst.committed = some .a ∧ regF (com 1 (starting 2)) 0xF004 0 0 = 1
      ∧ topoRefusal (atTime 0 (com 1 (starting 2))) .a 0 = none ∧ (starting 2).pst.committed = none ∧ regF (com 0 (starting 2)) 0xF004 0 0 ≠ 1 ∧ up.bsc.power ≠ .start
      ∧ laneStarting (starting 1) .x = true ∧ active (starting 1) .lanex = true ∧ (starting 1).bsc.bringup = 1 ∧ laneStarting t1 .x = true ∧ t1.bsc.tested.lane .y = true
      ∧ serving (starting 1) .y = true ∧ laneStarting up .x = false
      ∧ laneStarting (retired .y (starting 1)) .x = true ∧ active (retired .y (starting 1)) .lanex = true ∧ (retired .y (starting 1)).bsc.bringup = 1
      ∧ serving (retired .y (starting 1)) .y = false := by decide +kernel

theorem test_meets_TickAppliesWhatIsDue :
    let s := withSect { SectSt.new 0 0 0 with at_ := some 5 } up;
    State.reset.sec.decom = none ∧ ({ up with bsc := { up.bsc with power := .standby } } : State).bsc.power = .standby
      ∧ (sectOf s .x 0 { nbound := 0, limit := 9 }).st ≠ 0 ∧ (sectOf s .x 0 { nbound := 0, limit := 9 }).at_ = some 5
      ∧ (sectOf (withSect (SectSt.new 0 0 0) up) .x 0 { nbound := 0, limit := 9 }).at_ = none := by decide +kernel

/-- A re-admission in a step. -/
def readmit (step : Nat) (id : Option Nat) : Readmit := { step := step, id := id, shadow := 0, joined := false, since := 0 }

/-- Lane X in re-admission. -/
def returning (r : Readmit) : State := { up with lcm := { up.lcm with cond := ⟨.readmission, .serving⟩, readm := ⟨some r, none⟩ } }

theorem test_meets_RetiredLaneFallsSilent :
    let c := cmd 0x30 0 0 0;
    (∀ s ∈ [up, retired .x up, retired .y up, returning (readmit 3 none)], canExamine (atTime 1000 s) = true ∧ (examine 0x30 c (takeCmd c (atTime 1000 s))).1 = none)
      ∧ argLane c = .x ∧ up.lcm.cond.lane .x = .serving ∧ serving up .y = true ∧ (retired .y up).lcm.cond.lane .x = .serving ∧ serving (retired .y up) .y = false
      ∧ (retired .x up).lcm.cond.lane .x = .retired ∧ (returning (readmit 3 none)).lcm.cond.lane .x = .readmission := by decide +kernel

theorem test_meets_ReturningLaneTakesServingSlates :
    let c := cmd 0x31 0 0 0;
    let d2 := { retired .x up with sec := { up.sec with level := 2, target := .x } };
    let off := { retired .x up with dom := { doms with lanex := DomSt.reset } };
    let both := retired .y (retired .x up);
    (∀ s ∈ [up, retired .x up, returning (readmit 3 none), returning (readmit 3 (some 1)), off, both],
        canExamine (atTime 1000 s) = true ∧ (examine 0x31 c (takeCmd c (atTime 1000 s))).1 = none)
      ∧ argLane c = .x ∧ examinable c (atTime 1000 d2) = true ∧ argsOk 0x31 c = true ∧ d2.bsc.power ≠ .safehalt ∧ (retired .x up).lcm.cond.lane .x = .retired ∧ serving (retired .x up) .y = true
      ∧ (off.dom.get .lanex).st = .off ∧ off.lcm.cond.lane .x = .retired ∧ (returning (readmit 3 none)).lcm.readm.lane .x = some (readmit 3 none)
      ∧ d2.sec.level = 2 ∧ d2.sec.target = argLane c ∧ (both.lcm.cond.lane .x = .retired ∧ serving both .y = false) ∧ up.lcm.cond.lane .x = .serving
      ∧ (returning (readmit 3 (some 1))).lcm.readm.lane .x = some (readmit 3 (some 1)) ∧ (readmit 3 none).step = 3 ∧ active (returning (readmit 3 none)) .lanex = true
      ∧ (returning (readmit 3 none)).lcm.cond.lane .x = .readmission ∧ (returning (readmit 4 none)).lcm.readm.lane .x = some (readmit 4 none) ∧ (readmit 4 none).step ≠ 3 := by
  decide +kernel

/-- The comparison of one lane: equal digests, an outcome, the blocks it may release. -/
def comp (out : Option (List Nat)) (rel : List Nat) : CompSt := { CompSt.reset with dig := List.replicate 192 0, out := out, rel := rel, msgs := [(1, [5])] }

/-- Both lanes with digests of one round. -/
def compared (x y : CompSt) : State := { up with lcm := { up.lcm with comp := ⟨x, y⟩ } }

theorem test_meets_LanesCompareBeforeRelease :
    let s := compared (comp none []) (comp none []);
    let h := compared (comp none []) (comp (some []) []);
    let r := compared (comp (some []) [0, 1]) (comp (some []) []);
    let one := retired .y r;
    serving s .x = true ∧ serving s .y = true ∧ comparing up = false ∧ comparing s = true ∧ (0 : Word) = lo32 (s.lcm.comp.lane .x).round ∧ (s.lcm.comp.lane .x).out = none
      ∧ (s.lcm.comp.lane .y).out = none ∧ serving h .x = true ∧ serving h .y = true ∧ comparing h = true ∧ (h.lcm.comp.lane .x).out = none ∧ (h.lcm.comp.lane .y).out = some []
      ∧ (List.range 192).filter (fun k => nth 0 (h.lcm.comp.lane .x).dig k != nth 0 (List.replicate 192 (0 : Word)) k) = []
      ∧ (1 : Word) ≠ lo32 (s.lcm.comp.lane .x).round ∧ comparing r = true ∧ (r.lcm.comp.lane .x).out ≠ none
      ∧ (serving r .x = true ∧ 0 ∈ (r.lcm.comp.lane .x).rel) ∧ tget [] 0 (r.lcm.comp.lane .x).msgs = [] ∧ tget [] 1 (r.lcm.comp.lane .x).msgs ≠ [] ∧ aonUp r = true
      ∧ (1 ∈ (r.lcm.comp.lane .x).rel) ∧ (serving one .x = true ∧ 1 ∈ (one.lcm.comp.lane .x).rel ∧ serving one .y = false) ∧ ¬ (serving s .x = true ∧ 0 ∈ (s.lcm.comp.lane .x).rel)
      ∧ aonUp { r with dom := { doms with aon := DomSt.reset } } = false := by decide +kernel

theorem test_meets_SurveysAndSweepsWait :
    let c := cmd 0x40 0 0x10000 16;
    let v : Survey := { id := 1, bin := false, ba := 0, nb := 64, lines := 1, buf := 0, begun := false, taken := 0, missed := 0, terms := [], bins := [] };
    let b := { running with cal := { running.cal with survey := ⟨some v, none⟩ } };
    let far := { c with a1 := 0x20040 };
    let w := cmd 0x42 0 1 1;
    let x : Sweep := { id := 1, first := 0, count := 1, endAt := 5, buf := 0, recs := [], words := none };
    let j := { job 0x42 .lanes with args := [], total := 0 };
    let sw := { up with cal := { up.cal with sweep := some x }, bsc := { up.bsc with jobs := [j] } };
    let busy := { sw with bsc := { sw.bsc with running := [{ job 0x21 .lanes with id := 2 }] } };
    Passes 0x40 c up ∧ (up.stg.port (argPort c)).plan = none ∧ Passes 0x40 c running ∧ (running.stg.port (argPort c)).plan = some plan ∧ (running.stg.port (argPort c)).run ≠ 0
      ∧ running.cal.survey.port (argPort c) = none ∧ plan.b0 ≤ fld c.a1 15 0 ∧ fld c.a1 15 0 + 64 * fld c.a1 31 16 ≤ plan.b0 + plan.nbins
      ∧ examinable far (atTime 1000 running) = true ∧ argsOk 0x40 far = true ∧ plan.b0 + plan.nbins < fld far.a1 15 0 + 64 * fld far.a1 31 16
      ∧ (sw.bsc.jobs ++ sw.bsc.running).find? (fun j => j.id == x.id) = some j ∧ j.pos = 0 ∧ leanCause sw.bsc = false ∧ sw.bsc.running = []
      ∧ (busy.bsc.jobs ++ busy.bsc.running).find? (fun j => j.id == x.id) = some j ∧ (∃ k ∈ busy.bsc.running, k.res = .lanes ∧ k.id ≠ x.id)
      ∧ Passes 0x40 c b ∧ b.cal.survey.port (argPort c) ≠ none ∧ Passes 0x42 w up ∧ up.cal.sweep = none ∧ Passes 0x42 w sw ∧ sw.cal.sweep = some x ∧ x.endAt ≤ 5 ∧ (4 : Int) < x.endAt := by
  unfold Passes; decide +kernel

theorem test_meets_CalibrationIsCommitted :
    let c := cmd 0x39 0 0 0;
    let b := banked [];
    let sv := { b with cal := { b.cal with seed := some (1, 0) } };
    let due := fun (s : State) => { s with regs := { s.regs with held := [(0x6010, some 1)] }, pst := { s.pst with opSeconds := 3600 } };
    let l := cmd 0x41 1 0 0;
    let lh := banked [(4096 + 0x240, 0xC0000000)];
    Passes 0x39 c b ∧ activeBank b = some .a ∧ b.cal.seed = none ∧ Passes 0x39 c sv ∧ activeBank sv = some .a ∧ sv.cal.seed ≠ none ∧ Passes 0x39 c up ∧ activeBank up = none
      ∧ activeBank (due b) ≠ none ∧ regF (due b) 0x6010 7 0 = 1 ∧ (due b).cal.seedAt + 3600 * 1 ≤ (due b).pst.opSeconds ∧ aonUp (due b) = true ∧ (due b).cal.seed = none
      ∧ (due sv).cal.seed ≠ none ∧ activeBank (due up) = none
      ∧ Passes 0x41 l up ∧ active up .field = true ∧ (portHeads up 2) = [] ∧ Passes 0x41 l { up with dom := { doms with field := DomSt.reset } }
      ∧ (let w := { up with cal := { up.cal with legacy := some { id := 1, left := [0], res := 0 } } }; Passes 0x41 l w ∧ w.cal.legacy ≠ none) ∧ up.cal.legacy = none
      ∧ Passes 0x41 l lh ∧ (portHeads lh 2).any (fun e => ([0].contains e.2.z1 || [0].contains e.2.z2)
        && bothLanes.any (fun l => laneTakes lh l && (headOf lh l e.1 (profile lh e.2.profile)).st != 4)) = true := by unfold Passes; decide +kernel

/-- FIELD in service, its first system with something set. -/
def fieldOn (f : LSys → LSys) : State := { up with lhf := { up.lhf with on := true, sys := f LSys.reset :: List.replicate 7 LSys.reset } }

theorem test_meets_ConversionsFollowTheirSlots :
    let s := fieldOn id;
    let u := { s with lhf := { s.lhf with sar := { s.lhf.sar with a := { s.lhf.sar.a with wait := [(0, 0, 200)] } } } };
    (active s .field = true ∧ s.lhf.on = true) ∧ s.lhf.sar.a.k < s.lhf.sys.length ∧ 0 < s.lhf.sys.length ∧ 0 < (sysOf s 0).faults.length
      ∧ s.lhf.sar.a.wait = [] ∧ s.lhf.sar.a.routine = none ∧ (1790 : Int) = max (s.lhf.tG + 0) s.lhf.sar.a.free + 1790 ∧ (u.lhf.sar.a.wait = [(0, 0, 200)] ∧ u.lhf.sar.a.routine = none
      ∧ (0 : Int) < max (u.lhf.tG + 0) u.lhf.sar.a.free + 1790 ∧ (sysOf u 0).change = none ∧ 190 ≤ (200 : Int)) ∧ (3000000 : Int) % 1000000 = 0 ∧ s.lhf.sar.a.urg = none
      ∧ ¬ (active up .field = true ∧ up.lhf.on = true) := by decide +kernel

/-- A tone burst. -/
def burst (skip past : Bool) : Burst := { n := 0, start := 0, stop := 2000000, f := 0, bb := 1, ti := 0, tq := 0, cnt := 8, skip := skip, past := past }

theorem test_meets_LegacySystemsFollowTheirCommands :
    let cl := fieldOn (fun x => { x with clamp := some (0, true) });
    let tone := { fieldOn (fun x => { x with en := true }) with regs := { runRegs with held := [(0xB004, some 2)] } };
    (active cl .field = true ∧ cl.lhf.on = true) ∧ (sysOf cl 0).clamp = some (0, true) ∧ nth false (sysOf cl 0).faults 4 = false ∧ (sysOf up 0).clamp = none
      ∧ (active tone .field = true ∧ tone.lhf.on = true) ∧ ctlF tone 0 1 1 ≠ 0 ∧ (sysOf tone 0).en = true ∧ (sysOf up 0).en = false
      ∧ (sysOf (fieldOn (fun x => { x with burst := some (burst false true) })) 0).burst = some (burst false true) ∧ (burst false true).skip = false ∧ (burst false true).past = true
      ∧ (sysOf (fieldOn (fun x => { x with burst := some (burst true true) })) 0).burst = some (burst true true) ∧ (burst true true).skip = true ∧ (burst true true).past = true ∧ (sysOf up 0).burst = none
      ∧ (burst false false).past = false ∧ nth false (sysOf tone 0).faults 0 = false ∧ (0 : Int) = tone.lhf.tT + 250000000 * ((0 : Nat) : Int) + 31250000 * ((0 : Nat) : Int)
      ∧ (∀ k : Fin 1, (1 : Int) ≠ tone.lhf.tT + 250000000 * (k.val : Int)) ∧ active up .host = true ∧ (fld (0xC80001 : Word) 23 16 ≤ 200 ∧ fld (0xC80001 : Word) 15 8 ≤ 200) ∧ ¬ fld (0xC90001 : Word) 23 16 ≤ 200
      ∧ (175921860 ≤ fld (175921860 : Word) 29 0 ∧ fld (615726512 : Word) 29 0 ≤ 615726512) ∧ ¬ 175921860 ≤ fld (175921859 : Word) 29 0 ∧ ¬ fld (615726513 : Word) 29 0 ≤ 615726512
      ∧ lands up (pregWord 0xB004) = true ∧ active up .field = true ∧ (sysOf up 0).change = none ∧ bitOf (0xC80001 : Word) 0 ≠ bitOf (reg up 0xB004) 0
      ∧ fld (reg up 0xB004) 15 8 = fld (reg up 0xB004) 15 8 := by decide +kernel

/-- A block of a definition. -/
def block (n : Nat) : Block := { d := 0, bytes := List.replicate n 1, k := 0, time := 0, lt := false, n := 0 }

/-- STR0 with its buffer: what it holds, what is posted. -/
def ring0 (fill : List Byte) (posted : List Posted) : RingSt := { done := 0, post := 0, seq := 0, posted := posted, shed := 0, fill := fill, items := 0 }

/-- STR0 enabled, a queue for it, its buffer and the instant of its FLUSH. -/
def streaming (q : List Block) (g : RingSt) (at_ : Option Int) : State :=
  { up with regs := { runRegs with rw := runRegs.rw ++ [(0xC078, 0x106)] }, hsc := { up.hsc with strq := if q.isEmpty then [] else [(0, q)], strAt := [(0, at_)] },
            hre := { up.hre with rings := [(0, some g)] } }

/-- A posted buffer of STR0. -/
def posted0 : Posted := { ring := .str 0, index := 0, addr := 4096, length := 4096 }

/-- History region 0 with blocks that wait for it. -/
def storing (g : RegionSt) (q : List Block) : State :=
  { up with hsc := { up.hsc with regions := [(0, some g)], hisq := if q.isEmpty then [] else [(0, q)], eccReady := true } }

/-- A region that is enabled. -/
def region0 : RegionSt :=
  { en := true, hold := false, wptr := 0, wraps := 0, shed := 0, heldAt := 0, countdown := none, armed := true, blocks := [], fresh := false, gap := false, lastN := none }

theorem test_meets_BlocksReachStreamsAndHistory :
    let b := block 64;
    let s := streaming [b] (ring0 [] [posted0]) none;
    let none' := streaming [b] (ring0 [] []) none;
    let f := streaming [] (ring0 [1] [posted0]) (some 5);
    let h := storing region0 [b];
    tget [] 0 s.hsc.strq = [b] ∧ active s .host = true ∧ b.bytes ≠ [] ∧ ringReady s 0 = true ∧ (ringOf s.hre 0).posted = [posted0]
      ∧ (ringOf s.hre 0).fill.length + b.bytes.length ≤ posted0.length ∧ tget [] 0 none'.hsc.strq = [b] ∧ ringReady none' 0 = false ∧ active none' .host = true
      ∧ active { s with dom := { doms with host := DomSt.reset } } .host = false ∧ tget [] 0 up.hsc.strq = []
      ∧ tget none 0 f.hsc.strAt = some 5 ∧ (ringOf f.hre 0).fill ≠ [] ∧ (ringOf f.hre 0).posted = [posted0] ∧ hostCan f = true
      ∧ (ringOf (streaming [] (ring0 [] []) (some 5)).hre 0).fill = []
      ∧ tget [] 0 up.hsc.hisq = [] ∧ tget [] 0 h.hsc.hisq = [b] ∧ active h .host = true ∧ (regionOf h.hsc 0).en = true ∧ (regionOf h.hsc 0).hold = false ∧ h.hsc.eccReady = true
      ∧ b.bytes.length ≤ (regionSpan { h with regs := { runRegs with held := [(0xD008, some 65536)] } } 0).2
      ∧ (regionOf (storing { region0 with hold := true } [b]).hsc 0).hold = true ∧ (regionOf (storing { region0 with en := false } [b]).hsc 0).en = false := by decide +kernel

theorem test_usable : 65536 ≤ usableBytes := by
  unfold usableBytes Config.dramBytes
  omega

theorem test_regionOk {s : State} {k : Nat} (h1 : regionSpan s k = (0, 65536))
    (h2 : (List.range 16).all (fun j => let b := regionSpan s j; j == k || !(regionOf s.hsc j).en || decide (b.1 + b.2 ≤ 0) || decide (0 + 65536 ≤ b.1)) = true) :
    regionOk s k = true := by
  have h3 := test_usable
  unfold regionOk
  simp only [h1, Bool.and_eq_true]
  exact ⟨⟨by simp, by simpa using h3⟩, h2⟩

/-- Region 0 with LEN 64 KiB written. -/
def sized (v : Word) (s : State) : State := { s with regs := { s.regs with rw := runRegs.rw ++ [(0xD008, v)] } }

theorem test_meets_RegionsFollowTheirEnable :
    let s := sized 65536 up;
    let o := regionOff 0;
    let v := setBit (regStored s o) 0 true;
    let taken := fun (s : State) => release (span (o - 16) 17) (setRw o (setBit (setBit v 0 false) 1 false) (atTime 1000 s));
    (active s .host = true ∧ bitOf (regStored s o) 1 = (regionOf s.hsc 0).hold ∧ (regionOf s.hsc 0).en = false) ∧ regionOk (taken s) 0 = true
      ∧ regionOk (taken (sized 32768 up)) 0 = false ∧ (regionOf (storing region0 []).hsc 0).en = true
      ∧ (active up .host = true ∧ bitOf (regStored up o) 0 = (regionOf up.hsc 0).en ∧ (regionOf up.hsc 0).hold = false)
      ∧ (let h := storing { region0 with en := false, hold := true } []; (regionOf h.hsc 0).hold = true ∧ bitOf (regStored h o) 0 = (regionOf h.hsc 0).en)
      ∧ (regionOf (storing { region0 with countdown := some 5 } []).hsc 0).countdown = some 5 ∧ (regionOf up.hsc 0).countdown = none
      ∧ active { up with dom := { doms with host := DomSt.reset } } .host = false := by
  refine ⟨by decide +kernel, test_regionOk (by decide +kernel) (by decide +kernel), ?_, by decide +kernel, by decide +kernel, by decide +kernel, by decide +kernel, by decide +kernel,
    by decide +kernel⟩
  unfold regionOk
  simp only [Bool.and_eq_false_iff]
  exact .inl (.inl (by decide +kernel))

theorem test_meets_DefinitionsFollowTheirEnable :
    let s := { up with regs := { runRegs with rw := runRegs.rw ++ [(0xD400, 0x110), (0xD404, 0x10001), (0xD408, 1)] } };
    let taken := fun (s : State) => release [0xD400, 0xD404, 0xD408] (setRw 0xD408 (regStored s 0xD408) (setRw 0xD400 (setBit (setBit (regStored s 0xD400) 0 true) 0 false) (atTime 1000 s)));
    let bad := { up with regs := { runRegs with rw := runRegs.rw ++ [(0xD400, 0x310)] } };
    let e := { up with hsc := { up.hsc with defs := [(0, some { en := true, restart := false, shed := false, lastLine := none })] } };
    (sdefOff 0 = 0xD400 ∧ active s .host = true ∧ (defOf s 0).en = false) ∧ (sdefOk (taken s) 0 && sdefPace (taken s) 0) = true
      ∧ ((defOf bad 0).en = false ∧ (sdefOk (taken bad) 0 && sdefPace (taken bad) 0) = false) ∧ (defOf e 0).en = true
      ∧ (up.bsc.jobs ++ up.bsc.running).any isScrub = false
      ∧ ((working { job 0 .host with prio := 7 }).bsc.jobs ++ (working { job 0 .host with prio := 7 }).bsc.running).any isScrub = true
      ∧ active { up with dom := { doms with host := DomSt.reset } } .host = false := by decide +kernel

/-- Slots and dynamic IDs of the nodes 1 (this one) and 2: counts, letters and TIME in slots 1 to 3, dynamic IDs 1 (letters) and 65 (DIAG); letters and TIME of node 2 in slots
4 and 5, its dynamic ID 2. -/
def slots : Tab Word :=
  [(4096 + 0xA240, 0x2001), (4096 + 0xA241, 1), (4096 + 0xA242, 0x4002), (4096 + 0xA243, 1), (4096 + 0xA244, 0x6003), (4096 + 0xA245, 1), (4096 + 0xA246, 0x8001),
    (4096 + 0xA247, 1), (4096 + 0xA248, 0xA041), (4096 + 0xA249, 1), (4096 + 0xA24A, 0x4004), (4096 + 0xA24B, 2), (4096 + 0xA24C, 0x6005), (4096 + 0xA24D, 2),
    (4096 + 0xA24E, 0x8002), (4096 + 0xA24F, 2)]

/-- Node 1 with its channels joined, lane X's channel with something set. -/
def node (f : RctSt → RctSt) : State :=
  let r := { RctSt.reset with on := true, st := 3, own := true, loops := [4], master := 1 }
  { banked slots with regs := { runRegs with held := [(0x9004, some 1)] }, net := { up.net with joined := true, rct := ⟨f r, r⟩ } }

/-- A count message that waits. -/
def msg0 : QMsg := { block := 0, round := 0, at_ := -20000, words := [5] }

/-- A letter record. -/
def rec0 : LRec := { seq := 0, at_ := -20000, words := [0, 0, 0, 0] }

/-- Lane X with a bay claimed for a letter, and with one claimed for a DIAG frame. -/
def bayX : State := node (fun x => { x with claims := [(1, some 5)], claimed := [{ id := 1, recs := 1, diag := false }], stream := { x.stream with recs := [rec0] } })

/-- Lane X with a bay claimed for a DIAG frame. -/
def diagX : State := node (fun x => { x with claims := [(65, some 5)], claimed := [{ id := 65, recs := 0, diag := true }], diag := [(1, [7])] })

theorem test_meets_FramesAndClaimsLeaveAtTheirPlace :
    let s := node id;
    let due := fun (s : State) (t : Int) (dyn : Bool) (index kind : Nat) => (ownerOf (atTime t s) (curRound (atTime t s)) dyn index).any (fun e =>
      e.kind == kind && e.node == nodeId s && maySend (atTime t s) .x e.kind && sendAt (atTime t s) .x dyn index == some t);
    let cold := node (fun x => { x with st := 1 });
    (ownerOf (atTime 0 s) 0 false 40 = none) ∧ due s 250 false 1 1 = true ∧ (s.net.rct.lane .x).queue = []
      ∧ (let q := node (fun x => { x with queue := [msg0] });
          due q 250 false 1 1 = true ∧ (sortBy (fun q => (q.block : Int)) (((q.net.rct.lane .x).queue.filter (fun q => decide (q.at_ + 10000 ≤ 250))).take (min 3 (slotLimit q / 276)))) ≠ [])
      ∧ due s 12250 false 2 2 = true ∧ due s 24250 false 3 3 = true ∧ due cold 1024250 false 3 3 = true
      ∧ due bayX 579250 true 1 4 = true ∧ (dynIds (atTime 579250 bayX) 0).all (fun e => (claimOf (bayX.net.rct.lane .x).claims e.index).isSome) = true
      ∧ (bayX.net.rct.lane .x).claimed.find? (fun c => c.id == 1) = some { id := 1, recs := 1, diag := false }
      ∧ due diagX 579250 true 65 5 = true ∧ (dynIds (atTime 579250 diagX) 0).all (fun e => (claimOf (diagX.net.rct.lane .x).claims e.index).isSome) = true
      ∧ (diagX.net.rct.lane .x).diag = [(1, [7])]
      ∧ (let u := node (fun x => { x with claims := [(1, some 5)] }); due u 579250 true 1 4 = true ∧ (u.net.rct.lane .x).claimed.find? (fun c => c.id == 1) = none)
      ∧ (ownerOf (atTime 576250 s) 0 true 1).any (fun e => e.node == nodeId s && maySend (atTime 576250 s) .x e.kind) = true ∧ claimStart (atTime 576250 s) 0 1 = some 576000
      ∧ ownerOf (atTime 0 s) 0 true 9 = none := by decide +kernel

/-- What node 2 sends on channel A in round 0. -/
def from2 (type : Nat) (dyn : Bool) (index : Nat) (payload : List Byte) : List Byte :=
  frameBytes { node id with regs := { runRegs with held := [(0x9004, some 2)] } } false 0 type dyn index 0 payload

/-- A frame of node 2 as lane X's port takes it, 1028 ns after its send point. -/
def rx (type index : Nat) (payload : List Byte) : FrameRx :=
  { port := 0, t := 12000 * ((index : Int) - 1) + 250 + 1028, tEnd := 12000 * ((index : Int) - 1) + 1278 + 8 * (27 + payload.length), codeOk := true, bytes := from2 type false index payload }

/-- A TIME payload of node 2 as its own master. -/
def time2 : List Byte := timePayload (node (fun x => { x with master := 2 })) .x

/-- Lane X with node 2's LOOP held. -/
def peered : State := node (fun x => { x with peers := [(2, some { loop := some (4, false), next := none, kept := [], held := [] })] })

/-- A LETTERS frame of node 2 with no record. -/
def letters2 : FrameRx := rx 2 4 (lettersPayload RctSt.reset [])

/-- A TIME frame of node 2. -/
def timed2 : FrameRx := rx 3 5 time2

/-- A device in LISTEN that is not joined. -/
def listening : State :=
  let s := node (fun x => { x with st := 0 })
  { s with net := { s.net with joined := false, rct := { s.net.rct with b := { s.net.rct.b with st := 0 } } } }

theorem test_meets_FramesAreTaken :
    let g := parseFrame letters2.bytes;
    let h := parseFrame timed2.bytes;
    portLane peered 0 = some .x ∧ portLane peered 3 = none ∧ rctRound (atTime 0 up) .x = false ∧ pollLive (atTime 0 up) .x = false
      ∧ rctRound (atTime letters2.tEnd peered) .x = true ∧ isJoined peered = true ∧ isJoined listening = false ∧ g.timed = false ∧ rctRound (atTime letters2.tEnd listening) .x = true
      ∧ delayOf (atTime letters2.tEnd (node id)) .x g = none ∧ delayOf (atTime letters2.tEnd peered) .x g = some 1028 ∧ h.timed = true
      ∧ delayOf (atTime timed2.tEnd listening) .x h = some 1028 ∧ (listening.net.rct.lane .x).st = 0 ∧ listening.net.joined = false ∧ (listening.net.rct.lane .y).st ≠ 3
      ∧ h.node = fld (h.word 0) 31 24 ∧ 2 ≤ (peered.net.rct.lane .x).st ∧ g.type = 2 ∧ (peered.net.rct.lane .x).used.contains (h.node, h.dyn, h.index, h.round) = false
      ∧ rctLive (atTime letters2.tEnd peered) .y = true ∧ peered.lcm.cond.lane .y = .serving := by decide +kernel

theorem test_meets_FramesPassTheirChecks :
    heardRx (atTime timed2.tEnd listening) timed2 = timed2 ∧ heardRx (atTime letters2.tEnd peered) letters2 = letters2 ∧ heardRx (atTime timed2.tEnd peered) timed2 = timed2
      ∧ (let q := { peered with net := { peered.net with los := [(0, some letters2.tEnd)] } };
          tget none letters2.port q.net.los = some letters2.tEnd ∧ letters2.t ≤ letters2.tEnd ∧ rctRound (atTime letters2.tEnd q) .x = true ∧ isJoined q = true
            ∧ delayOf (atTime letters2.tEnd q) .x (parseFrame letters2.bytes) = some 1028 ∧ 2 ≤ (q.net.rct.lane .x).st)
      ∧ frameCause (atTime timed2.tEnd listening) .x timed2 (parseFrame timed2.bytes) 1028 false (parseFrame timed2.bytes).round = 0
      ∧ (let b := measure .x letters2 (parseFrame letters2.bytes) 1028 (atTime letters2.tEnd peered);
          frameCause b .x letters2 (parseFrame letters2.bytes) 1028 true (laneRound b .x) = 0)
      ∧ (let b := measure .x timed2 (parseFrame timed2.bytes) 1028 (atTime timed2.tEnd peered);
          frameCause b .x timed2 (parseFrame timed2.bytes) 1028 true (laneRound b .x) = 0)
      ∧ (let l := { letters2 with codeOk := false };
          let b := measure .x l (parseFrame l.bytes) 1028 (atTime l.tEnd peered);
          frameCause b .x l (parseFrame l.bytes) 1028 true (laneRound b .x) = 1) := by decide +kernel

/-- A device in ridge role. -/
def ridge (sched : Bool) : State := { up with net := { up.net with ridge := true, rdg := { up.net.rdg with sched := sched } } }

theorem test_meets_ClaimsAreTaken :
    ridgeLive (atTime 0 (ridge true)) = true ∧ (ridge true).net.rdg.sched = true ∧ (ridge false).net.rdg.sched = false ∧ ridgeLive (atTime 0 (ridge false)) = true
      ∧ ridgeLive (atTime 0 (node id)) = false ∧ portLane (node id) 0 = some .x ∧ portLane (node id) 3 = none
      ∧ (rctRound (atTime 0 (node id)) .x && (dynIds (atTime 0 (node id)) (laneRound (atTime 0 (node id)) .x)).any (fun e => e.index == 2)) = true
      ∧ (rctRound (atTime 0 (node id)) .x && (dynIds (atTime 0 (node id)) (laneRound (atTime 0 (node id)) .x)).any (fun e => e.index == 9)) = false := by decide +kernel

/-- A status record of node 2's head 0. -/
def statusRec : List Word := [0xF0000000, 0, 0, 0]

/-- A LETTERS frame's copy that waits. -/
def copy0 : LCopy := { due := 0, dyn := false, index := 4, round := 0, seq := 7, epoch := 1, recs := [statusRec] }

/-- Lane X with a copy of node 2's that waits, in order. -/
def merging : State := node (fun x => { x with peers := [(2, some { loop := some (4, false), next := some (7, 1), kept := [], held := [copy0] })] })

/-- A device that may cold-start from lane X. -/
def cold : State :=
  { listening with regs := { runRegs with held := [(0x9004, some 1), (0x901C, some 3)] } }

theorem test_meets_LettersMastersAndColdStart :
    (peerOf ((node id).net.rct.lane .x) 2).held = [] ∧ laneTakes (retired .x merging) .x = false ∧ (peerOf (merging.net.rct.lane .x) 2).held = [copy0]
      ∧ laneTakes merging .x = true ∧ copy0.recs = [statusRec] ∧ (peerOf (merging.net.rct.lane .x) 2).next = some (copy0.seq % 4294967296, copy0.epoch)
      ∧ (itemOfRec 2 (tget none (markKey 2 (fld (nth 0 statusRec 0) 12 0)) (merging.net.rct.lane .x).marks) statusRec).isSome = true
      ∧ (bothLanes.any (fun m => rctRound (atTime 0 merging) m && (merging.net.rct.lane m).silent) = false ∧ copy0.due ≤ (0 : Int))
      ∧ mayColdstart (atTime 0 (node id)) .x = false ∧ mayColdstart (atTime 1000000000 cold) .x = true ∧ rctRound (atTime 1000000000 cold) .y = true := by decide +kernel

/-- A channel port with a probe on its way. -/
def probing : State := node (fun x => { x with dep := [0] })

theorem test_meets_ProbesMeasureTheLoop :
    let r := { node id with net := { (node id).net with refl := [{ port := 0, at_ := 256 }] } };
    ridgeLive (atTime 0 (ridge true)) = true ∧ ridgeLive (atTime 0 (node id)) = false ∧ portLane (node id) 0 = some .x ∧ portLane (node id) 3 = none
      ∧ (rctRound (atTime 999000 (node id)) .x = true ∧ probeDue (atTime 999000 (node id)) ((node id).net.rct.lane .x).probed = true)
      ∧ probeDue (atTime 0 (node id)) ((node id).net.rct.lane .x).probed = false ∧ reflects (atTime 0 (node id)) 0 = true ∧ reflects (atTime 0 (node id)) 4 = true ∧ reflects (atTime 0 up) 4 = false
      ∧ (node id).net.refl.find? (fun r => r.port == 0) = none ∧ r.net.refl.find? (fun r => r.port == 0) = some { port := 0, at_ := 256 } ∧ tget none 0 r.net.tx = none
      ∧ (let q := { r with net := { r.net with tx := [(0, some (500, 1000))] } }; tget none 0 q.net.tx = some (500, 1000) ∧ (500 : Int) ≤ 256 + 256 ∧ (256 + 256 : Int) < 1000)
      ∧ (probing.net.rct.lane .x).dep = [0] ∧ rctRound (atTime 300 probing) .x = true := by decide +kernel

/-- A scheduled ridge with the slots of nodes 1 and 2 on branch 0, its branch 0 with something set. -/
def ridged (f : BranchSt → BranchSt) : State :=
  { banked slots with net := { up.net with ridge := true, rdg := { up.net.rdg with sched := true, branches := f BranchSt.reset :: List.replicate 5 BranchSt.reset } } }

theorem test_meets_RidgeForwardsWithinWindows :
    let g := parseFrame letters2.bytes;
    let a := atTime 36250 (ridged id);
    let w := openWindow a 0 36250;
    ridgeLive (atTime 0 up) = false ∧ ridgeLive (atTime 0 (ridge false)) = true ∧ (ridge false).net.rdg.sched = false ∧ g.timed = false
      ∧ ridgeLive a = true ∧ (ridged id).net.rdg.sched = true ∧ (branchOf (ridged id) 0).blocked = none ∧ w.isSome = true ∧ w.any (fun e => g.node == e.1.node && g.round == curRound a) = true
      ∧ w.any (fun e => frameEnd 36250 letters2.bytes ≤ e.2.2) = true ∧ w.any (fun e => e.2.2 < frameEnd 36250 (letters2.bytes ++ List.replicate 2000 0)) = true
      ∧ (parseFrame (letters2.bytes ++ List.replicate 2000 0)).node = g.node ∧ (openWindow (atTime 250 (ridged id)) 0 250).any (fun e => g.node != e.1.node) = true
      ∧ openWindow (atTime 990000 (ridged id)) 0 990000 = none ∧ g.dyn = false ∧ (openClaim (atTime 577250 (ridged id)) 0 577250).isSome = true
      ∧ openClaim a 0 36250 = none ∧ (branchOf (ridged (fun x => { x with blocked := some 0 })) 0).blocked = some 0
      ∧ (branchOf (ridged (fun x => { x with fwd := some 5 })) 0).fwd = some 5 ∧ 0 < (ridged id).net.rdg.branches.length ∧ (branchOf (ridged id) 0).fwd = none
      ∧ (branchOf (ridged (fun x => { x with blocked := some 9 })) 0).blocked = some 9 ∧ (0 : Nat) ≤ curRound a ∧ curRound a < 9
      ∧ (ridged id).net.rdg.mRound = none ∧ ({ (ridged id).net.rdg with mRound := some 0 } : RidgeSt).mRound = some 0 ∧ curRound a ≤ 0 + 8 := by decide +kernel

/-- A ring frame of a node. -/
def ringed (n : Word) : FrameRx :=
  { port := 2, t := 0, tEnd := 400, codeOk := true, bytes := frameBytes { node id with regs := { runRegs with held := [(0x9004, some n)] } } true 0 5 false 1 0 [] }

/-- Both ring ports in use, with frames queued. -/
def rings (f : RingNet → RingNet) : State := { node id with net := { (node id).net with ring := f { rp2Broken := false, rp3Broken := false, q3 := [], q2 := [] } } }

theorem test_meets_RingPassesRemovesAndHeals :
    let s := rings id;
    let g := parseFrame (ringed 2).bytes;
    let own := parseFrame (ringed 1).bytes;
    let q := rings (fun r => { r with q3 := [(ringed 2).bytes] });
    rswLive (atTime 400 s) = true ∧ rswLive (atTime 0 (ridge true)) = false ∧ lengthOk (atTime 400 s) g = true ∧ g.crcOk = true ∧ g.ring = true ∧ g.node ≠ nodeId s
      ∧ own.crcOk = true ∧ own.ring = true ∧ lengthOk (atTime 400 s) own = true ∧ own.node = nodeId s ∧ heardRx (atTime 400 s) (ringed 2) = ringed 2
      ∧ (heardRx { s with net := { s.net with los := [(2, some 400)] } } (ringed 2)).codeOk = false ∧ (heardRx { s with net := { s.net with los := [(2, some 401)] } } (ringed 2)).codeOk = true ∧ (parseFrame letters2.bytes).ring = false
      ∧ s.net.ring.rp2Broken = false ∧ s.net.ring.rp3Broken = false ∧ ringFill (s.net.ring.q3 ++ [(ringed 2).bytes]) ≤ 131072 ∧ s.net.ring.q3 = []
      ∧ q.net.ring.q3 = [(ringed 2).bytes] ∧ curRound (atTime 400 q) ≤ g.round + regF q 0x9020 11 8 ∧ g.round + regF q 0x9020 11 8 < curRound (atTime 400000000 q)
      ∧ (rings (fun r => { r with rp3Broken := true })).net.ring.rp3Broken = true := by decide +kernel

/-- A device in polled mode with two poll entries, node 2 for letters on channel A and address 9 on the legacy bus. -/
def polling (mode bus : Word) (f : RctSt → RctSt) (g : LBusSt → LBusSt) : State :=
  let s := node f
  { s with pst := { s.pst with words := slots ++ [(4096 + 0xAB40, 0x00101002), (4096 + 0xAB41, 0x20001009)] },
           regs := { runRegs with held := [(0x9004, some 1), (0x9014, some mode), (0x9028, some bus), (0x902C, some 9)] }, net := { s.net with bus := g s.net.bus } }

/-- A POLL of node 2 for letters, to this node. -/
def poll2 : FrameRx :=
  { port := 0, t := 0, tEnd := 272, codeOk := true, bytes := from2 7 false 0 (wordBytes 0x101) }

theorem test_meets_PollsAndRepliesAlternate :
    let m := polling 0x1000 0 id id;
    let n := polling 0x22000 0 id id;
    let waiting := polling 0x1000 0 (fun x => { x with poll := some { addr := 2, req := 1, wait := 1000, tEnd := 248, seq := 0 } }) id;
    let late := polling 0x1000 0 (fun x => { x with pollIx := 9 }) id;
    let rep := fun (k : Nat) => polling 0x22000 0 (fun x => { x with reply := some (k, 5), queue := [msg0] }) id;
    let g := parseFrame poll2.bytes;
    (pollEntries late 0)[9]? = none ∧ (pollEntries m 0)[0]? = some 0x00101002
      ∧ (pollLive (atTime 0 m) .x = true ∧ pollMaster m = true ∧ (m.net.rct.lane .x).poll = none ∧ (m.net.rct.lane .x).pollAt ≤ 0
        ∧ 0 + 248 + ((fld (0x00101002 : Word) 19 12 * 1000 : Nat) : Int) ≤ pollLimit (atTime 0 m)) ∧ pollLive (atTime 0 (node id)) .x = false
      ∧ pollMaster waiting = true ∧ (waiting.net.rct.lane .x).poll.isSome = true ∧ (m.net.rct.lane .x).reply = none
      ∧ ((rep 1).net.rct.lane .x).reply = some (1, 5) ∧ ((rep 2).net.rct.lane .x).reply = some (2, 5) ∧ ((rep 3).net.rct.lane .x).reply = some (3, 5)
      ∧ pollLive (atTime 5 (rep 1)) .x = true ∧ portLane n 0 = some .x ∧ portLane n 3 = none ∧ pollLive (atTime 272 n) .x = true ∧ pollMaster n = false
      ∧ heardRx (atTime 272 n) poll2 = poll2 ∧ pollCause (atTime 272 n) .x poll2 g = 0 ∧ g.type = 7 ∧ fld (g.word 0) 7 0 = nodeId n ∧ pollCause (atTime 272 n) .x { poll2 with codeOk := false } g = 1 := by decide +kernel

/-- An OB1160 frame: its characters with their CRC. -/
def chars (b : List Byte) : List Byte := b ++ busCrc (b.drop 1)

/-- A frame's characters in a row from an instant on, the first with its address bit at 1. -/
def charRx (t : Int) (stop : Bool) (b : List Byte) : List CharRx :=
  (List.range b.length).map (fun (i : Nat) => { t := t + 5500 * (i : Int), addr := i == 0, stop := stop, data := nth 0 b i })

/-- A STATUS reply of address 9. -/
def reply9 : List CharRx := charRx 30000 true (chars ([0, 21, 0xB1, 9, 0] ++ List.replicate 18 0))

/-- A STATUS poll to address 9. -/
def poll9 : List CharRx := charRx 0 true (chars [9, 0x31, 5])

theorem test_meets_LegacyBusWalksAndAnswers :
    let p : PollOut := { addr := 9, req := 0, wait := 20000, tEnd := 27500, seq := 0 };
    let m := polling 0 0x10001 id id;
    let run := polling 0 0x10001 id (fun b => { b with mode := 1, running := true });
    let out := polling 0 0x10001 id (fun b => { b with mode := 1, running := true, ix := 1, out := some p });
    let sl := polling 0 0x2 id id;
    let due := polling 0 0x2 id (fun b => { b with mode := 2, shown := [(9, 0)], reply := some (9, 5, 20000) });
    let lives := fun (s : State) => active s .field = true ∧ s.net.ridge = false ∧ s.bsc.power ≠ .safehalt ∧ s.sec.lifecycle ≠ 5;
    (∀ s ∈ [m, run, out, sl, due], lives s) ∧ ¬ lives { up with net := { up.net with ridge := true } }
      ∧ (regF m 0x9028 1 0 = 1 ∧ m.net.bus.running = false ∧ m.net.bus.reply = none ∧ m.net.bus.walkAt = none ∧ pollEntries m 1 ≠ [])
      ∧ (pollEntries run 1)[0]? = some 0x20001009 ∧ (run.net.bus.running = true ∧ run.net.bus.out = none ∧ run.net.bus.nextAt ≤ 0) ∧ (pollEntries out 1)[1]? = none
      ∧ out.net.bus.out = some p ∧ p.tEnd + p.wait ≤ 47500 ∧ (busRx reply9).any (fun r => replyCause p r == 0) = true
      ∧ (busRx (charRx 30000 false (chars ([0, 21, 0xB1, 9, 0] ++ List.replicate 18 0)))).any (fun r => replyCause p r == 1) = true ∧ run.net.bus.out = none
      ∧ busRx [] = none ∧ regF sl 0x9028 1 0 = 2 ∧ (busRx poll9).any (fun r => r.stopsOk && r.chars.length == 5 && (nth 0 r.chars 1).toNat == 0x31
        && busCrc ((r.chars.drop 1).take 2) == r.chars.drop 3 && (nth 0 r.chars 0).toNat == 9) = true ∧ (9, 0) ∈ slaves sl
      ∧ due.net.bus.reply = some (9, 5, 20000) ∧ (9, 0) ∈ due.net.bus.shown := by decide +kernel

/-- A device in FIELD_DEBUG with a CMD key, a challenge held, at a debug level. -/
def challenged (level : Nat) : State :=
  { up with sec := { up.sec with lifecycle := 4, level := level, slots := { status := 1, key := 5 } :: List.replicate 4 KeySlot.reset,
                                 challenge := some (List.replicate 64 3, 0) } }

/-- A DEBUG_RESPONSE for a level, with its buffer. -/
def response (level : Nat) (b : List Byte) : HostCmd := { cmd 0x61 (w32 level) 16 0 with buf := some b }

/-- The answer to the challenge held. -/
def answer (level : Nat) : List Byte := debugAnswer (challenged 0) (List.replicate 64 3) level .x

theorem test_meets_DebugNeedsAChallengeAnswered :
    let c := cmd 0x60 0 0 0;
    let locked := { up with sec := { up.sec with lockUntil := some 5 } };
    let lost := { up with dom := { doms with aon := DomSt.reset } };
    Passes 0x60 c up ∧ aonUp up = true ∧ up.sec.lockUntil = none ∧ Passes 0x60 c locked ∧ locked.sec.lockUntil = some 5 ∧ aonUp lost = false ∧ Passes 0x60 c lost
      ∧ Passes 0x62 (cmd 0x62 0 0 0) up ∧ up.sec.d2 = none ∧ ((challenged 1).sec.level = 1 ∧ (3600000000000 : Int) ≤ 3600000000000 - (challenged 1).sec.tapAt) := by
  unfold Passes; decide +kernel

theorem test_meets_DebugResponse_passes : ∀ n < 4, Passes 0x61 (response n (answer 1)) (challenged 0) := by unfold Passes; decide +kernel

theorem answer_ok (n level : Nat) :
    (decide ((answer n).take 16 = debugAnswer (challenged level) (((challenged level).sec.challenge.map (·.1)).getD []) n .x)
      && (slotOf (challenged level).sec 0).status = 1) = true := by
  have h1 : (answer n).take 16 = answer n := by rw [List.take_of_length_le]; simp [answer, Sys2Proof.Laws.debugAnswer_length]
  have h2 : debugAnswer (challenged level) (((challenged level).sec.challenge.map (·.1)).getD []) n .x = answer n := rfl
  rw [h1, h2, decide_eq_true rfl]
  rfl

theorem test_meets_DebugResponse_levels :
    responseCheck (atTime 1000 (challenged 0)) (response 1 []) 1 .x false = some (5, stRefusedFrank)
      ∧ responseCheck (atTime 1000 (challenged 1)) (response 1 (answer 1)) 1 .x true = none ∧ 1 ≤ (challenged 1).sec.level
      ∧ responseCheck (atTime 1000 (challenged 0)) (response 1 (answer 1)) 1 .x true = none ∧ (challenged 0).sec.level < 1
      ∧ responseCheck (atTime 1000 (challenged 0)) (response 2 (answer 2)) 2 .x true = none ∧ (challenged 0).bsc.power ≠ .safehalt ∧ (challenged 0).lcm.cond.lane .x = .serving
      ∧ responseCheck (atTime 1000 (retired .x (challenged 0))) (response 2 (answer 2)) 2 .x true = none ∧ (retired .x (challenged 0)).lcm.cond.lane .x = .retired := by
  decide +kernel

theorem test_meets_LifecycleMovesOnlyWherePermitted :
    let c := fun (n : Nat) => cmd 0x63 (w32 n) 0 0;
    let s := checking [];
    let d := { up with sec := { up.sec with lifecycle := 2 } };
    Passes 0x63 (c 2) s ∧ lifecycleOk s 2 = true ∧ Passes 0x63 (c 5) up ∧ lifecycleOk up 5 = true ∧ Passes 0x63 (c 3) up ∧ lifecycleOk up 3 = false ∧ lifecycleOk d 3 = true
      ∧ Passes 0x64 (cmd 0x64 0 0 0) up ∧ Passes 0x64 (cmd 0x64 0 0 0) { up with dom := { doms with aon := DomSt.reset } } := by unfold Passes; decide +kernel

theorem test_meets_TapObeysTheDebugLevel :
    aonUp up = true ∧ (challenged 0).sec.level < 1 ∧ aonUp { up with dom := { doms with aon := DomSt.reset } } = false ∧ 3 ≤ up.sec.level ∧ (slotOf up.sec 0).status = 0
      ∧ (slotOf (challenged 0).sec 0).status ≠ 0 ∧ tget none 0 ((withSect (SectSt.new 0 0 0) up).sld.lane up.sec.target).sects = some (SectSt.new 0 0 0)
      ∧ up.bsc.power ≠ .standby ∧ up.bsc.power ≠ .off := by decide +kernel

/-- A device in a power state. -/
def power (p : PState) : State := { up with bsc := { up.bsc with power := p } }

theorem test_meets_PowerRequestsAndBandsKeepFloors :
    let c := fun (n : Nat) => cmd 0x68 (w32 n) 0 0;
    let m : BudgetMeas := { iAvg := 0, tj := 0, share := [] };
    let paced := { up with bsc := { up.bsc with pace := ⟨true, false⟩ } };
    (∀ s ∈ [up, power .lean, power .holdover, power .start], ∀ n ∈ [1, 3, 4],
        canExamine (atTime 1000 s) = true ∧ (examine 0x68 (c n) (takeCmd (c n) (atTime 1000 s))).1 = none) ∧ mayStandby up = true ∧ mayStandby (power .start) = false
      ∧ (power .lean).bsc.leanRequest = false ∧ (power .lean).bsc.power = .lean ∧ (power .start).bsc.power ≠ .lean ∧ (power .start).bsc.power ≠ .holdover
      ∧ (paced.bsc.pace.port .p0 = true ∧ aonUp paced = true) ∧ grantable paced m .p0 = true ∧ grantable { paced with bsc := { paced.bsc with leanAon := true } } m .p0 = false
      ∧ up.bsc.pace.port .p0 = false ∧ up.bsc.power ≠ .off ∧ up.bsc.power ≠ .standby ∧ active up .port0 = true ∧ (power .off).bsc.power = .off := by decide +kernel

theorem test_meets_PowerFailureTurnsTheDeviceOff :
    up.bsc.aon = .released ∧ snapTaken up = false ∧ nvmWf up.pst = true ∧ rising up.pst.bad = true ∧ ({ up with bsc := { up.bsc with aon := .failWait } } : State).bsc.aon ≠ .released := by
  decide +kernel

theorem test_meets_PowerUpAndTripsRestartState :
    let off := { up with bsc := { up.bsc with aon := .off } };
    let low := { up with bsc := { up.bsc with aon := .resetLow, rstLow := true } };
    let wait := { up with bsc := { up.bsc with standbyAt := some 5 } };
    (off.bsc.aon = .off ∧ off.bsc.rstLow = false) ∧ low.bsc.aon = .resetLow ∧ off.sec.decom = none ∧ (power .standby).bsc.power = .standby ∧ aonUp (power .standby) = true
      ∧ up.bsc.power ≠ .standby ∧ up.bsc.aon = .released ∧ ({ up with bsc := { up.bsc with aon := .failWait } } : State).bsc.aon = .failWait
      ∧ wait.bsc.standbyAt = some 5 ∧ up.bsc.standbyAt = none ∧ aonUp up = true ∧ aonUp { up with dom := { doms with aon := DomSt.reset } } = false := by decide +kernel

/-- The RING domain in a state, with its restarts. -/
def ringDom (st : DState) (r : List Int) : State := { up with dom := { doms with ring := { on with st := st, restarts := r } } }

theorem test_meets_DomainsTripAndRestart :
    let t : Int := 10000000;
    let many := ringDom .tripped (List.replicate 7 0);
    Dom.ring ≠ .aon ∧ Dom.ring ≠ .lanex ∧ Dom.ring ≠ .laney ∧ ((ringDom .ramp []).dom.get .ring).st = .ramp ∧ (ringDom .ramp []).bsc.power ≠ .safehalt
      ∧ ({ ringDom .ramp [] with bsc := { up.bsc with power := .safehalt } } : State).bsc.power = .safehalt ∧ ((ringDom .active []).dom.get .ring).st ≠ .off
      ∧ ((ringDom .tripped []).dom.get .ring).st = .tripped ∧ 10000000 ≤ t - ((ringDom .tripped []).dom.get .ring).since ∧ aonUp (ringDom .tripped []) = true
      ∧ (ringDom .tripped []).bsc.restartHold.contains .ring = false ∧ (recentRestarts (atTime t (ringDom .tripped [])) .ring).length < regF (ringDom .tripped []) 0xE008 2 0
      ∧ many.bsc.restartHold.contains .ring = false ∧ regF many 0xE008 2 0 ≤ (recentRestarts (atTime t many) .ring).length
      ∧ (9999999 : Int) - ((ringDom .tripped []).dom.get .ring).since < 10000000 ∧ active up .host = true ∧ lands up (pregWord 0xE00C) = true
      ∧ (∀ p ∈ domctlDoms, (14 : Nat).testBit p.2 = true → mayOff up p.1 = true) ∧ mayOff running .port0 = false ∧ bitOf (regStored up 0xE00C) 3 = false
      ∧ (let o := { up with pst := { up.pst with words := [(pregWord 0xE00C, 8)] }, dom := { doms with port0 := DomSt.reset }, bsc := { up.bsc with bringup := 3 } };
          bitOf (regStored o 0xE00C) 3 = true ∧ (o.dom.get .port0).st = .off ∧ 2 ≤ o.bsc.bringup) := by decide +kernel

/-- HOST off. -/
def hostOff : State := { up with dom := { doms with host := DomSt.reset } }

theorem test_meets_RegisterWriteReachesItsWord :
    let row := fun (off : Nat) (a : Acc) => (rowAt off).any (fun r => r.acc == a && r.len == 1);
    active up .host = true ∧ active hostOff .host = false ∧ rowAt 0x0FFC = none ∧ row 0x0804 .ro = true ∧ row 0xC018 .rw = true ∧ wordRule (atTime 0 up) 0xC018 100 = none
      ∧ 0xC018 ∉ [0xC000, 0x5014, 0x5414, 0x5814, 0x3000, 0x5B00, 0xB180] ∧ active up (wordDom up 0xC018) = true ∧ rising up.regs.rw = true
      ∧ row 0xB1C0 .rw = true ∧ active { up with dom := { doms with field := DomSt.reset } } (wordDom up 0xB1C0) = false
      ∧ row 0xC014 .rw = true ∧ active up (wordDom up 0xC014) = true ∧ wordRule (atTime 0 up) 0xC014 0 = some 0 ∧ wordRule (atTime 0 up) 0x6010 255 = some 0
      ∧ row 0x6010 .rwp = true ∧ lands up (pregWord 0x6010) = true ∧ wordRule (atTime 0 up) 0x6010 1 = none ∧ (rowAt 0x9004).any (fun r => r.acc == .rws) = true
      ∧ 3 ≤ ({ up with sec := { up.sec with lifecycle := 3 } } : State).sec.lifecycle := by decide +kernel

theorem test_meets_WindowWritesAndReadsKeepTheirRules :
    active up .host = true ∧ bitOf (reg up 0xF000) 0 = false ∧ up.pst.bankA = .inactive ∧ lands up (bankBase .a + 0) = true ∧ (banked []).pst.bankA ≠ .inactive
      ∧ active hostOff .host = false ∧ isCounter 0xCC04 = true ∧ active up (ctrDom up 0xCC04) = true ∧ rising up.ctr = true
      ∧ (isCounter 0x2C00 = true → active { up with dom := { doms with port0 := DomSt.reset } } (ctrDom up 0x2C00) = false)
      ∧ isCounter 0x0FFC = false ∧ rowAt 0x0FFC = none ∧ (rowAt 0x28).any (fun r => r.acc == .ro && r.len == 2 && r.word == 0) = true ∧ isCounter 0x28 = false
      ∧ (roWord (atTime 0 up) 0x28).isSome = true ∧ active up (wordDom up 0x28) = true ∧ (rowAt 0x2C).any (fun r => r.acc == .ro && r.len == 2 && r.word == 1) = true
      ∧ tget none 0x2C ({ up with regs := { runRegs with latch := [(0x2C, some 7)] } } : State).regs.latch = some 7 := by decide +kernel

/-- A poll that read the host area. -/
def poll (area : Option (List Word)) (cmds : List RingCmd) : PollRead := { t := 1000, area := area, cmds := cmds, posts := [] }

/-- The host area with CMD's producer index at n. -/
def hostArea (n : Word) : List Word := n :: List.replicate 15 0

theorem test_meets_PollTakesIndicesAndCommands :
    let due := fun (s : State) => hreRun s && hostCan s && pollDue (atTime 1000 s);
    let c := fun (i op : Nat) => ({ t := 1000, index := w32 i, words := some [w32 op, 0, 0, 0, 0, 0, 0, 0], buf := none, cross := [] } : RingCmd);
    let b := takeIndices (hostArea 1) [] (takeBeat 0 (bump 0xCC00 { atTime 1000 up with hre := { up.hre with knock := false, pollAt := some 1000, pollFails := 0 } }));
    due up = true ∧ due hostOff = false ∧ 2 ≤ ({ up with hre := { up.hre with pollFails := 2 } } : State).hre.pollFails
      ∧ (nth 0 (hostArea 1) 0 - up.hre.cmdCons).toNat ≤ ringSize up 0 ∧ ¬ (nth 0 (hostArea 9999) 0 - up.hre.cmdCons).toNat ≤ ringSize up 0
      ∧ (poll (some (hostArea 1)) []).cmds = [] ∧ (c 1 0).index ≠ up.hre.cmdCons ∧ (c 0 0xEE).index = up.hre.cmdCons
      ∧ (c 0 0xEE).words = some [0xEE, 0, 0, 0, 0, 0, 0, 0] ∧ descOp [0xEE, 0, 0, 0, 0, 0, 0, 0] = 0xEE ∧ descOp [1, 0, 0, 0, 0, 0, 0, 0] = 0x01
      ∧ argsOk 0x01 (descCmd (c 0 1) [1, 0, 0, 0, 0, 0, 0, 0]) = true ∧ ({ c 0 1 with words := none } : RingCmd).words = none
      ∧ opcodeList.contains 0xEE = false ∧ b.hre.cmdProd ≠ up.hre.cmdCons ∧ canExamine b = true := by decide +kernel

/-- A device whose letterbox device area is as last written, with a command that waits. -/
def current : State := { up with pending := [.bypass 5], hre := { up.hre with devImage := devArea up } }

theorem test_meets_WhatTheHostSeesStaysCurrent :
    (hostCan current = true ∧ hreRun current = true ∧ devArea current = current.hre.devImage ∧ current.hre.firing = []) ∧ ∃ u, step current = .next u :=
  ⟨by decide +kernel, _, rfl⟩

/-! ## Operations, against the spec's worked examples and the public standards' -/

/-- The spec's example "narrowing one accumulator three ways" (00_scope.md). -/
theorem test_narrowing : rne (-74250) 4 = -4641 ∧ sat (-4641) 12 = -2048 ∧ wrap (-4641) 12 = -545 ∧ rne (-40) 4 = -2 ∧ rne (-56) 4 = -4 := by decide +kernel

/-- The spec's example "one increment on the carrier loop" (04_channeliser_phase.md): product, angle, quality, strain. -/
theorem test_one_increment :
    product { b := 3005, ai := [300, -600, 1000, -50], aq := [400, -800, -200, 100], e := [5, 5, 5, 5], marks := 0 }
        { b := 3009, ai := [1000, -1000, 1000, 0], aq := [0, 0, 0, 1000], e := [6, 6, 5, 7], marks := 0 } = (800000, 600000, 12)
      ∧ normalise 800000 600000 = (6400000, 4800000, -3) ∧ angleOf 800000 600000 12 = (6712, 100) ∧ rne (912 * 21212897) 16 = 295199 ∧ wrap (6712 + 30000) 16 = -28824 := by
  decide +kernel

/-- The same example's slow phase: φ and w past 2^31. -/
theorem test_slow_phase :
    let i : Inc := { cause := 0, v := 912, q := 100, marks := 0, slow := none };
    (slowStep false i { phi := 2147483000, w := 3, gaps := 0, gap := false, marks := 0 }).phi = -2147483384
      ∧ (slowStep false i { phi := 2147483000, w := 3, gaps := 0, gap := false, marks := 0 }).w = 4 := by decide +kernel

/-- The spec's example "range 2 of sense channel 3" (09_calibration.md). -/
theorem test_range_constants :
    calPair { RefCal.new 0 with range := 2, s0 := 1984, sp := 461184, sm := -457024 } = some (124, 16371) ∧ rne ((16 * 1000 - 124) * 16371) 17 = 1983 := by
  decide +kernel

/-- Descriptor bytes 0 to 23 in the spec's example "the frank of a conditional reset" (16_security_debug.md). -/
theorem test_frank_body :
    cmdBody 0x29 { cmd 0x29 0x154 0x2C7AE 0 with tag := 0x0A31, franked := true, ccount := 0x4F12 }
      = [0x29, 0x01, 0x31, 0x0A, 0x12, 0x4F, 0x00, 0x00, 0x54, 0x01, 0x00, 0x00, 0xAE, 0xC7, 0x02, 0x00, 0, 0, 0, 0, 0, 0, 0, 0] := by decide +kernel

/-- The check values of CRC-32C, CRC-32 and CRC-16/CCITT-FALSE over "123456789", and SHA-256 of "abc" (FIPS 180-4). -/
theorem test_checks :
    crc32c [0x31, 0x32, 0x33, 0x34, 0x35, 0x36, 0x37, 0x38, 0x39] = 0xE3069283 ∧ crc32 [0x31, 0x32, 0x33, 0x34, 0x35, 0x36, 0x37, 0x38, 0x39] = 0xCBF43926
      ∧ crc16 [0x31, 0x32, 0x33, 0x34, 0x35, 0x36, 0x37, 0x38, 0x39] = 0x29B1 ∧ (sha256 [0x61, 0x62, 0x63]).take 4 = [0xBA, 0x78, 0x16, 0xBF] := by decide +kernel

/-- AES-128 of FIPS 197 appendix C.1. -/
theorem test_aes :
    aes [0, 1, 2, 3, 4, 5, 6, 7, 8, 9, 10, 11, 12, 13, 14, 15] [0x00, 0x11, 0x22, 0x33, 0x44, 0x55, 0x66, 0x77, 0x88, 0x99, 0xAA, 0xBB, 0xCC, 0xDD, 0xEE, 0xFF]
      = [0x69, 0xC4, 0xE0, 0xD8, 0x6A, 0x7B, 0x04, 0x30, 0xD8, 0xCD, 0xB7, 0x80, 0x70, 0xB4, 0xC5, 0x5A] := by decide +kernel

/-- AES-CMAC of SP 800-38B: the empty message under the key 2b7e…3c. -/
theorem test_cmac : (cmac 0x2B7E151628AED2A6ABF7158809CF4F3C []).take 4 = [0xBB, 0x1D, 0x69, 0x29] := by decide +kernel

/-- Head 417 of the spec's example "two records written through the window" (20_register_map.md). -/
theorem test_head_record :
    headRec (banked [(4096 + 0x0582, 0x8A000BBD), (4096 + 0x0583, 0x00050BC9), (4096 + 0x4310, 0x02580000)]) 417
      = some { port := 0, z1 := 3005, w1 := 2, z2 := 3017, w2 := 2, profile := 0, vmin := 5, vmax := 600 } := by decide +kernel

/-- Section 340 of the same example, behind 340 sections of two boundaries. -/
theorem test_section_record :
    let s := banked ((List.range 341).map (fun i => (4096 + 0x5240 + i, 0x90000400)) ++ [(4096 + 0x64E8, 0x51440000), (4096 + 0x64E9, 0x80230000)]);
    bounds s 340 = [{ leadKind := 1, lead := 2210, leadNeg := false, coverKind := 0, cover := 0, coverNeg := false },
                    { leadKind := 2, lead := 17, leadNeg := true, coverKind := 0, cover := 0, coverNeg := false }] := by decide +kernel

/-! ## Single steps -/

/-- What a check says of the state after a command. -/
def after (i : Instr) (s : State) (p : State → Bool) : Bool :=
  match exec i s with
  | .next u => p u
  | _ => false

/-- A reply evaluated as in the spec's example "polling an OB1160 in the freight yard" (11_round_network.md): two AXLE + events, then the status. -/
theorem test_ob1160_reply :
    let n : Ob1160 := { service := true, pos := 0x7E, neg := 0x15, tPrev := some 199900000000, wmPrev := 199899850000 };
    let p : PollOut := { addr := 0x31, req := 1, wait := 200000, tEnd := 200000117500, seq := 0x9C };
    let s0 := polling 0 0x640001 id (fun b => { b with mode := 1, running := true, ix := 1, out := some p, nodes := [(0x31, some n)] });
    let s := { s0 with net := { s0.net with joins := 1 } };
    let r := charRx 200000137500 true (chars [0, 21, 0xB1, 0x31, 0x9C, 0x12, 0xA4, 0, 0x80, 0x15, 0, 0xF0, 0xA3, 0, 0xC4, 0xA1, 0, 0, 0, 0, 0, 0, 0]);
    after (.legacyReplyReceive r) s (fun u => (u.rctq.lane .x).map (fun i => match i with | .ev _ e => (e.ty, e.neg, e.t) | .status _ x => (15, false, x.w))
      == [(1, false, 199941087500), (1, false, 199996687500), (15, false, 199999987500)]) = true := by decide +kernel

/-- The window write of that example's head record: the word joins the write queue at its place in bank B. -/
theorem test_window_write :
    after (.tableWindowWrite 5 0x0582 0x8A000BBD) { up with regs := { runRegs with rw := runRegs.rw ++ [(0xF000, 1)] } }
      (fun u => u.pst.wq == [(61440 + 0x0582, 0x8A000BBD)]) = true := by decide +kernel

/-- A shot of a plan's enabled group: SHOT_GATE for the group's width, the line index advanced (R41, R42). -/
theorem test_shot : after (.shot 0 .p0) running (fun u => (u.stg.port .p0).gate == 100 && (u.stg.port .p0).next == 1 && (u.stg.port .p0).last == some 0) = true := by decide +kernel

/-- Between two nominal instants a running port launches nothing (R41). -/
theorem test_shot_off_nominal : after (.shot 10 .p0) running (fun u => u.sin == running.sin && u.stg == running.stg) = true := by decide +kernel

/-- A SHOT on a port that is stopped launches nothing (R42). -/
theorem test_shot_stopped : after (.shot 5 .p0) up (fun u => u.sin == up.sin && u.stg == up.stg) = true := by decide +kernel

/-- A command with an undefined argument bit is refused: it completes at once and changes no plan (R317). -/
theorem test_bad_argument : after (.portStart (cmd 0x10 0x80 0 0)) up (fun u => u.hre.cplProd == 1 && u.stg == up.stg && u.hre.out == []) = true := by decide +kernel

/-- NOP has no argument: A0 must be 0 (R317, R320). -/
theorem test_nop_argument : argsOk 0x01 (cmd 0x01 1 0 0) = false ∧ argsOk 0x01 (cmd 0x01 0 0 0) = true := by decide +kernel

/-! ## Ill-formed commands are refused -/

/-- One ill-formed command for each check of WellFormed. -/
theorem test_ill_formed :
    let c := cmd 0x01 0 0 0;
    [Instr.idcode (-1), .idcode 18446744073709551616, .nop { c with buf := some (List.replicate 1025 0) }, .nop { c with cross := [.x] },
      .legacyCal { c with cross := [.y] }, .registerWrite 0 0x100000 true 0, .rwpWrite 0 2 0,
      .tableWindowWrite 0 57344 0, .dbgRead 0 (.nvm 262144), .dbgLane 0 (.inject 13), .powerFail 0 7, .multiblockArrival 0 .p0 .x [], .claimReceive 0 6 1 .unreadable,
      .extendedMultiblockRelease { t := -1, port := .p0, pol := .x, k := 0 },
      .frameReceive { port := 0, t := 5, tEnd := 4, codeOk := true, bytes := [] } true, .ringFrameReceive { port := 1, t := 4, tEnd := 5, codeOk := true, bytes := [] },
      .legacyReplyReceive [], .budgetPeriod 0 { iAvg := -1, tj := 0, share := [] }, .hrePoll { t := 0, area := some [], cmds := [], posts := [] },
      .configurationRequest 0 (.read 4096), .digestTransferReceive 0 .x true 0 [] [], .zoneSample 0 .f0 [{ lane := .x, check := 13, detail := 0, err := 0 }] [],
      .channeliserBlock 0 .p0 [{ phys := 0, use := 5, starts := [], bins := [] }]].all (fun i => !i.wellFormed) = true := by decide +kernel

/-- Well-formed commands at the edges of those checks. -/
theorem test_well_formed :
    [Instr.idcode 0, .idcode 18446744073709551615, .nop { cmd 0x01 0 0 0 with buf := some (List.replicate 1024 0) }, .registerWrite 0 0xFFFFF false 0, .rwpWrite 0 0xFFFFC 0,
      .tableWindowWrite 0 57343 0, .dbgRead 0 (.nvm 262143), .dbgLane 0 (.inject 12), .powerFail 0 6, .frameReceive letters2 true, .hrePoll (poll none []),
      .digestTransferReceive 0 .x true 0 (List.replicate 192 0) []].all Instr.wellFormed = true := by decide +kernel

/-- No row of the opcode table has bits, so no word spells a command. -/
theorem test_no_word : decodeTableWord 8 0x10 = none ∧ (up.withFetchWord 8 0x10).pending = [] := by decide +kernel
/-! ## Every command completes -/

theorem test_meets_CommandsTakeEffect_host :
    (let r := withFch (fun x => { x with run := true }) up;
      let c := cmd 0x18 0x101 0 0;
      Passes 0x18 c r ∧ bitOf c.a0 8 = true ∧ bitOf c.a0 Fch.f0.num = true ∧ (fchOf r .f0).run = true ∧ syncLate r .f0 (grid10 (c.t + 20000)) = false)
    ∧ (let s := banked [(4096 + 0x0582, 0x8A000BBD), (4096 + 0x0583, 0x00050BC9), (4096 + 0x4310, 0x02580000)];
      let c := cmd 0x20 417 0 0;
      Passes 0x20 c s ∧ c.cross = [] ∧ (∀ o ∈ s.hre.out, o.id ≠ s.hre.nextId + 1) ∧ (headRec s (fld c.a0 12 0)).isSome = true ∧ laneTakes s .x = true)
    ∧ (Passes 0x30 (cmd 0x30 0 0 0) up ∧ up.lcm.cond.lane .x = .serving ∧ serving up .y = true)
    ∧ (Passes 0x63 (cmd 0x63 2 0 0) (checking []) ∧ lifecycleOk (checking []) 2 = true)
    ∧ (Passes 0x64 (cmd 0x64 0 0 0) up ∧ aonUp up = true) ∧ (Passes 0x68 (cmd 0x68 4 0 0) up ∧ up.bsc.power = .service)
    ∧ (Passes 0x68 (cmd 0x68 1 0 0) up ∧ mayStandby up = true) := by unfold Passes; decide +kernel

theorem test_meets_CommandsTakeEffect_device :
    (active up .host = true ∧ (let s := { up with regs := { RegSt.reset with rw := [(0xC000, 1)] } }; ringEn s 0 = false ∧ active s .host = true) ∧ 6 ≤ fld (0x106 : Word) 4 0)
    ∧ (let s := { withFch (fun x => { x with run := true }) up with regs := { runRegs with held := [(fchOff .f0 + 8, some 1)] } };
      bitOf (reg s (fchOff .f0 + 8)) 0 = true ∧ (fchOf s .f0).run = true ∧ active s .port0 = true ∧ (fchOf s .f0).syncs.any (fun r => r.src == 0) = false)
    ∧ (∀ l, up.lcm.sig.lane l = up.lcm.sigRef.lane l) ∧ (∀ l, henFull up l = false)
    ∧ (let s := { up with bsc := { up.bsc with pace := ⟨true, false⟩ } };
      s.bsc.pace.port .p0 = true ∧ aonUp s = true ∧ grantable s { iAvg := 0, tj := 0, share := [] } .p0 = true)
    ∧ (let s := { fieldOn (fun x => { x with en := true, clamp := some (0, true), burst := some (burst false true) }) with regs := { runRegs with held := [(0xB004, some 2)] } };
      active s .field = true ∧ s.lhf.on = true ∧ s.lhf.sys.length = 8 ∧ (sysOf s 0).clamp = some (0, true) ∧ (sysOf s 0).burst = some (burst false true)
      ∧ (burst false true).past = true ∧ ctlF s 0 1 1 ≠ 0 ∧ (sysOf s 0).en = true ∧ nth false (sysOf s 0).faults 0 = false ∧ s.lhf.tT = 0
      ∧ active s .host = true ∧ lands s (pregWord 0xB000) = true ∧ (sysOf s 0).change = none ∧ s.lhf.sar.a.wait = [] ∧ s.lhf.sar.a.routine = none ∧ s.lhf.sar.a.urg = none) := by
  refine ⟨?_, ?_, ?_, ?_, ?_, ?_⟩
  · decide +kernel
  · decide +kernel
  · intro l; cases l <;> rfl
  · intro l; cases l <;> decide +kernel
  · decide +kernel
  · decide +kernel

theorem test_meets_CommandsTakeEffect_network :
    (let s := node (fun x => { x with peers := [(2, some { loop := some (4, false), next := some (7, 1), kept := [], held := [copy0, copy0] })] });
      (peerOf (s.net.rct.lane .x) 2).held = [copy0, copy0] ∧ laneTakes s .x = true)
    ∧ (rctRound (atTime 0 (node id)) .x = true ∧ ((node id).net.rct.lane .x).st = 3 ∧ mayColdstart (atTime 1000000000 cold) .x = true)
    ∧ (let s := polling 0x22000 0 (fun x => { x with reply := some (1, 5) }) id; (s.net.rct.lane .x).reply = some (1, 5) ∧ pollLive (atTime 5 s) .x = true)
    ∧ (ridgeLive (atTime 0 probing) = false ∧ portLane probing 0 = some .x ∧ rctRound (atTime 999000 probing) .x = true
      ∧ probeDue (atTime 999000 probing) (probing.net.rct.lane .x).probed = true ∧ reflects (atTime 999000 probing) 0 = true)
    ∧ (let s := { ridge false with net := { (ridge false).net with rdg := { (ridge false).net.rdg with idleFwd := none } } };
      let f := parseFrame timed2.bytes;
      ridgeLive (atTime 0 s) = true ∧ s.net.rdg.sched = false ∧ f.timed = true ∧ f.node = fld (f.word 0) 31 24 ∧ idleBeaten 0 0 s.pending = false)
    ∧ (rswLive (atTime 400 (rings id)) = true ∧ lengthOk (atTime 400 (rings id)) (parseFrame (ringed 1).bytes) = true
      ∧ (parseFrame (ringed 1).bytes).node = nodeId (rings id)) := by decide +kernel

end Sys2Proof.Tests
end

section
/-!
Proofs of the host rings' statements: the examination of a host command up to checks 4 and 5 (R317, R325, R397), and what a command leaves that one of
these checks refuses.
-/
namespace Sys2Proof.Proofs
open Sys2Proof.Machine Sys2Proof.Laws

/-! ## Host commands and their examination -/

/-- Every host command is an examination under an opcode of the table, then an effect of its own (R317, R320). -/
theorem exec_of_hostOp {i : Instr} {op : Nat} {c : HostCmd} (h : hostOp i = some (op, c)) :
    opcodeList.contains op = true ∧ ∃ eff, ∀ s, exec i s = hostCommand op eff c s := by
  cases i <;> cases h
  all_goals exact ⟨by decide, _, fun _ => rfl⟩

/-- A host command that is not examined now changes nothing but what publishing shows (R312, R319). -/
theorem hostCommand_not_examinable {op : Nat} {eff : HostCmd → State → State} {c : HostCmd} {s : State}
    (h : examinable c (atTime c.t s) = false) : hostCommand op eff c s = .next (publish (atTime c.t s)) := by
  unfold hostCommand runCommand settle
  rw [h]; rfl

/-- While HOST is off no command is examined (R319, R325). -/
theorem examinable_host_off {c : HostCmd} {s : State} (h : active s .host = false) : examinable c s = false := by
  by_contra hx
  obtain ⟨-, hc⟩ := can_of_examinable (Bool.eq_true_of_not_eq_false hx)
  simp [hostCan, h] at hc

/-- A command that passes checks 2 and 3 meets check 4, then check 5, then the Security Core's (R317). -/
theorem examine_of_args {op : Nat} {c : HostCmd} {s : State} (hop : opcodeList.contains op = true) (ha : argsOk op c = true)
    (hs : argsAt s op c = true) :
    examine op c s =
      if s.bsc.power == .safehalt && !safehaltOps.contains op then (some stRefusedPower, s)
      else if (s.sec.lifecycle = 5 && !decommissionedOps.contains op) || !levelOk s op c then (some stRefusedLifecycle, s)
      else secChecks op c s := by
  unfold examine
  rw [hop, ha, hs]; rfl

/-- Check 4 refuses in SAFEHALT what R325 does not permit. -/
theorem examine_safehalt {op : Nat} {c : HostCmd} {s : State} (hop : opcodeList.contains op = true) (ha : argsOk op c = true)
    (hs : argsAt s op c = true) (hp : s.bsc.power = .safehalt) (hn : safehaltOps.contains op = false) :
    examine op c s = (some stRefusedPower, s) := by
  rw [examine_of_args hop ha hs, hp, hn]; rfl

/-- What R325 permits passes check 4 and meets check 5. -/
theorem examine_past_power {op : Nat} {c : HostCmd} {s : State} (hop : opcodeList.contains op = true) (ha : argsOk op c = true)
    (hs : argsAt s op c = true) (hp : s.bsc.power ≠ .safehalt ∨ safehaltOps.contains op = true) :
    examine op c s =
      if (s.sec.lifecycle = 5 && !decommissionedOps.contains op) || !levelOk s op c then (some stRefusedLifecycle, s)
      else secChecks op c s := by
  have h4 : (s.bsc.power == .safehalt && !safehaltOps.contains op) = false := by
    rcases hp with hp | hp
    · rw [beq_eq_false_iff_ne.2 hp, Bool.false_and]
    · rw [hp, Bool.not_true, Bool.and_false]
  rw [examine_of_args hop ha hs, h4]; rfl

/-- Check 5 refuses in DECOMMISSIONED what its matrix does not permit (R397). -/
theorem examine_decommissioned {op : Nat} {c : HostCmd} {s : State} (hop : opcodeList.contains op = true) (ha : argsOk op c = true)
    (hs : argsAt s op c = true) (hp : s.bsc.power ≠ .safehalt ∨ safehaltOps.contains op = true) (hl : s.sec.lifecycle = 5)
    (hn : decommissionedOps.contains op = false) : examine op c s = (some stRefusedLifecycle, s) := by
  rw [examine_past_power hop ha hs hp, hl, hn]; rfl

/-- Checks 6 to 8 answer with their own statuses alone (R317). -/
theorem secChecks_status {op : Nat} {c : HostCmd} {s : State} {st : Nat} (h : (secChecks op c s).1 = some st) :
    st = stRefusedAon ∨ st = stRefusedCounter ∨ st = stRefusedFrank := by
  unfold secChecks at h
  dsimp only at h
  split at h
  · cases h
  split at h
  · cases h; exact .inl rfl
  split at h
  · cases h
  split at h
  · cases h; exact .inr (.inl rfl)
  split at h
  · cases h; exact .inr (.inr rfl)
  · cases h

/-- What R325 permits is not refused by check 4. -/
theorem examine_ne_refusedPower {op : Nat} {c : HostCmd} {s : State} (hop : opcodeList.contains op = true) (ha : argsOk op c = true)
    (hs : argsAt s op c = true) (hp : s.bsc.power ≠ .safehalt ∨ safehaltOps.contains op = true) :
    (examine op c s).1 ≠ some stRefusedPower := by
  rw [examine_past_power hop ha hs hp]
  split
  · exact fun h => absurd (Option.some.inj h) (by decide)
  · intro h
    rcases secChecks_status h with e | e | e <;> exact absurd e (by decide)

/-! ## What a refused command leaves -/

/-- A command refused before the Security Core's checks completes with the check's status and has no effect: the Security Core and the store stay, and the
rest changes as its completion shows (R317, R324). -/
theorem refused_no_effect {op : Nat} {eff : HostCmd → State → State} {c : HostCmd} {st : Nat} {s : State}
    (hx : examinable c (atTime c.t s) = true)
    (h : examine op c (takeCmd c (atTime c.t s)) = (some st, takeCmd c (atTime c.t s))) :
    ∃ t, hostCommand op eff c s = .next t ∧ Completed op c st 0 0 s t ∧ t.sec = s.sec ∧ t.pst = s.pst
      ∧ t = { commanded s t with now := c.t } := by
  have he : (examine op c (takeCmd c (atTime c.t s))).2 = takeCmd c (atTime c.t s) := by rw [h]
  have hcompleted := completed_taken (op := op) (st := st) (r0 := 0) (r1 := 0) hx (SameForCpl.refl _) rfl
  have hexec := hostCommand_fails (eff := eff) (s := s) ⟨hx, by rw [h]⟩
  rw [he] at hcompleted hexec
  generalize hu : publish (finishNow c op st 0 0 (takeCmd c (atTime c.t s))) = u at hcompleted hexec
  have hframe : u = answered s u := by
    have hfinished := finishNow_frame c op st 0 0 (takeCmd c (atTime c.t s))
    have hpublished := answered_of_reported (reported_of_shown (publish_frame (finishNow c op st 0 0 (takeCmd c (atTime c.t s)))))
    rw [hu] at hpublished
    exact answered_trans (answered_trans (answered_trans (atTime_frame c.t s) (takeCmd_frame c (atTime c.t s))) hfinished) hpublished
  have hnow : u.now = c.t := by
    rw [← hu, publish_now]; exact cplEmit_now ..
  refine ⟨u, hexec, hcompleted, by rw [hframe]; rfl, by rw [hframe]; rfl, ?_⟩
  rw [← hnow]; exact commanded_of_answered hframe

/-! ## The statement -/

/-- Settles O3: STANDBY has HOST off, so that nothing is examined; otherwise check 4, or check 5 in DECOMMISSIONED, is the first that fails and answers on
the state that it was asked about. -/
theorem haltedDeviceRefusesCommands : Obligations.HaltedDeviceRefusesCommands := by
  intro i op c s hi
  obtain ⟨hop, eff, hexec⟩ := exec_of_hostOp hi
  rw [hexec s]
  refine ⟨fun _ hoff => ?standby, fun hx ha hs => ⟨fun hp hn => ?safehalt, fun hp => ⟨?permitted, fun hl hn => ?decommissioned⟩⟩⟩
  case standby =>
    have hframe := publish_frame (atTime c.t s)
    have hnow : (publish (atTime c.t s)).now = c.t := publish_now _
    refine ⟨_, hostCommand_not_examinable (examinable_host_off hoff), ?_⟩
    generalize publish (atTime c.t s) = u at hframe hnow ⊢
    rw [← hnow]; exact hframe
  case safehalt => exact refused_no_effect hx (examine_safehalt hop ha hs hp hn)
  case permitted => exact examine_ne_refusedPower hop ha hs hp
  case decommissioned => exact refused_no_effect hx (examine_decommissioned hop ha hs hp hl hn)

end Sys2Proof.Proofs
end

section
/-!
Proofs of the statement of start and reset: what may change of the state while a device is halted (R363), a lane retired (R199), order 2 of the start
begun (R440), a committed bank activated again (R427); then BRINGUP_COMPLETE and LANE_SELFTEST_DONE (R441, R443).
-/
namespace Sys2Proof.Proofs
open Sys2Proof.Machine Sys2Proof.Laws

/-! ## What leaves the device's control as it is -/

/-- Two states with the same power control, lane condition, Security Core and registers. -/
structure SameControl (s u : State) : Prop where
  bsc : u.bsc = s.bsc
  lcm : u.lcm = s.lcm
  sec : u.sec = s.sec
  regs : u.regs = s.regs

theorem SameControl.refl (s : State) : SameControl s s := ⟨rfl, rfl, rfl, rfl⟩

theorem SameControl.trans {s t u : State} (h : SameControl s t) (k : SameControl t u) : SameControl s u :=
  ⟨k.bsc.trans h.bsc, k.lcm.trans h.lcm, k.sec.trans h.sec, k.regs.trans h.regs⟩

/-- A later part leaves the control where the earlier one does. -/
theorem SameControl.after {s t u : State} (k : SameControl t u) (h : SameControl s t) : SameControl s u := h.trans k

theorem SameControl.foldl {α : Type} {f : State → α → State} (h : ∀ s a, SameControl s (f s a)) (l : List α) (s : State) :
    SameControl s (l.foldl f s) := by
  induction l generalizing s with
  | nil => exact .refl s
  | cons a l ih => exact (h s a).trans (ih (f s a))

theorem sameControl_of_answered {s t : State} (h : t = answered s t) : SameControl s t := by
  constructor <;> rw [h] <;> rfl

theorem sameControl_of_reported {s t : State} (h : t = reported s t) : SameControl s t :=
  sameControl_of_answered (answered_of_reported h)

theorem finish_control (id st : Nat) (r0 r1 : Word) (s : State) : SameControl s (finish id st r0 r1 s) :=
  sameControl_of_answered (finish_frame ..)

theorem note_control (code : Nat) (d : Dom) (b : Nat) (p0 p1 p2 : Word) (s : State) : SameControl s (note code d b p0 p1 p2 s) :=
  sameControl_of_reported (note_frame ..)

theorem mapFch_control (i : Fch) (f : FchSt → FchSt) (s : State) : SameControl s (mapFch i f s) :=
  ⟨mapFch_bsc i f s, mapFch_lcm i f s, mapFch_sec i f s, mapFch_regs i f s⟩

theorem orderBand_control (d : Dom) (b : Nat) (s : State) : SameControl s (orderBand d b s) := by
  unfold orderBand
  dsimp only
  split <;> exact ⟨rfl, rfl, rfl, rfl⟩

theorem setFloor_control (d : Dom) (f : Nat) (s : State) : SameControl s (setFloor d f s) := by
  unfold setFloor holdFloor
  split
  · split
    · exact .after (orderBand_control ..) ⟨rfl, rfl, rfl, rfl⟩
    · exact ⟨rfl, rfl, rfl, rfl⟩
  · exact ⟨rfl, rfl, rfl, rfl⟩

theorem setDom_control (d : Dom) (st : DState) (s : State) : SameControl s (setDom d st s) := by
  cases d <;> exact ⟨rfl, rfl, rfl, rfl⟩

theorem holdDom_control (d : Dom) (s : State) : SameControl s (holdDom d s) := by
  unfold holdDom
  split
  · exact setDom_control d .held s
  · exact .refl s

/-! ## Halting (R198, R339, R363) -/

theorem cancelIds_control (ids : List Nat) (s : State) : SameControl s (ids.foldl (fun s i => finish i stCancelled 0 0 s) s) :=
  .foldl (fun s i => finish_control i stCancelled 0 0 s) ids s

theorem cancelRequests_control (p : Port) (s : State) : SameControl s (cancelRequests p s) := by
  unfold cancelRequests
  exact .after (cancelIds_control ..) ⟨rfl, rfl, rfl, rfl⟩

theorem fsyncPart_control (id inst st : Nat) (ny : Int) (s : State) : SameControl s (fsyncPart id inst st ny s) := by
  unfold fsyncPart
  split
  · exact .refl s
  · extract_lets f rest
    split
    · split <;> exact .after (finish_control ..) ⟨rfl, rfl, rfl, rfl⟩
    · exact ⟨rfl, rfl, rfl, rfl⟩

theorem syncCancel_control (i : Fch) (r : SyncReq) (s : State) : SameControl s (syncCancel i r s) := by
  unfold syncCancel
  split
  · exact fsyncPart_control ..
  · split
    · exact note_control ..
    · exact .refl s

theorem syncsCancel_control (i : Fch) (rs : List SyncReq) (s : State) :
    SameControl s (rs.foldl (fun s r => syncCancel i r s) s) :=
  .foldl (fun s r => syncCancel_control i r s) rs s

theorem cancelWaiting_control (i : Fch) (s : State) : SameControl s (cancelWaiting i s) := by
  unfold cancelWaiting
  dsimp only
  have h := (mapFch_control i (fun x => { x with syncs := [], swap := none }) s).trans (syncsCancel_control i (fchOf s i).syncs _)
  split
  · exact h.trans (finish_control ..)
  · exact h

theorem toStr_control (b : Block) (s : State) : SameControl s (toStr b s) := by
  unfold toStr
  refine .foldl (fun s n => ?_) _ s
  dsimp only
  split
  · exact ⟨rfl, rfl, rfl, rfl⟩
  · exact .refl s

theorem flagDef_control (d : Nat) (s : State) : SameControl s (flagDef d s) := by
  unfold flagDef
  dsimp only
  split <;> exact ⟨rfl, rfl, rfl, rfl⟩

theorem zonePoint_control (i : Fch) (kind : Nat) (n t : Int) (lt : Bool) (s : State) : SameControl s (zonePoint i kind n t lt s) := by
  unfold zonePoint
  dsimp only
  split
  · exact .trans (.foldl (fun s d => (flagDef_control d s).trans (toStr_control _ _)) _ s) (mapFch_control ..)
  · exact mapFch_control ..

theorem endChain_control (i : Fch) (n : Option Int) (t : Int) (s : State) : SameControl s (endChain i n t s) := by
  have hend : ∀ (k t : Int) (lt : Bool) (u : State),
      SameControl u (zonePoint i 2 k t lt (cancelWaiting i (mapFch i (fun x => { x with endAt := none }) u))) := fun k t lt u =>
    ((mapFch_control ..).trans (cancelWaiting_control ..)).trans (zonePoint_control ..)
  unfold endChain
  extract_lets x last y meets swaps v w z
  have hw : SameControl s w := (mapFch_control ..).trans (syncsCancel_control ..)
  have hz : SameControl s z := by
    unfold z
    split
    · split
      · exact hw
      · exact hw.trans (finish_control ..)
    · exact hw
  split
  · split
    · exact hz.trans (hend ..)
    · exact hz
  · split
    · exact hz.trans (hend ..)
    · exact hz
  · exact hz

theorem stopPort_control (p : Port) (run : Nat) (s : State) : SameControl s (stopPort p run s) := by
  unfold stopPort
  dsimp only
  refine .trans ?_ (setFloor_control ..)
  refine .trans ?_ (note_control ..)
  exact .after (endChain_control ..) ⟨rfl, rfl, rfl, rfl⟩

theorem haltPort_control (p : Port) (s : State) : SameControl s (haltPort p s) := by
  unfold haltPort
  extract_lets x n u v w
  split
  · exact .refl s
  have hu : SameControl s u := by
    unfold u; split
    · exact finish_control ..
    · exact .refl s
  have hv : SameControl s v := by
    unfold v; split
    · exact hu.trans (finish_control ..)
    · exact hu
  have hw : SameControl s w := by
    unfold w; split
    · exact hv.trans (finish_control ..)
    · exact hv
  refine .trans ?_ (stopPort_control ..)
  refine .trans ?_ (cancelRequests_control ..)
  exact hw.trans ⟨rfl, rfl, rfl, rfl⟩

theorem laneCommandsCancel_control (s : State) : SameControl s (laneCommandsCancel s) := by
  unfold laneCommandsCancel cancelAll
  exact .after (.foldl (fun s (o : OutCmd) => finish_control o.id stCancelled 0 0 s) _ _) ⟨rfl, rfl, rfl, rfl⟩

theorem setBankState_control (k : Bank) (st : BankState) (s : State) : SameControl s (setBankState k st s) := by
  cases k <;> exact ⟨rfl, rfl, rfl, rfl⟩

theorem topoCancel_control (s : State) : SameControl s (topoCancel s) := by
  unfold topoCancel
  split
  · exact .refl s
  · refine .trans ?_ (finish_control ..)
    exact .after (setBankState_control ..) ⟨rfl, rfl, rfl, rfl⟩

/-- An event changes the recorder's inbox alone. -/
theorem note_inbox_only (code : Nat) (d : Dom) (b : Nat) (p0 p1 p2 : Word) (s : State) :
    note code d b p0 p1 p2 s = { s with erc := { s.erc with inbox := (note code d b p0 p1 p2 s).erc.inbox } } := by
  unfold note noteEv
  split <;> rfl

/-- A change of power state changes that and the recorder's inbox. -/
theorem setPower_frame (p : PState) (s : State) :
    setPower p s = { s with bsc := { s.bsc with power := p }, erc := { s.erc with inbox := (setPower p s).erc.inbox } } := by
  unfold setPower
  split
  case isTrue h => subst h; rfl
  case isFalse => exact note_inbox_only ..

/-- What SAFEHALT stops, cancels and holds before the power state changes (R339, R363). -/
def halted (s : State) : State :=
  [Dom.lanex, .laney, .ring, .field].foldl (fun s d => holdDom d s) (topoCancel (laneCommandsCancel (haltPort .p1 (haltPort .p0 s))))

theorem enterHalt_of_start {cause : HaltCause} {s : State} (h : s.bsc.power = .start) :
    enterHalt cause s = setPower .safehalt { halted s with bsc := { (halted s).bsc with halt := cause } } := by
  unfold enterHalt halted
  rw [if_neg (by rw [h]; decide)]

theorem halted_control (s : State) : SameControl s (halted s) := by
  unfold halted
  refine .after (.foldl (fun s d => holdDom_control d s) _ _) ?_
  exact ((haltPort_control .p0 s).trans (haltPort_control .p1 _)).trans ((laneCommandsCancel_control _).trans (topoCancel_control _))

/-- SAFEHALT entered in START sets the power state and its cause, and leaves the rest of the device's control. -/
theorem enterHalt_control {cause : HaltCause} {s : State} (h : s.bsc.power = .start) :
    SameControl { s with bsc := { s.bsc with power := .safehalt, halt := cause } } (enterHalt cause s) := by
  have hcontrol := halted_control s
  rw [enterHalt_of_start h, setPower_frame]
  generalize halted s = u at hcontrol ⊢
  obtain ⟨hbsc, hlcm, hsec, hregs⟩ := hcontrol
  exact ⟨by rw [← hbsc], hlcm, hsec, hregs⟩

/-! ## BRINGUP_COMPLETE (R427, R443) -/

theorem regF_congr {s u : State} (hregs : u.regs = s.regs) (hpst : u.pst = s.pst) (off hi lo : Nat) : regF u off hi lo = regF s off hi lo := by
  unfold regF reg regStored
  rw [hregs, hpst]

theorem topoRefusal_congr {s u : State} (hnow : u.now = s.now) (hregs : u.regs = s.regs) (hpst : u.pst = s.pst) (k : Bank) (r : Nat) :
    topoRefusal u k r = topoRefusal s k r := by
  unfold topoRefusal topoStart roundNs bankState
  rw [regF_congr hregs hpst, hnow, hpst]

@[simp] theorem bankState_setBankState (k : Bank) (st : BankState) (s : State) : bankState (setBankState k st s) k = st := by
  cases k <;> rfl

/-- A committed bank that may be switched to is checked where AUTOACT is on (R427). -/
theorem autoActivate_due {s : State} {k : Bank} (hk : s.pst.committed = some k) (hauto : regF s 0xF004 0 0 = 1)
    (hfree : topoRefusal s k 0 = none) : autoActivate s = topoAccept 0 k s.pst.committedGen 0 s := by
  simp [autoActivate, hk, hauto, hfree]

theorem autoActivate_off {s : State} (h : s.pst.committed = none ∨ regF s 0xF004 0 0 ≠ 1) : autoActivate s = s := by
  unfold autoActivate
  split
  · rfl
  case _ k hk =>
    have hoff : regF s 0xF004 0 0 ≠ 1 := h.resolve_left (by rw [hk]; exact Option.some_ne_none k)
    rw [if_neg (by simp [hoff])]

/-- The re-activation changes the banks' states and the switch that waits, nothing else. -/
theorem autoActivate_frame (s : State) :
    ∃ w a b, autoActivate s = { s with pst := { s.pst with topo := w, bankA := a, bankB := b } } := by
  unfold autoActivate
  split
  · exact ⟨_, _, _, rfl⟩
  case _ k _ =>
    split
    · cases k <;> exact ⟨_, _, _, rfl⟩
    · exact ⟨_, _, _, rfl⟩

/-- A device whose bring-up has ended. -/
def broughtUp (s : State) : State := { s with bsc := { s.bsc with bringup := 3 } }

/-- The power state that a device brought up takes. -/
def inService (s : State) : State := setPower (serviceOrLean s) s

theorem inService_frame (s : State) :
    ∃ i, inService s = { s with bsc := { s.bsc with power := serviceOrLean s }, erc := { s.erc with inbox := i } } :=
  ⟨_, setPower_frame _ s⟩

section
variable {t : Int} {s : State}

theorem bringupDue_iff : ((atTime t s).bsc.power == .start && decide ((atTime t s).bsc.bringup = 2) && order2Up (atTime t s)) = true
    ↔ s.bsc.power = .start ∧ s.bsc.bringup = 2 ∧ order2Up (atTime t s) = true := by
  rw [Bool.and_eq_true, Bool.and_eq_true, beq_iff_eq, decide_eq_true_iff, and_assoc]
  rfl

theorem bringupComplete_due (h : s.bsc.power = .start ∧ s.bsc.bringup = 2 ∧ order2Up (atTime t s) = true) :
    exec (.bringupComplete t) s =
      if s.sec.lifecycle = 5 then .next (publish (enterHalt .decommissioned (broughtUp (atTime t s))))
      else .next (publish (autoActivate (inService (broughtUp (atTime t s))))) := if_pos (bringupDue_iff.2 h)

theorem bringupComplete_early (h : ¬ (s.bsc.power = .start ∧ s.bsc.bringup = 2 ∧ order2Up (atTime t s) = true)) :
    exec (.bringupComplete t) s = .next (publish (atTime t s)) := if_neg (mt bringupDue_iff.1 h)

/-- A command that finds nothing to do shows the instant alone. -/
theorem publish_atTime_frame (t : Int) (s : State) : publish (atTime t s) = { shown s (publish (atTime t s)) with now := t } := by
  have hnow : (publish (atTime t s)).now = t := publish_now _
  have hframe := publish_frame (atTime t s)
  generalize publish (atTime t s) = u at hnow hframe ⊢
  rw [← hnow]
  exact hframe

/-- A DECOMMISSIONED device halts at the end of its bring-up. -/
theorem bringup_decommissioned (hp : s.bsc.power = .start) :
    let u := publish (enterHalt .decommissioned (broughtUp (atTime t s)))
    u.bsc.bringup = 3 ∧ u.bsc.power = .safehalt ∧ u.bsc.halt = .decommissioned ∧ u.sec = s.sec ∧ u.regs = s.regs := by
  obtain ⟨hbsc, -, hsec, hregs⟩ := enterHalt_control (cause := .decommissioned) (s := broughtUp (atTime t s)) hp
  dsimp only
  rw [publish_bsc, publish_sec, publish_regs, hbsc, hsec, hregs]
  exact ⟨rfl, rfl, rfl, rfl, rfl⟩

theorem bringup_serves_power :
    let u := publish (autoActivate (inService (broughtUp (atTime t s))))
    u.bsc.bringup = 3 ∧ u.bsc.power = if leanCause s.bsc then .lean else .service := by
  obtain ⟨w, a, b, hauto⟩ := autoActivate_frame (inService (broughtUp (atTime t s)))
  obtain ⟨i, hservice⟩ := inService_frame (broughtUp (atTime t s))
  dsimp only
  rw [publish_bsc, hauto, hservice]
  exact ⟨rfl, rfl⟩

/-- What decides on the re-activation of a bank stands at the end of bring-up as at the instant of the command. -/
theorem inService_same : (inService (broughtUp (atTime t s))).now = (atTime t s).now ∧ (inService (broughtUp (atTime t s))).regs = s.regs
    ∧ (inService (broughtUp (atTime t s))).pst = s.pst := by
  obtain ⟨i, hservice⟩ := inService_frame (broughtUp (atTime t s))
  rw [hservice]
  exact ⟨rfl, rfl, rfl⟩

theorem bringup_checks_bank {k : Bank} (hk : s.pst.committed = some k) (hauto : regF s 0xF004 0 0 = 1)
    (hfree : topoRefusal (atTime t s) k 0 = none) :
    let u := publish (autoActivate (inService (broughtUp (atTime t s))))
    bankState u k = .checking ∧ ∃ w, u.pst.topo = some w ∧ w.bank = k ∧ w.gen = s.pst.committedGen ∧ w.id = 0 := by
  obtain ⟨hnow, hregs, hpst⟩ := inService_same (t := t) (s := s)
  dsimp only
  unfold bankState
  rw [publish_pst, autoActivate_due (by rw [hpst]; exact hk) (by rw [regF_congr hregs hpst]; exact hauto)
    (by rw [topoRefusal_congr (s := atTime t s) hnow hregs hpst]; exact hfree), hpst]
  cases k <;> exact ⟨rfl, _, rfl, rfl, rfl, rfl⟩

theorem bringup_keeps_store (h : s.pst.committed = none ∨ regF s 0xF004 0 0 ≠ 1) :
    (publish (autoActivate (inService (broughtUp (atTime t s))))).pst = s.pst := by
  obtain ⟨-, hregs, hpst⟩ := inService_same (t := t) (s := s)
  rw [publish_pst, autoActivate_off (by rw [hpst, regF_congr hregs hpst]; exact h), hpst]

theorem bringup_serves_frame :
    let u := publish (autoActivate (inService (broughtUp (atTime t s))))
    u = { shown s u with now := t, bsc := { s.bsc with bringup := 3, power := u.bsc.power }, erc := { s.erc with inbox := u.erc.inbox },
                         pst := { s.pst with topo := u.pst.topo, bankA := u.pst.bankA, bankB := u.pst.bankB } } := by
  obtain ⟨i, hservice⟩ := inService_frame (broughtUp (atTime t s))
  obtain ⟨w, a, b, hauto⟩ := autoActivate_frame (inService (broughtUp (atTime t s)))
  rw [hservice] at hauto
  rw [hservice]
  generalize autoActivate _ = v at hauto ⊢
  have hnow : (publish v).now = t := by rw [publish_now, hauto]; rfl
  have hframe := publish_frame v
  generalize publish v = u at hnow hframe ⊢
  dsimp only
  rw [← hnow, hframe, hauto]
  rfl

end

/-! ## Order 2 of the start (R440) -/

/-- A domain other than a lane's starts through RAMP, and no other state changes. -/
theorem domStart_frame {d : Dom} (hd : d ≠ .lanex ∧ d ≠ .laney) (s : State) :
    ∃ x, x.st = .ramp ∧ domStart d s = { s with dom := s.dom.put d x } := by
  obtain ⟨hx, hy⟩ := hd
  cases d
  case lanex => exact absurd rfl hx
  case laney => exact absurd rfl hy
  all_goals exact ⟨_, rfl, rfl⟩

/-- Domains that start: each is in RAMP, and only they change. -/
theorem domStarts_frame (ds : List (Dom × Nat)) (hds : ∀ p ∈ ds, p.1 ≠ .lanex ∧ p.1 ≠ .laney) (s : State) :
    ∃ m, ds.foldl (fun s p => domStart p.1 s) s = { s with dom := m }
      ∧ (∀ p ∈ ds, (m.get p.1).st = .ramp) ∧ (∀ d, (∀ p ∈ ds, p.1 ≠ d) → m.get d = s.dom.get d)
      ∧ ∀ d, (s.dom.get d).st = .ramp → (m.get d).st = .ramp := by
  induction ds generalizing s with
  | nil => exact ⟨s.dom, rfl, fun p h => absurd h List.not_mem_nil, fun _ _ => rfl, fun _ h => h⟩
  | cons p ds ih =>
    obtain ⟨x, hx, hstart⟩ := domStart_frame (hds p List.mem_cons_self) s
    obtain ⟨m, hm, hramp, hother, hkeep⟩ := ih (fun q h => hds q (List.mem_cons_of_mem p h)) (domStart p.1 s)
    rw [hstart] at hm hother hkeep
    have hp : (m.get p.1).st = .ramp := hkeep p.1 (by rw [get_put]; exact hx)
    refine ⟨m, by rw [List.foldl_cons, hstart, hm], fun q hq => ?_, fun d hd => ?_, fun d hd => ?_⟩
    · rcases List.mem_cons.1 hq with rfl | hq
      · exact hp
      · exact hramp q hq
    · rw [hother d (fun q hq => hd q (List.mem_cons_of_mem p hq)), get_put_ne _ _ (hd p List.mem_cons_self).symm]
    · by_cases he : d = p.1
      · rw [he]; exact hp
      · exact hkeep d (by rw [get_put_ne _ _ he]; exact hd)

/-- Before both self-tests are over, and outside START, order 2 does not begin. -/
theorem startOrder2_waits {s : State} (h : ¬ (s.bsc.bringup = 1 ∧ (s.bsc.tested.a && s.bsc.tested.b) = true ∧ s.bsc.power = .start)) :
    startOrder2 s = s := by
  unfold startOrder2
  exact if_neg (by simpa [and_assoc] using h)

/-- With both self-tests over, each domain of order 2 that is not switched off is in RAMP. -/
theorem startOrder2_begins {s : State} (hb : s.bsc.bringup = 1) (ht : (s.bsc.tested.a && s.bsc.tested.b) = true) (hp : s.bsc.power = .start) :
    ∃ m, startOrder2 s = { s with bsc := { s.bsc with bringup := 2 }, dom := m }
      ∧ (∀ p ∈ domctlDoms, (regF s 0xE00C 3 0).testBit p.2 = false → (m.get p.1).st = .ramp) ∧ ∀ l : Lane, m.get l.dom = s.dom.get l.dom := by
  have horder : ∀ p ∈ domctlDoms, ∀ l : Lane, p.1 ≠ l.dom := by
    intro p hp l; cases l <;> revert p <;> decide
  have hsub : ∀ p ∈ domctlDoms.filter (fun p => !(regF s 0xE00C 3 0).testBit p.2), p ∈ domctlDoms := fun p h => (List.mem_filter.1 h).1
  obtain ⟨m, hm, hramp, hother, -⟩ := domStarts_frame (domctlDoms.filter (fun p => !(regF s 0xE00C 3 0).testBit p.2))
    (fun p h => ⟨horder p (hsub p h) .x, horder p (hsub p h) .y⟩) { s with bsc := { s.bsc with bringup := 2 } }
  refine ⟨m, ?_, fun p hp hbit => hramp p (List.mem_filter.2 ⟨hp, by rw [hbit]; rfl⟩), fun l => hother l.dom (fun p h => horder p (hsub p h) l)⟩
  unfold startOrder2
  rw [Bool.and_assoc (decide _), ht, hb, hp]
  exact hm

/-- Order 2 of the start leaves everything but the step of bring-up and the domains, and the lanes' domains too. -/
theorem startOrder2_frame (s : State) :
    ∃ n m, startOrder2 s = { s with bsc := { s.bsc with bringup := n }, dom := m } ∧ ∀ l : Lane, m.get l.dom = s.dom.get l.dom := by
  by_cases h : s.bsc.bringup = 1 ∧ (s.bsc.tested.a && s.bsc.tested.b) = true ∧ s.bsc.power = .start
  · obtain ⟨hb, ht, hp⟩ := h
    obtain ⟨m, hm, -, hlane⟩ := startOrder2_begins hb ht hp
    exact ⟨2, m, hm, hlane⟩
  · exact ⟨s.bsc.bringup, s.dom, startOrder2_waits h, fun _ => rfl⟩

/-! ## A self-test that passes (R440, R441) -/

/-- A lane that sets out to join its channel changes its own RCT and the round's parameters. -/
theorem rctStart_frame (l : Lane) (s : State) :
    ∃ n, rctStart l s = { s with net := n } ∧ (n.rct.lane l).since = s.now ∧ n.rct.lane l.other = s.net.rct.lane l.other := by
  refine ⟨(rctStart l s).net, rfl, ?_, ?_⟩ <;> cases l <;> rfl

/-- A device in which the self-test of a lane is over. -/
def tested (l : Lane) (s : State) : State := { s with bsc := { s.bsc with tested := s.bsc.tested.setLane l true } }

/-- Both self-tests are over with a lane's own when the other's was before. -/
theorem tested_both (l : Lane) (s : State) :
    ((tested l s).bsc.tested.a && (tested l s).bsc.tested.b) = s.bsc.tested.lane l.other := by
  cases l
  · exact Bool.true_and _
  · exact Bool.and_true _

section
variable {t : Int} {l : Lane} {s : State}

theorem selftestDue_iff :
    (laneStarting (atTime t s) l && active (atTime t s) l.dom && decide ((atTime t s).bsc.bringup = 1)) = true
      ↔ laneStarting s l = true ∧ active s l.dom = true ∧ s.bsc.bringup = 1 := by
  rw [Bool.and_eq_true, Bool.and_eq_true, decide_eq_true_iff, and_assoc]
  rfl

theorem laneStarting_iff : laneStarting s l = true ↔ s.bsc.power = .start ∧ s.bsc.tested.lane l = false ∧ s.lcm.cond.lane l = .serving := by
  unfold laneStarting
  rw [Bool.and_eq_true, Bool.and_eq_true, beq_iff_eq, beq_iff_eq, Bool.not_eq_true', and_assoc]

theorem laneSelftestDone_early {ok : Bool} (h : ¬ (laneStarting s l = true ∧ active s l.dom = true ∧ s.bsc.bringup = 1)) :
    exec (.laneSelftestDone t l ok) s = .next (publish (atTime t s)) := if_neg (mt selftestDue_iff.1 h)

theorem laneSelftestDone_passes (h : laneStarting s l = true ∧ active s l.dom = true ∧ s.bsc.bringup = 1) :
    exec (.laneSelftestDone t l true) s = .next (publish (startOrder2 (rctStart l (tested l (atTime t s))))) := if_pos (selftestDue_iff.2 h)

theorem laneSelftestDone_fails (h : laneStarting s l = true ∧ active s l.dom = true ∧ s.bsc.bringup = 1) :
    exec (.laneSelftestDone t l false) s
      = .next (publish (startOrder2 (retireLane l (laneFaultAs .selftest true none l 8 0 (tested l (atTime t s)))))) :=
  if_pos (selftestDue_iff.2 h)

/-- The lane that passed sets out to join; order 2 begins when the other lane's test is over. -/
theorem selftest_passes_state (hp : s.bsc.power = .start) (hb : s.bsc.bringup = 1) :
    ∃ n b m, startOrder2 (rctStart l (tested l (atTime t s)))
        = { tested l (atTime t s) with net := n, bsc := { (tested l (atTime t s)).bsc with bringup := b }, dom := m }
      ∧ (n.rct.lane l).since = t ∧ n.rct.lane l.other = s.net.rct.lane l.other
      ∧ b = (if s.bsc.tested.lane l.other then 2 else 1)
      ∧ (s.bsc.tested.lane l.other = true → ∀ p ∈ domctlDoms, (regF s 0xE00C 3 0).testBit p.2 = false → (m.get p.1).st = .ramp) := by
  obtain ⟨n, hrct, hsince, hother⟩ := rctStart_frame l (tested l (atTime t s))
  have hboth := tested_both l (atTime t s)
  rw [hrct]
  cases ho : s.bsc.tested.lane l.other with
  | false =>
    have hwaits := startOrder2_waits (s := { tested l (atTime t s) with net := n })
      (fun ⟨_, ht, _⟩ => Bool.false_ne_true ((hboth.trans ho).symm.trans ht))
    refine ⟨n, 1, s.dom, hwaits.trans ?_, hsince, hother, rfl, fun h => absurd h Bool.false_ne_true⟩
    rw [← hb]
    rfl
  | true =>
    obtain ⟨m, hm, hramp, -⟩ := startOrder2_begins (s := { tested l (atTime t s) with net := n }) hb (hboth.trans ho) hp
    exact ⟨n, 2, m, hm, hsince, hother, rfl,
      fun _ p hmem hbit => hramp p hmem ((congrArg (Nat.testBit · p.2) (regF_congr rfl rfl ..)).trans hbit)⟩

/-- What a passed self-test leaves: the RCTs, the domains, the tests and the step of bring-up apart, all but what publishing shows. -/
theorem selftest_passes_frame {n : NetSt} {b : Nat} {m : Doms} {v : State}
    (hv : v = { tested l (atTime t s) with net := n, bsc := { (tested l (atTime t s)).bsc with bringup := b }, dom := m }) :
    let u := publish v
    u = { reported s u with now := t, net := u.net, bsc := { s.bsc with tested := u.bsc.tested, bringup := u.bsc.bringup }, dom := u.dom,
                            erc := s.erc } := by
  have hnow : (publish v).now = t := by rw [publish_now, hv]; rfl
  have hframe := publish_frame v
  generalize publish v = u at hnow hframe ⊢
  dsimp only
  rw [← hnow, hframe, hv]
  rfl

/-- A lane that passes sets out to join; with the other lane's test over, order 2 begins. -/
theorem selftest_passes (hp : s.bsc.power = .start) (hb : s.bsc.bringup = 1) :
    let u := publish (startOrder2 (rctStart l (tested l (atTime t s))))
    u.bsc.tested.lane l = true ∧ u.bsc.tested.lane l.other = s.bsc.tested.lane l.other ∧ u.lcm = s.lcm ∧ (u.net.rct.lane l).since = t
      ∧ u.net.rct.lane l.other = s.net.rct.lane l.other ∧ u.bsc.bringup = (if s.bsc.tested.lane l.other then 2 else 1)
      ∧ (s.bsc.tested.lane l.other = true → ∀ p ∈ domctlDoms, (regF s 0xE00C 3 0).testBit p.2 = false → (u.dom.get p.1).st = .ramp)
      ∧ u = { reported s u with now := t, net := u.net, bsc := { s.bsc with tested := u.bsc.tested, bringup := u.bsc.bringup }, dom := u.dom,
                                erc := s.erc } := by
  obtain ⟨n, b, m, hv, hsince, hother, hbringup, hramp⟩ := selftest_passes_state (l := l) (t := t) hp hb
  generalize startOrder2 _ = v at hv ⊢
  have hbsc := (publish_bsc v).trans (congrArg State.bsc hv)
  have hlcm := (publish_lcm v).trans (congrArg State.lcm hv)
  have hnet := (publish_net v).trans (congrArg State.net hv)
  have hdom := (publish_dom v).trans (congrArg State.dom hv)
  refine ⟨?_, ?_, hlcm, ?_, ?_, ?_, fun ho => ?_, selftest_passes_frame hv⟩
  · rw [hbsc]; exact lane_setLane ..
  · rw [hbsc]; exact lane_setLane_other ..
  · rw [hnet]; exact hsince
  · rw [hnet]; exact hother
  · rw [hbsc]; exact hbringup
  · rw [hdom]; exact hramp ho

end

/-! ## A retirement (R199) -/

/-- What a lane's retirement and what stands around it agree on: power control, lane conditions, whether the lane's domain is held, the events reported. -/
structure LaneStands (l : Lane) (s u : State) : Prop where
  bsc : u.bsc = s.bsc
  lcm : u.lcm = s.lcm
  st : (u.dom.get l.dom).st = (s.dom.get l.dom).st
  inbox : s.erc.inbox ⊆ u.erc.inbox

theorem LaneStands.refl (l : Lane) (s : State) : LaneStands l s s := ⟨rfl, rfl, rfl, List.Subset.refl _⟩

theorem LaneStands.trans {l : Lane} {s t u : State} (h : LaneStands l s t) (k : LaneStands l t u) : LaneStands l s u :=
  ⟨k.bsc.trans h.bsc, k.lcm.trans h.lcm, k.st.trans h.st, List.Subset.trans h.inbox k.inbox⟩

/-- An event changes the recorder's inbox alone, and is in it while AON is up. -/
theorem noteEv_event (e : EvIn) (s : State) :
    ∃ i, noteEv e s = { s with erc := { s.erc with inbox := i } } ∧ (aonUp s = true → e ∈ i) := by
  unfold noteEv
  split
  · exact ⟨_, rfl, fun _ => List.mem_append_right _ (List.mem_singleton.2 rfl)⟩
  case isFalse h => exact ⟨s.erc.inbox, rfl, fun ha => absurd ha h⟩

theorem noteEv_stands (l : Lane) (e : EvIn) (s : State) : LaneStands l s (noteEv e s) := by
  unfold noteEv
  split
  · exact ⟨rfl, rfl, rfl, List.subset_append_left ..⟩
  · exact .refl l s

theorem note_stands (l : Lane) (code : Nat) (d : Dom) (b : Nat) (p0 p1 p2 : Word) (s : State) :
    LaneStands l s (note code d b p0 p1 p2 s) := noteEv_stands l _ s

theorem stands_of_answered {l : Lane} {s t : State} (h : t = answered s t) (hi : s.erc.inbox ⊆ t.erc.inbox) : LaneStands l s t := by
  refine ⟨?_, ?_, ?_, hi⟩ <;> rw [h] <;> rfl

theorem cplWrite_erc (ws : List Word) (s : State) : (cplWrite ws s).erc = s.erc := by
  unfold cplWrite vecItem vecFire
  dsimp only
  split
  · rw [hostWrite_frame]
  · split <;> rw [hostWrite_frame]

theorem cplEmit_inbox (o : OutCmd) (st : Nat) (r0 r1 : Word) (lx ly : Bool) (s : State) :
    s.erc.inbox ⊆ (cplEmit o st r0 r1 lx ly s).erc.inbox := by
  unfold cplEmit
  dsimp only
  split
  · rw [cplWrite_erc]; exact List.Subset.refl _
  · split
    · exact List.Subset.refl _
    · refine List.Subset.trans ?_ (note_stands .x ..).inbox
      exact List.Subset.refl _

theorem finish_stands (l : Lane) (id st : Nat) (r0 r1 : Word) (s : State) : LaneStands l s (finish id st r0 r1 s) := by
  refine stands_of_answered (finish_frame ..) ?_
  unfold finish
  split
  · exact List.Subset.refl _
  · exact (cplEmit_inbox _ _ _ _ _ _ (outDrop id s) :)

theorem openTarget_stands (l : Lane) (s : State) : LaneStands l s (openTarget l s) := by
  unfold openTarget
  split
  · split
    · refine .trans ?_ (finish_stands ..)
      refine .trans ?_ (note_stands ..)
      exact ⟨rfl, rfl, rfl, List.Subset.refl _⟩
    · exact .refl l s
  · exact .refl l s

theorem orderBand_stands (l : Lane) (b : Nat) (s : State) : LaneStands l s (orderBand l.dom b s) := by
  unfold orderBand
  dsimp only
  split
  · exact .refl l s
  · refine ⟨rfl, rfl, ?_, List.Subset.refl _⟩
    rw [bump, bumpBy_dom, mapDom_dom, get_put]

theorem mapFloor_stands (l : Lane) (f : Nat) (s : State) : LaneStands l s (mapDom l.dom (fun x => { x with floor := f }) s) :=
  ⟨rfl, rfl, by rw [mapDom_dom, get_put], List.Subset.refl _⟩

/-- A lane retired: its condition, no fault that waits, its domain held if it was ACTIVE, and what was reported before. -/
structure Retired (l : Lane) (s u : State) : Prop where
  bsc : u.bsc = s.bsc
  cond : u.lcm.cond = s.lcm.cond.setLane l .retired
  fault : u.lcm.fault = s.lcm.fault.setLane l none
  held : active s l.dom = true → (u.dom.get l.dom).st = .held
  inbox : s.erc.inbox ⊆ u.erc.inbox

theorem Retired.of_stands {l : Lane} {s t u : State} (h : Retired l s t) (k : LaneStands l t u) : Retired l s u :=
  ⟨k.bsc.trans h.bsc, by rw [k.lcm]; exact h.cond, by rw [k.lcm]; exact h.fault, fun ha => k.st.trans (h.held ha), List.Subset.trans h.inbox k.inbox⟩

theorem LaneStands.retired {l : Lane} {s t u : State} (h : LaneStands l s t) (k : Retired l t u) : Retired l s u := by
  refine ⟨k.bsc.trans h.bsc, by rw [← h.lcm]; exact k.cond, by rw [← h.lcm]; exact k.fault, fun ha => k.held ?_, List.Subset.trans h.inbox k.inbox⟩
  unfold active at ha ⊢
  rw [h.st]
  exact ha

theorem holdDom_held {l : Lane} {s : State} (h : active s l.dom = true) : ((holdDom l.dom s).dom.get l.dom).st = .held := by
  unfold holdDom
  rw [if_pos h]
  cases l <;> rfl

theorem holdDom_erc (d : Dom) (s : State) : (holdDom d s).erc = s.erc := by
  unfold holdDom
  split
  · cases d <;> rfl
  · rfl

/-- A fail-silent lane is retired for good after a HARD fault, and where no lane serves beside it. -/
theorem retireLane_retires {l : Lane} {f : LFault} {s : State} (hf : s.lcm.fault.lane l = some f)
    (hstays : f.hard = true ∨ s.lcm.cond.lane l.other ≠ .serving) : Retired l s (retireLane l s) := by
  unfold retireLane
  split
  case _ hnone => rw [hf] at hnone; cases hnone
  case _ g hsome =>
  obtain rfl : f = g := Option.some.inj (hf.symm.trans hsome)
  extract_lets reported counted recent lcm recorded held floored finished opened
  have hcounted : LaneStands l s counted := (note_stands ..).trans ⟨rfl, rfl, rfl, List.Subset.refl _⟩
  have hheld : Retired l counted held := by
    obtain ⟨hbsc, hlcm, -, -⟩ := holdDom_control l.dom (setCond l .retired recorded)
    refine ⟨hbsc, by rw [hlcm]; rfl, by rw [hlcm]; rfl, fun ha => holdDom_held ha, ?_⟩
    rw [holdDom_erc]
    exact List.Subset.refl _
  have hfloored : LaneStands l held floored := by
    unfold floored
    split
    · exact (orderBand_stands ..).trans (mapFloor_stands ..)
    · exact mapFloor_stands ..
  have hfinished : LaneStands l floored finished := by
    unfold finished
    split
    · exact finish_stands ..
    · exact .refl l _
  have hopened : Retired l s opened := hcounted.retired
    (hheld.of_stands (hfloored.trans (hfinished.trans (openTarget_stands ..))))
  have hother : opened.lcm.cond.lane l.other = s.lcm.cond.lane l.other := by rw [hopened.cond, lane_setLane_other]
  have hno : (!f.hard && serving opened l.other && decide (recent.length < laneRegF opened l 0x8000 2 0)) = false := by
    unfold serving
    rw [hother]
    rcases hstays with h | h
    · rw [h]; rfl
    · rw [beq_eq_false_iff_ne.2 h, Bool.false_and, Bool.and_false, Bool.false_and]
  rw [hno]
  exact hopened

theorem retireLane_none {l : Lane} {s : State} (h : s.lcm.fault.lane l = none) : retireLane l s = s := by
  unfold retireLane
  rw [h]

/-! ## A HARD fault of a serving lane (R189, R190, R198) -/

/-- A serving lane fail-silent after a HARD fault that is reported: its retirement waits. -/
structure HardFaulted (l : Lane) (check detail : Nat) (s v : State) : Prop where
  bsc : v.bsc = s.bsc
  dom : v.dom = s.dom
  cond : v.lcm.cond = s.lcm.cond.setLane l .failSilent
  fault : ∃ f, v.lcm.fault.lane l = some f ∧ f.hard = true
  event : aonUp s = true → ({ code := evLaneFault, src := 16 * l.dom.num + 2, p0 := w32 l.num, p1 := w32 check,
                              p2 := w32 (1 + 256 * detail), solo := true } : EvIn) ∈ v.erc.inbox

/-- The other lane releases alone what it has formed, and nothing else changes (R193). -/
theorem releaseAlone_frame (l : Lane) (s : State) : ∃ c, releaseAlone l s = { s with lcm := { s.lcm with comp := c } } := by
  unfold releaseAlone
  dsimp only
  split <;> exact ⟨_, rfl⟩

theorem HardFaulted.releaseAlone {l m : Lane} {check detail : Nat} {s v : State} (h : HardFaulted l check detail s v) :
    HardFaulted l check detail s (releaseAlone m v) := by
  obtain ⟨c, hc⟩ := releaseAlone_frame m v
  rw [hc]
  exact ⟨h.bsc, h.dom, h.cond, h.fault, h.event⟩

/-- A serving lane's fault reported, the lane fail-silent and no longer leading beside a lane that serves (R189, R190). -/
def fallSilent (hard : Bool) (id : Option Nat) (l : Lane) (check detail : Nat) (s : State) : State :=
  let s := soloNote l evLaneFault 2 (w32 l.num) (w32 check) (w32 (b2n hard + 256 * detail)) s
  setCond l .failSilent
    { s with lcm := { s.lcm with fault := s.lcm.fault.setLane l (some { check := check, hard := hard, round := curRound s, id := id }),
                                 comp := s.lcm.comp.setLane l { (s.lcm.comp.lane l) with rel := [], msgs := [] },
                                 lead := if s.lcm.lead == l && serving s l.other then l.other else s.lcm.lead } }

theorem fallSilent_hardFaulted (id : Option Nat) (l : Lane) (check detail : Nat) (s : State) :
    HardFaulted l check detail s (fallSilent true id l check detail s) := by
  obtain ⟨i, hi, hmem⟩ := noteEv_event { code := evLaneFault, src := 16 * l.dom.num + 2, p0 := w32 l.num, p1 := w32 check,
                                         p2 := w32 (1 + 256 * detail), solo := true } s
  have hsolo : soloNote l evLaneFault 2 (w32 l.num) (w32 check) (w32 (b2n true + 256 * detail)) s = _ := hi
  unfold fallSilent
  rw [hsolo]
  exact ⟨rfl, rfl, rfl, ⟨_, lane_setLane .., rfl⟩, hmem⟩

/-- A fault of a serving lane: beside a lane that serves the other goes on alone, else the device halts for want of a lane. -/
theorem laneFaultAs_serving (cause : HaltCause) (hard : Bool) (id : Option Nat) {l : Lane} (check detail : Nat) {s : State}
    (hc : s.lcm.cond.lane l = .serving) :
    ∃ why, laneFaultAs cause hard id l check detail s =
      if serving s l.other then releaseAlone l.other (fallSilent hard id l check detail s)
      else lanesHaltAs cause why (fallSilent hard id l check detail s) := by
  have hserving : ∀ e, serving (noteEv e s) l.other = serving s l.other := by
    intro e; obtain ⟨i, hi, -⟩ := noteEv_event e s; rw [hi]; rfl
  refine ⟨if (fallSilent hard id l check detail s).lcm.cond.lane l.other == .failSilent then 0 else 1, ?_⟩
  unfold laneFaultAs
  rw [hc, ← hserving]
  rfl

/-! ## The device without a lane (R198, R201) -/

/-- A lane is retired, or its retirement after a HARD fault waits. -/
def EndsRetired (l : Lane) (x : LcmSt) : Prop :=
  (x.cond.lane l = .retired ∧ x.fault.lane l = none) ∨ ∃ f, x.fault.lane l = some f ∧ f.hard = true

theorem EndsRetired.congr {l : Lane} {x y : LcmSt} (h : EndsRetired l x) (hc : y.cond.lane l = x.cond.lane l)
    (hf : y.fault.lane l = x.fault.lane l) : EndsRetired l y := by
  unfold EndsRetired
  rw [hc, hf]
  exact h

/-- No lane serves, a lane is retired or about to be, and b is the power control that stands meanwhile. -/
structure Silenced (l : Lane) (b : BscSt) (s : State) : Prop where
  bsc : s.bsc = b
  silent : ∀ m, s.lcm.cond.lane m ≠ .serving
  ends : EndsRetired l s.lcm

theorem Silenced.of_eq {l : Lane} {b c : BscSt} {s u : State} (h : Silenced l b s) (hb : u.bsc = c) (hl : u.lcm = s.lcm) : Silenced l c u :=
  ⟨hb, by rw [hl]; exact h.silent, by rw [hl]; exact h.ends⟩

theorem Silenced.of_control {l : Lane} {b : BscSt} {s u : State} (h : Silenced l b s) (k : SameControl s u) : Silenced l b u :=
  h.of_eq (k.bsc.trans h.bsc) k.lcm

/-- A retirement while no lane serves: what waits for the other lane stands. -/
theorem retireLane_silenced {l m : Lane} {b : BscSt} {s : State} {f : LFault} (hb : s.bsc = b) (hsilent : ∀ n, s.lcm.cond.lane n ≠ .serving)
    (hf : s.lcm.fault.lane m = some f) (hends : l ≠ m → EndsRetired l s.lcm) :
    Silenced l b (retireLane m s) ∧ (retireLane m s).lcm.cond.lane m = .retired := by
  obtain ⟨hbsc, hcond, hfault, -, -⟩ := retireLane_retires hf (.inr (hsilent m.other))
  have hm : (retireLane m s).lcm.cond.lane m = .retired := by rw [hcond, lane_setLane]
  have hne : ∀ n, n ≠ m → (retireLane m s).lcm.cond.lane n = s.lcm.cond.lane n := fun n hn => by rw [hcond, lane_setLane_ne _ _ hn]
  refine ⟨⟨hbsc.trans hb, fun n => ?_, ?_⟩, hm⟩
  · by_cases hn : n = m
    · rw [hn, hm]; decide
    · rw [hne n hn]; exact hsilent n
  · by_cases hl : l = m
    · exact .inl ⟨by rw [hl, hm], by rw [hfault, hl, lane_setLane]⟩
    · exact (hends hl).congr (hne l hl) (by rw [hfault, lane_setLane_ne _ _ hl])

/-- The retirement that is due takes place, if it has not already. -/
theorem Silenced.retireLane {l : Lane} {b : BscSt} {s : State} (h : Silenced l b s) :
    (retireLane l s).bsc = b ∧ (retireLane l s).lcm.cond.lane l = .retired := by
  rcases h.ends with ⟨hcond, hnone⟩ | ⟨f, hf, -⟩
  · rw [retireLane_none hnone]
    exact ⟨h.bsc, hcond⟩
  · obtain ⟨hs, hcond⟩ := retireLane_silenced (l := l) h.bsc h.silent hf (fun _ => h.ends)
    exact ⟨hs.bsc, hcond⟩

/-- A re-admission that ends while no lane serves leaves its lane retired (R201). -/
theorem Silenced.readmitEnd {l : Lane} {b : BscSt} {s : State} (h : Silenced l b s) (m : Lane) (check : Nat) (hard : Bool) :
    Silenced l b (readmitEnd m check hard s) := by
  unfold Machine.readmitEnd
  split
  · exact h
  case _ r _ =>
  extract_lets reported finished lcm ended
  have hfinished : Silenced l b finished := by
    have hreported : Silenced l b reported := h.of_control (note_control ..)
    unfold finished
    split
    · exact hreported.of_control (finish_control ..)
    · exact hreported
  obtain ⟨hbsc, hsilent, hends⟩ := hfinished
  refine (retireLane_silenced (s := setCond m .failSilent ended) hbsc (fun n => ?_) (lane_setLane ..) (fun hl => ?_)).1
  · by_cases hn : n = m
    · rw [hn, setCond_lcm, lane_setLane]; decide
    · rw [setCond_lcm, lane_setLane_ne _ _ hn]; exact hsilent n
  · exact hends.congr (lane_setLane_ne _ _ hl) (lane_setLane_ne _ _ hl)

theorem Silenced.readmitBreak {l : Lane} {b : BscSt} {s : State} (h : Silenced l b s) (m : Lane) : Silenced l b (readmitBreak m s) := by
  unfold Machine.readmitBreak
  split
  · exact h
  · exact (h.of_eq (u := (draw s).2) h.bsc rfl).readmitEnd m _ _

/-- A lane that serves falls silent. -/
def hush (s : State) (l : Lane) : State := if s.lcm.cond.lane l == .serving then setCond l .failSilent s else s

theorem hush_cases (s : State) (l : Lane) :
    (hush s l).bsc = s.bsc ∧ (hush s l).lcm.fault = s.lcm.fault ∧ (hush s l).lcm.cond.lane l ≠ .serving
      ∧ ∀ m, m ≠ l → (hush s l).lcm.cond.lane m = s.lcm.cond.lane m := by
  unfold hush
  split
  · refine ⟨rfl, rfl, ?_, fun m hm => lane_setLane_ne _ _ hm⟩
    rw [setCond_lcm, lane_setLane]; decide
  case isFalse h => exact ⟨rfl, rfl, fun he => h (beq_iff_eq.2 he), fun _ _ => rfl⟩

/-- Both lanes fallen silent, with the HARD fault of one that waits. -/
theorem hush_both_silenced {l : Lane} {s : State} {f : LFault} (hf : s.lcm.fault.lane l = some f) (hh : f.hard = true) :
    Silenced l s.bsc (bothLanes.foldl hush s) := by
  obtain ⟨hb1, hf1, hx, -⟩ := hush_cases s .x
  obtain ⟨hb2, hf2, hy, hkeep⟩ := hush_cases (hush s .x) .y
  refine ⟨hb2.trans hb1, fun m => ?_, .inr ⟨f, ?_, hh⟩⟩
  · cases m with
    | x => exact fun h => hx ((hkeep .x (by decide)).symm.trans h)
    | y => exact hy
  · show (hush (hush s .x) .y).lcm.fault.lane l = some f
    rw [hf2, hf1, hf]

/-- The device halts for want of a lane; the lane with the HARD fault is retired, or its retirement waits (R198). -/
theorem lanesHaltAs_silenced {l : Lane} {cause : HaltCause} {why : Nat} {s : State} {f : LFault} (hp : s.bsc.power = .start)
    (hf : s.lcm.fault.lane l = some f) (hh : f.hard = true) :
    Silenced l { s.bsc with power := .safehalt, halt := cause } (lanesHaltAs cause why s) := by
  have hsilent := ((hush_both_silenced hf hh).readmitBreak .x).readmitBreak .y
  have hnoted := hsilent.of_control (note_control evLanesHalt
    (readmitBreak .y (readmitBreak .x (bothLanes.foldl hush s))).lcm.lead.dom 2 (w32 why) 0 0 _)
  obtain ⟨hbsc, hlcm, -, -⟩ := enterHalt_control (cause := cause) (by rw [hnoted.bsc]; exact hp)
  exact hnoted.of_eq (by rw [← hnoted.bsc]; exact hbsc) hlcm

/-! ## A self-test that fails (R441) -/

section
variable {t : Int} {l : Lane} {s : State}

/-- The lane that fails beside one that serves is retired with its fault reported, and the other serves on. -/
theorem selftest_fails_beside (hc : s.lcm.cond.lane l = .serving) (ha : active s l.dom = true) (ho : serving s l.other = true) :
    let u := startOrder2 (retireLane l (laneFaultAs .selftest true none l 8 0 (tested l (atTime t s))))
    u.bsc.tested.lane l = true ∧ u.lcm.cond.lane l = .retired ∧ u.lcm.cond.lane l.other = .serving ∧ (u.dom.get l.dom).st = .held
      ∧ (aonUp s = true → ({ code := evLaneFault, src := 16 * l.dom.num + 2, p0 := w32 l.num, p1 := 8, p2 := 1, solo := true } : EvIn)
          ∈ u.erc.inbox) := by
  obtain ⟨why, hfault⟩ := laneFaultAs_serving .selftest true none 8 0 (s := tested l (atTime t s)) hc
  rw [hfault.trans (if_pos ho)]
  obtain ⟨hbsc, hdom, hcond, ⟨f, hf, hhard⟩, hevent⟩ :=
    (fallSilent_hardFaulted none l 8 0 (tested l (atTime t s))).releaseAlone (m := l.other)
  generalize releaseAlone l.other _ = v at hbsc hdom hcond hf hevent ⊢
  obtain ⟨rbsc, rcond, -, rheld, rinbox⟩ := retireLane_retires hf (.inl hhard)
  generalize retireLane l v = w at rbsc rcond rheld rinbox ⊢
  obtain ⟨n, m, hstart, hlane⟩ := startOrder2_frame w
  rw [hstart]
  dsimp only
  rw [hlane, rbsc, hbsc, rcond, hcond, lane_setLane, lane_setLane_other, lane_setLane_other]
  refine ⟨lane_setLane .., rfl, ?_, rheld ?_, fun hup => rinbox (hevent hup)⟩
  · unfold serving at ho
    exact beq_iff_eq.1 (Bool.and_eq_true_iff.1 ho).1
  · unfold active
    rw [hdom]
    exact ha

/-- The lane that fails with no other in service is retired in a device that has halted. -/
theorem selftest_fails_alone (hp : s.bsc.power = .start) (hc : s.lcm.cond.lane l = .serving) (ho : serving s l.other = false) :
    let u := startOrder2 (retireLane l (laneFaultAs .selftest true none l 8 0 (tested l (atTime t s))))
    u.bsc.power = .safehalt ∧ u.bsc.bringup = s.bsc.bringup ∧ u.lcm.cond.lane l = .retired := by
  obtain ⟨why, hfault⟩ := laneFaultAs_serving .selftest true none 8 0 (s := tested l (atTime t s)) hc
  rw [hfault.trans (if_neg (Bool.eq_false_iff.1 ho))]
  obtain ⟨hbsc, -, -, ⟨f, hf, hhard⟩, -⟩ := fallSilent_hardFaulted none l 8 0 (tested l (atTime t s))
  obtain ⟨hend, hretired⟩ := (lanesHaltAs_silenced (cause := .selftest) (why := why) (by rw [hbsc]; exact hp) hf hhard).retireLane
  rw [hbsc] at hend
  generalize retireLane l _ = w at hend hretired ⊢
  rw [startOrder2_waits (by rw [hend]; rintro ⟨-, -, h⟩; cases h)]
  dsimp only
  rw [hend]
  exact ⟨rfl, rfl, hretired⟩

end

/-! ## The statement -/

/-- Settles O29: BRINGUP_COMPLETE by its due instant and the lifecycle, LANE_SELFTEST_DONE by its due instant, its outcome and the other lane. -/
theorem bringupTestsThenServes : Obligations.BringupTestsThenServes := by
  unfold Obligations.BringupTestsThenServes
  refine ⟨fun t s => ⟨?decommissioned, ?serves, ?early⟩, fun t l s => ⟨?passes, ?beside, ?alone, ?untimely⟩⟩
  case decommissioned =>
    exact fun hdue hlife => ⟨_, (bringupComplete_due hdue).trans (if_pos hlife), bringup_decommissioned hdue.1⟩
  case serves =>
    intro hdue hlife
    obtain ⟨hbringup, hpower⟩ := bringup_serves_power (t := t) (s := s)
    exact ⟨_, (bringupComplete_due hdue).trans (if_neg hlife), hbringup, hpower, fun k => bringup_checks_bank, bringup_keeps_store,
      bringup_serves_frame⟩
  case early => exact fun h => ⟨_, bringupComplete_early h, publish_atTime_frame t s⟩
  case passes =>
    intro hdue
    obtain ⟨hp, -, -⟩ := laneStarting_iff.1 hdue.1
    exact ⟨_, laneSelftestDone_passes hdue, selftest_passes hp hdue.2.2⟩
  case beside =>
    intro hdue ho
    obtain ⟨-, -, hc⟩ := laneStarting_iff.1 hdue.1
    refine ⟨_, laneSelftestDone_fails hdue, ?_⟩
    rw [publish_bsc, publish_lcm, publish_dom, publish_erc]
    exact selftest_fails_beside hc hdue.2.1 ho
  case alone =>
    intro hdue ho
    obtain ⟨hp, -, hc⟩ := laneStarting_iff.1 hdue.1
    refine ⟨_, laneSelftestDone_fails hdue, ?_⟩
    rw [publish_bsc, publish_lcm, ← hdue.2.2]
    exact selftest_fails_alone hp hc ho
  case untimely => exact fun h ok => ⟨_, laneSelftestDone_early h, publish_atTime_frame t s⟩

end Sys2Proof.Proofs
end

section
/-!
Shared by the proofs below: each operation that closes or reports a command as an update of the state it starts from, so that the frame of a command is read
off the update; how a command that settles on a state ends; how a host command that passes its checks is completed or accepted (R317, R324).
-/
namespace Sys2Proof.Proofs
open Sys2Proof.Machine Sys2Proof.Laws

/-! ## The operations as updates -/

/-- The host side h with what publishing may change of it taken from g (R312, R333, R334). -/
def hreShown (h g : HreSt) : HreSt :=
  { h with devSeq := g.devSeq, devImage := g.devImage, devAt := g.devAt, firing := g.firing, vecPend := g.vecPend }

/-- Publishing adds to what left the part and changes what the host was shown, and nothing else. -/
theorem publish_update (s : State) : ∃ o g, publish s = { s with out := s.out ++ o, hre := hreShown s.hre g } := by
  have hfire : ∀ u, ∃ o g, sendFiring u = { u with out := o, hre := hreShown u.hre g } := fun u => by
    obtain ⟨o, p, h⟩ := sendFiring_eq u
    exact ⟨o, { u.hre with firing := [], vecPend := p }, h⟩
  obtain ⟨o, ho⟩ := publish_out s
  have hupdate : ∃ o g, publish s = { s with out := o, hre := hreShown s.hre g } := by
    unfold publish
    split
    · exact ⟨s.out, s.hre, rfl⟩
    split
    · exact hfire s
    split
    · exact hfire s
    split
    · exact ⟨s.out, s.hre, rfl⟩
    · dsimp only
      rw [hostWrite_frame]
      exact hfire _
  obtain ⟨o', g, hg⟩ := hupdate
  refine ⟨o, g, ?_⟩
  rw [hg] at ho
  rw [hg, ← ho]

/-- An event joins the recorder's inbox while AON is up (R14, R429). -/
theorem noteEv_update (e : EvIn) (s : State) :
    noteEv e s = { s with erc := { s.erc with inbox := s.erc.inbox ++ (if aonUp s then [e] else []) } } := by
  unfold noteEv
  split
  · rfl
  · rw [List.append_nil]

theorem note_update (code : Nat) (d : Dom) (b : Nat) (p0 p1 p2 : Word) (s : State) :
    note code d b p0 p1 p2 s = { s with erc := { s.erc with inbox := s.erc.inbox ++
      (if aonUp s then [{ code := code, src := 16 * d.num + b, p0 := p0, p1 := p1, p2 := p2, solo := false }] else []) } } :=
  noteEv_update _ s

theorem note_up (code : Nat) (d : Dom) (b : Nat) (p0 p1 p2 : Word) {s : State} (h : aonUp s = true) :
    note code d b p0 p1 p2 s = { s with erc := { s.erc with inbox := s.erc.inbox ++
      [{ code := code, src := 16 * d.num + b, p0 := p0, p1 := p1, p2 := p2, solo := false }] } } := by
  rw [note_update, h]; rfl

theorem note_lost (code : Nat) (d : Dom) (b : Nat) (p0 p1 p2 : Word) {s : State} (h : aonUp s = false) : note code d b p0 p1 p2 s = s := by
  rw [note_update, h]
  exact congrArg (fun i => { s with erc := { s.erc with inbox := i } }) (List.append_nil _)

/-- The host side h with the vectors' items taken from g (R333). -/
def hreItems (h g : HreSt) : HreSt := { h with vecCount := g.vecCount, vecAt := g.vecAt, firing := g.firing }

/-- An item changes the vectors' counts and ages and what fired. -/
theorem vecItem_update (v : Nat) (s : State) : ∃ g, vecItem v s = { s with hre := hreItems s.hre g } := by
  refine ⟨(vecItem v s).hre, ?_⟩
  unfold vecItem vecFire
  split
  · rfl
  · dsimp only
    split <;> rfl

theorem hostWrite_update (a : Nat) (d : List Byte) (s : State) : ∃ o, hostWrite a d s = { s with out := s.out ++ o } := by
  unfold hostWrite
  split
  · exact ⟨_, rfl⟩
  · exact ⟨[], by rw [List.append_nil]⟩

/-- A discarded write counts at 0xCC88 and is an item of vector 13 while HOST is up (R449, R459). -/
theorem hreDiscard_up {s : State} (h : active s .host = true) :
    ∃ g, hreDiscard s = { s with ctr := (bump 0xCC88 s).ctr, hre := hreItems s.hre g } := by
  unfold hreDiscard
  rw [h]
  exact vecItem_update 13 (bump 0xCC88 s)

theorem hreDiscard_off {s : State} (h : active s .host = false) : hreDiscard s = s := by
  unfold hreDiscard
  rw [h]; rfl

/-- A descriptor written while the HRE runs. -/
theorem cplWrite_runs_update (ws : List Word) {s : State} (hr : hreRun s = true) (hc : hostCan s = true) :
    ∃ g, cplWrite ws s = { s with out := s.out ++ [.hostWrite (ringAddr s 1 s.hre.cplProd) (wordsBytes ws)],
                                  hre := { hreItems s.hre g with cplProd := s.hre.cplProd + 1 } } := by
  unfold cplWrite hostWrite
  rw [hr, hc]
  exact vecItem_update 0 { s with out := _, hre := { s.hre with cplProd := s.hre.cplProd + 1 } }

theorem cplWrite_update (ws : List Word) (s : State) :
    ∃ w g, cplWrite ws s = { s with out := s.out ++ w, hre := { hreItems s.hre g with cplProd := s.hre.cplProd + 1 } } := by
  unfold cplWrite
  obtain ⟨w, hw⟩ := hostWrite_update (ringAddr s 1 s.hre.cplProd) (wordsBytes ws) s
  rw [hw]
  obtain ⟨g, hg⟩ := vecItem_update 0 { s with out := s.out ++ w, hre := { s.hre with cplProd := s.hre.cplProd + 1 } }
  exact ⟨w, g, hg⟩

/-- A completion while the HRE runs is counted and written, and records nothing (R324). -/
theorem cplEmit_runs_update (o : OutCmd) (st : Nat) (r0 r1 : Word) (lx ly : Bool) {s : State} (hr : hreRun s = true) (hc : hostCan s = true) :
    ∃ k g, cplEmit o st r0 r1 lx ly s =
      { s with ctr := k, out := s.out ++ [.hostWrite (ringAddr s 1 s.hre.cplProd) (wordsBytes (cplWords s o st r0 r1 lx ly))],
               hre := { hreItems s.hre g with cplProd := s.hre.cplProd + 1 } } := by
  have hrun : hreRun (bump (0xCC10 + 4 * statusIndex st) s) = true := hr
  have hcan : hostCan (bump (0xCC10 + 4 * statusIndex st) s) = true := hc
  obtain ⟨g, hg⟩ := cplWrite_runs_update (cplWords s o st r0 r1 lx ly) hrun hcan
  refine ⟨(bump (0xCC10 + 4 * statusIndex st) s).ctr, g, ?_⟩
  unfold cplEmit
  dsimp only
  rw [hrun, hcan]
  exact hg

/-- The host side h with what a completion may change taken from g (R315, R324, R337). -/
def hreTold (h g : HreSt) : HreSt := { hreItems h g with cplProd := g.cplProd, orphans := g.orphans, orphansOver := g.orphansOver }

/-- A completion, written or held as an orphan. -/
theorem cplEmit_update (o : OutCmd) (st : Nat) (r0 r1 : Word) (lx ly : Bool) (s : State) :
    ∃ k i w g, cplEmit o st r0 r1 lx ly s =
      { s with ctr := k, erc := { s.erc with inbox := i }, out := s.out ++ w, hre := hreTold s.hre g } := by
  unfold cplEmit
  extract_lets b
  split
  · obtain ⟨w, g, hg⟩ := cplWrite_update (cplWords b o st r0 r1 lx ly) b
    exact ⟨b.ctr, s.erc.inbox, w, { hreItems s.hre g with cplProd := s.hre.cplProd + 1 }, hg⟩
  split
  · refine ⟨b.ctr, s.erc.inbox, [], { s.hre with orphans := s.hre.orphans ++ [cplWords b { o with orphan := true } st r0 r1 lx ly] }, ?_⟩
    rw [List.append_nil]; rfl
  · refine ⟨b.ctr, (note evOrphanLost .host 0 o.index (halves o.tag.toNat (256 * st + o.opcode)) r0 b).erc.inbox, [], { s.hre with orphansOver := s.hre.orphansOver + 1 }, ?_⟩
    rw [note_update, note_update, List.append_nil]; rfl

/-! ## How a command ends -/

/-- What holds of a state however it is published holds of what a command leaves that settles on it. -/
theorem settles {r : Host.Outcome State Fault Refusal} {v : State} {P : State → Prop} (h : r = settle v)
    (hP : ∀ o g, P { v with out := v.out ++ o, hre := hreShown v.hre g }) : ∃ u, r = .next u ∧ P u := by
  obtain ⟨o, g, hpub⟩ := publish_update v
  exact ⟨_, h, hpub ▸ hP o g⟩

/-! ## Host commands that pass their checks -/

/-- The examination sends nothing (R317). -/
theorem examine_out (op : Nat) (c : HostCmd) (s : State) : (examine op c s).2.out = s.out := by
  have hcommit : ∀ v u, (commitCres v u).out = u.out := fun v u => by
    unfold commitCres gaugeNote
    split
    · rw [note_update]
    split
    · rw [note_update]
    · rfl
  rcases examine_cases op c s with h | h
  · rw [h]
  rw [h]
  unfold secChecks frankRefused
  dsimp only
  split
  · rfl
  split
  · rfl
  split
  · rfl
  split
  · rw [note_update]; rfl
  split
  · rw [note_update]; rfl
  split
  · exact hcommit ..
  · rfl

/-- What a host command that is examined finds after its examination: s at the command's instant, the descriptor taken, with what the examination may change
of the counters, the recorder's inbox, the franked-command counter and its reserve (R317 to R319). -/
structure Examined (c : HostCmd) (s x : State) : Prop where
  update : ∃ k n i l q, x = { s with now := c.t, clk := n, ctr := k, erc := { s.erc with inbox := i }, hre := { s.hre with cmdCons := c.index + 1 },
                                     sec := { s.sec with cLast := l }, pst := q }
  reserve : reserved s.pst x.pst = x.pst
  same : SameForCpl (atTime c.t s) x
  run : hreRun x = true
  can : hostCan x = true

theorem examined_of_examinable {op : Nat} {c : HostCmd} {s : State} (h : examinable c (atTime c.t s) = true) :
    Examined c s (examine op c (takeCmd c (atTime c.t s))).2 := by
  have hframe := taken_frame op c s
  have hnow := examine_now op c (takeCmd c (atTime c.t s))
  have hhre := examine_hre op c (takeCmd c (atTime c.t s))
  have hout := examine_out op c (takeCmd c (atTime c.t s))
  obtain ⟨hrun, hcan⟩ := taken_can (op := op) h
  refine ⟨?_, ?_, taken_same op c s, hrun, hcan⟩
  · generalize (examine op c (takeCmd c (atTime c.t s))).2 = x at hframe hnow hhre hout
    refine ⟨x.ctr, x.clk, x.erc.inbox, x.sec.cLast, reserved s.pst x.pst, hframe.trans ?_⟩
    unfold commanded answered reported shown
    rw [hnow, hhre, hout]
    rfl
  · rw [hframe]
    exact reserved_reserved _ _

/-- What a host command that passes finds for its own effect, on which it settles. -/
structure Taken (op : Nat) (c : HostCmd) (s x : State) : Prop extends Examined c s x where
  exec : ∀ eff, hostCommand op eff c s = settle (eff c x)

/-- One of class U changes nothing before its own effect. -/
theorem taken_of_passes {op : Nat} {c : HostCmd} {s : State} (h : Passes op c s) :
    ∃ x, Taken op c s x ∧ (classF op = false → x = takeCmd c (atTime c.t s)) :=
  ⟨_, ⟨examined_of_examinable h.1, fun _ => hostCommand_passes h⟩, fun hU => examine_classU hU ..⟩

theorem taken_classU {op : Nat} {c : HostCmd} {s : State} (h : Passes op c s) (hU : classF op = false) : Taken op c s (takeCmd c (atTime c.t s)) := by
  obtain ⟨x, hx, hu⟩ := taken_of_passes h
  exact hu hU ▸ hx

/-- A state is itself with its store as the frame of a command reads it. -/
theorem with_reserve {p : PstSt} (u : State) (h : reserved p u.pst = u.pst) : u = { u with pst := reserved p u.pst } := by rw [h]

section
variable {op : Nat} {c : HostCmd} {s x v : State} {eff : HostCmd → State → State} {P : State → Prop}

/-- Two states of the host interface between which no command was taken, accepted or completed. -/
structure SameCmds (h g : HreSt) : Prop where
  cmdCons : g.cmdCons = h.cmdCons
  cplProd : g.cplProd = h.cplProd
  out : g.out = h.out
  nextId : g.nextId = h.nextId
  loss : g.loss = h.loss
  busMaster : g.busMaster = h.busMaster

theorem SameCmds.of_eq {h g : HreSt} (e : g = h) : SameCmds h g := by
  rw [e]; exact ⟨rfl, rfl, rfl, rfl, rfl, rfl⟩

/-- A command that completes at its examination (R324). -/
theorem Examined.completes {st : Nat} {r0 r1 : Word} (h : Examined c s x) (hexec : hostCommand op eff c s = settle (finishNow c op st r0 r1 v))
    (hsame : SameForCpl x v) (hhre : SameCmds x.hre v.hre)
    (hP : ∀ k o g g', P { v with ctr := k, out := v.out ++ o, hre := hreShown { hreItems v.hre g with cplProd := v.hre.cplProd + 1 } g' }) :
    ∃ u, hostCommand op eff c s = .next u ∧ Completed op c st r0 r1 s u ∧ P u := by
  obtain ⟨_, _, _, _, _, hx⟩ := h.update
  have hcan : hostCan v = true := by
    have := h.can
    unfold hostCan active at this ⊢
    rw [hsame.dom, hhre.loss, hhre.busMaster]; exact this
  have hrun := hsame.hreRun.trans h.run
  have hcompleted : Completed op c st r0 r1 s (publish (finishNow c op st r0 r1 v)) :=
    completed_of (h.same.trans hsame) hrun hcan (by rw [hhre.cmdCons, hx]) (by rw [hhre.cplProd, hx]) (by rw [hhre.out, hx]) (by rw [hhre.nextId, hx])
  obtain ⟨k, g, hdone⟩ := cplEmit_runs_update (outOf c op 0) st r0 r1 false false hrun hcan
  have hfin : finishNow c op st r0 r1 v = _ := hdone
  obtain ⟨o, g', hpub⟩ := publish_update (finishNow c op st r0 r1 v)
  refine ⟨_, hexec, hcompleted, ?_⟩
  rw [hpub, hfin, List.append_assoc]
  exact hP k _ g g'

/-- A command whose effect ends in its completion (R324). -/
theorem Taken.completes {st : Nat} {r0 r1 : Word} (h : Taken op c s x) (heff : eff c x = finishNow c op st r0 r1 v) (hsame : SameForCpl x v)
    (hhre : SameCmds x.hre v.hre)
    (hP : ∀ k o g g', P { v with ctr := k, out := v.out ++ o, hre := hreShown { hreItems v.hre g with cplProd := v.hre.cplProd + 1 } g' }) :
    ∃ u, hostCommand op eff c s = .next u ∧ Completed op c st r0 r1 s u ∧ P u :=
  h.toExamined.completes ((h.exec eff).trans (congrArg settle heff)) hsame hhre hP

/-- A command whose effect refuses it by its own conditions, and changes nothing (R317). -/
theorem Taken.refuses {st : Nat} (h : Taken op c s x) (heff : eff c x = refuse op c st x) :
    ∃ u, hostCommand op eff c s = .next u ∧ Completed op c st 0 0 s u ∧ u = { commanded s u with now := c.t } := by
  refine h.completes heff (.refl x) (.of_eq rfl) fun k o g g' => ?_
  obtain ⟨_, _, _, _, _, hx⟩ := h.update
  have hq := h.reserve
  subst hx
  exact with_reserve _ hq

/-- A command whose effect accepts it and completes nothing (R319). -/
theorem Taken.accepts (h : Taken op c s x) (heff : eff c x = v) (hhre : v.hre = (accept c op x).hre)
    (hP : ∀ o g, P { v with out := v.out ++ o, hre := hreShown v.hre g }) :
    ∃ u, hostCommand op eff c s = .next u ∧ Accepted op c s u ∧ P u := by
  obtain ⟨_, _, _, _, _, hx⟩ := h.update
  obtain ⟨o, g, hpub⟩ := publish_update v
  refine ⟨_, (h.exec eff).trans (congrArg settle heff), ?_, hpub ▸ hP o g⟩
  unfold Accepted
  rw [publish_hre_cmdCons, publish_hre_cplProd, publish_hre_nextId, publish_hre_out, hhre, hx]
  exact ⟨rfl, rfl, rfl, rfl⟩

end

end Sys2Proof.Proofs
end

section
/-!
Proofs of the statements of the queue and of what every step keeps: a command ends by publishing, so that what the host sees is current (R312, R334); NOP
(R320); the state after reset.
-/
namespace Sys2Proof.Proofs
open Sys2Proof.Machine Sys2Proof.Laws

/-- An outcome whose next state, where it has one, shows the host what is current. -/
structure EndsCurrent (r : Host.Outcome State Fault Refusal) : Prop where
  current : ∀ u, r = .next u → AreaCurrent u

theorem settle_endsCurrent (s : State) : EndsCurrent (settle s) :=
  ⟨fun _ h => by cases h; exact areaCurrent_publish s⟩

theorem fault_endsCurrent (f : Fault) : EndsCurrent (.fault f) := ⟨fun _ h => nomatch h⟩

theorem ite_endsCurrent {p : Prop} [Decidable p] {a b : Host.Outcome State Fault Refusal} (ha : EndsCurrent a) (hb : EndsCurrent b) :
    EndsCurrent (if p then a else b) := by
  split
  · exact ha
  · exact hb

theorem hostCommand_endsCurrent (op : Nat) (eff : HostCmd → State → State) (c : HostCmd) (s : State) : EndsCurrent (hostCommand op eff c s) :=
  settle_endsCurrent _

/-- Every command ends by publishing, or faults: its meaning is a tree of conditions with `settle` or a fault at each leaf. -/
theorem exec_endsCurrent (i : Instr) (s : State) : EndsCurrent (exec i s) := by
  cases h : hostOp i with
  | some oc =>
    obtain ⟨-, eff, hexec⟩ := exec_of_hostOp h
    rw [hexec]
    exact hostCommand_endsCurrent ..
  | none =>
    cases i
    all_goals first | (cases h; done) | delta exec
    all_goals dsimp only
    all_goals delta execIdcode execBypass execSamplePreload execDbgRead execDbgLane execExtest execIntest execClamp execHighz execScan execKeyLoad
                    execTrstNReset execRegisterWrite execRwpWrite execTableWindowWrite execHreKnock execHreCtlRun execHreRingEnable execFchSyncntArm
                    execFchRsmpWrite execBscDomctlOff execBscDomctlRestart execHscRegEnable execHscRegHold execHscSdefEnable execLhfExcitationChange
                    execCounterRead execMultiwordReadLatch execVinReturn execPowerFail execAonLoss execVinLow execVinHigh execResetNAssert
                    execResetNRelease execWakeN execPerstN execFunctionLevelReset execD3hotEntry execPcieLinkDown execBusMasterDisable execHostTimeout
                    execSyncInEdge execSysrefEdge execRefLoss execRefMonitorWindow execHoldoverExpiry execRefReturn execRefAvailable
                    execReferenceSelect execLaneSelftestDone execBringupComplete execDomainRampEnd execDomainTrip execDomainRestart execAonTrip
                    execHostEccInitDone execStandbyEntry execPlanStartAtT0 execPortStopEffect execPlanChangeAtP execShot execExtendedMultiblockRelease
                    execLineSampleHandover execPaceRequest execChanneliserBlock execCornerTurnBlockClose execZoneSample execLedgerItemTake
                    execLedgerTick execDigestTransferReceive execComparisonTimeout execBlockRelease execReadmitSelftestDone execFrameSend
                    execClaimSend execFrameReceive execClaimReceive execLettersMerge execMasterDecision execProbeRequestSend execProbeRequestReceive
                    execProbeReflectionSend execProbeReflectionReceive execProbeLost execListenTimeout execRidgeForward execRidgeWindowClose
                    execBranchUnblock execRidgeIdleTimeout execRingFrameReceive execRingFrameSend execRingPortBreak execRingPortReturn execRpLos
                    execPollSend execPollReceive execPollReplySend execPollReplyTimeout execLegacyPollSend execLegacyReplyReceive
                    execLegacyReplyTimeout execLegacyWalkStart execLegacyPollReceive execLegacyReplySend execSarConversion execRoutineConversion
                    execUrgentConversion execClampTrip execClampRelease execToneBurstStart execToneBurstEvaluate execBudgetPeriod execJobQuantumEnd
                    execHrePoll execMsixCoalesceTimer execStreamBlockPack execStreamFlushTimer execJobBufferTimeout execHistoryBlockWrite
                    execHoldCountdownEnd execEventTake execNvmWordWrite execOperatingSecond execSeedPeriodExpiry execBankCheckDone execFreezeTimeout
                    execSweepCalEnd execDebugSessionTimeout execDebugLockoutEnd execMultiblockArrival execConfigurationRequest execPerstNRelease
                    execScrubPassStart execBandChangeSettled
    all_goals repeat' first | exact settle_endsCurrent _ | exact fault_endsCurrent _ | refine ite_endsCurrent ?_ ?_ | split | extract_lets

/-- Settles O58: whatever stood before, what a command publishes is current; an empty queue changes nothing. -/
theorem whatTheHostSeesStaysCurrent : Obligations.WhatTheHostSeesStaysCurrent := by
  intro s u hs h
  unfold step at h
  split at h
  · cases h; exact hs
  · exact (exec_endsCurrent _ _).current u h

/-- Settles O1: the step is the match on the queue. -/
theorem stepServesQueueFront : Obligations.StepServesQueueFront := by
  refine ⟨fun c rest s h => ?_, fun s h => ?_⟩
  · unfold step; rw [h]
  · unfold step; rw [h]

/-! ## NOP and reset -/

theorem u64_u64 (n : Int) : u64 (u64 n) = u64 n := by
  unfold u64
  omega

/-- Settles O2: NOP's effect is its completion. -/
theorem nopCompletesWithRound : Obligations.NopCompletesWithRound := by
  intro c s h
  have hx := taken_classU h rfl
  refine hx.completes (eff := effNop) (v := takeCmd c (atTime c.t s)) ?_ (.refl _) (.of_eq rfl) fun k o g g' => ⟨rfl, rfl, with_reserve _ (reserved_self _)⟩
  have hround : curRound (takeCmd c (atTime c.t s)) = u64 (c.t / roundNs s) := rfl
  unfold effNop roundLo lo32
  rw [hround, u64_u64]

/-- Settles O59. -/
theorem resetKeepsTheInvariants : Obligations.ResetKeepsTheInvariants := by
  refine ⟨?_, ?_, ?_, rfl, rfl, rfl, rfl⟩
  · intro h; exact absurd h (by decide)
  · decide +kernel
  · intro l; cases l <;> decide

end Sys2Proof.Proofs
end

section
/-!
Proofs of the host interface's statements: the refusals of checks 6 to 8 (R317); the ring registers, the knock and the host losses (R309 to R314, R337); the
timers of the host interface (R328, R333).
-/
namespace Sys2Proof.Proofs
open Sys2Proof.Machine Sys2Proof.Laws

/-! ## Franked commands refused (R317) -/

section
variable {op : Nat} {c : HostCmd} {s : State}

/-- A command of class F that meets checks 2 to 5 reaches the Security Core's. -/
theorem examine_reaches_sec (hop : opcodeList.contains op = true) (ha : argsOk op c = true) (hs : argsAt s op c = true) (hl : levelOk s op c = true)
    (hp : s.bsc.power ≠ .safehalt) (hd : s.sec.lifecycle ≠ 5) : examine op c s = secChecks op c s := by
  rw [examine_past_power hop ha hs (.inl hp), hl]
  simp [hd]

/-- Check 6: without AON the command is refused and nothing is recorded. -/
theorem secChecks_aon (hF : classF op = true) (h : aonUp s = false) : secChecks op c s = (some stRefusedAon, s) := by
  unfold secChecks
  rw [hF, h]; rfl

/-- Check 7: a counter outside its window is refused. -/
theorem secChecks_counter (hF : classF op = true) (h : aonUp s = true) (hm : s.sec.lifecycle ≠ 1)
    (hc : ¬ (s.sec.cLast < c.ccount.toNat ∧ c.ccount.toNat ≤ s.sec.cLast + 65536 ∧ s.sec.cLast ≠ 4294967295)) :
    secChecks op c s = (some stRefusedCounter, frankRefused op c 7 (bump 0x11C00 s)) := by
  have hold : (!(decide (s.sec.cLast < c.ccount.toNat) && decide (c.ccount.toNat ≤ s.sec.cLast + 65536)) || decide (s.sec.cLast = 4294967295)) = true := by
    rw [Bool.or_eq_true, Bool.not_eq_true', Bool.and_eq_false_iff, decide_eq_false_iff_not, decide_eq_false_iff_not, decide_eq_true_eq]
    omega
  unfold secChecks
  rw [hF, h]
  simp only [Bool.not_true, Bool.false_eq_true, if_false]
  exact (if_neg hm).trans (if_pos hold)

/-- Check 8: a frank that is not the CMD key's is refused. -/
theorem secChecks_frank (hF : classF op = true) (h : aonUp s = true) (hm : s.sec.lifecycle ≠ 1)
    (hc : s.sec.cLast < c.ccount.toNat ∧ c.ccount.toNat ≤ s.sec.cLast + 65536 ∧ s.sec.cLast ≠ 4294967295)
    (hf : (slotOf s.sec 0).status ≠ 1 ∨ cmdFrank s 1 (cmdBody op c) ≠ wordsBytes [c.w6, c.w7]) :
    secChecks op c s = (some stRefusedFrank, frankRefused op c 8 (bump 0x11C00 s)) := by
  have hnew : (!(decide (s.sec.cLast < c.ccount.toNat) && decide (c.ccount.toNat ≤ s.sec.cLast + 65536)) || decide (s.sec.cLast = 4294967295)) = false := by
    obtain ⟨h1, h2, h3⟩ := hc
    simp [h1, h2, h3]
  have hbad : (decide (cmdFrank s 1 (cmdBody op c) ≠ wordsBytes [c.w6, c.w7]) || (slotOf s.sec 0).status != 1) = true := by
    rw [Bool.or_eq_true, decide_eq_true_eq, bne_iff_ne]
    exact hf.symm
  unfold secChecks
  rw [hF, h]
  simp only [Bool.not_true, Bool.false_eq_true, if_false]
  exact (if_neg hm).trans ((if_neg (Bool.eq_false_iff.1 hnew)).trans (if_pos hbad))

/-- A command that a check of the Security Core refuses completes with the check's status and has no effect beside the event recorded. -/
theorem refused_by_sec {eff : HostCmd → State → State} {st : Nat} {k : Tab Nat} {i : List EvIn} (hx : examinable c (atTime c.t s) = true)
    (h : examine op c (takeCmd c (atTime c.t s)) = (some st, { takeCmd c (atTime c.t s) with ctr := k, erc := { s.erc with inbox := i } })) :
    ∃ t, hostCommand op eff c s = .next t ∧ Completed op c st 0 0 s t ∧ t.sec = s.sec ∧ t.pst = s.pst ∧ t = { commanded s t with now := c.t }
      ∧ t.erc.inbox = i := by
  have hexec := hostCommand_fails (eff := eff) (s := s) (st := st) ⟨hx, by rw [h]⟩
  have hexamined := examined_of_examinable (op := op) hx
  rw [h] at hexec hexamined
  exact hexamined.completes hexec (.refl _) (.of_eq rfl) fun _ _ _ _ => ⟨rfl, rfl, with_reserve _ (reserved_self _), rfl⟩

end

/-- Settles O4: checks 6, 7 and 8 in their order, each on the state that it was asked about. -/
theorem unauthenticCommandHasNoEffect : Obligations.UnauthenticCommandHasNoEffect := by
  unfold Obligations.UnauthenticCommandHasNoEffect
  intro i op c s hi hx ha hs hl hF hp hd hm fresh gone
  obtain ⟨hop, eff, hexec⟩ := exec_of_hostOp hi
  have hreach : examine op c (takeCmd c (atTime c.t s)) = secChecks op c (takeCmd c (atTime c.t s)) := examine_reaches_sec hop ha hs hl hp hd
  have hup : ∀ b, aonUp s = b → aonUp (takeCmd c (atTime c.t s)) = b := fun _ h => h
  have hnote : aonUp s = true → ∀ k, frankRefused op c k (bump 0x11C00 (takeCmd c (atTime c.t s))) = _ := fun h k => note_up _ _ _ _ _ _ h
  refine ⟨fun h => ?aon, fun h hold => ?counter, fun h hnew hbad => ?frank⟩
  all_goals unfold gone; rw [hexec s]
  case aon =>
    refine refused_by_sec (k := s.ctr) hx ?_
    rw [hreach, secChecks_aon hF (hup _ h), if_pos rfl, List.append_nil]
    rfl
  case counter =>
    refine refused_by_sec (k := (bump 0x11C04 (bump 0x11C00 s)).ctr) hx ?_
    rw [hreach, secChecks_counter hF (hup _ h) hm hold, hnote h]
    rfl
  case frank =>
    refine refused_by_sec (k := (bump 0x11C08 (bump 0x11C00 s)).ctr) hx ?_
    rw [hreach, secChecks_frank hF (hup _ h) hm hnew hbad, hnote h]
    rfl

/-! ## The timers of the host interface (R328, R333, R337) -/

/-- A loss declared where a weaker one or none stands: recorded, counted, and it stands (R337). -/
theorem hostLoss_update (stopped : Bool) (cause : Nat) {s : State} (h : s.hre.loss ≠ .stopped)
    (hk : s.hre.loss ≠ if stopped then .stopped else .suspended) :
    hostLoss stopped cause s = { s with
      erc := { s.erc with inbox := s.erc.inbox ++
        (if aonUp s then [{ code := evHostLoss, src := 96, p0 := w32 (b2n stopped), p1 := w32 cause, p2 := 0, solo := false }] else []) },
      hre := { s.hre with loss := if stopped then .stopped else .suspended, losses := satAdd 32 s.hre.losses 1 } } := by
  unfold hostLoss
  dsimp only
  rw [beq_eq_false_iff_ne.2 h, beq_eq_false_iff_ne.2 hk, note_update]
  rfl

theorem hostTimeout_due {t : Int} {s : State} (h : hreRun s = true ∧ 1 ≤ regF s 0xC018 13 0 ∧ regF s 0xC018 13 0 ≤ 10000
    ∧ (regF s 0xC018 13 0 : Int) * 1000000 ≤ t - s.hre.beatAt) : exec (.hostTimeout t) s = settle (hostLoss false 0 (atTime t s)) := by
  obtain ⟨hrun, hlow, hhigh, hlate⟩ := h
  refine if_pos (Bool.and_eq_true_iff.2 ⟨Bool.and_eq_true_iff.2 ⟨Bool.and_eq_true_iff.2 ⟨hrun, ?_⟩, ?_⟩, ?_⟩)
  · exact decide_eq_true hlow
  · exact decide_eq_true hhigh
  · exact decide_eq_true hlate

theorem hostTimeout_early {t : Int} {s : State} (h : ¬ (hreRun s = true ∧ 1 ≤ regF s 0xC018 13 0 ∧ regF s 0xC018 13 0 ≤ 10000
    ∧ (regF s 0xC018 13 0 : Int) * 1000000 ≤ t - s.hre.beatAt)) : exec (.hostTimeout t) s = settle (atTime t s) := by
  refine if_neg fun hdue => h ?_
  simp only [Bool.and_eq_true, decide_eq_true_eq] at hdue
  obtain ⟨⟨⟨hrun, hlow⟩, hhigh⟩, hlate⟩ := hdue
  exact ⟨hrun, hlow, hhigh, hlate⟩

/-- The last of the vectors that fired leaves with its message where no mask stands (R333, R334). -/
theorem msix_mem_sendFiring {v : Nat} {l : List Nat} {s : State} (hf : s.hre.firing = l ++ [v]) (hm : vecMasked s v = false) :
    .msix v (reg64 s (0x12000 + 16 * v)) (reg s (0x12008 + 16 * v)) ∈ (sendFiring s).out := by
  unfold sendFiring
  rw [hf, List.foldl_append, List.foldl_cons, List.foldl_nil]
  have hbefore := foldl_shown (fun s v => vecSend v s) (fun s v => vecSend_frame v s) l { s with hre := { s.hre with firing := [] } }
  generalize l.foldl _ _ = x at hbefore ⊢
  have hmask : vecMasked x v = false := by rw [hbefore]; exact hm
  have haddr : reg64 x (0x12000 + 16 * v) = reg64 s (0x12000 + 16 * v) := by rw [hbefore]; rfl
  have hdata : reg x (0x12008 + 16 * v) = reg s (0x12008 + 16 * v) := by rw [hbefore]; rfl
  unfold vecSend
  rw [hmask, haddr, hdata]
  exact List.mem_append_right _ (List.mem_singleton.2 rfl)

/-- The jobs of a list dropped, each after its command: what stands is what none of them is (R328). -/
theorem dropJobs_foldl (l : List Job) (s : State) :
    let u := l.foldl (fun s j => dropJob j (finish j.id stCancelled 0 0 s)) s
    let stays := fun (k : Job) => l.all (fun j => k.id != j.id || k.kind != j.kind)
    u.pst = s.pst ∧ u.hsc = s.hsc ∧ u.stg = s.stg ∧ u.bsc.jobs = s.bsc.jobs.filter stays ∧ u.bsc.running = s.bsc.running.filter stays := by
  induction l generalizing s with
  | nil => exact ⟨rfl, rfl, rfl, by simp, by simp⟩
  | cons j l ih =>
    have hfinish : (finish j.id stCancelled 0 0 s).pst = s.pst ∧ (finish j.id stCancelled 0 0 s).hsc = s.hsc
        ∧ (finish j.id stCancelled 0 0 s).stg = s.stg ∧ (finish j.id stCancelled 0 0 s).bsc = s.bsc := by
      rw [finish_frame]; exact ⟨rfl, rfl, rfl, rfl⟩
    obtain ⟨hpst, hhsc, hstg, hbsc⟩ := hfinish
    obtain ⟨ipst, ihsc, istg, ijobs, irunning⟩ := ih (dropJob j (finish j.id stCancelled 0 0 s))
    refine ⟨ipst.trans hpst, ihsc.trans hhsc, istg.trans hstg, ijobs.trans ?_, irunning.trans ?_⟩
    all_goals
      unfold dropJob
      dsimp only
      rw [hbsc, List.filter_filter]
      exact List.filter_congr fun k _ => by rw [List.all_cons, Bool.and_comm]

/-- Settles O7: each timer by what makes it due. -/
theorem hostTimersFire : Obligations.HostTimersFire := by
  unfold Obligations.HostTimersFire
  refine ⟨?timeout, ?vector, ?jobs⟩
  case timeout =>
    intro t s hloss due
    refine ⟨fun hdue => ?_, fun hdue => settles (hostTimeout_early hdue) fun o g => rfl⟩
    refine settles (hostTimeout_due hdue) fun o g => ?_
    rw [hostLoss_update false 0 (s := atTime t s) (by rw [atTime_hre, hloss]; decide) (by rw [atTime_hre, hloss]; decide)]
    exact ⟨rfl, rfl, rfl, rfl⟩
  case vector =>
    intro t t0 v s hhost hat hage
    have hexec : exec (.msixCoalesceTimer t v) s = settle (vecFire v.val (atTime t s)) := by
      show execMsixCoalesceTimer t v s = _
      unfold execMsixCoalesceTimer
      dsimp only
      rw [atTime_hre, hat]
      exact if_pos (Bool.and_eq_true_iff.2 ⟨decide_eq_true hage, hhost⟩)
    refine ⟨_, hexec, ?_, fun hcan => ?_, fun hcan hrun hmask => ?_⟩
    · obtain ⟨o, g, hpub⟩ := publish_update (vecFire v.val (atTime t s))
      rw [hpub]; rfl
    · unfold publish
      rw [show hostCan (vecFire v.val (atTime t s)) = false from hcan]
      rfl
    · unfold publish
      rw [show hostCan (vecFire v.val (atTime t s)) = true from hcan, show hreRun (vecFire v.val (atTime t s)) = false from hrun]
      exact msix_mem_sendFiring (s := vecFire v.val (atTime t s)) rfl hmask
  case jobs =>
    intro t his s late
    have hlate : ∀ j : Job, ((j.kind == if his then 0x50 else 0x48) && j.waitAt.any (fun w => decide ((atTime t s).now - w ≥ 1000000000))) = true
        ↔ late j := by
      intro j
      unfold late
      rw [Bool.and_eq_true, beq_iff_eq]
      cases j.waitAt <;> simp
    refine settles (v := ((s.bsc.jobs ++ s.bsc.running).filter _).foldl _ (atTime t s)) rfl fun o g => ?_
    obtain ⟨hpst, hhsc, hstg, hjobs, hrunning⟩ := dropJobs_foldl ((s.bsc.jobs ++ s.bsc.running).filter
      (fun j => (j.kind == if his then 0x50 else 0x48) && j.waitAt.any (fun w => decide ((atTime t s).now - w ≥ 1000000000)))) (atTime t s)
    have hstays : ∀ k : Job, (((s.bsc.jobs ++ s.bsc.running).filter (fun j => (j.kind == if his then 0x50 else 0x48)
        && j.waitAt.any (fun w => decide ((atTime t s).now - w ≥ 1000000000)))).all (fun j => k.id != j.id || k.kind != j.kind)) = true
        ↔ ∀ j ∈ s.bsc.jobs ++ s.bsc.running, late j → j.id ≠ k.id ∨ j.kind ≠ k.kind := by
      intro k
      simp only [List.all_eq_true, List.mem_filter, hlate, and_imp, Bool.or_eq_true, bne_iff_ne, ne_comm]
    refine ⟨hpst, hhsc, hstg, fun j => ?_, fun j => ?_⟩
    · refine (Eq.to_iff (congrArg (j ∈ ·) hjobs)).trans ?_
      rw [List.mem_filter, hstays]; rfl
    · refine (Eq.to_iff (congrArg (j ∈ ·) hrunning)).trans ?_
      rw [List.mem_filter, hstays]; rfl

/-! ## Host losses and the PCI Express function (R309, R337, R435, R442) -/

theorem hostCan_stopped {s : State} (h : s.hre.loss = .stopped) : hostCan s = false := by
  unfold hostCan
  rw [h, show (Loss.stopped != Loss.stopped) = false from rfl, Bool.and_false, Bool.false_and]

theorem hostCan_off {s : State} (h : active s .host = false) : hostCan s = false := by
  unfold hostCan
  rw [h]; rfl

/-- Where the HRE may not write, publishing changes nothing. -/
theorem publish_silent {s : State} (h : hostCan s = false) : publish s = s := by
  unfold publish
  rw [h]; rfl

/-- A loss of kind STOPPED, on which the HRE is silent: what holds of the state holds of what the command leaves. -/
theorem settles_stopped {r : Host.Outcome State Fault Refusal} {v : State} {P : State → Prop} (h : r = settle v) (hl : v.hre.loss = .stopped)
    (hP : P v) : ∃ u, r = .next u ∧ P u :=
  ⟨v, h.trans (congrArg Host.Outcome.next (publish_silent (hostCan_stopped hl))), hP⟩

/-- With nothing held for the host there is nothing to write back (R337, R338). -/
theorem writeBack_idle {s : State} (h : hreRun s = false ∨ s.hre.orphans = [] ∧ s.hre.evtHold = []) : writeBack s = s := by
  unfold writeBack
  split
  case isTrue hrun =>
    rcases h with h | ⟨horphans, hheld⟩
    · rw [h] at hrun; cases hrun
    · unfold writeHeld writeOrphans
      rw [horphans, List.foldl_nil]
      dsimp only
      rw [hheld, List.foldl_nil, ← horphans, ← hheld]
  case isFalse => rfl

/-- A configuration request that completes with a word, whatever it does beside. -/
theorem configuration_answers {t : Int} {req : CfgReq} {w : Word} {s v : State} {P : State → Prop} (h : active s .host = true)
    (hreq : cfgApply req (atTime t s) = { v with out := v.out ++ [.config true w] })
    (hP : ∀ o g, P { v with out := v.out ++ [.config true w] ++ o, hre := hreShown v.hre g }) :
    ∃ u, exec (.configurationRequest t req) s = .next u ∧ P u :=
  settles ((if_pos h).trans (congrArg settle hreq)) hP

/-- Settles O6: every loss by one update of HOST alone; every configuration request by the word it completes with. -/
theorem hostLossAndConfiguration : Obligations.HostLossAndConfiguration := by
  unfold Obligations.HostLossAndConfiguration
  refine ⟨?losses, fun t s => settles rfl fun o g => rfl, ?retry, ?read, ?bar, ?master⟩
  case losses =>
    intro t s hloss said reset
    have hlost := fun cause => hostLoss_update true cause (s := atTime t s) hloss hloss
    refine ⟨?_, ?_, ?_, ?_, ?_⟩
    all_goals refine settles_stopped rfl ?_ ?_
    all_goals rw [hlost]
    all_goals and_intros
    all_goals first | rfl | exact hostCan_stopped rfl
  case retry =>
    intro t req s hoff
    exact (if_neg (Bool.eq_false_iff.1 hoff)).trans (congrArg Host.Outcome.next (publish_silent (hostCan_off hoff)))
  case read =>
    intro t off s hhost hoff
    rcases hoff with rfl | rfl | rfl | rfl | rfl | rfl | rfl
    all_goals exact configuration_answers hhost rfl fun o g => ⟨rfl, List.mem_append_left _ (List.mem_append_right _ (List.mem_singleton.2 rfl))⟩
  case bar =>
    intro t a s hhost
    exact configuration_answers hhost rfl fun o g => ⟨rfl, List.mem_append_left _ (List.mem_append_right _ (List.mem_singleton.2 rfl)), rfl⟩
  case master =>
    intro t s hhost hidle
    refine configuration_answers (v := { atTime t s with hre := { s.hre with busMaster := true, d3hot := false } }) hhost ?_ fun o g => ⟨List.mem_append_left _ (List.mem_append_right _ (List.mem_singleton.2 rfl)), rfl⟩
    exact congrArg (fun u : State => { u with out := u.out ++ [Out.config true 0] }) (writeBack_idle (s := { atTime t s with hre := { s.hre with busMaster := true, d3hot := false } }) hidle)

end Sys2Proof.Proofs
end

section
/-!
Proof of the statement of the ring registers and the knock (R313, R314, R337, R338).
-/
namespace Sys2Proof.Proofs
open Sys2Proof.Machine Sys2Proof.Laws

/-! ## Writing back -/

/-- What writing to the host leaves: everything outside HOST, the indices that the host moves, the command index, the losses and the orphans held. -/
structure WritesBack (s u : State) : Prop where
  host : ∃ w h, u = { s with out := w, hre := h }
  cmdCons : u.hre.cmdCons = s.hre.cmdCons
  cmdProd : u.hre.cmdProd = s.hre.cmdProd
  cplCons : u.hre.cplCons = s.hre.cplCons
  evtCons : u.hre.evtCons = s.hre.evtCons
  loss : u.hre.loss = s.hre.loss
  orphans : u.hre.orphans = s.hre.orphans

theorem WritesBack.refl (s : State) : WritesBack s s := ⟨⟨s.out, s.hre, rfl⟩, rfl, rfl, rfl, rfl, rfl, rfl⟩

theorem WritesBack.trans {s t u : State} (h : WritesBack s t) (k : WritesBack t u) : WritesBack s u := by
  obtain ⟨w, g, ht⟩ := h.host
  obtain ⟨w', g', hu⟩ := k.host
  exact ⟨⟨w', g', by rw [hu, ht]⟩, k.cmdCons.trans h.cmdCons, k.cmdProd.trans h.cmdProd, k.cplCons.trans h.cplCons, k.evtCons.trans h.evtCons,
    k.loss.trans h.loss, k.orphans.trans h.orphans⟩

theorem WritesBack.foldl {α : Type} {f : State → α → State} (h : ∀ s a, WritesBack s (f s a)) (l : List α) (s : State) :
    WritesBack s (l.foldl f s) := by
  induction l generalizing s with
  | nil => exact .refl s
  | cons a l ih => exact (h s a).trans (ih (f s a))

theorem cplWrite_writesBack (ws : List Word) (s : State) : WritesBack s (cplWrite ws s) := by
  obtain ⟨w, g, h⟩ := cplWrite_update ws s
  rw [h]
  exact ⟨⟨_, _, rfl⟩, rfl, rfl, rfl, rfl, rfl, rfl⟩

theorem vecItem_writesBack (v : Nat) (s : State) : WritesBack s (vecItem v s) := by
  obtain ⟨g, h⟩ := vecItem_update v s
  rw [h]
  exact ⟨⟨_, _, rfl⟩, rfl, rfl, rfl, rfl, rfl, rfl⟩

theorem hostWrite_writesBack (a : Nat) (d : List Byte) (s : State) : WritesBack s (hostWrite a d s) := by
  obtain ⟨w, h⟩ := hostWrite_update a d s
  rw [h]
  exact ⟨⟨_, _, rfl⟩, rfl, rfl, rfl, rfl, rfl, rfl⟩

theorem evtWrite_writesBack (r : Record) (s : State) : WritesBack s (evtWrite r s) := by
  unfold evtWrite
  extract_lets v _ w
  have hw : WritesBack s w := (hostWrite_writesBack _ _ s).trans ⟨⟨_, _, rfl⟩, rfl, rfl, rfl, rfl, rfl, rfl⟩
  split
  · exact hw.trans ⟨⟨_, _, rfl⟩, rfl, rfl, rfl, rfl, rfl, rfl⟩
  · exact hw.trans (vecItem_writesBack 1 w)

theorem postEvt_writesBack (r : Record) (s : State) : WritesBack s (postEvt r s) := by
  have hmiss : WritesBack s (evtMiss s) := ⟨⟨_, _, rfl⟩, rfl, rfl, rfl, rfl, rfl, rfl⟩
  unfold postEvt
  split
  · exact .refl s
  split
  · split
    · exact evtWrite_writesBack r s
    · exact hmiss
  split
  · exact ⟨⟨_, _, rfl⟩, rfl, rfl, rfl, rfl, rfl, rfl⟩
  · exact hmiss

/-- Held events written back. -/
theorem writeHeld_writesBack (s : State) : WritesBack s (writeHeld s) :=
  .trans (t := { s with hre := { s.hre with evtHold := [] } }) ⟨⟨_, _, rfl⟩, rfl, rfl, rfl, rfl, rfl, rfl⟩ (.foldl (fun s r => postEvt_writesBack r s) _ _)

/-- Held orphans written back: none is held afterwards. -/
theorem writeOrphans_writesBack (s : State) : WritesBack { s with hre := { s.hre with orphans := [] } } (writeOrphans s) :=
  .foldl (fun s ws => cplWrite_writesBack ws s) _ _

/-- What the HRE holds is written where it may write, and then no orphan is held (R337, R338). -/
theorem writeBack_cases (s : State) :
    WritesBack s (writeBack s) ∧ (hreRun s && hostCan s) = false
      ∨ WritesBack { s with hre := { s.hre with orphans := [] } } (writeBack s) ∧ (hreRun s && hostCan s) = true := by
  unfold writeBack
  split
  case isTrue h => exact .inr ⟨(writeOrphans_writesBack s).trans (writeHeld_writesBack _), h⟩
  case isFalse h => exact .inl ⟨.refl s, Bool.eq_false_iff.2 h⟩

/-! ## The restart of the rings (R314) -/

/-- A host that changes alone, in which each index that the rings restart from is 0 or as it was. -/
structure Restarts (s u : State) : Prop where
  host : ∃ h, u = { s with hre := h }
  cmd : (u.hre.cmdCons = s.hre.cmdCons ∧ u.hre.cmdProd = s.hre.cmdProd) ∨ (u.hre.cmdCons = 0 ∧ u.hre.cmdProd = 0)
  cpl : u.hre.cplCons = s.hre.cplCons ∨ u.hre.cplCons = 0
  evt : u.hre.evtCons = s.hre.evtCons ∨ u.hre.evtCons = 0
  can : u.hre.busMaster = s.hre.busMaster

theorem Restarts.refl (s : State) : Restarts s s := ⟨⟨s.hre, rfl⟩, .inl ⟨rfl, rfl⟩, .inl rfl, .inl rfl, rfl⟩

theorem Restarts.trans {s t u : State} (h : Restarts s t) (k : Restarts t u) : Restarts s u := by
  obtain ⟨g, ht⟩ := h.host
  obtain ⟨g', hu⟩ := k.host
  refine ⟨⟨g', by rw [hu, ht]⟩, ?_, ?_, ?_, k.can.trans h.can⟩
  · rcases k.cmd with ⟨k1, k2⟩ | k
    · rw [k1, k2]; exact h.cmd
    · exact .inr k
  · rcases k.cpl with k | k
    · rw [k]; exact h.cpl
    · exact .inr k
  · rcases k.evt with k | k
    · rw [k]; exact h.evt
    · exact .inr k

theorem restartRing_restarts (r : Nat) (s : State) : Restarts s (restartRing r s) := by
  unfold restartRing
  split
  · exact ⟨⟨_, rfl⟩, .inr ⟨rfl, rfl⟩, .inl rfl, .inl rfl, rfl⟩
  · exact ⟨⟨_, rfl⟩, .inl ⟨rfl, rfl⟩, .inr rfl, .inl rfl, rfl⟩
  · exact ⟨⟨_, rfl⟩, .inl ⟨rfl, rfl⟩, .inl rfl, .inr rfl, rfl⟩
  · exact ⟨⟨_, rfl⟩, .inl ⟨rfl, rfl⟩, .inl rfl, .inl rfl, rfl⟩

/-- One ring restarted where it is enabled. -/
def restartEnabled (s : State) (r : Nat) : State := if ringEn s r then restartRing r s else s

theorem restartEnabled_restarts (s : State) (r : Nat) : Restarts s (restartEnabled s r) := by
  unfold restartEnabled
  split
  · exact restartRing_restarts r s
  · exact .refl s

theorem restartEnabled_foldl (l : List Nat) (s : State) : Restarts s (l.foldl restartEnabled s) := by
  induction l generalizing s with
  | nil => exact .refl s
  | cons r l ih => exact (restartEnabled_restarts s r).trans (ih _)

/-- The indices that a start of the rings leaves at 0 (R314). -/
structure AtZero (h : HreSt) : Prop where
  cmdCons : h.cmdCons = 0
  cmdProd : h.cmdProd = 0
  cplCons : h.cplCons = 0
  evtCons : h.evtCons = 0

theorem Restarts.ringEn {s u : State} (h : Restarts s u) (r : Nat) : ringEn u r = ringEn s r := by
  obtain ⟨g, hu⟩ := h.host
  rw [hu]; rfl

theorem Restarts.keeps_zero {s u : State} (z : AtZero s.hre) (h : Restarts s u) : AtZero u.hre := by
  obtain ⟨-, hcmd, hcpl, hevt, -⟩ := h
  rcases hcmd with ⟨h1, h2⟩ | ⟨h1, h2⟩
  · exact ⟨h1.trans z.cmdCons, h2.trans z.cmdProd, hcpl.elim (·.trans z.cplCons) id, hevt.elim (·.trans z.evtCons) id⟩
  · exact ⟨h1, h2, hcpl.elim (·.trans z.cplCons) id, hevt.elim (·.trans z.evtCons) id⟩

/-- With CMD, CPL and EVT enabled the rings' restart leaves every index at 0. -/
theorem restart_atZero {s : State} (h0 : ringEn s 0 = true) (h1 : ringEn s 1 = true) (h2 : ringEn s 2 = true) :
    AtZero ((List.range 13).foldl restartEnabled s).hre := by
  have e0 : restartEnabled s 0 = restartRing 0 s := if_pos h0
  have e1 : restartEnabled (restartRing 0 s) 1 = restartRing 1 (restartRing 0 s) := if_pos h1
  have e2 : restartEnabled (restartRing 1 (restartRing 0 s)) 2 = restartRing 2 (restartRing 1 (restartRing 0 s)) := if_pos h2
  rw [show List.range 13 = 0 :: 1 :: 2 :: List.range' 3 10 from rfl, List.foldl_cons, List.foldl_cons, List.foldl_cons, e0, e1, e2]
  exact Restarts.keeps_zero ⟨rfl, rfl, rfl, rfl⟩ (restartEnabled_foldl _ _)

theorem ringEns_of_hreRun {s : State} (h : hreRun s = true) : ringEn s 0 = true ∧ ringEn s 1 = true ∧ ringEn s 2 = true := by
  unfold hreRun at h
  simp only [Bool.and_eq_true] at h
  obtain ⟨⟨⟨-, h0⟩, h1⟩, h2⟩ := h
  exact ⟨h0, h1, h2⟩

/-- RUN's rise: the rings that are enabled restarted, the host lost no more, then what is held written back (R314, R338). -/
structure Rises (s u : State) : Prop where
  host : ∃ w h, u = { s with out := w, hre := h }
  loss : u.hre.loss = .none
  cmd : (u.hre.cmdCons = s.hre.cmdCons ∧ u.hre.cmdProd = s.hre.cmdProd) ∨ (u.hre.cmdCons = 0 ∧ u.hre.cmdProd = 0)
  cpl : u.hre.cplCons = s.hre.cplCons ∨ u.hre.cplCons = 0
  evt : u.hre.evtCons = s.hre.evtCons ∨ u.hre.evtCons = 0
  zero : hreRun s = true → AtZero u.hre
  orphans : hreRun s = true → s.hre.busMaster = true → u.hre.orphans = []

/-- The rise is the rings' restart, the marks of a host that is back, and the writing back. -/
theorem runRise_eq (s : State) : ∃ m, runRise s = writeBack m ∧ Restarts s m ∧ m.hre.loss = .none ∧ (hreRun s = true → AtZero m.hre) := by
  have hrestarts := restartEnabled_foldl (List.range 13) s
  have hzero := fun hrun : hreRun s = true =>
    have ⟨h0, h1, h2⟩ := ringEns_of_hreRun hrun
    restart_atZero h0 h1 h2
  generalize hr : (List.range 13).foldl restartEnabled s = r at hrestarts hzero
  have hrise : ∃ g, runRise s = writeBack { r with hre := g } ∧ g.loss = .none ∧ g.cmdCons = r.hre.cmdCons ∧ g.cmdProd = r.hre.cmdProd
      ∧ g.cplCons = r.hre.cplCons ∧ g.evtCons = r.hre.evtCons ∧ g.busMaster = r.hre.busMaster := by
    rw [← hr]
    exact ⟨_, rfl, rfl, rfl, rfl, rfl, rfl, rfl⟩
  obtain ⟨g, hrise, hloss, g1, g2, g3, g4, g5⟩ := hrise
  have hmarked : Restarts r { r with hre := g } := ⟨⟨g, rfl⟩, .inl ⟨g1, g2⟩, .inl g3, .inl g4, g5⟩
  exact ⟨_, hrise, hrestarts.trans hmarked, hloss, fun hrun => Restarts.keeps_zero (hzero hrun) hmarked⟩

theorem Rises.of_writesBack {s m u : State} (hm : Restarts s m) (hl : m.hre.loss = .none) (hz : hreRun s = true → AtZero m.hre) (hw : WritesBack m u)
    (ho : hreRun s = true → s.hre.busMaster = true → u.hre.orphans = []) : Rises s u := by
  obtain ⟨⟨w, h, hu⟩, k1, k2, k3, k4, k5, -⟩ := hw
  obtain ⟨⟨h', hm'⟩, hcmd, hcpl, hevt, -⟩ := hm
  refine ⟨⟨w, h, by rw [hu, hm']⟩, k5.trans hl, ?_, ?_, ?_, fun hrun => ?_, ho⟩
  · rw [k1, k2]; exact hcmd
  · rw [k3]; exact hcpl
  · rw [k4]; exact hevt
  · obtain ⟨z1, z2, z3, z4⟩ := hz hrun
    exact ⟨k1.trans z1, k2.trans z2, k3.trans z3, k4.trans z4⟩

theorem runRise_rises (s : State) : Rises s (runRise s) := by
  obtain ⟨m, hrise, hm, hl, hz⟩ := runRise_eq s
  rw [hrise]
  rcases writeBack_cases m with ⟨hw, hno⟩ | ⟨hw, -⟩
  · refine .of_writesBack hm hl hz hw fun hrun hmaster => absurd ?_ (Bool.eq_false_iff.1 hno)
    have hmrun : hreRun m = true := by obtain ⟨⟨h, e⟩, -⟩ := hm; rw [e]; exact hrun
    have hactive : active m .host = true := by
      unfold hreRun at hmrun
      simp only [Bool.and_eq_true] at hmrun
      exact hmrun.1.1.1.1
    unfold hostCan
    rw [hmrun, hactive, hl, hm.can, hmaster]
    rfl
  · obtain ⟨⟨h, e⟩, hcmd, hcpl, hevt, hcan⟩ := hm
    refine .of_writesBack (m := { m with hre := { m.hre with orphans := [] } }) ⟨⟨_, by rw [e]⟩, hcmd, hcpl, hevt, hcan⟩ hl (fun hrun => ?_) hw
      fun _ _ => hw.orphans
    obtain ⟨z1, z2, z3, z4⟩ := hz hrun
    exact ⟨z1, z2, z3, z4⟩

/-! ## The control words (R314) -/

theorem knockHre_up {s : State} (h : active s .host = true) :
    knockHre s = bump 0xCC04 { s with hre := { s.hre with knock := hreRun s } } := by
  unfold knockHre
  rw [h]; rfl

theorem knockHre_off {s : State} (h : active s .host = false) : knockHre s = s := by
  unfold knockHre
  rw [h]
  exact hreDiscard_off h

/-- A floor changed: the domains and the counter of band changes. -/
theorem holdFloor_update (d : Dom) (f : Nat) (s : State) : ∃ m k, holdFloor d f s = { s with dom := m, ctr := k } := by
  unfold holdFloor orderBand
  split
  · split
    · dsimp only
      split
      · exact ⟨s.dom, s.ctr, rfl⟩
      · exact ⟨_, _, rfl⟩
    · exact ⟨_, s.ctr, rfl⟩
  · exact ⟨s.dom, s.ctr, rfl⟩

theorem raiseFloor_update (d : Dom) (f : Nat) (s : State) : ∃ m k, raiseFloor d f s = { s with dom := m, ctr := k } := by
  obtain ⟨m, k, h⟩ := holdFloor_update d f (mapDom d (fun x => { x with floor := max x.floor f }) s)
  exact ⟨m, k, h⟩

theorem setFloor_update (d : Dom) (f : Nat) (s : State) : ∃ m k, setFloor d f s = { s with dom := m, ctr := k } := by
  obtain ⟨m, k, h⟩ := holdFloor_update d f (mapDom d (fun x => { x with floor := f }) s)
  exact ⟨m, k, h⟩

/-- RUN written while HOST is up: its word, its floor, and the rise where RUN then reads 1 and did not. -/
theorem ctlRun_cases (run : Bool) {s : State} (h : active s .host = true) :
    ∃ m k, let v := { setRw 0xC000 (w32 (b2n run)) s with dom := m, ctr := k }
      ctlRun run s = if !hreRun s && hreRun v then runRise v else v := by
  have hfloor : ∃ m k, (if run then raiseFloor .host 3 (setRw 0xC000 (w32 (b2n run)) s) else setFloor .host 0 (setRw 0xC000 (w32 (b2n run)) s))
      = { setRw 0xC000 (w32 (b2n run)) s with dom := m, ctr := k } := by
    split
    · exact raiseFloor_update ..
    · exact setFloor_update ..
  obtain ⟨m, k, hv⟩ := hfloor
  refine ⟨m, k, ?_⟩
  unfold ctlRun
  rw [h]
  dsimp only
  rw [hv]
  rfl

/-- RUN's rise, where RUN then reads 1 and did not. -/
def riseIf (was : Bool) (v : State) : State := if !was && hreRun v then runRise v else v

/-- Whether it rises or not, nothing changes but what leaves the part and the HRE. -/
theorem riseIf_host (was : Bool) (v : State) : ∃ w h, riseIf was v = { v with out := w, hre := h } := by
  unfold riseIf
  split
  · exact (runRise_rises v).host
  · exact ⟨v.out, v.hre, rfl⟩

theorem riseIf_rises {was : Bool} {v : State} (h : was = false) (hv : hreRun v = true) : Rises v (riseIf was v) := by
  unfold riseIf
  rw [h, hv]
  exact runRise_rises v

theorem riseIf_stays {was : Bool} {v : State} (h : was = true ∨ hreRun v = false) : riseIf was v = v := by
  refine if_neg fun hrise => ?_
  rw [Bool.and_eq_true, Bool.not_eq_true'] at hrise
  obtain ⟨h1, h2⟩ := hrise
  rcases h with h | h
  · rw [h] at h1; cases h1
  · rw [h] at h2; cases h2

/-- An index at 0 stays there over the rise. -/
theorem riseIf_indices (was : Bool) (v : State) :
    (v.hre.cmdCons = 0 ∧ v.hre.cmdProd = 0 → (riseIf was v).hre.cmdCons = 0 ∧ (riseIf was v).hre.cmdProd = 0)
    ∧ (v.hre.cplCons = 0 → (riseIf was v).hre.cplCons = 0) ∧ (v.hre.evtCons = 0 → (riseIf was v).hre.evtCons = 0) := by
  unfold riseIf
  split
  · obtain ⟨-, -, hcmd, hcpl, hevt, -, -⟩ := runRise_rises v
    refine ⟨fun ⟨h1, h2⟩ => ?_, fun h => hcpl.elim (·.trans h) id, fun h => hevt.elim (·.trans h) id⟩
    rcases hcmd with ⟨k1, k2⟩ | k
    · exact ⟨k1.trans h1, k2.trans h2⟩
    · exact k
  · exact ⟨id, id, id⟩

/-- The third word of ring r written with a SIZE, and the base address read again. -/
def ringWord (r size : Nat) (value : Word) (x : RegSt) : RegSt :=
  let off := 0xC048 + 16 * r
  { x with rw := tput (regReset off) off (w32 (256 * b2n (bitOf value 8) + size)) x.rw,
           held := tput none (off - 8) none (tput none (off - 4) none x.held) }

/-- A ring that starts changes the HRE alone, its indices at 0 on both sides (R314). -/
theorem enableRing_starts (r : Nat) (v : State) :
    (∃ h, enableRing r v = { v with hre := h }) ∧ (r = 0 → (enableRing r v).hre.cmdCons = 0 ∧ (enableRing r v).hre.cmdProd = 0)
      ∧ (r = 1 → (enableRing r v).hre.cplCons = 0) ∧ (r = 2 → (enableRing r v).hre.evtCons = 0) := by
  unfold enableRing
  refine ⟨?_, ?_, ?_, ?_⟩
  · obtain ⟨h, hr⟩ := (restartRing_restarts r (if r = 2 then { v with hre := { v.hre with evtLost := 0 } } else v)).host
    refine ⟨h, hr.trans ?_⟩
    split <;> rfl
  all_goals rintro rfl
  · exact ⟨rfl, rfl⟩
  · rfl
  · rfl

section
variable {r : Nat} {value : Word} {s : State}

/-- An enabled ring keeps its SIZE, and a write that would change it is recorded (R314). -/
theorem ringWrite_enabled (h : active s .host = true) (hen : ringEn s r = true) :
    ∃ g i, ringWrite r value s = riseIf (hreRun s)
        { s with regs := ringWord r (regF s (0xC048 + 16 * r) 4 0) value s.regs, erc := { s.erc with inbox := i }, hre := hreItems s.hre g }
      ∧ (fld value 4 0 ≠ regF s (0xC048 + 16 * r) 4 0 → aonUp s = true →
        { code := evWriteIgnored, src := 96, p0 := w32 (0xC048 + 16 * r), p1 := value, p2 := 1, solo := false } ∈ i) := by
  unfold ringWrite
  dsimp only
  rw [h, hen]
  by_cases hsize : fld value 4 0 = regF s (0xC048 + 16 * r) 4 0
  · refine ⟨s.hre, s.erc.inbox, ?_, fun hne => absurd hsize hne⟩
    rw [hsize, bne_self_eq_false]
    rfl
  · obtain ⟨g, hg⟩ := vecItem_update 13 (note evWriteIgnored .host 0 (w32 (0xC048 + 16 * r)) value 1 s)
    refine ⟨g, s.erc.inbox ++ (if aonUp s then [{ code := evWriteIgnored, src := 96, p0 := w32 (0xC048 + 16 * r), p1 := value, p2 := 1, solo := false }]
      else []), ?_, fun _ hup => ?_⟩
    · rw [bne_iff_ne.2 hsize]
      refine (if_neg (by decide)).trans ((if_neg Bool.false_ne_true).trans ?_)
      simp only [Bool.and_self, if_true]
      rw [hg, note_update]
      rfl
    · rw [hup]
      exact List.mem_append_right _ (List.mem_singleton.2 rfl)

/-- A disabled ring takes a SIZE within its limits, and starts at 0 as EN rises (R314). -/
theorem ringWrite_disabled (h : active s .host = true) (hen : ringEn s r = false) (hlow : 6 ≤ fld value 4 0) (hhigh : fld value 4 0 ≤ 16) :
    ∃ w e, ringWrite r value s = { s with regs := ringWord r (fld value 4 0) value s.regs, out := w, hre := e }
      ∧ (bitOf value 8 = true → (r = 0 → e.cmdCons = 0 ∧ e.cmdProd = 0) ∧ (r = 1 → e.cplCons = 0) ∧ (r = 2 → e.evtCons = 0)) := by
  have hok : (decide (fld value 4 0 < 6) || decide (16 < fld value 4 0)) = false := by
    rw [decide_eq_false (by omega), decide_eq_false (by omega)]; rfl
  have hwrite : ringWrite r value s = riseIf (hreRun s) (if bitOf value 8 then enableRing r { s with regs := ringWord r (fld value 4 0) value s.regs }
      else { s with regs := ringWord r (fld value 4 0) value s.regs }) := by
    unfold ringWrite
    dsimp only
    rw [h, hen, hok]
    rfl
  rw [hwrite]
  split
  case isTrue hbit =>
    obtain ⟨⟨e, henable⟩, hcmd, hcpl, hevt⟩ := enableRing_starts r { s with regs := ringWord r (fld value 4 0) value s.regs }
    generalize enableRing r _ = v at henable hcmd hcpl hevt ⊢
    obtain ⟨w, e', hrise⟩ := riseIf_host (hreRun s) v
    obtain ⟨kcmd, kcpl, kevt⟩ := riseIf_indices (hreRun s) v
    rw [hrise] at kcmd kcpl kevt ⊢
    exact ⟨w, e', by rw [henable], fun _ => ⟨fun hr => kcmd (hcmd hr), fun hr => kcpl (hcpl hr), fun hr => kevt (hevt hr)⟩⟩
  case isFalse hbit =>
    obtain ⟨w, e', hrise⟩ := riseIf_host (hreRun s) { s with regs := ringWord r (fld value 4 0) value s.regs }
    exact ⟨w, e', hrise, fun hyes => absurd hyes hbit⟩

/-- A SIZE outside its limits leaves the whole word, and the write is recorded (R314). -/
theorem ringWrite_outside (h : active s .host = true) (hen : ringEn s r = false) (hsize : fld value 4 0 < 6 ∨ 16 < fld value 4 0) :
    ∃ g, ringWrite r value s = { note evWriteIgnored .host 0 (w32 (0xC048 + 16 * r)) value 0 s with hre := hreItems s.hre g } := by
  have hbad : (!ringEn s r && (decide (fld value 4 0 < 6) || decide (16 < fld value 4 0))) = true := by
    rw [hen, Bool.not_false, Bool.true_and, Bool.or_eq_true, decide_eq_true_eq, decide_eq_true_eq]
    exact hsize
  obtain ⟨g, hg⟩ := vecItem_update 13 (note evWriteIgnored .host 0 (w32 (0xC048 + 16 * r)) value 0 s)
  refine ⟨g, ?_⟩
  unfold ringWrite
  rw [h]
  dsimp only
  rw [if_neg (by decide), if_pos hbad, hg, note_hre]

end

/-- Settles O5: a knock, RUN and a ring's third word, each by what it finds. -/
theorem ringControlWritesItsWord : Obligations.RingControlWritesItsWord := by
  unfold Obligations.RingControlWritesItsWord
  refine ⟨fun t v s => ⟨fun h => ?knock, fun h => ?discarded⟩, fun t run s h => ?run, ?ring⟩
  case knock =>
    refine settles (congrArg settle (knockHre_up (s := atTime t s) h)) fun o g => ⟨rfl, rfl⟩
  case discarded =>
    refine settles (congrArg settle (knockHre_off (s := atTime t s) h)) fun o g => rfl
  case run =>
    obtain ⟨m, k, hctl⟩ := ctlRun_cases run (s := atTime t s) h
    have hexec : exec (.hreCtlRun t run) s = settle (riseIf (hreRun s) { setRw 0xC000 (w32 (b2n run)) (atTime t s) with dom := m, ctr := k }) :=
      congrArg settle hctl
    have hrises := riseIf_rises (was := hreRun s) (v := { setRw 0xC000 (w32 (b2n run)) (atTime t s) with dom := m, ctr := k })
    have hstays := riseIf_stays (was := hreRun s) (v := { setRw 0xC000 (w32 (b2n run)) (atTime t s) with dom := m, ctr := k })
    obtain ⟨w, h, hy⟩ := riseIf_host (hreRun s) { setRw 0xC000 (w32 (b2n run)) (atTime t s) with dom := m, ctr := k }
    refine settles hexec fun o g => ?_
    generalize riseIf (hreRun s) { setRw 0xC000 (w32 (b2n run)) (atTime t s) with dom := m, ctr := k } = y at hrises hstays hy
    have hrun : hreRun { y with out := y.out ++ o, hre := hreShown y.hre g }
        = hreRun { setRw 0xC000 (w32 (b2n run)) (atTime t s) with dom := m, ctr := k } := by rw [hy]; rfl
    refine ⟨by rw [hy]; rfl, by rw [hy]; rfl, by rw [hy]; rfl, by rw [hy]; rfl, by rw [hy]; rfl, fun hwas hnow => ?_, fun hsame => ?_⟩
    · rw [hrun] at hnow
      obtain ⟨-, hl, -, -, -, hz, ho⟩ := hrises hwas hnow
      obtain ⟨z1, z2, z3, z4⟩ := hz hnow
      exact ⟨hl, z1, z2, z3, z4, ho hnow⟩
    · rw [hrun] at hsame
      rw [hstays hsame]
      rfl
  case ring =>
    intro t r v s h off word
    by_cases hen : ringEn s r = true
    · obtain ⟨g, i, hwrite, hi⟩ := ringWrite_enabled (value := v) (s := atTime t s) h hen
      refine settles (congrArg settle hwrite) fun o g' => ?_
      obtain ⟨w, g'', hy⟩ := riseIf_host (hreRun (atTime t s))
        { atTime t s with regs := ringWord r.val (regF (atTime t s) (0xC048 + 16 * r.val) 4 0) v (atTime t s).regs,
                          erc := { (atTime t s).erc with inbox := i }, hre := hreItems (atTime t s).hre g }
      rw [hy]
      refine ⟨rfl, rfl, rfl, rfl, rfl, fun _ => rfl, fun _ hne hup => hi hne hup, fun hno => ?_, fun hno => ?_⟩
      all_goals rw [hen] at hno; cases hno
    rw [Bool.not_eq_true] at hen
    by_cases hsize : 6 ≤ fld v 4 0 ∧ fld v 4 0 ≤ 16
    · obtain ⟨w, e, hwrite, hzero⟩ := ringWrite_disabled (value := v) (s := atTime t s) h hen hsize.1 hsize.2
      refine settles (congrArg settle hwrite) fun o g => ?_
      refine ⟨rfl, rfl, rfl, rfl, rfl, fun hyes => ?_, fun hyes => ?_, fun _ _ _ => ⟨rfl, fun hbit => hzero hbit⟩, fun _ hout => ?_⟩
      · rw [hen] at hyes; cases hyes
      · rw [hen] at hyes; cases hyes
      · omega
    · obtain ⟨g, hwrite⟩ := ringWrite_outside (value := v) (s := atTime t s) h hen (by omega)
      rw [note_update] at hwrite
      refine settles (congrArg settle hwrite) fun o g' => ?_
      refine ⟨rfl, rfl, rfl, rfl, rfl, fun hyes => ?_, fun hyes => ?_, fun _ hlow hhigh => absurd ⟨hlow, hhigh⟩ hsize, fun _ _ => ⟨rfl, fun hup => ?_⟩⟩
      · rw [hen] at hyes; cases hyes
      · rw [hen] at hyes; cases hyes
      · show _ ∈ s.erc.inbox ++ (if aonUp s then _ else _)
        rw [hup]
        exact List.mem_append_right _ (List.mem_singleton.2 rfl)

end Sys2Proof.Proofs
end

section
/-!
Proofs of the persistent store's and the recorder's statements: the word at the front of the write queue (R412 to R418), the taking of events and the
operating seconds (R420, R429, R430), the freeze and the reading of the recorder (R432, R433).
-/
namespace Sys2Proof.Proofs
open Sys2Proof.Machine Sys2Proof.Laws

/-! ## One word written (R412, R415) -/

/-- The store after one word is written: left failing its check when the write is cut short, as it was when it holds the value. -/
def wordWritten (torn : Bool) (w : Nat) (v : Word) (p : PstSt) : PstSt :=
  if torn then nvmTear w p else if wouldWrite p w v then nvmStore w v p else p

theorem wordWritten_wf {p : PstSt} (torn : Bool) (w : Nat) (v : Word) (h : nvmWf p = true) : nvmWf (wordWritten torn w v p) = true := by
  unfold wordWritten
  split
  · exact nvmWf_nvmTear w p h
  split
  · exact nvmWf_nvmStore w v p h
  · exact h

theorem wordWritten_other (torn : Bool) {w a : Nat} (v : Word) (p : PstSt) (h : a ≠ w) : nvmWord? (wordWritten torn w v p) a = nvmWord? p a := by
  unfold wordWritten
  split
  · unfold nvmWord? nvmTear
    rw [tget_tput_ne _ _ _ _ h]
  split
  · exact nvmWord?_nvmStore_ne v p h
  · rfl

theorem nvmWord?_nvmStore {p : PstSt} (w : Nat) (v : Word) (hw : rising p.words = true) (hb : rising p.bad = true) :
    nvmWord? (nvmStore w v p) w = some v := by
  unfold nvmWord? nvmStore
  rw [tget_tput _ _ _ _ hb, tget_tput _ _ _ _ hw]
  rfl

/-- A write that is not cut short reads as written. -/
theorem wordWritten_reads {p : PstSt} (w : Nat) (v : Word) (hw : rising p.words = true) (hb : rising p.bad = true) :
    nvmWord? (wordWritten false w v p) w = some v := by
  by_cases h : wouldWrite p w v = true
  · rw [show wordWritten false w v p = nvmStore w v p from if_pos h]
    exact nvmWord?_nvmStore w v hw hb
  · rw [show wordWritten false w v p = p from if_neg h]
    unfold wouldWrite at h
    simpa using h

theorem wordWritten_gauge (torn : Bool) (w : Nat) (v : Word) (p : PstSt) : (wordWritten torn w v p).gauge = p.gauge := by
  unfold wordWritten
  split
  · rfl
  split <;> rfl

theorem gaugeOf_gaugeUp (g : Nat) (p : PstSt) : gaugeOf (gaugeUp g p) g = gaugeOf p g + 1 :=
  tget_tput_of_ne 0 0 g (gaugeOf p g + 1) p.gauge (by omega)

/-- One page write counted: the gauges, and a notice where one is due (R418, R419). -/
theorem gaugeInc_update (page : Nat) (s : State) :
    ∃ i, gaugeInc page s = { s with pst := gaugeUp page s.pst, erc := { s.erc with inbox := i } } := by
  unfold gaugeInc gaugeNote
  split
  · rw [note_update]; exact ⟨_, rfl⟩
  split
  · rw [note_update]; exact ⟨_, rfl⟩
  · exact ⟨s.erc.inbox, rfl⟩

/-- The store after the head of the write queue is written. -/
def headWritten (torn : Bool) (w : Nat) (v : Word) (q : List (Nat × Word)) (p : PstSt) : PstSt :=
  if wouldWrite p w v then gaugeUp (w / 64) { wordWritten torn w v p with wq := q } else { wordWritten torn w v p with wq := q }

theorem writeQueued_update (torn : Bool) {w : Nat} {v : Word} {q : List (Nat × Word)} {s : State} (h : s.pst.wq = (w, v) :: q) :
    ∃ i, writeQueued torn s = { s with pst := headWritten torn w v q s.pst, erc := { s.erc with inbox := i } } := by
  unfold writeQueued
  rw [h]
  dsimp only
  by_cases hnew : wouldWrite s.pst w v = true
  · obtain ⟨i, hi⟩ := gaugeInc_update (w / 64) { s with pst := { wordWritten torn w v s.pst with wq := q } }
    refine ⟨i, (if_pos hnew).trans (hi.trans ?_)⟩
    rw [show headWritten torn w v q s.pst = _ from if_pos hnew]
  · refine ⟨s.erc.inbox, (if_neg hnew).trans ?_⟩
    rw [show headWritten torn w v q s.pst = _ from if_neg hnew]
    rfl

/-- What the store holds after the head of the queue is written. -/
theorem headWritten_reads (torn : Bool) (w : Nat) (v : Word) (q : List (Nat × Word)) {p : PstSt} (h : nvmWf p = true) :
    let u := headWritten torn w v q p
    u.wq = q ∧ nvmWf u = true ∧ (torn = false → rising p.bad = true → nvmWord? u w = some v) ∧ (∀ a, a ≠ w → nvmWord? u a = nvmWord? p a)
      ∧ gaugeOf u (w / 64) = gaugeOf p (w / 64) + (if nvmWord? p w = some v then 0 else 1) := by
  have hrising : rising p.words = true := by
    unfold nvmWf at h
    exact (Bool.and_eq_true_iff.1 h).1
  have hwf := wordWritten_wf torn w v h
  have hreads : torn = false → rising p.bad = true → nvmWord? (wordWritten torn w v p) w = some v := fun ht hb => ht ▸ wordWritten_reads w v hrising hb
  have hother := fun a (ha : a ≠ w) => wordWritten_other torn v p ha
  have hgauge : gaugeOf (wordWritten torn w v p) (w / 64) = gaugeOf p (w / 64) := by
    unfold gaugeOf; rw [wordWritten_gauge]
  unfold headWritten
  split
  case isTrue hnew =>
    have hne : ¬ nvmWord? p w = some v := by unfold wouldWrite at hnew; simpa using hnew
    refine ⟨rfl, hwf, hreads, hother, ?_⟩
    rw [gaugeOf_gaugeUp, if_neg hne]
    exact congrArg (· + 1) hgauge
  case isFalse hold =>
    have heq : nvmWord? p w = some v := by unfold wouldWrite at hold; simpa using hold
    refine ⟨rfl, hwf, hreads, hother, ?_⟩
    rw [if_pos heq]
    exact hgauge

/-- An outstanding command completed: what a completion may change, and the command's entry. -/
theorem finish_update (id st : Nat) (r0 r1 : Word) (s : State) :
    ∃ k i w g, finish id st r0 r1 s =
      { s with ctr := k, erc := { s.erc with inbox := i }, out := s.out ++ w,
               hre := { hreTold s.hre g with out := s.hre.out.filter (fun o => o.id != id) } } := by
  unfold finish outFind
  split
  case _ hnone =>
    rw [List.find?_eq_none] at hnone
    have hfilter : s.hre.out.filter (fun o => o.id != id) = s.hre.out := List.filter_eq_self.2 fun o ho => by
      have := hnone o ho
      simpa using this
    exact ⟨s.ctr, s.erc.inbox, [], s.hre, by rw [hfilter, List.append_nil]; rfl⟩
  case _ o _ =>
    obtain ⟨k, i, w, g, h⟩ := cplEmit_update o st r0 r1 false false (outDrop id s)
    exact ⟨k, i, w, g, h⟩

/-- LEGACY_CAL completes with the last word that it queued (R221). -/
theorem calEnd_cases (s : State) :
    (s.cal.legacy = none → calEnd s = s)
    ∧ ∀ x, s.cal.legacy = some x →
      (¬ (x.left = [] ∧ calQueued s = false) → calEnd s = s)
      ∧ (x.left = [] ∧ calQueued s = false → calEnd s = finish x.id stApplied (w32 x.res) 0 { s with cal := { s.cal with legacy := none } }) := by
  unfold calEnd
  refine ⟨fun h => by rw [h], fun x h => ⟨fun hno => ?_, fun ⟨hl, hq⟩ => ?_⟩⟩
  · rw [h]
    refine if_pos ?_
    by_contra hb
    simp only [Bool.or_eq_true, bne_iff_ne, not_or, ne_eq, not_not, Bool.not_eq_true] at hb
    exact hno hb
  · rw [h]
    refine if_neg ?_
    rw [hl, hq]
    decide

/-- Settles O8: the head of the queue is written, then LEGACY_CAL completes where that was its last word. -/
theorem queuedWordIsWrittenAlone : Obligations.QueuedWordIsWrittenAlone := by
  unfold Obligations.QueuedWordIsWrittenAlone
  intro t torn w v q s hup hwf hq hprio
  obtain ⟨i, hwritten⟩ := writeQueued_update torn (s := atTime t s) hq
  obtain ⟨hwq, hwf', hreads, hother, hgauge⟩ := headWritten_reads torn w v q hwf
  have hexec : exec (.nvmWordWrite t torn) s = settle (calEnd (writeQueued torn (atTime t s))) := by
    show execNvmWordWrite t torn s = _
    unfold execNvmWordWrite
    dsimp only
    rw [if_neg (by rw [show aonUp (atTime t s) = true from hup]; decide), if_neg]
    rw [atTime_pst, hq, Bool.or_eq_true, decide_eq_true_eq, decide_eq_true_eq]
    exact fun h => h.elim (by omega) (by simp)
  obtain ⟨hnone, hsome⟩ := calEnd_cases (writeQueued torn (atTime t s))
  rw [hwritten] at hnone hsome
  have hqueued : calQueued { atTime t s with pst := headWritten torn w v q s.pst, erc := { s.erc with inbox := i } }
      = calQueued { s with pst := { s.pst with wq := q } } := by
    unfold calQueued; dsimp only; rw [hwq]
  by_cases hends : ∃ x, s.cal.legacy = some x ∧ x.left = [] ∧ calQueued { s with pst := { s.pst with wq := q } } = false
  case neg =>
    have hcal : calEnd { atTime t s with pst := headWritten torn w v q s.pst, erc := { s.erc with inbox := i } }
        = { atTime t s with pst := headWritten torn w v q s.pst, erc := { s.erc with inbox := i } } := by
      cases hl : s.cal.legacy with
      | none => exact hnone hl
      | some x => exact (hsome x hl).1 fun ⟨hleft, hnoq⟩ => hends ⟨x, hl, hleft, hqueued.symm.trans hnoq⟩
    refine settles (hexec.trans (congrArg settle ((congrArg calEnd hwritten).trans hcal))) fun o g => ?_
    refine ⟨hwq, hwf', hreads, hother, hgauge, rfl, fun _ => rfl, fun x hl => hl.trans (if_neg fun h => hends ⟨x, hl, h⟩).symm⟩
  case pos =>
    obtain ⟨x, hl, hleft, hnoq⟩ := hends
    have hcal := (hsome x hl).2 ⟨hleft, hqueued.trans hnoq⟩
    obtain ⟨k, i', o', g', hfinish⟩ := finish_update x.id stApplied (w32 x.res) 0
      { atTime t s with pst := headWritten torn w v q s.pst, erc := { s.erc with inbox := i }, cal := { s.cal with legacy := none } }
    refine settles (hexec.trans (congrArg settle ((congrArg calEnd hwritten).trans (hcal.trans hfinish)))) fun o g => ?_
    refine ⟨hwq, hwf', hreads, hother, hgauge, rfl, fun hno => ?_, fun y hy => ?_⟩
    · rw [hl] at hno; cases hno
    · obtain rfl := Option.some.inj (hl.symm.trans hy)
      exact (if_pos ⟨hleft, hnoq⟩).symm

/-! ## Records kept and posted (R326, R429, R430, R433) -/

/-- The host side h with the EVT ring's part taken from g. -/
def hreEvents (h g : HreSt) : HreSt := { hreItems h g with evtProd := g.evtProd, evtGap := g.evtGap, evtLost := g.evtLost, evtHold := g.evtHold }

theorem evtWrite_update (r : Record) (s : State) : ∃ w g, evtWrite r s = { s with out := s.out ++ w, hre := hreEvents s.hre g } := by
  unfold evtWrite
  obtain ⟨w, hw⟩ := hostWrite_update (ringAddr s 2 s.hre.evtProd) (wordsBytes (r.words ++ [r.round, halves s.hre.evtGap 0])) s
  rw [hw]
  dsimp only
  split
  · exact ⟨w, (vecFire 1 { s with hre := { s.hre with evtProd := s.hre.evtProd + 1, evtGap := 0 } }).hre, rfl⟩
  · obtain ⟨g, hg⟩ := vecItem_update 1 { s with out := s.out ++ w, hre := { s.hre with evtProd := s.hre.evtProd + 1, evtGap := 0 } }
    exact ⟨w, { hreItems s.hre g with evtProd := s.hre.evtProd + 1, evtGap := 0 }, hg⟩

theorem postEvt_update (r : Record) (s : State) : ∃ w g, postEvt r s = { s with out := s.out ++ w, hre := hreEvents s.hre g } := by
  have hstays : ∃ w g, s = { s with out := s.out ++ w, hre := hreEvents s.hre g } := ⟨[], s.hre, by rw [List.append_nil]; rfl⟩
  have hmiss : ∃ w g, evtMiss s = { s with out := s.out ++ w, hre := hreEvents s.hre g } := ⟨[], (evtMiss s).hre, by rw [List.append_nil]; rfl⟩
  unfold postEvt
  split
  · exact hstays
  split
  · split
    · exact evtWrite_update r s
    · exact hmiss
  split
  · exact ⟨[], { s.hre with evtHold := s.hre.evtHold ++ [r] }, by rw [List.append_nil]; rfl⟩
  · exact hmiss

/-- What keeping and posting records may change: the recorder's place and its waiting page writes, the EVT ring, what left the part. -/
structure RecordsKept (s u : State) : Prop where
  update : ∃ w g n q a c, u = { s with out := s.out ++ w, hre := hreEvents s.hre g, pst := { s.pst with commits := c },
                                       erc := { s.erc with w := n, queued := q, archSlot := a } }

theorem RecordsKept.refl (s : State) : RecordsKept s s :=
  ⟨[], s.hre, s.erc.w, s.erc.queued, s.erc.archSlot, s.pst.commits, by rw [List.append_nil]; rfl⟩

theorem RecordsKept.trans {s t u : State} (h : RecordsKept s t) (k : RecordsKept t u) : RecordsKept s u := by
  obtain ⟨w, g, n, q, a, c, ht⟩ := h
  obtain ⟨w', g', n', q', a', c', hu⟩ := k
  exact ⟨w ++ w', g', n', q', a', c', by rw [hu, ht, List.append_assoc]; rfl⟩

theorem keepRecord_kept (r : Record) (s : State) : RecordsKept s (keepRecord r s) := by
  unfold keepRecord
  split
  · exact .refl s
  · exact ⟨[], s.hre, _, _, _, _, by rw [List.append_nil]; rfl⟩

theorem postEvt_kept (r : Record) (s : State) : RecordsKept s (postEvt r s) := by
  obtain ⟨w, g, h⟩ := postEvt_update r s
  exact ⟨w, g, s.erc.w, s.erc.queued, s.erc.archSlot, s.pst.commits, h⟩

theorem keepPost_kept (r : Record) (s : State) : RecordsKept s (keepPost r s) := (keepRecord_kept r s).trans (postEvt_kept r _)

/-- Posting leaves the recorder and the store. -/
theorem keepPost_erc (r : Record) (s : State) : (keepPost r s).erc = (keepRecord r s).erc ∧ (keepPost r s).pst = (keepRecord r s).pst := by
  obtain ⟨w, g, h⟩ := postEvt_update r (keepRecord r s)
  unfold keepPost
  rw [h]
  exact ⟨rfl, rfl⟩

/-- The end of a freeze: nothing is pending, and its records are kept. -/
theorem releaseFreeze_kept (s : State) :
    RecordsKept { s with erc := { s.erc with frozen := false, pending := [] } } (releaseFreeze s) := by
  have hfold : ∀ (l : List Record) (s : State), RecordsKept s (l.foldl (fun s r => keepPost (markHeld r) s) s) := fun l => by
    induction l with
    | nil => exact .refl
    | cons r l ih => exact fun s => (keepPost_kept (markHeld r) s).trans (ih _)
  exact hfold _ _

/-! ## Events and operating seconds (R420, R429) -/

/-- The triggers of the regions at an event's taking change the regions alone. -/
theorem takeEvent_routes {e : EvIn} {s : State} (hroom : s.erc.queued < 1024) (hdrop : s.erc.dropPending = 0) :
    ∃ v, takeEvent e s = routeRecord (formRecord s e) v ∧ ∃ h, v = { s with hsc := h } := by
  have hflush : flushDropped s = s := if_pos hdrop
  unfold takeEvent
  dsimp only
  rw [hflush, if_neg (by omega), if_neg (by omega)]
  exact ⟨_, rfl, _, rfl⟩

/-- A record below the keeping level leaves the recorder; one at or above it goes to the next circulating slot (R430). -/
theorem keepRecord_low {r : Record} {s : State} (h : r.sev < regF s 0x10000 3 0) : keepRecord r s = s := if_pos h

theorem keepRecord_kept_slot {r : Record} {s : State} (h : regF s 0x10000 3 0 ≤ r.sev) :
    (keepRecord r s).erc.w = s.erc.w + 1 ∧ (keepRecord r s).erc.queued = s.erc.queued + 1
      ∧ { prio := 4, words := [(circBase + 8 * (s.erc.w % 15872) + 7, 0)], wrote := false,
          page := (circBase + 8 * (s.erc.w % 15872)) / 64, tag := .recErase } ∈ (keepRecord r s).pst.commits := by
  unfold keepRecord
  rw [if_neg (by omega)]
  refine ⟨rfl, rfl, ?_⟩
  refine List.mem_append_left _ (List.mem_append_right _ ?_)
  exact List.mem_cons_self ..

/-- A formed record changes nothing outside the recorder, the EVT ring and the page writes that wait (R429, R433). -/
theorem routeRecord_frame (r : Record) (s : State) :
    ∃ w h c n q a f p, routeRecord r s = { s with out := w, hre := h, pst := { s.pst with commits := c },
                                                  erc := { s.erc with w := n, queued := q, archSlot := a, frozen := f, pending := p } } := by
  unfold routeRecord
  split
  · split
    · exact ⟨s.out, s.hre, s.pst.commits, s.erc.w, s.erc.queued, s.erc.archSlot, s.erc.frozen, _, rfl⟩
    · obtain ⟨w, g, n, q, a, c, h⟩ := (releaseFreeze_kept s).trans (keepPost_kept r _)
      exact ⟨_, _, c, n, q, a, false, [], h⟩
  · obtain ⟨w, g, n, q, a, c, h⟩ := keepPost_kept r s
    exact ⟨_, _, c, n, q, a, s.erc.frozen, s.erc.pending, h⟩

/-- The operating seconds' page write joins those that wait (R420). -/
theorem commitSeconds_update (s : State) : commitSeconds s = { s with pst := { s.pst with
    opCommits := s.pst.opCommits + 1,
    commits := s.pst.commits ++ [{ prio := 5, words := [(64 * (s.pst.opCommits % 16) + 63, w32 s.pst.opSeconds)], wrote := false,
                                   page := s.pst.opCommits % 16, tag := .opsec }] } } := by
  have hpage : (64 * (s.pst.opCommits % 16) + 63) / 64 = s.pst.opCommits % 16 := by omega
  unfold commitSeconds addCommit
  dsimp only
  rw [hpage]

/-- Settles O9: an event by the freeze and its severity, a second by its place in its period. -/
theorem eventsAndSecondsAreKept : Obligations.EventsAndSecondsAreKept := by
  unfold Obligations.EventsAndSecondsAreKept
  refine ⟨?event, ?second⟩
  case event =>
    intro t e r s hup hin hroom hdrop
    have hexec : exec (.eventTake t) s = settle (takeEvent e { atTime t s with erc := { s.erc with inbox := r } }) := by
      show execEventTake t s = _
      unfold execEventTake
      dsimp only
      rw [if_neg (by rw [show aonUp (atTime t s) = true from hup]; decide), atTime_erc, hin]
    obtain ⟨v, htake, h, hv⟩ := takeEvent_routes (e := e) (s := { atTime t s with erc := { s.erc with inbox := r } }) hroom hdrop
    have hlevel : regF v 0x10000 3 0 = regF s 0x10000 3 0 := by rw [hv]; rfl
    have hthawed := fun hf : s.erc.frozen = false => show routeRecord (formRecord { atTime t s with erc := { s.erc with inbox := r } } e) v
      = keepPost (formRecord { atTime t s with erc := { s.erc with inbox := r } } e) v from if_neg (by rw [hv]; exact Bool.eq_false_iff.1 hf)
    generalize hrec : formRecord { atTime t s with erc := { s.erc with inbox := r } } e = rec at htake hthawed
    have hsev : rec.sev = severity e.code := by rw [← hrec]; rfl
    refine settles (hexec.trans (congrArg settle htake)) fun o g => ?_
    obtain ⟨w, h', c, n, q, a, f, p, hroute⟩ := routeRecord_frame rec v
    have hframe : (routeRecord rec v).erc.inbox = r ∧ (routeRecord rec v).pst.words = s.pst.words ∧ (routeRecord rec v).sec = s.sec
        ∧ (routeRecord rec v).bsc = s.bsc ∧ (routeRecord rec v).stg = s.stg := by
      rw [hroute, hv]; exact ⟨rfl, rfl, rfl, rfl, rfl⟩
    obtain ⟨f1, f2, f3, f4, f5⟩ := hframe
    refine ⟨f1, f2, f3, f4, f5, fun hf hkeep => ?_, fun hf hlow => ?_, fun hf hpend => ?_⟩
    · obtain ⟨k1, k2⟩ := keepPost_erc rec v
      obtain ⟨h1, h2, h3⟩ := keepRecord_kept_slot (r := rec) (s := v) (by rw [hlevel, hsev]; exact hkeep)
      dsimp only
      rw [hthawed hf, k1, k2]
      rw [hv] at h1 h2 h3 ⊢
      exact ⟨h1, h2, h3⟩
    · obtain ⟨k1, k2⟩ := keepPost_erc rec v
      dsimp only
      rw [hthawed hf, k1, k2, keepRecord_low (by rw [hlevel, hsev]; exact hlow), hv]
      exact ⟨rfl, rfl⟩
    · have hfrozen : routeRecord rec v = { v with erc := { v.erc with pending := v.erc.pending ++ [rec] } } :=
        (if_pos (by rw [hv]; exact hf)).trans (if_pos (by rw [hv]; exact hpend))
      dsimp only
      rw [hfrozen, hv]
      exact ⟨rfl, List.length_append, rfl⟩
  case second =>
    intro t s hup hp n
    have hexec : exec (.operatingSecond t) s = settle (if n % 360 = 0 then commitSeconds { atTime t s with pst := { s.pst with opSeconds := n } }
        else { atTime t s with pst := { s.pst with opSeconds := n } }) := by
      refine if_neg ?_
      rw [show aonUp (atTime t s) = true from hup, atTime_bsc, beq_eq_false_iff_ne.2 hp]
      decide
    refine settles hexec fun o g => ⟨fun hn => ?_, fun hn => ?_⟩
    · rw [if_neg hn]; rfl
    · rw [if_pos hn, commitSeconds_update]; rfl

/-! ## The freeze of the recorder (R432, R433) -/

/-- The end of a freeze, where there is one. -/
theorem releaseIf_update (s : State) : ∃ w g n q a c p, (if s.erc.frozen then releaseFreeze s else s) =
    { s with out := s.out ++ w, hre := hreEvents s.hre g, pst := { s.pst with commits := c },
             erc := { s.erc with w := n, queued := q, archSlot := a, frozen := false, pending := p } } ∧ (s.erc.frozen = true → p = []) := by
  by_cases hf : s.erc.frozen = true
  · obtain ⟨w, g, n, q, a, c, h⟩ := releaseFreeze_kept s
    exact ⟨w, g, n, q, a, c, [], (if_pos hf).trans h, fun _ => rfl⟩
  · refine ⟨[], s.hre, s.erc.w, s.erc.queued, s.erc.archSlot, s.pst.commits, s.erc.pending, (if_neg hf).trans ?_, fun h => absurd h hf⟩
    rw [List.append_nil, ← Bool.eq_false_iff.2 hf]
    rfl

/-- Settles O10: freeze, release and timeout by whether the recorder is frozen; the read by its job. -/
theorem recorderFreezesAndReads : Obligations.RecorderFreezesAndReads := by
  unfold Obligations.RecorderFreezesAndReads
  refine ⟨⟨fun c s h hf => ?freeze, fun c s h hf => ?frozen, fun c s h => ?release, fun t s hf => ⟨fun hyoung => ?young, fun hold => ?old⟩⟩,
    fun c s h => ?read⟩
  case freeze =>
    exact (taken_classU h rfl).completes (v := { takeCmd c (atTime c.t s) with erc := { s.erc with frozen := true, frozenAt := c.t } })
      (if_neg (Bool.eq_false_iff.1 hf)) ⟨rfl, rfl, fun _ _ => rfl, rfl, rfl, rfl⟩ (.of_eq rfl) fun k o g g' => rfl
  case frozen =>
    exact (taken_classU h rfl).completes (v := takeCmd c (atTime c.t s)) (if_pos hf) (.refl _) (.of_eq rfl) fun k o g g' => rfl
  case release =>
    obtain ⟨w, g, n, q, a, k, p, hu, hp⟩ := releaseIf_update (takeCmd c (atTime c.t s))
    refine (taken_classU h rfl).completes (congrArg (finishNow c 0x4A stApplied (w32 s.erc.pending.length) 0) hu) ⟨rfl, rfl, fun _ _ => rfl, rfl, rfl, rfl⟩ ⟨rfl, rfl, rfl, rfl, rfl, rfl⟩
      fun _ _ _ _ => ⟨rfl, rfl, rfl, rfl, hp, rfl⟩
  case young =>
    refine settles (if_neg ?_) fun o g => rfl
    rw [Bool.and_eq_true, decide_eq_true_eq]
    exact fun ⟨_, h⟩ => absurd h (by rw [atTime_now, atTime_erc]; omega)
  case old =>
    obtain ⟨w, g, n, q, a, c, hu⟩ := releaseFreeze_kept (atTime t s)
    refine settles ((if_pos ?_).trans (congrArg settle hu)) fun o g => ⟨rfl, rfl, rfl, rfl⟩
    rw [Bool.and_eq_true, decide_eq_true_eq]
    exact ⟨hf, hold⟩
  case read =>
    exact (taken_classU h rfl).accepts rfl rfl fun o g => rfl

end Sys2Proof.Proofs
end

section
/-!
Proofs of the statements about the reference inputs and holdover (R47 to R49, R364, R439).
-/
namespace Sys2Proof.Proofs
open Sys2Proof.Machine Sys2Proof.Laws

/-! ## The choice of a reference (R47) -/

/-- The choice changes the selection and holdover, and what it records. -/
theorem refSettle_update (s : State) : ∃ q h a i, refSettle s =
    { s with refs := { s.refs with sel := q, holdover := h, holdAt := a }, erc := { s.erc with inbox := i } } := by
  unfold refSettle
  split
  · exact ⟨s.refs.sel, s.refs.holdover, s.refs.holdAt, s.erc.inbox, rfl⟩
  case _ r hr =>
    split
    · exact ⟨s.refs.sel, s.refs.holdover, s.refs.holdAt, s.erc.inbox, rfl⟩
    split
    · unfold switchTo
      rw [note_update]
      exact ⟨some (refOther r), s.refs.holdover, s.refs.holdAt, _, rfl⟩
    · rw [note_update]
      exact ⟨none, true, s.now, _, rfl⟩

theorem switchTo_update (r : RefIn) (b : Bool) (s : State) : ∃ i, switchTo r b s =
    { s with refs := { s.refs with sel := some r }, erc := { s.erc with inbox := i } } := ⟨_, note_update ..⟩

theorem refSettle_keeps {s : State} (h : ∀ q, s.refs.sel = some q → refAvail s q = true) : refSettle s = s := by
  unfold refSettle
  split
  · rfl
  case _ r hr => exact if_pos (h r hr)

theorem refSettle_switches {r : RefIn} {s : State} (hsel : s.refs.sel = some r) (h : refAvail s r = false) (ho : refAvail s (refOther r) = true) :
    (refSettle s).refs = { s.refs with sel := some (refOther r) } := by
  unfold refSettle switchTo
  rw [hsel]
  dsimp only
  rw [if_neg (by rw [h]; decide), if_pos ho, note_update]

theorem refSettle_holdover {r : RefIn} {s : State} (hsel : s.refs.sel = some r) (h : refAvail s r = false) (ho : refAvail s (refOther r) = false) :
    (refSettle s).refs = { s.refs with sel := none, holdover := true, holdAt := s.now } := by
  unfold refSettle
  rw [hsel]
  dsimp only
  rw [if_neg (by rw [h]; decide), if_neg (by rw [ho]; decide), note_update]

/-- No reference is available: the one selected, if any, is left for holdover. -/
theorem refSettle_none {s : State} (ha : s.refs.aAvail = false) (hb : s.refs.bAvail = false) (hsel : s.refs.sel ≠ none) :
    (refSettle s).refs = { s.refs with sel := none, holdover := true, holdAt := s.now } := by
  obtain ⟨r, hr⟩ := Option.ne_none_iff_exists'.1 hsel
  have hno : ∀ q, refAvail s q = false := fun q => by
    cases q with
    | a => exact ha
    | b => exact hb
    | pcie => rfl
  exact refSettle_holdover hr (hno r) (hno _)

/-! ## What is lost, returns or is measured -/

/-- An input lost: neither present nor available. -/
def inputLost (r : RefIn) (x : RefSt) : RefSt :=
  match r with
  | .a => { x with aPresent := false, aAvail := false }
  | .b => { x with bPresent := false, bAvail := false }
  | .pcie => { x with pcie := false }

/-- An input available: present too. -/
def inputBack (r : RefIn) (x : RefSt) : RefSt :=
  match r with
  | .a => { x with aPresent := true, aAvail := true }
  | .b => { x with bPresent := true, bAvail := true }
  | .pcie => { x with pcie := true, pcieFault := false }

theorem refLoss_settles (t : Int) {r : RefIn} (s : State) (hr : r ≠ .pcie) : ∃ i, exec (.refLoss t r) s =
    settle (refSettle { atTime t s with refs := inputLost r s.refs, erc := { s.erc with inbox := i } }) := by
  refine ⟨(note evRefFault .aon 0 (w32 (refNum r)) 0 0 (atTime t s)).erc.inbox, ?_⟩
  unfold exec execRefLoss
  dsimp only
  rw [note_update]
  cases r
  case a => rfl
  case b => rfl
  case pcie => exact absurd rfl hr

theorem refAvailable_settles (t : Int) {r : RefIn} (s : State) (hr : r ≠ .pcie) : ∃ x i, exec (.refAvailable t r) s =
      settle { atTime t s with refs := x, erc := { s.erc with inbox := i } }
    ∧ x.sel = s.refs.sel ∧ x.holdover = s.refs.holdover
    ∧ (∀ u : State, u.refs = x → refAvail u r = true ∧ refAvail u (refOther r) = refAvail s (refOther r)) := by
  unfold exec execRefAvailable
  dsimp only
  split
  case isTrue hmarked =>
    refine ⟨s.refs, s.erc.inbox, rfl, rfl, rfl, fun u hu => ?_⟩
    have hhas : refAvail s r = true := by
      cases r
      case a => simpa [refMarked, refAvail] using hmarked
      case b => simpa [refMarked, refAvail] using hmarked
      case pcie => exact absurd rfl hr
    unfold refAvail at hhas ⊢
    rw [hu]
    exact ⟨hhas, rfl⟩
  case isFalse =>
    rw [note_update]
    cases r
    case a => exact ⟨inputBack .a s.refs, _, rfl, rfl, rfl, fun u hu => by unfold refAvail; rw [hu]; exact ⟨rfl, rfl⟩⟩
    case b => exact ⟨inputBack .b s.refs, _, rfl, rfl, rfl, fun u hu => by unfold refAvail; rw [hu]; exact ⟨rfl, rfl⟩⟩
    case pcie => exact absurd rfl hr

/-- An available input found faulty is available no more. -/
theorem refFaulty_a (f : Bool) (s : State) : ∃ i, (if (f && s.refs.aAvail) = true then refFaulty .a s else s) =
    { s with refs := { s.refs with aAvail := s.refs.aAvail && !f }, erc := { s.erc with inbox := i } } := by
  unfold refFaulty refMark
  rw [note_update]
  cases f
  case false => exact ⟨s.erc.inbox, by rw [if_neg (by simp), Bool.not_false, Bool.and_true]⟩
  case true =>
    by_cases h : s.refs.aAvail = true
    · exact ⟨_, (if_pos h).trans (by rw [Bool.not_true, Bool.and_false])⟩
    · exact ⟨s.erc.inbox, (if_neg h).trans (by rw [Bool.not_true, Bool.and_false, ← Bool.not_eq_true _ |>.mp h])⟩

theorem refFaulty_b (f : Bool) (s : State) : ∃ i, (if (f && s.refs.bAvail) = true then refFaulty .b s else s) =
    { s with refs := { s.refs with bAvail := s.refs.bAvail && !f }, erc := { s.erc with inbox := i } } := by
  unfold refFaulty refMark
  rw [note_update]
  cases f
  case false => exact ⟨s.erc.inbox, by rw [if_neg (by simp), Bool.not_false, Bool.and_true]⟩
  case true =>
    by_cases h : s.refs.bAvail = true
    · exact ⟨_, (if_pos h).trans (by rw [Bool.not_true, Bool.and_false])⟩
    · exact ⟨s.erc.inbox, (if_neg h).trans (by rw [Bool.not_true, Bool.and_false, ← Bool.not_eq_true _ |>.mp h])⟩

theorem refFaulty_pcie (f : Bool) (s : State) : ∃ p i, (if (f && !s.refs.pcieFault) = true then refFaulty .pcie s else s) =
    { s with refs := { s.refs with pcieFault := p }, erc := { s.erc with inbox := i } } := by
  unfold refFaulty refMark
  rw [note_update]
  split
  · exact ⟨true, _, rfl⟩
  · exact ⟨s.refs.pcieFault, s.erc.inbox, rfl⟩

/-- Every input was present by the end of a window (R47). -/
def windowAll (a b p : RefMeas) (x : RefSt) : Bool := (x.aPresent || a.present) && (x.bPresent || b.present) && (x.pcie || p.present)

/-- A and B disagree, with no PCIe reference to say which one is off (R47). -/
def windowDisagree (a b p : RefMeas) (x : RefSt) : Bool :=
  (x.aPresent || a.present) && (x.bPresent || b.present) && !(x.pcie || p.present) && offBy a.diff

/-- The inputs after a window of 1 ms (R47), A faulty when fa, B when fb, with the PCIe reference's fault pf. -/
def windowRefs (a b p : RefMeas) (fa fb pf : Bool) (x : RefSt) : RefSt :=
  { x with aPresent := x.aPresent || a.present, bPresent := x.bPresent || b.present, pcie := x.pcie || p.present,
           disagree := windowDisagree a b p x, aAvail := x.aAvail && !fa, bAvail := x.bAvail && !fb, pcieFault := pf }

theorem refMonitorWindow_settles (t : Int) (a b p : RefMeas) (s : State) :
    ∃ pf i, exec (.refMonitorWindow t a b p) s = settle (refSettle { atTime t s with
      refs := windowRefs a b p (windowAll a b p s.refs && offBy a.diff && offBy p.diff) (windowAll a b p s.refs && offBy a.diff && offBy b.diff) pf s.refs,
      erc := { s.erc with inbox := i } }) := by
  have hdis : ∀ (d : Bool) (u : State), ∃ i, (if (d && !u.refs.disagree) = true then
        note evRefDisagree .aon 0 (w32i (if a.diff < 0 then -a.diff else a.diff)) 0 0 u else u) = { u with erc := { u.erc with inbox := i } } := fun d u => by
    rw [note_update]
    split
    · exact ⟨_, rfl⟩
    · exact ⟨u.erc.inbox, rfl⟩
  generalize hr : exec (.refMonitorWindow t a b p) s = r
  replace hr : execRefMonitorWindow t a b p s = r := hr
  unfold execRefMonitorWindow at hr
  extract_lets s0 _ s1 ab bp ap all fa fb fp dis s2 _ s3 s4 s5 s6 at hr
  obtain ⟨i2, h2⟩ := hdis dis s1
  have h2 : s2 = _ := h2
  obtain ⟨i4, h4⟩ := refFaulty_a fa s3
  have h4 : s4 = _ := h4
  obtain ⟨i5, h5⟩ := refFaulty_b fb s4
  have h5 : s5 = _ := h5
  obtain ⟨pf, i6, h6⟩ := refFaulty_pcie fp s5
  have h6 : s6 = _ := h6
  refine ⟨pf, i6, hr.symm.trans (congrArg (fun u => settle (refSettle u)) ?_)⟩
  have h3 : s3 = { s2 with refs := { s2.refs with disagree := dis } } := rfl
  rw [h6, h5, h4, h3, h2]
  rfl

theorem offBy_iff (d : Int) : offBy d = true ↔ (1000 < d ∨ d < -1000) := by
  unfold offBy
  simp only [Bool.or_eq_true, decide_eq_true_eq, gt_iff_lt]

/-- Settles O15. -/
theorem referencesAreSelectedAndLost : Obligations.ReferencesAreSelectedAndLost := by
  unfold Obligations.ReferencesAreSelectedAndLost
  refine ⟨?inputs, ?select⟩
  case inputs =>
    intro t s only
    refine ⟨?loss, ?available, ?choice, ?noChoice, ?window⟩
    case loss =>
      intro r hr
      obtain ⟨i, hexec⟩ := refLoss_settles t s hr
      generalize hx : ({ atTime t s with refs := inputLost r s.refs, erc := { s.erc with inbox := i } } : State) = x at hexec
      have hsel : x.refs.sel = s.refs.sel := by rw [← hx]; cases r <;> rfl
      have hhold : x.refs.holdover = s.refs.holdover := by rw [← hx]; cases r <;> rfl
      have hlost : refAvail x r = false := by rw [← hx]; cases r <;> rfl
      have hother : refAvail x (refOther r) = refAvail s (refOther r) := by rw [← hx]; cases r <;> rfl
      have hothers : ∀ q, q ≠ r → refAvail x q = refAvail s q := fun q hq => by
        rw [← hx]
        revert hq
        cases r <;> cases q <;> simp [refAvail, inputLost]
      have hsettled : ∀ q, refAvail (refSettle x) q = refAvail x q := fun q => by
        obtain ⟨_, _, _, _, h⟩ := refSettle_update x
        rw [h]; cases q <;> rfl
      refine settles hexec fun o g => ⟨?_, (hsettled r).trans hlost, ?_, ?_, ?_, (hsettled _).trans hother⟩
      · obtain ⟨_, _, _, _, h⟩ := refSettle_update x
        rw [h, ← hx]
        rfl
      · intro h hav
        have := refSettle_switches (hsel.trans h) hlost (hother.trans hav)
        exact ⟨congrArg RefSt.sel this, (congrArg RefSt.holdover this).trans hhold⟩
      · intro h hav
        have := refSettle_holdover (hsel.trans h) hlost (hother.trans hav)
        exact ⟨congrArg RefSt.sel this, congrArg RefSt.holdover this, (congrArg RefSt.holdAt this).trans (by rw [← hx]; rfl)⟩
      · intro h hav
        have hkeeps : refSettle x = x := refSettle_keeps fun q hq => by
          have hq' := hsel.symm.trans hq
          exact (hothers q (fun e => h (e ▸ hq'))).trans (hav q hq')
        rw [hkeeps]
        exact ⟨hsel, hhold⟩
    case available =>
      intro r hr
      obtain ⟨x, i, hexec, hsel, hhold, hav⟩ := refAvailable_settles t s hr
      exact settles hexec fun o g => ⟨rfl, (hav _ rfl).1, hsel, hhold, (hav _ rfl).2⟩
    case choice =>
      intro r hr hnone
      have hexec : exec (.referenceSelect t (some r)) s = settle { atTime t s with refs := { inputBack r s.refs with sel := some r } } := by
        unfold exec execReferenceSelect
        dsimp only
        rw [show (atTime t s).refs.sel = none from hnone]
        cases r
        case a => rfl
        case b => rfl
        case pcie => exact absurd rfl hr
      refine settles hexec fun o g => ⟨rfl, rfl, rfl, ?_⟩
      cases r
      case a => rfl
      case b => rfl
      case pcie => exact absurd rfl hr
    case noChoice =>
      have hexec : exec (.referenceSelect t none) s = settle (atTime t s) := rfl
      exact settles hexec fun o g => rfl
    case window =>
      intro a b p off two
      obtain ⟨pf, i, hexec⟩ := refMonitorWindow_settles t a b p s
      have hoff : ∀ d, off d → offBy d = true := fun d => (offBy_iff d).2
      generalize hfa : (windowAll a b p s.refs && offBy a.diff && offBy p.diff) = fa at hexec
      generalize hfb : (windowAll a b p s.refs && offBy a.diff && offBy b.diff) = fb at hexec
      have hall : two → (s.refs.pcie || p.present) = true → windowAll a b p s.refs = true := fun h hp => by
        unfold windowAll; rw [h.1, h.2, hp]; rfl
      generalize hx : ({ atTime t s with refs := windowRefs a b p fa fb pf s.refs, erc := { s.erc with inbox := i } } : State) = x at hexec
      obtain ⟨q, h, at', j, hupdate⟩ := refSettle_update x
      refine settles hexec fun o g => ⟨?_, ?_, ?_, ?_⟩
      · rw [hupdate, ← hx]
        rfl
      · intro htwo hp
        have hno : windowAll a b p s.refs = false := by unfold windowAll; rw [hp, Bool.and_false]
        refine ⟨?_, fun hav => ?_⟩
        · have hd : (refSettle x).refs.disagree = windowDisagree a b p s.refs := by rw [hupdate, ← hx]; rfl
          refine (Bool.eq_iff_iff.1 hd).trans ?_
          unfold windowDisagree
          rw [htwo.1, htwo.2, hp]
          exact offBy_iff _
        · have hfa' : fa = false := by rw [← hfa, hno]; rfl
          have hfb' : fb = false := by rw [← hfb, hno]; rfl
          have hkeeps : refSettle x = x := refSettle_keeps fun q hq => by
            have hq' : s.refs.sel = some q := by rw [← hx] at hq; exact hq
            have := hav q hq'
            rw [← hx, hfa', hfb']
            cases q
            case a => exact (Bool.and_true _).trans this
            case b => exact (Bool.and_true _).trans this
            case pcie => exact this
          rw [hkeeps, ← hx]
          rfl
      · intro htwo hp ha hpd
        have hf : fa = true := by rw [← hfa, hall htwo hp, hoff _ ha, hoff _ hpd]; rfl
        rw [hupdate, ← hx, hf]
        exact Bool.and_false _
      · intro htwo hp ha hpd hb hsel
        have hf : fa = true := by rw [← hfa, hall htwo hp, hoff _ ha, hoff _ hpd]; rfl
        have hf' : fb = true := by rw [← hfb, hall htwo hp, hoff _ ha, hoff _ hb]; rfl
        have hnone : (refSettle x).refs = _ := refSettle_none (by rw [← hx, hf]; exact Bool.and_false _) (by rw [← hx, hf']; exact Bool.and_false _)
          (by rw [← hx]; exact hsel)
        exact ⟨congrArg RefSt.sel hnone, congrArg RefSt.holdover hnone⟩
  case select =>
    intro c s hpass
    obtain ⟨x, hx, -⟩ := taken_of_passes hpass
    have hsel : x.refs = s.refs := by obtain ⟨_, _, _, _, _, h⟩ := hx.update; rw [h]
    have havail : ∀ q, refAvail x q = refAvail s q := fun q => by unfold refAvail; rw [hsel]
    refine ⟨fun r hr hav => ?_, fun hno => ?_⟩
    · obtain ⟨i, hi⟩ := switchTo_update (refOther r) true x
      refine hx.completes (v := switchTo (refOther r) true x) ?_ ?_ ?_ ?_
      · unfold effRefclkSelect
        rw [hsel, hr]
        exact if_pos ((havail _).trans hav)
      all_goals rw [hi]
      · exact ⟨rfl, rfl, fun _ _ => rfl, rfl, rfl, rfl⟩
      · exact ⟨rfl, rfl, rfl, rfl, rfl, rfl⟩
      · intro k o g g'
        obtain ⟨_, _, _, _, _, h⟩ := hx.update
        have hq := hx.reserve
        subst h
        exact with_reserve _ hq
    · refine hx.refuses ?_
      unfold effRefclkSelect
      rw [hsel]
      obtain h | ⟨r, hr, hav⟩ := hno
      · rw [h]
      · rw [hr]
        exact if_neg (by rw [havail, hav]; decide)

/-! ## Holdover (R49, R364) -/

/-- The end of a shot period lies on the port's own grid, the next of it after t (R49, R52). -/
theorem periodEnd_next {x : StgSt} {q : Plan} (t : Int) (h : x.plan = some q) (hts : 0 < q.ts) :
    (periodEnd x t - x.t0) % (q.ts : Int) = 0 ∧ t < periodEnd x t ∧ periodEnd x t ≤ t + q.ts := by
  have hval : periodEnd x t = x.t0 + ((t - x.t0) / (q.ts : Int) + 1) * (q.ts : Int) := by
    unfold periodEnd
    rw [h]
    exact if_neg (by omega)
  rw [hval, add_sub_cancel_left]
  have hpos : (0 : Int) < q.ts := by omega
  have hdiv := Int.emod_add_mul_ediv (t - x.t0) q.ts
  have hlow := Int.emod_nonneg (t - x.t0) (by omega : (q.ts : Int) ≠ 0)
  have hhigh := Int.emod_lt_of_pos (t - x.t0) hpos
  rw [add_mul, one_mul, mul_comm ((t - x.t0) / (q.ts : Int))]
  refine ⟨?_, by omega, by omega⟩
  rw [Int.add_emod_right]
  exact Int.mul_emod_right ..

/-- A running port stops at the end of its shot period once holdover has stood for 1 ms (R49). -/
def heldPort (t : Int) (x : StgSt) : StgSt := if x.run = 1 then { x with holdStop := some (periodEnd x t) } else x

theorem heldPort_run (t : Int) (x : StgSt) : (heldPort t x).run = x.run := by
  unfold heldPort; split <;> rfl

/-- A port as holdover leaves it: one that waits starts again at its next boundary, any other runs on (R49). -/
def resumedPort (t : Int) (x : StgSt) : StgSt :=
  match x.plan with
  | some q => if x.run = 2 then { x with start := some { id := 0, t0 := periodEnd x t, plan := q } } else { x with holdStop := none }
  | none => x

theorem resumedPort_run (t : Int) (x : StgSt) : (resumedPort t x).run = x.run := by
  unfold resumedPort
  split
  · split <;> rfl
  · rfl

theorem resumedPort_waits {x : StgSt} {q : Plan} (t : Int) (hq : x.plan = some q) (hrun : x.run = 2) :
    resumedPort t x = { x with start := some { id := 0, t0 := periodEnd x t, plan := q } } := by
  unfold resumedPort
  split
  case _ q' hq' => cases hq.symm.trans hq'; exact if_pos hrun
  case _ hno => exact absurd (hq.symm.trans hno) (by simp)

/-- A port's state changed by f. -/
def portMapped (f : StgSt → StgSt) (x : Two StgSt) : Two StgSt := (x.setPort .p0 (f (x.port .p0))).setPort .p1 (f (x.port .p1))

theorem portMapped_port (f : StgSt → StgSt) (x : Two StgSt) (p : Port) : (portMapped f x).port p = f (x.port p) := by
  cases p <;> rfl

theorem holdoverExpiry_settles {t : Int} {s : State} (h : s.refs.holdover = true) (hms : 1000000 ≤ t - s.refs.holdAt) :
    let v := { atTime t s with stg := portMapped (heldPort t) s.stg }
    exec (.holdoverExpiry t) s = settle (if ((s.stg.port .p0).run != 1 && (s.stg.port .p1).run != 1 &&
      (s.bsc.power == .service || s.bsc.power == .lean)) = true then setPower .holdover v else v) := by
  have hstop : ∀ (p : Port) (u : State), (if (u.stg.port p).run = 1 then mapStg p (fun x => { x with holdStop := some (periodEnd x u.now) }) u else u)
      = { u with stg := u.stg.setPort p (heldPort u.now (u.stg.port p)) } := fun p u => by
    unfold heldPort mapStg
    split
    · rfl
    · rw [setPort_port]
  intro v
  generalize hr : exec (.holdoverExpiry t) s = r
  replace hr : execHoldoverExpiry t s = r := hr
  unfold execHoldoverExpiry at hr
  extract_lets s0 stop s1 at hr
  have hs1 : s1 = v := by
    refine (hstop .p1 (stop .p0 s0)).trans ?_
    rw [show stop .p0 s0 = _ from hstop .p0 s0]
    rfl
  have hdue : (!s0.refs.holdover || decide (s0.now - s0.refs.holdAt < 1000000)) = false := by
    rw [show s0.refs.holdover = true from h]
    exact decide_eq_false (by exact not_lt.2 hms)
  have hrun : ∀ p, (v.stg.port p).run = (s.stg.port p).run := fun p => by
    show ((portMapped (heldPort t) s.stg).port p).run = _
    rw [portMapped_port, heldPort_run]
  rw [hdue, hs1, hrun, hrun] at hr
  rw [← hr, apply_ite settle]
  rfl

theorem refReturn_settles {t : Int} {r : RefIn} {s : State} (h : s.refs.holdover = true) (hr : r ≠ .pcie) :
    ∃ x i v, x.holdover = false ∧ x.sel = some r ∧ (∀ u : State, u.refs = x → refAvail u r = true)
      ∧ v = { atTime t s with refs := x, stg := portMapped (resumedPort t) s.stg, erc := { s.erc with inbox := i } }
      ∧ exec (.refReturn t r) s = settle (if ((s.stg.port .p0).run != 2 && (s.stg.port .p1).run != 2 && s.bsc.power == .holdover) = true then
          setPower (if leanCause s.bsc then .lean else .service) v else v) := by
  let x : RefSt := { s.refs with holdover := false, sel := some r,
                                 aPresent := s.refs.aPresent || r == .a, aAvail := s.refs.aAvail || r == .a,
                                 bPresent := s.refs.bPresent || r == .b, bAvail := s.refs.bAvail || r == .b }
  have hav : ∀ u : State, u.refs = x → refAvail u r = true := fun u hu => by
    unfold refAvail
    rw [hu]
    cases r
    case a => exact Bool.or_true _
    case b => exact Bool.or_true _
    case pcie => exact absurd rfl hr
  obtain ⟨i, hi⟩ : ∃ i, note evHoldover .aon 0 0 0 0 { atTime t s with refs := x } = { atTime t s with refs := x, erc := { s.erc with inbox := i } } :=
    ⟨_, note_update ..⟩
  let v : State := { atTime t s with refs := x, stg := portMapped (resumedPort t) s.stg, erc := { s.erc with inbox := i } }
  refine ⟨x, i, v, rfl, rfl, hav, rfl, ?_⟩
  have hagain : ∀ (p : Port) (u : State), (match (u.stg.port p).plan with
      | some q => if (u.stg.port p).run = 2 then mapStg p (fun y => { y with start := some { id := 0, t0 := periodEnd (u.stg.port p) u.now, plan := q } }) u
        else mapStg p (fun y => { y with holdStop := none }) u
      | none => u) = { u with stg := u.stg.setPort p (resumedPort u.now (u.stg.port p)) } := fun p u => by
    unfold resumedPort mapStg
    split
    · split <;> rfl
    · rw [setPort_port]
  generalize he : exec (.refReturn t r) s = e
  replace he : execRefReturn t r s = e := he
  unfold execRefReturn at he
  extract_lets s0 _ s1 s2 again s3 at he
  have hs3 : s3 = v := by
    refine (hagain .p1 (again .p0 s2)).trans ?_
    rw [show again .p0 s2 = _ from hagain .p0 s2, show s2 = _ from hi]
    rfl
  have hdue : (!s0.refs.holdover || r == .pcie) = false := by
    rw [show s0.refs.holdover = true from h]
    exact beq_eq_false_iff_ne.2 hr
  have hrun : ∀ p, (v.stg.port p).run = (s.stg.port p).run := fun p => by
    show ((portMapped (resumedPort t) s.stg).port p).run = _
    rw [portMapped_port, resumedPort_run]
  rw [hdue, hs3, hrun, hrun] at he
  rw [← he, apply_ite settle]
  rfl

/-- A change of power state where a condition holds. -/
theorem setPower_if_update (b : Bool) (p : PState) (s : State) : ∃ i, (if b = true then setPower p s else s) =
    { s with bsc := { s.bsc with power := if b then p else s.bsc.power }, erc := { s.erc with inbox := i } } := by
  cases b
  case false => exact ⟨s.erc.inbox, rfl⟩
  case true => exact ⟨_, setPower_frame p s⟩

/-- Settles O16. -/
theorem holdoverStopsAndRestartsPorts : Obligations.HoldoverStopsAndRestartsPorts := by
  unfold Obligations.HoldoverStopsAndRestartsPorts
  refine ⟨?expiry, ?return_⟩
  case expiry =>
    intro t s h hms
    have hexec := holdoverExpiry_settles h hms
    generalize hidle : ((s.stg.port .p0).run != 1 && (s.stg.port .p1).run != 1 && (s.bsc.power == .service || s.bsc.power == .lean)) = b at hexec
    obtain ⟨i, hi⟩ := setPower_if_update b .holdover { atTime t s with stg := portMapped (heldPort t) s.stg }
    refine settles (hexec.trans (congrArg settle hi)) fun o g => ⟨rfl, rfl, rfl, rfl, rfl, rfl, ?_, ?_, ?_, ?_⟩
    · intro p q hrun hq hts
      refine ⟨periodEnd (s.stg.port p) t, ?_, periodEnd_next t hq hts⟩
      exact (portMapped_port ..).trans (if_pos hrun)
    · intro p hrun
      exact (portMapped_port ..).trans (if_neg hrun)
    · intro h0 h1 hpow
      have hb : b = true := by
        rw [← hidle]
        simp only [Bool.and_eq_true, bne_iff_ne, Bool.or_eq_true, beq_iff_eq]
        exact ⟨⟨h0, h1⟩, hpow⟩
      exact if_pos hb
    · intro hrun
      have hb : b = false := by
        rw [← hidle]
        obtain e | e := hrun <;> rw [e] <;> simp
      rw [hb]
      rfl
  case return_ =>
    intro t r s h hr
    obtain ⟨x, i, v, hhold, hsel, hav, hv, hexec⟩ := refReturn_settles (t := t) h hr
    generalize hidle : ((s.stg.port .p0).run != 2 && (s.stg.port .p1).run != 2 && s.bsc.power == .holdover) = b at hexec
    obtain ⟨j, hj⟩ := setPower_if_update b (if leanCause s.bsc then .lean else .service) v
    subst hv
    refine settles (hexec.trans (congrArg settle hj)) fun o g => ⟨hhold, hsel, hav _ rfl, rfl, rfl, rfl, rfl, rfl, ?_, ?_⟩
    · intro p q hrun hq hts
      refine ⟨periodEnd (s.stg.port p) t, ?_, periodEnd_next t hq hts⟩
      exact (portMapped_port ..).trans (resumedPort_waits t hq hrun)
    · intro h0 h1 hpow
      have hb : b = true := by
        rw [← hidle]
        simp only [Bool.and_eq_true, bne_iff_ne, beq_iff_eq]
        exact ⟨⟨h0, h1⟩, hpow⟩
      exact if_pos hb

end Sys2Proof.Proofs
end

section
/-!
Proofs of the statements about the plans of the ports: their start and stop (R52), their changes (R53, R54, R92) and the shots (R41 to R45).
-/
namespace Sys2Proof.Proofs
open Sys2Proof.Machine Sys2Proof.Laws

/-! ## What a host command's examination leaves to read (R318, R416) -/

theorem filterMap_tdel {α β : Type} {f : Nat × α → Option β} {k : Nat} (h : ∀ v, f (k, v) = none) (t : Tab α) : (tdel k t).filterMap f = t.filterMap f := by
  induction t with
  | nil => rfl
  | cons e t ih =>
    obtain ⟨j, b⟩ := e
    unfold tdel
    split
    · subst_vars; rw [List.filterMap_cons, h]
    · rw [List.filterMap_cons, List.filterMap_cons, ih]

theorem filterMap_tins {α β : Type} {f : Nat × α → Option β} {k : Nat} (h : ∀ v, f (k, v) = none) (a : α) (t : Tab α) :
    (tins k a t).filterMap f = t.filterMap f := by
  induction t with
  | nil => unfold tins; rw [List.filterMap_cons, h]
  | cons e t ih =>
    obtain ⟨j, b⟩ := e
    unfold tins
    split
    · rw [List.filterMap_cons, h]
    split
    · subst_vars; rw [List.filterMap_cons, List.filterMap_cons, h, h]
    · rw [List.filterMap_cons, List.filterMap_cons, ih]

/-- What a table lists is changed by a write of a key that is not of the list. -/
theorem filterMap_tput {α β : Type} [DecidableEq α] {f : Nat × α → Option β} {k : Nat} (h : ∀ v, f (k, v) = none) (d a : α) (t : Tab α) :
    (tput d k a t).filterMap f = t.filterMap f := by
  unfold tput
  split
  · exact filterMap_tdel h t
  · exact filterMap_tins h a t

/-- Two states whose topology banks read the same. -/
structure SameBanks (s x : State) : Prop where
  active : activeBank x = activeBank s
  word : ∀ k w, bankWord x k w = bankWord s k w
  listed : ∀ k lo hi, bankListed x k lo hi = bankListed s k lo hi

theorem bankBase_ge (k : Bank) : 4096 ≤ bankBase k := by cases k <;> decide

theorem sameBanks_of_pst {s x : State} (h : x.pst = s.pst) : SameBanks s x := by
  constructor <;> intros <;> simp only [activeBank, bankWord, bankListed, h]

theorem cresPage_range (p : PstSt) : 64 * cresPage p + 63 < 4096 := by
  unfold cresPage; omega

/-- A commit of the reserve writes outside the banks (R413, R416). -/
theorem sameBanks_cresStored {s x : State} {v : Nat} (h : x.pst = cresStored v s.pst) : SameBanks s x := by
  have hword : ∀ a, 4096 ≤ a → nvmWord x.pst a = nvmWord s.pst a := fun a ha => by
    have hne : a ≠ 64 * cresPage s.pst + 63 := by have := cresPage_range s.pst; omega
    unfold nvmWord
    rw [h]
    exact congrArg (fun o => o.getD (nvmDelivered a)) (nvmWord?_nvmStore_ne _ s.pst hne)
  refine ⟨by rw [activeBank, h]; rfl, fun k w => ?_, fun k lo hi => ?_⟩
  · exact hword _ (by have := bankBase_ge k; omega)
  · have hlow := bankBase_ge k
    have hpage := cresPage_range s.pst
    unfold bankListed
    have hwords : x.pst.words = tput (nvmDelivered (64 * cresPage s.pst + 63)) (64 * cresPage s.pst + 63) (w32 v) s.pst.words := by rw [h]; rfl
    rw [hwords, filterMap_tput]
    · refine List.filterMap_congr fun e _ => ?_
      dsimp only
      split
      · rw [hword]
        simp only [Bool.and_eq_true, decide_eq_true_eq] at *
        omega
      · rfl
    · refine fun _ => if_neg ?_
      simp only [Bool.and_eq_true, decide_eq_true_eq]
      omega

theorem sameBanks_reserved {s x : State} {q : PstSt} (h : x.pst = reserved s.pst q) : SameBanks s x := by
  unfold reserved at h
  split at h
  · exact sameBanks_of_pst h
  · exact sameBanks_cresStored h

theorem Examined.banks {c : HostCmd} {s x : State} (h : Examined c s x) : SameBanks s x := sameBanks_reserved h.reserve.symm

theorem Examined.reg {c : HostCmd} {s x : State} (h : Examined c s x) (o : Nat) : reg x o = reg s o := h.same.reg o

theorem Examined.regF {c : HostCmd} {s x : State} (h : Examined c s x) (o hi lo : Nat) : regF x o hi lo = regF s o hi lo := by
  unfold Machine.regF; rw [h.reg]

theorem SameBanks.headsIn {s x : State} (h : SameBanks s x) (k : Bank) : headsIn x k = headsIn s k := by
  unfold Machine.headsIn
  simp only [h.listed, h.word]

theorem SameBanks.heads {s x : State} (h : SameBanks s x) : heads x = heads s := by
  unfold Machine.heads
  rw [h.active]
  simp only [h.headsIn]

section
variable {c : HostCmd} {s x : State} (h : Examined c s x)
include h

theorem Examined.stagedPlan (p : Port) : stagedPlan x p = stagedPlan s p := by
  have hwidth : stagedWidth x p = stagedWidth s p := funext fun j => by unfold Machine.stagedWidth; rw [h.reg]
  unfold Machine.stagedPlan stagedGauge stagedScale
  simp only [h.regF, h.reg, hwidth]

theorem Examined.portHeads (n : Nat) : portHeads x n = portHeads s n := by
  unfold Machine.portHeads; rw [h.banks.heads]

theorem Examined.zonesOk (p : Port) (q : Plan) (g : Nat) : zonesOk x p q g = zonesOk s p q g := by
  unfold Machine.zonesOk; rw [h.portHeads]

theorem Examined.planOk (p : Port) (q : Plan) : planOk x p q = planOk s p q := by
  unfold Machine.planOk loopOk topoMode rateOk
  simp only [h.regF, h.zonesOk, h.portHeads]

theorem Examined.planFloor (p : Port) (q : Plan) : planFloor x p q = planFloor s p q := by
  unfold Machine.planFloor headBins
  rw [h.portHeads]

end

/-- What a command leaves that settles on a state. -/
theorem settled {r : Host.Outcome State Fault Refusal} {v : State} (h : r = settle v) :
    ∃ u o g, r = .next u ∧ u = { v with out := v.out ++ o, hre := hreShown v.hre g } := by
  obtain ⟨o, g, hpub⟩ := publish_update v
  exact ⟨_, o, g, h, hpub⟩

/-! ## Floors (R368, R372) -/

theorem holdFloor_dom (d : Dom) (f : Nat) (s : State) : ∃ m k, holdFloor d f s = { s with dom := m, ctr := k }
    ∧ (m.get d).floor = (s.dom.get d).floor ∧ ∀ e, e ≠ d → m.get e = s.dom.get e := by
  unfold holdFloor orderBand
  dsimp only
  split
  · split
    · split
      · exact ⟨s.dom, s.ctr, rfl, rfl, fun _ _ => rfl⟩
      · refine ⟨_, _, rfl, ?_, fun _ he => get_put_ne _ _ he⟩
        show ((s.dom.put d _).get d).floor = _
        rw [get_put]
    · refine ⟨_, s.ctr, rfl, ?_, fun _ he => get_put_ne _ _ he⟩
      rw [get_put]
  · exact ⟨s.dom, s.ctr, rfl, rfl, fun _ _ => rfl⟩

/-- A floor that rises ahead of a change is in force at once, and no other domain's changes. -/
theorem raiseFloor_dom (d : Dom) (f : Nat) (s : State) : ∃ m k, raiseFloor d f s = { s with dom := m, ctr := k }
    ∧ f ≤ (m.get d).floor ∧ ∀ e, e ≠ d → m.get e = s.dom.get e := by
  obtain ⟨m, k, h, hfloor, hother⟩ := holdFloor_dom d f (mapDom d (fun x => { x with floor := max x.floor f }) s)
  refine ⟨m, k, h, ?_, fun e he => (hother e he).trans (get_put_ne _ _ he)⟩
  rw [hfloor, mapDom_dom, get_put]
  exact Nat.le_max_right ..

/-! ## Requests completed one after another (R52, R55) -/

theorem finishes_update (ids : List Nat) (st : Nat) (r0 r1 : Word) (s : State) :
    ∃ k i w g, ids.foldl (fun s i => finish i st r0 r1 s) s =
      { s with ctr := k, erc := { s.erc with inbox := i }, out := s.out ++ w, hre := { hreTold s.hre g with out := g.out } } := by
  induction ids generalizing s with
  | nil => exact ⟨s.ctr, s.erc.inbox, [], s.hre, by rw [List.append_nil]; rfl⟩
  | cons id ids ih =>
    obtain ⟨k, i, w, g, h⟩ := finish_update id st r0 r1 s
    obtain ⟨k', i', w', g', h'⟩ := ih { s with ctr := k, erc := { s.erc with inbox := i }, out := s.out ++ w,
                                               hre := { hreTold s.hre g with out := s.hre.out.filter (fun o => o.id != id) } }
    refine ⟨k', i', w ++ w', g', ?_⟩
    rw [List.foldl_cons, h, h', List.append_assoc]
    rfl

theorem cancelRequests_update (p : Port) (s : State) : ∃ k i w g, cancelRequests p s =
    { s with ctr := k, erc := { s.erc with inbox := i }, out := s.out ++ w, hre := { hreTold s.hre g with out := g.out },
             stg := s.stg.setPort p { s.stg.port p with apply := none, retunes := [], gauge := none } } :=
  finishes_update ..

/-- A port of which f is said, its other requests cancelled. -/
theorem cancelMapped_update (p : Port) (f : StgSt → StgSt) (s : State) : ∃ k i w g, cancelRequests p (mapStg p f s) =
    { s with ctr := k, erc := { s.erc with inbox := i }, out := s.out ++ w, hre := { hreTold s.hre g with out := g.out },
             stg := s.stg.setPort p { f (s.stg.port p) with apply := none, retunes := [], gauge := none } } := by
  obtain ⟨k, i, w, g, h⟩ := cancelRequests_update p (mapStg p f s)
  refine ⟨k, i, w, g, h.trans ?_⟩
  unfold mapStg
  dsimp only
  rw [port_setPort, setPort_setPort]

/-! ## The start and stop of a port (R52) -/

theorem grid10_next (t : Int) : grid10 t % 10 = 0 ∧ t ≤ grid10 t ∧ grid10 t < t + 10 := by
  unfold grid10 cdiv; omega

theorem effPortStart_starts {c : HostCmd} {v : State} {t0 : Int} (hstop : (v.stg.port (argPort c)).stop = none) (hrun : (v.stg.port (argPort c)).run = 0)
    (hstart : (v.stg.port (argPort c)).start = none) (hbase : bitOf c.a0 8 = true ∨ bitOf c.a0 9 ≠ v.net.joined) (hsel : v.refs.sel ≠ none)
    (hact : active v (argPort c).dom = true) (ht : (if bitOf c.a0 8 then grid10 (v.now + 20000) else (argA12 c : Int)) = t0) (ht0 : v.now ≤ t0)
    (hok : planOk v (argPort c) (stagedPlan v (argPort c)) = true) :
    effPortStart c v = raiseFloor (argPort c).dom (planFloor v (argPort c) (stagedPlan v (argPort c)))
      (mapStg (argPort c) (fun y => { y with start := some { id := newId v, t0 := t0, plan := stagedPlan v (argPort c) } }) (accept c 0x10 v)) := by
  have hsel' : v.refs.sel.isNone = false := by rw [Option.isNone_eq_false_iff, Option.isSome_iff_ne_none]; exact hsel
  have hbase' : (!bitOf c.a0 8 && bitOf c.a0 9 == v.net.joined) = false := by
    obtain h | h := hbase
    · rw [h]; rfl
    · rw [beq_eq_false_iff_ne.2 h, Bool.and_false]
  unfold effPortStart
  dsimp only
  rw [ht, hstop, hrun, hstart, hsel', hbase', hact, hok, if_neg (by decide), if_neg (by decide), if_neg (by omega), if_neg (by decide)]

/-- A port that is to stop at the end of its shot period, or at once while it waits for its restart (R52, R55). -/
def stopAsked (id : Nat) (t : Int) (x : StgSt) : StgSt := { x with start := none, stop := some (id, if x.run = 1 then periodEnd x t else t) }

theorem effPortStop_stops {c : HostCmd} {v : State} (hstop : (v.stg.port (argPort c)).stop = none)
    (h : (v.stg.port (argPort c)).start = none ∧ (v.stg.port (argPort c)).run ≠ 0 ∨ (v.stg.port (argPort c)).run = 2) :
    effPortStop c v = cancelRequests (argPort c) (mapStg (argPort c) (stopAsked (newId v) v.now) (accept c 0x11 v)) := by
  unfold effPortStop
  dsimp only
  rw [hstop]
  cases hstart : (v.stg.port (argPort c)).start with
  | none =>
    have hrun : (v.stg.port (argPort c)).run ≠ 0 := by obtain h | h := h; exacts [h.2, by omega]
    have hnone : v.stg.port (argPort c) = { v.stg.port (argPort c) with start := none } := by rw [← hstart]
    let stopped := fun y : StgSt => { y with stop := some (newId v, if y.run = 1 then periodEnd y v.now else v.now) }
    exact (if_neg hrun).trans (congrArg (fun y => cancelRequests (argPort c)
      { accept c 0x11 v with stg := v.stg.setPort (argPort c) (stopped y) }) hnone)
  | some r =>
    have hrun : (v.stg.port (argPort c)).run = 2 := by
      obtain h | h := h
      · rw [hstart] at h; exact absurd h.1 (by simp)
      · exact h
    refine (if_pos hrun).trans ?_
    unfold mapStg stopAsked
    dsimp only
    rw [show (accept c 17 v).stg = v.stg from rfl, if_neg (by omega)]

theorem effPortStop_pending {c : HostCmd} {v : State} {r : StartReq} (hstop : (v.stg.port (argPort c)).stop = none)
    (hstart : (v.stg.port (argPort c)).start = some r) (hrun : (v.stg.port (argPort c)).run ≠ 2) : effPortStop c v =
      finishNow c 0x11 stApplied 0xFFFFFFFF 0xFFFFFFFF (setFloor (argPort c).dom (portFloor v (argPort c))
        (finish r.id stCancelled 0 0 (mapStg (argPort c) (fun x => { x with start := none }) v))) := by
  unfold effPortStop
  dsimp only
  rw [hstop, hstart]
  exact if_neg hrun

theorem setPort_own {α : Type} {t u : Two α} {p : Port} {y : α} (h : u = t.setPort p y) : u = t.setPort p (u.port p) := by
  rw [h, port_setPort]

theorem find_filtered (l : List OutCmd) (id : Nat) : (l.filter (fun o => o.id != id)).find? (fun o => o.id == id) = none := by
  rw [List.find?_eq_none]
  intro o ho
  simpa using (List.mem_filter.1 ho).2

/-- Settles O11. -/
theorem portsStartAndStopWithTheirPlan : Obligations.PortsStartAndStopWithTheirPlan := by
  unfold Obligations.PortsStartAndStopWithTheirPlan
  refine ⟨?start, ?stop⟩
  case start =>
    intro c s hpass p x t0
    obtain ⟨v, hv, -⟩ := taken_of_passes hpass
    have hplan := hv.stagedPlan p
    have hok := hv.planOk p (stagedPlan s p)
    have hfloor := hv.planFloor p (stagedPlan s p)
    have hq := hv.reserve
    obtain ⟨k, n, i, l, q, hv'⟩ := hv.update
    refine ⟨fun hstop hrun hstart hbase hsel hact ht0 hplanOk => ?_, fun hstop => ?_⟩
    · have heff := effPortStart_starts (c := c) (v := v) (t0 := t0) (by rw [hv']; exact hstop) (by rw [hv']; exact hrun) (by rw [hv']; exact hstart)
        (by rw [hv']; exact hbase) (by rw [hv']; exact hsel) (by rw [hv']; exact hact) (by rw [hv']) (by rw [hv']; exact ht0)
        (by rw [hplan]; exact hok.trans hplanOk)
      rw [hplan, hfloor] at heff
      obtain ⟨m, k', hraise, hraised, hothers⟩ := raiseFloor_dom p.dom (planFloor s p (stagedPlan s p))
        (mapStg p (fun y => { y with start := some { id := newId v, t0 := t0, plan := stagedPlan s p } }) (accept c 0x10 v))
      refine hv.accepts (heff.trans hraise) rfl fun o g => ⟨fun himm => ?_, hraised, ?_, ?_⟩
      · have hgrid : t0 = grid10 (c.t + 20000) := if_pos himm
        have := grid10_next (c.t + 20000)
        rw [hgrid]
        omega
      · subst hv'
        exact hothers
      · subst hv'
        exact with_reserve _ hq
    · refine hv.refuses ?_
      unfold effPortStart
      refine if_pos ?_
      rw [hv']
      exact Option.isSome_iff_ne_none.2 hstop
  case stop =>
    intro c s hpass p x
    obtain ⟨v, hv, -⟩ := taken_of_passes hpass
    have hq := hv.reserve
    obtain ⟨k, n, i, l, q, hv'⟩ := hv.update
    refine ⟨fun hstop hstart hrun r hr hts => ?_, fun r hstop hstart hrun => ?_, fun hstop hrun => ?_, fun hstop hstart hrun => ?_⟩
    · have heff := effPortStop_stops (c := c) (v := v) (by rw [hv']; exact hstop) (by rw [hv']; exact .inl ⟨hstart, hrun ▸ Nat.one_ne_zero⟩)
      obtain ⟨_, _, _, _, hcancel⟩ := cancelMapped_update p (stopAsked (newId v) v.now) (accept c 0x11 v)
      obtain ⟨u, o, g, hexec, hu⟩ := settled ((hv.exec _).trans (congrArg settle (heff.trans hcancel)))
      subst hv'
      have hport : u.stg.port p = { x with stop := some (s.hre.nextId + 1, periodEnd x c.t), apply := none, retunes := [], gauge := none } := by
        rw [hu]
        refine (port_setPort ..).trans ?_
        show ({ stopAsked _ _ (s.stg.port p) with apply := _, retunes := _, gauge := _ } : StgSt) = _
        unfold stopAsked
        rw [if_pos hrun, ← hstart]
        rfl
      refine ⟨u, periodEnd x c.t, hexec, by rw [hu]; rfl, by rw [hport], (periodEnd_next c.t hr hts).1, (periodEnd_next c.t hr hts).2.1,
        (periodEnd_next c.t hr hts).2.2, by rw [hport], by rw [hport], by rw [hport], ?_⟩
      have hframe : u = { commanded s u with now := c.t, stg := u.stg } := by rw [hu]; exact with_reserve _ hq
      exact hframe.trans (congrArg (fun x => { commanded s u with now := c.t, stg := x }) (setPort_own (by rw [hu]; rfl)))
    · have heff := effPortStop_pending (c := c) (v := v) (r := r) (by rw [hv']; exact hstop) (by rw [hv']; exact hstart) (by rw [hv']; exact hrun)
      obtain ⟨_, _, _, _, hfin⟩ := finish_update r.id stCancelled 0 0 (mapStg p (fun y => { y with start := none }) v)
      rw [hfin] at heff
      generalize hw : ({ mapStg p (fun y => { y with start := none }) v with ctr := _, erc := _, out := _, hre := _ } : State) = w at heff
      obtain ⟨m, k', hfloor⟩ := setFloor_update p.dom (portFloor v p) w
      rw [show (argPort c) = p from rfl, hfloor] at heff
      obtain ⟨_, _, _, _, hcpl⟩ := cplEmit_update (outOf c 0x11 0) stApplied 0xFFFFFFFF 0xFFFFFFFF false false { w with dom := m, ctr := k' }
      obtain ⟨u, o, g, hexec, hu⟩ := settled ((hv.exec _).trans (congrArg settle (heff.trans hcpl)))
      subst hv' hw
      have hport : u.stg.port p = { x with start := none } := by rw [hu]; exact port_setPort ..
      refine ⟨u, hexec, by rw [hport], by rw [hport]; exact hstop, by rw [hport], ?_, by rw [hu]; rfl, ?_⟩
      · rw [hu]; exact find_filtered ..
      · rw [hu]; exact with_reserve _ hq
    · have heff := effPortStop_stops (c := c) (v := v) (by rw [hv']; exact hstop) (by rw [hv']; exact .inr hrun)
      obtain ⟨_, _, _, _, hcancel⟩ := cancelMapped_update p (stopAsked (newId v) v.now) (accept c 0x11 v)
      obtain ⟨u, o, g, hexec, hu⟩ := settled ((hv.exec _).trans (congrArg settle (heff.trans hcancel)))
      subst hv'
      have hport : u.stg.port p = { x with start := none, stop := some (s.hre.nextId + 1, c.t), apply := none, retunes := [], gauge := none } := by
        rw [hu]
        refine (port_setPort ..).trans ?_
        show ({ stopAsked _ _ (s.stg.port p) with apply := _, retunes := _, gauge := _ } : StgSt) = _
        unfold stopAsked
        rw [if_neg (by rw [hrun]; decide)]
        rfl
      refine ⟨u, hexec, by rw [hu]; rfl, by rw [hport], by rw [hport], by rw [hport]; exact hrun, by rw [hport], by rw [hport], by rw [hport], ?_⟩
      have hframe : u = { commanded s u with now := c.t, stg := u.stg } := by rw [hu]; exact with_reserve _ hq
      exact hframe.trans (congrArg (fun x => { commanded s u with now := c.t, stg := x }) (setPort_own (by rw [hu]; rfl)))
    · refine hv.refuses ?_
      unfold effPortStop
      dsimp only
      rw [hv']
      dsimp only
      rw [hstop, hstart]
      exact if_pos hrun

/-! ## The changes of a running plan (R53, R54, R92) -/

/-- The first multiple of a period at or after an instant. -/
theorem cdiv_next (a : Int) {b : Int} (hb : 0 < b) : a ≤ cdiv a b * b ∧ cdiv a b * b < a + b := by
  have hdiv := Int.emod_add_mul_ediv (-a) b
  have hlow := Int.emod_nonneg (-a) (by omega : b ≠ 0)
  have hhigh := Int.emod_lt_of_pos (-a) hb
  unfold cdiv
  rw [neg_mul, mul_comm (-a / b)]
  constructor <;> omega

/-- The first line index of group j of g at or after n (R54). -/
theorem nextOf_next (n : Int) {j g : Nat} (hj : j < g) : n ≤ nextOf n j g ∧ nextOf n j g < n + g ∧ nextOf n j g % (g : Int) = j := by
  have hlow := Int.emod_nonneg ((j : Int) - n) (by omega : (g : Int) ≠ 0)
  have hhigh := Int.emod_lt_of_pos ((j : Int) - n) (by omega : (0 : Int) < g)
  unfold nextOf
  refine ⟨by omega, by omega, ?_⟩
  rw [Int.add_emod_emod, add_sub_cancel]
  exact Int.emod_eq_of_lt (by omega) (by omega)

/-- A plan change that is pending from the boundary at or after ta on (R53). -/
def applyReq (id : Nat) (x : StgSt) (old q : Plan) (ta : Int) : ApplyReq :=
  { id := id, p := boundaryAfter x old ta, np := (boundaryAfter x old ta - x.t0) / (old.ts : Nat) * (old.groups : Nat),
    t0 := boundaryAfter x old ta + (old.ts : Nat), plan := q }

/-- A port whose plan is to change (R53, R54). -/
def applyAsked (a : ApplyReq) (x : StgSt) : StgSt :=
  { x with apply := some a, retunes := x.retunes.filter (fun r => r.n < a.np), gauge := x.gauge.filter (fun g => g.n < a.np) }

theorem effPlanApply_changes {c : HostCmd} {v : State} {old : Plan} (ha : (v.stg.port (argPort c)).apply = none)
    (hold : (v.stg.port (argPort c)).plan = some old) (hrun : (v.stg.port (argPort c)).run ≠ 0) (hstop : (v.stg.port (argPort c)).stop = none)
    (hta : v.now + 20000 ≤ argA12 c) (hok : planOk v (argPort c) (stagedPlan v (argPort c)) = true) :
    ∃ ids : List Nat, effPlanApply c v = raiseFloor (argPort c).dom (planFloor v (argPort c) (stagedPlan v (argPort c)))
      (ids.foldl (fun s i => finish i stCancelled 0 0 s) (mapStg (argPort c)
        (applyAsked (applyReq (newId v) (v.stg.port (argPort c)) old (stagedPlan v (argPort c)) (argA12 c))) (accept c 0x12 v))) := by
  have hrun' : portStopped (v.stg.port (argPort c)) = false := beq_eq_false_iff_ne.2 hrun
  unfold effPlanApply
  dsimp only
  rw [ha, hold, hrun', hstop, hok, if_neg (by decide)]
  dsimp only
  rw [if_neg (by decide), if_neg (by omega), if_neg (by decide)]
  exact ⟨_, rfl⟩

theorem applyReq_spec (id : Nat) (x : StgSt) {old : Plan} (q : Plan) (ta : Int) (hts : 0 < old.ts) :
    let a := applyReq id x old q ta
    (a.p - x.t0) % (old.ts : Int) = 0 ∧ ta ≤ a.p ∧ a.p < ta + old.ts ∧ a.np * (old.ts : Int) = (a.p - x.t0) * (old.groups : Int) := by
  intro a
  have hpos : (0 : Int) < old.ts := by omega
  have hp : a.p - x.t0 = cdiv (ta - x.t0) old.ts * old.ts := add_sub_cancel_left ..
  have hdiv : (a.p - x.t0) / (old.ts : Int) = cdiv (ta - x.t0) old.ts := by rw [hp]; exact Int.mul_ediv_cancel _ (by omega)
  obtain ⟨hlow, hhigh⟩ := cdiv_next (ta - x.t0) hpos
  rw [← hp] at hlow hhigh
  refine ⟨by rw [hp]; exact Int.mul_emod_left .., by omega, by omega, ?_⟩
  show (a.p - x.t0) / (old.ts : Int) * (old.groups : Int) * old.ts = _
  rw [hdiv, hp]
  ring

theorem effGroupRetune_waits {c : HostCmd} {v : State} {q : Plan} {r : Retune} (hq : (v.stg.port (argPort c)).plan = some q)
    (hrun : (v.stg.port (argPort c)).run ≠ 0) (hstop : (v.stg.port (argPort c)).stop = none) (ha : (v.stg.port (argPort c)).apply = none)
    (hno : ∀ y ∈ (v.stg.port (argPort c)).retunes, y.group ≠ fld c.a0 10 8) (hlate : (v.stg.port (argPort c)).last.getD (-1) < argA12 c)
    (hr : r = { id := newId v, group := fld c.a0 10 8, n := nextOf (argA12 c) (fld c.a0 10 8) q.groups,
                width := stagedWidth v (argPort c) (fld c.a0 10 8), en := bitOf (reg v (stgOff (argPort c) + 0x1C)) (fld c.a0 10 8) })
    (hok : ∀ y ∈ retuneSteps q (((v.stg.port (argPort c)).retunes ++ [r]).foldr insertRetune []), retuneOk y = true) :
    effGroupRetune c v = mapStg (argPort c) (fun x => { x with retunes := x.retunes ++ [r] }) (accept c 0x13 v) := by
  have hrun' : portStopped (v.stg.port (argPort c)) = false := beq_eq_false_iff_ne.2 hrun
  have hno' : ((v.stg.port (argPort c)).retunes.any (fun y => y.group == fld c.a0 10 8)) = false := by
    rw [List.any_eq_false]
    exact fun y hy => by rw [beq_iff_eq]; exact hno y hy
  unfold effGroupRetune
  dsimp only
  rw [hq]
  dsimp only
  rw [hrun', hstop, ha, hno', ← hr, List.all_eq_true.2 hok, if_neg (by decide), if_neg (by decide), if_neg (by omega), if_neg (by decide)]

theorem effGaugeSet_waits {c : HostCmd} {v : State} {q : Plan} (hq : (v.stg.port (argPort c)).plan = some q)
    (hg : (v.stg.port (argPort c)).gauge = none) (hrun : (v.stg.port (argPort c)).run ≠ 0) (hstop : (v.stg.port (argPort c)).stop = none)
    (hlate : (v.stg.port (argPort c)).last.getD (-1) < argA12 c) (hlow : 1 ≤ stagedGauge v (argPort c)) (hhigh : stagedGauge v (argPort c) ≤ 16)
    (hz : zonesOk v (argPort c) q (stagedGauge v (argPort c)) = true) :
    effGaugeSet c v = raiseFloor (argPort c).dom (planFloor v (argPort c) { q with gauge := stagedGauge v (argPort c) })
      (mapStg (argPort c) (fun x => { x with gauge := some { id := newId v, n := nextOf (argA12 c) 0 q.groups, gauge := stagedGauge v (argPort c),
                                                              scale := stagedScale v (argPort c) } }) (accept c 0x14 v)) := by
  have hrun' : portStopped (v.stg.port (argPort c)) = false := beq_eq_false_iff_ne.2 hrun
  unfold effGaugeSet
  dsimp only
  rw [hq]
  dsimp only
  rw [hg, hrun', hstop, hz, decide_eq_true hlow, decide_eq_true hhigh, if_neg (by decide), if_neg (by decide), if_neg (by omega), if_neg (by decide)]

/-- Settles O12. -/
theorem planChangesWaitForTheirLine : Obligations.PlanChangesWaitForTheirLine := by
  unfold Obligations.PlanChangesWaitForTheirLine
  refine ⟨?apply, ?retune, ?gauge⟩
  case apply =>
    intro c s old hpass p x ha hold hts hrun hstop hta hplanOk
    obtain ⟨v, hv, -⟩ := taken_of_passes hpass
    have hplan := hv.stagedPlan p
    have hok := hv.planOk p (stagedPlan s p)
    have hq := hv.reserve
    obtain ⟨k, n, i, l, q, hv'⟩ := hv.update
    obtain ⟨ids, heff⟩ := effPlanApply_changes (c := c) (v := v) (old := old) (by rw [hv']; exact ha) (by rw [hv']; exact hold) (by rw [hv']; exact hrun)
      (by rw [hv']; exact hstop) (by rw [hv']; exact hta) (by rw [hplan]; exact hok.trans hplanOk)
    rw [hplan] at heff
    have hreq : applyReq (newId v) (v.stg.port p) old (stagedPlan s p) (argA12 c) = applyReq (s.hre.nextId + 1) x old (stagedPlan s p) (argA12 c) := by
      rw [hv']; rfl
    rw [show argPort c = p from rfl, hreq] at heff
    generalize hreqv : applyReq (s.hre.nextId + 1) x old (stagedPlan s p) (argA12 c) = a at heff
    obtain ⟨_, _, _, _, hfin⟩ := finishes_update ids stCancelled 0 0 (mapStg p (applyAsked a) (accept c 0x12 v))
    rw [hfin] at heff
    generalize hw : ({ mapStg p (applyAsked a) (accept c 0x12 v) with ctr := _, erc := _, out := _, hre := _ } : State) = w at heff
    obtain ⟨m, k', hfloor⟩ := raiseFloor_update p.dom (planFloor v p (stagedPlan s p)) w
    obtain ⟨u, o, g, hexec, hu⟩ := settled ((hv.exec _).trans (congrArg settle (heff.trans hfloor)))
    subst hv' hw
    have hport : u.stg.port p = applyAsked a x := by rw [hu]; exact port_setPort ..
    obtain ⟨hgrid, hlow, hhigh, hnp⟩ := applyReq_spec (s.hre.nextId + 1) x (stagedPlan s p) (argA12 c) hts
    rw [hreqv] at hgrid hlow hhigh hnp
    have hframe : u = { commanded s u with now := c.t, dom := u.dom, stg := u.stg } := by rw [hu]; exact with_reserve _ hq
    refine ⟨u, a, hexec, by rw [hu]; rfl, by rw [hport]; rfl, by rw [← hreqv]; rfl, hgrid, hlow, hhigh, by rw [← hreqv]; rfl, hnp, by rw [← hreqv]; rfl,
      fun r => ?_, by rw [hport]; rfl, by rw [hport]; rfl, ?_⟩
    · rw [hport]
      show r ∈ x.retunes.filter _ ↔ _
      rw [List.mem_filter, decide_eq_true_eq]
    · exact hframe.trans (congrArg (fun x => { commanded s u with now := c.t, dom := u.dom, stg := x }) (setPort_own (by rw [hu]; rfl)))
  case retune =>
    intro c s q hpass p x j w en r hq hrun hstop ha hno hj hlate hsteps
    obtain ⟨v, hv, -⟩ := taken_of_passes hpass
    have hreg := hv.reg
    have hres := hv.reserve
    obtain ⟨k, n, i, l, y, hv'⟩ := hv.update
    have hr : r = { id := newId v, group := fld c.a0 10 8, n := nextOf (argA12 c) (fld c.a0 10 8) q.groups,
                    width := stagedWidth v (argPort c) (fld c.a0 10 8), en := bitOf (reg v (stgOff (argPort c) + 0x1C)) (fld c.a0 10 8) } := by
      unfold stagedWidth
      rw [hreg, hreg, hv']
      rfl
    have heff := effGroupRetune_waits (c := c) (v := v) (q := q) (r := r) (by rw [hv']; exact hq) (by rw [hv']; exact hrun) (by rw [hv']; exact hstop)
      (by rw [hv']; exact ha) (by rw [hv']; exact hno) (by rw [hv']; exact hlate) hr (by rw [hv']; exact hsteps)
    obtain ⟨hlow, hhigh, hgroup⟩ := nextOf_next (argA12 c) hj
    refine hv.accepts heff rfl fun o g => ⟨hlow, hhigh, hgroup, ?_⟩
    subst hv'
    exact with_reserve _ hres
  case gauge =>
    intro c s q hpass p x g hq hgroups hg hrun hstop hlate hlow hhigh hz
    obtain ⟨v, hv, -⟩ := taken_of_passes hpass
    have hgauge : stagedGauge v p = stagedGauge s p := hv.regF ..
    have hscale : stagedScale v p = stagedScale s p := congrArg BitVec.toNat (hv.reg _)
    have hzones := hv.zonesOk p q (stagedGauge s p)
    have hres := hv.reserve
    obtain ⟨k, n, i, l, y, hv'⟩ := hv.update
    have heff := effGaugeSet_waits (c := c) (v := v) (q := q) (by rw [hv']; exact hq) (by rw [hv']; exact hg) (by rw [hv']; exact hrun)
      (by rw [hv']; exact hstop) (by rw [hv']; exact hlate) (by rw [hgauge]; exact hlow) (by rw [hgauge]; exact hhigh)
      (by rw [hgauge]; exact hzones.trans hz)
    rw [show argPort c = p from rfl, hgauge, hscale] at heff
    obtain ⟨m, k', hfloor⟩ := raiseFloor_update p.dom (planFloor v p { q with gauge := stagedGauge s p })
      (mapStg p (fun x => { x with gauge := some { id := newId v, n := nextOf (argA12 c) 0 q.groups, gauge := stagedGauge s p, scale := stagedScale s p } })
        (accept c 0x14 v))
    obtain ⟨hnlow, hnhigh, hgroup⟩ := nextOf_next (argA12 c) hgroups
    obtain ⟨u, hexec, hacc, hframe⟩ := hv.accepts (P := fun u => u = { commanded s u with
        now := c.t, dom := u.dom,
        stg := s.stg.setPort p { x with gauge := some { id := s.hre.nextId + 1, n := nextOf (argA12 c) 0 q.groups, gauge := g, scale := stagedScale s p } } })
      (heff.trans hfloor) rfl fun o g => by
        subst hv'
        exact with_reserve _ hres
    exact ⟨u, _, hexec, hacc, hnlow, hnhigh, hgroup, hframe⟩

/-! ## Shots (R41 to R45, R54) -/

/-- From s to v pending changes of a port's plan took effect and completed, at the same number of groups (R54, R92). -/
structure PlanTuned (p : Port) (s v : State) : Prop where
  update : ∃ k i w g m q r a, v =
    { s with ctr := k, erc := { s.erc with inbox := i }, out := s.out ++ w, hre := { hreTold s.hre g with out := g.out }, dom := m,
             stg := s.stg.setPort p { s.stg.port p with plan := q, retunes := r, gauge := a } }
  groups : (v.stg.port p).plan.map (·.groups) = (s.stg.port p).plan.map (·.groups)

theorem PlanTuned.trans {p : Port} {s v u : State} (h : PlanTuned p s v) (h' : PlanTuned p v u) : PlanTuned p s u := by
  refine ⟨?_, h'.groups.trans h.groups⟩
  obtain ⟨k, i, w, g, m, q, r, a, rfl⟩ := h.update
  obtain ⟨k', i', w', g', m', q', r', a', rfl⟩ := h'.update
  refine ⟨k', i', w ++ w', g', m', q', r', a', ?_⟩
  dsimp only
  rw [port_setPort, setPort_setPort, List.append_assoc]
  rfl

theorem planTuned_mapStg (p : Port) {f : StgSt → StgSt} (s : State)
    (hf : ∃ q r a, f (s.stg.port p) = { s.stg.port p with plan := q, retunes := r, gauge := a } ∧ q.map (·.groups) = (s.stg.port p).plan.map (·.groups)) :
    PlanTuned p s (mapStg p f s) := by
  obtain ⟨q, r, a, hf, hq⟩ := hf
  refine ⟨⟨s.ctr, s.erc.inbox, [], s.hre, s.dom, q, r, a, ?_⟩, ?_⟩
  · unfold mapStg
    rw [hf, List.append_nil]
    rfl
  · show (((s.stg.setPort p (f (s.stg.port p))).port p).plan.map _) = _
    rw [port_setPort, hf]
    exact hq

theorem planTuned_of_update {p : Port} {s : State} (k : Tab Nat) (i : List EvIn) (w : List Out) (g : HreSt) (m : Doms) :
    PlanTuned p s { s with ctr := k, erc := { s.erc with inbox := i }, out := s.out ++ w, hre := { hreTold s.hre g with out := g.out }, dom := m } := by
  refine ⟨⟨k, i, w, g, m, (s.stg.port p).plan, (s.stg.port p).retunes, (s.stg.port p).gauge, ?_⟩, rfl⟩
  show _ = { s with ctr := k, erc := _, out := _, hre := _, dom := m, stg := s.stg.setPort p (s.stg.port p) }
  rw [setPort_port]

theorem planTuned_finish (p : Port) (id st : Nat) (r0 r1 : Word) (s : State) : PlanTuned p s (finish id st r0 r1 s) := by
  obtain ⟨k, i, w, g, h⟩ := finish_update id st r0 r1 s
  rw [h]
  exact planTuned_of_update k i w { g with out := s.hre.out.filter (fun o => o.id != id) } s.dom

theorem planTuned_setFloor (p : Port) (d : Dom) (f : Nat) (s : State) : PlanTuned p s (setFloor d f s) := by
  obtain ⟨m, k, h⟩ := setFloor_update d f s
  have hself := planTuned_of_update (p := p) (s := s) k s.erc.inbox [] s.hre m
  rw [List.append_nil] at hself
  rw [h]
  exact hself

theorem map_groups_retuned (q : Option Plan) (j w : Nat) (en : Bool) : (q.map (fun q => q.retuned j w en)).map (·.groups) = q.map (·.groups) := by
  cases q <;> rfl

theorem planTuned_applyRetunes (p : Port) (n : Int) (s : State) : PlanTuned p s (applyRetunes p n s) := by
  unfold applyRetunes
  generalize (s.stg.port p).retunes.filter (fun r => r.n == n) = rs
  induction rs generalizing s with
  | nil =>
    have hself := planTuned_of_update (p := p) (s := s) s.ctr s.erc.inbox [] s.hre s.dom
    rw [List.append_nil] at hself
    exact hself
  | cons r rs ih => exact ((planTuned_mapStg p s ⟨_, _, _, rfl, map_groups_retuned ..⟩).trans (planTuned_finish p ..)).trans (ih _)

theorem planTuned_applyGauge (p : Port) (n : Int) (s : State) : PlanTuned p s (applyGauge p n s) := by
  unfold applyGauge
  dsimp only
  split
  · split
    · refine ((planTuned_mapStg p s ⟨_, _, _, rfl, ?_⟩).trans (planTuned_finish p ..)).trans (planTuned_setFloor p ..)
      cases (s.stg.port p).plan <;> rfl
    · have hself := planTuned_of_update (p := p) (s := s) s.ctr s.erc.inbox [] s.hre s.dom
      rw [List.append_nil] at hself
      exact hself
  · refine planTuned_mapStg p s ⟨_, _, _, rfl, ?_⟩
    cases (s.stg.port p).plan with
    | none => rfl
    | some q => exact congrArg some (by dsimp only; split <;> rfl)

/-- The shot of a line index that a group's plan y launches (R41, R45). -/
def shotOf (y : Plan) (x : StgSt) (n t : Int) (lt gset : Bool) : Shot :=
  let j := (n % (y.groups : Nat)).toNat
  let lit := y.lit j
  let prev := nth none x.lit j
  { n := n, group := j, t := if lit then t else nominal y x.t0 n, lit := if lit then some (nth 0 y.widths j) else none,
    dark := !lit || prev.isNone, step := lit && prev.isSome && prev != some (nth 0 y.widths j), lt := lt, plan := y, gset := gset }

/-- A port whose line index n was launched at t with the plan y (R42, R44). -/
def portLaunched (y : Plan) (ng : Nat) (n t : Int) (x : StgSt) : StgSt :=
  let j := (n % (y.groups : Nat)).toNat
  { x with lit := setNth x.lit j (if y.lit j then some (nth 0 y.widths j) else none), last := some n, next := n + 1,
           code := y.slotBase + j * y.div, gateAt := t, gate := if y.lit j then nth 0 y.widths j else 0, ng := ng }

/-- A shot: its changes took effect, the port launched it, and its token joined the queue. -/
theorem fireShot_launches {p : Port} {q : Plan} (n t : Int) {s : State} (hq : (s.stg.port p).plan = some q) :
    ∃ v y ng lt gset w, PlanTuned p s v ∧ (v.stg.port p).plan = some y ∧ y.groups = q.groups ∧ fireShot p n t s =
      { v with out := v.out ++ w, stg := v.stg.setPort p (portLaunched y ng n t (v.stg.port p)),
               sin := v.sin.setPort p { v.sin.port p with queue := (v.sin.port p).queue ++ [shotOf y (v.stg.port p) n t lt gset] } } := by
  have htuned := (planTuned_applyRetunes p n s).trans (planTuned_applyGauge p n (applyRetunes p n s))
  unfold fireShot
  dsimp only
  generalize applyGauge p n (applyRetunes p n s) = v at htuned
  have hgroups := htuned.groups
  rw [hq] at hgroups
  cases hy : (v.stg.port p).plan with
  | none => rw [hy] at hgroups; exact absurd hgroups (by simp)
  | some y =>
    rw [hy] at hgroups
    dsimp only
    refine ⟨v, y, regF v (stgOff p + 0x10) 13 0, !v.net.joined, (s.stg.port p).gauge.any (fun g => g.n == n),
      if y.lit (n % (y.groups : Int)).toNat then [.gate p.num (y.slotBase + (n % (y.groups : Int)).toNat * y.div) t
        (t + (nth 0 y.widths (n % (y.groups : Int)).toNat : Nat))] else [], htuned, hy, Option.some.inj hgroups, ?_⟩
    unfold mapStg portLaunched shotOf
    dsimp only
    cases hlit : y.lit (n % (y.groups : Int)).toNat with
    | false => exact congrArg (fun o => ({ v with out := o, stg := _, sin := _ } : State)) (List.append_nil v.out).symm
    | true => rfl

theorem shotOf_lit {y : Plan} (x : StgSt) {n : Int} (t : Int) (lt gset : Bool) (h : y.lit (n % (y.groups : Nat)).toNat = true) :
    (shotOf y x n t lt gset).t = t ∧ ((shotOf y x n t lt gset).dark = true ↔ nth none x.lit (n % (y.groups : Nat)).toNat = none) := by
  unfold shotOf
  dsimp only
  rw [h]
  exact ⟨rfl, Option.isNone_iff_eq_none⟩

theorem shotOf_dark {y : Plan} (x : StgSt) {n : Int} (t : Int) (lt gset : Bool) (h : y.lit (n % (y.groups : Nat)).toNat = false) :
    (shotOf y x n t lt gset).lit = none ∧ (shotOf y x n t lt gset).dark = true ∧ (shotOf y x n t lt gset).t = nominal y x.t0 n := by
  unfold shotOf
  dsimp only
  rw [h]
  exact ⟨rfl, rfl, rfl⟩

/-- Settles O13. -/
theorem shotLaunchesNextLine : Obligations.ShotLaunchesNextLine := by
  unfold Obligations.ShotLaunchesNextLine
  refine ⟨fun t p q s hdue hq => ?due, fun t p s hdue => ?notDue⟩
  case due =>
    intro x
    have hexec : exec (.shot t p) s = settle (fireShot p x.next t (atTime t s)) := if_pos hdue
    obtain ⟨v, y, ng, lt, gset, w, htuned, hy, hgroups, hfire⟩ := fireShot_launches (p := p) (q := q) x.next t (s := atTime t s) hq
    obtain ⟨k, i, w', g, m, r, a, b, hv⟩ := htuned.update
    have hvp : v.stg.port p = { x with plan := r, retunes := a, gauge := b } := by rw [hv]; exact port_setPort ..
    have hvsin : v.sin = s.sin := by rw [hv]; rfl
    obtain ⟨u, o, g', hexec', hu⟩ := settled (hexec.trans (congrArg settle hfire))
    have hport : u.stg.port p = portLaunched y ng x.next t (v.stg.port p) := by rw [hu]; exact port_setPort ..
    have hsin : u.sin.port p = { s.sin.port p with queue := (s.sin.port p).queue ++ [shotOf y (v.stg.port p) x.next t lt gset] } := by
      rw [hu, ← hvsin]; exact port_setPort ..
    have hplan : (u.stg.port p).plan = some y := by rw [hport]; exact hy
    have hlit : (v.stg.port p).lit = x.lit := by rw [hvp]
    have ht0 : (v.stg.port p).t0 = x.t0 := by rw [hvp]
    rw [← hgroups]
    refine ⟨u, y, shotOf y (v.stg.port p) x.next t lt gset, hexec', hplan, rfl, by rw [hport]; rfl, by rw [hport]; rfl, by rw [hport]; rfl,
      by rw [hport]; rfl, by rw [hsin], rfl, rfl, fun h => ?_, fun h => ?_, ?_⟩
    · rw [← hlit]
      exact shotOf_lit (v.stg.port p) t lt gset h
    · rw [← ht0]
      exact shotOf_dark (v.stg.port p) t lt gset h
    · have hframe : u = { commanded s u with now := t, dom := u.dom, stg := u.stg, sin := u.sin } := by
        rw [hu, hv]
        exact with_reserve _ (reserved_self _)
      have hstg : u.stg = s.stg.setPort p (portLaunched y ng x.next t (v.stg.port p)) := by
        rw [hu]
        show v.stg.setPort p _ = _
        rw [hv]
        exact setPort_setPort ..
      have hsin' : u.sin = s.sin.setPort p { s.sin.port p with queue := (s.sin.port p).queue ++ [shotOf y (v.stg.port p) x.next t lt gset] } := by
        rw [hu, ← hvsin]
      exact hframe.trans (congrArg₂ (fun x y => { commanded s u with now := t, dom := u.dom, stg := x, sin := y }) (setPort_own hstg) (setPort_own hsin'))
  case notDue =>
    have hexec : exec (.shot t p) s = settle (atTime t s) := if_neg (by rw [show shotDue (atTime t s) p t = shotDue s p t from rfl, hdue]; decide)
    exact settles hexec fun o g => rfl

end Sys2Proof.Proofs
end

section
/-!
Proof of the statement about the instants at which plans start, fall silent and stop (R49, R52, R53), with what the end of a filter chain's input and the
begin of its plan leave (R96, R120, R144).
-/
namespace Sys2Proof.Proofs
open Sys2Proof.Machine Sys2Proof.Laws

/-! ## What goes on around a filter chain -/

@[simp] theorem fchOf_mapFch (i : Fch) (f : FchSt → FchSt) (s : State) : fchOf (mapFch i f s) i = f (fchOf s i) := by cases i <;> rfl

theorem fchOf_mapFch_ne {i j : Fch} (f : FchSt → FchSt) (s : State) (h : j ≠ i) : fchOf (mapFch i f s) j = fchOf s j := by
  revert h
  cases i <;> cases j <;> simp [fchOf, mapFch]

theorem mapFch_update (i : Fch) (f : FchSt → FchSt) (s : State) : mapFch i f s = { s with fch := (mapFch i f s).fch } := by
  cases i <;> rfl

/-- From s to u requests were completed, events recorded and streams ended; every chain that ran runs, and every port stands. -/
structure ChainsRun (s u : State) : Prop where
  now : u.now = s.now
  stg : u.stg = s.stg
  clr : u.clr = s.clr
  sin : u.sin = s.sin
  phx : u.phx = s.phx
  hen : u.hen = s.hen
  sld : u.sld = s.sld
  net : u.net = s.net
  sec : u.sec = s.sec
  pst : u.pst = s.pst
  lhf : u.lhf = s.lhf
  run : ∀ i, (fchOf u i).run = (fchOf s i).run
  aon : aonUp u = aonUp s
  inbox : s.erc.inbox ⊆ u.erc.inbox

theorem ChainsRun.refl (s : State) : ChainsRun s s := ⟨rfl, rfl, rfl, rfl, rfl, rfl, rfl, rfl, rfl, rfl, rfl, fun _ => rfl, rfl, List.Subset.refl _⟩

theorem ChainsRun.trans {s t u : State} (h : ChainsRun s t) (k : ChainsRun t u) : ChainsRun s u :=
  ⟨k.now.trans h.now, k.stg.trans h.stg, k.clr.trans h.clr, k.sin.trans h.sin, k.phx.trans h.phx, k.hen.trans h.hen, k.sld.trans h.sld, k.net.trans h.net,
    k.sec.trans h.sec, k.pst.trans h.pst, k.lhf.trans h.lhf, fun i => (k.run i).trans (h.run i), k.aon.trans h.aon, List.Subset.trans h.inbox k.inbox⟩

/-- A later part leaves what the earlier one does. -/
theorem ChainsRun.after {s t u : State} (k : ChainsRun t u) (h : ChainsRun s t) : ChainsRun s u := h.trans k

theorem ChainsRun.foldl {α : Type} {f : State → α → State} (h : ∀ s a, ChainsRun s (f s a)) (l : List α) (s : State) : ChainsRun s (l.foldl f s) := by
  induction l generalizing s with
  | nil => exact .refl s
  | cons a l ih => exact (h s a).trans (ih (f s a))

theorem finish_chainsRun (id st : Nat) (r0 r1 : Word) (s : State) : ChainsRun s (finish id st r0 r1 s) := by
  have hinbox := (finish_stands .x id st r0 r1 s).inbox
  obtain ⟨k, i, w, g, h⟩ := finish_update id st r0 r1 s
  rw [h] at hinbox ⊢
  exact ⟨rfl, rfl, rfl, rfl, rfl, rfl, rfl, rfl, rfl, rfl, rfl, fun _ => rfl, rfl, hinbox⟩

theorem finishes_chainsRun (ids : List Nat) (st : Nat) (r0 r1 : Word) (s : State) : ChainsRun s (ids.foldl (fun s i => finish i st r0 r1 s) s) :=
  .foldl (fun s i => finish_chainsRun i st r0 r1 s) ids s

theorem note_chainsRun (code : Nat) (d : Dom) (b : Nat) (p0 p1 p2 : Word) (s : State) : ChainsRun s (note code d b p0 p1 p2 s) := by
  rw [note_update]
  exact ⟨rfl, rfl, rfl, rfl, rfl, rfl, rfl, rfl, rfl, rfl, rfl, fun _ => rfl, rfl, List.subset_append_left ..⟩

theorem mapFch_chainsRun (i : Fch) {f : FchSt → FchSt} (s : State) (hf : (f (fchOf s i)).run = (fchOf s i).run) : ChainsRun s (mapFch i f s) := by
  have hrun : ∀ j, (fchOf (mapFch i f s) j).run = (fchOf s j).run := fun j => by
    by_cases hj : j = i
    · rw [hj, fchOf_mapFch, hf]
    · rw [fchOf_mapFch_ne f s hj]
  rw [mapFch_update] at hrun ⊢
  exact ⟨rfl, rfl, rfl, rfl, rfl, rfl, rfl, rfl, rfl, rfl, rfl, hrun, rfl, List.Subset.refl _⟩

theorem fsyncPart_chainsRun (id inst st : Nat) (ny : Int) (s : State) : ChainsRun s (fsyncPart id inst st ny s) := by
  have hsync : ∀ l, ChainsRun s { s with fsync := l } := fun l =>
    ⟨rfl, rfl, rfl, rfl, rfl, rfl, rfl, rfl, rfl, rfl, rfl, fun _ => rfl, rfl, List.Subset.refl _⟩
  unfold fsyncPart
  split
  · exact .refl s
  · extract_lets f rest
    split
    · split <;> exact .after (finish_chainsRun ..) (hsync _)
    · exact hsync _

theorem syncCancel_chainsRun (i : Fch) (r : SyncReq) (s : State) : ChainsRun s (syncCancel i r s) := by
  unfold syncCancel
  split
  · exact fsyncPart_chainsRun ..
  split
  · exact note_chainsRun ..
  · exact .refl s

theorem cancelWaiting_chainsRun (i : Fch) (s : State) : ChainsRun s (cancelWaiting i s) := by
  unfold cancelWaiting
  dsimp only
  have h := (mapFch_chainsRun i (f := fun x => { x with syncs := [], swap := none }) s rfl).trans
    (.foldl (fun s r => syncCancel_chainsRun i r s) (fchOf s i).syncs _)
  split
  · exact h.trans (finish_chainsRun ..)
  · exact h

theorem hsc_chainsRun (h : HscSt) (s : State) : ChainsRun s { s with hsc := h } :=
  ⟨rfl, rfl, rfl, rfl, rfl, rfl, rfl, rfl, rfl, rfl, rfl, fun _ => rfl, rfl, List.Subset.refl _⟩

theorem toStr_update (b : Block) (s : State) : ∃ h, toStr b s = { s with hsc := h } := by
  unfold toStr
  generalize List.range 8 = l
  induction l generalizing s with
  | nil => exact ⟨s.hsc, rfl⟩
  | cons n l ih =>
    rw [List.foldl_cons]
    dsimp only
    split
    · exact ih _
    · exact ih s

theorem flagDef_update (d : Nat) (s : State) : ∃ h, flagDef d s = { s with hsc := h } := by
  unfold flagDef
  dsimp only
  split <;> exact ⟨_, rfl⟩

theorem toStr_chainsRun (b : Block) (s : State) : ChainsRun s (toStr b s) := by
  obtain ⟨h, e⟩ := toStr_update b s
  rw [e]
  exact hsc_chainsRun h s

theorem flagDef_chainsRun (d : Nat) (s : State) : ChainsRun s (flagDef d s) := by
  obtain ⟨h, e⟩ := flagDef_update d s
  rw [e]
  exact hsc_chainsRun h s

theorem zonePoint_chainsRun (i : Fch) (kind : Nat) (n t : Int) (lt : Bool) (s : State) : ChainsRun s (zonePoint i kind n t lt s) := by
  unfold zonePoint
  dsimp only
  split
  · exact .trans (.foldl (fun s d => (flagDef_chainsRun d s).trans (toStr_chainsRun _ _)) _ s) (mapFch_chainsRun i _ rfl)
  · exact mapFch_chainsRun i _ rfl

theorem setFloor_chainsRun (d : Dom) (f : Nat) (s : State) (hd : d ≠ .aon) : ChainsRun s (setFloor d f s) := by
  obtain ⟨m, k, h, -, hother⟩ := holdFloor_dom d f (mapDom d (fun x => { x with floor := f }) s)
  have haon : m.aon = s.dom.aon := by
    have := (hother .aon hd.symm).trans (get_put_ne _ _ hd.symm)
    exact this
  have hset : setFloor d f s = { s with dom := m, ctr := k } := h
  rw [hset]
  refine ⟨rfl, rfl, rfl, rfl, rfl, rfl, rfl, rfl, rfl, rfl, rfl, fun _ => rfl, ?_, List.Subset.refl _⟩
  show ((m.aon.st == .active) && _) = ((s.dom.aon.st == .active) && _)
  rw [haon]

theorem setPower_chainsRun (p : PState) (s : State) : ChainsRun s (setPower p s) := by
  have hinbox : s.erc.inbox ⊆ (setPower p s).erc.inbox := by
    unfold setPower
    split
    · exact List.Subset.refl _
    · rw [note_update]
      exact List.subset_append_left ..
  rw [setPower_frame] at hinbox ⊢
  exact ⟨rfl, rfl, rfl, rfl, rfl, rfl, rfl, rfl, rfl, rfl, rfl, fun _ => rfl, rfl, hinbox⟩

/-! ## The end of a chain's input (R96, R120, R144) -/

/-- A chain whose input ends runs no more; the others run on, and every port stands. -/
theorem endChain_ends (i : Fch) (n : Option Int) (t : Int) (s : State) : ∃ v, ChainsRun v (endChain i n t s)
    ∧ ∃ f, v = mapFch i f s ∧ (f (fchOf s i)).run = false := by
  have hend : ∀ (k t : Int) (lt : Bool) (u : State),
      ChainsRun u (zonePoint i 2 k t lt (cancelWaiting i (mapFch i (fun x => { x with endAt := none }) u))) := fun k t lt u =>
    ((mapFch_chainsRun i u rfl).trans (cancelWaiting_chainsRun ..)).trans (zonePoint_chainsRun ..)
  unfold endChain
  extract_lets x last y meets swaps v w z
  refine ⟨v, ?_, _, rfl, rfl⟩
  have hw : ChainsRun v w := .foldl (fun s r => syncCancel_chainsRun i r s) _ v
  have hz : ChainsRun v z := by
    unfold z
    split
    · split
      · exact hw
      · exact hw.trans (finish_chainsRun ..)
    · exact hw
  split
  · split
    · exact hz.trans (hend ..)
    · exact hz
  · split
    · exact hz.trans (hend ..)
    · exact hz
  · exact hz

/-! ## A port stopped, a plan begun -/

/-- What the starts, changes and ends of a plan leave: ingest, chains' heads and ledgers, network, Security Core, persistent words, legacy front end. -/
structure PlanStill (s u : State) : Prop where
  now : u.now = s.now
  clr : u.clr = s.clr
  sin : u.sin = s.sin
  phx : u.phx = s.phx
  hen : u.hen = s.hen
  sld : u.sld = s.sld
  net : u.net = s.net
  sec : u.sec = s.sec
  pst : u.pst = s.pst
  lhf : u.lhf = s.lhf
  aon : aonUp u = aonUp s

theorem PlanStill.trans {s t u : State} (h : PlanStill s t) (k : PlanStill t u) : PlanStill s u :=
  ⟨k.now.trans h.now, k.clr.trans h.clr, k.sin.trans h.sin, k.phx.trans h.phx, k.hen.trans h.hen, k.sld.trans h.sld, k.net.trans h.net,
    k.sec.trans h.sec, k.pst.trans h.pst, k.lhf.trans h.lhf, k.aon.trans h.aon⟩

theorem ChainsRun.still {s u : State} (h : ChainsRun s u) : PlanStill s u :=
  ⟨h.now, h.clr, h.sin, h.phx, h.hen, h.sld, h.net, h.sec, h.pst, h.lhf, h.aon⟩

theorem mapStg_still (p : Port) (f : StgSt → StgSt) (s : State) : PlanStill s (mapStg p f s) := ⟨rfl, rfl, rfl, rfl, rfl, rfl, rfl, rfl, rfl, rfl, rfl⟩

theorem mapFch_still (i : Fch) (f : FchSt → FchSt) (s : State) : PlanStill s (mapFch i f s) := by
  rw [mapFch_update]
  exact ⟨rfl, rfl, rfl, rfl, rfl, rfl, rfl, rfl, rfl, rfl, rfl⟩

theorem port_ne_aon (p : Port) : p.dom ≠ .aon := by cases p <;> decide

/-- A port stopped, with its chain (R44, R367). -/
theorem stopPort_stops (p : Port) (run : Nat) (s : State) : PlanStill s (stopPort p run s) ∧ (fchOf (stopPort p run s) (portFch p)).run = false
    ∧ ∃ b, (stopPort p run s).stg = s.stg.setPort p { s.stg.port p with run := run, gap := false, start := b, stop := none, apply := none, holdStop := none,
                                                                        gate := 0, code := 0 } := by
  generalize hu : stopPort p run s = u
  unfold stopPort at hu
  extract_lets last tEnd v at hu
  subst hu
  obtain ⟨w, hw, f, hwf, hrun⟩ := endChain_ends (portFch p) last tEnd v
  have hrest : ChainsRun w (setFloor p.dom (portFloor v p) (notePortRun p false (last.getD (-1)) (endChain (portFch p) last tEnd v))) :=
    (hw.trans (note_chainsRun ..)).trans (setFloor_chainsRun _ _ _ (port_ne_aon p))
  have hv : PlanStill s w := hwf ▸ (mapStg_still p _ s).trans (mapFch_still ..)
  refine ⟨hv.trans hrest.still, (hrest.run _).trans ?_, if run = 0 then none else (s.stg.port p).start, hrest.stg.trans ?_⟩
  · rw [hwf, fchOf_mapFch]
    exact hrun
  · rw [hwf, mapFch_stg]
    rfl

theorem windowDefs_chainsRun (p : Port) (q : Plan) (s : State) : ChainsRun s (windowDefs p q s) := by
  unfold windowDefs
  refine .foldl (fun s d => ?_) _ s
  refine .trans ?_ (note_chainsRun ..)
  refine .trans ?_ (toStr_chainsRun ..)
  exact ⟨rfl, rfl, rfl, rfl, rfl, rfl, rfl, rfl, rfl, rfl, rfl, fun _ => rfl, rfl, List.Subset.refl _⟩

/-- A plan begins at t0: the port runs it from line index 0, its chain runs, and PORT_RUN records it (R52, R53, R434). -/
structure Begun (p : Port) (q : Plan) (t0 : Int) (s u : State) : Prop where
  still : PlanStill s u
  stg : u.stg = s.stg.setPort p { s.stg.port p with run := 1, plan := some q, t0 := t0, next := 0, last := none, gap := false, lit := List.replicate 8 none,
                                                    holdStop := none }
  run : (fchOf u (portFch p)).run = true
  event : aonUp s = true → ({ code := evPortRun, src := 16 * p.dom.num, p0 := w32 (p.num + 256), p1 := lo32 t0, p2 := hi32 t0, solo := false } : EvIn)
    ∈ u.erc.inbox

theorem beginPlan_begun (p : Port) (q : Plan) (t0 : Int) (s : State) : Begun p q t0 s (beginPlan p q t0 s) := by
  unfold beginPlan
  extract_lets v w
  have hvw : PlanStill s w := (mapStg_still p _ s).trans (mapFch_still ..)
  have hfloor := setFloor_chainsRun p.dom (planFloor w p q) w (port_ne_aon p)
  generalize setFloor p.dom (planFloor w p q) w = x at hfloor
  have hnote : ChainsRun x (notePortRun p true t0 x) := note_chainsRun ..
  have hdefs := windowDefs_chainsRun p q (notePortRun p true t0 x)
  have hall := (hfloor.trans hnote).trans hdefs
  refine ⟨hvw.trans hall.still, hall.stg.trans ?_, (hall.run _).trans ?_, fun hup => hdefs.inbox ?_⟩
  · unfold w
    rw [mapFch_stg]
    rfl
  · unfold w
    rw [fchOf_mapFch]
  · have hx : aonUp x = true := (hfloor.aon.trans hvw.aon).trans hup
    unfold notePortRun
    rw [note_up _ _ _ _ _ _ hx]
    exact List.mem_append_right _ (List.mem_singleton.2 rfl)

theorem Begun.port {p : Port} {q : Plan} {t0 : Int} {s u : State} (h : Begun p q t0 s u) : u.stg.port p =
    { s.stg.port p with run := 1, plan := some q, t0 := t0, next := 0, last := none, gap := false, lit := List.replicate 8 none, holdStop := none } := by
  rw [h.stg, port_setPort]

theorem Begun.start {p : Port} {q : Plan} {t0 : Int} {s u : State} (h : Begun p q t0 s u) : (u.stg.port p).start = (s.stg.port p).start := by
  rw [h.port]

theorem Begun.apply {p : Port} {q : Plan} {t0 : Int} {s u : State} (h : Begun p q t0 s u) : (u.stg.port p).apply = (s.stg.port p).apply := by
  rw [h.port]

theorem leaveHoldover_chainsRun (s : State) : ChainsRun s (leaveHoldover s) := by
  unfold leaveHoldover
  split
  · exact setPower_chainsRun ..
  · exact .refl s

theorem Begun.then {p : Port} {q : Plan} {t0 : Int} {s u v : State} (h : Begun p q t0 s u) (k : ChainsRun u v) : Begun p q t0 s v :=
  ⟨h.still.trans k.still, k.stg.trans h.stg, (k.run _).trans h.run, fun hup => k.inbox (h.event hup)⟩

section
variable (t : Int) (p : Port) (s : State)

theorem planStartAtT0_starts {r : StartReq} (hact : active s p.dom = true) (hstart : (s.stg.port p).start = some r) (hdue : r.t0 ≤ t) :
    ∃ ids : List Nat, exec (.planStartAtT0 t p) s = settle (leaveHoldover (finish r.id stApplied (lo32 r.t0) (hi32 r.t0) (beginPlan p r.plan r.t0
      (ids.foldl (fun s i => finish i stCancelled 0 0 s)
        (mapStg p (fun x => { x with start := none, retunes := [], gauge := none, apply := none }) (atTime t s)))))) := by
  rw [show exec (.planStartAtT0 t p) s = execPlanStartAtT0 t p s from rfl]
  unfold execPlanStartAtT0
  dsimp only
  rw [show active (atTime t s) p.dom = true from hact, show ((atTime t s).stg.port p).start = some r from hstart]
  exact ⟨_, if_neg (by exact not_lt.2 hdue)⟩

theorem planStartAtT0_changes {a : ApplyReq} (hact : active s p.dom = true) (hstart : (s.stg.port p).start = none)
    (ha : (s.stg.port p).apply = some a) (hgap : (s.stg.port p).gap = true) (hdue : a.t0 ≤ t) :
    exec (.planStartAtT0 t p) s = settle (finish a.id stApplied (lo32 a.t0) (hi32 a.t0)
      (beginPlan p a.plan a.t0 (mapStg p (fun x => { x with apply := none }) (atTime t s)))) := by
  show execPlanStartAtT0 t p s = _
  unfold execPlanStartAtT0
  dsimp only
  rw [show active (atTime t s) p.dom = true from hact, show ((atTime t s).stg.port p).start = none from hstart,
    show ((atTime t s).stg.port p).apply = some a from ha, show ((atTime t s).stg.port p).gap = true from hgap]
  dsimp only
  rw [if_neg (by decide), if_neg]
  rw [Bool.not_true, Bool.false_or, decide_eq_true_eq]
  exact not_lt.2 hdue

theorem planChangeAtP_silences {a : ApplyReq} (ha : (s.stg.port p).apply = some a) (hrun : (s.stg.port p).run = 1) (hdue : a.p ≤ t) :
    exec (.planChangeAtP t p) s = settle (mapFch (portFch p) (fun x => { x with close := some (a.np - 1) })
      (mapStg p (fun x => { x with gap := true, gate := 0 }) (atTime t s))) := by
  show execPlanChangeAtP t p s = _
  unfold execPlanChangeAtP
  dsimp only
  rw [show ((atTime t s).stg.port p).apply = some a from ha]
  refine if_neg ?_
  rw [show ((atTime t s).stg.port p).run = 1 from hrun]
  rw [decide_eq_false (by exact not_lt.2 hdue)]
  decide

theorem portStopEffect_stops {id : Nat} {te : Int} (hstop : (s.stg.port p).stop = some (id, te)) (hdue : te ≤ t) :
    ∃ n : Int, exec (.portStopEffect t p) s = settle (leaveHoldover (finish id stApplied (lo32 n) (hi32 n) (stopPort p 0 (cancelRequests p (atTime t s))))) := by
  rw [show exec (.portStopEffect t p) s = execPortStopEffect t p s from rfl]
  unfold execPortStopEffect
  dsimp only
  rw [show ((atTime t s).stg.port p).stop = some (id, te) from hstop]
  exact ⟨_, if_neg (by exact not_lt.2 hdue)⟩

theorem portStopEffect_holds {te : Int} (hstop : (s.stg.port p).stop = none) (hhold : (s.stg.port p).holdStop = some te) (hdue : te ≤ t) :
    ∃ v, exec (.portStopEffect t p) s = settle v ∧ ChainsRun (stopPort p 2 (atTime t s)) v := by
  rw [show exec (.portStopEffect t p) s = execPortStopEffect t p s from rfl]
  unfold execPortStopEffect
  dsimp only
  rw [show ((atTime t s).stg.port p).stop = none from hstop, show ((atTime t s).stg.port p).holdStop = some te from hhold]
  refine ⟨_, if_neg (by exact not_lt.2 hdue), ?_⟩
  split
  · exact (finishes_chainsRun ..).trans (setPower_chainsRun ..)
  · exact finishes_chainsRun ..

end

/-- What a command leaves that settles: its publication is nothing that a plan or a chain reads. -/
theorem settles_chainsRun {r : Host.Outcome State Fault Refusal} {v : State} (h : r = settle v) : ∃ u, r = .next u ∧ ChainsRun v u := by
  obtain ⟨u, o, g, hr, rfl⟩ := settled h
  exact ⟨_, hr, rfl, rfl, rfl, rfl, rfl, rfl, rfl, rfl, rfl, rfl, rfl, fun _ => rfl, rfl, List.Subset.refl _⟩

theorem cancelRequests_stg (p : Port) (s : State) :
    (cancelRequests p s).stg = s.stg.setPort p { s.stg.port p with apply := none, retunes := [], gauge := none } := by
  obtain ⟨k, i, w, g, h⟩ := cancelRequests_update p s
  rw [h]

/-- Settles O14. -/
theorem planEventsTakeEffectAtTheirInstant : Obligations.PlanEventsTakeEffectAtTheirInstant := by
  unfold Obligations.PlanEventsTakeEffectAtTheirInstant
  intro t p s x still running
  have hstill : ∀ {u : State}, PlanStill (atTime t s) u → still u := fun h =>
    ⟨h.clr, h.sin, h.phx, h.hen, h.sld, h.net, h.sec, congrArg PstSt.words h.pst, h.lhf, h.now⟩
  have hrunning : ∀ {q : Plan} {t0 : Int} {w u : State}, Begun p q t0 w u → aonUp w = aonUp s → running q t0 u := fun h ha =>
    ⟨congrArg StgSt.run h.port, congrArg StgSt.plan h.port, congrArg StgSt.t0 h.port, congrArg StgSt.next h.port, congrArg StgSt.last h.port, h.run,
      fun hup => h.event (ha.trans hup)⟩
  refine ⟨fun r hact hstart hdue => ?start, fun a hact hstart ha hgap hdue => ?change, fun a ha hrun hdue => ?silence, fun id te hstop hdue => ?stop,
    fun te hstop hhold hdue => ?hold⟩
  case start =>
    obtain ⟨ids, hexec⟩ := planStartAtT0_starts t p s hact hstart hdue
    have hbefore := finishes_chainsRun ids stCancelled 0 0 (mapStg p (fun x => { x with start := none, retunes := [], gauge := none, apply := none }) (atTime t s))
    generalize ids.foldl (fun s i => finish i stCancelled 0 0 s) _ = w at hexec hbefore
    have hw : PlanStill (atTime t s) w := (mapStg_still ..).trans hbefore.still
    obtain ⟨u, hu, hpub⟩ := settles_chainsRun hexec
    have hbegun := (((beginPlan_begun p r.plan r.t0 w).then (finish_chainsRun ..)).then (leaveHoldover_chainsRun _)).then hpub
    refine ⟨u, hu, hrunning hbegun hw.aon, hbegun.start.trans ?_, hstill (hw.trans hbegun.still)⟩
    rw [hbefore.stg, mapStg_stg, port_setPort]
  case change =>
    have hexec := planStartAtT0_changes t p s hact hstart ha hgap hdue
    have hw : PlanStill (atTime t s) (mapStg p (fun x => { x with apply := none }) (atTime t s)) := mapStg_still ..
    obtain ⟨u, hu, hpub⟩ := settles_chainsRun hexec
    have hbegun := ((beginPlan_begun p a.plan a.t0 _).then (finish_chainsRun ..)).then hpub
    refine ⟨u, hu, hrunning hbegun hw.aon, hbegun.apply.trans ?_, hstill (hw.trans hbegun.still)⟩
    rw [mapStg_stg, port_setPort]
  case silence =>
    have hexec := planChangeAtP_silences t p s ha hrun hdue
    have hchain := fchOf_mapFch (portFch p) (fun x => { x with close := some (a.np - 1) }) (mapStg p (fun x => { x with gap := true, gate := 0 }) (atTime t s))
    rw [mapFch_update] at hexec hchain
    exact settles hexec fun o g => ⟨rfl, hchain⟩
  case stop =>
    obtain ⟨n, hexec⟩ := portStopEffect_stops t p s hstop hdue
    have hw : PlanStill (atTime t s) (cancelRequests p (atTime t s)) := (mapStg_still ..).trans (finishes_chainsRun ..).still
    obtain ⟨hstopped, hrun, b, hstg⟩ := stopPort_stops p 0 (cancelRequests p (atTime t s))
    obtain ⟨u, hu, hpub⟩ := settles_chainsRun hexec
    have hrest := ((finish_chainsRun id stApplied (lo32 n) (hi32 n) _).trans (leaveHoldover_chainsRun _)).trans hpub
    have hport := (congrArg (fun y => Two.port y p) (hrest.stg.trans hstg)).trans (port_setPort ..)
    refine ⟨u, hu, congrArg StgSt.run hport, congrArg StgSt.gate hport, congrArg StgSt.code hport, congrArg StgSt.stop hport, congrArg StgSt.apply hport,
      (congrArg StgSt.retunes hport).trans ?_, (hrest.run _).trans hrun, hstill ((hw.trans hstopped).trans hrest.still)⟩
    show ((cancelRequests p (atTime t s)).stg.port p).retunes = []
    rw [cancelRequests_stg, port_setPort]
  case hold =>
    obtain ⟨v, hexec, hrest⟩ := portStopEffect_holds t p s hstop hhold hdue
    obtain ⟨hstopped, -, _, hstg⟩ := stopPort_stops p 2 (atTime t s)
    obtain ⟨u, hu, hpub⟩ := settles_chainsRun hexec
    have hport := (congrArg (fun y => Two.port y p) ((hrest.trans hpub).stg.trans hstg)).trans (port_setPort ..)
    exact ⟨u, hu, congrArg StgSt.run hport, (congrArg StgSt.plan hport :), (congrArg StgSt.t0 hport :), congrArg StgSt.gate hport, congrArg StgSt.code hport,
      hstill (hstopped.trans (hrest.trans hpub).still)⟩

end Sys2Proof.Proofs
end

section
/-!
Proofs of the statements about the converter links, the mailbag and the line samples (R58 to R72).
-/
namespace Sys2Proof.Proofs
open Sys2Proof.Machine Sys2Proof.Laws

/-! ## One converter changed -/

/-- The converter links with one converter's state put. -/
def convPut (p : Port) (q : Pol) (c : ConvSt) (x : Two ClrSt) : Two ClrSt := x.setPort p { x.port p with conv := (x.port p).conv.setPol q c }

theorem convPut_convPut (p : Port) (q : Pol) (c d : ConvSt) (x : Two ClrSt) : convPut p q d (convPut p q c x) = convPut p q d x := by
  cases p <;> cases q <;> rfl

theorem convPut_self (p : Port) (q : Pol) (x : Two ClrSt) : convPut p q ((x.port p).conv.pol q) x = x := by
  cases p <;> cases q <;> rfl

theorem pol_port_convPut (p : Port) (q : Pol) (c : ConvSt) (x : Two ClrSt) : ((convPut p q c x).port p).conv.pol q = c := by
  cases p <;> cases q <;> rfl

theorem pol_port_convPut_ne {p p' : Port} {q q' : Pol} (c : ConvSt) (x : Two ClrSt) (h : (p', q') ≠ (p, q)) :
    ((convPut p q c x).port p').conv.pol q' = (x.port p').conv.pol q' := by
  revert h
  cases p <;> cases q <;> cases p' <;> cases q' <;> simp [convPut, Two.port, Two.setPort, Two.pol, Two.setPol]

/-- What a slate says of the instants that it holds: its first instant, and those that each converter delivered (R65). -/
def slateKey (d : Slate) : Int × Nat × Nat := (d.start, d.gotX, d.gotY)

/-- Two states of a mailbag that differ in the marks of slates alone (R67). -/
structure SinMarked (x y : SinSt) : Prop where
  update : y = { x with slates := y.slates }
  keys : y.slates.map slateKey = x.slates.map slateKey

theorem SinMarked.refl (x : SinSt) : SinMarked x x := ⟨rfl, rfl⟩

theorem SinMarked.trans {x y z : SinSt} (h : SinMarked x y) (k : SinMarked y z) : SinMarked x z := by
  refine ⟨?_, k.keys.trans h.keys⟩
  rw [k.update, h.update]

/-- From s to u one converter's state moved: what else changed is counted, recorded, or noted for the segment guard, and slates got their marks. -/
structure ConvMoved (p : Port) (q : Pol) (s u : State) : Prop where
  update : ∃ k i c n x, u = { s with ctr := k, erc := { s.erc with inbox := i }, clr := convPut p q c s.clr, convNote := n, sin := s.sin.setPort p x }
    ∧ SinMarked (s.sin.port p) x

theorem ConvMoved.refl (p : Port) (q : Pol) (s : State) : ConvMoved p q s s := by
  refine ⟨s.ctr, s.erc.inbox, convOf s p q, s.convNote, s.sin.port p, ?_, .refl _⟩
  rw [setPort_port, show convPut p q (convOf s p q) s.clr = s.clr from convPut_self ..]

theorem ConvMoved.trans {p : Port} {q : Pol} {s t u : State} (h : ConvMoved p q s t) (h' : ConvMoved p q t u) : ConvMoved p q s u := by
  obtain ⟨k, i, c, n, x, rfl, hx⟩ := h.update
  obtain ⟨k', i', c', n', x', rfl, hx'⟩ := h'.update
  dsimp only at hx'
  rw [port_setPort] at hx'
  refine ⟨k', i', c', n', x', ?_, hx.trans hx'⟩
  dsimp only
  rw [convPut_convPut, setPort_setPort]

theorem ConvMoved.other {p p' : Port} {q q' : Pol} {s u : State} (h : ConvMoved p q s u) (hne : (p', q') ≠ (p, q)) : convOf u p' q' = convOf s p' q' := by
  obtain ⟨k, i, c, n, x, rfl, -⟩ := h.update
  exact pol_port_convPut_ne c s.clr hne

theorem ConvMoved.sin {p : Port} {q : Pol} {s u : State} (h : ConvMoved p q s u) : SinMarked (s.sin.port p) (u.sin.port p) := by
  obtain ⟨k, i, c, n, x, rfl, hx⟩ := h.update
  rw [show ({ s with ctr := k, erc := _, clr := _, convNote := n, sin := s.sin.setPort p x } : State).sin.port p = x from port_setPort ..]
  exact hx

section
variable (p : Port) (q : Pol) (s : State)

@[simp] theorem convOf_mapConv (f : ConvSt → ConvSt) : convOf (mapConv p q f s) p q = f (convOf s p q) := pol_port_convPut ..

theorem convOf_congr {s u : State} (h : u.clr = s.clr) : convOf u p q = convOf s p q := by
  unfold convOf
  rw [h]

theorem convOf_convNoted (align : Bool) : convOf (convNoted p align s) p q = convOf s p q := rfl

theorem convOf_bump (o : Nat) : convOf (bump o s) p q = convOf s p q := rfl

theorem mapConv_moved (f : ConvSt → ConvSt) : ConvMoved p q s (mapConv p q f s) := by
  refine ⟨s.ctr, s.erc.inbox, f (convOf s p q), s.convNote, s.sin.port p, ?_, .refl _⟩
  rw [setPort_port]
  rfl

theorem convMoved_of_report (k : Tab Nat) (i : List EvIn) (n : Two ConvNote) :
    ConvMoved p q s { s with ctr := k, erc := { s.erc with inbox := i }, convNote := n } := by
  refine ⟨k, i, convOf s p q, n, s.sin.port p, ?_, .refl _⟩
  rw [setPort_port, show convPut p q (convOf s p q) s.clr = s.clr from convPut_self ..]

theorem note_moved (code : Nat) (d : Dom) (b : Nat) (p0 p1 p2 : Word) : ConvMoved p q s (note code d b p0 p1 p2 s) := by
  rw [note_update]
  exact convMoved_of_report p q s s.ctr _ s.convNote

theorem convOf_note (code : Nat) (d : Dom) (b : Nat) (p0 p1 p2 : Word) : convOf (note code d b p0 p1 p2 s) p q = convOf s p q := by
  rw [note_update]
  rfl

theorem bumpBy_moved (o n : Nat) : ConvMoved p q s (bumpBy o n s) := convMoved_of_report p q s _ s.erc.inbox s.convNote

theorem convNoted_moved (align : Bool) : ConvMoved p q s (convNoted p align s) := convMoved_of_report p q s s.ctr s.erc.inbox _

theorem countMarks_update (x y : SinSt) : ∃ k, countMarks p x y s = { s with ctr := k } := by
  unfold countMarks
  dsimp only
  generalize List.range 4 = l
  induction l generalizing s with
  | nil => exact ⟨s.ctr, rfl⟩
  | cons n l ih =>
    obtain ⟨k, hk⟩ := ih (bumpBy _ _ s)
    exact ⟨k, hk⟩

theorem slateKey_link (d : Slate) (lo hi : Int) : slateKey (d.link q lo hi) = slateKey d := rfl

theorem sinLinked (x : SinSt) (lo hi : Int) : SinMarked x { x with slates := x.slates.map (fun d => d.link q lo hi) } := by
  refine ⟨rfl, ?_⟩
  rw [List.map_map]
  exact List.map_congr_left fun d _ => slateKey_link q d lo hi

theorem settleCrc_moved (ok : Bool) : ConvMoved p q s (settleCrc p q ok s) := by
  unfold settleCrc
  split
  · exact .refl p q s
  case _ k lo hi _ =>
    dsimp only
    split
    · exact mapConv_moved ..
    · refine (mapConv_moved p q s (fun c => { c with await := none })).trans ?_
      generalize mapConv p q (fun c => { c with await := none }) s = v
      obtain ⟨k, hk⟩ := countMarks_update p (mapSin p (fun x => { x with slates := x.slates.map (fun d => d.link q lo hi) }) v) (v.sin.port p)
        ((mapSin p (fun x => { x with slates := x.slates.map (fun d => d.link q lo hi) }) v).sin.port p)
      rw [hk]
      refine ⟨k, v.erc.inbox, convOf v p q, v.convNote, _, ?_, sinLinked q (v.sin.port p) lo hi⟩
      rw [show convPut p q (convOf v p q) v.clr = v.clr from convPut_self ..]
      rfl

/-! ## Into DOWN, into RETIRED (R60, R63) -/

theorem convRetire_moved (cause : Nat) : ConvMoved p q s (convRetire p q cause s) :=
  (((settleCrc_moved p q s false).trans (mapConv_moved ..)).trans (convNoted_moved ..)).trans (note_moved ..)

theorem convOf_convRetire (cause : Nat) : (convOf (convRetire p q cause s) p q).st = 4 := by
  unfold convRetire
  rw [convOf_note, convOf_convNoted, convOf_mapConv]

/-- The entries into DOWN from ALIGNED of the last second, before t (R60). -/
def recentDowns (c : ConvSt) (t : Int) : List Int := c.downs.filter (fun d => decide (t - d < 1000000000))

theorem convDown_moved (cause : Nat) : ConvMoved p q s (convDown p q cause s) := by
  unfold convDown
  extract_lets c downs v
  have hv : ConvMoved p q s v :=
    ((((settleCrc_moved p q s false).trans (mapConv_moved ..)).trans (bumpBy_moved ..)).trans (convNoted_moved ..)).trans (note_moved ..)
  split
  · exact hv.trans (convRetire_moved ..)
  · exact hv

/-- A converter into DOWN: the fourth entry from ALIGNED within 1 s retires it. -/
theorem convOf_convDown (cause : Nat) : (convOf (convDown p q cause s) p q).st =
    if (convOf s p q).st = 3 ∧ 3 ≤ (recentDowns (convOf s p q) s.now).length then 4 else 0 := by
  unfold convDown
  extract_lets c downs v
  have hv : (convOf v p q).st = 0 := by
    unfold v
    rw [convOf_note, convOf_convNoted, convOf_bump, convOf_mapConv]
  by_cases hst : (convOf s p q).st = 3
  · have hdowns : downs.length = (recentDowns (convOf s p q) s.now).length + 1 := by
      unfold downs recentDowns
      rw [if_pos hst, List.length_append]
      rfl
    have hiff : (decide (c.st = 3) && decide (downs.length ≥ 4)) = true ↔ ((convOf s p q).st = 3 ∧ 3 ≤ (recentDowns (convOf s p q) s.now).length) := by
      rw [hdowns, Bool.and_eq_true, decide_eq_true_eq, decide_eq_true_eq]
      exact and_congr_right fun _ => by omega
    by_cases hfour : (convOf s p q).st = 3 ∧ 3 ≤ (recentDowns (convOf s p q) s.now).length
    · rw [if_pos hfour, if_pos (hiff.2 hfour)]
      exact convOf_convRetire ..
    · rw [if_neg hfour, if_neg (fun h => hfour (hiff.1 h))]
      exact hv
  · rw [if_neg fun h : (convOf s p q).st = 3 ∧ _ => hst h.1]
    refine (congrArg (fun v => (convOf v p q).st) (if_neg ?_)).trans hv
    rw [show decide (c.st = 3) = false from decide_eq_false hst, Bool.false_and]
    exact Bool.false_ne_true

theorem holdEmb_moved (l : List LaneArrival) : ConvMoved p q s (holdEmb p q l s) := by
  unfold holdEmb
  split
  · dsimp only
    split
    · exact .refl p q s
    · exact mapConv_moved ..
  · exact .refl p q s

theorem convOf_holdEmb (l : List LaneArrival) : (convOf (holdEmb p q l s) p q).st = (convOf s p q).st := by
  unfold holdEmb
  split
  · dsimp only
    split
    · rfl
    · rw [convOf_mapConv]
  · rfl

end

/-! ## An arrival (R60) -/

/-- Some lane of a converter missed its third pilot in a row, as the model counts the run and as the rule says it (R60). -/
theorem any_run_iff (l : List LaneArrival) (missRun : List Nat) :
    ((List.range l.length).map (fun i => if (l.map (·.pilotMissing)).getD i false then nth 0 missRun i + 1 else 0)).any (fun n => decide (n ≥ 3))
      = (List.range l.length).any (fun i => (l.map (·.pilotMissing)).getD i false && decide (2 ≤ nth 0 missRun i)) := by
  rw [List.any_map]
  refine congrArg (List.any _) (funext fun i => ?_)
  dsimp only [Function.comp]
  split
  case isTrue h =>
    rw [h, Bool.true_and]
    exact decide_eq_decide.2 (by omega)
  case isFalse h =>
    rw [Bool.not_eq_true] at h
    rw [h]
    rfl

/-- What an arrival that is whole makes of the converter's state, by the state that it is in (R60). -/
structure Arrived (t : Int) (p : Port) (q : Pol) (own : List LaneArrival) (s u : State) : Prop where
  moved : ConvMoved p q (atTime t s) u
  down : (convOf s p q).st = 0 → (convOf u p q).st = if own.all (fun a => decide (a.validRun ≥ 64)) then 1 else 0
  shLock : (convOf s p q).st = 1 → (convOf u p q).st = if own.any (fun a => decide (a.invalidIn64 ≥ 16)) then 0
    else if own.all (fun a => decide (a.pilotRun ≥ 4)) then 2 else 1
  embLock : (convOf s p q).st = 2 → (convOf u p q).st = if own.any (·.pilotMissing) || own.any (fun a => decide (a.invalidIn64 ≥ 16)) then 0 else 2
  aligned : (convOf s p q).st = 3 → (convOf u p q).st = if own.any (fun a => decide (a.invalidIn64 ≥ 16))
      || (List.range own.length).any (fun i => (own.map (·.pilotMissing)).getD i false && decide (2 ≤ nth 0 (convOf s p q).missRun i))
    then (if decide (3 ≤ (recentDowns (convOf s p q) t).length) then 4 else 0) else 3
  retired : (convOf s p q).st = 4 → convOf u p q = convOf s p q

theorem convDown_from (p : Port) (q : Pol) (cause : Nat) (t : Int) {s : State} (h : (convOf s p q).st ≠ 3) : (convOf (convDown p q cause (atTime t s)) p q).st = 0 := by
  rw [convOf_convDown]
  exact if_neg fun h' => h h'.1

theorem convDown_aligned (p : Port) (q : Pol) (cause : Nat) (t : Int) {s : State} (h : (convOf s p q).st = 3) :
    (convOf (convDown p q cause (atTime t s)) p q).st = if decide (3 ≤ (recentDowns (convOf s p q) t).length) then 4 else 0 := by
  rw [convOf_convDown]
  by_cases h3 : 3 ≤ (recentDowns (convOf s p q) t).length
  · rw [decide_eq_true h3]
    exact if_pos ⟨h, h3⟩
  · rw [decide_eq_false h3]
    exact if_neg fun h' => h3 h'.2

theorem multiblockArrival_arrives {t : Int} {p : Port} {q : Pol} {l : List LaneArrival} {s : State} (hact : active s p.dom = true)
    (hfull : (ownArrivals s p q l).map (·.lane.val) = convLanes s p q) :
    ∃ v, exec (.multiblockArrival t p q l) s = settle v ∧ Arrived t p q (ownArrivals s p q l) s v := by
  have hgo : (!active (atTime t s) p.dom || !((ownArrivals (atTime t s) p q l).map (·.lane.val) == convLanes (atTime t s) p q)) = false := by
    rw [show active (atTime t s) p.dom = true from hact, show ((ownArrivals (atTime t s) p q l).map (·.lane.val) == convLanes (atTime t s) p q) = true
      from beq_iff_eq.2 hfull]
    rfl
  rw [show exec (.multiblockArrival t p q l) s = execMultiblockArrival t p q l s from rfl]
  unfold execMultiblockArrival
  dsimp only
  rw [hgo, if_neg Bool.false_ne_true, any_run_iff, show convOf (atTime t s) p q = convOf s p q from rfl,
    show ownArrivals (atTime t s) p q l = ownArrivals s p q l from rfl]
  generalize ownArrivals s p q l = own
  by_cases h0 : (convOf s p q).st = 0
  · refine ⟨_, if_pos h0, ?_, fun _ => ?_, fun h => by omega, fun h => by omega, fun h => by omega, fun h => by omega⟩
    · split
      · exact (mapConv_moved ..).trans (convNoted_moved ..)
      · exact .refl ..
    · split
      · rw [convOf_convNoted, convOf_mapConv]
      · exact h0
  rw [if_neg h0]
  by_cases h1 : (convOf s p q).st = 1
  · refine ⟨_, if_pos h1, ?_, fun h => by omega, fun _ => ?_, fun h => by omega, fun h => by omega, fun h => by omega⟩
    · split
      · exact convDown_moved ..
      split
      · exact (mapConv_moved ..).trans (convNoted_moved ..)
      · exact .refl ..
    · split
      · exact convDown_from p q 0 t (by omega)
      split
      · rw [convOf_convNoted, convOf_mapConv]
      · exact h1
  rw [if_neg h1]
  by_cases h2 : (convOf s p q).st = 2
  · refine ⟨_, if_pos h2, ?_, fun h => by omega, fun h => by omega, fun _ => ?_, fun h => by omega, fun h => by omega⟩
    · split
      · exact convDown_moved ..
      split
      · exact convDown_moved ..
      · exact holdEmb_moved ..
    · cases hl : own.any (fun a => decide (a.invalidIn64 ≥ 16)) with
      | true =>
        rw [Bool.or_true, if_pos rfl, if_pos rfl]
        exact convDown_from p q 0 t (by omega)
      | false =>
        rw [Bool.or_false, if_neg Bool.false_ne_true]
        split
        · exact convDown_from p q 1 t (by omega)
        · exact (convOf_holdEmb ..).trans h2
  rw [if_neg h2]
  by_cases h3 : (convOf s p q).st = 3
  · refine ⟨_, if_pos h3, ?_, fun h => by omega, fun h => by omega, fun h => by omega, fun _ => ?_, fun h => by omega⟩
    · split
      · exact convDown_moved ..
      split
      · exact convDown_moved ..
      · exact (mapConv_moved ..).trans (holdEmb_moved ..)
    · cases hl : own.any (fun a => decide (a.invalidIn64 ≥ 16)) with
      | true =>
        rw [Bool.true_or, if_pos rfl, if_pos rfl]
        exact convDown_aligned p q 0 t h3
      | false =>
        rw [Bool.false_or, if_neg Bool.false_ne_true]
        split
        · exact convDown_aligned p q 1 t h3
        · rw [convOf_holdEmb, convOf_mapConv]
          exact h3
  rw [if_neg h3]
  exact ⟨_, rfl, .refl .., fun h => absurd h h0, fun h => absurd h h1, fun h => absurd h h2, fun h => absurd h h3, fun _ => rfl⟩

/-- A RETIRED converter re-admitted (R60). -/
def readmitted (c : ConvSt) : ConvSt := { c with st := 0, inWindow := 0, missRun := [], downs := [], crcRound := 0 }

/-! ## SYSREF (R61, R439) -/

section
variable {t : Int} {p : Port} {s : State}

/-- The state with the grid of a port set at t. -/
def gridSet (t : Int) (p : Port) (s : State) : State := { atTime t s with clr := s.clr.setPort p { s.clr.port p with grid := some t } }

theorem sysrefEdge_none (hact : active s p.dom = true) (h : (s.clr.port p).grid = none) : exec (.sysrefEdge t p) s =
    if ((s.stg.port p).run == 0 && s.refs.sel.isSome && (convOf s p .x).st != 3 && (convOf s p .y).st != 3) = true then settle (gridSet t p s)
    else settle (atTime t s) := by
  rw [show exec (.sysrefEdge t p) s = execSysrefEdge t p s from rfl]
  unfold execSysrefEdge
  dsimp only
  rw [show active (atTime t s) p.dom = true from hact, show ((atTime t s).clr.port p).grid = none from h]
  rfl

/-- How far an edge lies off the grid g (R61). -/
def gridOff (t g : Int) (p : Port) (s : State) : Int := wrap (t - g) (if lemcPeriod s p = 256 then 8 else 7)

theorem sysrefEdge_some {g : Int} (hact : active s p.dom = true) (h : (s.clr.port p).grid = some g) : exec (.sysrefEdge t p) s =
    if ((s.stg.port p).run == 0 && s.refs.sel.isSome && ((convOf s p .x).st == 0 || (convOf s p .x).st == 4)
      && ((convOf s p .y).st == 0 || (convOf s p .y).st == 4)) = true then settle (gridSet t p s)
    else if (decide (gridOff t g p s > 1) || decide (gridOff t g p s < -1)) = true then
      settle (note evSysrefOffGrid p.dom 1 (w32 p.num) (w32i (gridOff t g p s)) 0 (atTime t s))
    else settle (atTime t s) := by
  rw [show exec (.sysrefEdge t p) s = execSysrefEdge t p s from rfl]
  unfold execSysrefEdge
  dsimp only
  rw [show active (atTime t s) p.dom = true from hact, show ((atTime t s).clr.port p).grid = some g from h]
  rfl

end

/-- Settles O17. -/
theorem linksAndGridFollowArrivals : Obligations.LinksAndGridFollowArrivals := by
  unfold Obligations.LinksAndGridFollowArrivals
  refine ⟨⟨?arrival, ?readmit⟩, ?sysref⟩
  case arrival =>
    intro t p q l s hact hfull c own lost miss third fourth
    obtain ⟨v, hexec, hv⟩ := multiblockArrival_arrives (t := t) hact hfull
    obtain ⟨k, i, c', n, x, hupdate, -⟩ := hv.moved.update
    obtain ⟨u, o, g, hnext, hu⟩ := settled hexec
    have hconv : ∀ p' q', convOf u p' q' = convOf v p' q' := fun p' q' => by rw [hu]; rfl
    refine ⟨u, hnext, fun h => by rw [hconv]; exact hv.down h, fun h => by rw [hconv]; exact hv.shLock h, fun h => by rw [hconv]; exact hv.embLock h,
      fun h => by rw [hconv]; exact hv.aligned h, fun h => (hconv ..).trans (hv.retired h), fun p' q' h => (hconv ..).trans (hv.moved.other h), ?_⟩
    have hsin : u.sin = s.sin.setPort p x := by rw [hu, hupdate]; rfl
    have hframe : u = { reported s u with now := t, clr := u.clr, convNote := u.convNote, sin := u.sin } := by rw [hu, hupdate]; rfl
    exact hframe.trans (congrArg (fun x => { reported s u with now := t, clr := u.clr, convNote := u.convNote, sin := x }) (setPort_own hsin))
  case readmit =>
    intro c s hpass p q
    obtain ⟨x, hx, -⟩ := taken_of_passes hpass
    have hres := hx.reserve
    obtain ⟨k, n, i, l, y, hx'⟩ := hx.update
    have hconv : ∀ p' q', convOf x p' q' = convOf s p' q' := fun p' q' => by rw [hx']; rfl
    have hactive : active x p.dom = active s p.dom := by rw [hx']; rfl
    refine ⟨fun hst hact => ?_, fun hno => ?_⟩
    · obtain ⟨u, hexec, hdone, ⟨hst', hothers, hframe⟩⟩ := hx.completes (st := stApplied) (r0 := 0) (r1 := 0) (eff := effLinkReadmit)
          (v := convNoted p false (mapConv p q readmitted x))
          (P := fun u => (convOf u p q).st = 0 ∧ (∀ p' q', (p', q') ≠ (p, q) → convOf u p' q' = convOf s p' q')
            ∧ u = { commanded s u with now := c.t, clr := u.clr, convNote := u.convNote })
          (by
            unfold effLinkReadmit
            refine if_pos ?_
            rw [Bool.and_eq_true, decide_eq_true_eq]
            exact ⟨(congrArg ConvSt.st (hconv p q)).trans hst, hactive.trans hact⟩)
          ⟨rfl, rfl, fun _ _ => rfl, rfl, rfl, rfl⟩ ⟨rfl, rfl, rfl, rfl, rfl, rfl⟩ fun k o g g' => by
            refine ⟨?_, fun p' q' hne => ?_, ?_⟩
            · exact congrArg ConvSt.st ((convOf_congr p q (s := mapConv p q readmitted x) rfl).trans (convOf_mapConv p q x readmitted))
            · exact (convOf_congr p' q' (s := mapConv p q readmitted x) rfl).trans (((mapConv_moved p q x readmitted).other hne).trans (hconv p' q'))
            subst hx'
            exact with_reserve _ hres
      exact ⟨u, hexec, hdone, hst', hothers, hframe⟩
    · refine hx.refuses ?_
      unfold effLinkReadmit
      refine if_neg ?_
      rw [Bool.and_eq_true, decide_eq_true_eq]
      rintro ⟨hst, hact⟩
      obtain h | h := hno
      · exact h ((congrArg ConvSt.st (hconv p q)).symm.trans hst)
      · exact Bool.false_ne_true (h.symm.trans (hactive.symm.trans hact))
  case sysref =>
    intro t p s hact
    refine ⟨fun hsel hg hrun hx hy => ?_, fun hg hno => ?_, fun g hsel hg hrun hquiet => ?_, fun g hg hno => ?_⟩
    · have hexec := (sysrefEdge_none (t := t) hact hg).trans (if_pos (by
        simp only [Bool.and_eq_true, beq_iff_eq, bne_iff_ne, Option.isSome_iff_ne_none]
        exact ⟨⟨⟨hrun, hsel⟩, hx⟩, hy⟩))
      exact settles hexec fun o g => rfl
    · have hexec := (sysrefEdge_none (t := t) hact hg).trans (if_neg (by
        simp only [Bool.and_eq_true, beq_iff_eq, bne_iff_ne, Option.isSome_iff_ne_none]
        tauto))
      exact settles hexec fun o g => rfl
    · have hexec := (sysrefEdge_some (t := t) hact hg).trans (if_pos (by
        simp only [Bool.and_eq_true, Bool.or_eq_true, beq_iff_eq, Option.isSome_iff_ne_none]
        exact ⟨⟨⟨hrun, hsel⟩, hquiet .x⟩, hquiet .y⟩))
      exact settles hexec fun o g => rfl
    · intro off
      have hexec := (sysrefEdge_some (t := t) hact hg).trans (if_neg (by
        simp only [Bool.and_eq_true, Bool.or_eq_true, beq_iff_eq, Option.isSome_iff_ne_none]
        rintro ⟨⟨⟨hrun, hsel⟩, hx⟩, hy⟩
        obtain h | h | ⟨q, h0, h4⟩ := hno
        · exact hsel h
        · exact h hrun
        · cases q
          · exact hx.elim h0 h4
          · exact hy.elim h0 h4))
      by_cases hoff : 1 < off ∨ off < -1
      · rw [if_pos (by simp only [Bool.or_eq_true, decide_eq_true_eq]; exact hoff), note_update] at hexec
        refine settles hexec fun o g => ⟨rfl, ?_⟩
        show s.erc.inbox ++ (if aonUp s = true then _ else _) = _
        simp only [hoff, true_and]
        rfl
      · rw [if_neg (by simp only [Bool.or_eq_true, decide_eq_true_eq]; exact hoff)] at hexec
        refine settles hexec fun o g => ⟨rfl, ?_⟩
        rw [if_neg (fun h => hoff h.1), List.append_nil]
        rfl

end Sys2Proof.Proofs
end

section
/-!
Proof of the statement about the capture of released extended multiblocks (R62, R64, R65, R70).
-/
namespace Sys2Proof.Proofs
open Sys2Proof.Machine Sys2Proof.Laws

/-! ## The mailbag's slates (R65) -/

/-- Whether an instant of a converter is stored, from what the slates say (R65). -/
def gotKey (l : List (Int × Nat × Nat)) (q : Pol) (t : Int) : Bool :=
  match l.find? (fun k => k.1 == slateStart t) with
  | some k => (match q with | .x => k.2.1 | .y => k.2.2).testBit (t - k.1).toNat
  | none => false

theorem gotSample_eq (x : SinSt) (q : Pol) (t : Int) : gotSample x q t = gotKey (x.slates.map slateKey) q t := by
  unfold gotSample gotKey slateOf
  rw [List.find?_map]
  show _ = match (x.slates.find? (fun d => d.start == slateStart t)).map slateKey with | some _ => _ | none => _
  cases x.slates.find? (fun d => d.start == slateStart t) with
  | none => rfl
  | some d => cases q <;> rfl

theorem SinMarked.gotSample {x y : SinSt} (h : SinMarked x y) (q : Pol) (t : Int) : gotSample y q t = gotSample x q t := by
  rw [gotSample_eq, gotSample_eq, h.keys]

/-- From x to y samples were stored: line samples stand, stored and lost instants stay so, no slate beyond the 4 096 was taken (R65, R70). -/
structure SamplesKept (x y : SinSt) : Prop where
  update : y = { x with slates := y.slates, lost := y.lost }
  got : ∀ q t, gotSample x q t = true → gotSample y q t = true
  lost : x.lost ⊆ y.lost
  room : x.slates.length ≤ 4096 → y.slates.length ≤ 4096

theorem SamplesKept.refl (x : SinSt) : SamplesKept x x := ⟨rfl, fun _ _ h => h, List.Subset.refl _, id⟩

theorem SamplesKept.trans {x y z : SinSt} (h : SamplesKept x y) (k : SamplesKept y z) : SamplesKept x z := by
  refine ⟨?_, fun q t e => k.got q t (h.got q t e), List.Subset.trans h.lost k.lost, fun e => k.room (h.room e)⟩
  rw [k.update, h.update]

/-- An instant of a converter stored, or known as lost. -/
def Captured (q : Pol) (t : Int) (x : SinSt) : Prop := gotSample x q t = true ∨ t ∈ x.lost

theorem SamplesKept.captured {x y : SinSt} (h : SamplesKept x y) {q : Pol} {t : Int} (k : Captured q t x) : Captured q t y :=
  k.imp (h.got q t) (@h.lost t)

theorem find?_insertBy_of_false {α : Type} {p : α → Bool} {a : α} (key : α → Int) (h : p a = false) (l : List α) :
    (insertBy key a l).find? p = l.find? p := by
  induction l with
  | nil => unfold insertBy; rw [List.find?_cons, h]
  | cons b l ih =>
    unfold insertBy
    split
    · rw [List.find?_cons, h]
    · rw [List.find?_cons, List.find?_cons, ih]

theorem find?_insertBy_of_true {α : Type} {p : α → Bool} {a : α} (key : α → Int) (h : p a = true) {l : List α} (hl : l.find? p = none) :
    (insertBy key a l).find? p = some a := by
  induction l with
  | nil => unfold insertBy; rw [List.find?_cons, h]
  | cons b l ih =>
    rw [List.find?_cons] at hl
    unfold insertBy
    split
    · rw [List.find?_cons, h]
    · rw [List.find?_cons]
      cases hb : p b with
      | true => rw [hb] at hl; exact absurd hl (by simp)
      | false => rw [hb] at hl; exact ih hl

theorem length_insertBy {α : Type} (key : α → Int) (a : α) (l : List α) : (insertBy key a l).length = l.length + 1 := by
  induction l with
  | nil => rfl
  | cons b l ih =>
    unfold insertBy
    split
    · rfl
    · rw [List.length_cons, ih, List.length_cons]

/-- The instants that a slate holds of a converter. -/
def slateGot (d : Slate) (q : Pol) : Nat := match q with | .x => d.gotX | .y => d.gotY

theorem gotSample_slateOf (x : SinSt) (q : Pol) (t : Int) :
    gotSample x q t = match slateOf x t with | some d => (slateGot d q).testBit (t - d.start).toNat | none => false := by
  unfold gotSample slateGot
  cases slateOf x t <;> rfl

section
variable (d : Slate) (q : Pol) (t : Int) (v : BitVec 16) (ovr link : Bool)

theorem put_start : (d.put q t v ovr link).start = d.start := by cases q <;> rfl

theorem put_got : (slateGot (d.put q t v ovr link) q).testBit (t - d.start).toNat = true := by
  cases q
  · show (d.gotX ||| 2 ^ _).testBit _ = true
    rw [Nat.testBit_or, Nat.testBit_two_pow_self, Bool.or_true]
  · show (d.gotY ||| 2 ^ _).testBit _ = true
    rw [Nat.testBit_or, Nat.testBit_two_pow_self, Bool.or_true]

theorem put_keeps {q' : Pol} {i : Nat} (h : (slateGot d q').testBit i = true) : (slateGot (d.put q t v ovr link) q').testBit i = true := by
  cases q <;> cases q'
  · show (d.gotX ||| 2 ^ _).testBit _ = true
    rw [Nat.testBit_or, show d.gotX.testBit i = true from h, Bool.true_or]
  · exact h
  · exact h
  · show (d.gotY ||| 2 ^ _).testBit _ = true
    rw [Nat.testBit_or, show d.gotY.testBit i = true from h, Bool.true_or]

end

theorem slateOf_start {x : SinSt} {t : Int} {d : Slate} (h : slateOf x t = some d) : d.start = slateStart t := by
  have := List.find?_some h
  simpa using this

/-- Slates changed one for one, each at its place, are found as before. -/
theorem slateOf_map {x y : SinSt} {f : Slate → Slate} (hy : y.slates = x.slates.map f) (hf : ∀ e, (f e).start = e.start) (t : Int) :
    slateOf y t = (slateOf x t).map f := by
  unfold slateOf
  rw [hy, List.find?_map]
  exact congrArg (fun p => (x.slates.find? p).map f) (funext fun e => by dsimp only [Function.comp]; rw [hf])

/-- One sample stored in the slate that stands for its instant. -/
theorem storeInto_kept {x : SinSt} {q : Pol} {t : Int} {d : Slate} (v : BitVec 16) (ovr link : Bool) (h : slateOf x t = some d) :
    let y := { x with slates := x.slates.map (fun e => if e.start == d.start then d.put q t v ovr link else e) }
    SamplesKept x y ∧ Captured q t y := by
  intro y
  have hstart : ∀ e, (if e.start == d.start then d.put q t v ovr link else e).start = e.start := fun e => by
    split
    case isTrue he => rw [put_start, beq_iff_eq.1 he]
    · rfl
  have hslate := fun t' => slateOf_map (y := y) (f := fun e => if e.start == d.start then d.put q t v ovr link else e) rfl hstart t'
  refine ⟨⟨rfl, fun q' t' hgot => ?_, List.Subset.refl _, fun hroom => by rw [show y.slates.length = _ from List.length_map ..]; exact hroom⟩, .inl ?_⟩
  · rw [gotSample_slateOf] at hgot ⊢
    rw [hslate]
    cases he : slateOf x t' with
    | none => rw [he] at hgot; exact absurd hgot Bool.false_ne_true
    | some e =>
      rw [he] at hgot
      show (slateGot (if e.start == d.start then d.put q t v ovr link else e) q').testBit (t' - (if e.start == d.start then d.put q t v ovr link else e).start).toNat = true
      rw [hstart]
      split
      case isTrue hed =>
        have hsame : slateOf x t' = slateOf x t := by
          unfold slateOf
          rw [← slateOf_start he, ← slateOf_start h, beq_iff_eq.1 hed]
        rw [he, h] at hsame
        cases hsame
        exact put_keeps d q t v ovr link hgot
      · exact hgot
  · rw [gotSample_slateOf, hslate, h]
    show (slateGot (if d.start == d.start then d.put q t v ovr link else d) q).testBit (t - (if d.start == d.start then d.put q t v ovr link else d).start).toNat = true
    rw [hstart, if_pos (beq_self_eq_true d.start)]
    exact put_got ..

/-- One sample stored in a free slate. -/
theorem storeNew_kept {x : SinSt} {q : Pol} {t : Int} (v : BitVec 16) (ovr link : Bool) (h : slateOf x t = none) (hroom : x.slates.length < 4096) :
    let y := { x with slates := insertBy (·.start) ((newSlate (slateStart t)).put q t v ovr link) x.slates }
    SamplesKept x y ∧ Captured q t y := by
  intro y
  have hstart : ((newSlate (slateStart t)).put q t v ovr link).start = slateStart t := put_start ..
  have hnew : slateOf y t = some ((newSlate (slateStart t)).put q t v ovr link) :=
    find?_insertBy_of_true _ (by rw [hstart]; exact beq_self_eq_true _) h
  refine ⟨⟨rfl, fun q' t' hgot => ?_, List.Subset.refl _, fun _ => ?_⟩, .inl ?_⟩
  · by_cases hs : slateStart t' = slateStart t
    · have hnone : slateOf x t' = none := by unfold slateOf at h ⊢; rw [hs]; exact h
      rw [gotSample_slateOf, hnone] at hgot
      exact absurd hgot Bool.false_ne_true
    · have hsame : slateOf y t' = slateOf x t' := find?_insertBy_of_false _ (by rw [hstart]; exact beq_eq_false_iff_ne.2 fun e => hs e.symm) _
      rw [gotSample_slateOf] at hgot ⊢
      rw [hsame]
      exact hgot
  · rw [show y.slates.length = _ from length_insertBy ..]
    omega
  · rw [gotSample_slateOf, hnew]
    show (slateGot ((newSlate (slateStart t)).put q t v ovr link) q).testBit (t - ((newSlate (slateStart t)).put q t v ovr link).start).toNat = true
    rw [put_start]
    exact put_got ..

/-- One sample stored, or lost where no slate is free (R65, R70). -/
theorem storeSample_kept (q : Pol) (t : Int) (v : BitVec 16) (ovr link : Bool) (x : SinSt) :
    SamplesKept x (storeSample q t v ovr link x) ∧ Captured q t (storeSample q t v ovr link x) := by
  unfold storeSample
  split
  case isTrue h => exact ⟨.refl x, .inr (List.contains_iff_mem.1 h)⟩
  split
  case _ d h => exact storeInto_kept v ovr link h
  case _ h =>
    split
    case isTrue hroom => exact storeNew_kept v ovr link h hroom
    · exact ⟨⟨rfl, fun _ _ h => h, List.subset_append_left .., id⟩, .inr (List.mem_append_right _ (List.mem_singleton.2 rfl))⟩

/-- The samples of an extended multiblock that lie in some spans, stored one after another. -/
theorem storeSamples_kept (q : Pol) (spans : List (Int × Int)) (first : Int) (v : Nat → BitVec 16) (ovr link : Nat → Bool) (l : List Nat) (x : SinSt) :
    let y := l.foldl (fun x i => if inSpans spans (first + (i : Nat)) then storeSample q (first + (i : Nat)) (v i) (ovr i) (link i) x else x) x
    SamplesKept x y ∧ ∀ i ∈ l, inSpans spans (first + (i : Nat)) = true → Captured q (first + (i : Nat)) y := by
  induction l generalizing x with
  | nil => exact ⟨.refl x, fun i hi => absurd hi (by simp)⟩
  | cons n l ih =>
    have hstep : SamplesKept x (if inSpans spans (first + (n : Nat)) then storeSample q (first + (n : Nat)) (v n) (ovr n) (link n) x else x) := by
      split
      · exact (storeSample_kept ..).1
      · exact .refl x
    obtain ⟨hkept, hall⟩ := ih (if inSpans spans (first + (n : Nat)) then storeSample q (first + (n : Nat)) (v n) (ovr n) (link n) x else x)
    refine ⟨hstep.trans hkept, fun i hi hin => ?_⟩
    obtain rfl | hi := List.mem_cons.1 hi
    · refine hkept.captured ?_
      rw [if_pos hin]
      exact (storeSample_kept ..).2
    · exact hall i hi hin

theorem storeBlock_stores (p : Port) (q : Pol) (first : Int) (containers : List (BitVec 16)) (deliver : Bool) (s : State) :
    ∃ y, storeBlock p q first containers deliver s = { s with sin := s.sin.setPort p y } ∧ SamplesKept (s.sin.port p) y
      ∧ ∀ i : Nat, (i : Int) < lemcPeriod s p → inSpans (openSpans (s.sin.port p)) (first + i) = true → Captured q (first + i) y := by
  unfold storeBlock
  extract_lets o res src cs al spans n
  have h := storeSamples_kept q spans first (fun i => if deliver then sampleBits res (nth 0 containers i) else 0)
    (fun i => deliver && overRange src res cs (nth 0 containers i)) (fun i => !deliver || decide (first + (i : Nat) < al)) (List.range n) (s.sin.port p)
  refine ⟨_, rfl, h.1, fun i hi hin => h.2 i (List.mem_range.2 ?_) hin⟩
  unfold n
  omega

/-! ## The release (R60, R62, R63) -/

theorem releaseState_moved (p : Port) (q : Pol) (due : Int) (e : Option Emb) (s : State) : ConvMoved p q s (releaseState p q due e s) := by
  unfold releaseState
  dsimp only
  split
  · split
    · exact mapConv_moved ..
    split
    · exact ((mapConv_moved ..).trans (convNoted_moved ..)).trans (note_moved ..)
    · exact mapConv_moved ..
  split
  · exact convDown_moved ..
  · exact .refl ..

theorem releaseCrc_moved (p : Port) (q : Pol) (k : Int) (e : Option Emb) (s : State) : ConvMoved p q s (releaseCrc p q k e s) := by
  unfold releaseCrc
  split
  · exact .refl ..
  · exact settleCrc_moved ..
  · split
    · exact settleCrc_moved ..
    split
    · exact settleCrc_moved ..
    · have h := ((settleCrc_moved p q s false).trans (mapConv_moved p q _ (fun c => { c with crcRound := c.crcRound + Emb.crcFails ‹Emb› }))).trans
        (bumpBy_moved p q _ (0x1C00 + 0x100 * p.num + 4 * polNum q) (Emb.crcFails ‹Emb›))
      dsimp only
      split
      · exact h.trans (convRetire_moved ..)
      · exact h

/-- What lost instants do to line samples handed over: OVERRUN, counted (R70). -/
theorem lateOverrun_update (p : Port) (s : State) : ∃ k y, lateOverrun p s = { s with ctr := k, sin := s.sin.setPort p y }
    ∧ y.slates = (s.sin.port p).slates ∧ y.lost = (s.sin.port p).lost ∧ y.queue = (s.sin.port p).queue
    ∧ y.lines.map (fun l => { l with overrun := false }) = (s.sin.port p).lines.map (fun l => { l with overrun := false }) := by
  unfold lateOverrun
  extract_lets x hit
  split
  · refine ⟨s.ctr, s.sin.port p, ?_, rfl, rfl, rfl, rfl⟩
    rw [setPort_port]
  · refine ⟨_, _, rfl, rfl, rfl, rfl, ?_⟩
    dsimp only
    rw [List.map_map]
    refine List.map_congr_left fun l _ => ?_
    dsimp only [Function.comp]
    split <;> rfl

theorem SinMarked.room {x y : SinSt} (h : SinMarked x y) : y.slates.length = x.slates.length := by
  have := congrArg List.length h.keys
  rwa [List.length_map, List.length_map] at this

theorem openSpans_congr {x y : SinSt} (hq : y.queue = x.queue) (hl : y.lines = x.lines) : openSpans y = openSpans x := by
  unfold openSpans; rw [hq, hl]

/-- A mailbag x as it is after the release of an extended multiblock of a converter with per instants from first on. -/
structure Filled (q : Pol) (first per : Int) (x z : SinSt) : Prop where
  captured : ∀ i : Nat, (i : Int) < per → inSpans (openSpans x) (first + i) = true → Captured q (first + i) z
  got : ∀ q t, gotSample x q t = true → gotSample z q t = true
  queue : z.queue = x.queue
  lines : z.lines.map (fun l => { l with overrun := false }) = x.lines.map (fun l => { l with overrun := false })
  room : x.slates.length ≤ 4096 → z.slates.length ≤ 4096

/-- Slates marked, samples stored, line samples overrun, one after another. -/
theorem filled_of {q : Pol} {first per : Int} {x w y z : SinSt} (hmarked : SinMarked x w) (hkept : SamplesKept w y)
    (hcap : ∀ i : Nat, (i : Int) < per → inSpans (openSpans w) (first + i) = true → Captured q (first + i) y)
    (hslates : z.slates = y.slates) (hlost : z.lost = y.lost) (hqueue : z.queue = y.queue)
    (hlines : z.lines.map (fun l => { l with overrun := false }) = y.lines.map (fun l => { l with overrun := false })) : Filled q first per x z := by
  have hgot : ∀ q t, gotSample z q t = gotSample y q t := fun q t => by rw [gotSample_eq, gotSample_eq, hslates]
  have hspans : openSpans w = openSpans x := openSpans_congr (by rw [hmarked.update]) (by rw [hmarked.update])
  refine ⟨fun i hi hin => ?_, fun q t h => ?_, ?_, ?_, fun h => ?_⟩
  · have := hcap i hi (hspans ▸ hin)
    unfold Captured at this ⊢
    rw [hgot, hlost]
    exact this
  · rw [hgot]
    exact hkept.got q t ((hmarked.gotSample q t).trans h)
  · rw [hqueue, hkept.update, hmarked.update]
  · rw [hlines, hkept.update, hmarked.update]
  · rw [hslates]
    exact hkept.room (hmarked.room.trans_le h)

/-- What follows the converter's move at a release: the samples stored, its CRC-12 outcome awaited, line samples overrun (R62, R66, R70). -/
def captureOf (p : Port) (q : Pol) (k first per : Int) (containers : List (BitVec 16)) (deliver : Bool) (v : State) : State :=
  let s := storeBlock p q first containers deliver v
  let s := if deliver then mapConv p q (fun c => { c with await := some (k, first, first + per - 1) }) s else s
  lateOverrun p (countMarks p (v.sin.port p) (s.sin.port p) s)

theorem captureOf_fills (p : Port) (q : Pol) (k first per : Int) (containers : List (BitVec 16)) (deliver : Bool) {s v : State} (hv : ConvMoved p q s v)
    (hper : lemcPeriod v p = lemcPeriod s p) : ∃ k' i c n z, captureOf p q k first per containers deliver v =
        { s with ctr := k', erc := { s.erc with inbox := i }, clr := convPut p q c s.clr, convNote := n, sin := s.sin.setPort p z }
      ∧ Filled q first (lemcPeriod s p) (s.sin.port p) z := by
  obtain ⟨y, hstore, hkept, hcap⟩ := storeBlock_stores p q first containers deliver v
  have hawait : ∃ c, (if deliver then mapConv p q (fun c => { c with await := some (k, first, first + per - 1) }) (storeBlock p q first containers deliver v)
      else storeBlock p q first containers deliver v) = { v with clr := convPut p q c v.clr, sin := v.sin.setPort p y } := by
    rw [hstore]
    split
    · exact ⟨_, rfl⟩
    · refine ⟨convOf v p q, ?_⟩
      rw [show convPut p q (convOf v p q) v.clr = v.clr from convPut_self ..]
  obtain ⟨c, hc⟩ := hawait
  unfold captureOf
  dsimp only
  rw [hc]
  obtain ⟨k₁, hcount⟩ := countMarks_update p { v with clr := convPut p q c v.clr, sin := v.sin.setPort p y } (v.sin.port p)
    (({ v with clr := convPut p q c v.clr, sin := v.sin.setPort p y } : State).sin.port p)
  rw [hcount]
  obtain ⟨k₂, z, hlate, hslates, hlost, hqueue, hlines⟩ := lateOverrun_update p { v with clr := convPut p q c v.clr, sin := v.sin.setPort p y, ctr := k₁ }
  rw [hlate]
  dsimp only at hslates hlost hqueue hlines
  rw [port_setPort] at hslates hlost hqueue hlines
  have hfilled := filled_of hv.sin hkept hcap hslates hlost hqueue hlines
  rw [hper] at hfilled
  obtain ⟨k', i', c', n', x', rfl, -⟩ := hv.update
  refine ⟨k₂, i', c, n', z, ?_, hfilled⟩
  dsimp only
  rw [convPut_convPut, setPort_setPort, setPort_setPort]

theorem release_due {m : MultiblockRelease} {g : Int} {s : State} (hg : (s.clr.port m.port).grid = some g) (hact : active s m.port.dom = true)
    (hst : (convOf s m.port m.pol).st = 2 ∨ (convOf s m.port m.pol).st = 3)
    (ht : m.t = g + (m.k + (regF s (clrOff m.port) 27 24 : Nat)) * lemcPeriod s m.port) :
    let tc := signed (match m.pol with | .x => regF s (clrOff m.port + 4) 12 0 | .y => regF s (clrOff m.port + 4) 28 16) 13
    ∃ k i c n z, exec (.extendedMultiblockRelease m) s = settle
        { atTime m.t s with ctr := k, erc := { s.erc with inbox := i }, clr := convPut m.port m.pol c s.clr, convNote := n, sin := s.sin.setPort m.port z }
      ∧ Filled m.pol (g + m.k * lemcPeriod s m.port + tc) (lemcPeriod s m.port) (s.sin.port m.port) z := by
  intro tc
  have hgo : (!active (atTime m.t s) m.port.dom || (atTime m.t s).now != g + (m.k + (regF (atTime m.t s) (clrOff m.port) 27 24 : Nat)) * lemcPeriod (atTime m.t s) m.port
      || ((convOf (atTime m.t s) m.port m.pol).st != 2 && (convOf (atTime m.t s) m.port m.pol).st != 3)) = false := by
    rw [show active (atTime m.t s) m.port.dom = true from hact, show (atTime m.t s).now = _ from ht]
    simp only [Bool.not_true, Bool.false_or, Bool.or_eq_false_iff, bne_eq_false_iff_eq, Bool.and_eq_false_iff]
    exact ⟨rfl, hst⟩
  generalize he : exec (.extendedMultiblockRelease m) s = e
  replace he : execExtendedMultiblockRelease m s = e := he
  unfold execExtendedMultiblockRelease at he
  dsimp only at he
  rw [show ((atTime m.t s).clr.port m.port).grid = some g from hg] at he
  dsimp only at he
  rw [hgo, if_neg Bool.false_ne_true] at he
  have hmoved : ∀ e, ConvMoved m.port m.pol (atTime m.t s) (releaseState m.port m.pol (g + (m.k + (regF (atTime m.t s) (clrOff m.port) 27 24 : Nat)) *
      lemcPeriod (atTime m.t s) m.port) e (releaseCrc m.port m.pol m.k e (mapConv m.port m.pol (fun c => { c with buf := c.buf.filter (fun e => decide (m.k < e.k)) })
        (atTime m.t s)))) := fun e => ((mapConv_moved ..).trans (releaseCrc_moved ..)).trans (releaseState_moved ..)
  replace hmoved := hmoved ((convOf (atTime m.t s) m.port m.pol).buf.find? (fun e => e.k == m.k))
  generalize releaseState m.port m.pol _ _ _ = v at he hmoved
  have hper : lemcPeriod v m.port = lemcPeriod s m.port := by obtain ⟨_, _, _, _, _, rfl, -⟩ := hmoved.update; rfl
  obtain ⟨k, i, c, n, z, hcapture, hfilled⟩ := captureOf_fills m.port m.pol m.k (g + m.k * lemcPeriod s m.port + tc) (lemcPeriod s m.port)
    ((((convOf (atTime m.t s) m.port m.pol).buf.find? (fun e => e.k == m.k)).map (·.containers)).getD [])
    ((convOf (atTime m.t s) m.port m.pol).st == 3 && (convOf v m.port m.pol).st == 3 && ((convOf (atTime m.t s) m.port m.pol).buf.find? (fun e => e.k == m.k)).isSome)
    hmoved hper
  replace he : settle (captureOf m.port m.pol m.k (g + m.k * lemcPeriod s m.port + tc) (lemcPeriod s m.port) _ _ v) = e := he
  exact ⟨k, i, c, n, z, he.symm.trans (congrArg settle hcapture), hfilled⟩

/-- Settles O18. -/
theorem capturedInstantsAreStored : Obligations.CapturedInstantsAreStored := by
  unfold Obligations.CapturedInstantsAreStored
  intro m g s hg hact tc due st
  refine ⟨fun ht hst => ?_, fun hno => ?_⟩
  · obtain ⟨k, i, c, n, z, hexec, hfilled⟩ := release_due hg hact hst ht
    obtain ⟨u, o, g', hnext, hu⟩ := settled hexec
    have hsin : u.sin = s.sin.setPort m.port z := by rw [hu]
    have hport : u.sin.port m.port = z := by rw [hsin, port_setPort]
    have hframe : u = { reported s u with now := m.t, clr := u.clr, convNote := u.convNote, sin := u.sin } := by rw [hu]; rfl
    refine ⟨u, hnext, ?_⟩
    rw [hport]
    refine ⟨hfilled.captured, hfilled.got, hfilled.queue, hfilled.lines, hfilled.room, ?_⟩
    exact hframe.trans (congrArg (fun x => { reported s u with now := m.t, clr := u.clr, convNote := u.convNote, sin := x }) hsin)
  · have hexec : exec (.extendedMultiblockRelease m) s = settle (atTime m.t s) := by
      rw [show exec (.extendedMultiblockRelease m) s = execExtendedMultiblockRelease m s from rfl]
      unfold execExtendedMultiblockRelease
      dsimp only
      rw [show ((atTime m.t s).clr.port m.port).grid = some g from hg]
      refine if_pos ?_
      rw [show active (atTime m.t s) m.port.dom = true from hact]
      simp only [Bool.not_true, Bool.false_or, Bool.or_eq_true, bne_iff_ne, Bool.and_eq_true]
      exact hno
    exact settles hexec fun o g => rfl

end Sys2Proof.Proofs
end

section
/-!
Proof of the statement about the line samples on their way through the shot ingest and the channeliser (R19, R68, R70, R80, R87, R88, R95).
-/
namespace Sys2Proof.Proofs
open Sys2Proof.Machine Sys2Proof.Laws

/-! ## The handover (R68, R70) -/

/-- What sampling F and handing line samples over may change: the port's ingest, its pace request, its domain's activity, counters. -/
def sinStep (p : Port) (k : Tab Nat) (m : Doms) (b : Two Bool) (x : SinSt) (s : State) : State :=
  { s with ctr := k, dom := m, bsc := { s.bsc with pace := b }, sin := s.sin.setPort p x }

theorem sinStep_sinStep (p : Port) (k k' : Tab Nat) (m m' : Doms) (b b' : Two Bool) (x x' : SinSt) (s : State) :
    sinStep p k' m' b' x' (sinStep p k m b x s) = sinStep p k' m' b' x' s := by
  unfold sinStep
  dsimp only
  rw [setPort_setPort]

theorem port_sinStep (p : Port) (k : Tab Nat) (m : Doms) (b : Two Bool) (x : SinSt) (s : State) : (sinStep p k m b x s).sin.port p = x := port_setPort ..

theorem sampleSteps_step (p : Port) (s : State) : ∃ k m b f a2 a1 a3, sampleSteps p s =
    sinStep p k m b { s.sin.port p with fill := f, step1 := a1, step2 := a2, step3 := a3 } s := by
  unfold sampleSteps
  extract_lets o f hy x s3 s2 s1 v w
  have hw : ∃ m, w = { v with dom := m } := by
    unfold w
    split
    · exact ⟨_, rfl⟩
    · exact ⟨v.dom, rfl⟩
  obtain ⟨m, hm⟩ := hw
  refine ⟨v.ctr, m, s.bsc.pace.setPort p (if s1 then (if x.step1 then s.bsc.pace.port p else true) else false), f, s2, s1, s3, ?_⟩
  show ({ w with bsc := { w.bsc with pace := w.bsc.pace.setPort p (if s1 then (if x.step1 then w.bsc.pace.port p else true) else false) } } : State) = _
  rw [hm]
  rfl

theorem handOver_step (p : Port) (q : Shot) (drop : Bool) (s : State) : ∃ k x l, handOver p q drop s = sinStep p k s.dom s.bsc.pace x s
    ∧ x.queue = (s.sin.port p).queue.drop 1 ∧ x.lines = (s.sin.port p).lines ++ [l] ∧ l.shot = q ∧ l.missed = (drop && q.lit.isSome) ∧ l.block = 0 := by
  have hbump : ∀ (b : Bool) (o : Nat) (u : State), ∃ k, (if b = true then bump o u else u) = { u with ctr := k } := fun b o u => by
    cases b
    · exact ⟨u.ctr, rfl⟩
    · exact ⟨_, rfl⟩
  unfold handOver
  extract_lets x missed nOver l v b step v1 v2 v3 v4
  obtain ⟨k2, h2⟩ := hbump (q.dark || q.lit.isNone) (b + 20) v1
  obtain ⟨k3, h3⟩ := hbump missed (b + 24) v2
  obtain ⟨k4, h4⟩ := hbump nOver (b + 28) v3
  have h4' : v4 = { v with ctr := k4 } := by
    rw [show v4 = _ from h4, show v3 = _ from h3, show v2 = _ from h2]
    rfl
  rw [h4']
  refine ⟨k4, freeSlates (v.sin.port p), l, ?_, ?_, ?_, rfl, rfl, rfl⟩
  · unfold mapSin sinStep
    dsimp only
    rw [show v.sin = s.sin.setPort p (v.sin.port p) from setPort_own (rfl : v.sin = s.sin.setPort p _), setPort_setPort, port_setPort]
    rfl
  · show (v.sin.port p).queue = _
    exact congrArg SinSt.queue (port_setPort s.sin p _)
  · show (v.sin.port p).lines = _
    exact congrArg SinSt.lines (port_setPort s.sin p _)

/-- From the state s a line-sample handover, on the line samples r that wait behind q, where step 3 is in force or not (R68, R70). -/
structure HandedOver (p : Port) (q : Shot) (r : List Shot) (three : Bool) (s u : State) : Prop where
  update : ∃ k m b x, u = sinStep p k m b x s
  one : three = false → ∃ l, (u.sin.port p).queue = r ∧ (u.sin.port p).lines = (s.sin.port p).lines ++ [l] ∧ l.shot = q ∧ l.missed = false ∧ l.block = 0
  two : three = true → ∃ l, l.shot = q ∧ l.missed = q.lit.isSome ∧
    (((u.sin.port p).queue = r ∧ (u.sin.port p).lines = (s.sin.port p).lines ++ [l])
      ∨ ∃ q2 r2 l2, r = q2 :: r2 ∧ (u.sin.port p).queue = r2 ∧ (u.sin.port p).lines = (s.sin.port p).lines ++ [l, l2] ∧ l2.shot = q2 ∧ l2.missed = false)

/-- A line sample sampled and handed over. -/
theorem handedOne (p : Port) (q : Shot) (r : List Shot) (drop : Bool) {s v : State} (hq : (s.sin.port p).queue = q :: r) (hv : v = sampleSteps p s) :
    ∃ l, (∃ k m b x, handOver p q drop v = sinStep p k m b x s) ∧ ((handOver p q drop v).sin.port p).queue = r
      ∧ ((handOver p q drop v).sin.port p).lines = (s.sin.port p).lines ++ [l] ∧ l.shot = q ∧ l.missed = (drop && q.lit.isSome) ∧ l.block = 0 := by
  obtain ⟨k, m, b, f, a2, a1, a3, hsample⟩ := sampleSteps_step p s
  rw [← hv] at hsample
  obtain ⟨k', x, l, hhand, hqueue, hlines, hshot, hmissed, hblock⟩ := handOver_step p q drop v
  rw [hsample, port_sinStep] at hqueue hlines
  have hport : (handOver p q drop v).sin.port p = x := by rw [hhand, port_sinStep]
  rw [hport]
  refine ⟨l, ⟨k', v.dom, v.bsc.pace, x, ?_⟩, hqueue.trans ?_, hlines, hshot, hmissed, hblock⟩
  · rw [hhand, hsample, sinStep_sinStep]
  · dsimp only
    rw [hq]
    rfl

theorem lineSampleHandover_hands {t : Int} {p : Port} {q : Shot} {r : List Shot} {s : State} (hact : active s p.dom = true)
    (hq : (s.sin.port p).queue = q :: r) (hready : lineReady (atTime t s) p q = true) (hcredit : schCredit s p = true) :
    ∃ v, exec (.lineSampleHandover t p) s = settle v ∧ HandedOver p q r ((sampleSteps p (atTime t s)).sin.port p).step3 (atTime t s) v := by
  rw [show exec (.lineSampleHandover t p) s = execLineSampleHandover t p s from rfl]
  unfold execLineSampleHandover
  dsimp only
  rw [show ((atTime t s).sin.port p).queue = q :: r from hq]
  dsimp only
  rw [show active (atTime t s) p.dom = true from hact, hready, show schCredit (atTime t s) p = true from hcredit, if_neg (by decide)]
  generalize hv : sampleSteps p (atTime t s) = v
  cases hthree : (v.sin.port p).step3 with
  | false =>
    rw [if_neg Bool.false_ne_true]
    obtain ⟨l, hupdate, hqueue, hlines, hshot, hmissed, hblock⟩ := handedOne p q r false (s := atTime t s) hq hv.symm
    exact ⟨_, rfl, hupdate, fun _ => ⟨l, hqueue, hlines, hshot, hmissed, hblock⟩, fun h => absurd h Bool.false_ne_true⟩
  | true =>
    rw [if_pos rfl]
    obtain ⟨l, ⟨k, m, b, x, hupdate⟩, hqueue, hlines, hshot, hmissed, -⟩ := handedOne p q r true (s := atTime t s) hq hv.symm
    rw [Bool.true_and] at hmissed
    have hone : HandedOver p q r true (atTime t s) (handOver p q true v) :=
      ⟨⟨k, m, b, x, hupdate⟩, fun h => absurd h.symm Bool.false_ne_true, fun _ => ⟨l, hshot, hmissed, .inl ⟨hqueue, hlines⟩⟩⟩
    cases r with
    | nil => exact ⟨_, rfl, hone⟩
    | cons q2 r2 =>
      dsimp only
      split
      · obtain ⟨l2, ⟨k', m', b', x', hupdate2⟩, hqueue2, hlines2, hshot2, hmissed2, -⟩ :=
          handedOne p q2 r2 false (s := handOver p q true v) hqueue rfl
        refine ⟨_, rfl, ⟨k', m', b', x', ?_⟩, fun h => absurd h.symm Bool.false_ne_true, fun _ => ⟨l, hshot, hmissed, .inr ⟨q2, r2, l2, rfl, hqueue2, ?_, hshot2, hmissed2⟩⟩⟩
        · rw [hupdate2, hupdate, sinStep_sinStep]
        · rw [hlines2, hlines, List.append_assoc]
          rfl
      · exact ⟨_, rfl, hone⟩

/-! ## Slate failures (R18, R67, R93) -/

/-- What the channeliser and the phase extractor may change of a port beside the line samples: marks of slates, the extractor's references, counters, events. -/
structure SlatesFailed (p : Port) (s u : State) : Prop where
  update : ∃ k i x y, u = { s with ctr := k, erc := { s.erc with inbox := i }, sin := s.sin.setPort p x, phx := s.phx.setPort p y }
    ∧ SinMarked (s.sin.port p) x

theorem SlatesFailed.refl (p : Port) (s : State) : SlatesFailed p s s := by
  refine ⟨s.ctr, s.erc.inbox, s.sin.port p, s.phx.port p, ?_, .refl _⟩
  rw [setPort_port, setPort_port]

theorem SlatesFailed.trans {p : Port} {s t u : State} (h : SlatesFailed p s t) (h' : SlatesFailed p t u) : SlatesFailed p s u := by
  obtain ⟨k, i, x, y, rfl, hx⟩ := h.update
  obtain ⟨k', i', x', y', rfl, hx'⟩ := h'.update
  dsimp only at hx'
  rw [port_setPort] at hx'
  refine ⟨k', i', x', y', ?_, hx.trans hx'⟩
  dsimp only
  rw [setPort_setPort, setPort_setPort]

theorem slateLink_marked (starts : List Int) (ofMarks : Bool) (x : SinSt) : SinMarked x (slateLink starts ofMarks x) := by
  refine ⟨rfl, ?_⟩
  unfold slateLink
  dsimp only
  rw [List.map_map]
  refine List.map_congr_left fun d _ => ?_
  dsimp only [Function.comp]
  split <;> rfl

theorem sliceFail_fails (p : Port) (s : State) (f : SlateFail) : SlatesFailed p s (sliceFail p s f) := by
  unfold sliceFail noteSlate
  rw [note_update]
  generalize (s.erc.inbox ++ _) = i
  dsimp only
  split
  · refine ⟨s.ctr, i, slateLink f.starts (f.use == 1) (s.sin.port p), s.phx.port p, ?_, slateLink_marked ..⟩
    rw [setPort_port]
    rfl
  split
  · refine ⟨(bump (0x4C10 + 0x100 * p.num) s).ctr, i, s.sin.port p, phxSlate f.bins (s.phx.port p), ?_, .refl _⟩
    rw [setPort_port]
    rfl
  · refine ⟨s.ctr, i, s.sin.port p, s.phx.port p, ?_, .refl _⟩
    rw [setPort_port, setPort_port]

theorem sliceFails_fail (p : Port) (l : List SlateFail) (s : State) : SlatesFailed p s (l.foldl (sliceFail p) s) := by
  induction l generalizing s with
  | nil => exact .refl p s
  | cons f l ih => exact (sliceFail_fails p s f).trans (ih _)

/-! ## A line sample through the phase extractor (R80, R87, R88) -/

theorem pushInc_incs (l : LineS) (b : Nat) (e : Inc × PhxSt) : ∃ i, (pushInc l b e).incs = e.2.incs ++ [(b, i)] ∧ i.cause = e.1.cause := by
  unfold pushInc withSlow
  dsimp only
  split
  · exact ⟨_, rfl, rfl⟩
  · exact ⟨_, rfl, rfl⟩

/-- A dark or MISSED line sample gives DARK_MISSED at every bin (R88). -/
theorem darkLine_causes (l : LineS) (hb : List Nat) {x : PhxSt} (h : ∀ e ∈ x.incs, e.2.cause = 1) : ∀ e ∈ (darkLine l hb x).incs, e.2.cause = 1 := by
  unfold darkLine
  generalize tokenBins l.shot.plan l.bulk hb = bs
  induction bs generalizing x with
  | nil => exact h
  | cons b bs ih =>
    rw [List.foldl_cons]
    refine ih ?_
    obtain ⟨i, hincs, hcause⟩ := pushInc_incs l b (incNone 1 b l.shot.group (lineMarks l) x)
    intro e he
    rw [hincs] at he
    obtain he | he := List.mem_append.1 he
    · exact h e he
    · rw [List.mem_singleton.1 he]
      exact hcause

theorem phxBegin_incs (s : State) (p : Port) (l : LineS) (x : PhxSt) : (phxBegin s p l x).incs = [] := by
  unfold phxBegin
  dsimp only
  split <;> rfl

/-! ## A finished line sample (R66, R95) -/

theorem surveyDone_update (p : Port) (q : Plan) (s : State) : ∃ a k i w g, surveyDone p q s =
    { s with cal := a, ctr := k, erc := { s.erc with inbox := i }, out := s.out ++ w, hre := { hreTold s.hre g with out := g.out } } := by
  have hself : ∃ a k i w g, s = { s with cal := a, ctr := k, erc := { s.erc with inbox := i }, out := s.out ++ w, hre := { hreTold s.hre g with out := g.out } } :=
    ⟨s.cal, s.ctr, s.erc.inbox, [], s.hre, by rw [List.append_nil]; rfl⟩
  unfold surveyDone
  split
  · exact hself
  case _ v hv =>
    split
    · exact hself
    · dsimp only
      generalize (if v.bin = true then binRecords v else termRecords q v) = ws
      obtain ⟨w, hw⟩ := hostWrite_update v.buf (wordsBytes ws) { s with cal := { s.cal with survey := s.cal.survey.setPort p none } }
      rw [hw]
      obtain ⟨k, i, w', g, hfin⟩ := finish_update v.id (if v.missed = 0 then stApplied else stDoneReduced) (w32 (4 * ws.length)) (w32 v.missed)
        { s with cal := { s.cal with survey := s.cal.survey.setPort p none }, out := s.out ++ w }
      rw [hfin]
      exact ⟨{ s.cal with survey := s.cal.survey.setPort p none }, k, i, w ++ w', { g with out := s.hre.out.filter (fun o => o.id != v.id) },
        by rw [List.append_assoc]; rfl⟩

/-- What a line sample's blocks may change: what its slates' failures and a survey change, its port's ingest and extractor, and the filter chains. -/
structure LinePassed (p : Port) (s u : State) : Prop where
  update : ∃ k i w g a f x y, u = { s with ctr := k, erc := { s.erc with inbox := i }, out := s.out ++ w, hre := { hreTold s.hre g with out := g.out }, cal := a,
                                           fch := f, sin := s.sin.setPort p x, phx := s.phx.setPort p y }

theorem LinePassed.trans {p : Port} {s t u : State} (h : LinePassed p s t) (h' : LinePassed p t u) : LinePassed p s u := by
  obtain ⟨k, i, w, g, a, f, x, y, rfl⟩ := h.update
  obtain ⟨k', i', w', g', a', f', x', y', rfl⟩ := h'.update
  refine ⟨k', i', w ++ w', g', a', f', x', y', ?_⟩
  dsimp only
  rw [setPort_setPort, setPort_setPort, List.append_assoc]
  rfl

theorem linePassed_of (p : Port) (k : Tab Nat) (i : List EvIn) (a : CalSt) (x : SinSt) (y : PhxSt) (s : State) :
    LinePassed p s { s with ctr := k, erc := { s.erc with inbox := i }, cal := a, sin := s.sin.setPort p x, phx := s.phx.setPort p y } :=
  ⟨k, i, [], s.hre, a, s.fch, x, y, by rw [List.append_nil]; rfl⟩

theorem SlatesFailed.passed {p : Port} {s u : State} (h : SlatesFailed p s u) : LinePassed p s u := by
  obtain ⟨k, i, x, y, rfl, -⟩ := h.update
  exact linePassed_of p k i s.cal x y s

theorem mapPhx_passed (p : Port) (f : PhxSt → PhxSt) (s : State) : LinePassed p s (mapPhx p f s) := by
  have h := linePassed_of p s.ctr s.erc.inbox s.cal (s.sin.port p) (f (s.phx.port p)) s
  rw [setPort_port] at h
  exact h

theorem mapSin_passed (p : Port) (f : SinSt → SinSt) (s : State) : LinePassed p s (mapSin p f s) := by
  have h := linePassed_of p s.ctr s.erc.inbox s.cal (f (s.sin.port p)) (s.phx.port p) s
  rw [setPort_port] at h
  exact h

theorem countIncs_update (p : Port) (incs : List (Nat × Inc)) (s : State) : ∃ c, countIncs p incs s = { s with ctr := c } := by
  have hbump : ∀ (o n : Nat) (u : State), (∃ c, u = { s with ctr := c }) → ∃ c, bumpBy o n u = { s with ctr := c } := fun o n u ⟨c, hc⟩ =>
    ⟨(bumpBy o n { s with ctr := c }).ctr, by rw [hc]; rfl⟩
  exact hbump _ _ _ (hbump _ _ _ (hbump _ _ _ (hbump _ _ _ ⟨s.ctr, rfl⟩)))

/-- A finished line sample: it leaves the channeliser and stands at the end of the corner-turn with its increments. -/
theorem finishLine_finishes (p : Port) (l : LineS) (was : Option Nat) (s : State) : LinePassed p s (finishLine p l was s)
    ∧ ((finishLine p l was s).sin.port p).lines = (s.sin.port p).lines.drop 1
    ∧ ∃ k, (fchOf (finishLine p l was s) (portFch p)).buf = (fchOf s (portFch p)).buf ++ [k] ∧ k.n = l.shot.n ∧ k.bins = (s.phx.port p).incs
      ∧ k.delta = ((l.shot.plan.ts / l.shot.plan.groups : Nat) : Int) := by
  unfold finishLine
  extract_lets q x t0 k v w
  obtain ⟨c, hc⟩  := countIncs_update p x.incs s
  obtain ⟨f, hf, hbuf⟩ : ∃ f, enterLine (portFch p) (decide ((s.stg.port p).t0 ≤ l.shot.t)) k { s with ctr := c } = { s with ctr := c, fch := f }
      ∧ ∀ u : State, u.fch = f → (fchOf u (portFch p)).buf = (fchOf s (portFch p)).buf ++ [k] := by
    unfold enterLine
    rw [mapFch_update]
    refine ⟨_, rfl, fun u hu => ?_⟩
    have := fchOf_mapFch (portFch p) (fun x => { x with buf := x.buf ++ [k], entered := if decide ((s.stg.port p).t0 ≤ l.shot.t) then some (k.n, k.t, k.lt) else x.entered })
      { s with ctr := c }
    unfold fchOf at this ⊢
    rw [hu]
    exact congrArg FchSt.buf this
  have hv : ∃ k' i w' g a, v = { s with ctr := k', erc := { s.erc with inbox := i }, out := s.out ++ w', hre := { hreTold s.hre g with out := g.out }, cal := a, fch := f } := by
    obtain ⟨f₀, hf₀⟩ : ∃ f₀, ∀ u, surveyLine p l x.incs u = surveyDone p l.shot.plan (mapSurvey p f₀ u) := ⟨_, fun _ => rfl⟩
    unfold v
    rw [hc, hf, hf₀]
    obtain ⟨a, k', i, w', g, hdone⟩ := surveyDone_update p l.shot.plan (mapSurvey p f₀ { s with ctr := c, fch := f })
    exact ⟨k', i, w', g, a, hdone⟩
  obtain ⟨k', i, w', g, a, hv⟩ := hv
  have hpassed : LinePassed p s v := by
    refine ⟨k', i, w', g, a, f, s.sin.port p, s.phx.port p, ?_⟩
    rw [setPort_port, setPort_port]
    exact hv
  have hw : LinePassed p v w := mapPhx_passed p _ v
  refine ⟨(hpassed.trans hw).trans (mapSin_passed p _ w), ?_, k, ?_, rfl, rfl, rfl⟩
  · have hsin : v.sin = s.sin := by rw [hv]
    unfold w mapPhx mapSin
    dsimp only
    rw [port_setPort, hsin]
    rfl
  · exact hbuf _ (by unfold w mapPhx mapSin; dsimp only; rw [hv])

theorem SlatesFailed.readable {p : Port} {s u : State} (h : SlatesFailed p s u) (t : Int) : readable u p t = readable s p t := by
  obtain ⟨k, i, x, y, rfl, hx⟩ := h.update
  have hport : ({ s with ctr := k, erc := { s.erc with inbox := i }, sin := s.sin.setPort p x, phx := s.phx.setPort p y } : State).sin.port p = x := port_setPort ..
  unfold Machine.readable
  dsimp only
  rw [port_setPort, hx.gotSample, hx.gotSample, show x.lost = (s.sin.port p).lost by rw [hx.update]]
  rfl

theorem SlatesFailed.blockReady {p : Port} {s u : State} (h : SlatesFailed p s u) (l : LineS) : blockReady u p l = blockReady s p l := by
  unfold Machine.blockReady allReadable
  exact congrArg (List.all _) (funext fun _ => h.readable _)

/-- What the extractor and a survey make of a line sample before it is finished: nothing else changes. -/
structure Extracted (p : Port) (s u : State) : Prop where
  update : ∃ a y, u = { s with cal := a, phx := s.phx.setPort p y }

theorem Extracted.refl (p : Port) (s : State) : Extracted p s s := ⟨s.cal, s.phx.port p, by rw [setPort_port]⟩

theorem Extracted.trans {p : Port} {s t u : State} (h : Extracted p s t) (h' : Extracted p t u) : Extracted p s u := by
  obtain ⟨a, y, rfl⟩ := h.update
  obtain ⟨a', y', rfl⟩ := h'.update
  exact ⟨a', y', by dsimp only; rw [setPort_setPort]⟩

theorem mapPhx_extracted (p : Port) (f : PhxSt → PhxSt) (s : State) : Extracted p s (mapPhx p f s) := ⟨s.cal, _, rfl⟩

theorem mapSurvey_extracted (p : Port) (f : Survey → Survey) (s : State) : Extracted p s (mapSurvey p f s) :=
  ⟨(mapSurvey p f s).cal, s.phx.port p, by rw [setPort_port]; rfl⟩

section
variable {p : Port} {s u : State} (h : Extracted p s u)
include h

theorem Extracted.passed : LinePassed p s u := by
  obtain ⟨a, y, rfl⟩ := h.update
  have := linePassed_of p s.ctr s.erc.inbox a (s.sin.port p) y s
  rw [setPort_port] at this
  exact this

theorem Extracted.sin : u.sin = s.sin := by obtain ⟨a, y, rfl⟩ := h.update; rfl

theorem Extracted.buf (i : Fch) : (fchOf u i).buf = (fchOf s i).buf := by obtain ⟨a, y, rfl⟩ := h.update; rfl

end

/-- What a block does for the line sample l at the head of r (R19, R80, R95). -/
structure BlockDone (t : Int) (p : Port) (l : LineS) (r : List LineS) (s u : State) : Prop where
  passed : LinePassed p (atTime t s) u
  dark : fchCredit s (portFch p) = true → (l.shot.lit = none ∨ l.missed = true) → (u.sin.port p).lines = r
    ∧ ∃ k, (fchOf u (portFch p)).buf = (fchOf s (portFch p)).buf ++ [k] ∧ k.n = l.shot.n ∧ (∀ e ∈ k.bins, e.2.cause = 1)
  lit : fchCredit s (portFch p) = true → l.shot.lit ≠ none → l.missed = false → blockReady (atTime t s) p l = true →
    (64 * (l.block + 1) < l.shot.plan.nbins → (u.sin.port p).lines = { l with block := l.block + 1 } :: r ∧ (fchOf u (portFch p)).buf = (fchOf s (portFch p)).buf)
    ∧ (l.shot.plan.nbins ≤ 64 * (l.block + 1) → (u.sin.port p).lines = r
      ∧ ∃ k, (fchOf u (portFch p)).buf = (fchOf s (portFch p)).buf ++ [k] ∧ k.n = l.shot.n ∧ k.delta = ((l.shot.plan.ts / l.shot.plan.groups : Nat) : Int))
  waits : (¬ fchCredit s (portFch p) = true ∨ (l.shot.lit ≠ none ∧ l.missed = false ∧ blockReady (atTime t s) p l = false)) → (u.sin.port p).lines = l :: r
    ∧ (fchOf u (portFch p)).buf = (fchOf s (portFch p)).buf

theorem channeliserBlock_does {t : Int} {p : Port} {f : List SlateFail} {l : LineS} {r : List LineS} {s : State} (hact : active s p.dom = true)
    (hlines : (s.sin.port p).lines = l :: r) : ∃ v, exec (.channeliserBlock t p f) s = settle v ∧ BlockDone t p l r s v := by
  have hfail := sliceFails_fail p f (atTime t s)
  rw [show exec (.channeliserBlock t p f) s = execChanneliserBlock t p f s from rfl]
  unfold execChanneliserBlock
  dsimp only
  generalize f.foldl (sliceFail p) (atTime t s) = v at hfail
  have hv : (v.sin.port p).lines = l :: r := by
    obtain ⟨_, _, _, _, rfl, hx⟩ := hfail.update
    dsimp only
    rw [port_setPort, hx.update]
    exact hlines
  have hcredit : fchCredit v (portFch p) = fchCredit s (portFch p) := by obtain ⟨_, _, _, _, rfl, -⟩ := hfail.update; rfl
  have hbuf : (fchOf v (portFch p)).buf = (fchOf s (portFch p)).buf := by obtain ⟨_, _, _, _, rfl, -⟩ := hfail.update; rfl
  have hact' : active v p.dom = true := by obtain ⟨_, _, _, _, rfl, -⟩ := hfail.update; exact hact
  have hready := hfail.blockReady l
  rw [hv]
  dsimp only
  rw [hact', hcredit, hready]
  by_cases hgo : fchCredit s (portFch p) = true
  · rw [hgo, if_neg (by decide)]
    by_cases hdark : l.shot.lit = none ∨ l.missed = true
    · have hdark' : (l.shot.lit.isNone || l.missed) = true := by rw [Bool.or_eq_true, Option.isNone_iff_eq_none]; exact hdark
      rw [hdark', if_pos rfl]
      refine ⟨_, rfl, ?_⟩
      generalize hhb : (if l.bulk = true then headBins v p l.shot.plan.gauge else []) = hb
      have hextract : Extracted p v (surveyBegin p l (mapPhx p (fun x => darkLine l hb (phxBegin v p l x)) v)) :=
        (mapPhx_extracted ..).trans (mapSurvey_extracted ..)
      have hincs : ∀ e ∈ ((surveyBegin p l (mapPhx p (fun x => darkLine l hb (phxBegin v p l x)) v)).phx.port p).incs, e.2.cause = 1 := by
        rw [show (surveyBegin p l (mapPhx p (fun x => darkLine l hb (phxBegin v p l x)) v)).phx.port p = darkLine l hb (phxBegin v p l (v.phx.port p)) from port_setPort ..]
        exact darkLine_causes l hb (by rw [phxBegin_incs]; exact fun e he => absurd he (by simp))
      generalize surveyBegin p l _ = w at hextract hincs
      obtain ⟨hpassed, hdone, k, hk, hn, hbins, -⟩ := finishLine_finishes p l (lineGauge (v.phx.port p) l) w
      rw [hextract.sin, hv] at hdone
      rw [hextract.buf, hbuf] at hk
      refine ⟨(hfail.passed.trans hextract.passed).trans hpassed, fun _ _ => ⟨hdone, k, hk, hn, by rw [hbins]; exact hincs⟩, fun _ hlit hmiss => ?_, fun hwait => ?_⟩
      · exact absurd hdark (by rw [hmiss]; simpa using hlit)
      · obtain h | ⟨hlit, hmiss, -⟩ := hwait
        · exact absurd hgo h
        · exact absurd hdark (by rw [hmiss]; simpa using hlit)
    · have hdark' : (l.shot.lit.isNone || l.missed) = false := by
        rw [Bool.eq_false_iff, ne_eq, Bool.or_eq_true, Option.isNone_iff_eq_none]
        exact hdark
      rw [hdark', if_neg Bool.false_ne_true]
      by_cases hr : blockReady (atTime t s) p l = true
      · rw [hr, if_neg (by decide)]
        generalize (if l.bulk = true then headBins v p l.shot.plan.gauge else []) = hb
        have hbegin : ∀ f, Extracted p v (if l.block = 0 then surveyBegin p l (mapPhx p f v) else v) := fun f => by
          split
          · exact (mapPhx_extracted ..).trans (mapSurvey_extracted ..)
          · exact .refl p v
        replace hbegin := hbegin (fun x => { phxBegin v p l x with gaugeWas := lineGauge (v.phx.port p) l })
        generalize (if l.block = 0 then surveyBegin p l _ else v) = w at hbegin
        generalize blockBins (w.sin.port p) l.shot _ = bins
        have hextract : ∀ f, Extracted p v (mapPhx p f (surveyBlock p l bins w)) := fun f => (hbegin.trans (mapSurvey_extracted ..)).trans (mapPhx_extracted ..)
        replace hextract := hextract (fun x => litBlock (phxCfg x) l bins (decide (64 * (l.block + 1) ≥ l.shot.plan.nbins)) x)
        generalize mapPhx p _ (surveyBlock p l bins w) = z at hextract
        have hwait : ¬ (¬ fchCredit s (portFch p) = true ∨ (l.shot.lit ≠ none ∧ l.missed = false ∧ blockReady (atTime t s) p l = false)) := by
          rintro (h | ⟨-, -, h⟩)
          · exact h hgo
          · exact Bool.false_ne_true (h.symm.trans hr)
        by_cases hlast : 64 * (l.block + 1) ≥ l.shot.plan.nbins
        · rw [if_pos hlast]
          obtain ⟨hpassed, hdone, k, hk, hn, -, hdelta⟩ := finishLine_finishes p l (lineGauge (v.phx.port p) l) z
          rw [hextract.sin, hv] at hdone
          rw [hextract.buf, hbuf] at hk
          exact ⟨_, rfl, (hfail.passed.trans hextract.passed).trans hpassed, fun _ h => absurd h hdark,
            fun _ _ _ _ => ⟨fun h => absurd h (by omega), fun _ => ⟨hdone, k, hk, hn, hdelta⟩⟩, fun h => absurd h hwait⟩
        · rw [if_neg hlast]
          refine ⟨_, rfl, (hfail.passed.trans hextract.passed).trans (mapSin_passed ..), fun _ h => absurd h hdark,
            fun _ _ _ _ => ⟨fun _ => ⟨?_, ?_⟩, fun h => absurd h hlast⟩, fun h => absurd h hwait⟩
          · unfold mapSin
            dsimp only
            rw [port_setPort, hextract.sin]
            show { l with block := l.block + 1 } :: (v.sin.port p).lines.drop 1 = _
            rw [hv]
            rfl
          · exact (hextract.buf _).trans hbuf
      · rw [Bool.not_eq_true] at hr
        rw [hr]
        exact ⟨_, if_pos rfl, hfail.passed, fun _ h => absurd h hdark, fun _ _ _ h => absurd (hr.symm.trans h) Bool.false_ne_true, fun _ => ⟨hv, hbuf⟩⟩
  · rw [Bool.not_eq_true] at hgo
    rw [hgo]
    refine ⟨_, if_pos rfl, hfail.passed, fun h => ?_, fun h => ?_, fun _ => ⟨hv, hbuf⟩⟩
    · exact absurd (hgo.symm.trans h) Bool.false_ne_true
    · exact absurd (hgo.symm.trans h) Bool.false_ne_true

/-- Settles O19. -/
theorem lineSamplesAdvanceInOrder : Obligations.LineSamplesAdvanceInOrder := by
  unfold Obligations.LineSamplesAdvanceInOrder
  refine ⟨?handover, ?block⟩
  case handover =>
    intro t p q r s hact hq hready hcredit three
    obtain ⟨v, hexec, hv⟩ := lineSampleHandover_hands (t := t) hact hq hready hcredit
    obtain ⟨k, m, b, x, hupdate⟩ := hv.update
    obtain ⟨u, o, g, hnext, hu⟩ := settled hexec
    have hsin : u.sin = v.sin := by rw [hu]
    have hframe : u = { reported s u with now := t, sin := u.sin, bsc := { s.bsc with pace := u.bsc.pace }, dom := u.dom } := by
      rw [hu, hupdate]
      rfl
    refine ⟨u, hnext, ?_⟩
    rw [hsin]
    refine ⟨hv.one, hv.two, ?_⟩
    exact hframe.trans (congrArg (fun x => { reported s u with now := t, sin := x, bsc := { s.bsc with pace := u.bsc.pace }, dom := u.dom })
      (hsin.trans (setPort_own (by rw [hupdate]; rfl))))
  case block =>
    intro t p f l r s hact hlines cur go
    obtain ⟨v, hexec, hv⟩ := channeliserBlock_does (t := t) (f := f) hact hlines
    obtain ⟨k, i, w, g, a, f', x, y, hupdate⟩ := hv.passed.update
    obtain ⟨u, o, g', hnext, hu⟩ := settled hexec
    have hframe : u = { commanded s u with now := t, sin := u.sin, phx := u.phx, fch := u.fch, cal := u.cal } := by
      rw [hu, hupdate]
      exact with_reserve _ (reserved_self _)
    have hsin : u.sin = v.sin := by rw [hu]
    have hbuf : fchOf u (portFch p) = fchOf v (portFch p) := by rw [hu]; rfl
    refine ⟨u, hnext, ?_, ?_⟩
    · exact hframe.trans (congrArg₂ (fun x y => { commanded s u with now := t, sin := x, phx := y, fch := u.fch, cal := u.cal })
        (setPort_own (by rw [hu, hupdate]; rfl)) (setPort_own (by rw [hu, hupdate]; rfl)))
    · rw [hsin, hbuf]
      exact ⟨hv.dark, hv.lit, hv.waits⟩

end Sys2Proof.Proofs
end

section
/-!
Proofs of the statements about the changes of a filter chain: bank swaps, resampler writes and syncs (R108, R113 to R115, R120, R121).
-/
namespace Sys2Proof.Proofs
open Sys2Proof.Machine Sys2Proof.Laws

/-! ## Bank swaps -/

theorem fchOf_of_fch {u v : State} (h : u.fch = v.fch) (i : Fch) : fchOf u i = fchOf v i := by unfold Machine.fchOf; rw [h]

/-- A chain changed, as an update. -/
theorem mapFch_changes (i : Fch) (f : FchSt → FchSt) (s : State) : ∃ F, mapFch i f s = { s with fch := F }
    ∧ (∀ v : State, v.fch = F → fchOf v i = f (fchOf s i)) ∧ ∀ v : State, v.fch = F → ∀ j, j ≠ i → fchOf v j = fchOf s j :=
  ⟨_, mapFch_update i f s, fun _ h => (fchOf_of_fch h i).trans (fchOf_mapFch i f s),
    fun _ h _ hj => (fchOf_of_fch h _).trans (fchOf_mapFch_ne f s hj)⟩

theorem Examined.fch {c : HostCmd} {s x : State} (h : Examined c s x) : x.fch = s.fch := by
  obtain ⟨_, _, _, _, _, hx⟩ := h.update
  rw [hx]

theorem Examined.fchOf {c : HostCmd} {s x : State} (h : Examined c s x) (i : Fch) : fchOf x i = fchOf s i := by
  unfold Machine.fchOf; rw [h.fch]

theorem Examined.fchBank {c : HostCmd} {s x : State} (h : Examined c s x) (i : Fch) (b : Bool) : fchBank x i b = fchBank s i b := by
  unfold Machine.fchBank
  simp only [h.reg]

theorem Examined.phaseOf {c : HostCmd} {s x : State} (h : Examined c s x) (i : Fch) : phaseOf x i = phaseOf s i := by
  obtain ⟨_, _, _, _, _, hx⟩ := h.update
  rw [hx]; rfl

section
variable {c : HostCmd} {s x : State} {i : Fch} (h : Taken 0x19 c s x) (hi : nth Fch.f0 [Fch.f0, .f1, .field] (fld c.a0 1 0) = i)
include h hi

/-- The effect of a BANK_SWAP, its conditions read in the state it came to (R113, R114). -/
theorem effBankSwap_eq : effBankSwap c x =
    if (fchOf s i).run = false then refuse 0x19 c stRefusedState x
    else if (fchOf s i).swap.isSome then refuse 0x19 c stRefusedBusy x
    else if (fchOf s i).entered.any (fun e => decide (swapLine (phaseOf s i) (argA12 c) ≤ e.1)) then refuse 0x19 c stRefusedLate x
    else if (fchBank s i (!(fchOf s i).bankB)).ok = false then refuse 0x19 c stRefusedBank x
    else mapFch i (fun x => { x with swap := some { id := s.hre.nextId + 1, ns := argA12 c } }) (accept c 0x19 x) := by
  have hid : newId x = s.hre.nextId + 1 := by
    obtain ⟨_, _, _, _, _, hx⟩ := h.update
    rw [hx]; rfl
  unfold effBankSwap
  dsimp only
  rw [hi, h.phaseOf, h.fchOf, h.fchBank, hid]
  simp only [Bool.not_eq_true']

theorem bankSwap_waits (hrun : (fchOf s i).run = true) (hswap : (fchOf s i).swap = none)
    (hlate : (fchOf s i).entered.any (fun e => decide (swapLine (phaseOf s i) (argA12 c) ≤ e.1)) = false)
    (hok : (fchBank s i (!(fchOf s i).bankB)).ok = true) :
    ∃ u, exec (.bankSwap c) s = .next u ∧ Accepted 0x19 c s u
      ∧ fchOf u i = { fchOf s i with swap := some { id := s.hre.nextId + 1, ns := argA12 c } }
      ∧ (∀ j, j ≠ i → fchOf u j = fchOf s j) ∧ u = { commanded s u with now := c.t, fch := u.fch } := by
  have heff := effBankSwap_eq h hi
  rw [hrun, hswap, hlate, hok] at heff
  obtain ⟨F, heq, hown, hne⟩ := mapFch_changes i (fun x => { x with swap := some { id := s.hre.nextId + 1, ns := argA12 c } }) (accept c 0x19 x)
  have hfch : fchOf (accept c 0x19 x) i = fchOf s i := h.fchOf i
  rw [hfch] at hown
  refine h.accepts (heff.trans heq) rfl fun o g => ⟨hown _ rfl, fun j hj => (hne _ rfl j hj).trans (h.fchOf j), ?_⟩
  obtain ⟨_, _, _, _, _, hx⟩ := h.update
  have hq := h.reserve
  subst hx
  exact with_reserve _ hq

theorem bankSwap_refused (hcond : (fchOf s i).run = false ∨ (fchOf s i).swap ≠ none
      ∨ (fchOf s i).entered.any (fun e => decide (swapLine (phaseOf s i) (argA12 c) ≤ e.1)) = true ∨ (fchBank s i (!(fchOf s i).bankB)).ok = false) :
    ∃ u st, exec (.bankSwap c) s = .next u ∧ Completed 0x19 c st 0 0 s u ∧ u = { commanded s u with now := c.t }
      ∧ ((fchOf s i).run = false → st = stRefusedState) ∧ ((fchOf s i).run = true → (fchOf s i).swap ≠ none → st = stRefusedBusy)
      ∧ ((fchOf s i).run = true → (fchOf s i).swap = none →
        (fchOf s i).entered.any (fun e => decide (swapLine (phaseOf s i) (argA12 c) ≤ e.1)) = true → st = stRefusedLate)
      ∧ ((fchOf s i).run = true → (fchOf s i).swap = none →
        (fchOf s i).entered.any (fun e => decide (swapLine (phaseOf s i) (argA12 c) ≤ e.1)) = false → st = stRefusedBank) := by
  have heff := effBankSwap_eq h hi
  generalize (fchOf s i).entered.any (fun e => decide (swapLine (phaseOf s i) (argA12 c) ≤ e.1)) = late at hcond heff ⊢
  have refuses : ∀ st, effBankSwap c x = refuse 0x19 c st x →
      ∃ u, exec (.bankSwap c) s = .next u ∧ Completed 0x19 c st 0 0 s u ∧ u = { commanded s u with now := c.t } := fun st hst => h.refuses hst
  cases hrun : (fchOf s i).run with
  | false =>
    obtain ⟨u, hu⟩ := refuses _ (heff.trans (if_pos hrun))
    exact ⟨u, _, hu.1, hu.2.1, hu.2.2, by simp⟩
  | true =>
    rw [if_neg (by simp [hrun])] at heff
    cases hswap : (fchOf s i).swap with
    | some w =>
      obtain ⟨u, hu⟩ := refuses _ (heff.trans (if_pos (by simp [hswap])))
      exact ⟨u, _, hu.1, hu.2.1, hu.2.2, by simp⟩
    | none =>
      rw [if_neg (by simp [hswap])] at heff
      cases late with
      | true =>
        obtain ⟨u, hu⟩ := refuses _ (heff.trans (if_pos rfl))
        exact ⟨u, _, hu.1, hu.2.1, hu.2.2, by simp⟩
      | false =>
        have hok : (fchBank s i (!(fchOf s i).bankB)).ok = false := by simpa [hrun, hswap] using hcond
        obtain ⟨u, hu⟩ := refuses _ (heff.trans ((if_neg Bool.false_ne_true).trans (if_pos hok)))
        exact ⟨u, _, hu.1, hu.2.1, hu.2.2, by simp⟩

end

/-! ## The resampler's word -/

theorem pstArrive_lands {s : State} {w : Nat} (h : lands s w = true) (off : Nat) (v : Word) : pstArrive off w v s = pstQueue w v s := by
  unfold lands at h
  rw [Bool.and_eq_true, Bool.and_eq_true, Bool.not_eq_true', beq_iff_eq] at h
  obtain ⟨⟨hrel, hup⟩, hworn⟩ := h
  unfold pstArrive
  rw [hrel, hup, hworn]
  rfl

theorem ignoreWrite_update (d : Dom) (blk off : Nat) (v : Word) (reason : Nat) (s : State) : ∃ g, ignoreWrite d blk off v reason s =
    { s with
      erc := { s.erc with inbox := s.erc.inbox ++
        (if aonUp s then [{ code := evWriteIgnored, src := 16 * d.num + blk, p0 := w32 off, p1 := v, p2 := w32 reason, solo := false }] else []) },
      hre := hreItems s.hre g } := by
  unfold ignoreWrite
  rw [note_update]
  exact vecItem_update 13 _

/-- What FCH_RSMP's high word must keep (R108, R347). -/
def RsmpKeeps (s : State) (i : Fch) (v : Word) : Prop :=
  0x1000000 ≤ (regStored s (fchOff i + 0x18)).toNat ∧ (regStored s (fchOff i + 0x18)).toNat ≤ 0xF0000000
    ∧ (bitOf v 0 = true → periodInRange s i (reg s (fchOff i + 0x20)).toNat = true)
    ∧ loadOk s i (bitOf v 0) (regStored s (fchOff i + 0x18)).toNat (reg s (fchOff i + 0x20)).toNat [] = true

theorem bitOf_low (v : Word) : bitOf (w32 (v.toNat % 2)) 0 = bitOf v 0 := by
  unfold bitOf w32
  rw [BitVec.toNat_ofNat, Nat.testBit_zero, Nat.testBit_zero, Nat.mod_eq_of_lt (a := v.toNat % 2) (by omega), Nat.mod_mod]

theorem rsmpWrite_eq {i : Fch} (v : Word) {s : State} (hfield : i ≠ .field) (hlands : lands s (pregWord (fchOff i + 0x1C)) = true) :
    (RsmpKeeps s i v → rsmpWrite i v s = mapFch i (fun x => { x with rsDue := x.rsOn || x.rsDue })
      (release [fchOff i + 0x18, fchOff i + 0x1C] (pstQueue (pregWord (fchOff i + 0x1C)) (w32 (v.toNat % 2)) s)))
    ∧ (¬ RsmpKeeps s i v → rsmpWrite i v s = ignoreWrite i.dom 5 (fchOff i + 0x1C) (w32 (v.toNat % 2)) 0 s) := by
  have hoff : fchOff i + 0x1C - 4 = fchOff i + 0x18 := rfl
  have hper : fchOff i + 0x1C + 4 = fchOff i + 0x20 := rfl
  unfold rsmpWrite
  dsimp only
  rw [hlands, if_neg (by decide), if_neg (by simpa using hfield), bitOf_low, hoff, hper, pstArrive_lands hlands]
  unfold RsmpKeeps
  constructor
  · rintro ⟨hlo, hhi, hperiod, hload⟩
    refine if_neg ?_
    cases hal : bitOf v 0 with
    | false => simp [hal] at hload ⊢; simp [hload]; omega
    | true => simp [hal] at hload hperiod ⊢; simp [hload, hperiod]; omega
  · intro hnot
    refine if_pos ?_
    by_contra hpass
    refine hnot ?_
    simpa [not_or, and_assoc] using hpass

/-- Settles O22. -/
theorem chainChangesKeepTheirLimits : Obligations.ChainChangesKeepTheirLimits := by
  unfold Obligations.ChainChangesKeepTheirLimits
  refine ⟨fun c s hpass => ?swap, fun t i v s hhost hfield hlands => ?write⟩
  case swap =>
    obtain ⟨x, hx, -⟩ := taken_of_passes hpass
    exact ⟨bankSwap_waits hx rfl, bankSwap_refused hx rfl⟩
  case write =>
    have hexec : exec (.fchRsmpWrite t i v) s = settle (rsmpWrite i v (atTime t s)) :=
      if_neg (by rw [show active (atTime t s) .host = true from hhost]; decide)
    obtain ⟨hkeep, hignore⟩ := rsmpWrite_eq v (s := atTime t s) hfield hlands
    refine ⟨fun h => ?_, fun h => ?_⟩
    · obtain ⟨F, heq, hown, -⟩ := mapFch_changes i (fun x => { x with rsDue := x.rsOn || x.rsDue })
        (release [fchOff i + 0x18, fchOff i + 0x1C] (pstQueue (pregWord (fchOff i + 0x1C)) (w32 (v.toNat % 2)) (atTime t s)))
      refine settles (hexec.trans (congrArg settle ((hkeep h).trans heq))) fun o g => ⟨rfl, ?_, rfl⟩
      rw [hown _ rfl]
      rfl
    · obtain ⟨g, hg⟩ := ignoreWrite_update i.dom 5 (fchOff i + 0x1C) (w32 (v.toNat % 2)) 0 (atTime t s)
      refine settles (hexec.trans (congrArg settle ((hignore h).trans hg))) fun o g' => ⟨rfl, fun haon => ?_⟩
      refine List.mem_append_right _ ?_
      rw [show aonUp (atTime t s) = true from haon]
      exact List.mem_singleton.2 rfl

/-! ## FILTER_SYNC -/

theorem passes_argsOk {op : Nat} {c : HostCmd} {s : State} (h : Passes op c s) : argsOk op c = true := by
  obtain ⟨-, hnone⟩ := h
  by_contra hbad
  have : examine op c (takeCmd c (atTime c.t s)) = (if opcodeList.contains op then some stRefusedArgument else some stRefusedOpcode, takeCmd c (atTime c.t s)) := by
    unfold examine
    rw [Bool.eq_false_iff.2 hbad]
    cases opcodeList.contains op <;> rfl
  rw [this] at hnone
  split at hnone <;> cases hnone

/-- Chains changed alike, one after the other. -/
theorem mapFchs_changes (f : FchSt → FchSt) {l : List Fch} (hl : l.Nodup) (s : State) : ∃ F, l.foldl (fun s i => mapFch i f s) s = { s with fch := F }
    ∧ (∀ v : State, v.fch = F → ∀ i ∈ l, fchOf v i = f (fchOf s i)) ∧ ∀ v : State, v.fch = F → ∀ j, j ∉ l → fchOf v j = fchOf s j := by
  induction l generalizing s with
  | nil => exact ⟨s.fch, rfl, fun v hv i hi => absurd hi List.not_mem_nil, fun v hv j _ => fchOf_of_fch hv j⟩
  | cons i l ih =>
    obtain ⟨hi, hl⟩ := List.nodup_cons.1 hl
    obtain ⟨F₁, heq, hown, hne⟩ := mapFch_changes i f s
    obtain ⟨F, hfold, hin, hout⟩ := ih hl (mapFch i f s)
    have hs : ∀ j, fchOf { s with fch := F₁ } j = fchOf (mapFch i f s) j := fun j => by rw [heq]
    refine ⟨F, hfold.trans (by rw [heq]), fun v hv j hj => ?_, fun v hv j hj => ?_⟩
    · rcases eq_or_ne j i with rfl | hji
      · rw [hout v hv j hi, ← hs, hown _ rfl]
      · rw [hin v hv j ((List.mem_cons.1 hj).resolve_left hji), ← hs, hne _ rfl j hji]
    · rw [hout v hv j fun h => hj (List.mem_cons_of_mem _ h), ← hs, hne _ rfl j fun h => hj (h ▸ List.mem_cons_self)]



/-- Whether a chain takes a FILTER_SYNC at t_y (R115). -/
def SyncTakes (c : HostCmd) (s : State) (ty : Int) (i : Fch) : Prop :=
  bitOf c.a0 i.num = true ∧ (fchOf s i).run = true ∧ syncLate s i ty = false

/-- The status of a chain that FILTER_SYNC names (R115). -/
def syncStatus (s : State) (ty : Int) (i : Fch) : Nat :=
  if !(fchOf s i).run then stRefusedState else if syncLate s i ty then stRefusedLate else stApplied

/-- The chains that take a FILTER_SYNC (R115). -/
def syncTakers (c : HostCmd) (s : State) (ty : Int) : List Fch := (maskFch c.a0).filter (fun i => syncStatus s ty i == stApplied)

theorem syncStatus_applied (s : State) (ty : Int) (i : Fch) :
    syncStatus s ty i = stApplied ↔ (fchOf s i).run = true ∧ syncLate s i ty = false := by
  unfold syncStatus
  cases (fchOf s i).run <;> cases syncLate s i ty <;> decide

theorem syncStatus_refused {s : State} {ty : Int} {i : Fch} (h : syncStatus s ty i ≠ stApplied) :
    syncStatus s ty i = stRefusedState ∨ syncStatus s ty i = stRefusedLate := by
  unfold syncStatus at h ⊢
  split
  · exact .inl rfl
  split
  · exact .inr rfl
  · simp_all

theorem mem_maskFch (w : Word) (i : Fch) : i ∈ maskFch w ↔ bitOf w i.num = true := by
  unfold maskFch
  rw [List.mem_filter]
  exact and_iff_right (by cases i <;> decide)

theorem maskFch_ne_nil {w : Word} (h : fld w 2 0 ≠ 0) : maskFch w ≠ [] := by
  intro hnil
  have hbit : ∀ i : Fch, bitOf w i.num = false := fun i => by
    rw [← Bool.not_eq_true, ← mem_maskFch, hnil]
    exact List.not_mem_nil
  refine h (Nat.eq_of_testBit_eq fun k => ?_)
  have h0 := hbit .f0
  have h1 := hbit .f1
  have h2 := hbit .field
  unfold bitOf at h0 h1 h2
  unfold fld
  rw [Nat.shiftRight_zero, Nat.testBit_mod_two_pow, Nat.zero_testBit]
  match k with
  | 0 | 1 | 2 => simp_all [Fch.num]
  | k + 3 => simp

theorem mem_syncTakers (c : HostCmd) (s : State) (ty : Int) (i : Fch) : i ∈ syncTakers c s ty ↔ SyncTakes c s ty i := by
  unfold syncTakers SyncTakes
  rw [List.mem_filter, mem_maskFch, beq_iff_eq, syncStatus_applied]

theorem syncTakers_nodup (c : HostCmd) (s : State) (ty : Int) : (syncTakers c s ty).Nodup :=
  .filter _ (.filter _ (by decide))

theorem Examined.syncLate {c : HostCmd} {s x : State} (h : Examined c s x) (i : Fch) (ty : Int) : syncLate x i ty = Machine.syncLate s i ty := by
  have hnet : x.net = s.net := by
    obtain ⟨_, _, _, _, _, hx⟩ := h.update
    rw [hx]
  unfold Machine.syncLate
  rw [h.fchOf, h.phaseOf, hnet]

section
variable {c : HostCmd} {s x : State} (h : Taken 0x18 c s x) {ty : Int} {lt : Bool}
include h

/-- The effect of a FILTER_SYNC in the device's time base, its conditions read in the state it came to (R115). -/
theorem effFilterSync_eq (hty : (if bitOf c.a0 8 then grid10 (c.t + 20000) else (argA12 c : Int)) = ty)
    (hlt : (if bitOf c.a0 8 then !s.net.joined else bitOf c.a0 9) = lt) (hbase : bitOf c.a0 8 = true ∨ bitOf c.a0 9 ≠ s.net.joined) :
    effFilterSync c x =
      let bad := (((maskFch c.a0).filter (fun i => syncStatus s ty i != stApplied)).map (syncStatus s ty)).headD stApplied
      match syncTakers c s ty with
      | [] => refuse 0x18 c bad x
      | i0 :: r => (i0 :: r).foldl
          (fun v i => mapFch i (fun y => { y with syncs := y.syncs ++ [{ src := 1, ty := ty, lt := lt, id := s.hre.nextId + 1 }] }) v)
          { accept c 0x18 x with fsync := s.fsync ++ [{ id := s.hre.nextId + 1, left := (i0 :: r).length, low := i0.num, ny := 0, st := bad }] } := by
  obtain ⟨hnow, hnet, hsync, hid⟩ : x.now = c.t ∧ x.net = s.net ∧ x.fsync = s.fsync ∧ newId x = s.hre.nextId + 1 := by
    obtain ⟨_, _, _, _, _, hx⟩ := h.update
    rw [hx]
    exact ⟨rfl, rfl, rfl, rfl⟩
  have hwrong : (!bitOf c.a0 8 && bitOf c.a0 9 == s.net.joined) = false := by
    rcases hbase with h | h
    · rw [h]; rfl
    · rw [Bool.and_eq_false_iff]; exact .inr (beq_false_of_ne h)
  have hstatus : ∀ i, (if !(fchOf x i).run then stRefusedState else if syncLate x i ty then stRefusedLate else stApplied) = syncStatus s ty i :=
    fun i => by rw [h.fchOf, h.syncLate]; rfl
  unfold effFilterSync syncTakers
  dsimp only
  rw [hnow, hnet, hty, hlt, hwrong, if_neg Bool.false_ne_true, hid]
  simp only [hstatus]
  rw [← hsync]
  generalize (maskFch c.a0).filter (fun i => syncStatus s ty i == stApplied) = l
  cases l <;> rfl

theorem filterSync_accepted (hty : (if bitOf c.a0 8 then grid10 (c.t + 20000) else (argA12 c : Int)) = ty)
    (hlt : (if bitOf c.a0 8 then !s.net.joined else bitOf c.a0 9) = lt) (hbase : bitOf c.a0 8 = true ∨ bitOf c.a0 9 ≠ s.net.joined)
    (htakes : ∃ i, SyncTakes c s ty i) : ∃ u : State, exec (.filterSync c) s = .next u ∧ Accepted 0x18 c s u
      ∧ u = { commanded s u with now := c.t, fch := u.fch, fsync := u.fsync } ∧ u.fsync.length = s.fsync.length + 1
      ∧ (∀ i, SyncTakes c s ty i → fchOf u i = { fchOf s i with syncs := (fchOf s i).syncs ++ [({ src := 1, ty := ty, lt := lt, id := s.hre.nextId + 1 } : SyncReq)] })
      ∧ (∀ i, ¬ SyncTakes c s ty i → fchOf u i = fchOf s i) := by
  have heff := effFilterSync_eq h hty hlt hbase
  obtain ⟨i, hi⟩ := htakes
  rw [← mem_syncTakers] at hi
  have hmem := mem_syncTakers c s ty
  have hnodup := syncTakers_nodup c s ty
  generalize syncTakers c s ty = l at heff hi hmem hnodup
  match l with
  | i0 :: r =>
    dsimp only at heff
    generalize List.headD _ stApplied = bad at heff
    obtain ⟨F, hfold, hin, hout⟩ := mapFchs_changes
      (fun y => { y with syncs := y.syncs ++ [{ src := 1, ty := ty, lt := lt, id := s.hre.nextId + 1 }] }) hnodup
      { accept c 0x18 x with fsync := s.fsync ++ [{ id := s.hre.nextId + 1, left := (i0 :: r).length, low := i0.num, ny := 0, st := bad }] }
    refine h.accepts (heff.trans hfold) rfl fun o g => ⟨?_, List.length_append, fun j hj => ?_, fun j hj => ?_⟩
    · obtain ⟨_, _, _, _, _, hx⟩ := h.update
      have hq := h.reserve
      subst hx
      exact with_reserve _ hq
    · rw [hin _ rfl j ((hmem j).2 hj)]
      exact congrArg (fun y : FchSt => { y with syncs := y.syncs ++ [({ src := 1, ty := ty, lt := lt, id := s.hre.nextId + 1 } : SyncReq)] }) (h.fchOf j)
    · rw [hout _ rfl j fun k => hj ((hmem j).1 k)]
      exact h.fchOf j

theorem filterSync_refused (hmask : fld c.a0 2 0 ≠ 0) (hty : (if bitOf c.a0 8 then grid10 (c.t + 20000) else (argA12 c : Int)) = ty)
    (hbase : bitOf c.a0 8 = true ∨ bitOf c.a0 9 ≠ s.net.joined)
    (hnone : ∀ i, ¬ SyncTakes c s ty i) : ∃ u st, exec (.filterSync c) s = .next u ∧ Completed 0x18 c st 0 0 s u
      ∧ (st = stRefusedState ∨ st = stRefusedLate) ∧ u = { commanded s u with now := c.t } := by
  have heff := effFilterSync_eq h hty rfl hbase
  have hempty : syncTakers c s ty = [] := List.eq_nil_iff_forall_not_mem.2 fun i hi => hnone i ((mem_syncTakers c s ty i).1 hi)
  rw [hempty] at heff
  have hbad : ∀ st, (((maskFch c.a0).filter (fun i => syncStatus s ty i != stApplied)).map (syncStatus s ty)).headD stApplied = st →
      st = stRefusedState ∨ st = stRefusedLate := by
    rintro st rfl
    have hall : (maskFch c.a0).filter (fun i => syncStatus s ty i != stApplied) = maskFch c.a0 := by
      refine List.filter_eq_self.2 fun i hi => bne_iff_ne.2 fun happlied => hnone i ?_
      exact ⟨(mem_maskFch _ i).1 hi, (syncStatus_applied s ty i).1 happlied⟩
    rw [hall]
    have hne := maskFch_ne_nil hmask
    have hrefused : ∀ i ∈ maskFch c.a0, syncStatus s ty i = stRefusedState ∨ syncStatus s ty i = stRefusedLate := fun i hi =>
      syncStatus_refused (bne_iff_ne.1 (List.filter_eq_self.1 hall i hi))
    cases hm : maskFch c.a0 with
    | nil => exact absurd hm hne
    | cons i r => exact hrefused i (hm ▸ List.mem_cons_self)
  obtain ⟨u, hu, hdone, hframe⟩ := h.refuses heff
  exact ⟨u, _, hu, hdone, hbad _ rfl, hframe⟩

end

/-! ## Syncs from the pin and at a network time -/

/-- What a latched sync makes of a chain (R115). -/
def latchedAt (s : State) (i : Fch) (r : SyncReq) : FchSt :=
  if (fchOf s i).run && active s i.dom && !(r.src == 0 && (fchOf s i).syncs.any (fun q => q.src == 0)) then
    { fchOf s i with syncs := (fchOf s i).syncs ++ [r] }
  else fchOf s i

theorem latchSync_update (i : Fch) (r : SyncReq) (s : State) : ∃ k F, latchSync i r s = { s with ctr := k, fch := F }
    ∧ (∀ v : State, v.fch = F → fchOf v i = latchedAt s i r) ∧ (∀ v : State, v.fch = F → ∀ j, j ≠ i → fchOf v j = fchOf s j)
    ∧ (r.src ≠ 0 → k = s.ctr) := by
  have stays : ∀ v : State, v.fch = s.fch → ∀ j, j ≠ i → fchOf v j = fchOf s j := fun v hv j _ => fchOf_of_fch hv j
  unfold latchSync latchedAt
  dsimp only
  split
  next hoff =>
    rw [if_neg (by rw [Bool.or_eq_true, Bool.not_eq_true', Bool.not_eq_true'] at hoff; rcases hoff with h | h <;> simp [h])]
    exact ⟨s.ctr, s.fch, rfl, fun v hv => fchOf_of_fch hv i, stays, fun _ => rfl⟩
  next hon =>
    split
    next hpend =>
      rw [if_neg (by simp at hpend ⊢; tauto)]
      exact ⟨_, s.fch, rfl, fun v hv => fchOf_of_fch hv i, stays, fun h => absurd (by simp at hpend; exact hpend.1) h⟩
    next hfree =>
      rw [if_pos (by simp at hon hfree ⊢; tauto)]
      obtain ⟨F, heq, hown, hne⟩ := mapFch_changes i (fun x => { x with syncs := x.syncs ++ [r] }) s
      exact ⟨s.ctr, F, heq, hown, hne, fun _ => rfl⟩

/-- A sync latched where a condition holds (R115, R121). -/
theorem latchIf_update (b : Bool) (i : Fch) (r : SyncReq) (s : State) : ∃ k F, (if b then latchSync i r s else s) = { s with ctr := k, fch := F }
    ∧ (∀ v : State, v.fch = F → fchOf v i = if b then latchedAt s i r else fchOf s i)
    ∧ ∀ v : State, v.fch = F → ∀ j, j ≠ i → fchOf v j = fchOf s j := by
  cases b with
  | true =>
    obtain ⟨k, F, heq, hown, hne, -⟩ := latchSync_update i r s
    exact ⟨k, F, heq, hown, hne⟩
  | false => exact ⟨s.ctr, s.fch, rfl, fun v hv => fchOf_of_fch hv i, fun v hv j _ => fchOf_of_fch hv j⟩

/-- What a SYNC_IN edge leaves at a chain of a port (R115). -/
theorem syncInEdge_latches (t : Int) {i : Fch} (hi : i ≠ .field) (s : State) : ∃ k F, exec (.syncInEdge t) s = settle { atTime t s with ctr := k, fch := F }
    ∧ ∀ v : State, v.fch = F → fchOf v i =
      if bitOf (reg s (fchOff i + 8)) 0 then latchedAt s i { src := 0, ty := t, lt := !s.net.joined, id := 0 } else fchOf s i := by
  generalize hr : ({ src := 0, ty := t, lt := !s.net.joined, id := 0 } : SyncReq) = r
  generalize hfollow : (bitOf (reg s (fchOff .field + 8)) 0 || (bitOf (reg s (fchOff .f0 + 8)) 0 && bitOf (reg s (fchOff .f0 + 8)) 1)
    || (bitOf (reg s (fchOff .f1 + 8)) 0 && bitOf (reg s (fchOff .f1 + 8)) 1)) = follow
  obtain ⟨k₀, F₀, heq₀, hown₀, hne₀⟩ := latchIf_update (bitOf (reg s (fchOff .f0 + 8)) 0) .f0 r (atTime t s)
  obtain ⟨k₁, F₁, heq₁, hown₁, hne₁⟩ := latchIf_update (bitOf (reg s (fchOff .f1 + 8)) 0) .f1 r { atTime t s with ctr := k₀, fch := F₀ }
  obtain ⟨k₂, F₂, heq₂, -, hne₂⟩ := latchIf_update follow .field r { atTime t s with ctr := k₁, fch := F₁ }
  have hexec : exec (.syncInEdge t) s = settle (if follow then latchSync .field r
      (if bitOf (reg s (fchOff .f1 + 8)) 0 then latchSync .f1 r (if bitOf (reg s (fchOff .f0 + 8)) 0 then latchSync .f0 r (atTime t s) else atTime t s)
        else (if bitOf (reg s (fchOff .f0 + 8)) 0 then latchSync .f0 r (atTime t s) else atTime t s))
      else (if bitOf (reg s (fchOff .f1 + 8)) 0 then latchSync .f1 r (if bitOf (reg s (fchOff .f0 + 8)) 0 then latchSync .f0 r (atTime t s) else atTime t s)
        else (if bitOf (reg s (fchOff .f0 + 8)) 0 then latchSync .f0 r (atTime t s) else atTime t s))) := by
    rw [← hr, ← hfollow]; rfl
  rw [heq₀, heq₁, heq₂] at hexec
  refine ⟨k₂, F₂, hexec, fun v hv => (hne₂ v hv i hi).trans ?_⟩
  match i with
  | .f0 => exact (hne₁ _ rfl .f0 (by decide)).trans (hown₀ _ rfl)
  | .f1 =>
    have hother : fchOf { atTime t s with ctr := k₀, fch := F₀ } .f1 = fchOf s .f1 := hne₀ _ rfl .f1 (by decide)
    rw [hown₁ _ rfl]
    unfold latchedAt
    rw [hother]
    rfl

/-- An armed sync at one chain: latched where the chain runs, recorded as cancelled where it does not (R115). -/
def armedAt (i : Fch) (r : SyncReq) (s : State) : State := if (fchOf s i).run then latchSync i r s else syncCancel i r s

theorem armedAt_update {i : Fch} {r : SyncReq} {s : State} (hsrc : r.src = 2) : ∃ F I, armedAt i r s = { s with fch := F, erc := { s.erc with inbox := I } }
    ∧ (∀ v : State, v.fch = F → fchOf v i =
      if (fchOf s i).run && active s i.dom then { fchOf s i with syncs := (fchOf s i).syncs ++ [r] } else fchOf s i)
    ∧ (∀ v : State, v.fch = F → ∀ j, j ≠ i → fchOf v j = fchOf s j)
    ∧ I = s.erc.inbox ++ (if !(fchOf s i).run && aonUp s then
      [{ code := evSyncCancelled, src := 16 * i.dom.num + (if i = .field then 3 else 5), p0 := w32 i.num, p1 := 0, p2 := 0, solo := false }] else []) := by
  unfold armedAt
  cases hrun : (fchOf s i).run with
  | true =>
    obtain ⟨k, F, heq, hown, hne, hk⟩ := latchSync_update i r s
    refine ⟨F, s.erc.inbox, ?_, fun v hv => ?_, hne, (List.append_nil _).symm⟩
    · rw [if_pos rfl, heq, hk (by rw [hsrc]; decide)]
    · rw [hown v hv]
      unfold latchedAt
      rw [hrun, show (r.src == 0) = false by rw [hsrc]; rfl]
      simp
  | false =>
    refine ⟨s.fch, _, ?_, fun v hv => fchOf_of_fch hv i, fun v hv j _ => fchOf_of_fch hv j, rfl⟩
    rw [if_neg Bool.false_ne_true]
    unfold syncCancel
    rw [if_neg (by rw [hsrc]; decide), if_pos hsrc, note_update]
    simp [beq_iff_eq]

/-- The registers after the high word of FCH_SYNCNT is written (R450). -/
def syncntWritten (i : Fch) (hi : Word) (s : State) : State :=
  { s with regs := { s.regs with rw := tput (regReset (fchOff i + 0x14)) (fchOff i + 0x14) hi s.regs.rw,
                                 held := tput none (fchOff i + 0x10) none s.regs.held } }

theorem syncntWritten_reg {i : Fch} {hi : Word} {s : State} {o : Nat} (h14 : o ≠ fchOff i + 0x14) (h10 : o ≠ fchOff i + 0x10) :
    reg (syncntWritten i hi s) o = reg s o := by
  unfold reg regStored syncntWritten
  dsimp only
  rw [tget_tput_ne none none none s.regs.held h10]
  congr 1
  split
  · rw [tget_tput_ne _ _ _ s.regs.rw h14]
  · rfl

theorem syncntWritten_low {i : Fch} {hi : Word} {s : State} (hheld : rising s.regs.held = true) :
    reg (syncntWritten i hi s) (fchOff i + 0x10) = regStored s (fchOff i + 0x10) := by
  unfold reg syncntWritten
  dsimp only
  rw [tget_tput none _ none s.regs.held hheld]
  unfold regStored
  split
  · rw [tget_tput_ne _ _ _ s.regs.rw (by omega)]; rfl
  · rfl

/-- The sync that the high word of FCH_SYNCNT arms (R115). -/
def armedSync (i : Fch) (hi : Word) (s : State) : SyncReq :=
  { src := 2, ty := join64 (reg (syncntWritten i hi s) (fchOff i + 0x10)) hi, lt := false, id := 0 }

theorem armSync_eq (i : Fch) (hi : Word) {s : State} (h : active s i.dom = true) : armSync i hi s =
    if i ≠ .field ∧ bitOf (reg s (fchOff i + 8)) 1 = true then armedAt .field (armedSync i hi s) (armedAt i (armedSync i hi s) (syncntWritten i hi s))
    else armedAt i (armedSync i hi s) (syncntWritten i hi s) := by
  have hreg : ∀ u : State, u = armedAt i (armedSync i hi s) (syncntWritten i hi s) → reg u (fchOff i + 8) = reg s (fchOff i + 8) := by
    rintro u rfl
    obtain ⟨F, I, heq, -⟩ := armedAt_update (i := i) (r := armedSync i hi s) (s := syncntWritten i hi s) rfl
    rw [heq]
    exact syncntWritten_reg (by omega) (by omega)
  have harm : armSync i hi s =
      if (i != .field && bitOf (reg (armedAt i (armedSync i hi s) (syncntWritten i hi s)) (fchOff i + 8)) 1) = true then
        armedAt .field (armedSync i hi s) (armedAt i (armedSync i hi s) (syncntWritten i hi s))
      else armedAt i (armedSync i hi s) (syncntWritten i hi s) := if_neg (by rw [h]; decide)
  rw [harm, hreg _ rfl]
  exact if_congr (by simp) rfl rfl

/-- What the high word of FCH_SYNCNT leaves of the chains and of the recorder's inbox (R115, R121). -/
theorem armSync_update (i : Fch) (hi : Word) {s : State} (h : active s i.dom = true) :
    ∃ F I, armSync i hi s = { syncntWritten i hi s with fch := F, erc := { s.erc with inbox := I } }
      ∧ (∀ v : State, v.fch = F → ∀ j, fchOf v j =
        if (j = i ∨ j = .field ∧ i ≠ .field ∧ bitOf (reg s (fchOff i + 8)) 1 = true) ∧ (fchOf s j).run = true ∧ active s j.dom = true then
          { fchOf s j with syncs := (fchOf s j).syncs ++ [armedSync i hi s] } else fchOf s j)
      ∧ (aonUp s = true → (fchOf s i).run = false →
        ({ code := evSyncCancelled, src := 16 * i.dom.num + (if i = .field then 3 else 5), p0 := w32 i.num, p1 := 0, p2 := 0, solo := false } : EvIn) ∈ I) := by
  obtain ⟨F₁, I₁, heq₁, hown₁, hne₁, hI₁⟩ := armedAt_update (i := i) (r := armedSync i hi s) (s := syncntWritten i hi s) rfl
  have hcancelled : aonUp s = true → (fchOf s i).run = false →
      ({ code := evSyncCancelled, src := 16 * i.dom.num + (if i = .field then 3 else 5), p0 := w32 i.num, p1 := 0, p2 := 0, solo := false } : EvIn) ∈ I₁ := by
    intro hup hrun
    rw [hI₁, show (!(fchOf (syncntWritten i hi s) i).run && aonUp (syncntWritten i hi s)) = true by
      rw [Bool.and_eq_true, Bool.not_eq_true']; exact ⟨hrun, hup⟩]
    exact List.mem_append_right _ (List.mem_singleton.2 rfl)
  rw [armSync_eq i hi h]
  split
  next halso =>
    obtain ⟨F₂, I₂, heq₂, hown₂, hne₂, hI₂⟩ := armedAt_update (i := .field) (r := armedSync i hi s) (s := armedAt i (armedSync i hi s) (syncntWritten i hi s)) rfl
    have hsame : fchOf (armedAt i (armedSync i hi s) (syncntWritten i hi s)) .field = fchOf s .field := by
      rw [heq₁]
      exact hne₁ _ rfl .field fun e => halso.1 e.symm
    have hactive : active (armedAt i (armedSync i hi s) (syncntWritten i hi s)) Fch.field.dom = active s Fch.field.dom := by rw [heq₁]; rfl
    rw [hsame, hactive] at hown₂
    rw [heq₁] at heq₂ hne₂ hI₂
    rw [heq₁]
    refine ⟨F₂, I₂, heq₂, fun v hv j => ?_, fun hup hrun => hI₂ ▸ List.mem_append_left _ (hcancelled hup hrun)⟩
    by_cases hj : j = .field
    · subst hj
      rw [hown₂ v hv]
      refine if_congr ?_ rfl rfl
      rw [Bool.and_eq_true]
      exact (and_iff_right (.inr ⟨rfl, halso⟩)).symm
    · rw [hne₂ v hv j hj]
      by_cases hji : j = i
      · subst hji
        rw [hown₁ _ rfl]
        refine if_congr ?_ rfl rfl
        rw [Bool.and_eq_true]
        exact (and_iff_right (.inl rfl)).symm
      · rw [if_neg fun h => h.1.elim hji fun k => hj k.1]
        exact hne₁ _ rfl j hji
  next hnot =>
    rw [heq₁]
    refine ⟨F₁, I₁, rfl, fun v hv j => ?_, hcancelled⟩
    by_cases hji : j = i
    · subst hji
      rw [hown₁ v hv]
      refine if_congr ?_ rfl rfl
      rw [Bool.and_eq_true]
      exact (and_iff_right (.inl rfl)).symm
    · rw [if_neg fun h => h.1.elim hji fun k => hnot k.2]
      exact hne₁ v hv j hji

/-- Settles O21. -/
theorem syncsWaitAtTheirInstances : Obligations.SyncsWaitAtTheirInstances := by
  unfold Obligations.SyncsWaitAtTheirInstances
  refine ⟨fun c s hpass => ?command, fun t i s hi => ?pin, fun t i hi s hact => ?armed⟩
  case command =>
    intro now ty takes hbase
    obtain ⟨x, hx, -⟩ := taken_of_passes hpass
    have hargs : fld c.a0 2 0 ≠ 0 := by
      have := passes_argsOk hpass
      unfold argsOk at this
      simp only [Bool.and_eq_true] at this
      simpa [argRange] using this.2
    exact ⟨filterSync_accepted hx rfl rfl hbase, filterSync_refused hx hargs rfl hbase⟩
  case pin =>
    intro on pending
    obtain ⟨k, F, hexec, hown⟩ := syncInEdge_latches t hi s
    refine settles hexec fun o g => ⟨rfl, fun hon hrun hup hfree => ?_, fun hnot => ?_⟩
    · rw [hown _ rfl, if_pos hon]
      unfold latchedAt
      rw [if_pos (by simp [hrun, hup, show (fchOf s i).syncs.any (fun q => q.src == 0) = false from hfree])]
    · rw [hown _ rfl]
      unfold latchedAt
      change (bitOf (reg s (fchOff i + 8)) 0 = false ∨ _ ∨ _ ∨ (fchOf s i).syncs.any (fun q => q.src == 0) = true) at hnot
      rcases hnot with h | h | h | h <;> simp [h]
  case armed =>
    intro also
    obtain ⟨F, I, heq, hchains, hcancelled⟩ := armSync_update i hi (s := atTime t s) hact
    refine settles (congrArg settle heq) fun o g => ⟨fun j hj hup hrun => ?_, fun j hrun => ?_, hcancelled, fun j hne hj => ?_, rfl, rfl⟩
    · refine ⟨armedSync i hi (atTime t s), (hchains _ rfl j).trans (if_pos ⟨hj, hrun, hup⟩), rfl, rfl, fun _ hheld => ?_⟩
      exact congrArg (fun w : Word => (join64 w hi : Int)) (syncntWritten_low (s := atTime t s) hheld)
    · exact (hchains _ rfl j).trans (if_neg fun h => absurd (hrun.symm.trans h.2.1) (by decide))
    · refine (hchains _ rfl j).trans (if_neg fun h => ?_)
      rcases h.1 with h | h
      · exact hne h
      · exact hj.elim (fun k => k h.1) (fun k => k h.2)

end Sys2Proof.Proofs
end

section
/-!
Proof of the statement about a closed block of the corner-turn (R95 to R119): what goes on beside the filter chains, what leaves a chain's own phase as it
is, and what a line sample may change of its chain.
-/
namespace Sys2Proof.Proofs
open Sys2Proof.Machine Sys2Proof.Laws

/-! ## Beside the chains -/

/-- From s to u only counts, records, completions, streams and floors changed beside the filter chains. -/
structure Around (s u : State) : Prop where
  now : u.now = s.now
  stg : u.stg = s.stg
  clr : u.clr = s.clr
  sin : u.sin = s.sin
  phx : u.phx = s.phx
  hen : u.hen = s.hen
  sld : u.sld = s.sld
  net : u.net = s.net
  sec : u.sec = s.sec
  pst : u.pst = s.pst
  regs : u.regs = s.regs

theorem Around.refl (s : State) : Around s s := ⟨rfl, rfl, rfl, rfl, rfl, rfl, rfl, rfl, rfl, rfl, rfl⟩

theorem Around.trans {s t u : State} (h : Around s t) (k : Around t u) : Around s u :=
  ⟨k.now.trans h.now, k.stg.trans h.stg, k.clr.trans h.clr, k.sin.trans h.sin, k.phx.trans h.phx, k.hen.trans h.hen, k.sld.trans h.sld,
    k.net.trans h.net, k.sec.trans h.sec, k.pst.trans h.pst, k.regs.trans h.regs⟩

/-- Around the chains, which stay as they are. -/
structure Beside (s u : State) : Prop extends Around s u where
  fch : u.fch = s.fch

theorem Beside.refl (s : State) : Beside s s := ⟨.refl s, rfl⟩

theorem Beside.trans {s t u : State} (h : Beside s t) (k : Beside t u) : Beside s u := ⟨h.toAround.trans k.toAround, k.fch.trans h.fch⟩

theorem Beside.foldl {α : Type} {f : State → α → State} (h : ∀ s a, Beside s (f s a)) (l : List α) (s : State) : Beside s (l.foldl f s) := by
  induction l generalizing s with
  | nil => exact .refl s
  | cons a l ih => exact (h s a).trans (ih (f s a))

theorem beside_of_hsc (h : HscSt) (s : State) : Beside s { s with hsc := h } := ⟨⟨rfl, rfl, rfl, rfl, rfl, rfl, rfl, rfl, rfl, rfl, rfl⟩, rfl⟩

theorem beside_of_ctr (k : Tab Nat) (s : State) : Beside s { s with ctr := k } := ⟨⟨rfl, rfl, rfl, rfl, rfl, rfl, rfl, rfl, rfl, rfl, rfl⟩, rfl⟩

theorem finish_beside (id st : Nat) (r0 r1 : Word) (s : State) : Beside s (finish id st r0 r1 s) := by
  obtain ⟨k, i, w, g, h⟩ := finish_update id st r0 r1 s
  rw [h]
  exact ⟨⟨rfl, rfl, rfl, rfl, rfl, rfl, rfl, rfl, rfl, rfl, rfl⟩, rfl⟩

theorem note_beside (code : Nat) (d : Dom) (b : Nat) (p0 p1 p2 : Word) (s : State) : Beside s (note code d b p0 p1 p2 s) := by
  rw [note_update]
  exact ⟨⟨rfl, rfl, rfl, rfl, rfl, rfl, rfl, rfl, rfl, rfl, rfl⟩, rfl⟩

theorem fsyncPart_beside (id inst st : Nat) (ny : Int) (s : State) : Beside s (fsyncPart id inst st ny s) := by
  have hsync : ∀ l, Beside s { s with fsync := l } := fun l => ⟨⟨rfl, rfl, rfl, rfl, rfl, rfl, rfl, rfl, rfl, rfl, rfl⟩, rfl⟩
  unfold fsyncPart
  split
  · exact .refl s
  · extract_lets f rest
    split
    · split <;> exact (hsync _).trans (finish_beside ..)
    · exact hsync _

theorem syncCancel_beside (i : Fch) (r : SyncReq) (s : State) : Beside s (syncCancel i r s) := by
  unfold syncCancel
  split
  · exact fsyncPart_beside ..
  split
  · exact note_beside ..
  · exact .refl s

theorem syncDone_beside (i : Fch) (n : Int) (r : SyncReq) (s : State) : Beside s (syncDone i n r s) := by
  unfold syncDone
  dsimp only
  split
  · exact (beside_of_ctr _ s).trans (fsyncPart_beside ..)
  · exact beside_of_ctr _ s

/-! ## Streams -/

theorem toStr_beside (b : Block) (s : State) : Beside s (toStr b s) := by
  obtain ⟨h, e⟩ := toStr_update b s
  rw [e]
  exact beside_of_hsc h s

theorem flagDef_beside (d : Nat) (s : State) : Beside s (flagDef d s) := by
  obtain ⟨h, e⟩ := flagDef_update d s
  rw [e]
  exact beside_of_hsc h s

theorem flagRestart_beside (i : Fch) (s : State) : Beside s (flagRestart i s) := by
  unfold flagRestart
  split
  · exact .refl s
  · exact .foldl (fun s d => flagDef_beside d s) _ s

theorem endOutput_beside (d : Nat) (s : State) : Beside s (endOutput d s) := toStr_beside _ s

theorem mapDef_beside (d : Nat) (f : DefSt → DefSt) (s : State) : Beside s (mapDef d f s) := beside_of_hsc _ s

theorem mapRegion_beside (k : Nat) (f : RegionSt → RegionSt) (s : State) : Beside s (mapRegion k f s) := beside_of_hsc _ s

theorem shedHis_beside (d : Nat) (s : State) : Beside s (shedHis d s) := by
  unfold shedHis
  split
  · exact mapRegion_beside ..
  · exact .refl s

theorem withhold_beside (d : Nat) (n : Int) (s : State) : Beside s (withhold d n s) := by
  have hbusy : ∀ (d : Dom) (s : State), Beside s (markBusy d s) := fun d s => ⟨⟨rfl, rfl, rfl, rfl, rfl, rfl, rfl, rfl, rfl, rfl, rfl⟩, rfl⟩
  exact ((mapDef_beside d _ s).trans (shedHis_beside d _)).trans (hbusy _ _)

theorem formBlock_beside (q : SDef) (h : BlkHead) (n : Int) (gap : Nat) (hre hsc : Bool) (vals : List SVal) (s : State) :
    Beside s (formBlock q h n gap hre hsc vals s) := by
  unfold formBlock
  extract_lets mk v r
  have hv : Beside s v := by
    unfold v
    split
    · exact toStr_beside _ s
    · exact .refl s
  split
  · exact hv
  split
  · exact hv.trans (mapRegion_beside ..)
  · exact hv.trans (beside_of_hsc _ v)

theorem formBlocks_beside (d k : Nat) (lt align minp : Bool) (n : Int) (time : Nat → Int) (vals : List SVal) (s : State) :
    Beside s (formBlocks d k lt align minp n time vals s) := by
  unfold formBlocks
  extract_lets q x per lines gap segs cr v w r
  have hv : Beside s v := .foldl (fun s seg => formBlock_beside ..) _ s
  have hw : Beside s w := by
    unfold w
    split
    · exact hv.trans (mapDef_beside ..)
    · exact hv.trans (mapDef_beside ..)
  split
  · exact hw
  split
  · exact hw.trans (mapRegion_beside ..)
  · exact hw.trans (shedHis_beside ..)

theorem slowEmit_beside (i : Fch) (tok : LineTok) (bank : FBank) (k : Nat) (s : State) : Beside s (slowEmit i tok bank k s) := by
  unfold slowEmit
  extract_lets x due
  refine .foldl (fun s d => ?_) due s
  split
  · exact withhold_beside ..
  · exact formBlocks_beside ..

theorem streamCross_beside (i : Fch) (e : StreamCross) (s : State) : Beside s (streamCross i e s) := by
  unfold streamCross
  extract_lets is q q2 note_
  split
  · exact .refl s
  split
  · exact ((beside_of_hsc _ s).trans (mapRegion_beside ..)).trans (note_beside ..)
  · exact ((beside_of_hsc _ s).trans (mapDef_beside ..)).trans (note_beside ..)

/-! ## A chain's phase -/

/-- What of a chain decides when its points come, what waits there, and its points. -/
def phaseKey (x : FchSt) : Bool × Nat × Option Int × Int × Option Int × List SyncReq × Option SwapReq × Option Int × List LineTok × List ZPoint :=
  (x.run, x.m, x.nY, x.gate, x.implicit, x.syncs, x.swap, x.endAt, x.buf, x.zq)

/-- Chain i alone may have changed, and kept its phase. -/
structure ChainQuiet (i : Fch) (s u : State) : Prop extends Around s u where
  other : ∀ j, j ≠ i → fchOf u j = fchOf s j
  own : phaseKey (fchOf u i) = phaseKey (fchOf s i)

/-- Chain i alone may have changed; its corner-turn is as it was, and points were only added. -/
structure ChainPassed (i : Fch) (s u : State) : Prop extends Around s u where
  other : ∀ j, j ≠ i → fchOf u j = fchOf s j
  buf : (fchOf u i).buf = (fchOf s i).buf
  zq : (fchOf s i).zq <+: (fchOf u i).zq

section
variable {i : Fch} {s t u : State}

theorem ChainQuiet.refl (i : Fch) (s : State) : ChainQuiet i s s := ⟨.refl s, fun _ _ => rfl, rfl⟩

theorem ChainQuiet.trans (h : ChainQuiet i s t) (k : ChainQuiet i t u) : ChainQuiet i s u :=
  ⟨h.toAround.trans k.toAround, fun j hj => (k.other j hj).trans (h.other j hj), k.own.trans h.own⟩

theorem ChainQuiet.foldl {α : Type} {f : State → α → State} (h : ∀ s a, ChainQuiet i s (f s a)) (l : List α) (s : State) :
    ChainQuiet i s (l.foldl f s) := by
  induction l generalizing s with
  | nil => exact .refl i s
  | cons a l ih => exact (h s a).trans (ih (f s a))

theorem ChainPassed.refl (i : Fch) (s : State) : ChainPassed i s s := ⟨.refl s, fun _ _ => rfl, rfl, List.prefix_rfl⟩

theorem ChainPassed.trans (h : ChainPassed i s t) (k : ChainPassed i t u) : ChainPassed i s u :=
  ⟨h.toAround.trans k.toAround, fun j hj => (k.other j hj).trans (h.other j hj), k.buf.trans h.buf, h.zq.trans k.zq⟩

theorem ChainPassed.foldl {α : Type} {f : State → α → State} (h : ∀ s a, ChainPassed i s (f s a)) (l : List α) (s : State) :
    ChainPassed i s (l.foldl f s) := by
  induction l generalizing s with
  | nil => exact .refl i s
  | cons a l ih => exact (h s a).trans (ih (f s a))

theorem Beside.quiet (h : Beside s u) : ChainQuiet i s u := ⟨h.toAround, fun j _ => fchOf_of_fch h.fch j, by rw [fchOf_of_fch h.fch]⟩

theorem ChainQuiet.passed (h : ChainQuiet i s u) : ChainPassed i s u := by
  have hown := h.own
  unfold phaseKey at hown
  simp only [Prod.mk.injEq] at hown
  obtain ⟨-, -, -, -, -, -, -, -, hbuf, hzq⟩ := hown
  exact ⟨h.toAround, h.other, hbuf, hzq ▸ List.prefix_rfl⟩

theorem Beside.passed (h : Beside s u) : ChainPassed i s u := h.quiet.passed

end

theorem mapFch_around (i : Fch) (f : FchSt → FchSt) (s : State) : Around s (mapFch i f s) := by
  rw [mapFch_update]
  exact ⟨rfl, rfl, rfl, rfl, rfl, rfl, rfl, rfl, rfl, rfl, rfl⟩

theorem mapFch_quiet (i : Fch) (f : FchSt → FchSt) (s : State) (h : phaseKey (f (fchOf s i)) = phaseKey (fchOf s i)) : ChainQuiet i s (mapFch i f s) :=
  ⟨mapFch_around i f s, fun _ hj => fchOf_mapFch_ne f s hj, by rw [fchOf_mapFch, h]⟩

theorem mapFch_passed (i : Fch) (f : FchSt → FchSt) (s : State) (hbuf : (f (fchOf s i)).buf = (fchOf s i).buf)
    (hzq : (fchOf s i).zq <+: (f (fchOf s i)).zq) : ChainPassed i s (mapFch i f s) :=
  ⟨mapFch_around i f s, fun _ hj => fchOf_mapFch_ne f s hj, by rw [fchOf_mapFch, hbuf], by rw [fchOf_mapFch]; exact hzq⟩

/-! ## The resampler -/

theorem resEmit_quiet (i : Fch) (tok : LineTok) (bank : FBank) (kout : Nat) (align lt : Bool) (at_ : Nat → Int × Nat) (time : Nat → Int) (s : State) :
    ChainQuiet i s (resEmit i tok bank kout align lt at_ time s) := by
  have hfree : ∀ (n : Nat) (s : State), Beside s { s with free := n } := fun n s =>
    ⟨⟨rfl, rfl, rfl, rfl, rfl, rfl, rfl, rfl, rfl, rfl, rfl⟩, rfl⟩
  unfold resEmit
  extract_lets x due un v
  have hv : Beside s v := by
    refine .foldl (fun s d => ?_) due s
    split
    · exact withhold_beside ..
    · exact ((hfree _ s).trans (beside_of_ctr _ _)).trans (formBlocks_beside ..)
  exact hv.quiet.trans (mapFch_quiet i _ v rfl)

theorem resFree_quiet (i : Fch) (tok : LineTok) (bank : FBank) (u kd fuel : Nat) (s : State) : ChainQuiet i s (resFree i tok bank u kd fuel s) := by
  induction fuel generalizing s with
  | zero => exact .refl i s
  | succ fuel ih =>
    unfold resFree
    extract_lets x p base
    split
    · exact .refl i s
    split
    · exact ((resEmit_quiet ..).trans (mapFch_quiet i _ _ rfl)).trans (ih _)
    · exact .refl i s

theorem resAlign_quiet (i : Fch) (tok : LineTok) (bank : FBank) (per kd b0 fuel : Nat) (s : State) :
    ChainQuiet i s (resAlign i tok bank per kd b0 fuel s) := by
  induction fuel generalizing s with
  | zero => exact .refl i s
  | succ fuel ih =>
    unfold resAlign
    extract_lets x tk
    split
    · exact .refl i s
    split
    · exact .refl i s
    · exact ((resEmit_quiet ..).trans (mapFch_quiet i _ _ rfl)).trans (ih _)

theorem resStart_quiet (i : Fch) (kd : Nat) (s : State) : ChainQuiet i s (resStart i kd s) := by
  unfold resStart
  exact (Beside.foldl (fun s d => flagDef_beside d s) _ s).quiet.trans (mapFch_quiet i _ _ rfl)

/-- A step taken where a condition holds. -/
theorem ChainQuiet.ite {i : Fch} {s a b : State} {c : Prop} [Decidable c] (ha : ChainQuiet i s a) (hb : ChainQuiet i s b) :
    ChainQuiet i s (if c then a else b) := by
  split
  · exact ha
  · exact hb

theorem resample_quiet (i : Fch) (tok : LineTok) (bank : FBank) (kd : Nat) (bins : List Nat) (s : State) : ChainQuiet i s (resample i tok bank kd bins s) := by
  unfold resample
  split
  · exact .refl i s
  extract_lets align x from_ waits v w y per z
  have hv : ChainQuiet i s v := .ite (.refl i s) (mapFch_quiet i _ s rfl)
  have hw : ChainQuiet i s w := .ite (hv.trans (resStart_quiet i kd v)) hv
  split
  · exact hw
  split
  · have hz : ChainQuiet i w z := by
      unfold z
      split
      · split
        · exact mapFch_quiet i _ w rfl
        · exact .refl i w
      · exact .refl i w
    exact .ite ((hw.trans hz).trans (resAlign_quiet ..)) (hw.trans hz)
  · exact hw.trans (resFree_quiet ..)

/-! ## One line sample -/

theorem swapNow_passed (i : Fch) (n : Int) (r : SwapReq) (s : State) : ChainPassed i s (swapNow i n r s) :=
  ((finish_beside ..).passed.trans (mapFch_passed i _ _ rfl List.prefix_rfl)).trans (flagRestart_beside ..).passed

theorem syncNow_passed (i : Fch) (n : Int) (s : State) : ChainPassed i s (syncNow i n s) :=
  (mapFch_passed i _ s rfl List.prefix_rfl).trans (flagRestart_beside ..).passed

theorem zonePoint_passed (i : Fch) (kind : Nat) (n t : Int) (lt : Bool) (s : State) : ChainPassed i s (zonePoint i kind n t lt s) := by
  unfold zonePoint
  extract_lets v
  have hv : Beside s v := by
    unfold v
    split
    · exact .foldl (fun s d => (flagDef_beside d s).trans (endOutput_beside ..)) _ s
    · exact .refl s
  exact hv.passed.trans (mapFch_passed i _ v rfl (List.prefix_append ..))

/-- What every line sample leaves of the LT flag. -/
theorem lastLt_quiet (i : Fch) (tok : LineTok) (al : Bool) (s : State) : ChainQuiet i s (mapFch i (fun x =>
    if x.lastLt && !tok.lt then { x with lastLt := false, flip := some tok.n, rsOn := x.rsOn && !al, rsDue := x.rsDue || al }
    else { x with lastLt := tok.lt }) s) := mapFch_quiet i _ s (by split <;> rfl)

theorem lineBegin_passed (i : Fch) (tok : LineTok) (s : State) : ChainPassed i s (lineBegin i tok s) := by
  unfold lineBegin
  extract_lets g v
  have hv : ChainPassed i s v := by
    unfold v
    split
    · exact mapFch_passed i _ s rfl List.prefix_rfl
    split
    · exact mapFch_passed i _ s rfl List.prefix_rfl
    · exact .refl i s
  exact hv.trans (lastLt_quiet i tok (rsAlign v i) v).passed

theorem lineBegin_quiet {i : Fch} {tok : LineTok} (hstart : tok.start = false) (hgauge : tok.gaugeNew = false) (s : State) :
    ChainQuiet i s (lineBegin i tok s) := by
  unfold lineBegin
  rw [hstart, hgauge]
  exact lastLt_quiet i tok (rsAlign s i) s

theorem lineSync_passed (i : Fch) (tok : LineTok) (s : State) : ChainPassed i s (lineSync i tok s).2 :=
  ((mapFch_passed i _ s rfl List.prefix_rfl).trans (Beside.foldl (fun s r => syncCancel_beside i r s) _ _).passed).trans
    (Beside.foldl (fun s r => syncDone_beside i tok.n r s) _ _).passed

theorem lineSync_quiet {i : Fch} {tok : LineTok} {s : State} (hsyncs : (fchOf s i).syncs = []) (himplicit : (fchOf s i).implicit ≠ some tok.n) :
    (lineSync i tok s).1 = false ∧ ChainQuiet i s (lineSync i tok s).2 := by
  unfold lineSync
  dsimp only
  rw [hsyncs]
  refine ⟨by simpa using himplicit, ?_⟩
  simp only [List.filter_nil, List.foldl_nil]
  refine mapFch_quiet i _ s ?_
  unfold phaseKey
  rw [hsyncs]
  rfl

/-- What a decimation point adds: one entry of kind 0 with the decimated period (R97). -/
theorem decPoint_adds (i : Fch) (bank : FBank) (tok : LineTok) (s : State) : ∃ v z, ChainQuiet i v (decPoint i bank tok s)
    ∧ Around s v ∧ (∀ j, j ≠ i → fchOf v j = fchOf s j) ∧ phaseKey (fchOf v i) = phaseKey { fchOf s i with zq := (fchOf s i).zq ++ [z] }
    ∧ z.kind = 0 ∧ z.n = tok.n ∧ z.t = tok.t ∧ z.pd = ((fchOf s i).m : Int) * tok.delta := by
  unfold decPoint
  extract_lets x zs tt c live r w v
  have hw : Beside s w := (beside_of_ctr _ s).trans (beside_of_ctr _ _)
  have hx : fchOf w i = x := fchOf_of_fch hw.fch i
  refine ⟨v, { kind := 0, n := tok.n, t := tok.t, thb := tt.1 - tt.2, toff := tok.toff, lt := tok.lt, pd := (x.m : Int) * tok.delta, outs := r.2.1, offs := tok.offs },
    (resample_quiet ..).trans (slowEmit_beside ..).quiet, hw.toAround.trans (mapFch_around ..), fun j hj => ?_, ?_, rfl, rfl, rfl, rfl⟩
  · exact (fchOf_mapFch_ne _ w hj).trans (fchOf_of_fch hw.fch j)
  · show phaseKey (fchOf (mapFch i _ w) i) = _
    rw [fchOf_mapFch, hx]
    rfl

theorem decPoint_passed (i : Fch) (bank : FBank) (tok : LineTok) (s : State) : ChainPassed i s (decPoint i bank tok s) := by
  obtain ⟨v, z, hquiet, haround, hother, hown, -⟩ := decPoint_adds i bank tok s
  unfold phaseKey at hown
  simp only [Prod.mk.injEq] at hown
  obtain ⟨-, -, -, -, -, -, -, -, hbuf, hzq⟩ := hown
  exact (ChainPassed.mk haround hother hbuf (hzq ▸ List.prefix_append ..)).trans hquiet.passed

theorem chainLine_passed (i : Fch) (tok : LineTok) (s : State) : ChainPassed i s (chainLine i tok s) := by
  unfold chainLine
  extract_lets a ls b x c d y bank r slowHere e
  have ha : ChainPassed i s a := by
    refine .trans ?_ (lineBegin_passed ..)
    split
    · exact zonePoint_passed ..
    · exact .refl i s
  have hb : ChainPassed i s b := by
    have hls := ha.trans (lineSync_passed i tok a)
    unfold b
    split
    · exact hls.trans (mapFch_passed i _ _ rfl List.prefix_rfl)
    · exact hls
  have hc : ChainPassed i s c := by
    unfold c
    split
    · split
      · exact hb.trans (swapNow_passed ..)
      · exact hb
    · exact hb
  have hd : ChainPassed i s d := by
    unfold d
    split
    · exact hc.trans (syncNow_passed ..)
    · exact hc
  have he : ChainPassed i s e := (hd.trans (mapFch_passed i _ d rfl List.prefix_rfl)).trans (beside_of_ctr _ _).passed
  split
  · split
    · exact he.trans (decPoint_passed ..)
    · exact he
  · exact he

/-- A line sample of a running chain with no sync, swap or restart pending (R97). -/
structure Steady (i : Fch) (tok : LineTok) (s : State) : Prop where
  start : tok.start = false
  gaugeNew : tok.gaugeNew = false
  syncs : (fchOf s i).syncs = []
  swap : (fchOf s i).swap = none
  implicit : (fchOf s i).implicit ≠ some tok.n

theorem chainLine_steady {i : Fch} {tok : LineTok} {s : State} (h : Steady i tok s) : ∃ bank e, ChainQuiet i s e
    ∧ chainLine i tok s = match (fchOf s i).nY with
      | some ny => if (fchOf s i).gate ≤ tok.n && ny ≤ tok.n && (tok.n - ny) % ((fchOf s i).m : Int) = ((fchOf s i).m : Int) - 1 then decPoint i bank tok e else e
      | none => e := by
  have hbegin := lineBegin_quiet (i := i) h.start h.gaugeNew s
  have hbeginKey := hbegin.own
  unfold phaseKey at hbeginKey
  simp only [Prod.mk.injEq] at hbeginKey
  obtain ⟨-, -, -, -, himplicit, hsyncs, -⟩ := hbeginKey
  obtain ⟨hnosync, hsync⟩ := lineSync_quiet (i := i) (tok := tok) (s := lineBegin i tok s) (hsyncs.trans h.syncs) (himplicit ▸ h.implicit)
  have hquiet := hbegin.trans hsync
  have hkey := hquiet.own
  unfold phaseKey at hkey
  simp only [Prod.mk.injEq] at hkey
  obtain ⟨-, hm, hny, hgate, -, -, hswap, -⟩ := hkey
  unfold chainLine
  simp only [h.start, h.gaugeNew, Bool.or_false, Bool.false_eq_true, if_false, hnosync, hswap.trans h.swap, hm, hny, hgate]
  exact ⟨_, _, (hquiet.trans (mapFch_quiet i _ _ rfl)).trans (beside_of_ctr _ _).quiet, rfl⟩

/-! ## A closed block -/

/-- Of chain i alone bins were marked to restart; floors and power stand (R119). -/
structure BinsMarked (i : Fch) (s u : State) : Prop extends Around s u where
  dom : u.dom = s.dom
  other : ∀ j, j ≠ i → fchOf u j = fchOf s j
  own : ∃ b, fchOf u i = { fchOf s i with bins := b }

theorem fchSlate_marks (i : Fch) (s : State) (f : SlateFail) : BinsMarked i s (fchSlate i s f) := by
  unfold fchSlate
  extract_lets v
  have hv : Beside s v := (note_beside ..).trans (beside_of_ctr _ _)
  have hdom : v.dom = s.dom := by
    unfold v noteSlate
    rw [note_update]
    rfl
  refine ⟨hv.toAround.trans (mapFch_around ..), (mapFch_dom ..).trans hdom, fun j hj => (fchOf_mapFch_ne _ v hj).trans (fchOf_of_fch hv.fch j), ?_⟩
  rw [fchOf_mapFch, fchOf_of_fch hv.fch]
  exact ⟨_, rfl⟩

theorem fchSlates_mark (i : Fch) (l : List SlateFail) (s : State) : BinsMarked i s (l.foldl (fchSlate i) s) := by
  induction l generalizing s with
  | nil => exact ⟨.refl s, rfl, fun _ _ => rfl, _, rfl⟩
  | cons f l ih =>
    obtain ⟨h₁, hdom₁, hother₁, b₁, hown₁⟩ := fchSlate_marks i s f
    obtain ⟨h₂, hdom₂, hother₂, b₂, hown₂⟩ := ih (fchSlate i s f)
    exact ⟨h₁.trans h₂, hdom₂.trans hdom₁, fun j hj => (hother₂ j hj).trans (hother₁ j hj), b₂, by rw [List.foldl_cons, hown₂, hown₁]⟩

theorem crossLine_crosses (i : Fch) (cross : List StreamCross) (k : LineTok) (s : State) : Beside (chainLine i k s) (crossLine i cross k s) :=
  .foldl (fun s e => streamCross_beside i e s) _ _

theorem cancelWaiting_passed (i : Fch) (s : State) : ChainPassed i s (cancelWaiting i s) := by
  unfold cancelWaiting
  extract_lets x v w
  have hw : ChainPassed i s w :=
    (mapFch_passed i _ s rfl List.prefix_rfl).trans (Beside.foldl (fun s r => syncCancel_beside i r s) x.syncs v).passed
  split
  · exact hw.trans (finish_beside ..).passed
  · exact hw

theorem passEnd_passed (i : Fch) (k : LineTok) (s : State) : ChainPassed i s (passEnd i k s) := by
  unfold passEnd
  split
  · exact .refl i s
  extract_lets v
  have hv : ChainPassed i s v := by
    unfold v
    split
    · exact .refl i s
    · exact cancelWaiting_passed i s
  exact (hv.trans (mapFch_passed i _ v rfl List.prefix_rfl)).trans (zonePoint_passed ..)

/-- The state in which the lines of a closed block pass, of which no more than chain i's bins and its corner-turn changed (R95). -/
theorem closedBlock_passes {t : Int} {i : Fch} {f : List SlateFail} {cross : List StreamCross} {ks rest : List LineTok} {s : State}
    (hact : active s i.dom = true) (hcredit : henCredit s i = true) (hclosed : closedBlock (lastLineOf (fchOf s i)) [] (fchOf s i).buf = some (ks, rest)) :
    ∃ v b, Around (atTime t s) v ∧ (∀ j, j ≠ i → fchOf v j = fchOf s j) ∧ fchOf v i = { fchOf s i with bins := b, buf := rest }
      ∧ exec (.cornerTurnBlockClose t i f cross) s = match ks.getLast? with
        | some k => settle (passEnd i k (ks.foldl (fun s k => crossLine i cross k s) v))
        | none => settle (ks.foldl (fun s k => crossLine i cross k s) v) := by
  obtain ⟨haround, hdom, hother, b, hown⟩ := fchSlates_mark i f (atTime t s)
  have hexec : exec (.cornerTurnBlockClose t i f cross) s = execCornerTurnBlockClose t i f cross s := rfl
  unfold execCornerTurnBlockClose at hexec
  generalize f.foldl (fchSlate i) (atTime t s) = w at *
  have hactive : active w i.dom = true := by unfold active at hact ⊢; rw [hdom]; exact hact
  have hown' : fchOf w i = { fchOf s i with bins := b } := hown
  have hcredit' : henCredit w i = true := by unfold henCredit at hcredit ⊢; rw [hown']; exact hcredit
  dsimp only at hexec
  rw [hactive, hcredit', hown', if_neg (by decide)] at hexec
  have hclosed' : closedBlock (lastLineOf { fchOf s i with bins := b }) [] ({ fchOf s i with bins := b } : FchSt).buf = some (ks, rest) := hclosed
  rw [hclosed'] at hexec
  exact ⟨_, b, haround.trans (mapFch_around ..), fun j hj => (fchOf_mapFch_ne _ w hj).trans (hother j hj), by rw [fchOf_mapFch, hown'], hexec⟩

theorem crossLines_pass (i : Fch) (cross : List StreamCross) (ks : List LineTok) (s : State) :
    ChainPassed i s (ks.foldl (fun s k => crossLine i cross k s) s) :=
  .foldl (fun s k => (chainLine_passed i k s).trans (crossLine_crosses i cross k s).passed) ks s

/-- The points that one line sample of a steady chain gives: one at the line that completes M since the last sync, else none (R97). -/
theorem steady_point {i : Fch} {cross : List StreamCross} {k : LineTok} {s : State} {ny : Int} (h : Steady i k s) (hny : (fchOf s i).nY = some ny)
    (hle : ny ≤ k.n) (hgate : (fchOf s i).gate ≤ k.n) (hend : (fchOf s i).endAt ≠ some k.n) :
    if (k.n - ny) % ((fchOf s i).m : Int) = ((fchOf s i).m : Int) - 1 then
      ∃ z, (fchOf (passEnd i k (crossLine i cross k s)) i).zq = (fchOf s i).zq ++ [z] ∧ z.kind = 0 ∧ z.n = k.n ∧ z.t = k.t
        ∧ z.pd = ((fchOf s i).m : Int) * k.delta
    else (fchOf (passEnd i k (crossLine i cross k s)) i).zq = (fchOf s i).zq := by
  obtain ⟨bank, e, hquiet, hline⟩ := chainLine_steady h
  have hkey := hquiet.own
  unfold phaseKey at hkey
  simp only [Prod.mk.injEq] at hkey
  obtain ⟨-, hm, -, -, -, -, -, hend', -, hzq⟩ := hkey
  have hcross := fchOf_of_fch (crossLine_crosses i cross k s).fch i
  have stays : ∀ x : State, (fchOf x i).endAt = (fchOf s i).endAt → passEnd i k x = x := fun x hx => if_pos (by rw [hx]; exact bne_iff_ne.2 hend)
  rw [hny] at hline
  dsimp only at hline
  split
  next hlast =>
    rw [if_pos (by simp [hgate, hle, hlast])] at hline
    obtain ⟨v, z, hv, -, -, hown, hkind, hn, ht, hpd⟩ := decPoint_adds i bank k e
    have hown' := hv.own.trans hown
    unfold phaseKey at hown'
    simp only [Prod.mk.injEq] at hown'
    obtain ⟨-, -, -, -, -, -, -, hend₂, -, hzq₂⟩ := hown'
    rw [stays _ (by rw [hcross, hline, hend₂, hend']), hcross, hline, hzq₂, hzq]
    exact ⟨z, rfl, hkind, hn, ht, by rw [hpd, hm]⟩
  next hother =>
    rw [if_neg (by simp [hother])] at hline
    rw [stays _ (by rw [hcross, hline, hend']), hcross, hline, hzq]

/-- Settles O20. -/
theorem closedBlockPassesThroughChain : Obligations.ClosedBlockPassesThroughChain := by
  unfold Obligations.ClosedBlockPassesThroughChain
  intro t i f cross ks rest s hact hcredit hclosed
  obtain ⟨v, b, haround, hother, hown, hexec⟩ := closedBlock_passes (t := t) (f := f) (cross := cross) hact hcredit hclosed
  have hlines := crossLines_pass i cross ks v
  obtain ⟨w, hw, hexec', hlast⟩ : ∃ w, ChainPassed i v w ∧ exec (.cornerTurnBlockClose t i f cross) s = settle w
      ∧ ∀ k, ks = [k] → w = passEnd i k (crossLine i cross k v) := by
    cases hks : ks.getLast? with
    | some k =>
      rw [hks] at hexec
      exact ⟨_, hlines.trans (passEnd_passed ..), hexec, fun k' h => by subst h; cases hks; rfl⟩
    | none =>
      rw [hks] at hexec
      exact ⟨_, hlines, hexec, fun k' h => by subst h; cases hks⟩
  have hall := haround.trans hw.toAround
  have hwi : ∀ (o : List Out) (g : HreSt) (j : Fch), fchOf { w with out := w.out ++ o, hre := hreShown w.hre g } j = fchOf w j := fun o g j => fchOf_of_fch rfl j
  refine settles hexec' fun o g => ?_
  rw [hwi]
  refine ⟨hw.buf.trans (by rw [hown]), ?_, fun j hj => (hwi o g j).trans ((hw.other j hj).trans (hother j hj)), hall.stg, hall.clr, hall.sin, hall.phx, hall.hen,
    hall.sld, hall.net, hall.sec, congrArg PstSt.words hall.pst, hall.regs, hall.now, fun k ny hk hstart hgauge hrun hsyncs hswap hend himplicit hny hle hgate => ?_⟩
  · have hzq := hw.zq
    rw [hown] at hzq
    obtain ⟨l, hl⟩ := hzq
    exact ⟨l, hl.symm⟩
  · rw [hlast k hk]
    have hsteady : Steady i k v := ⟨hstart, hgauge, by rw [hown]; exact hsyncs, by rw [hown]; exact hswap, by rw [hown]; exact himplicit⟩
    have hpoint := steady_point (cross := cross) hsteady (ny := ny) (by rw [hown]; exact hny) hle (by rw [hown]; exact hgate) (by rw [hown]; exact hend)
    rw [hown] at hpoint
    exact hpoint

end Sys2Proof.Proofs
end

section
/-!
Proofs of the statements about the section ledger (R157 to R178), with what a lane's work on a head leaves as it is (R146, R149, R265, R278).
-/
namespace Sys2Proof.Proofs
open Sys2Proof.Machine Sys2Proof.Laws

/-! ## A lane's event queue and streams -/

/-- From s to u lane l put events to its queue and its streams: counters, records, the streams, a sweep and lane l's head engine may have changed. -/
structure LaneWork (l : Lane) (s u : State) : Prop where
  frame : u = { s with ctr := u.ctr, erc := { s.erc with inbox := u.erc.inbox }, net := u.net, cal := u.cal, hen := u.hen }
  other : u.hen.lane l.other = s.hen.lane l.other

theorem LaneWork.refl (l : Lane) (s : State) : LaneWork l s s := ⟨rfl, rfl⟩

theorem LaneWork.trans {l : Lane} {s t u : State} (h : LaneWork l s t) (k : LaneWork l t u) : LaneWork l s u :=
  ⟨k.frame.trans (congrArg (fun x : State => { x with ctr := u.ctr, erc := { x.erc with inbox := u.erc.inbox }, net := u.net, cal := u.cal, hen := u.hen })
    h.frame), k.other.trans h.other⟩

/-- Lane l's heads as they were. -/
structure QueueWork (l : Lane) (s u : State) : Prop extends LaneWork l s u where
  heads : (u.hen.lane l).heads = (s.hen.lane l).heads

theorem QueueWork.refl (l : Lane) (s : State) : QueueWork l s s := ⟨.refl l s, rfl⟩

theorem QueueWork.trans {l : Lane} {s t u : State} (h : QueueWork l s t) (k : QueueWork l t u) : QueueWork l s u :=
  ⟨h.toLaneWork.trans k.toLaneWork, k.heads.trans h.heads⟩

theorem QueueWork.foldl {α : Type} {l : Lane} {f : State → α → State} (h : ∀ s a, QueueWork l s (f s a)) (as : List α) (s : State) :
    QueueWork l s (as.foldl f s) := by
  induction as generalizing s with
  | nil => exact .refl l s
  | cons a as ih => exact (h s a).trans (ih (f s a))

section
variable (l : Lane) (s : State)

theorem queueWork_of_ctr (k : Tab Nat) : QueueWork l s { s with ctr := k } := ⟨⟨rfl, rfl⟩, rfl⟩

theorem queueWork_of_net (n : NetSt) : QueueWork l s { s with net := n } := ⟨⟨rfl, rfl⟩, rfl⟩

theorem noteEv_queueWork (e : EvIn) : QueueWork l s (noteEv e s) := by
  rw [noteEv_update]
  exact ⟨⟨rfl, rfl⟩, rfl⟩

theorem laneNote_update (m : Lane) (code blk : Nat) (p0 p1 p2 : Word) : ∃ i, laneNote m code blk p0 p1 p2 s = { s with erc := { s.erc with inbox := i } } := by
  unfold laneNote
  split
  · split
    · exact ⟨_, noteEv_update _ s⟩
    · exact ⟨s.erc.inbox, rfl⟩
  split
  · exact ⟨_, noteEv_update _ s⟩
  · exact ⟨s.erc.inbox, rfl⟩

theorem laneNote_queueWork (m : Lane) (code blk : Nat) (p0 p1 p2 : Word) : QueueWork l s (laneNote m code blk p0 p1 p2 s) := by
  obtain ⟨i, h⟩ := laneNote_update s m code blk p0 p1 p2
  rw [h]
  exact ⟨⟨rfl, rfl⟩, rfl⟩

theorem mapHen_queueWork (f : HenSt → HenSt) (h : (f (s.hen.lane l)).heads = (s.hen.lane l).heads) : QueueWork l s (mapHen l f s) :=
  ⟨⟨rfl, lane_setLane_other ..⟩, (congrArg HenSt.heads (lane_setLane ..)).trans h⟩

theorem queueWatch_queueWork : QueueWork l s (queueWatch l s) := by
  unfold queueWatch
  extract_lets e n o v
  have hv : QueueWork l s v := queueWork_of_ctr l s _
  split
  · exact ((hv.trans (mapHen_queueWork l v _ rfl)).trans (queueWork_of_ctr l _ _)).trans (noteEv_queueWork l _ _)
  split
  · exact hv.trans (mapHen_queueWork l v _ rfl)
  · exact hv

theorem streamEvents_queueWork (es : List HEvent) : QueueWork l s (streamEvents l es s) := by
  unfold streamEvents
  split
  · exact .refl l s
  · refine .foldl (fun s e => ?_) es s
    split
    · exact queueWork_of_net l s _
    · exact .refl l s

theorem slaveEvents_queueWork (es : List HEvent) : QueueWork l s (slaveEvents l es s) := by
  unfold slaveEvents
  split
  · exact .refl l s
  · refine .foldl (fun s e => ?_) es s
    split
    · exact queueWork_of_net l s _
    · exact .refl l s

theorem queueEvents_queueWork (out : List HEvent) : QueueWork l s (queueEvents l out s) :=
  (((mapHen_queueWork l s _ rfl).trans (queueWatch_queueWork l _)).trans (streamEvents_queueWork l _ out)).trans (slaveEvents_queueWork l _ out)

theorem sweepWork_queueWork (h : Nat) (w : HWork) : QueueWork l s (sweepWork l h w s) := by
  unfold sweepWork
  split
  · exact .refl l s
  split
  · exact .refl l s
  · exact ⟨⟨rfl, rfl⟩, rfl⟩

end

/-- Lane l's work on head h: the head is y, every other head as it was. -/
structure HeadWork (l : Lane) (h : Nat) (y : HeadSt) (s u : State) : Prop extends LaneWork l s u where
  heads : (u.hen.lane l).heads = tput none h (some y) (s.hen.lane l).heads

theorem HeadWork.own {l : Lane} {h : Nat} {y : HeadSt} {s u : State} (w : HeadWork l h y s u) : tget none h (u.hen.lane l).heads = some y := by
  rw [w.heads]
  exact tget_tput_some ..

theorem HeadWork.others {l : Lane} {h k : Nat} {y : HeadSt} {s u : State} (w : HeadWork l h y s u) (hk : k ≠ h) :
    tget none k (u.hen.lane l).heads = tget none k (s.hen.lane l).heads := by
  rw [w.heads]
  exact tget_tput_ne _ _ _ _ hk

theorem keepWork_headWork (l : Lane) (h old : Nat) (w : HWork) (s : State) : HeadWork l h w.x s (keepWork l h old w s) := by
  unfold keepWork
  extract_lets v q
  have hsweep := sweepWork_queueWork l s h w
  have hput : LaneWork l s v := hsweep.toLaneWork.trans ⟨rfl, lane_setLane_other ..⟩
  have hheads : (v.hen.lane l).heads = tput none h (some w.x) (s.hen.lane l).heads := by
    refine (congrArg HenSt.heads (lane_setLane ..)).trans ?_
    exact congrArg (tput none h (some w.x)) hsweep.heads
  have hnotes : ∀ (out : List HEvent) (a : State × Nat), QueueWork l a.1 (out.foldl (fun (a : State × Nat) e =>
      if e.ty = 7 then
        let new := e.data / 8192
        (laneNote l (if new = 4 then evHeadFailed else evHeadState) 0 (w32 h) (stateWord new a.2 (e.data / 256 % 32)) 0 a.1, new)
      else a) a).1 := by
    intro out
    induction out with
    | nil => exact fun a => .refl l a.1
    | cons e out ih =>
      intro a
      rw [List.foldl_cons]
      refine .trans ?_ (ih _)
      split
      · exact laneNote_queueWork ..
      · exact .refl l a.1
  have hrest := (queueEvents_queueWork l v w.out).trans (hnotes w.out (q, old))
  exact ⟨hput.trans hrest.toLaneWork, by rw [hrest.heads, hheads]⟩

/-- A flush of a head: its queue, and the head itself where it is enabled (R141). -/
theorem flushHead_laneWork (l : Lane) (h : Nat) (rst : Option Nat) (s : State) : LaneWork l s (flushHead l h rst s).2 := by
  unfold flushHead
  split
  · exact (queueEvents_queueWork ..).toLaneWork
  · exact (keepWork_headWork ..).toLaneWork

theorem LaneWork.sld {l : Lane} {s u : State} (h : LaneWork l s u) : u.sld = s.sld := by
  rw [h.frame]

/-! ## Sections in a lane -/

theorem putSect_kept {l : Lane} {i : Nat} {x : SectSt} (s : State) (h : x.st ≠ 0 ∨ x.cmd.isSome = true) :
    putSect l i x s = { s with sld := s.sld.setLane l { s.sld.lane l with sects := tput none i (some x) (s.sld.lane l).sects } } := by
  unfold putSect mapSld
  rw [if_neg]
  rcases h with h | h
  · rw [decide_eq_false h]; exact Bool.false_ne_true
  · rw [← Option.not_isSome, h, Bool.not_true, Bool.and_false]; exact Bool.false_ne_true

theorem putSect_other (l : Lane) (i : Nat) (x : SectSt) (s : State) : (putSect l i x s).sld.lane l.other = s.sld.lane l.other := lane_setLane_other ..

/-- What a section's work records goes to the recorder alone. -/
theorem keepSect_update (l : Lane) (i : Nat) (w : SWork) (s : State) :
    ∃ b, keepSect l i w s = { putSect l i w.x s with erc := { s.erc with inbox := b } } := by
  have hnotes : ∀ (ev : List (Nat × Word × Word × Word)) (v : State),
      ∃ b, ev.foldl (fun s e => laneNote l e.1 1 e.2.1 e.2.2.1 e.2.2.2 s) v = { v with erc := { v.erc with inbox := b } } := by
    intro ev
    induction ev with
    | nil => exact fun v => ⟨v.erc.inbox, rfl⟩
    | cons e ev ih =>
      intro v
      obtain ⟨b, hb⟩ := laneNote_update v l e.1 1 e.2.1 e.2.2.1 e.2.2.2
      obtain ⟨b', hb'⟩ := ih { v with erc := { v.erc with inbox := b } }
      exact ⟨b', by rw [List.foldl_cons, hb, hb']⟩
  exact hnotes w.ev (putSect l i w.x s)

/-! ## Section commands -/

/-- The count that a command that passes leaves (R176, R178). -/
def cmdCount (m : SCmd) (x : SectSt) : Int :=
  if m.kind = 3 then x.count else sat16 (isum ((x.net.filter (fun n => m.ref < n.round && n.round < m.re)).map (·.sum)))

/-- The state that a command that passes leaves (R176, R178). -/
def cmdState (m : SCmd) (x : SectSt) : Nat :=
  if m.kind = 0 then 4 else if cmdCount m x < 0 then 3 else if cmdCount m x > 0 || x.held then 2 else 1

theorem goto_st (c : SCtx) (new : Nat) (w : SWork) : (w.goto c new).x.st = new
    ∧ (w.goto c new).x.count = w.x.count ∧ (w.goto c new).x.doubtful = w.x.doubtful ∧ (w.goto c new).x.cmd = w.x.cmd ∧ (w.goto c new).x.net = w.x.net
    ∧ (w.goto c new).x.bounds = w.x.bounds := by
  unfold SWork.goto
  split
  next h => exact ⟨h, rfl, rfl, rfl, rfl, rfl⟩
  next h => exact ⟨rfl, rfl, rfl, rfl, rfl, rfl⟩

theorem map_blindHit_holds (bs : List BoundSt) (f : BoundSt → Bool) (hf : ∀ b, f { b with blindHit := false } = f b) :
    (bs.map (fun b => { b with blindHit := false })).any f = bs.any f := by
  rw [List.any_map]
  exact congrArg bs.any (funext hf)

theorem held_unhit {x y : SectSt} (h : y.bounds = x.bounds.map (fun b => { b with blindHit := false })) : y.held = x.held := by
  unfold SectSt.held SectSt.holds
  rw [h, map_blindHit_holds _ _ fun b => rfl, map_blindHit_holds _ _ fun b => rfl, map_blindHit_holds _ _ fun b => rfl]

theorem cmdApply_applies (c : SCtx) (m : SCmd) (x : SectSt) : ∃ y, (cmdApply c m x).x = y ∧ y.count = cmdCount m x ∧ y.st = cmdState m x
    ∧ y.doubtful = false ∧ y.cmd = x.cmd ∧ y.net = x.net ∧ y.held = x.held
    ∧ (m.kind ≠ 0 → cmdCount m x < 0 → y.cause = if m.kind = 3 then 13 else 2) := by
  unfold cmdApply
  extract_lets used count y w cause v
  have hcount : count = cmdCount m x := rfl
  have hheld : y.held = x.held := held_unhit rfl
  refine ⟨_, rfl, ?_⟩
  unfold cmdState
  rw [← hcount]
  by_cases hprep : m.kind = 0
  · rw [if_pos hprep, show v = w.goto c 4 from if_pos hprep]
    obtain ⟨hst, hc, hd, hm, hn, hb⟩ := goto_st c 4 w
    exact ⟨hc, hst, hd, hm, hn, (held_unhit hb), fun h => absurd hprep h⟩
  rw [if_neg hprep]
  by_cases hneg : count < 0
  · rw [if_pos hneg, show v = _ from (if_neg hprep).trans (if_pos hneg)]
    exact ⟨rfl, rfl, rfl, rfl, rfl, hheld, fun _ _ => rfl⟩
  · rw [if_neg hneg, show v = w.goto c (if count > 0 || x.held then 2 else 1) from (if_neg hprep).trans ((if_neg hneg).trans (by rw [hheld]))]
    obtain ⟨hst, hc, hd, hm, hn, hb⟩ := goto_st c (if count > 0 || x.held then 2 else 1) w
    refine ⟨hc, hst, hd, hm, hn, held_unhit hb, fun _ h => absurd h hneg⟩

theorem cmdState_pos (m : SCmd) (x : SectSt) : cmdState m x ≠ 0 := by
  unfold cmdState
  split
  · decide
  split
  · decide
  split <;> decide

/-- Settles O27. -/
theorem resetsSetCountFromNetLog : Obligations.ResetsSetCountFromNetLog := by
  unfold Obligations.ResetsSetCountFromNetLog
  intro l i r m s x a net
  refine ⟨fun st hfails => ?fails, fun hpass => ?passes⟩
  case fails =>
    have ha : a = ({ status := st, r0 := 0, r1 := 0 }, putSect l i { x with cmd := none } s) := by
      show cmdRun l i r m s = _
      unfold cmdRun
      dsimp only
      rw [show cmdFails m { sectCmd s l i with cmd := none } = some st from hfails]
    rw [ha]
    refine ⟨rfl, rfl, fun hst => ?_⟩
    rw [putSect_kept (x := { x with cmd := none }) s (.inl hst)]
    exact (congrArg (fun e : SldSt => tget none i e.sects) (lane_setLane ..)).trans (tget_tput_some ..)
  case passes =>
    obtain ⟨y, hy, hcount, hst, hdoubt, hcmd, hnet, hheld, hcause⟩ := cmdApply_applies (sctx s l i r) m { x with cmd := none }
    have hflush : ∀ (bs : List Nat) (v : State), (bs.foldl (fun s h => (flushHead l h (some i) s).2) v).sld = v.sld := by
      intro bs
      induction bs with
      | nil => exact fun v => rfl
      | cons h bs ih => exact fun v => (ih _).trans (flushHead_laneWork l h (some i) v).sld
    obtain ⟨b, hkeep⟩ := keepSect_update l i (cmdApply (sctx s l i r) m { x with cmd := none }) s
    have ha : a.1 = { status := stApplied, r0 := y.form false, r1 := w32 ((m.re - 2) % 4294967296) } ∧ a.2.sld = (putSect l i y s).sld := by
      show (cmdRun l i r m s).1 = _ ∧ (cmdRun l i r m s).2.sld = _
      unfold cmdRun
      dsimp only
      rw [show cmdFails m { sectCmd s l i with cmd := none } = none from hpass]
      dsimp only
      refine ⟨by rw [← hy], ?_⟩
      split
      · rw [show ({ sectCmd s l i with cmd := none } : SectSt) = { x with cmd := none } from rfl, hkeep, hy]
      · rw [hflush, show ({ sectCmd s l i with cmd := none } : SectSt) = { x with cmd := none } from rfl, hkeep, hy]
    obtain ⟨hres, hsld⟩ := ha
    have hpos : y.st ≠ 0 := by rw [hst]; exact cmdState_pos _ _
    rw [hres, hsld]
    refine ⟨rfl, rfl, putSect_other l i y s, y, ?_, rfl, hdoubt, hcmd, hnet, hcount, fun hkind => ?_, fun hkind hneg => ⟨?_, ?_⟩, fun hkind hge => ?_⟩
    · rw [putSect_kept s (.inl hpos)]
      exact (congrArg (fun e : SldSt => tget none i e.sects) (lane_setLane ..)).trans (tget_tput_some ..)
    · rw [hst]; exact if_pos hkind
    · rw [hcount] at hneg
      rw [hst]; exact (if_neg hkind).trans (if_pos hneg)
    · exact hcause hkind (hcount ▸ hneg)
    · rw [hst, hcount, hheld]
      rw [hcount] at hge
      exact (if_neg hkind).trans (if_neg (by omega))

/-! ## Section commands wait -/

theorem SameBanks.sections {s x : State} (h : SameBanks s x) : sections x = sections s := by
  unfold Machine.sections sectionsIn
  rw [h.active]
  simp only [h.listed]

section
variable {c : HostCmd} {s x : State} (h : Examined c s x)
include h

theorem Examined.sectCmd (l : Lane) (n : Nat) : sectCmd x l n = Machine.sectCmd (atTime c.t s) l n := by
  have hbanks : SameBanks (atTime c.t s) x := ⟨h.banks.active, h.banks.word, h.banks.listed⟩
  obtain ⟨hnow, hsld, hregs⟩ : x.now = c.t ∧ x.sld = s.sld ∧ x.regs = s.regs := by
    obtain ⟨_, _, _, _, _, hx⟩ := h.update
    rw [hx]; exact ⟨rfl, rfl, rfl⟩
  have hhor : horizon x l = horizon (atTime c.t s) l := by
    unfold horizon laneRegF laneReg
    rw [h.reg, hregs]
    rfl
  unfold Machine.sectCmd sectOf
  rw [hbanks.sections, hsld, hnow, hhor]
  rfl

theorem Examined.laneTakes (l : Lane) : laneTakes x l = Machine.laneTakes s l := by
  obtain ⟨_, _, _, _, _, hx⟩ := h.update
  rw [hx]; rfl

theorem Examined.curRound : curRound x = Machine.curRound (atTime c.t s) := by
  have hnow : x.now = c.t := by
    obtain ⟨_, _, _, _, _, hx⟩ := h.update
    rw [hx]
  unfold Machine.curRound roundNs
  rw [h.regF, hnow]
  rfl

end

/-- A section command put to every lane that takes it. -/
theorem sectionWaits {c : HostCmd} (hcross : c.cross = []) (n : Nat) (m : SCmd) (v : State) :
    ∃ S, bothLanes.foldl (fun s l => if takesCmd c s l then putSect l n { sectCmd s l n with cmd := some m } s else s) v = { v with sld := S }
      ∧ ∀ l, (laneTakes v l = true → S.lane l = { v.sld.lane l with sects := tput none n (some { sectCmd v l n with cmd := some m }) (v.sld.lane l).sects })
        ∧ (laneTakes v l = false → S.lane l = v.sld.lane l) := by
  have htakes : ∀ s l, takesCmd c s l = laneTakes s l := fun s l => by unfold takesCmd; rw [hcross]; exact Bool.and_true _
  have hone : ∀ (l : Lane) (s : State), ∃ e, (if takesCmd c s l then putSect l n { sectCmd s l n with cmd := some m } s else s)
        = { s with sld := s.sld.setLane l e }
      ∧ (laneTakes s l = true → e = { s.sld.lane l with sects := tput none n (some { sectCmd s l n with cmd := some m }) (s.sld.lane l).sects })
      ∧ (laneTakes s l = false → e = s.sld.lane l) := fun l s => by
    rw [htakes]
    cases hl : laneTakes s l with
    | true => exact ⟨_, putSect_kept s (.inr rfl), fun _ => rfl, fun h => absurd h (by decide)⟩
    | false => exact ⟨s.sld.lane l, by rw [setLane_lane]; rfl, fun h => absurd h (by decide), fun _ => rfl⟩
  obtain ⟨e, he, hon, hoff⟩ := hone .x v
  obtain ⟨e', he', hon', hoff'⟩ := hone .y { v with sld := v.sld.setLane .x e }
  refine ⟨(v.sld.setLane .x e).setLane .y e', (congrArg (fun s => if takesCmd c s .y then putSect .y n { sectCmd s .y n with cmd := some m } s else s) he).trans he',
    fun l => ?_⟩
  match l with
  | .x => exact ⟨hon, hoff⟩
  | .y => exact ⟨hon', hoff'⟩

theorem effSection_waits {op kind : Nat} {c : HostCmd} {s x : State} {i : Instr} (hx : Taken op c s x) (hexec : exec i s = hostCommand op (effSection kind op) c s)
    (hcross : c.cross = []) :
    let n := fld c.a0 11 0
    let b := atTime c.t s
    let busy := bothLanes.any (fun l => laneTakes b l && (sectCmd b l n).cmd.isSome)
    (busy = true → ∃ u, exec i s = .next u ∧ Completed op c stRefusedBusy 0 0 s u ∧ u = { commanded s u with now := c.t })
    ∧ (busy = false → ∃ u, exec i s = .next u ∧ Accepted op c s u ∧ u = { commanded s u with now := c.t, sld := u.sld }
      ∧ (∀ l, laneTakes b l = true → (u.sld.lane l) = { s.sld.lane l with sects := tput none n (some { sectCmd b l n with cmd := some { id := s.hre.nextId + 1, kind := kind, ref := argA12 c, re := curRound b + 2 } }) (s.sld.lane l).sects })
      ∧ (∀ l, laneTakes b l = false → u.sld.lane l = s.sld.lane l)) := by
  intro _ b busy
  have hbusy : bothLanes.any (fun l => laneTakes x l && (sectCmd x l (fld c.a0 11 0)).cmd.isSome) = busy := by
    simp only [hx.sectCmd, hx.laneTakes]
    rfl
  obtain ⟨hid, hsld⟩ : newId x = s.hre.nextId + 1 ∧ x.sld = s.sld := by
    obtain ⟨_, _, _, _, _, hu⟩ := hx.update
    rw [hu]; exact ⟨rfl, rfl⟩
  rw [hexec]
  refine ⟨fun h => hx.refuses (if_pos (hbusy.trans h)), fun h => ?_⟩
  obtain ⟨S, hS, hlanes⟩ := sectionWaits hcross (fld c.a0 11 0) { id := s.hre.nextId + 1, kind := kind, ref := argA12 c, re := curRound b + 2 } (accept c op x)
  have heff : effSection kind op c x = { accept c op x with sld := S } := by
    refine (if_neg (by rw [hbusy, h]; decide)).trans ?_
    rw [hid, hx.curRound]
    unfold crossFails
    rw [hcross]
    exact hS
  have hsect : ∀ l, sectCmd (accept c op x) l (fld c.a0 11 0) = sectCmd b l (fld c.a0 11 0) := fun l => hx.sectCmd l (fld c.a0 11 0)
  have htakes : ∀ l, laneTakes (accept c op x) l = laneTakes b l := fun l => hx.laneTakes l
  simp only [hsect, htakes] at hlanes
  refine hx.accepts heff rfl fun o g => ⟨?_, fun l hl => ?_, fun l hl => ?_⟩
  · obtain ⟨_, _, _, _, _, hu⟩ := hx.update
    have hq := hx.reserve
    subst hu
    exact with_reserve _ hq
  · rw [← hsld]; exact (hlanes l).1 hl
  · rw [← hsld]; exact (hlanes l).2 hl

/-- Settles O26. -/
theorem sectionCommandsWaitTwoRounds : Obligations.SectionCommandsWaitTwoRounds := by
  unfold Obligations.SectionCommandsWaitTwoRounds
  intro c s i op kind hmem hpass hcross
  obtain ⟨x, hx, -⟩ := taken_of_passes hpass
  simp only [List.mem_cons, Prod.mk.injEq, List.not_mem_nil, or_false] at hmem
  rcases hmem with ⟨rfl, rfl, rfl⟩ | ⟨rfl, rfl, rfl⟩ | ⟨rfl, rfl, rfl⟩ | ⟨rfl, rfl, rfl⟩ <;>
    exact effSection_waits hx rfl hcross

/-! ## Items -/

/-- From s to u lane l's sections in service gained items and nothing that counts; the other lane's ledger stands. -/
structure ItemsAdded (l : Lane) (s u : State) : Prop where
  frame : u = { s with ctr := u.ctr, erc := { s.erc with inbox := u.erc.inbox }, sld := u.sld }
  other : u.sld.lane l.other = s.sld.lane l.other
  sects : ∀ n x, tget none n (s.sld.lane l).sects = some x → x.st ≠ 0 →
    ∃ y, tget none n (u.sld.lane l).sects = some y ∧ x.items <+: y.items ∧ y.count = x.count ∧ y.st = x.st ∧ y.cause = x.cause
      ∧ y.net = x.net ∧ y.doubtful = x.doubtful

section
variable {l : Lane} {s t u : State}

theorem ItemsAdded.of_sld (hframe : u = { s with ctr := u.ctr, erc := { s.erc with inbox := u.erc.inbox }, sld := u.sld })
    (h : u.sld.lane l.other = s.sld.lane l.other) (hs : (u.sld.lane l).sects = (s.sld.lane l).sects) : ItemsAdded l s u :=
  ⟨hframe, h, fun _ x hx _ => ⟨x, hs ▸ hx, List.prefix_rfl, rfl, rfl, rfl, rfl, rfl⟩⟩

theorem ItemsAdded.refl (l : Lane) (s : State) : ItemsAdded l s s := .of_sld rfl rfl rfl

theorem ItemsAdded.trans (h : ItemsAdded l s t) (k : ItemsAdded l t u) : ItemsAdded l s u := by
  refine ⟨k.frame.trans (congrArg (fun x : State => { x with ctr := u.ctr, erc := { x.erc with inbox := u.erc.inbox }, sld := u.sld }) h.frame),
    k.other.trans h.other, fun n x hx hst => ?_⟩
  obtain ⟨y, hy, hpre, hcount, hst', hcause, hnet, hdoubt⟩ := h.sects n x hx hst
  obtain ⟨z, hz, hpre', hcount', hst'', hcause', hnet', hdoubt'⟩ := k.sects n y hy (hst' ▸ hst)
  exact ⟨z, hz, hpre.trans hpre', hcount'.trans hcount, hst''.trans hst', hcause'.trans hcause, hnet'.trans hnet, hdoubt'.trans hdoubt⟩

theorem ItemsAdded.foldl {α : Type} {f : State → α → State} (h : ∀ s a, ItemsAdded l s (f s a)) (as : List α) (s : State) : ItemsAdded l s (as.foldl f s) := by
  induction as generalizing s with
  | nil => exact .refl l s
  | cons a as ih => exact (h s a).trans (ih (f s a))

end

theorem addItem_adds (l : Lane) (i : Nat) (r : SectRec) (bi : Nat) (b : Bound) (cover : Bool) (it : HItem) (s : State) :
    ItemsAdded l s (addItem l i r bi b cover it s) := by
  unfold addItem
  extract_lets c x k kl late ord y z w v
  have hz : x.items <+: z.items ∧ z.count = x.count ∧ z.st = x.st ∧ z.cause = x.cause ∧ z.net = x.net ∧ z.doubtful = x.doubtful := by
    unfold z
    split <;> exact ⟨List.prefix_append .., rfl, rfl, rfl, rfl, rfl⟩
  have hv : x.items <+: v.x.items ∧ v.x.count = x.count ∧ v.x.st = x.st ∧ v.x.cause = x.cause ∧ v.x.net = x.net ∧ v.x.doubtful = x.doubtful := by
    unfold v
    split <;> exact hz
  obtain ⟨bx, hkeep⟩ := keepSect_update l i v s
  rw [hkeep]
  refine ⟨rfl, putSect_other l i v.x s, fun n x' hx' hst => ?_⟩
  by_cases hn : n = i
  · subst hn
    have hxx : x = x' := by
      show (tget none n (s.sld.lane l).sects).getD _ = x'
      rw [hx']; rfl
    rw [hxx] at hv
    obtain ⟨hpre, hcount, hst', hrest⟩ := hv
    refine ⟨v.x, ?_, hpre, hcount, hst', hrest⟩
    rw [putSect_kept s (.inl (hst' ▸ hst))]
    exact (congrArg (fun e : SldSt => tget none n e.sects) (lane_setLane ..)).trans (tget_tput_some ..)
  · refine ⟨x', ?_, List.prefix_rfl, rfl, rfl, rfl, rfl, rfl⟩
    refine (congrArg (fun e : SldSt => tget none n e.sects) (lane_setLane ..)).trans ?_
    exact (tget_tput_ne _ _ _ _ hn).trans hx'

theorem giveItem_adds (l : Lane) (kind n : Nat) (it : HItem) (s : State) : ItemsAdded l s (giveItem l kind n it s) := by
  have hbounds : ∀ (e : Nat × SectRec) (bs : List Bound) (a : Nat × State), ItemsAdded l a.2 (bs.foldl (fun (a : Nat × State) b =>
      let s := a.2
      let s := if b.leadKind = kind && b.lead = n then addItem l e.1 e.2 a.1 b false it s else s
      let s := if b.coverKind = kind && b.cover = n then addItem l e.1 e.2 a.1 b true it s else s
      (a.1 + 1, s)) a).2 := by
    intro e bs
    induction bs with
    | nil => exact fun a => .refl l a.2
    | cons b bs ih =>
      intro a
      rw [List.foldl_cons]
      refine .trans ?_ (ih _)
      dsimp only
      have hone : ∀ (c : Bool) (cv : Bool) (s : State), ItemsAdded l s (if c then addItem l e.1 e.2 a.1 b cv it s else s) := fun c cv s => by
        split
        · exact addItem_adds ..
        · exact .refl l s
      exact (hone _ false a.2).trans (hone _ true _)
  unfold giveItem
  extract_lets v
  have hv : ItemsAdded l s v := .foldl (fun s e => hbounds e (bounds s e.1) (0, s)) (sections s) s
  exact hv.trans (.of_sld rfl (lane_setLane_other ..) ((congrArg SldSt.sects (lane_setLane ..)).trans rfl))

theorem takeItem_adds (l : Lane) (it : HItem) (s : State) : ItemsAdded l s (takeItem l it s) := by
  have hctr : ∀ (k : Tab Nat) (s : State), ItemsAdded l s { s with ctr := k } := fun k s => .of_sld rfl rfl rfl
  unfold takeItem
  extract_lets itb v
  refine .trans (?_ : ItemsAdded l s v) (hctr _ v)
  unfold v
  split
  · exact giveItem_adds ..
  split
  · exact giveItem_adds ..
  · exact hctr _ s

/-- A lane that takes no tokens, or whose store has no room, takes nothing (R165). -/
theorem ledgerItemTake_none {t : Int} {l : Lane} {src : ItemSource} {it : HItem} {r : List HItem} {s : State}
    (hnot : ¬ (laneTakes s l = true ∧ storeRoom s l it = true)) (hhen : src = .hen → (s.hen.lane l).queue = it :: r) (hrct : src = .rct → s.rctq.lane l = it :: r) :
    exec (.ledgerItemTake t l src) s = settle (atTime t s) := by
  rw [show exec (.ledgerItemTake t l src) s = execLedgerItemTake t l src s from rfl]
  unfold execLedgerItemTake
  dsimp only
  by_cases htakes : laneTakes s l = true
  · have hfull : ¬ storeRoom (atTime t s) l it = true := fun h => hnot ⟨htakes, h⟩
    rw [if_neg (by rw [show laneTakes (atTime t s) l = true from htakes]; decide)]
    match src with
    | .hen =>
      dsimp only
      rw [show ((atTime t s).hen.lane l).queue = it :: r from hhen rfl]
      exact if_neg hfull
    | .rct =>
      dsimp only
      rw [show (atTime t s).rctq.lane l = it :: r from hrct rfl]
      exact if_neg hfull
  · exact if_pos (by rw [show laneTakes (atTime t s) l = false from Bool.eq_false_iff.2 htakes]; decide)

theorem ledgerItemTake_hen {t : Int} {l : Lane} {it : HItem} {r : List HItem} {s : State} (htakes : laneTakes s l = true) (hroom : storeRoom s l it = true)
    (hq : (s.hen.lane l).queue = it :: r) :
    exec (.ledgerItemTake t l .hen) s = settle (queueWatch l (takeItem l it (mapHen l (fun e => { e with queue := r }) (atTime t s)))) := by
  rw [show exec (.ledgerItemTake t l .hen) s = execLedgerItemTake t l .hen s from rfl]
  unfold execLedgerItemTake
  dsimp only
  rw [if_neg (by rw [show laneTakes (atTime t s) l = true from htakes]; decide), show ((atTime t s).hen.lane l).queue = it :: r from hq]
  exact if_pos hroom

theorem ledgerItemTake_rct {t : Int} {l : Lane} {it : HItem} {r : List HItem} {s : State} (htakes : laneTakes s l = true) (hroom : storeRoom s l it = true)
    (hq : s.rctq.lane l = it :: r) :
    exec (.ledgerItemTake t l .rct) s = settle (takeItem l it { atTime t s with rctq := s.rctq.setLane l r }) := by
  rw [show exec (.ledgerItemTake t l .rct) s = execLedgerItemTake t l .rct s from rfl]
  unfold execLedgerItemTake
  dsimp only
  rw [if_neg (by rw [show laneTakes (atTime t s) l = true from htakes]; decide), show (atTime t s).rctq.lane l = it :: r from hq]
  exact if_pos hroom

/-- The highest fill and the BURST episode change nothing but counters, the recorder's inbox and the lane's own BURST flag (R149). -/
theorem queueWatch_update (l : Lane) (s : State) : ∃ k b i, queueWatch l s =
    { s with ctr := k, erc := { s.erc with inbox := i }, hen := s.hen.setLane l { s.hen.lane l with burst := b } } := by
  unfold queueWatch
  extract_lets e n o v
  split
  · exact ⟨_, true, _, noteEv_update _ _⟩
  split
  · exact ⟨v.ctr, false, s.erc.inbox, rfl⟩
  · refine ⟨v.ctr, (s.hen.lane l).burst, s.erc.inbox, ?_⟩
    rw [show ({ s.hen.lane l with burst := (s.hen.lane l).burst } : HenSt) = s.hen.lane l from rfl, setLane_lane]
    rfl

/-- Settles O25. -/
theorem itemsWaitForTheTick : Obligations.ItemsWaitForTheTick := by
  unfold Obligations.ItemsWaitForTheTick
  intro t l it r s kept room
  refine ⟨fun hroom hq => ?hen, fun hroom hq => ?rct, fun hnot src hhen hrct => ?full⟩
  case hen =>
    have hexec := ledgerItemTake_hen (t := t) hroom.1 hroom.2 hq
    have hadd := takeItem_adds l it (mapHen l (fun e => { e with queue := r }) (atTime t s))
    generalize takeItem l it (mapHen l (fun e => { e with queue := r }) (atTime t s)) = v at hadd hexec
    obtain ⟨k, b, i, hwatch⟩ := queueWatch_update l v
    have hhen : v.hen = s.hen.setLane l { s.hen.lane l with queue := r } := by rw [hadd.frame]; rfl
    refine settles (hexec.trans (congrArg settle hwatch)) fun o g => ⟨⟨hadd.other, hadd.sects⟩, ?_, ?_, ?_, ?_⟩
    · exact (congrArg HenSt.queue (lane_setLane ..)).trans (by rw [hhen, lane_setLane])
    · exact (congrArg HenSt.heads (lane_setLane ..)).trans (by rw [hhen, lane_setLane])
    · exact (lane_setLane_other ..).trans (by rw [hhen, lane_setLane_other])
    · rw [hadd.frame]; rfl
  case rct =>
    have hexec := ledgerItemTake_rct (t := t) hroom.1 hroom.2 hq
    have hadd := takeItem_adds l it { atTime t s with rctq := s.rctq.setLane l r }
    generalize takeItem l it { atTime t s with rctq := s.rctq.setLane l r } = v at hadd hexec
    refine settles hexec fun o g => ⟨⟨hadd.other, hadd.sects⟩, ?_⟩
    rw [hadd.frame]; rfl
  case full => exact settles (ledgerItemTake_none hnot hhen hrct) fun o g => rfl

end Sys2Proof.Proofs
end

section
/-!
Proof of the statement about the heads' peak lists (R127 to R151): no step of the matcher lets a list pass 32 entries, a decimation point works on the heads of
the lanes that take tokens, and a flush empties its head.
-/
namespace Sys2Proof.Proofs
open Sys2Proof.Machine Sys2Proof.Laws

/-! ## The length of a list -/

/-- The number of entries of the head that a lane works on. -/
def listLen (w : HWork) : Nat := w.x.list.length

section
variable (r : HeadRec) (p : Profile) (h : Nat) (w : HWork)

theorem goto_listLen (new cause : Nat) (t : Int) (data : Option Nat) : listLen (w.goto r p h new cause t data) ≤ listLen w := by
  unfold HWork.goto
  extract_lets old flushed opened _ _ _ v _ _ v' _ x y
  have hopened : listLen opened ≤ listLen w := by
    unfold opened
    split <;> exact Nat.zero_le _
  have hv : listLen v ≤ listLen w := by
    unfold v
    split
    · exact hopened
    · exact Nat.le_refl _
  have hv' : listLen v' ≤ listLen w := by
    unfold v'
    split <;> exact hv
  have hy : y.list.length ≤ listLen w := by
    unfold y
    split
    · exact hv'
    split <;> exact hv'
  exact hy

theorem immediate_listLen (cause : Nat) (t : Int) : listLen (immediate r p h cause t w) ≤ listLen w := by
  unfold immediate
  extract_lets _ v
  split
  · exact goto_listLen r p h v ..
  · exact Nat.le_refl _

theorem appendPeak_listLen (z : Nat) (pk : Peak) (hw : listLen w ≤ 32) : listLen (appendPeak r p h z pk w) ≤ 32 := by
  unfold appendPeak
  split
  · exact (immediate_listLen ..).trans hw
  next hroom =>
    have hlt : w.x.list.length < 32 := by omega
    dsimp only [listLen]
    split
    · rw [List.length_cons]; exact hlt
    · rw [List.length_append]; exact hlt

theorem dropEnd_length (z : Nat) (l : List Entry) : (dropEnd z l).length ≤ l.length := by
  unfold dropEnd
  split
  · rw [List.length_drop]; exact Nat.sub_le ..
  · rw [List.length_dropLast]; exact Nat.sub_le ..

theorem applyPeak_listLen (tm : Int × Int × Int) (z : Nat) (pk : Peak) (hw : listLen w ≤ 32) : listLen (applyPeak r p h tm z pk w) ≤ 32 := by
  unfold applyPeak
  extract_lets v toward e _ off
  have hoff : listLen off ≤ 32 := (dropEnd_length z w.x.list).trans hw
  have happend : listLen (appendPeak r p h z pk v) ≤ 32 := appendPeak_listLen r p h v z pk hw
  clear_value e
  split
  · split
    · split
      · exact hoff
      · exact happend
    · exact happend
  split
  · exact happend
  split
  · split
    · exact hoff
    · exact hoff
  · exact (immediate_listLen ..).trans hw

theorem applyRes_listLen (tm : Int × Int × Int) (z : Nat) (t : Int) (wasOuter : Bool) (res : ZRes) (hw : listLen w ≤ 32) :
    listLen (applyRes r p h tm z t wasOuter res w) ≤ 32 := by
  unfold applyRes
  extract_lets zs zo
  match res with
  | .nothing => exact hw
  | .began v => exact hw
  | .glitch => exact hw
  | .peak pk => exact applyPeak_listLen r p h w tm z pk hw
  | .run a pk =>
    dsimp only
    split
    · exact applyPeak_listLen r p h w tm z _ hw
    · dsimp only [listLen]
      split <;> exact hw
    · exact hw
  | .stuck t0 lt0 =>
    dsimp only
    refine (immediate_listLen ..).trans ?_
    split <;> exact hw

theorem blindStep_listLen (t : Int) (blind : Bool) : listLen (blindStep r p h t blind w) = listLen w := by
  unfold blindStep
  split
  · dsimp only
    split <;> rfl
  split <;> rfl

theorem failWindow_listLen (cause : Nat) (t : Int) : listLen (failWindow r p h cause t w) ≤ listLen w := goto_listLen ..

theorem windowEnd_listLen (runs lost : Bool) (t : Int) : listLen (windowEnd r p h runs lost t w) ≤ listLen w := by
  unfold windowEnd
  split
  · exact Nat.le_refl _
  extract_lets x allBlind bad y y' v v₁ _ faulty _ clean
  have hv : listLen v = listLen w := by
    dsimp only [listLen]
    unfold v y'
    split <;> rfl
  have hv₁ : listLen v₁ ≤ listLen w := by
    unfold v₁
    split
    · exact (goto_listLen ..).trans hv.le
    · exact hv.le
  split
  · split
    · exact (goto_listLen ..).trans hv.le
    · exact hv.le
  split
  · exact (failWindow_listLen ..).trans hv.le
  split
  · split
    · split
      · exact (failWindow_listLen ..).trans hv₁
      · exact hv₁
    · exact hv₁
  split
  · split
    · exact (goto_listLen ..).trans hv.le
    · exact hv.le
  · exact hv.le

theorem warmStep_listLen (blind : Bool) (t : Int) : listLen (warmStep r p h blind t w) ≤ listLen w := by
  unfold warmStep
  split
  · extract_lets n v
    split
    · exact goto_listLen ..
    · exact Nat.le_refl _
  · exact Nat.le_refl _

end

theorem headSample_listLen (r : HeadRec) (p : Profile) (h : Nat) (c : HCtx) (x : HeadSt) (hx : x.list.length ≤ 32) :
    listLen (headSample r p h c x) ≤ 32 := by
  unfold headSample
  extract_lets legacy t blind y _ failed left _ seeded seed z w₀ o1 o2 s1 s2 _ w₁ w₂ w₃ w₄ nOver _
  have hw₂ : listLen w₂ ≤ 32 := by
    refine applyRes_listLen _ _ _ _ _ _ _ _ _ (applyRes_listLen _ _ _ _ _ _ _ _ _ ?_)
    refine (blindStep_listLen ..).le.trans ?_
    dsimp only [listLen]
    unfold z seed
    split
    · split <;> exact hx
    · exact hx
  split
  · split
    · exact (blindStep_listLen ..).le.trans ((goto_listLen ..).trans hx)
    · exact (windowEnd_listLen ..).trans hx
  · exact (windowEnd_listLen ..).trans ((warmStep_listLen ..).trans hw₂)

/-! ## Lanes at work -/

/-- No head of lane l holds more peaks than its list has entries. -/
def LaneBounded (l : Lane) (s : State) : Prop := ∀ e ∈ (s.hen.lane l).heads, ∀ x, e.2 = some x → x.list.length ≤ 32

/-- Lane l worked on heads, none of whose lists passed its bound. -/
structure HeadsOf (l : Lane) (s u : State) : Prop extends LaneWork l s u where
  bounded : LaneBounded l s → LaneBounded l u

section
variable {l : Lane} {s t u : State}

theorem HeadsOf.refl (l : Lane) (s : State) : HeadsOf l s s := ⟨.refl l s, id⟩

theorem HeadsOf.trans (h : HeadsOf l s t) (k : HeadsOf l t u) : HeadsOf l s u := ⟨h.toLaneWork.trans k.toLaneWork, k.bounded ∘ h.bounded⟩

theorem QueueWork.headsOf (h : QueueWork l s u) : HeadsOf l s u := by
  refine ⟨h.toLaneWork, fun hb => ?_⟩
  unfold LaneBounded
  rw [h.heads]
  exact hb

/-- One head's work after another. -/
theorem HeadsOf.foldl {α : Type} {f : State → α → State} (h : ∀ s a, HeadsOf l s (f s a)) (as : List α) (s : State) : HeadsOf l s (as.foldl f s) := by
  induction as generalizing s with
  | nil => exact .refl l s
  | cons a as ih => exact (h s a).trans (ih (f s a))

end

theorem mem_of_tget {β : Type} {k : Nat} {b : β} {t : Tab (Option β)} (h : tget none k t = some b) : (k, some b) ∈ t := by
  induction t with
  | nil => cases h
  | cons e t ih =>
    obtain ⟨j, a⟩ := e
    unfold tget at h
    split at h
    next hj => rw [← hj, ← h]; exact List.mem_cons_self
    next => exact List.mem_cons_of_mem _ (ih h)

theorem headOf_list (s : State) (l : Lane) (h : Nat) (p : Profile) :
    (headOf s l h p).list = (((tget none h (s.hen.lane l).heads).map (·.list)).getD []) := by
  unfold headOf
  dsimp only
  cases tget none h (s.hen.lane l).heads with
  | none => split <;> rfl
  | some x => dsimp only [Option.getD_some]; split <;> rfl

theorem headOf_bounded {s : State} {l : Lane} (hb : LaneBounded l s) (h : Nat) (p : Profile) : (headOf s l h p).list.length ≤ 32 := by
  rw [headOf_list]
  cases hx : tget none h (s.hen.lane l).heads with
  | none => exact Nat.zero_le _
  | some x => exact hb _ (mem_of_tget hx) x rfl

theorem keepWork_headsOf {l : Lane} {h : Nat} {w : HWork} {s : State} (old : Nat) (hw : LaneBounded l s → listLen w ≤ 32) :
    HeadsOf l s (keepWork l h old w s) := by
  have hwork := keepWork_headWork l h old w s
  refine ⟨hwork.toLaneWork, fun hb e he x hx => ?_⟩
  rw [hwork.heads] at he
  unfold tput at he
  rw [if_neg (by simp)] at he
  rcases mem_tins he with rfl | he
  · cases hx; exact hw hb
  · exact hb e he x hx

theorem goto_bounded {r : HeadRec} {p p' : Profile} {h new cause : Nat} {t : Int} {data : Option Nat} {l : Lane} {s : State} (hb : LaneBounded l s) :
    listLen (HWork.goto r p h new cause t data { x := headOf s l h p', out := [] }) ≤ 32 :=
  (goto_listLen ..).trans (headOf_bounded hb h p')

theorem setSeg_headsOf (l : Lane) (p : Nat) (v : Option Segment) (s : State) : HeadsOf l s (setSeg l p v s) := (mapHen_queueWork l s _ rfl).headsOf

theorem retireSegment_headsOf (l : Lane) (p bk : Nat) (z : ZPoint) (hs : List (Nat × HeadRec)) (s : State) : HeadsOf l s (retireSegment l p bk z hs s) := by
  unfold retireSegment
  refine ((setSeg_headsOf l p _ s).trans (laneNote_queueWork l _ ..).headsOf).trans (.foldl (fun s e => ?_) _ _)
  extract_lets pr x t
  split
  · exact .refl l s
  · exact keepWork_headsOf _ fun hb => goto_bounded hb

theorem guard_headsOf (l : Lane) (p : Nat) (z : ZPoint) (hs : List (Nat × HeadRec)) (conv any : Bool) (s : State) : HeadsOf l s (Machine.guard l p z hs conv any s) := by
  unfold Machine.guard
  extract_lets en bk cur extend
  split
  · exact retireSegment_headsOf ..
  clear_value cur
  split
  · exact .refl l s
  extract_lets bad n
  split
  · exact (setSeg_headsOf l p _ s).trans (laneNote_queueWork l _ ..).headsOf
  · exact setSeg_headsOf ..

theorem lanePoint_headsOf (l : Lane) (i : Fch) (z : ZPoint) (conv any : Bool) (s : State) : HeadsOf l s (lanePoint l i z conv any s) := by
  unfold lanePoint
  extract_lets hs v runs
  have hv : HeadsOf l s v := by
    unfold v
    split
    · exact .refl l s
    · exact guard_headsOf ..
  refine hv.trans (.foldl (fun s e => ?_) hs v)
  extract_lets pr x c
  exact keepWork_headsOf _ fun hb => headSample_listLen _ _ _ _ _ (headOf_bounded hb e.1 pr)

/-- The state s with what the lanes' work on heads may change taken from u. -/
def workedOn (s u : State) : State :=
  { s with ctr := u.ctr, erc := { s.erc with inbox := u.erc.inbox }, net := u.net, cal := u.cal, hen := u.hen, lcm := { s.lcm with sig := u.lcm.sig, sigRef := u.lcm.sigRef } }

/-- What the lanes' work on heads leaves: heads of a lane that takes no tokens as they were, no list past its bound, a lane's two signatures alike where they
were. -/
structure LanesWorked (s u : State) : Prop where
  frame : u = workedOn s u
  idle : ∀ l, laneTakes s l = false → (u.hen.lane l).heads = (s.hen.lane l).heads
  bounded : PeakListsBounded s → PeakListsBounded u
  sign : (∀ l, s.lcm.sig.lane l = s.lcm.sigRef.lane l) → ∀ l, u.lcm.sig.lane l = u.lcm.sigRef.lane l

section
variable {l : Lane} {s t u : State}

theorem LanesWorked.refl (s : State) : LanesWorked s s := ⟨rfl, fun _ _ => rfl, id, id⟩

theorem LanesWorked.laneTakes (h : LanesWorked s u) (l : Lane) : laneTakes u l = Machine.laneTakes s l := by rw [h.frame]; rfl

theorem LanesWorked.trans (h : LanesWorked s t) (k : LanesWorked t u) : LanesWorked s u :=
  ⟨k.frame.trans ((congrArg (fun x => workedOn x u) h.frame).trans rfl),
    fun l hl => (k.idle l ((h.laneTakes l).trans hl)).trans (h.idle l hl), k.bounded ∘ h.bounded, fun hs => k.sign (h.sign hs)⟩

theorem HeadsOf.lanesWorked (h : HeadsOf l s u) (hl : Machine.laneTakes s l = true) : LanesWorked s u := by
  have hlcm : u.lcm = s.lcm := by rw [h.frame]
  have hother : ∀ m, m ≠ l → u.hen.lane m = s.hen.lane m := fun m hm => by
    have : m = l.other := by cases l <;> cases m <;> simp_all [Lane.other]
    rw [this]; exact h.other
  refine ⟨h.frame.trans (by unfold workedOn; rw [hlcm]), fun m hm => ?_, fun hb m => ?_, fun hs m => by rw [hlcm]; exact hs m⟩
  · rw [hother m fun e => by rw [e, hl] at hm; cases hm]
  · by_cases hml : m = l
    · rw [hml]
      exact h.bounded (hb l)
    · rw [hother m hml]
      exact hb m

theorem LanesWorked.foldl {α : Type} {f : State → α → State} (h : ∀ s a, LanesWorked s (f s a)) (as : List α) (s : State) : LanesWorked s (as.foldl f s) := by
  induction as generalizing s with
  | nil => exact .refl s
  | cons a as ih => exact (h s a).trans (ih (f s a))

end

theorem headsStart_works (n : Nat) (t : Int) (s : State) : LanesWorked s (headsStart n t s) := by
  refine .foldl (fun s e => .foldl (fun s l => ?_) bothLanes s) (portHeads s n) s
  extract_lets pr x
  split
  · exact .refl s
  next h =>
    refine (keepWork_headsOf _ fun hb => goto_bounded hb).lanesWorked ?_
    exact (by simpa using h : ¬ x.st = 4 ∧ laneTakes s l = true).2

theorem headsFail_works (n cause : Nat) (s : State) : LanesWorked s (headsFail n cause s) := by
  refine .foldl (fun s e => .foldl (fun s l => ?_) bothLanes s) (portHeads s n) s
  extract_lets pr x
  split
  · exact .refl s
  next h =>
    refine (keepWork_headsOf _ fun hb => goto_bounded hb).lanesWorked ?_
    exact (by simpa using h : ¬ x.st = 4 ∧ laneTakes s l = true).2

/-- A step of a lane in which nothing went wrong enters both signatures alike (R188). -/
theorem signStep_alike (id : Nat) (l : Lane) (n : Nat) {s : State} (hsig : s.lcm.sig.lane l = s.lcm.sigRef.lane l) :
    LanesWorked s (signStep [] id l n s) := by
  unfold signStep
  split
  · exact .refl s
  extract_lets err v
  have hsame : v.lcm.sig.lane l = v.lcm.sigRef.lane l := by
    show (s.lcm.sig.setLane l _).lane l = (s.lcm.sigRef.setLane l _).lane l
    rw [lane_setLane, lane_setLane, hsig]
    congr 2
  have hno : signDiffers l v = false := by
    unfold signDiffers
    rw [hsame]
    exact bne_self_eq_false _
  rw [hno, if_neg Bool.false_ne_true]
  refine ⟨rfl, fun _ _ => rfl, fun hb => hb, fun hs m => ?_⟩
  by_cases hm : m = l
  · rw [hm]; exact hsame
  · show (s.lcm.sig.setLane l _).lane m = (s.lcm.sigRef.setLane l _).lane m
    rw [lane_setLane_ne _ _ hm, lane_setLane_ne _ _ hm]
    exact hs m

/-- A decimation point's sample in one lane (R127, R188). -/
theorem zoneLane_works (i : Fch) (z : ZPoint) (conv any : Bool) (n : Nat) (l : Lane) {s : State} (hsig : s.lcm.sig.lane l = s.lcm.sigRef.lane l) :
    LanesWorked s (if laneTakes s l then signStep [] 6 l n (lanePoint l i z conv any s) else s) := by
  split
  next hl =>
    have hpoint := (lanePoint_headsOf l i z conv any s).lanesWorked hl
    refine hpoint.trans (signStep_alike 6 l n ?_)
    have hlcm : (lanePoint l i z conv any s).lcm = s.lcm := by rw [(lanePoint_headsOf l i z conv any s).frame]
    rw [hlcm]
    exact hsig
  · exact .refl s

/-- What a decimation point brings the lanes (R127, R144). -/
theorem zonePoint_works (i : Fch) (z : ZPoint) (conv any : Bool) (v : State) {s : State} (hsig : ∀ l, s.lcm.sig.lane l = s.lcm.sigRef.lane l) :
    LanesWorked s (bothLanes.foldl
      (fun s l => if laneTakes s l then signStep [] 6 l (portHeads v i.num).length (lanePoint l i z conv any s) else s) s) := by
  have hx := zoneLane_works i z conv any (portHeads v i.num).length .x (hsig .x)
  exact hx.trans (zoneLane_works i z conv any (portHeads v i.num).length .y (hx.sign hsig .y))

theorem zoneSample_works {t : Int} {i : Fch} {z : ZPoint} {r : List ZPoint} {s : State} (hz : (fchOf s i).zq = z :: r)
    (hsig : ∀ l, s.lcm.sig.lane l = s.lcm.sigRef.lane l) (hroom : bothLanes.any (fun l => laneTakes s l && henFull s l) = false) :
    ∃ v cn, LanesWorked (mapFch i (fun x => { x with zq := r }) (atTime t s)) v ∧ exec (.zoneSample t i [] []) s = settle { v with convNote := cn } := by
  rw [show exec (.zoneSample t i [] []) s = execZoneSample t i [] [] s from rfl]
  unfold execZoneSample
  dsimp only
  rw [show (fchOf (atTime t s) i).zq = z :: r from hz]
  dsimp only
  rw [show bothLanes.any (fun l => laneTakes (atTime t s) l && henFull (atTime t s) l) = false from hroom, if_neg Bool.false_ne_true]
  have hnofails : List.foldl (fun s (e : Lane × Nat) => laneSlateFail e.1 e.2 s) (laneFaults false [] (zoneCross z.n [] (atTime t s))) [] = atTime t s := rfl
  rw [hnofails]
  have hsig' : ∀ l, (mapFch i (fun x => { x with zq := r }) (atTime t s)).lcm.sig.lane l = (mapFch i (fun x => { x with zq := r }) (atTime t s)).lcm.sigRef.lane l :=
    fun l => by rw [mapFch_lcm]; exact hsig l
  generalize mapFch i (fun x => { x with zq := r }) (atTime t s) = w at hsig' ⊢
  split
  · exact ⟨_, _, headsStart_works i.num z.t w, rfl⟩
  split
  · exact ⟨_, _, headsFail_works i.num 1 w, rfl⟩
  · have hwork := zonePoint_works i z (i != .field && (w.convNote.port (fchPort i)).align.any (fun a => decide (a ≤ z.t)))
      (i != .field && (w.convNote.port (fchPort i)).any.any (fun a => decide (a ≤ z.t))) w hsig'
    split
    · exact ⟨_, _, hwork, rfl⟩
    · exact ⟨_, _, hwork, rfl⟩

/-! ## A flush -/

theorem SameBanks.headRec {s x : State} (h : SameBanks s x) (n : Nat) : headRec x n = Machine.headRec s n := by
  unfold Machine.headRec
  rw [h.heads]

theorem SameBanks.profile {s x : State} (h : SameBanks s x) (p : Nat) : profile x p = Machine.profile s p := by
  unfold Machine.profile profileIn
  rw [h.active]
  simp only [h.word]

/-- A head as a command finds it is the listed one or a new one, but for its base. -/
theorem headOf_eq (s : State) (l : Lane) (h : Nat) (p : Profile) :
    ∃ b, headOf s l h p = { (tget none h (s.hen.lane l).heads).getD (HeadSt.new p) with lt := b } := by
  unfold headOf
  dsimp only
  split
  · exact ⟨_, rfl⟩
  · exact ⟨_, rfl⟩

/-- The entries that a flush removes from a head in a lane (R141). -/
def flushCount (s : State) (l : Lane) (h : Nat) : Nat :=
  match headRec s h with
  | none => 0
  | some r => if (headOf s l h (profile s r.profile)).st = 4 then 0 else (headOf s l h (profile s r.profile)).list.length

theorem flushCount_same {s u : State} (hb : SameBanks s u) {l : Lane} (hl : u.hen.lane l = s.hen.lane l) (h : Nat) : flushCount u l h = flushCount s l h := by
  unfold flushCount
  rw [hb.headRec]
  split
  · rfl
  next r _ =>
    rw [hb.profile]
    obtain ⟨b, hu⟩ := headOf_eq u l h (profile s r.profile)
    obtain ⟨b', hs⟩ := headOf_eq s l h (profile s r.profile)
    rw [hu, hs, hl]

theorem flushHead_count (l : Lane) (h : Nat) (rst : Option Nat) (s : State) : (flushHead l h rst s).1 = flushCount s l h := by
  unfold flushHead flushCount
  cases headRec s h <;> rfl

/-- What a flush leaves of the heads of its lane (R141). -/
theorem flushHead_heads (l : Lane) (h : Nat) (rst : Option Nat) (s : State) :
    (∀ r, headRec s h = some r → ∃ y, tget none h ((flushHead l h rst s).2.hen.lane l).heads = some y ∧ y.list = [])
    ∧ ∀ k, k ≠ h → tget none k ((flushHead l h rst s).2.hen.lane l).heads = tget none k (s.hen.lane l).heads := by
  unfold flushHead
  split
  next hnone =>
    have hq := queueEvents_queueWork l s
      [{ ty := 8, neg := false, lt := !s.net.joined, zone := 0, pending := 0, head := h, t := s.now, data := 0, marks := 0, rst := rst }]
    exact ⟨fun r hr => absurd (hnone.symm.trans hr) (by simp), fun k _ => by rw [hq.heads]⟩
  next r hr =>
    extract_lets pr x n w
    have hwork := keepWork_headWork l h x.st { w with out := w.out.map (fun e => { e with rst := rst }) } s
    exact ⟨fun _ _ => ⟨_, hwork.own, rfl⟩, fun k hk => hwork.others hk⟩

/-- HEAD_FLUSH in one lane (R141, R199). -/
def flushIn (c : HostCmd) (h : Nat) (l : Lane) (s : State) : Option LaneResult × State :=
  if !takesCmd c s l then (none, s)
  else if serving s l then (some { status := stApplied, r0 := w32 (flushHead l h none s).1, r1 := 0 }, (flushHead l h none s).2)
  else (none, (flushHead l h none s).2)

theorem takes_of_serving {s : State} {l : Lane} (h : serving s l = true) : laneTakes s l = true := by
  unfold serving at h
  unfold laneTakes
  rw [Bool.and_eq_true] at h
  rw [h.1, h.2]
  rfl

/-- What HEAD_FLUSH leaves and answers in one lane. -/
structure Flushed (h : Nat) (l : Lane) (s : State) (a : Option LaneResult × State) : Prop extends LaneWork l s a.2 where
  answer : a.1 = if serving s l then some { status := stApplied, r0 := w32 (flushCount s l h), r1 := 0 } else none
  emptied : laneTakes s l = true → ∀ r, headRec s h = some r → ∃ y, tget none h (a.2.hen.lane l).heads = some y ∧ y.list = []
  others : ∀ k, k ≠ h → tget none k (a.2.hen.lane l).heads = tget none k (s.hen.lane l).heads
  idle : laneTakes s l = false → (a.2.hen.lane l).heads = (s.hen.lane l).heads

theorem flushIn_flushes {c : HostCmd} (hcross : c.cross = []) (h : Nat) (l : Lane) (s : State) : Flushed h l s (flushIn c h l s) := by
  have htakes : takesCmd c s l = laneTakes s l := by unfold takesCmd; rw [hcross]; exact Bool.and_true _
  obtain ⟨hown, hothers⟩ := flushHead_heads l h none s
  unfold flushIn
  rw [htakes]
  cases hl : laneTakes s l with
  | false =>
    have hserving : serving s l = false := Bool.eq_false_iff.2 fun h => by rw [takes_of_serving h] at hl; cases hl
    exact ⟨.refl l s, by rw [hserving]; rfl, fun h => absurd (hl.symm.trans h) Bool.false_ne_true, fun _ _ => rfl, fun _ => rfl⟩
  | true =>
    have hidle : laneTakes s l = false → ((flushHead l h none s).2.hen.lane l).heads = (s.hen.lane l).heads :=
      fun h => absurd (h.symm.trans hl) Bool.false_ne_true
    cases hserving : serving s l with
    | true => exact ⟨flushHead_laneWork l h none s, by rw [hserving, ← flushHead_count l h none s]; rfl, fun _ => hown, hothers, hidle⟩
    | false => exact ⟨flushHead_laneWork l h none s, by rw [hserving]; rfl, fun _ => hown, hothers, hidle⟩

/-! ## What the lanes answer -/

/-- The answer that the host gets of what the lanes answered (R322). -/
def lanesPick (lead : Lane) : Option LaneResult → Option LaneResult → LaneResult
  | some a, some b => if lead == Lane.x then a else b
  | some a, none => a
  | none, some b => b
  | none, none => { status := stCancelled, r0 := 0, r1 := 0 }

theorem finishLanes_emits {id : Nat} {o : OutCmd} {v : State} (a b : Option LaneResult) (hfind : outFind v id = some o) :
    ∃ i, finishLanes id a b v = cplEmit o (lanesPick v.lcm.lead a b).status (lanesPick v.lcm.lead a b).r0 (lanesPick v.lcm.lead a b).r1 a.isSome b.isSome
      { outDrop id v with erc := { v.erc with inbox := i } } := by
  unfold finishLanes
  rw [hfind]
  match a, b with
  | some a, some b =>
    obtain ⟨i, hi⟩ : ∃ i, (if a.status == b.status && a.r0 == b.r0 then outDrop id v else note evResultDisagree .host 0 o.index a.r0 b.r0 (outDrop id v))
        = { outDrop id v with erc := { v.erc with inbox := i } } := by
      split
      · exact ⟨v.erc.inbox, rfl⟩
      · exact ⟨_, note_update ..⟩
    dsimp only
    rw [hi]
    exact ⟨i, rfl⟩
  | some a, none => exact ⟨v.erc.inbox, rfl⟩
  | none, some b => exact ⟨v.erc.inbox, rfl⟩
  | none, none => exact ⟨v.erc.inbox, rfl⟩

/-- A command that crossed to the lanes, completed while the HRE runs with what they answered (R322, R324). -/
theorem finishLanes_runs {id : Nat} {o : OutCmd} {v : State} (a b : Option LaneResult) (hfind : outFind v id = some o) (hrun : hreRun v = true)
    (hcan : hostCan v = true) : ∃ k i g, finishLanes id a b v =
      { v with ctr := k, erc := { v.erc with inbox := i },
               out := v.out ++ [.hostWrite (ringAddr v 1 v.hre.cplProd) (wordsBytes (cplWords v o (lanesPick v.lcm.lead a b).status
                 (lanesPick v.lcm.lead a b).r0 (lanesPick v.lcm.lead a b).r1 a.isSome b.isSome))],
               hre := { hreItems { v.hre with out := v.hre.out.filter (fun o => o.id != id) } g with cplProd := v.hre.cplProd + 1 } } := by
  obtain ⟨i, hemit⟩ := finishLanes_emits a b hfind
  rw [hemit]
  generalize lanesPick v.lcm.lead a b = pick
  have hsame : SameForCpl v { outDrop id v with erc := { v.erc with inbox := i } } := ⟨rfl, rfl, fun _ _ => rfl, rfl, rfl, rfl⟩
  obtain ⟨k, g, h⟩ := cplEmit_runs_update o pick.status pick.r0 pick.r1 a.isSome b.isSome (s := { outDrop id v with erc := { v.erc with inbox := i } })
    (hsame.hreRun.trans hrun) hcan
  rw [hsame.cplWords, hsame.ringAddr] at h
  exact ⟨k, i, g, h⟩

/-- What lane l answers to HEAD_FLUSH (R141). -/
def flushAnswer (s : State) (l : Lane) (h : Nat) : Option LaneResult :=
  if serving s l then some { status := stApplied, r0 := w32 (flushCount s l h), r1 := 0 } else none

theorem effHeadFlush_eq {c : HostCmd} (hcross : c.cross = []) (x : State) :
    let a := flushIn c (fld c.a0 12 0) .x (accept c 0x20 x)
    let b := flushIn c (fld c.a0 12 0) .y a.2
    effHeadFlush c x = finishLanes (newId x) a.1 b.1 b.2 := by
  unfold effHeadFlush crossFails
  rw [hcross]
  rfl

/-- HEAD_FLUSH in both lanes, one after the other (R141, R199). -/
theorem flushBoth {c : HostCmd} (hcross : c.cross = []) (h : Nat) (v : State) : ∃ a b, flushIn c h .x v = a ∧ flushIn c h .y a.2 = b
    ∧ b.2 = { v with ctr := b.2.ctr, erc := { v.erc with inbox := b.2.erc.inbox }, net := b.2.net, cal := b.2.cal, hen := b.2.hen }
    ∧ a.1 = flushAnswer v .x h ∧ b.1 = flushAnswer v .y h
    ∧ (∀ r l, headRec v h = some r → laneTakes v l = true → ∃ y, tget none h (b.2.hen.lane l).heads = some y ∧ y.list = [])
    ∧ (∀ l k, k ≠ h → tget none k (b.2.hen.lane l).heads = tget none k (v.hen.lane l).heads)
    ∧ ∀ l, laneTakes v l = false → (b.2.hen.lane l).heads = (v.hen.lane l).heads := by
  have hx := flushIn_flushes hcross h .x v
  obtain ⟨a, ha⟩ : ∃ a, flushIn c h .x v = a := ⟨_, rfl⟩
  rw [ha] at hx
  have hy := flushIn_flushes hcross h .y a.2
  obtain ⟨b, hb⟩ : ∃ b, flushIn c h .y a.2 = b := ⟨_, rfl⟩
  rw [hb] at hy
  obtain ⟨hpst, hlcm, hdom⟩ : a.2.pst = v.pst ∧ a.2.lcm = v.lcm ∧ a.2.dom = v.dom := by rw [hx.frame]; exact ⟨rfl, rfl, rfl⟩
  have hbanks : SameBanks v a.2 := sameBanks_of_pst hpst
  have htakes : ∀ l, laneTakes a.2 l = laneTakes v l := fun l => by rw [hx.frame]; rfl
  have hserving : serving a.2 .y = serving v .y := by rw [hx.frame]; rfl
  have hbx : b.2.hen.lane .x = a.2.hen.lane .x := hy.other
  have hay : a.2.hen.lane .y = v.hen.lane .y := hx.other
  refine ⟨a, b, ha, hb, ?_, hx.answer, ?_, fun r l hr hl => ?_, fun l k hk => ?_, fun l hl => ?_⟩
  · exact hy.frame.trans (congrArg (fun x : State => { x with ctr := b.2.ctr, erc := { x.erc with inbox := b.2.erc.inbox }, net := b.2.net, cal := b.2.cal, hen := b.2.hen })
      hx.frame)
  · rw [hy.answer, hserving, flushCount_same hbanks hay]; rfl
  · match l with
    | .x => rw [hbx]; exact hx.emptied hl r hr
    | .y => exact hy.emptied ((htakes .y).trans hl) r ((hbanks.headRec h).trans hr)
  · match l with
    | .x => rw [hbx]; exact hx.others k hk
    | .y => rw [← hay]; exact hy.others k hk
  · match l with
    | .x => rw [hbx]; exact hx.idle hl
    | .y => rw [← hay]; exact hy.idle ((htakes .y).trans hl)

/-- HEAD_FLUSH done: its head's list empty, no other entry gone, and the lanes' answer in CPL (R141, R322). -/
structure FlushDone (c : HostCmd) (h : Nat) (s u : State) : Prop where
  out : u.hre.out = s.hre.out
  cons : u.hre.cmdCons = c.index + 1
  prod : u.hre.cplProd = s.hre.cplProd + 1
  emptied : ∀ r l, headRec s h = some r → laneTakes s l = true → ∃ y, tget none h (u.hen.lane l).heads = some y ∧ y.list = []
  others : ∀ l k, k ≠ h → tget none k (u.hen.lane l).heads = tget none k (s.hen.lane l).heads
  idle : ∀ l, laneTakes s l = false → (u.hen.lane l).heads = (s.hen.lane l).heads
  written : Out.hostWrite (ringAddr (atTime c.t s) 1 s.hre.cplProd) (wordsBytes (cplWords (atTime c.t s) (outOf c 0x20 (s.hre.nextId + 1))
    (lanesPick s.lcm.lead (flushAnswer s .x h) (flushAnswer s .y h)).status (lanesPick s.lcm.lead (flushAnswer s .x h) (flushAnswer s .y h)).r0
    (lanesPick s.lcm.lead (flushAnswer s .x h) (flushAnswer s .y h)).r1 (flushAnswer s .x h).isSome (flushAnswer s .y h).isSome)) ∈ u.out
  frame : u = { commanded s u with now := c.t, hen := u.hen, cal := u.cal, net := u.net }

theorem headFlush_done {c : HostCmd} {s x : State} (hx : Taken 0x20 c s x) (hcross : c.cross = []) (hfresh : ∀ o ∈ s.hre.out, o.id ≠ s.hre.nextId + 1) :
    ∃ u, exec (.headFlush c) s = .next u ∧ FlushDone c (fld c.a0 12 0) s u := by
  generalize hh : fld c.a0 12 0 = h
  obtain ⟨a, b, ha, hb, hframe, hansx, hansy, hemptied, hothers, hidle⟩ := flushBoth hcross h (accept c 0x20 x)
  have heff : effHeadFlush c x = finishLanes (newId x) a.1 b.1 b.2 := by
    rw [effHeadFlush_eq hcross x, hh, ha, hb]
  obtain ⟨hhen, hnet, hlcm, hdom, hout, hid, hcons, hprod⟩ : x.hen = s.hen ∧ x.net = s.net ∧ x.lcm = s.lcm ∧ x.dom = s.dom ∧ x.hre.out = s.hre.out
      ∧ x.hre.nextId = s.hre.nextId ∧ x.hre.cmdCons = c.index + 1 ∧ x.hre.cplProd = s.hre.cplProd := by
    obtain ⟨_, _, _, _, _, hu⟩ := hx.update
    rw [hu]; exact ⟨rfl, rfl, rfl, rfl, rfl, rfl, rfl, rfl⟩
  have hbanks : SameBanks s (accept c 0x20 x) := ⟨hx.banks.active, hx.banks.word, hx.banks.listed⟩
  have hserving : ∀ l, serving (accept c 0x20 x) l = serving s l := fun l => by
    unfold serving active
    rw [show (accept c 0x20 x).lcm = s.lcm from hlcm, show (accept c 0x20 x).dom = s.dom from hdom]
  have htakes : ∀ l, laneTakes (accept c 0x20 x) l = laneTakes s l := hx.laneTakes
  have hanswer : ∀ l, flushAnswer (accept c 0x20 x) l h = flushAnswer s l h := fun l => by
    unfold flushAnswer
    rw [hserving, flushCount_same hbanks (congrArg (fun t : Two HenSt => t.lane l) hhen)]
  have hbsame : SameForCpl x b.2 := by rw [hframe]; exact ⟨rfl, rfl, fun _ _ => rfl, rfl, rfl, rfl⟩
  have hbhre : b.2.hre = (accept c 0x20 x).hre := by rw [hframe]
  have hblcm : b.2.lcm = s.lcm := by rw [hframe]; exact hlcm
  have hnew : newId x = s.hre.nextId + 1 := by unfold newId; rw [hid]
  have hfind : outFind b.2 (newId x) = some (outOf c 0x20 (s.hre.nextId + 1)) := by
    unfold outFind
    rw [hbhre, hnew]
    show (x.hre.out ++ [outOf c 0x20 (x.hre.nextId + 1)]).find? _ = _
    rw [hout, hid, List.find?_append, List.find?_eq_none.2 fun o ho => by simpa using hfresh o ho]
    simp [outOf]
  have hcan : hostCan b.2 = true := by
    have := hx.can
    unfold hostCan active at this ⊢
    rw [hbsame.dom, hbhre]; exact this
  obtain ⟨k, i, g, hfin⟩ := finishLanes_runs a.1 b.1 hfind (hbsame.hreRun.trans hx.run) hcan
  have hlast : b.2.hre.out.filter (fun o => o.id != newId x) = s.hre.out := by
    rw [hbhre]
    show (x.hre.out ++ [outOf c 0x20 (x.hre.nextId + 1)]).filter _ = _
    rw [hout, hid, hnew, List.filter_append, List.filter_eq_self.2 fun o ho => bne_iff_ne.2 (hfresh o ho)]
    simp [outOf]
  have hall := hx.same.trans hbsame
  have hcplProd : b.2.hre.cplProd = s.hre.cplProd := by rw [hbhre]; exact hprod
  refine settles ((hx.exec _).trans (congrArg settle (heff.trans hfin))) fun o g' => ⟨hlast, ?_, ?_, fun r l hr hl => ?_, fun l k hk => ?_, fun l hl => ?_, ?_, ?_⟩
  · show b.2.hre.cmdCons = _
    rw [hbhre]; exact hcons
  · show b.2.hre.cplProd + 1 = _
    rw [hcplProd]
  · exact hemptied r l ((hbanks.headRec h).trans hr) ((htakes l).trans hl)
  · rw [← hhen]; exact hothers l k hk
  · rw [← hhen]; exact hidle l ((htakes l).trans hl)
  · rw [hansx, hansy, hanswer, hanswer, hblcm, hall.ringAddr, hall.cplWords, hcplProd]
    exact List.mem_append_left _ (List.mem_append_right _ (List.mem_singleton.2 rfl))
  · clear hfin
    rw [hframe]
    obtain ⟨_, _, _, _, _, hu⟩ := hx.update
    have hq := hx.reserve
    subst hu
    exact with_reserve _ hq

/-- Settles O23. -/
theorem decimationPointReachesHeads : Obligations.DecimationPointReachesHeads := by
  unfold Obligations.DecimationPointReachesHeads
  refine ⟨fun t i z r s hz => ?sample, fun c s hpass hcross hfresh => ?flush⟩
  case sample =>
    intro full hsig
    refine ⟨fun hroom => ?_, fun hfull => ?_⟩
    · obtain ⟨v, cn, hwork, hexec⟩ := zoneSample_works (t := t) hz hsig hroom
      have hfch : v.fch = (mapFch i (fun x => { x with zq := r }) (atTime t s)).fch := by rw [hwork.frame]; rfl
      refine settles hexec fun o g => ⟨?_, fun j hj => ?_, fun hb => hwork.bounded ?_, fun l hl => ?_, ?_, hwork.sign ?_⟩
      · exact (fchOf_of_fch hfch i).trans (fchOf_mapFch ..)
      · exact (fchOf_of_fch hfch j).trans (fchOf_mapFch_ne _ _ hj)
      · unfold PeakListsBounded; rw [mapFch_hen]; exact hb
      · refine (hwork.idle l ?_).trans (by rw [mapFch_hen]; rfl)
        rw [mapFch_update]; exact hl
      · rw [hwork.frame, mapFch_update]; rfl
      · rw [mapFch_lcm]; exact hsig
    · have hexec : exec (.zoneSample t i [] []) s = settle (atTime t s) := by
        rw [show exec (.zoneSample t i [] []) s = execZoneSample t i [] [] s from rfl]
        unfold execZoneSample
        dsimp only
        rw [show (fchOf (atTime t s) i).zq = z :: r from hz]
        exact if_pos hfull
      exact settles hexec fun o g => rfl
  case flush =>
    intro h had done
    obtain ⟨x, hx, -⟩ := taken_of_passes hpass
    obtain ⟨u, hexec, hdone⟩ := headFlush_done hx hcross hfresh
    have hanswer : ∀ l, serving s l = true → flushAnswer s l h = some { status := stApplied, r0 := w32 (had l), r1 := 0 } := fun l hl => if_pos hl
    have hsilent : ∀ l, serving s l = false → flushAnswer s l h = none := fun l hl => if_neg (by rw [hl]; decide)
    have hwritten := hdone.written
    refine ⟨u, hexec, hdone.out, hdone.cons, hdone.prod, fun r l hr hl => ?_, hdone.others, hdone.idle, fun l hl hother => ?_, fun hl hl' => ?_, hdone.frame⟩
    · obtain ⟨y, hy, hempty⟩ := hdone.emptied r l hr hl
      rw [headOf_list, hy]
      exact hempty
    · match l with
      | .x =>
        rw [hanswer .x hl, hsilent .y hother] at hwritten
        exact hwritten
      | .y =>
        rw [hanswer .y hl, hsilent .x hother] at hwritten
        exact hwritten
    · rw [hanswer .x hl, hanswer .y hl'] at hwritten
      have hlead : lanesPick s.lcm.lead (some { status := stApplied, r0 := w32 (had .x), r1 := 0 }) (some { status := stApplied, r0 := w32 (had .y), r1 := 0 })
          = { status := stApplied, r0 := w32 (had s.lcm.lead), r1 := 0 } := by
        unfold lanesPick
        cases s.lcm.lead <;> rfl
      rw [hlead] at hwritten
      exact hwritten

end Sys2Proof.Proofs
end

section
/-!
Proof of the statement about queued jobs (R320, R321, R354, R374): their acceptance, and what a quantum of each does.
-/
namespace Sys2Proof.Proofs
open Sys2Proof.Machine Sys2Proof.Laws

/-! ## A command completed later -/

/-- Two states in which a completion reads the same, whatever jobs, power states and pace requests they hold. -/
structure ReadsAlike (s v : State) : Prop where
  aon : v.bsc.aon = s.bsc.aon
  same : SameForCpl s { v with bsc := s.bsc }

section
variable {s v u : State}

theorem readsAlike_of_same (h : SameForCpl s v) : ReadsAlike s v := ⟨by rw [h.bsc], h.now, h.regs, h.read, h.dom, rfl, h.slots⟩

theorem ReadsAlike.trans (h : ReadsAlike s v) (k : ReadsAlike v u) : ReadsAlike s u :=
  ⟨k.aon.trans h.aon, k.same.now.trans h.same.now, k.same.regs.trans h.same.regs, fun w e => (k.same.read w e).trans (h.same.read w e),
    k.same.dom.trans h.same.dom, rfl, k.same.slots.trans h.same.slots⟩

theorem ReadsAlike.cplWords (h : ReadsAlike s v) (o : OutCmd) (st : Nat) (r0 r1 : Word) (lx ly : Bool) :
    cplWords v o st r0 r1 lx ly = Machine.cplWords s o st r0 r1 lx ly := by
  refine .trans ?_ (h.same.cplWords o st r0 r1 lx ly)
  unfold Machine.cplWords aonUp
  rw [h.aon]
  rfl

theorem ReadsAlike.ringAddr (h : ReadsAlike s v) (r : Nat) (i : Word) : ringAddr v r i = Machine.ringAddr s r i := h.same.ringAddr r i

theorem ReadsAlike.hreRun (h : ReadsAlike s v) : hreRun v = Machine.hreRun s := h.same.hreRun

end

/-- What completing an outstanding command leaves is that command finished, for every state that keeps the outstanding commands, the index of CPL and what
left the part (R324). -/
theorem finish_finished {t : Int} {id st : Nat} {r0 r1 : Word} {s v u : State} (hsame : ReadsAlike (atTime t s) v) (hhre : v.hre = s.hre)
    (hout : u.hre.out = (finish id st r0 r1 v).hre.out) (hprod : u.hre.cplProd = (finish id st r0 r1 v).hre.cplProd)
    (hwritten : ∀ x ∈ (finish id st r0 r1 v).out, x ∈ u.out) : Finished t id st r0 r1 s u := by
  have hrest : u.hre.out = s.hre.out.filter (fun o => o.id != id) := by
    obtain ⟨k, i, w, g, h⟩ := finish_update id st r0 r1 v
    rw [hout, h]
    exact congrArg (fun x : HreSt => x.out.filter (fun o => o.id != id)) hhre
  refine ⟨hrest, fun o hfind hrun hcan => ?_⟩
  have hfind' : outFind v id = some o := by unfold outFind; rw [hhre]; exact hfind
  have hdrop : SameForCpl v (outDrop id v) := ⟨rfl, rfl, fun _ _ => rfl, rfl, rfl, rfl⟩
  have hall := hsame.trans (readsAlike_of_same hdrop)
  have hcan' : hostCan (outDrop id v) = true := by
    unfold hostCan active at hcan ⊢
    rw [show (outDrop id v).dom = s.dom from hsame.same.dom, show (outDrop id v).hre.loss = s.hre.loss from (congrArg HreSt.loss hhre :),
      show (outDrop id v).hre.busMaster = s.hre.busMaster from (congrArg HreSt.busMaster hhre :)]
    exact hcan
  obtain ⟨k, g, h⟩ := cplEmit_runs_update o st r0 r1 false false (s := outDrop id v) (hall.hreRun.trans hrun) hcan'
  have hfin : finish id st r0 r1 v = cplEmit o st r0 r1 false false (outDrop id v) := by unfold finish; rw [hfind']
  have hindex : (outDrop id v).hre.cplProd = s.hre.cplProd := (congrArg HreSt.cplProd hhre :)
  rw [hfin, h] at hprod hwritten
  refine ⟨hprod.trans (congrArg (· + 1) hindex), hwritten _ (List.mem_append_right _ ?_)⟩
  rw [hall.ringAddr, hall.cplWords, hindex]
  exact List.mem_singleton.2 rfl

/-! ## The scheduler with one job -/

theorem pickJob_none (r : Resource) {s : State} (h : s.bsc.jobs = []) : pickJob r s = s := by
  unfold pickJob
  rw [h]
  split <;> rfl

/-- The one job that waits begins its quantum, or waits on (R373 to R375). -/
theorem pickJob_one {k : Job} {s : State} (hjobs : s.bsc.jobs = [k]) (hrun : s.bsc.running = []) :
    ∃ c a b, pickJob .nvm s = { s with ctr := c, bsc := { s.bsc with jobs := a, running := b } } ∧ b ++ a = [k] := by
  have stays : ∃ c a b, s = { s with ctr := c, bsc := { s.bsc with jobs := a, running := b } } ∧ b ++ a = [k] :=
    ⟨s.ctr, s.bsc.jobs, s.bsc.running, rfl, by rw [hjobs, hrun]; rfl⟩
  unfold pickJob
  split
  · exact stays
  rw [hjobs]
  cases hk : k.res == Resource.nvm with
  | false =>
    rw [show [k].filter (fun j => j.res == Resource.nvm) = [] by simp [hk]]
    exact stays
  | true =>
    rw [show [k].filter (fun j => j.res == Resource.nvm) = [k] by simp [hk]]
    have herase : ([k] : List Job).erase k = [] := List.erase_cons_head ..
    simp only [pickOf, List.foldl_cons, List.foldl_nil]
    split <;> exact ⟨_, _, _, rfl, by simp [bump, bumpBy, hjobs, hrun]⟩

/-- A quantum of the one job that runs, while none waits (R374). -/
theorem quantum_serves {t : Int} {r : Resource} {room ce : Nat} {ue : List Nat} {j : Job} {s : State} (hrun : s.bsc.running = [j]) (hres : j.res = r) :
    ∃ c, exec (.jobQuantumEnd t r room ce ue) s =
      let q := serveJob room ue j { atTime t s with ctr := c, bsc := { s.bsc with running := [] } }
      settle (pickJob r (if q.1 then q.2.2 else addJob q.2.1 q.2.2)) := by
  have hexec : exec (.jobQuantumEnd t r room ce ue) s = execJobQuantumEnd t r room ce ue s := rfl
  unfold execJobQuantumEnd at hexec
  dsimp only at hexec
  rw [show (atTime t s).bsc.running = [j] from hrun, List.find?_cons_of_pos (by simp [hres]), List.filter_cons_of_neg (by simp [hres])] at hexec
  cases hhost : r == Resource.host with
  | true =>
    rw [hhost] at hexec
    exact ⟨_, hexec⟩
  | false =>
    rw [hhost] at hexec
    exact ⟨s.ctr, hexec⟩

/-! ## Statistics -/

theorem clearStat_update (head : Bool) (l : Lane) (i : Nat) (s : State) : ∃ h d, clearStat head l i s = { s with hen := h, sld := d } := by
  unfold clearStat
  split
  · exact ⟨_, s.sld, rfl⟩
  · exact ⟨s.hen, _, rfl⟩

theorem clearStats_update (head : Bool) (l : Lane) (ids : List Nat) (s : State) :
    ∃ h d, ids.foldl (fun s i => clearStat head l i s) s = { s with hen := h, sld := d } := by
  induction ids generalizing s with
  | nil => exact ⟨s.hen, s.sld, rfl⟩
  | cons i ids ih =>
    obtain ⟨h, d, heq⟩ := clearStat_update head l i s
    obtain ⟨h', d', heq'⟩ := ih { s with hen := h, sld := d }
    exact ⟨h', d', by rw [List.foldl_cons, heq, heq']⟩

theorem statServe_update (room : Nat) (j : Job) (s : State) : ∃ w h d, (statServe room j s).2.2 = { s with out := s.out ++ w, hen := h, sld := d }
    ∧ (statServe room j s).2.1 = { j with pos := j.pos + min (room / (if j.kind = 0x21 then 32 else 64)) (j.total - j.pos) }
    ∧ (statServe room j s).1 = decide (j.pos + min (room / (if j.kind = 0x21 then 32 else 64)) (j.total - j.pos) ≥ j.total) := by
  unfold statServe
  extract_lets head size n l ids bytes v v' _ j'
  have hsize : size = if j.kind = 0x21 then 32 else 64 := by unfold size head; simp only [beq_iff_eq]
  obtain ⟨w, hw⟩ : ∃ w, v = { s with out := s.out ++ w } := by
    unfold v
    split
    · exact ⟨[], by rw [List.append_nil]⟩
    · exact hostWrite_update ..
  obtain ⟨h, d, hv'⟩ : ∃ h d, v' = { v with hen := h, sld := d } := by
    unfold v'
    split
    · exact clearStats_update ..
    · exact ⟨v.hen, v.sld, rfl⟩
  rw [hw] at hv'
  exact ⟨w, h, d, hv', by rw [← hsize], by rw [← hsize]⟩

/-! ## The diagnostic frame -/

/-- A DMA error changes counters, the recorder's inbox and the vectors' items alone (R310, R332). -/
theorem dmaError_update (ring addr : Nat) (s : State) : ∃ k i g, dmaError ring addr s =
    { s with ctr := k, erc := { s.erc with inbox := i }, hre := hreItems s.hre g } := by
  unfold dmaError
  obtain ⟨i, hi⟩ : ∃ i, note evDmaError .host 0 (w32 ring) (lo32 addr) 0 (bump 0xCC08 s) = { bump 0xCC08 s with erc := { s.erc with inbox := i } } :=
    ⟨_, note_update ..⟩
  rw [hi]
  obtain ⟨g, hg⟩ := vecItem_update 13 { bump 0xCC08 s with erc := { s.erc with inbox := i } }
  exact ⟨_, i, g, hg⟩

/-- A payload handed to the RCT of every serving lane (R320). -/
theorem diagServe_hands (j : Job) (v : State) : ∃ n, diagServe j v = { v with net := n }
    ∧ ∀ l, (n.rct.lane l).diag = (v.net.rct.lane l).diag ++ (if serving v l then [(j.id, j.args.map (fun b => BitVec.ofNat 8 b))] else []) := by
  have hone : ∀ (l : Lane) (s : State), ∃ n, (if serving s l then mapRct l (fun x => { x with diag := x.diag ++ [(j.id, j.args.map (fun b => BitVec.ofNat 8 b))] }) s
        else s) = { s with net := n }
      ∧ (n.rct.lane l).diag = (s.net.rct.lane l).diag ++ (if serving s l then [(j.id, j.args.map (fun b => BitVec.ofNat 8 b))] else [])
      ∧ n.rct.lane l.other = s.net.rct.lane l.other := fun l s => by
    split
    · exact ⟨_, rfl, congrArg RctSt.diag (lane_setLane ..), lane_setLane_other ..⟩
    · exact ⟨s.net, rfl, (List.append_nil _).symm, rfl⟩
  obtain ⟨nx, hx, hdx, hox⟩ := hone .x v
  obtain ⟨ny, hy, hdy, hoy⟩ := hone .y { v with net := nx }
  refine ⟨ny, (congrArg (fun s => if serving s .y then mapRct .y (fun x => { x with diag := x.diag ++ [(j.id, j.args.map (fun b => BitVec.ofNat 8 b))] }) s
    else s) hx).trans hy, fun l => ?_⟩
  match l with
  | .x => exact (congrArg RctSt.diag hoy).trans hdx
  | .y => exact hdy.trans (congrArg (· ++ _) (congrArg RctSt.diag hox))

theorem serveJob_diag {room : Nat} {ue : List Nat} {j : Job} {v : State} (h : j.kind = 0x58) : serveJob room ue j v = (true, j, diagServe j v) := by
  unfold serveJob; rw [h]; rfl

theorem serveJob_seed {room : Nat} {ue : List Nat} {j : Job} {v : State} (h : j.kind = 0x39) : serveJob room ue j v = seedServe room j v := by
  unfold serveJob; rw [h]; rfl

theorem serveJob_stat {room : Nat} {ue : List Nat} {j : Job} {v : State} (h : j.kind = 0x21 ∨ j.kind = 0x2C) : serveJob room ue j v =
    if (statServe room j v).1 then (true, (statServe room j v).2.1, finish j.id stApplied (w32 (statServe room j v).2.1.pos) 0 (statServe room j v).2.2)
    else statServe room j v := by
  unfold serveJob
  rcases h with h | h <;> rw [h] <;> rfl

theorem quantum_diag {t : Int} {r : Resource} {room ce : Nat} {ue : List Nat} {j : Job} {s : State} (hrun : s.bsc.running = [j]) (hres : j.res = r)
    (hjobs : s.bsc.jobs = []) (hkind : j.kind = 0x58) :
    ∃ u, exec (.jobQuantumEnd t r room ce ue) s = .next u ∧ u.bsc.running = [] ∧ u.bsc.jobs = []
      ∧ (∀ l, (u.net.rct.lane l).diag = (s.net.rct.lane l).diag ++ (if serving s l then [(j.id, j.args.map (fun b => BitVec.ofNat 8 b))] else []))
      ∧ u = { shown s u with now := t, ctr := u.ctr, net := u.net, bsc := u.bsc } := by
  obtain ⟨c, hexec⟩ := quantum_serves (t := t) (room := room) (ce := ce) (ue := ue) hrun hres
  obtain ⟨n, hserve, hdiag⟩ := diagServe_hands j { atTime t s with ctr := c, bsc := { s.bsc with running := [] } }
  rw [serveJob_diag hkind, hserve] at hexec
  exact settles (hexec.trans (congrArg settle (pickJob_none r hjobs))) fun o g => ⟨rfl, hjobs, hdiag, rfl⟩

/-- A quantum of a seed save puts as many of its page writes behind those that wait as it has room for (R224, R416). -/
theorem seedServe_serves {room : Nat} {j : Job} {x : Nat × Word} {v : State} (hseed : v.cal.seed = some x) (hup : aonUp v = true) :
    let n := min (room / 256) (j.total - j.pos)
    seedServe room j v = (decide (j.pos + n ≥ j.total), { j with pos := j.pos + n }, { v with pst := { v.pst with
      commits := v.pst.commits ++ (span j.pos n).map (fun i => seedCommit (if nth 0 j.args 0 = 0 then .a else .b) x.2 i v) } }) := by
  unfold seedServe
  rw [hseed]
  exact if_neg (by rw [hup]; decide)

theorem quantum_seed {t : Int} {r : Resource} {room ce : Nat} {ue : List Nat} {j : Job} {s : State} (hrun : s.bsc.running = [j]) (hres : j.res = r)
    (hjobs : s.bsc.jobs = []) {x : Nat × Word} (hkind : j.kind = 0x39) (hnvm : r = .nvm) (hseed : s.cal.seed = some x) (hup : aonUp s = true) :
    let n := min (room / 256) (j.total - j.pos)
    ∃ u, exec (.jobQuantumEnd t r room ce ue) s = .next u ∧ (j.total ≤ j.pos + n → u.bsc.running = [] ∧ u.bsc.jobs = [])
      ∧ (j.pos + n < j.total → ∃ k, u.bsc.running ++ u.bsc.jobs = [k] ∧ k.id = j.id ∧ k.pos = j.pos + n)
      ∧ u = { shown s u with now := t, ctr := u.ctr, bsc := { s.bsc with running := u.bsc.running, jobs := u.bsc.jobs },
                             pst := { s.pst with commits := s.pst.commits ++ (span j.pos n).map (fun i => seedCommit (if nth 0 j.args 0 = 0 then .a else .b) x.2 i s) } } := by
  intro n
  subst hnvm
  obtain ⟨c, hexec⟩ := quantum_serves (t := t) (room := room) (ce := ce) (ue := ue) hrun hres
  have hserve := seedServe_serves (room := room) (j := j) (v := { atTime t s with ctr := c, bsc := { s.bsc with running := [] } }) hseed hup
  dsimp only at hserve hexec
  rw [serveJob_seed hkind, hserve] at hexec
  dsimp only at hexec
  by_cases hdone : j.total ≤ j.pos + n
  · rw [if_pos (by exact decide_eq_true hdone), pickJob_none .nvm (by exact hjobs)] at hexec
    exact settles hexec fun o g => ⟨fun _ => ⟨rfl, hjobs⟩, fun h => absurd hdone (by omega), rfl⟩
  · have hwaits := hexec
    rw [if_neg (by simpa using hdone)] at hwaits
    generalize hv : addJob _ _ = v at hwaits
    have hvjobs : v.bsc.jobs = s.bsc.jobs ++ [{ j with pos := j.pos + n, since := t }] := by rw [← hv]; rfl
    rw [hjobs] at hvjobs
    obtain ⟨c', a, b, hpick, hlist⟩ := pickJob_one hvjobs (by rw [← hv]; rfl)
    refine settles (hwaits.trans (congrArg settle hpick)) fun o g => ⟨fun h => absurd h hdone, fun _ => ⟨_, hlist, rfl, rfl⟩, ?_⟩
    rw [← hv]
    rfl

theorem quantum_stat {t : Int} {r : Resource} {room ce : Nat} {ue : List Nat} {j : Job} {s : State} (hrun : s.bsc.running = [j]) (hres : j.res = r)
    (hjobs : s.bsc.jobs = []) (hkind : j.kind = 0x21 ∨ j.kind = 0x2C) (hlast : j.total ≤ j.pos + room / (if j.kind = 0x21 then 32 else 64))
    (hle : j.pos ≤ j.total) :
    ∃ u, exec (.jobQuantumEnd t r room ce ue) s = .next u ∧ u.bsc.running = [] ∧ u.bsc.jobs = [] ∧ Finished t j.id stApplied (w32 j.total) 0 s u
      ∧ u = { commanded s u with now := t, sec := s.sec, pst := s.pst, bsc := u.bsc, hen := u.hen, sld := u.sld } := by
  obtain ⟨c, hexec⟩ := quantum_serves (t := t) (room := room) (ce := ce) (ue := ue) hrun hres
  obtain ⟨w, h, d, hstate, hjob, hdone⟩ := statServe_update room j { atTime t s with ctr := c, bsc := { s.bsc with running := [] } }
  have hpos : j.pos + min (room / (if j.kind = 0x21 then 32 else 64)) (j.total - j.pos) = j.total := by omega
  rw [hpos] at hjob hdone
  rw [decide_eq_true (Nat.le_refl _)] at hdone
  dsimp only at hexec
  rw [serveJob_stat hkind, hdone, if_pos rfl, hjob] at hexec
  dsimp only at hexec
  generalize (statServe room j { atTime t s with ctr := c, bsc := { s.bsc with running := [] } }).2.2 = v at hexec hstate
  have hsame : ReadsAlike (atTime t s) v := by rw [hstate]; exact ⟨rfl, rfl, rfl, fun _ _ => rfl, rfl, rfl, rfl⟩
  have hhre : v.hre = s.hre := by rw [hstate]; rfl
  obtain ⟨k, i, w', g, hfin⟩ := finish_update j.id stApplied (w32 j.total) 0 v
  rw [pickJob_none r (by rw [hfin, hstate]; exact hjobs)] at hexec
  obtain ⟨o, g', hpub⟩ := publish_update (finish j.id stApplied (w32 j.total) 0 v)
  refine ⟨publish (finish j.id stApplied (w32 j.total) 0 v), hexec, ?_, ?_, finish_finished hsame hhre ?_ ?_ fun x hx => ?_, ?_⟩
  · rw [hpub, hfin, hstate]
  · rw [hpub, hfin, hstate]; exact hjobs
  · rw [hpub]; rfl
  · rw [hpub]; rfl
  · rw [hpub]; exact List.mem_append_left _ hx
  · rw [hpub, hfin, hstate]; rfl

/-- Settles O24. -/
theorem jobsRunInQuanta : Obligations.JobsRunInQuanta := by
  unfold Obligations.JobsRunInQuanta
  refine ⟨fun c s i op n hmem hpass => ?stats, fun c s hpass => ?retrieve, fun c s hpass => ?diag, fun t r room ce ue j s hrun hres hjobs => ?quantum⟩
  case stats =>
    simp only [List.mem_cons, Prod.mk.injEq, List.not_mem_nil, or_false] at hmem
    rcases hmem with ⟨rfl, rfl, rfl⟩ | ⟨rfl, rfl, rfl⟩
    · exact (taken_classU hpass rfl).accepts rfl rfl fun o g => rfl
    · exact (taken_classU hpass rfl).accepts rfl rfl fun o g => rfl
  case retrieve =>
    intro k busy
    have hx := taken_classU hpass rfl
    refine ⟨fun h => ?_, fun h => ?_⟩
    · refine hx.accepts (if_neg (by rw [show ((takeCmd c (atTime c.t s)).bsc.jobs ++ (takeCmd c (atTime c.t s)).bsc.running).any (isRetrieval k) = false from h]; decide))
        rfl fun o g => rfl
    · exact hx.completes (if_pos h) (.refl _) (.of_eq rfl) fun k o g g' => rfl
  case diag =>
    intro n
    have hx := taken_classU hpass rfl
    refine ⟨fun b howns hbuf => ?_, fun st hst => ?_⟩
    · have heff : effDiagPost c (takeCmd c (atTime c.t s)) = addJob { id := s.hre.nextId + 1, index := c.index, prio := 5, res := .host, since := 0, kind := 0x58, args := (padTo n b).map (·.toNat), pos := 0, total := n, waitAt := none } (accept c 0x58 (takeCmd c (atTime c.t s))) := by
        unfold effDiagPost
        rw [show ownsDiag (takeCmd c (atTime c.t s)) = true from howns, hbuf]
        rfl
      exact hx.accepts heff rfl fun o g => rfl
    · rcases hst with ⟨howns, rfl⟩ | ⟨howns, hbuf, rfl⟩
      · have heff : effDiagPost c (takeCmd c (atTime c.t s)) = refuse 0x58 c stRefusedState (takeCmd c (atTime c.t s)) := by
          unfold effDiagPost
          rw [show ownsDiag (takeCmd c (atTime c.t s)) = false from howns]
          rfl
        exact hx.completes heff (.refl _) (.of_eq rfl) fun k o g g' => rfl
      · obtain ⟨k, i, g, hdma⟩ := dmaError_update 0xFF (argBuf c) (takeCmd c (atTime c.t s))
        have heff : effDiagPost c (takeCmd c (atTime c.t s)) = refuse 0x58 c stFailedDma (dmaError 0xFF (argBuf c) (takeCmd c (atTime c.t s))) := by
          unfold effDiagPost
          rw [show ownsDiag (takeCmd c (atTime c.t s)) = true from howns, hbuf]
          rfl
        rw [hdma] at heff
        exact hx.completes heff ⟨rfl, rfl, fun _ _ => rfl, rfl, rfl, rfl⟩ ⟨rfl, rfl, rfl, rfl, rfl, rfl⟩ fun k o g g' => rfl
  case quantum =>
    refine ⟨quantum_diag hrun hres hjobs, fun x hkind hnvm hseed hup => quantum_seed hrun hres hjobs hkind hnvm hseed hup, fun hkind hlast hle => ?_⟩
    exact quantum_stat hrun hres hjobs hkind hlast hle

end Sys2Proof.Proofs
end

section
/-!
PROOFS. TOPO_SWITCH and the check of a bank (R422 to R424), LANE_RETIRE (R189, R199) and LANE_READMIT (R201).
-/

namespace Sys2Proof.Proofs
open Sys2Proof.Machine Sys2Proof.Laws

/-! ## TOPO_SWITCH (R424) -/

section
variable {c : HostCmd} {s x : State}

theorem Examined.now (h : Examined c s x) : x.now = c.t := by
  obtain ⟨_, _, _, _, _, hu⟩ := h.update
  rw [hu]

theorem Examined.hre (h : Examined c s x) : x.hre = { s.hre with cmdCons := c.index + 1 } := by
  obtain ⟨_, _, _, _, _, hu⟩ := h.update
  rw [hu]

/-- The banks' states are no part of a command's reserve. -/
theorem Examined.bankState (h : Examined c s x) (k : Bank) : bankState x k = Machine.bankState s k := by
  have hpst := h.reserve
  unfold Machine.bankState
  rw [← hpst]
  unfold reserved
  cases k <;> dsimp only <;> split <;> rfl

theorem Examined.topoStart (h : Examined c s x) (r : Nat) : topoStart x r = Machine.topoStart (atTime c.t s) r := by
  unfold Machine.topoStart roundNs
  rw [h.regF, h.now]
  rfl

/-- A state whose store is the reserved form of another, but for the banks and the switch that waits. -/
theorem with_reserve_banks {p q : PstSt} {w : Option TopoWait} {a b : BankState} (u : State) (h : reserved p q = q)
    (hu : u.pst = { q with topo := w, bankA := a, bankB := b }) :
    u = { u with pst := { reserved p u.pst with topo := u.pst.topo, bankA := u.pst.bankA, bankB := u.pst.bankB } } := by
  have hq : reserved p u.pst = q := (congrArg (reserved p) hu).trans h
  rw [hq, hu]
  exact congrArg (fun p => { u with pst := p }) hu

/-- A bank accepted for a switch waits for its check, and the other bank is as it was. -/
theorem topoAccept_eq (id : Nat) (k : Bank) (gen : Word) (r : Nat) (s : State) :
    let w : TopoWait := { id := id, bank := k, gen := gen, round := (topoStart s r).1, startAt := (topoStart s r).2, acceptedAt := s.now }
    ∃ a b, topoAccept id k gen r s = { s with pst := { s.pst with topo := some w, bankA := a, bankB := b } }
      ∧ ∀ v : State, v.pst.bankA = a ∧ v.pst.bankB = b → bankState v k = .checking ∧ bankState v (otherBank k) = bankState s (otherBank k) := by
  cases k
  · exact ⟨_, _, rfl, fun v h => h⟩
  · exact ⟨_, _, rfl, fun v h => h.symm⟩

/-- TOPO_SWITCH for a bank that may be switched to. -/
theorem topoSwitch_accepted (hx : Taken 0x38 c s x) {k : Bank} (hk : (if bitOf c.a0 0 then Bank.b else .a) = k)
    (hfree : topoRefusal x k (join64 c.a2 c.a3) = none) :
    let at_ := topoStart (atTime c.t s) (join64 c.a2 c.a3)
    ∃ u, exec (.topoSwitch c) s = .next u ∧ Accepted 0x38 c s u ∧ bankState u k = .checking
      ∧ bankState u (otherBank k) = bankState s (otherBank k)
      ∧ u.pst.topo = some { id := s.hre.nextId + 1, bank := k, gen := c.a1, round := at_.1, startAt := at_.2, acceptedAt := c.t }
      ∧ u = { commanded s u with now := c.t,
                                 pst := { (commanded s u).pst with topo := u.pst.topo, bankA := u.pst.bankA, bankB := u.pst.bankB } } := by
  intro at_
  have heff : effTopoSwitch c x = topoAccept (newId x) k c.a1 (join64 c.a2 c.a3) (accept c 0x38 x) := by
    unfold effTopoSwitch
    rw [hk]
    dsimp only
    rw [hfree]
  obtain ⟨a, b, hacc, hbanks⟩ := topoAccept_eq (newId x) k c.a1 (join64 c.a2 c.a3) (accept c 0x38 x)
  have hstart : topoStart (accept c 0x38 x) (join64 c.a2 c.a3) = at_ := hx.topoStart _
  have hother : bankState (accept c 0x38 x) (otherBank k) = bankState s (otherBank k) := hx.bankState _
  rw [hstart] at hacc
  refine hx.accepts (heff.trans hacc) rfl fun o g => ?_
  refine ⟨(hbanks _ ⟨?_, ?_⟩).1, (hbanks _ ⟨?_, ?_⟩).2.trans hother, ?_, ?_⟩
  any_goals exact rfl
  · show some _ = some _
    unfold newId
    rw [show (accept c 0x38 x).now = x.now from rfl, hx.now, hx.hre]
  · obtain ⟨_, _, _, _, _, hu⟩ := hx.update
    have hq := hx.reserve
    subst hu
    exact with_reserve_banks _ hq rfl

/-- TOPO_SWITCH for one that may not: why it may not is its status. -/
theorem topoSwitch_refused (hx : Taken 0x38 c s x) {k : Bank} (hk : (if bitOf c.a0 0 then Bank.b else .a) = k) {st : Nat}
    (hst : topoRefusal x k (join64 c.a2 c.a3) = some st) :
    ∃ u, exec (.topoSwitch c) s = .next u ∧ Completed 0x38 c st 0 0 s u ∧ u = { commanded s u with now := c.t } := by
  refine hx.refuses ?_
  unfold effTopoSwitch
  rw [hk]
  dsimp only
  rw [hst]

theorem Examined.topoRefusal (h : Examined c s x) (k : Bank) (r : Nat) : topoRefusal x k r =
    (let o := Machine.bankState s (otherBank k)
     if Machine.bankState s k ≠ .inactive then some stRefusedState else if o = .checking ∨ o = .pending then some stRefusedBusy
     else if (Machine.topoStart (atTime c.t s) r).2 - c.t < 40000000 then some stRefusedLate else none) := by
  unfold Machine.topoRefusal
  rw [h.bankState, h.bankState, h.topoStart, h.now]
  simp only [bne_iff_ne, Bool.or_eq_true, beq_iff_eq]

end

/-! ## The check of a bank (R423, R424, R368) -/

theorem mapDom_states (d : Dom) {f : DomSt → DomSt} (s : State) (h : (f (s.dom.get d)).st = (s.dom.get d).st) (e : Dom) :
    ((mapDom d f s).dom.get e).st = (s.dom.get e).st := by
  rw [mapDom_dom]
  by_cases he : e = d
  · rw [he, get_put, h]
  · rw [get_put_ne _ _ he]

/-- A floor raised ahead changes bands and floors, not a domain's state. -/
theorem raiseFloor_states (d : Dom) (f : Nat) (s : State) : ∃ m k, raiseFloor d f s = { s with dom := m, ctr := k } ∧ ∀ e, (m.get e).st = (s.dom.get e).st := by
  have hfloor := mapDom_states d (f := fun x => { x with floor := max x.floor f }) s rfl
  unfold raiseFloor holdFloor orderBand
  dsimp only
  generalize hv : mapDom d (fun x => { x with floor := max x.floor f }) s = v at hfloor ⊢
  have hs : v = { s with dom := v.dom } := by rw [← hv]; rfl
  have hmore : ∀ {g : DomSt → DomSt} (k : Tab Nat), (g (v.dom.get d)).st = (v.dom.get d).st →
      ∃ m c, { mapDom d g v with ctr := k } = { s with dom := m, ctr := c } ∧ ∀ e, (m.get e).st = (s.dom.get e).st :=
    fun {g} k hg => ⟨(mapDom d g v).dom, k, by rw [hs]; rfl, fun e => (mapDom_states d v hg e).trans (hfloor e)⟩
  have hsame : ∃ m c, v = { s with dom := m, ctr := c } ∧ ∀ e, (m.get e).st = (s.dom.get e).st := ⟨v.dom, s.ctr, hs, hfloor⟩
  split
  · split
    · split
      · exact hsame
      · exact hmore (g := fun x => { x with settle := some x.band, band := f, idle := 0 }) _ rfl
    · exact hmore (g := fun x => { x with below := true }) _ rfl
  · exact hsame

theorem raiseAhead_states (k : Bank) (s : State) : ∃ m c, raiseAhead k s = { s with dom := m, ctr := c } ∧ ∀ e, (m.get e).st = (s.dom.get e).st := by
  unfold raiseAhead
  generalize makeActive k s = v
  dsimp only [List.foldl]
  obtain ⟨m0, c0, h0, e0⟩ := raiseFloor_states Port.p0.dom (portFloor v .p0) s
  obtain ⟨m1, c1, h1, e1⟩ := raiseFloor_states Port.p1.dom (portFloor v .p1) { s with dom := m0, ctr := c0 }
  rw [h0, h1]
  split
  · obtain ⟨m2, c2, h2, e2⟩ := raiseFloor_states .field 1 { s with dom := m1, ctr := c1 }
    exact ⟨m2, c2, h2, fun e => (e2 e).trans ((e1 e).trans (e0 e))⟩
  · exact ⟨m1, c1, rfl, fun e => (e1 e).trans (e0 e)⟩

theorem setBankState_update (k : Bank) (st : BankState) (s : State) : ∃ a b, setBankState k st s = { s with pst := { s.pst with bankA := a, bankB := b } } := by
  cases k <;> exact ⟨_, _, rfl⟩

section
variable {t : Int} {w : TopoWait} {s : State} (hw : s.pst.topo = some w)
include hw

/-- A bank that passes its check is PENDING, and its floors are raised ahead. -/
theorem bankCheckDone_passes (hchk : bankState s w.bank = .checking) (hok : bankFails (atTime t s) w = none) :
    exec (.bankCheckDone t) s = settle (raiseAhead w.bank (setBankState w.bank .pending (atTime t s))) := by
  have hst : (bankState (atTime t s) w.bank != .checking) = false := by rw [bne_eq_false_iff_eq]; exact hchk
  show execBankCheckDone t s = _
  unfold execBankCheckDone
  dsimp only
  rw [show (atTime t s).pst.topo = some w from hw]
  dsimp only
  rw [hst, hok]
  rfl

/-- One that fails is INACTIVE, recorded, and its command ends. -/
theorem bankCheckDone_fails {k : Nat} (hchk : bankState s w.bank = .checking) (hbad : bankFails (atTime t s) w = some k) :
    exec (.bankCheckDone t) s = settle (finish w.id stRefusedBank 0 0 (note evBankRefused .aon 2 (w32 (bankNum w.bank)) (bankWord s w.bank 1) (w32 k)
      (setBankState w.bank .inactive { atTime t s with pst := { s.pst with topo := none } }))) := by
  have hst : (bankState (atTime t s) w.bank != .checking) = false := by rw [bne_eq_false_iff_eq]; exact hchk
  show execBankCheckDone t s = _
  unfold execBankCheckDone
  dsimp only
  rw [show (atTime t s).pst.topo = some w from hw]
  dsimp only
  rw [hst, hbad]
  rfl

theorem bankCheckDone_idle (hchk : bankState s w.bank ≠ .checking) : exec (.bankCheckDone t) s = settle (atTime t s) := by
  have hst : (bankState (atTime t s) w.bank != .checking) = true := by rw [bne_iff_ne]; exact hchk
  show execBankCheckDone t s = _
  unfold execBankCheckDone
  dsimp only
  rw [show (atTime t s).pst.topo = some w from hw]
  dsimp only
  rw [hst]
  rfl

end

/-- Settles O28: the refusals of TOPO_SWITCH in their order, and the end of the check by its outcome. -/
theorem bankIsCheckedBeforeItsRound : Obligations.BankIsCheckedBeforeItsRound := by
  unfold Obligations.BankIsCheckedBeforeItsRound
  refine ⟨?switch, ?check⟩
  case switch =>
    intro c s hp
    obtain ⟨x, hx, -⟩ := taken_of_passes hp
    dsimp only
    generalize hk : (if bitOf c.a0 0 then Bank.b else .a) = k
    have hwhy := hx.topoRefusal k (join64 c.a2 c.a3)
    dsimp only at hwhy
    refine ⟨fun hin hbusy hlate => topoSwitch_accepted hx hk ?_, fun hno => ?_⟩
    · rw [hwhy, if_neg (not_not.mpr hin), if_neg hbusy, if_neg (by omega)]
    · by_cases hin : bankState s k = .inactive
      · by_cases hbusy : bankState s (otherBank k) = .checking ∨ bankState s (otherBank k) = .pending
        · rw [if_neg (not_not.mpr hin), if_pos hbusy] at hwhy
          obtain ⟨u, hu, hdone, hframe⟩ := topoSwitch_refused hx hk hwhy
          exact ⟨u, _, hu, hdone, hframe, absurd hin, fun _ _ => rfl, fun _ h => absurd hbusy h⟩
        · have hlate := (hno.resolve_left (not_not.mpr hin)).resolve_left hbusy
          rw [if_neg (not_not.mpr hin), if_neg hbusy, if_pos hlate] at hwhy
          obtain ⟨u, hu, hdone, hframe⟩ := topoSwitch_refused hx hk hwhy
          exact ⟨u, _, hu, hdone, hframe, absurd hin, fun _ h => absurd h hbusy, fun _ _ => rfl⟩
      · rw [if_pos hin] at hwhy
        obtain ⟨u, hu, hdone, hframe⟩ := topoSwitch_refused hx hk hwhy
        exact ⟨u, _, hu, hdone, hframe, fun _ => rfl, fun h => absurd h hin, fun h => absurd h hin⟩
  case check =>
    intro t w s hw
    refine ⟨fun hchk hok => ?_, fun k hchk hbad => ?_, fun hchk => ?_⟩
    · obtain ⟨m, c, hraise, hstates⟩ := raiseAhead_states w.bank (setBankState w.bank .pending (atTime t s))
      have hpend : bankState (setBankState w.bank .pending (atTime t s)) w.bank = .pending := bankState_setBankState ..
      obtain ⟨a, b, hset⟩ := setBankState_update w.bank .pending s
      have hset' : setBankState w.bank .pending (atTime t s) = { atTime t s with pst := (setBankState w.bank .pending s).pst } := by cases w.bank <;> rfl
      refine settles (bankCheckDone_passes hw hchk hok) fun o g => ?_
      rw [hraise]
      refine ⟨hpend, ?_, ?_, fun d => (hstates d).trans ?_, ?_⟩
      · rw [hset', hset]; exact hw
      · rw [hset']; rfl
      · rw [hset']; rfl
      · rw [hset']; rfl
    · have hset : setBankState w.bank .inactive { atTime t s with pst := { s.pst with topo := none } }
          = { atTime t s with pst := { (setBankState w.bank .inactive s).pst with topo := none } } := by cases w.bank <;> rfl
      have hdone := bankCheckDone_fails hw hchk hbad
      rw [hset] at hdone
      generalize hv : note evBankRefused .aon 2 (w32 (bankNum w.bank)) (bankWord s w.bank 1) (w32 k)
        { atTime t s with pst := { (setBankState w.bank .inactive s).pst with topo := none } } = v at hdone
      obtain ⟨i, hi⟩ : ∃ i, v = { atTime t s with pst := { (setBankState w.bank .inactive s).pst with topo := none }, erc := { s.erc with inbox := i } } :=
        ⟨_, hv.symm.trans (note_update ..)⟩
      obtain ⟨a, b, hbank⟩ := setBankState_update w.bank .inactive s
      obtain ⟨c, j, o, g, hfin⟩ := finish_update w.id stRefusedBank 0 0 v
      have hsame : ReadsAlike (atTime t s) v := by rw [hi, hbank]; exact readsAlike_of_same ⟨rfl, rfl, fun _ _ => rfl, rfl, rfl, rfl⟩
      have hhre : v.hre = s.hre := by rw [hi]; rfl
      refine ⟨publish (finish w.id stRefusedBank 0 0 v), hdone, finish_finished hsame hhre (publish_hre_out _) (publish_hre_cplProd _)
        (fun _ h => mem_publish_out h), ?_, fun hup => ?_, ?_⟩
      · rw [publish_pst, hfin, hi]
      · rw [publish_erc]
        refine (finish_stands .x ..).inbox ?_
        rw [← hv, note_up _ _ _ _ _ _ (by exact hup)]
        exact List.mem_append_right _ (List.mem_singleton_self _)
      · obtain ⟨o', g', hpub⟩ := publish_update (finish w.id stRefusedBank 0 0 v)
        rw [hpub, hfin, hi, hbank]
        rfl
    · exact settles (bankCheckDone_idle hw hchk) fun o g => rfl


/-! ## LANE_RETIRE (R189, R199) -/

theorem releaseAlone_own {l m : Lane} (h : m ≠ l) (s : State) : (releaseAlone l s).lcm.comp.lane m = s.lcm.comp.lane m := by
  unfold releaseAlone
  dsimp only
  split
  · rfl
  · exact lane_setLane_ne _ _ h

theorem other_ne (l : Lane) : l ≠ l.other := by cases l <;> decide

/-- A serving lane fallen silent beside one that serves: its condition, its fault, what it had formed, the lead. -/
theorem fallSilent_update (hard : Bool) (id : Option Nat) (l : Lane) (check detail : Nat) (s : State) :
    ∃ i, fallSilent hard id l check detail s =
        { s with erc := { s.erc with inbox := i },
                 lcm := { s.lcm with cond := s.lcm.cond.setLane l .failSilent,
                                     fault := s.lcm.fault.setLane l (some { check := check, hard := hard, round := curRound s, id := id }),
                                     comp := s.lcm.comp.setLane l { (s.lcm.comp.lane l) with rel := [], msgs := [] },
                                     lead := if s.lcm.lead == l && serving s l.other then l.other else s.lcm.lead } }
      ∧ (aonUp s = true → ({ code := evLaneFault, src := 16 * l.dom.num + 2, p0 := w32 l.num, p1 := w32 check,
                             p2 := w32 (b2n hard + 256 * detail), solo := true } : EvIn) ∈ i) := by
  obtain ⟨i, hi, hmem⟩ := noteEv_event { code := evLaneFault, src := 16 * l.dom.num + 2, p0 := w32 l.num, p1 := w32 check,
                                         p2 := w32 (b2n hard + 256 * detail), solo := true } s
  have hsolo : soloNote l evLaneFault 2 (w32 l.num) (w32 check) (w32 (b2n hard + 256 * detail)) s = _ := hi
  refine ⟨i, ?_, hmem⟩
  unfold fallSilent
  rw [hsolo]
  rfl

/-- What happens to a lane leaves the other's condition and the commands' indices, and does not put the lane into service. -/
structure StaysOut (l : Lane) (s u : State) : Prop where
  nextId : u.hre.nextId = s.hre.nextId
  cmdCons : u.hre.cmdCons = s.hre.cmdCons
  other : u.lcm.cond.lane l.other = s.lcm.cond.lane l.other
  own : s.lcm.cond.lane l ≠ .serving → u.lcm.cond.lane l ≠ .serving

section
variable {l : Lane} {s t u : State}

theorem StaysOut.refl (l : Lane) (s : State) : StaysOut l s s := ⟨rfl, rfl, rfl, id⟩

theorem StaysOut.trans (h : StaysOut l s t) (k : StaysOut l t u) : StaysOut l s u :=
  ⟨k.nextId.trans h.nextId, k.cmdCons.trans h.cmdCons, k.other.trans h.other, fun hs => k.own (h.own hs)⟩

theorem StaysOut.of_lcm (hid : u.hre.nextId = s.hre.nextId) (hcons : u.hre.cmdCons = s.hre.cmdCons) (hlcm : u.lcm.cond = s.lcm.cond) : StaysOut l s u :=
  ⟨hid, hcons, by rw [hlcm], fun h => by rw [hlcm]; exact h⟩

theorem note_staysOut (code : Nat) (d : Dom) (b : Nat) (p0 p1 p2 : Word) (s : State) : StaysOut l s (note code d b p0 p1 p2 s) := by
  rw [note_update]; exact .of_lcm rfl rfl rfl

theorem finish_staysOut (id st : Nat) (r0 r1 : Word) (s : State) : StaysOut l s (finish id st r0 r1 s) := by
  obtain ⟨_, _, _, _, h⟩ := finish_update id st r0 r1 s
  rw [h]; exact .of_lcm rfl rfl rfl

theorem setCond_staysOut {c : LaneCond} (hc : c ≠ .serving) (s : State) : StaysOut l s (setCond l c s) :=
  ⟨rfl, rfl, lane_setLane_other .., fun _ => by rw [setCond_lcm, lane_setLane]; exact hc⟩

theorem holdDom_staysOut (d : Dom) (s : State) : StaysOut l s (holdDom d s) := by
  have hhre : (holdDom d s).hre = s.hre := by
    unfold holdDom
    split
    · cases d <;> rfl
    · rfl
  exact .of_lcm (by rw [hhre]) (by rw [hhre]) (congrArg LcmSt.cond (holdDom_control d s).lcm)

theorem openTarget_staysOut (s : State) : StaysOut l s (openTarget l s) := by
  unfold openTarget
  split
  · split
    · refine .trans ?_ (finish_staysOut ..)
      refine .trans ?_ (note_staysOut ..)
      exact .of_lcm rfl rfl rfl
    · exact .refl ..
  · exact .refl ..

/-- A lane's domain enters a state: its key copies go with it. -/
theorem setDom_lane (l : Lane) (st : DState) (s : State) : ∃ x, setDom l.dom st s =
    { s with dom := s.dom.put l.dom { s.dom.get l.dom with st := st, since := s.now }, net := { s.net with rct := s.net.rct.setLane l x } } := by
  cases l <;> exact ⟨_, rfl⟩

/-- What a lane that returns is reset to, beside its domain. -/
def returned (l : Lane) (r : Readmit) (s : State) : State :=
  { s with lcm := { s.lcm with readm := s.lcm.readm.setLane l (some r), cond := s.lcm.cond.setLane l .readmission,
                               comp := s.lcm.comp.setLane l CompSt.reset },
           hen := s.hen.setLane l HenSt.reset, sld := s.sld.setLane l SldSt.reset, rctq := s.rctq.setLane l [] }

/-- A lane that returns: what it was is lost, and its domain runs or ramps. -/
theorem startReadmit_update (l : Lane) (id : Option Nat) (s : State) :
    ∃ i m k x n, startReadmit l id s =
        { returned l { step := 3, id := id, shadow := 0, joined := false, since := s.now } s with
          erc := { s.erc with inbox := i }, dom := m, ctr := k, sec := x, net := { s.net with rct := n } }
      ∧ (m.get l.dom).st = (if (s.dom.get l.dom).st = .off ∨ (s.dom.get l.dom).st = .tripped then .ramp else .active)
      ∧ n.lane l.other = s.net.rct.lane l.other := by
  have hdrop : ∀ v, ∃ x, dropDiag l v = { v with sec := x } := fun v => by
    unfold dropDiag
    split
    · exact ⟨_, rfl⟩
    · exact ⟨v.sec, rfl⟩
  unfold startReadmit
  extract_lets noted r lcm readied cleared
  obtain ⟨x, hx⟩ := hdrop (laneClear l readied)
  have hcleared : cleared = { returned l r s with erc := noted.erc, sec := x, net := { s.net with rct := s.net.rct.setLane l RctSt.reset } } := by
    rw [show cleared = _ from hx]
    unfold readied lcm noted
    rw [note_update]
    rfl
  obtain ⟨i, hi⟩ : ∃ i, noted.erc = { s.erc with inbox := i } := ⟨noted.erc.inbox, by unfold noted; rw [note_update]⟩
  have hnow : r = { step := 3, id := id, shadow := 0, joined := false, since := s.now } := by
    unfold r noted
    rw [note_update]
  have hdom : cleared.dom = s.dom := by rw [hcleared]; rfl
  rw [hi, hnow] at hcleared
  simp only [Bool.or_eq_true, beq_iff_eq, hdom]
  split
  case isTrue h =>
    obtain ⟨y, hy⟩ := setDom_lane l .ramp cleared
    refine ⟨i, _, s.ctr, x, (s.net.rct.setLane l RctSt.reset).setLane l y, by unfold startDom; rw [hy, hcleared]; rfl, ?_, ?_⟩
    · rw [get_put, get_put]
    · rw [lane_setLane_other, lane_setLane_other]
  case isFalse h =>
    obtain ⟨y, hy⟩ := setDom_lane l .active cleared
    obtain ⟨m, k, hm, hst⟩ := raiseFloor_states l.dom 2 (setDom l.dom .active cleared)
    refine ⟨i, m, k, x, (s.net.rct.setLane l RctSt.reset).setLane l y, ?_, (hst l.dom).trans ?_, ?_⟩
    · rw [hm, hy, hcleared]
    · rw [hy]; exact congrArg DomSt.st (get_put ..)
    · rw [lane_setLane_other, lane_setLane_other]

end


section
variable {l : Lane} {s : State}

theorem startReadmit_staysOut (id : Option Nat) (s : State) : StaysOut l s (startReadmit l id s) := by
  obtain ⟨i, m, k, x, n, h, -, -⟩ := startReadmit_update l id s
  rw [h]
  refine ⟨rfl, rfl, lane_setLane_other .., fun _ => ?_⟩
  show (s.lcm.cond.setLane l .readmission).lane l ≠ .serving
  rw [lane_setLane]
  decide

theorem retireLane_staysOut (s : State) : StaysOut l s (retireLane l s) := by
  unfold retireLane
  split
  · exact .refl ..
  case _ f _ =>
  extract_lets reported counted recent lcm recorded held floored finished opened
  have hcounted : StaysOut l s counted := (note_staysOut ..).trans (.of_lcm rfl rfl rfl)
  have hheld : StaysOut l counted held := by
    refine .trans ?_ (holdDom_staysOut ..)
    exact .trans (.of_lcm (u := recorded) rfl rfl rfl) (setCond_staysOut (by decide) _)
  have hfloored : StaysOut l held floored := by
    unfold floored orderBand
    refine .of_lcm ?_ ?_ ?_ <;> (split <;> [(dsimp only; split <;> rfl); rfl])
  have hfinished : StaysOut l floored finished := by
    unfold finished
    split
    · exact finish_staysOut ..
    · exact .refl ..
  have hopened : StaysOut l s opened := hcounted.trans (hheld.trans (hfloored.trans (hfinished.trans (openTarget_staysOut _))))
  split
  · exact hopened.trans (startReadmit_staysOut ..)
  · exact hopened

theorem readmitEnd_staysOut (check : Nat) (hard : Bool) (s : State) : StaysOut l s (readmitEnd l check hard s) := by
  unfold readmitEnd
  split
  · exact .refl ..
  case _ r _ =>
  extract_lets reported finished lcm ended
  have hfinished : StaysOut l s finished := by
    have hreported : StaysOut l s reported := note_staysOut ..
    refine hreported.trans ?_
    unfold finished
    split
    · exact finish_staysOut ..
    · exact .refl ..
  refine hfinished.trans ?_
  exact (StaysOut.of_lcm (s := finished) (u := ended) rfl rfl rfl).trans ((setCond_staysOut (c := .failSilent) (by decide) _).trans (retireLane_staysOut _))

/-- A lane that returns and takes a fault returns no longer (R201). -/
theorem laneFault_returning {check detail : Nat} {s : State} (hc : s.lcm.cond.lane l = .readmission) : StaysOut l s (laneFault l check detail s) := by
  unfold laneFault laneFaultAs
  rw [hc]
  refine .trans ?_ (readmitEnd_staysOut ..)
  unfold soloNote
  rw [noteEv_update]
  exact .of_lcm rfl rfl rfl

end

/-- Settles O31: a lane that serves, by what serves beside it; one that returns; any other. -/
theorem retiredLaneFallsSilent : Obligations.RetiredLaneFallsSilent := by
  unfold Obligations.RetiredLaneFallsSilent
  intro c s hp l
  obtain ⟨x, hx, -⟩ := taken_of_passes hp
  obtain ⟨_, n, _, _, _, hu⟩ := hx.update
  have hlcm : x.lcm = s.lcm := by rw [hu]
  have hserving : ∀ m, serving x m = serving s m := by rw [hu]; exact fun _ => rfl
  refine ⟨fun hc ho => ?serves, fun hc => ?stays, fun hc => ?returns⟩
  case serves =>
    have heff : effLaneRetire c x = releaseAlone l.other (fallSilent true (some (newId x)) l 10 0 (accept c 0x30 x)) := by
      obtain ⟨why, hfault⟩ := laneFaultAs_serving .lanes true (some (newId x)) (l := l) 10 0 (s := accept c 0x30 x) (by rw [← hc, ← hlcm]; rfl)
      unfold effLaneRetire
      dsimp only
      rw [hlcm, show s.lcm.cond.lane (argLane c) = .serving from hc]
      dsimp only
      rw [hserving, show serving s (argLane c).other = true from ho]
      exact hfault.trans (if_pos ((hserving l.other).trans ho))
    obtain ⟨i, hfall, hevent⟩ := fallSilent_update true (some (newId x)) l 10 0 (accept c 0x30 x)
    obtain ⟨cmp, hrel⟩ := releaseAlone_frame l.other (fallSilent true (some (newId x)) l 10 0 (accept c 0x30 x))
    have hown := releaseAlone_own (other_ne l) (fallSilent true (some (newId x)) l 10 0 (accept c 0x30 x))
    rw [hrel] at hown heff
    rw [hfall] at heff hown
    refine hx.accepts heff rfl fun o g => ⟨?_, ?_, ?_, ?_, ?_, fun hup => hevent ?_, ?_⟩
    · exact lane_setLane ..
    · exact (lane_setLane_other ..).trans (by rw [← hlcm]; rfl)
    · have ho' : serving (accept c 0x30 x) l.other = true := (hserving l.other).trans ho
      show (if (x.lcm.lead == l && serving (accept c 0x30 x) l.other) then l.other else x.lcm.lead) = _
      rw [ho', Bool.and_true, hlcm]
      simp only [beq_iff_eq]
    · refine (lane_setLane ..).trans ?_
      rw [show curRound (accept c 0x30 x) = curRound x from rfl, hx.curRound, newId, hx.hre]
    · exact (congrArg CompSt.rel (hown.trans (lane_setLane ..)) :)
    · rw [hu]; exact hup
    · have hq := hx.reserve
      subst hu
      exact with_reserve _ hq
  case stays =>
    refine hx.refuses ?_
    unfold effLaneRetire
    dsimp only
    rw [hlcm, hserving]
    rcases hc with ⟨hc, ho⟩ | hc | hc <;> rw [show s.lcm.cond.lane (argLane c) = _ from hc]
    dsimp only
    rw [show serving s (argLane c).other = false from ho]
    rfl
  case returns =>
    have hreturns : StaysOut l (accept c 0x30 x) (laneFault l 10 0 (accept c 0x30 x)) := laneFault_returning (by rw [← hc, ← hlcm]; rfl)
    have heff : effLaneRetire c x = finish (newId x) stApplied (roundLo (laneFault l 10 0 (accept c 0x30 x))) 0 (laneFault l 10 0 (accept c 0x30 x)) := by
      unfold effLaneRetire
      dsimp only
      rw [hlcm, show s.lcm.cond.lane (argLane c) = .readmission from hc]
    generalize laneFault l 10 0 (accept c 0x30 x) = v at hreturns heff
    obtain ⟨hid, hcons, hother, hown⟩ := hreturns
    have hnew : newId x = s.hre.nextId + 1 := by rw [newId, hx.hre]
    obtain ⟨k, i, w, g, hfin⟩ := finish_update (newId x) stApplied (roundLo v) 0 v
    refine settles ((hx.exec _).trans (congrArg settle (heff.trans hfin))) fun o g => ⟨?_, ?_, ?_, ?_, ?_⟩
    · exact hcons.trans (congrArg HreSt.cmdCons hx.hre)
    · exact hid.trans hnew
    · exact hnew ▸ find_filtered ..
    · refine hown ?_
      show x.lcm.cond.lane l ≠ _
      rw [hlcm, hc]
      decide
    · exact hother.trans (by rw [← hlcm]; rfl)


/-! ## LANE_READMIT (R200, R201) -/

section
variable {c : HostCmd} {s x : State} (hx : Taken 0x31 c s x)
include hx

/-- A retired lane beside one that serves returns. -/
theorem laneReadmit_returns (hc : s.lcm.cond.lane (argLane c) = .retired) (ho : serving s (argLane c).other = true) :
    let l := argLane c
    ∃ u, exec (.laneReadmit c) s = .next u ∧ Accepted 0x31 c s u ∧ u.lcm.cond.lane l = .readmission
      ∧ u.lcm.readm.lane l = some { step := 3, id := some (s.hre.nextId + 1), shadow := 0, joined := false, since := c.t }
      ∧ (u.dom.get l.dom).st = (if (s.dom.get l.dom).st = .off ∨ (s.dom.get l.dom).st = .tripped then .ramp else .active)
      ∧ u.hen.lane l = HenSt.reset ∧ u.sld.lane l = SldSt.reset ∧ u.hen.lane l.other = s.hen.lane l.other ∧ u.sld.lane l.other = s.sld.lane l.other
      ∧ u.net.rct.lane l.other = s.net.rct.lane l.other ∧ u.lcm.cond.lane l.other = s.lcm.cond.lane l.other := by
  obtain ⟨_, _, _, _, _, hu⟩ := hx.update
  have hlcm : x.lcm = s.lcm := by rw [hu]
  have hdom : x.dom = s.dom := by rw [hu]
  have hserves : serving x (argLane c).other = true := by rw [hu]; exact ho
  have heff : effLaneReadmit c x = startReadmit (argLane c) (some (newId x)) (accept c 0x31 x) := by
    unfold effLaneReadmit
    dsimp only
    rw [hlcm, hc]
    dsimp only
    rw [hserves]
    rfl
  obtain ⟨i, m, k, y, n, hstart, hst, hother⟩ := startReadmit_update (argLane c) (some (newId x)) (accept c 0x31 x)
  refine hx.accepts (heff.trans hstart) rfl fun o g => ⟨?_, ?_, ?_, ?_, ?_, ?_, ?_, ?_, ?_⟩
  · exact lane_setLane ..
  · refine (lane_setLane ..).trans ?_
    rw [newId, hx.hre, show (accept c 0x31 x).now = x.now from rfl, hx.now]
  · refine hst.trans ?_
    rw [show (accept c 0x31 x).dom = s.dom from hdom]
  · exact lane_setLane ..
  · exact lane_setLane ..
  · exact (lane_setLane_other ..).trans (by rw [hu]; rfl)
  · exact (lane_setLane_other ..).trans (by rw [hu]; rfl)
  · exact hother.trans (by rw [hu]; rfl)
  · exact (lane_setLane_other ..).trans (by rw [hu]; rfl)

/-- During an automatic re-admission the command waits for that one. -/
theorem laneReadmit_joins {r : Readmit} (hc : s.lcm.cond.lane (argLane c) = .readmission) (hr : s.lcm.readm.lane (argLane c) = some r)
    (hid : r.id = none) :
    ∃ u, exec (.laneReadmit c) s = .next u ∧ Accepted 0x31 c s u
      ∧ u = { commanded s u with now := c.t, lcm := { s.lcm with readm := s.lcm.readm.setLane (argLane c) (some { r with id := some (s.hre.nextId + 1) }) } } := by
  obtain ⟨_, _, _, _, _, hu⟩ := hx.update
  have hlcm : x.lcm = s.lcm := by rw [hu]
  have hnew : newId x = s.hre.nextId + 1 := by rw [newId, hx.hre]
  have heff : effLaneReadmit c x = { accept c 0x31 x with
      lcm := { s.lcm with readm := s.lcm.readm.setLane (argLane c) (some { r with id := some (newId x) }) } } := by
    unfold effLaneReadmit
    dsimp only
    rw [hlcm, hc, hr]
    dsimp only
    rw [hid]
    rw [if_neg (by decide)]
    show State.mk .. = State.mk ..
    rw [show (accept c 0x31 x).lcm = s.lcm from hlcm]
  rw [hnew] at heff
  refine hx.accepts heff rfl fun o g => ?_
  have hq := hx.reserve
  subst hu
  exact with_reserve _ hq

theorem laneReadmit_refused (hno : (s.lcm.cond.lane (argLane c) = .retired ∧ serving s (argLane c).other = false)
      ∨ s.lcm.cond.lane (argLane c) = .serving ∨ s.lcm.cond.lane (argLane c) = .failSilent
      ∨ (s.lcm.cond.lane (argLane c) = .readmission ∧ ∀ r, s.lcm.readm.lane (argLane c) = some r → r.id ≠ none)) :
    ∃ u, exec (.laneReadmit c) s = .next u ∧ Completed 0x31 c stRefusedState 0 0 s u ∧ u = { commanded s u with now := c.t } := by
  obtain ⟨_, _, _, _, _, hu⟩ := hx.update
  have hlcm : x.lcm = s.lcm := by rw [hu]
  have hserving : serving x (argLane c).other = serving s (argLane c).other := by rw [hu]; rfl
  refine hx.refuses ?_
  unfold effLaneReadmit
  dsimp only
  rw [hlcm, hserving]
  rcases hno with ⟨hc, ho⟩ | hc | hc | ⟨hc, hid⟩
  · rw [hc, ho]; rfl
  · rw [hc]
  · rw [hc]
  · rw [hc]
    cases hr : s.lcm.readm.lane (argLane c) with
    | none => rfl
    | some r => exact if_pos (Option.isSome_iff_ne_none.mpr (hid r hr))

end

/-- For the target of a session at D2 it is refused (R317 check 5, R396). -/
theorem laneReadmit_forTarget {c : HostCmd} {s : State} (hx : examinable c (atTime c.t s) = true) (hargs : argsOk 0x31 c = true)
    (hpower : s.bsc.power ≠ .safehalt) (hlevel : s.sec.level = 2) (htarget : s.sec.target = argLane c) :
    ∃ u, exec (.laneReadmit c) s = .next u ∧ Completed 0x31 c stRefusedLifecycle 0 0 s u ∧ u.sec = s.sec ∧ u.pst = s.pst
      ∧ u = { commanded s u with now := c.t } := by
  have hlevelOk : levelOk (takeCmd c (atTime c.t s)) 0x31 c = false := by
    unfold levelOk
    rw [show (takeCmd c (atTime c.t s)).sec = s.sec from rfl, hlevel, htarget]
    cases argLane c <;> rfl
  have hexam : examine 0x31 c (takeCmd c (atTime c.t s)) = (some stRefusedLifecycle, takeCmd c (atTime c.t s)) := by
    have hp : ((takeCmd c (atTime c.t s)).bsc.power == .safehalt) = false := beq_eq_false_iff_ne.mpr hpower
    have hat : argsAt (takeCmd c (atTime c.t s)) 0x31 c = true := by simp only [argsAt]
    have hop : opcodeList.contains 0x31 = true := by decide
    unfold examine
    rw [hop, hargs, hat, hp, hlevelOk, Bool.not_false, Bool.or_true]
    rfl
  obtain ⟨u, hu, hdone, hsec, hpst, hframe, -⟩ := refused_by_sec (eff := effLaneReadmit) (k := s.ctr) (i := s.erc.inbox) hx hexam
  exact ⟨u, hu, hdone, hsec, hpst, hframe⟩


/-! ### READMIT_SELFTEST_DONE (R201) -/

section
variable {t : Int} {l : Lane} {r : Readmit} {s : State} (hr : s.lcm.readm.lane l = some r)
include hr

theorem readmitSelftest_idle (ok : Bool) (h : r.step ≠ 3 ∨ active s l.dom = false) : exec (.readmitSelftestDone t l ok) s = settle (atTime t s) := by
  show execReadmitSelftestDone t l ok s = _
  unfold execReadmitSelftestDone
  dsimp only
  rw [show (atTime t s).lcm.readm.lane l = some r from hr]
  refine if_pos ?_
  rw [Bool.or_eq_true, decide_eq_true_eq, Bool.not_eq_true']
  exact h

theorem readmitSelftest_passes (h3 : r.step = 3) (ha : active s l.dom = true) : exec (.readmitSelftestDone t l true) s =
    settle (copyLane l (rctStart l (copyLaneRegs l (mapReadmit l (fun r => { r with step := 4 }) (setKeys l (loadedKeys s.sec) (atTime t s)))))) := by
  have hdue : (decide (r.step ≠ 3) || !active (atTime t s) l.dom) = false := by
    rw [show active (atTime t s) l.dom = true from ha, h3]; rfl
  show execReadmitSelftestDone t l true s = _
  unfold execReadmitSelftestDone
  dsimp only
  rw [show (atTime t s).lcm.readm.lane l = some r from hr]
  dsimp only
  rw [hdue]
  rfl

theorem readmitSelftest_fails (h3 : r.step = 3) (ha : active s l.dom = true) :
    exec (.readmitSelftestDone t l false) s = settle (laneFault l 8 0 (atTime t s)) := by
  have hdue : (decide (r.step ≠ 3) || !active (atTime t s) l.dom) = false := by
    rw [show active (atTime t s) l.dom = true from ha, h3]; rfl
  show execReadmitSelftestDone t l false s = _
  unfold execReadmitSelftestDone
  dsimp only
  rw [show (atTime t s).lcm.readm.lane l = some r from hr]
  dsimp only
  rw [hdue]
  rfl

omit hr in
/-- A retirement after a HARD fault begins no re-admission. -/
theorem retireLane_hard {f : LFault} {s : State} (hf : s.lcm.fault.lane l = some f) (hhard : f.hard = true) :
    (retireLane l s).lcm.readm = s.lcm.readm := by
  unfold retireLane
  split
  case _ => rfl
  case _ g hsome =>
  obtain rfl : f = g := Option.some.inj (hf.symm.trans hsome)
  extract_lets reported counted recent lcm recorded held floored finished opened
  have hreported : reported.lcm = s.lcm := (note_control ..).lcm
  have hheld : held.lcm.readm = s.lcm.readm := by
    rw [show held.lcm = _ from (holdDom_control ..).lcm]
    show counted.lcm.readm = s.lcm.readm
    exact (congrArg LcmSt.readm hreported :)
  have hfloored : floored.lcm = held.lcm := by
    unfold floored orderBand
    split <;> [(dsimp only; split <;> rfl); rfl]
  have hfinished : finished.lcm = floored.lcm := by
    unfold finished
    split
    · exact (finish_control ..).lcm
    · rfl
  have hopened : opened.lcm.readm = s.lcm.readm := by
    rw [show opened.lcm = _ from (openTarget_stands l finished).lcm, hfinished, hfloored, hheld]
  rw [hhard]
  exact hopened

omit hr in
/-- A returning lane whose self-test fails is retired for good. -/
theorem laneFault_selftest {s : State} (hc : s.lcm.cond.lane l = .readmission) (hr : s.lcm.readm.lane l = some r) :
    (laneFault l 8 0 s).lcm.cond.lane l = .retired ∧ (laneFault l 8 0 s).lcm.readm.lane l = none := by
  unfold laneFault laneFaultAs
  rw [hc]
  dsimp only
  unfold readmitEnd
  have hsolo : (soloNote l evLaneFault 2 (w32 l.num) (w32 8) (w32 (b2n (8 == 8) + 256 * 0)) s).lcm = s.lcm := by
    unfold soloNote; rw [noteEv_update]
  split
  case _ hnone => rw [hsolo, hr] at hnone; cases hnone
  extract_lets reported finished lcm ended
  have hfault : (setCond l .failSilent ended).lcm.fault.lane l = some { check := 8, hard := true, round := curRound finished, id := none } := lane_setLane ..
  obtain ⟨-, hcond, -, -, -⟩ := retireLane_retires hfault (.inl rfl)
  refine ⟨by rw [hcond, lane_setLane], ?_⟩
  rw [retireLane_hard hfault rfl]
  exact lane_setLane ..

end

/-- Settles O32: LANE_READMIT by the lane's condition, and the self-test in step 3 by its outcome. -/
theorem returningLaneTakesServingSlates : Obligations.ReturningLaneTakesServingSlates := by
  unfold Obligations.ReturningLaneTakesServingSlates
  refine ⟨?readmit, ?target, ?selftest⟩
  case readmit =>
    intro c s hp
    obtain ⟨x, hx, -⟩ := taken_of_passes hp
    exact ⟨laneReadmit_returns hx, fun r => laneReadmit_joins hx, laneReadmit_refused hx⟩
  case target =>
    intro c s hx hargs hpower hlevel htarget
    exact laneReadmit_forTarget hx hargs hpower hlevel htarget
  case selftest =>
    intro t l r s hr
    refine ⟨fun h3 ha => ?passes, fun h3 ha hc => ?fails, fun ok hno => ?idle⟩
    case passes =>
      refine settles (readmitSelftest_passes hr h3 ha) fun o g => ⟨?_, ?_, ?_, ?_, ?_, fun o => ?_, ?_⟩
      · refine Eq.trans (b := (((s.lcm.readm.lane l).map (fun r => { r with step := 4 })))) ?_ (by rw [hr]; rfl)
        cases l <;> rfl
      all_goals (cases l <;> rfl)
    case fails =>
      obtain ⟨hcond, hreadm⟩ := laneFault_selftest (s := atTime t s) hc hr
      have hstays := laneFault_returning (check := 8) (detail := 0) (s := atTime t s) hc
      exact settles (readmitSelftest_fails hr h3 ha) fun o g => ⟨hcond, hreadm, hstays.other⟩
    case idle =>
      exact settles (readmitSelftest_idle hr ok hno) fun o g => rfl

end Sys2Proof.Proofs
end

section
/-!
PROOFS. The comparison of a tick and BLOCK_RELEASE (R192 to R195, R377): a refutation.
-/

namespace Sys2Proof.Proofs
open Sys2Proof.Machine Sys2Proof.Laws

/-! ## The comparison of a tick and BLOCK_RELEASE (R192 to R195, R377) -/

/-- A count message whose SOLO is set already is formed again as it is. -/
theorem soloWords_soloWords {ws : List Word} (h : ws.length = 69) : soloWords (soloWords ws) = soloWords ws := by
  obtain ⟨a, b, c, d, r, rfl⟩ : ∃ a b c d r, ws = a :: b :: c :: d :: r := by
    match ws, h with
    | a :: b :: c :: d :: r, _ => exact ⟨a, b, c, d, r, rfl⟩
  have hr : (r.take 64).length = 64 := by
    rw [List.length_take]
    simp only [List.length_cons] at h
    omega
  have hform : ∀ (d : Word) (r : List Word), soloWords (a :: b :: c :: d :: r)
      = a :: b :: c :: (d ||| 1) :: (r.take 64 ++ [crc32cWords (a :: b :: c :: (d ||| 1) :: r.take 64)]) := fun _ _ => rfl
  rw [hform, hform, List.take_left' hr, BitVec.or_assoc, BitVec.or_self]

/-- A count message of 64 entries, SOLO set. -/
def soloMessage : List Word := soloWords (List.replicate 69 0)

theorem soloMessage_solo : soloWords soloMessage = soloMessage := soloWords_soloWords (List.length_replicate ..)

/-- A lane that serves alone, with two count messages formed of which the second is the earlier block's; SOLO is set already in that one. -/
def disordered : State :=
  { State.reset with
    dom := { State.reset.dom with lanex := { State.reset.dom.lanex with st := .active } },
    lcm := { State.reset.lcm with
             comp := State.reset.lcm.comp.setLane .x { CompSt.reset with rel := [0], msgs := [(1, [1]), (0, soloMessage)] } } }

/-- The message released is written anew before the later block's, and the table of messages grows. -/
theorem disordered_released : ∃ u, exec (.blockRelease 0 .x 0 true true) disordered = .next u ∧ u.lcm.comp.a.msgs.length = 3 :=
  ⟨_, rfl, rfl⟩

/-- Refutes O33: a message that has SOLO already is formed again as it is, and so by the statement the lane's messages stay as they are; in a table whose
keys do not rise, the model's write of it adds an entry. -/
theorem not_lanesCompareBeforeRelease : ¬ Obligations.LanesCompareBeforeRelease := by
  unfold Obligations.LanesCompareBeforeRelease
  rintro ⟨-, hrelease⟩
  obtain ⟨u, hu, hlcm, -⟩ := (hrelease 0 .x 0 true true disordered).1 ⟨rfl, List.mem_singleton_self _⟩
  obtain ⟨v, hv, hthree⟩ := disordered_released
  obtain rfl : u = v := by rw [hu] at hv; injection hv
  have hold : tget [] (0 : Fin 64).val (disordered.lcm.comp.lane .x).msgs = soloMessage := rfl
  have halone : ¬ (soloMessage = [] ∨ serving disordered Lane.x.other = true) := by
    rintro (h | h) <;> cases h
  rw [hold, if_neg halone, soloMessage_solo, if_pos rfl] at hlcm
  have htwo : u.lcm.comp.a.msgs.length = 2 := congrArg (fun x : LcmSt => x.comp.a.msgs.length) hlcm
  rw [hthree] at htwo
  cases htwo


/-! ## SURVEY and SWEEP_CAL (R216, R222) -/

theorem with_same {u v : State} {a : SecSt} {p : PstSt} (h : u = v) (hsec : u.sec = a) (hpst : u.pst = p) : u = { v with sec := a, pst := p } := by
  subst h hsec hpst
  rfl

section
variable {op : Nat} {c : HostCmd} {s : State}

/-- A command of class U that its effect refuses changes nothing but its completion. -/
theorem refuses_classU {eff : HostCmd → State → State} {st : Nat} (h : Passes op c s) (hU : classF op = false)
    (heff : eff c (takeCmd c (atTime c.t s)) = refuse op c st (takeCmd c (atTime c.t s))) :
    ∃ u, hostCommand op eff c s = .next u ∧ Completed op c st 0 0 s u ∧ u = { commanded s u with now := c.t, sec := s.sec, pst := s.pst } :=
  (taken_classU h hU).completes heff (.refl _) (.of_eq rfl) fun _ _ _ _ => rfl

/-- The survey that SURVEY asks for. -/
def surveyAsked (c : HostCmd) (id : Nat) : Survey :=
  { id := id, bin := bitOf c.a0 8, ba := fld c.a1 15 0, nb := 64 * fld c.a1 31 16, lines := c.a2.toNat, buf := argBuf c, begun := false, taken := 0,
    missed := 0, terms := [], bins := [] }

theorem effSurvey_running {x : State} {q : Plan} (hq : (x.stg.port (argPort c)).plan = some q) (hrun : (x.stg.port (argPort c)).run ≠ 0) :
    effSurvey c x = if (x.cal.survey.port (argPort c)).isSome then refuse 0x40 c stRefusedBusy x
      else { accept c 0x40 x with cal := { x.cal with survey := x.cal.survey.setPort (argPort c) (some (surveyAsked c (newId x))) } } := by
  unfold effSurvey
  dsimp only
  rw [hq]
  exact if_neg hrun

theorem effSurvey_stopped {x : State} (h : (x.stg.port (argPort c)).plan = none ∨ (x.stg.port (argPort c)).run = 0) :
    effSurvey c x = refuse 0x40 c stRefusedState x := by
  unfold effSurvey
  dsimp only
  split
  · rfl
  case _ q hq => exact if_pos (h.resolve_left (by rw [hq]; exact Option.some_ne_none q))

/-- A survey whose bins leave the window of the port's plan is refused at check 3. -/
theorem survey_outside {q : Plan} (hx : examinable c (atTime c.t s) = true) (hargs : argsOk 0x40 c = true) (hq : (s.stg.port (argPort c)).plan = some q)
    (hout : fld c.a1 15 0 < q.b0 ∨ q.b0 + q.nbins < fld c.a1 15 0 + 64 * fld c.a1 31 16) :
    ∃ u, exec (.survey c) s = .next u ∧ Completed 0x40 c stRefusedArgument 0 0 s u ∧ u = { commanded s u with now := c.t, sec := s.sec, pst := s.pst } := by
  have hat : argsAt (takeCmd c (atTime c.t s)) 0x40 c = false := by
    unfold argsAt
    rw [show ((takeCmd c (atTime c.t s)).stg.port (argPort c)).plan = some q from hq]
    show (decide _ && decide _) = false
    rw [Bool.and_eq_false_iff, decide_eq_false_iff_not, decide_eq_false_iff_not, not_le, not_le]
    exact hout
  have hop : opcodeList.contains 0x40 = true := by decide
  have hexam : examine 0x40 c (takeCmd c (atTime c.t s)) = (some stRefusedArgument, takeCmd c (atTime c.t s)) := by
    unfold examine
    rw [hop, hargs, hat]
    rfl
  obtain ⟨u, hu, hdone, hsec, hpst, hframe, -⟩ := refused_by_sec (eff := effSurvey) (k := s.ctr) (i := s.erc.inbox) hx hexam
  exact ⟨u, hu, hdone, with_same hframe hsec hpst⟩

end

/-- What is formed of a sweep's heads draws what was not seen, and changes nothing else. -/
theorem sweepRecord_update (x : Sweep) (h : Nat) (r : HeadRec) (s : State) : ∃ n, (sweepRecord x h r s).2 = { s with free := n } ∧ (sweepRecord x h r s).1.length = 8 := by
  have hseen : ∀ v (s : State), ∃ n, (seenOr v s).2 = { s with free := n } := fun v s => by
    cases v
    · exact ⟨_, rfl⟩
    · exact ⟨s.free, rfl⟩
  have hfirst : ∀ (v : Option Int) (f : Int → Word) (s : State), ∃ n, (match v with | some t => (f t, s) | none => draw s).2 = { s with free := n } := fun v f s => by
    cases v
    · exact ⟨_, rfl⟩
    · exact ⟨s.free, rfl⟩
  unfold sweepRecord
  extract_lets y a b d f1 f2 v1 v2 st m
  have ha : ∃ n, a.2 = { s with free := n } := hseen ..
  have hb : ∃ n, b.2 = { a.2 with free := n } := hseen ..
  have hd : ∃ n, d.2 = { b.2 with free := n } := hseen ..
  have h1 : ∃ n, f1.2 = { d.2 with free := n } := hfirst y.first lo32 d.2
  have h2 : ∃ n, f2.2 = { f1.2 with free := n } := hfirst y.first hi32 f1.2
  have hv1 : ∃ n, v1.2 = { f2.2 with free := n } := hseen ..
  have hv2 : ∃ n, v2.2 = { v1.2 with free := n } := hseen ..
  clear_value st m v2 v1 f2 f1 d b a y
  obtain ⟨_, ha⟩ := ha
  obtain ⟨_, hb⟩ := hb
  obtain ⟨_, hd⟩ := hd
  obtain ⟨_, h1⟩ := h1
  obtain ⟨_, h2⟩ := h2
  obtain ⟨_, hv1⟩ := hv1
  obtain ⟨n, hv2⟩ := hv2
  refine ⟨n, ?_, rfl⟩
  show v2.2 = _
  rw [hv2, hv1, h2, h1, hd, hb, ha]

/-- The records of a sweep, eight words for each head. -/
theorem sweepRecords_update (x : Sweep) (hs : List (Nat × HeadRec)) (ws : List Word) (s : State) :
    let r := hs.foldl (fun (a : List Word × State) e => let y := sweepRecord x e.1 e.2 a.2; (a.1 ++ y.1, y.2)) (ws, s)
    (∃ n, r.2 = { s with free := n }) ∧ r.1.length = ws.length + 8 * hs.length := by
  induction hs generalizing ws s with
  | nil => exact ⟨⟨s.free, rfl⟩, rfl⟩
  | cons e hs ih =>
    obtain ⟨n, hn, hlen⟩ := sweepRecord_update x e.1 e.2 s
    obtain ⟨⟨m, hm⟩, hmore⟩ := ih (ws ++ (sweepRecord x e.1 e.2 s).1) (sweepRecord x e.1 e.2 s).2
    refine ⟨⟨m, ?_⟩, ?_⟩
    · rw [List.foldl_cons]; exact hm.trans (by rw [hn])
    · rw [List.foldl_cons]
      refine hmore.trans ?_
      rw [List.length_append, hlen, List.length_cons]
      omega


/-- The heads of a sweep. -/
def sweepHeads (x : Sweep) (s : State) : List (Nat × HeadRec) := (heads s).filter (fun e => x.first ≤ e.1 && e.1 < x.first + x.count)

theorem sweepClose_due {x : Sweep} {s : State} (hx : s.cal.sweep = some x) (hwords : x.words = none) (hdue : x.endAt ≤ s.now) :
    ∃ ws n, sweepClose s = { s with cal := { s.cal with sweep := some { x with words := some ws } }, free := n } ∧ ws.length = 8 * (sweepHeads x s).length := by
  have hopen : (decide (s.now < x.endAt) || x.words.isSome) = false := by
    rw [hwords, decide_eq_false (by omega)]; rfl
  unfold sweepClose
  rw [hx]
  dsimp only
  rw [hopen, if_neg (by decide)]
  obtain ⟨⟨n, hn⟩, hlen⟩ := sweepRecords_update x (sweepHeads x s) [] s
  unfold sweepHeads at hn hlen ⊢
  dsimp only at hn hlen
  rw [hn]
  exact ⟨_, n, rfl, hlen.trans (Nat.zero_add _)⟩

theorem sweepClose_early {x : Sweep} {s : State} (hx : s.cal.sweep = some x) (hearly : s.now < x.endAt) : sweepClose s = s := by
  unfold sweepClose
  rw [hx]
  exact if_pos (by rw [decide_eq_true hearly]; rfl)

/-- The last quantum of a sweep writes its records and ends it. -/
theorem sweepServe_whole {x : Sweep} {ws : List Word} {j : Job} {n : Nat} {s : State} (hx : s.cal.sweep = some { x with words := some ws })
    (hlen : ws.length = 8 * n) (hpos : j.pos = 0) :
    ∃ o, (sweepServe (4 * ws.length) j s).2.2 = finish x.id stApplied (w32 n) 0 { s with out := s.out ++ o, cal := { s.cal with sweep := none } } := by
  have hroom : min (4 * ws.length / 32) (ws.length / 8 - j.pos) = n := by rw [hlen, hpos]; omega
  have hdone : ¬ (j.pos + n < ws.length / 8) := by rw [hlen, hpos]; omega
  have hwrite : ∃ o, (if n = 0 then s else hostWrite (x.buf + 32 * j.pos) (wordsBytes ((ws.drop (8 * j.pos)).take (8 * n))) s) = { s with out := s.out ++ o } := by
    split
    · exact ⟨[], by rw [List.append_nil]⟩
    · exact hostWrite_update ..
  obtain ⟨o, ho⟩ := hwrite
  refine ⟨o, ?_⟩
  unfold sweepServe
  rw [hx]
  dsimp only
  rw [hroom, ho, if_neg hdone, hpos, Nat.zero_add]

/-- SWEEP_CAL's job is the one of its id that is queued or runs. -/
def sweepJob (s : State) (x : Sweep) : Option Job := (s.bsc.jobs ++ s.bsc.running).find? (fun j => j.id == x.id)

theorem sweepMayRun_iff (s : State) (id : Nat) :
    sweepMayRun s id = true ↔ leanCause s.bsc = false ∧ ∀ k ∈ s.bsc.running, k.res = .lanes → k.id = id := by
  unfold sweepMayRun
  rw [Bool.and_eq_true, Bool.not_eq_true', List.all_eq_true]
  refine and_congr_right fun _ => forall₂_congr fun k _ => ?_
  rw [Bool.or_eq_true, bne_iff_ne, beq_iff_eq]
  exact ⟨fun h hres => h.resolve_left (not_not.mpr hres), fun h => or_iff_not_imp_left.mpr fun hres => h (not_not.mp hres)⟩

section
variable {t : Int} {x : Sweep} {s : State} (hx : s.cal.sweep = some x)
include hx

theorem sweepCalEnd_due {j : Job} (hwords : x.words = none) (hdue : x.endAt ≤ t) (hjob : sweepJob s x = some j) :
    ∃ ws n, ws.length = 8 * (sweepHeads x s).length
      ∧ exec (.sweepCalEnd t) s = (let v := { atTime t s with cal := { s.cal with sweep := some { x with words := some ws } }, free := n }
          if sweepMayRun s x.id then settle (bump 0xEC40 (sweepServe (4 * ws.length) j (dropJob j v)).2.2) else settle v) := by
  obtain ⟨ws, n, hclose, hlen⟩ := sweepClose_due (s := atTime t s) hx hwords hdue
  refine ⟨ws, n, hlen, ?_⟩
  unfold sweepJob at hjob
  show execSweepCalEnd t s = _
  unfold execSweepCalEnd
  dsimp only
  rw [hclose]
  dsimp only
  rw [show (atTime t s).bsc = s.bsc from rfl, hjob]
  rfl

theorem sweepCalEnd_early (hwords : x.words = none) (hearly : t < x.endAt) : exec (.sweepCalEnd t) s = settle (atTime t s) := by
  have hclose := sweepClose_early (s := atTime t s) hx hearly
  show execSweepCalEnd t s = _
  unfold execSweepCalEnd
  dsimp only
  rw [hclose, show (atTime t s).cal.sweep = some x from hx]
  dsimp only
  rw [hwords]
  generalize List.find? _ _ = job
  cases job <;> rfl

end

theorem sweepCalEnd_none {t : Int} {s : State} (hx : s.cal.sweep = none) : exec (.sweepCalEnd t) s = settle (atTime t s) := by
  have hclose : sweepClose (atTime t s) = atTime t s := by
    unfold sweepClose
    rw [show (atTime t s).cal.sweep = none from hx]
  show execSweepCalEnd t s = _
  unfold execSweepCalEnd
  dsimp only
  rw [hclose, show (atTime t s).cal.sweep = none from hx]

/-- Settles O34: acceptance and refusals of the two commands, and the end of a sweep by whether LANES is free. -/
theorem surveysAndSweepsWait : Obligations.SurveysAndSweepsWait := by
  unfold Obligations.SurveysAndSweepsWait
  refine ⟨?outside, ?survey, ?sweep, ?ended⟩
  case outside => exact fun c s q hx hargs hq hout => survey_outside hx hargs hq hout
  case survey =>
    intro c s hp
    dsimp only
    refine ⟨fun hno => refuses_classU hp rfl (effSurvey_stopped hno), fun q hq hrun hbusy => refuses_classU hp rfl ?_, fun q hq hrun hfree => ?_⟩
    · exact (effSurvey_running (x := takeCmd c (atTime c.t s)) hq hrun).trans (if_pos (Option.isSome_iff_ne_none.mpr hbusy))
    · have heff := (effSurvey_running (x := takeCmd c (atTime c.t s)) (c := c) hq hrun).trans
        (if_neg (by rw [show (takeCmd c (atTime c.t s)).cal.survey.port (argPort c) = none from hfree]; decide))
      exact (taken_classU hp rfl).accepts heff rfl fun o g => rfl
  case sweep =>
    intro c s hp
    refine ⟨fun hfree => ?_, fun hbusy => refuses_classU hp rfl ?_⟩
    · refine (taken_classU hp rfl).accepts (if_neg ?_) rfl fun o g => rfl
      rw [show (takeCmd c (atTime c.t s)).cal.sweep = none from hfree]
      decide
    · exact if_pos (Option.isSome_iff_ne_none.mpr hbusy)
  case ended =>
    intro t s
    refine ⟨fun x j hx hwords hdue hjob => ?_, fun hno => ?_⟩
    · obtain ⟨ws, n, hlen, hexec⟩ := sweepCalEnd_due hx hwords hdue hjob
      refine ⟨fun hpos hlean hfree => ?_, fun hbusy => ?_⟩
      · obtain ⟨o, hserve⟩ := sweepServe_whole (x := x) (ws := ws) (j := j)
          (s := dropJob j { atTime t s with cal := { s.cal with sweep := some { x with words := some ws } }, free := n }) rfl hlen hpos
        have hmay := hexec.trans (if_pos ((sweepMayRun_iff ..).mpr ⟨hlean, hfree⟩))
        rw [hserve] at hmay
        generalize hv : ({ dropJob j _ with out := _, cal := _ } : State) = v at hmay
        have hsame : ReadsAlike (atTime t s) v := hv ▸ ⟨rfl, rfl, rfl, fun _ _ => rfl, rfl, rfl, rfl⟩
        have hhre : v.hre = s.hre := hv ▸ rfl
        obtain ⟨k, i, w, g, hfin⟩ := finish_update x.id stApplied (w32 (sweepHeads x s).length) 0 v
        obtain ⟨o', g', hpub⟩ := publish_update (bump 0xEC40 (finish x.id stApplied (w32 (sweepHeads x s).length) 0 v))
        refine ⟨_, hmay, finish_finished hsame hhre (publish_hre_out _) (publish_hre_cplProd _) (fun _ h => mem_publish_out h), ?_⟩
        rw [hpub, hfin, ← hv]
        rfl
      · have hwait : ¬ sweepMayRun s x.id = true := by
          rw [sweepMayRun_iff]
          rintro ⟨hl, hk⟩
          rcases hbusy with hlean | ⟨k, hmem, hres, hid⟩
          · rw [hl] at hlean; cases hlean
          · exact hid (hk k hmem hres)
        obtain ⟨u, o, g, hu, hframe⟩ := settled (hexec.trans (if_neg hwait))
        exact ⟨u, ws, hu, hlen, hframe ▸ rfl⟩
    · rcases hno with hx | ⟨x, hx, hwords, hearly⟩
      · exact settles (sweepCalEnd_none hx) fun o g => rfl
      · exact settles (sweepCalEnd_early hx hwords hearly) fun o g => rfl


/-! ## Seeds (R224) -/

section
variable {c : HostCmd} {s x : State}

theorem Examined.activeBank (h : Examined c s x) : activeBank x = Machine.activeBank s := by
  unfold Machine.activeBank
  rw [show x.pst.bankA = s.pst.bankA from h.bankState .a, show x.pst.bankB = s.pst.bankB from h.bankState .b]

theorem Examined.genActive (h : Examined c s x) : x.pst.genActive = s.pst.genActive := by
  rw [← h.reserve]
  unfold reserved
  split <;> rfl

theorem Examined.headOf (h : Examined c s x) (l : Lane) (n : Nat) (p : Profile) : headOf x l n p = Machine.headOf s l n p := by
  obtain ⟨_, _, _, _, _, hu⟩ := h.update
  rw [hu]; rfl

theorem effSeedSave_active {k : Bank} (hk : activeBank x = some k) :
    effSeedSave c x = if x.cal.seed.isSome then refuse 0x39 c stRefusedBusy x else seedStart k (newId x) c.index (accept c 0x39 x) := by
  unfold effSeedSave
  rw [hk]

theorem seedSave_accepted {k : Bank} (hx : Taken 0x39 c s x) (hk : activeBank s = some k) (hfree : s.cal.seed = none) :
    ∃ u, exec (.seedSave c) s = .next u ∧ Accepted 0x39 c s u
      ∧ u = { commanded s u with
        now := c.t,
        bsc := { s.bsc with jobs := s.bsc.jobs ++ [{ id := s.hre.nextId + 1, index := c.index, prio := 4, res := .nvm, since := c.t, kind := 0x39, args := [bankNum k], pos := 0, total := 130, waitAt := none }] },
        cal := { s.cal with seed := some (s.hre.nextId + 1, s.pst.genActive) } } := by
  obtain ⟨_, _, _, _, _, hu⟩ := hx.update
  have hcal : x.cal = s.cal := by rw [hu]
  have heff : effSeedSave c x = seedStart k (newId x) c.index (accept c 0x39 x) :=
    (effSeedSave_active (hx.activeBank.trans hk)).trans (if_neg (by rw [hcal, hfree]; decide))
  have hgen := hx.genActive
  have hnew : newId x = s.hre.nextId + 1 := by rw [newId, hx.hre]
  unfold seedStart addJob at heff
  rw [hnew, show (accept c 0x39 x).pst.genActive = s.pst.genActive from hgen] at heff
  refine hx.accepts heff rfl fun o g => ?_
  have hq := hx.reserve
  subst hu
  exact with_reserve _ hq

theorem seedPeriodExpiry_due {t : Int} {k : Bank} {s : State} (hk : activeBank s = some k) (hlow : 1 ≤ regF s 0x6010 7 0) (hhigh : regF s 0x6010 7 0 ≤ 168)
    (hsec : s.cal.seedAt + 3600 * regF s 0x6010 7 0 ≤ s.pst.opSeconds) (hup : aonUp s = true) :
    exec (.seedPeriodExpiry t) s = (let v := { atTime t s with cal := { s.cal with seedAt := s.pst.opSeconds } }
      settle (if s.cal.seed.isSome then v else seedStart k 0 0 v)) := by
  show execSeedPeriodExpiry t s = _
  unfold execSeedPeriodExpiry
  dsimp only
  rw [show activeBank (atTime t s) = some k from hk]
  refine if_neg ?_
  rw [show regF (atTime t s) 0x6010 7 0 = regF s 0x6010 7 0 from rfl, show aonUp (atTime t s) = true from hup, decide_eq_true hlow, decide_eq_true hhigh,
    decide_eq_false (show ¬ (atTime t s).pst.opSeconds < (atTime t s).cal.seedAt + 3600 * regF s 0x6010 7 0 from Nat.not_lt.mpr hsec)]
  decide

theorem seedPeriodExpiry_waits {t : Int} {s : State} (hno : ¬ (activeBank s ≠ none ∧ 1 ≤ regF s 0x6010 7 0 ∧ regF s 0x6010 7 0 ≤ 168
      ∧ s.cal.seedAt + 3600 * regF s 0x6010 7 0 ≤ s.pst.opSeconds ∧ aonUp s = true)) :
    exec (.seedPeriodExpiry t) s = settle (atTime t s) := by
  show execSeedPeriodExpiry t s = _
  unfold execSeedPeriodExpiry
  dsimp only
  cases hk : activeBank s with
  | none => rw [show activeBank (atTime t s) = none from hk]
  | some k =>
    rw [show activeBank (atTime t s) = some k from hk]
    refine if_pos ?_
    rw [hk] at hno
    by_contra hopen
    refine hno ⟨Option.some_ne_none k, ?_⟩
    simp only [Bool.or_eq_true, Bool.not_eq_true', Bool.and_eq_false_iff, decide_eq_false_iff_not, decide_eq_true_eq, not_or, not_not, not_lt,
      Bool.not_eq_false] at hopen
    obtain ⟨⟨⟨hlow, hhigh⟩, hsec⟩, hup⟩ := hopen
    exact ⟨hlow, hhigh, hsec, hup⟩

end

/-! ## LEGACY_CAL (R220) -/

/-- Channels put to their reference. -/
def referenced (t : Int) (chans : List Nat) (l : List LSys) : List LSys :=
  chans.foldl (fun l n => setNth l n { nth LSys.reset l n with ref := some (RefCal.new t) }) l

theorem mapSys_refs (chans : List Nat) (s : State) : chans.foldl (fun s n => mapSys n (fun x => { x with ref := some (RefCal.new s.now) }) s) s
    = { s with lhf := { s.lhf with sys := referenced s.now chans s.lhf.sys } } := by
  induction chans generalizing s with
  | nil => rfl
  | cons n chans ih => rw [List.foldl_cons, ih]; rfl

/-- Whether a head in service uses one of the channels. -/
def channelsUsed (s : State) (chans : List Nat) : Bool :=
  (portHeads s 2).any (fun e => (chans.contains e.2.z1 || chans.contains e.2.z2)
    && bothLanes.any (fun l => laneTakes s l && (headOf s l e.1 (profile s e.2.profile)).st != 4))

theorem Examined.channelsUsed {c : HostCmd} {s x : State} (h : Examined c s x) (chans : List Nat) : channelsUsed x chans = Proofs.channelsUsed s chans := by
  unfold Proofs.channelsUsed
  rw [h.portHeads]
  simp only [h.laneTakes, h.headOf, h.banks.profile]

/-- The channels that LEGACY_CAL names. -/
def calChannels (c : HostCmd) : List Nat := (List.range 8).filter (fun n => (fld c.a0 7 0).testBit n)

section
variable {c : HostCmd} {s x : State}

theorem effLegacyCal_eq : effLegacyCal c x = if !active x .field || channelsUsed x (calChannels c) then refuse 0x41 c stRefusedState x
    else if x.cal.legacy.isSome then refuse 0x41 c stRefusedBusy x
    else { accept c 0x41 x with cal := { x.cal with legacy := some { id := newId x, left := calChannels c, res := 0 } },
                                lhf := { x.lhf with sys := referenced x.now (calChannels c) x.lhf.sys } } := by
  unfold effLegacyCal
  dsimp only
  rw [mapSys_refs]
  rfl

theorem legacyCal_accepted (hx : Taken 0x41 c s x) (ha : active s .field = true) (hused : channelsUsed s (calChannels c) = false) (hfree : s.cal.legacy = none) :
    ∃ u, exec (.legacyCal c) s = .next u ∧ Accepted 0x41 c s u
      ∧ u = { commanded s u with now := c.t, cal := { s.cal with legacy := some { id := s.hre.nextId + 1, left := calChannels c, res := 0 } },
                                 lhf := { s.lhf with sys := referenced c.t (calChannels c) s.lhf.sys } } := by
  obtain ⟨_, _, _, _, _, hu⟩ := hx.update
  have ha' : active x .field = true := by rw [hu]; exact ha
  have hcal : x.cal = s.cal := by rw [hu]
  have hlhf : x.lhf = s.lhf := by rw [hu]
  have hnew : newId x = s.hre.nextId + 1 := by rw [newId, hx.hre]
  have heff : effLegacyCal c x = _ := effLegacyCal_eq
  rw [ha', hx.channelsUsed, hused, if_neg (by decide), hcal, hfree, if_neg (by decide), hlhf, hnew, hx.now] at heff
  refine hx.accepts heff rfl fun o g => ?_
  have hq := hx.reserve
  subst hu
  exact with_reserve _ hq

theorem legacyCal_refused (hx : Taken 0x41 c s x) (hno : active s .field = false ∨ channelsUsed s (calChannels c) = true) :
    ∃ u, exec (.legacyCal c) s = .next u ∧ Completed 0x41 c stRefusedState 0 0 s u ∧ u = { commanded s u with now := c.t } := by
  obtain ⟨_, _, _, _, _, hu⟩ := hx.update
  have ha' : active x .field = active s .field := by rw [hu]; rfl
  refine hx.refuses (effLegacyCal_eq.trans (if_pos ?_))
  rw [ha', hx.channelsUsed, Bool.or_eq_true, Bool.not_eq_true']
  exact hno

theorem legacyCal_busy (hx : Taken 0x41 c s x) (ha : active s .field = true) (hused : channelsUsed s (calChannels c) = false) (hbusy : s.cal.legacy ≠ none) :
    ∃ u, exec (.legacyCal c) s = .next u ∧ Completed 0x41 c stRefusedBusy 0 0 s u ∧ u = { commanded s u with now := c.t } := by
  obtain ⟨_, _, _, _, _, hu⟩ := hx.update
  have ha' : active x .field = true := by rw [hu]; exact ha
  have hcal : x.cal = s.cal := by rw [hu]
  refine hx.refuses (effLegacyCal_eq.trans ?_)
  rw [ha', hx.channelsUsed, hused, if_neg (by decide), hcal]
  exact if_pos (Option.isSome_iff_ne_none.mpr hbusy)

end

/-- Settles O35: SEED_SAVE, its period and LEGACY_CAL, each accepted, busy and refused. -/
theorem calibrationIsCommitted : Obligations.CalibrationIsCommitted := by
  unfold Obligations.CalibrationIsCommitted
  refine ⟨?save, ?period, ?legacy⟩
  case save =>
    intro c s hp
    obtain ⟨x, hx, -⟩ := taken_of_passes hp
    obtain ⟨_, _, _, _, _, hu⟩ := hx.update
    have hcal : x.cal = s.cal := by rw [hu]
    refine ⟨fun k hk hfree => seedSave_accepted hx hk hfree, fun k hk hbusy => hx.refuses ?_, fun hno => hx.refuses ?_⟩
    · refine (effSeedSave_active (hx.activeBank.trans hk)).trans (if_pos ?_)
      rw [hcal]
      exact Option.isSome_iff_ne_none.mpr hbusy
    · unfold effSeedSave
      rw [hx.activeBank, hno]
  case period =>
    intro t s
    dsimp only
    refine ⟨fun k hdue hk hfree => ?_, fun hdue hbusy => ?_, fun hno => ?_⟩
    · obtain ⟨-, hlow, hhigh, hsec, hup⟩ := hdue
      have hexec := seedPeriodExpiry_due (t := t) hk hlow hhigh hsec hup
      rw [hfree] at hexec
      exact settles hexec fun o g => rfl
    · obtain ⟨hk, hlow, hhigh, hsec, hup⟩ := hdue
      obtain ⟨k, hk⟩ := Option.ne_none_iff_exists'.mp hk
      have hexec := seedPeriodExpiry_due (t := t) hk hlow hhigh hsec hup
      exact settles (hexec.trans (congrArg settle (if_pos (Option.isSome_iff_ne_none.mpr hbusy)))) fun o g => rfl
    · exact settles (seedPeriodExpiry_waits hno) fun o g => rfl
  case legacy =>
    intro c s hp
    obtain ⟨x, hx, -⟩ := taken_of_passes hp
    exact ⟨legacyCal_accepted hx, legacyCal_busy hx, legacyCal_refused hx⟩

end Sys2Proof.Proofs
end

section
/-!
PROOFS. The legacy front end: conversions and their slots (R235 to R247).
-/

namespace Sys2Proof.Proofs
open Sys2Proof.Machine Sys2Proof.Laws

/-! ## A lane's work on a head says nothing about the network being joined -/

theorem foldl_joined {α : Type} {f : State → α → State} (h : ∀ s a, (f s a).net.joined = s.net.joined) (as : List α) (s : State) :
    (as.foldl f s).net.joined = s.net.joined := by
  induction as generalizing s with
  | nil => rfl
  | cons a as ih => exact (ih (f s a)).trans (h s a)

theorem queueEvents_joined (l : Lane) (out : List HEvent) (s : State) : (queueEvents l out s).net.joined = s.net.joined := by
  have hstream : ∀ s, (streamEvents l out s).net.joined = s.net.joined := fun s => by
    unfold streamEvents
    split
    · rfl
    · refine foldl_joined (fun s e => ?_) out s
      split <;> rfl
  have hslave : ∀ s, (slaveEvents l out s).net.joined = s.net.joined := fun s => by
    unfold slaveEvents
    split
    · rfl
    · refine foldl_joined (fun s e => ?_) out s
      split <;> rfl
  unfold queueEvents
  rw [hslave, hstream]
  obtain ⟨k, b, i, h⟩ := queueWatch_update l (mapHen l (fun e => { e with queue := e.queue ++ out.map (HItem.ev none) }) s)
  rw [h]
  rfl

theorem keepWork_joined (l : Lane) (h old : Nat) (w : HWork) (s : State) : (keepWork l h old w s).net.joined = s.net.joined := by
  unfold keepWork
  extract_lets v q
  have hv : v.net = s.net := by
    show (sweepWork l h w s).net = _
    unfold sweepWork
    split
    · rfl
    · split <;> rfl
  have hnotes : ∀ (out : List HEvent) (a : State × Nat), ((out.foldl (fun (a : State × Nat) e =>
      if e.ty = 7 then
        let new := e.data / 8192
        (laneNote l (if new = 4 then evHeadFailed else evHeadState) 0 (w32 h) (stateWord new a.2 (e.data / 256 % 32)) 0 a.1, new)
      else a) a).1).net = a.1.net := by
    intro out
    induction out with
    | nil => exact fun a => rfl
    | cons e out ih =>
      intro a
      rw [List.foldl_cons]
      refine (ih _).trans ?_
      split
      · obtain ⟨i, hi⟩ := laneNote_update a.1 l (if e.data / 8192 = 4 then evHeadFailed else evHeadState) 0 (w32 h) (stateWord (e.data / 8192) a.2 (e.data / 256 % 32)) 0
        dsimp only
        rw [hi]
      · rfl
  rw [hnotes]
  exact (queueEvents_joined l w.out v).trans (by rw [hv])

/-! ## What the front end's steps leave as it was -/

theorem sysOf_mapSys (n : Nat) (f : LSys → LSys) (s : State) (m : Nat) :
    sysOf (mapSys n f s) m = if m = n ∧ n < s.lhf.sys.length then f (sysOf s n) else sysOf s m := by
  show ((s.lhf.sys.set n (f (sysOf s n)))[m]?).getD LSys.reset = _
  rw [List.getElem?_set]
  by_cases hm : n = m
  · subst hm
    by_cases hn : n < s.lhf.sys.length
    · rw [if_pos rfl, if_pos hn, if_pos ⟨rfl, hn⟩]; rfl
    · rw [if_pos rfl, if_neg hn, if_neg (fun h => hn h.2)]
      exact (congrArg (fun o : Option LSys => o.getD LSys.reset) (List.getElem?_eq_none (Nat.le_of_not_lt hn))).symm
  · rw [if_neg hm, if_neg (fun h => hm h.1.symm)]
    rfl

/-- What of the state outside the front end its conversions leave as it was. -/
def frontOutside (s : State) : Two StgSt × Two ClrSt × Two SinSt × Two SldSt × RegSt × SecSt × BscSt × Doms × Bool :=
  (s.stg, s.clr, s.sin, s.sld, s.regs, s.sec, s.bsc, s.dom, s.net.joined)

/-- The samples of a system and what marks them. -/
def sampleKey (x : LSys) : List LSamp × Option (Int × Bool) × Option (Int × Int × Bool) := (x.win, x.clamp, x.past)

/-- A step of the front end that leaves what lies outside it and the SARs, and begins no calibration. -/
structure FrontFrame (s u : State) : Prop where
  outside : frontOutside u = frontOutside s
  pst : u.pst = s.pst
  lhf : u.lhf = { s.lhf with sys := u.lhf.sys, vals := u.lhf.vals }
  length : u.lhf.sys.length = s.lhf.sys.length
  ref : ∀ m, (sysOf s m).ref = none → (sysOf u m).ref = none

/-- And each system's samples and clamps. -/
structure FrontBase (s u : State) : Prop extends FrontFrame s u where
  alike : ∀ m, sampleKey (sysOf u m) = sampleKey (sysOf s m)

/-- And takes away no output fault. -/
structure Front (s u : State) : Prop extends FrontBase s u where
  fault : ∀ m, nth false (sysOf s m).faults 0 = true → nth false (sysOf u m).faults 0 = true

section
variable {s t u : State}

theorem FrontFrame.trans (h : FrontFrame s t) (k : FrontFrame t u) : FrontFrame s u :=
  ⟨k.outside.trans h.outside, k.pst.trans h.pst, k.lhf.trans (congrArg (fun x : LhfSt => { x with sys := u.lhf.sys, vals := u.lhf.vals }) h.lhf),
    k.length.trans h.length, fun m hr => k.ref m (h.ref m hr)⟩

theorem FrontFrame.with_pst (h : FrontFrame s u) (p : PstSt) : FrontFrame { s with pst := p } { u with pst := p } :=
  ⟨h.outside, rfl, h.lhf, h.length, h.ref⟩

theorem FrontBase.refl (s : State) : FrontBase s s := ⟨⟨rfl, rfl, rfl, rfl, fun _ => id⟩, fun _ => rfl⟩

theorem FrontBase.trans (h : FrontBase s t) (k : FrontBase t u) : FrontBase s u :=
  ⟨h.toFrontFrame.trans k.toFrontFrame, fun m => (k.alike m).trans (h.alike m)⟩

theorem Front.refl (s : State) : Front s s := ⟨.refl s, fun _ => id⟩

theorem Front.trans (h : Front s t) (k : Front t u) : Front s u :=
  ⟨h.toFrontBase.trans k.toFrontBase, fun m hf => k.fault m (h.fault m hf)⟩

theorem Front.foldl {α : Type} {f : State → α → State} (h : ∀ s a, Front s (f s a)) (as : List α) (s : State) : Front s (as.foldl f s) := by
  induction as generalizing s with
  | nil => exact .refl s
  | cons a as ih => exact (h s a).trans (ih (f s a))

theorem Front.of_lhf (ho : frontOutside u = frontOutside s) (hp : u.pst = s.pst) (hl : u.lhf = s.lhf) : Front s u := by
  have hsys : ∀ m, sysOf u m = sysOf s m := fun m => by unfold sysOf; rw [hl]
  exact ⟨⟨⟨ho, hp, by rw [hl], by rw [hl], fun m => by rw [hsys]; exact id⟩, fun m => by rw [hsys]⟩, fun m => by rw [hsys]; exact id⟩

theorem mapSys_base {n : Nat} {f : LSys → LSys} (hkey : sampleKey (f (sysOf s n)) = sampleKey (sysOf s n))
    (href : (sysOf s n).ref = none → (f (sysOf s n)).ref = none) : FrontBase s (mapSys n f s) := by
  refine ⟨⟨rfl, rfl, rfl, List.length_set .., fun m hm => ?_⟩, fun m => ?_⟩
  · rw [sysOf_mapSys]
    split
    case isTrue h => exact href (h.1 ▸ hm)
    case isFalse => exact hm
  · rw [sysOf_mapSys]
    split
    case isTrue h => rw [hkey, h.1]
    case isFalse => rfl

theorem mapSys_front {n : Nat} {f : LSys → LSys} (hkey : sampleKey (f (sysOf s n)) = sampleKey (sysOf s n))
    (href : (sysOf s n).ref = none → (f (sysOf s n)).ref = none)
    (hfault : nth false (sysOf s n).faults 0 = true → nth false (f (sysOf s n)).faults 0 = true) : Front s (mapSys n f s) := by
  refine ⟨mapSys_base hkey href, fun m hm => ?_⟩
  rw [sysOf_mapSys]
  split
  case isTrue h => exact hfault (h.1 ▸ hm)
  case isFalse => exact hm

/-- A change of a system that says nothing of its samples, its calibration or its faults. -/
theorem mapSys_aside {n : Nat} {f : LSys → LSys} (s : State) (h : ∀ x : LSys, sampleKey (f x) = sampleKey x ∧ (f x).ref = x.ref ∧ (f x).faults = x.faults) :
    Front s (mapSys n f s) := by
  obtain ⟨hkey, href, hfault⟩ := h (sysOf s n)
  exact mapSys_front hkey (fun hr => href.trans hr) (fun hf => by rw [hfault]; exact hf)

/-- One that keeps its faults and takes it out of calibration. -/
theorem mapSys_aside' {n : Nat} {f : LSys → LSys} (s : State)
    (h : ∀ x : LSys, sampleKey (f x) = sampleKey x ∧ (f x).faults = x.faults ∧ (f x).ref = none) : Front s (mapSys n f s) := by
  obtain ⟨hkey, hfault, href⟩ := h (sysOf s n)
  exact mapSys_front hkey (fun _ => href) (fun hf => by rw [hfault]; exact hf)

theorem ctr_front (k : Tab Nat) (s : State) : Front s { s with ctr := k } := .of_lhf rfl rfl rfl

theorem note_front (code : Nat) (d : Dom) (b : Nat) (p0 p1 p2 : Word) (s : State) : Front s (note code d b p0 p1 p2 s) := by
  rw [note_update]
  exact .of_lhf rfl rfl rfl

theorem finish_front (id st : Nat) (r0 r1 : Word) (s : State) : Front s (finish id st r0 r1 s) := by
  obtain ⟨_, _, _, _, h⟩ := finish_update id st r0 r1 s
  rw [h]
  exact .of_lhf rfl rfl rfl

theorem keepWork_front (l : Lane) (h old : Nat) (w : HWork) (s : State) : Front s (keepWork l h old w s) := by
  have hframe := (keepWork_headWork l h old w s).frame
  have hjoined := keepWork_joined l h old w s
  generalize keepWork l h old w s = v at hframe hjoined
  refine .of_lhf ?_ (by rw [hframe]) (by rw [hframe])
  unfold frontOutside
  rw [hjoined, hframe]

theorem failLegacy_front (n : Nat) (s : State) : Front s (failLegacy n s) := by
  unfold failLegacy
  refine .foldl (fun s e => .foldl (fun s l => ?_) _ s) _ s
  dsimp only
  split
  · exact .refl s
  · exact keepWork_front ..

/-- A fault other than the output's changes nothing of the output's. -/
theorem setNth_fault (l : List Bool) {f : Nat} (b : Bool) (hf : f ≠ 0 ∨ b = true) (h : nth false l 0 = true) : nth false (setNth l f b) 0 = true := by
  unfold nth setNth at *
  rw [List.getElem?_set]
  by_cases h0 : f = 0
  · rw [if_pos h0]
    subst h0
    have hb := hf.resolve_left (fun h => h rfl)
    cases l with
    | nil => cases h
    | cons a l => rw [hb]; rfl
  · rw [if_neg h0]; exact h

theorem markFault_front (n f : Nat) (s : State) : Front s (markFault n f s) := by
  refine .trans ?_ (failLegacy_front n _)
  exact mapSys_front rfl id (setNth_fault _ _ (.inr rfl))

theorem setFault_front (n f : Nat) (r : Int) (s : State) : Front s (setFault n f r s) := by
  unfold setFault
  split
  · exact .refl s
  · exact .trans (.trans (markFault_front n f s) (ctr_front _ _)) (note_front ..)

theorem settleSys_front (n : Nat) (s : State) : Front s (settleSys n s) := mapSys_aside s fun _ => ⟨rfl, rfl, rfl⟩

theorem unmarkFault_base (n f : Nat) (s : State) : FrontBase s (unmarkFault n f s) := by
  unfold unmarkFault
  have hset : FrontBase s (mapSys n (fun x => { x with faults := setNth x.faults (f - 1) false }) s) := mapSys_base rfl id
  dsimp only
  split
  · exact hset
  · exact hset.trans (settleSys_front n _).toFrontBase

theorem unmarkFault_front (n : Nat) {f : Nat} (hf : 2 ≤ f) (s : State) : Front s (unmarkFault n f s) := by
  unfold unmarkFault
  have hset : Front s (mapSys n (fun x => { x with faults := setNth x.faults (f - 1) false }) s) :=
    mapSys_front rfl id (setNth_fault _ _ (.inl (by omega)))
  dsimp only
  split
  · exact hset
  · exact hset.trans (settleSys_front n _)

theorem clearFault_base (n f : Nat) (r : Int) (s : State) : FrontBase s (clearFault n f r s) := by
  unfold clearFault
  split
  · exact .trans (unmarkFault_base n f s) (note_front ..).toFrontBase
  · exact .refl s

theorem clearFault_front (n : Nat) {f : Nat} (hf : 2 ≤ f) (r : Int) (s : State) : Front s (clearFault n f r s) := by
  unfold clearFault
  split
  · exact .trans (unmarkFault_front n hf s) (note_front ..)
  · exact .refl s

end


/-! ## A sense conversion (R237 to R244) -/

/-- A change of excitation keeps samples and clamps. -/
theorem changeSys_alike (s : State) (n hc : Nat) (rise held : Bool) (x : LSys) :
    sampleKey (changeSys s n hc rise held x) = sampleKey x ∧ (changeSys s n hc rise held x).ref = x.ref := by
  unfold changeSys
  dsimp only
  split
  · exact ⟨rfl, rfl⟩
  split
  · exact ⟨rfl, rfl⟩
  split
  · exact ⟨rfl, rfl⟩
  · exact ⟨rfl, rfl⟩

theorem applyChange_base (n : Nat) (c : Int) (s : State) : FrontBase s (applyChange n c s) := by
  unfold applyChange
  dsimp only
  split
  · exact .refl s
  split
  · exact .refl s
  · have hchange : ∀ rise held hc, FrontBase s (mapSys n (changeSys s n hc rise held) s) := fun rise held hc =>
      mapSys_base (changeSys_alike ..).1 (fun h => (changeSys_alike ..).2.trans h)
    split
    · exact (hchange ..).trans (clearFault_base ..)
    · exact hchange ..

theorem applyChange_none {n : Nat} (c : Int) {s : State} (h : (sysOf s n).change = none) : applyChange n c s = s := by
  unfold applyChange
  dsimp only
  rw [h]

theorem pstArrive_update (off w : Nat) (v : Word) (s : State) : ∃ p i, pstArrive off w v s = { s with pst := p, erc := { s.erc with inbox := i } } := by
  unfold pstArrive
  split
  · exact ⟨s.pst, s.erc.inbox, rfl⟩
  split
  · exact ⟨_, s.erc.inbox, rfl⟩
  split
  · exact ⟨s.pst, _, note_update ..⟩
  · exact ⟨_, s.erc.inbox, rfl⟩

/-- The reading of a calibration's reference, and its end: words for the store, and what the channel goes on with. -/
theorem calStep_front (n c : Nat) (t code : Int) (s : State) :
    ∃ p, Front { s with pst := p } (calStep n c t code s) ∧ ((sysOf s n).ref = none → p = s.pst) := by
  unfold calStep
  extract_lets x
  split
  · exact ⟨s.pst, .refl s, fun _ => rfl⟩
  case _ r hr =>
  have hsome : ∀ p : PstSt, (sysOf s n).ref = none → p = s.pst := fun p h => absurd (hr.symm.trans h) (Option.some_ne_none r)
  split
  · exact ⟨s.pst, .refl s, fun _ => rfl⟩
  dsimp only
  split
  · refine ⟨s.pst, mapSys_front rfl (fun h => ?_) id, hsome _⟩
    exact absurd (hr.symm.trans h) (Option.some_ne_none r)
  · generalize RefCal.take code _ _ r = r'
    unfold calChannel
    extract_lets got bits put s1 s2 hc s3 s4 cal
    have hputs : ∀ (l : List (Nat × Int × Int)) (s : State), ∃ p i,
        l.foldl (fun s p => put (0xB100 + 0x10 * n + 4 * p.1) (halves (lo16 p.2.2) (lo16 p.2.1)) s) s = { s with pst := p, erc := { s.erc with inbox := i } } := by
      intro l
      induction l with
      | nil => exact fun s => ⟨s.pst, s.erc.inbox, rfl⟩
      | cons a l ih =>
        intro s
        obtain ⟨p, i, h⟩ := pstArrive_update (0xB100 + 0x10 * n + 4 * a.1) (pregWord (0xB100 + 0x10 * n + 4 * a.1)) (halves (lo16 a.2.2) (lo16 a.2.1)) s
        obtain ⟨p', i', h'⟩ := ih { s with pst := p, erc := { s.erc with inbox := i } }
        refine ⟨p', i', ?_⟩
        rw [List.foldl_cons, show put _ _ s = _ from h]
        exact h'
    obtain ⟨p1, i1, h1⟩ := hputs got s
    obtain ⟨p2, i2, h2⟩ := pstArrive_update 0xB180 (pregWord 0xB180)
      ((List.range 4).foldl (fun u k => setBit u (4 * n + k) (bits.testBit k)) (reg s1 0xB180)) s1
    have hs2 : s2 = { s with pst := p2, erc := { s.erc with inbox := i2 } } := by
      refine Eq.trans h2 ?_
      rw [show s1 = _ from h1]
    refine ⟨p2, ?_, hsome _⟩
    have hf2 : Front { s with pst := p2 } s2 := by rw [hs2]; exact .of_lhf rfl rfl rfl
    have hf3 : Front s2 s3 := by
      refine mapSys_aside' s2 fun x => ?_
      split <;> exact ⟨rfl, rfl, rfl⟩
    have hf4 : Front s3 s4 := by
      unfold s4
      split
      · exact setFault_front ..
      · exact clearFault_front n (by decide) 0 s3
    refine .trans ?_ (note_front ..)
    exact hf2.trans (hf3.trans (hf4.trans (.of_lhf rfl rfl rfl)))

theorem captureStep_alike (h : Nat) (dirty : Bool) (z : Int × Int) (x : LSys) :
    sampleKey (captureStep h dirty z x) = sampleKey x ∧ (captureStep h dirty z x).ref = x.ref ∧ (captureStep h dirty z x).faults = x.faults := by
  unfold captureStep
  dsimp only
  split
  · exact ⟨rfl, rfl, rfl⟩
  split
  · exact ⟨rfl, rfl, rfl⟩
  · exact ⟨rfl, rfl, rfl⟩

theorem burstStep_alike (win : List LSamp) (disturbed : Bool) (x : LSys) :
    sampleKey (burstStep win disturbed x) = sampleKey x ∧ (burstStep win disturbed x).ref = x.ref ∧ (burstStep win disturbed x).faults = x.faults := by
  unfold burstStep
  split
  · dsimp only
    split
    · exact ⟨rfl, rfl, rfl⟩
    · exact ⟨rfl, rfl, rfl⟩
  · exact ⟨rfl, rfl, rfl⟩

theorem valueFaults_front (n : Nat) (ended : Bool) (m : Nat) (s : State) : Front s (valueFaults n ended m s) := by
  unfold valueFaults
  extract_lets x floor weak s1 top clip s2 s3
  have h1 : Front s s1 := by
    unfold s1
    split
    · exact setFault_front ..
    split
    · exact clearFault_front n (by decide) ..
    · exact .refl s
  have h2 : Front s1 s2 := mapSys_aside s1 fun x => ⟨rfl, rfl, rfl⟩
  have h3 : Front s2 s3 := by
    unfold s3
    split
    · exact setFault_front ..
    · exact .refl s2
  refine h1.trans (h2.trans (h3.trans ?_))
  split
  · exact clearFault_front n (by decide) ..
  · exact .refl s3

theorem vals_front (f : LhfSt → List LVal) (s : State) : Front s (mapLhf (fun e => { e with vals := f e }) s) :=
  ⟨⟨⟨rfl, rfl, rfl, rfl, fun _ => id⟩, fun _ => rfl⟩, fun _ => id⟩

theorem formValue_front (n h : Nat) (s : State) : Front s (formValue n h s) := by
  unfold formValue
  extract_lets x z m bad dirty uns d invalid lim capturing recap y0 y s1 s2 s3 mk inc mid
  have hy0 : sampleKey y0 = sampleKey x ∧ y0.ref = x.ref ∧ y0.faults = x.faults := by
    unfold y0
    split
    · exact captureStep_alike ..
    split
    · exact ⟨rfl, rfl, rfl⟩
    split
    · exact ⟨rfl, rfl, rfl⟩
    split
    · exact ⟨rfl, rfl, rfl⟩
    · exact ⟨rfl, rfl, rfl⟩
  obtain ⟨hkey, href, hfaults⟩ := burstStep_alike x.win (bad || has m 2 || uns || d ≥ lim || -d ≥ lim) y0
  have h1 : Front s s1 := mapSys_front (hkey.trans hy0.1) (fun hr => (href.trans hy0.2.1).trans hr) fun hf => by
    rw [show y.faults = (sysOf s n).faults from hfaults.trans hy0.2.2]; exact hf
  have h2 : Front s1 s2 := by
    unfold s2
    split
    · exact (ctr_front _ _).trans (note_front ..)
    · exact .refl s1
  have h3 : Front s2 s3 := valueFaults_front ..
  exact h1.trans (h2.trans (h3.trans (vals_front _ s3)))

theorem handValues_front (h : Nat) (s : State) : Front s (handValues h s) := by
  unfold handValues
  dsimp only
  split
  · exact .refl s
  · refine (vals_front (fun e => e.vals.filter (fun v => v.h != h)) s).trans ?_
    unfold enterLine
    rw [mapFch_update]
    exact .of_lhf rfl rfl rfl


/-- A sample as it joins a system's window. -/
structure Sampled (s : State) (n : Nat) (t code : Int) (y : LSamp) : Prop where
  at_ : y.t = t
  base : y.lt = !s.net.joined
  taken : y.code = code
  clip : clampAt (sysOf s n) t 20000 = none → y.m % 2 = b2n (decide (code = 2047) || decide (code = -2048))

theorem takeSample_takes (n : Nat) (t code : Int) (s : State) : ∃ k y r d, Sampled s n t code y
    ∧ takeSample n t code s = mapSys n (fun x => { x with win := (y :: x.win).take 89, range := r, down := d }) { s with ctr := k } := by
  unfold takeSample
  extract_lets x ref rng clamp nb clip v m r s1 s2 s3 s4
  have hctr : ∀ (b : Bool) (o : Nat) (v : State), (∃ k, v = { s with ctr := k }) → ∃ k, (if b = true then sysBump n o v else v) = { s with ctr := k } := by
    rintro b o v ⟨k, rfl⟩
    cases b
    · exact ⟨k, rfl⟩
    · exact ⟨_, rfl⟩
  have h1 : ∃ k, s1 = { s with ctr := k } := hctr _ _ _ ⟨s.ctr, rfl⟩
  have h2 : ∃ k, s2 = { s with ctr := k } := hctr _ _ _ h1
  have h3 : ∃ k, s3 = { s with ctr := k } := hctr _ _ _ h2
  have h4 : ∃ k, s4 = { s with ctr := k } := by
    unfold s4
    obtain ⟨k, hk⟩ := h3
    rw [hk]
    split
    · exact ⟨_, rfl⟩
    split
    · exact ⟨_, rfl⟩
    · exact ⟨k, rfl⟩
  clear_value s4
  obtain ⟨k, rfl⟩ := h4
  refine ⟨k, _, r.1, r.2, ⟨rfl, rfl, rfl, fun hnone => ?_⟩, rfl⟩
  have hclip : clip = (decide (code = 2047) || decide (code = -2048)) := by
    unfold clip
    rw [show clamp = none from hnone]
    rfl
  show m % 2 = _
  unfold m
  rw [hclip]
  have hbit := (by decide : ∀ b, b2n b ≤ 1) (decide (code = 2047) || decide (code = -2048))
  omega

/-- A sense conversion's work: the sample joins its system's window, and what the calibration writes goes to the store. -/
theorem senseStep_samples (n c : Nat) (t code : Int) (s : State) : ∃ p y, FrontFrame { s with pst := p } (senseStep n c t code s)
    ∧ ((sysOf s n).ref = none → p = s.pst) ∧ Sampled s n t code y
    ∧ (n < s.lhf.sys.length → (sysOf (senseStep n c t code s) n).win = (y :: (sysOf s n).win).take 89)
    ∧ ((sysOf s n).change = none → ∀ m, nth false (sysOf s m).faults 0 = true → nth false (sysOf (senseStep n c t code s) m).faults 0 = true) := by
  have ha := applyChange_base n (c : Int) s
  have hnone := applyChange_none (n := n) (c : Int) (s := s)
  unfold senseStep
  generalize applyChange n (c : Int) s = a at ha hnone ⊢
  extract_lets s1 s2 s3
  obtain ⟨k, y, r, d, hy, htake⟩ := takeSample_takes n t code a
  have hframe1 : FrontFrame a s1 := by
    unfold s1
    rw [htake]
    refine ⟨rfl, rfl, rfl, List.length_set .., fun m hm => ?_⟩
    rw [sysOf_mapSys]
    split
    case isTrue h => exact h.1 ▸ hm
    case isFalse => exact hm
  have hwin1 : n < a.lhf.sys.length → (sysOf s1 n).win = (y :: (sysOf a n).win).take 89 := fun h => by
    unfold s1
    rw [htake, sysOf_mapSys, if_pos ⟨rfl, h⟩]
    rfl
  have hfault1 : ∀ m, nth false (sysOf a m).faults 0 = true → nth false (sysOf s1 m).faults 0 = true := fun m hm => by
    unfold s1
    rw [htake, sysOf_mapSys]
    split
    case isTrue h => exact h.1 ▸ hm
    case isFalse => exact hm
  obtain ⟨p, hcal, hp⟩ := calStep_front n c t code s1
  have h3 : Front s2 s3 := by
    unfold s3
    split
    · exact setFault_front ..
    · exact .refl s2
  have hlast : Front s3 (if (decide (88 ≤ c) && decide ((c - 88) % 22 = 0)) = true then handValues ((c - 88) / 22) (formValue n ((c - 88) / 22) s3) else s3) := by
    split
    · exact (formValue_front ..).trans (handValues_front ..)
    · exact .refl s3
  have hrest : Front { s1 with pst := p } _ := hcal.trans (h3.trans hlast)
  refine ⟨p, y, ((ha.toFrontFrame.trans hframe1).with_pst p).trans hrest.toFrontFrame, fun hr => (hp ?_).trans ?_, ?_, fun hn => ?_, fun hch m hm => ?_⟩
  · exact hframe1.ref n (ha.ref n hr)
  · exact hframe1.pst.trans ha.pst
  · obtain ⟨hat, hbase, hcode, hclip⟩ := hy
    have hkey := ha.alike n
    refine ⟨hat, hbase.trans ?_, hcode, fun h => hclip ?_⟩
    · exact congrArg (fun o => !(o.2.2.2.2.2.2.2.2 : Bool)) ha.outside
    · refine Eq.trans ?_ h
      unfold clampAt
      rw [show (sysOf a n).clamp = (sysOf s n).clamp from congrArg (fun o => o.2.1) hkey, show (sysOf a n).past = (sysOf s n).past from congrArg (fun o => o.2.2) hkey]
  · refine (congrArg Prod.fst (hrest.alike n) :).trans ((hwin1 (by rw [ha.length]; exact hn)).trans ?_)
    rw [show (sysOf a n).win = (sysOf s n).win from congrArg Prod.fst (ha.alike n)]
  · exact hrest.fault m (hfault1 m (by rw [hnone hch]; exact hm))


/-! ## The slots of a SAR (R235, R236) -/

theorem calEnd_front (s : State) : Front s (calEnd s) := by
  unfold calEnd
  split
  · exact .refl s
  split
  · exact .refl s
  · refine .trans ?_ (finish_front ..)
    exact .of_lhf rfl rfl rfl

/-- Two SARs with that of number u replaced. -/
def sarsWith (u : Nat) (x : LSar) (l : Two LSar) : Two LSar := if u = 0 then { l with a := x } else { l with b := x }

theorem sarsWith_sarsWith (u : Nat) (x y : LSar) (l : Two LSar) : sarsWith u x (sarsWith u y l) = sarsWith u x l := by
  unfold sarsWith
  split <;> rfl

theorem mapSar_update (u : Nat) (f : LSar → LSar) (s : State) : mapSar u f s = { s with lhf := { s.lhf with sar := sarsWith u (f (sarOf s u)) s.lhf.sar } } := by
  have hsars : (if u = 0 then { s.lhf.sar with a := f s.lhf.sar.a } else { s.lhf.sar with b := f s.lhf.sar.b }) = sarsWith u (f (sarOf s u)) s.lhf.sar := by
    unfold sarsWith sarOf
    by_cases h : u = 0
    · rw [if_pos h, if_pos h, if_pos h]
    · rw [if_neg h, if_neg h, if_neg h]
  exact congrArg (fun x => { s with lhf := { s.lhf with sar := x } }) hsars

theorem sarOf_of_sars {u : Nat} {x : LSar} {l : Two LSar} {s : State} (h : s.lhf.sar = sarsWith u x l) : sarOf s u = x := by
  unfold sarOf
  rw [h]
  unfold sarsWith
  split <;> rfl

/-- The next slot of a SAR, its conversion ended at t. -/
def slotAfter (x : LSar) (t : Int) : LSar := { x with c := if x.k = 3 then x.c + 1 else x.c, k := if x.k = 3 then 0 else x.k + 1, free := t }

/-- A state with no routine conversion due and the sense conversion of the next slot ending now: it is taken. -/
structure Converted (u n : Nat) (t code : Int) (x : LSar) (s v : State) : Prop where
  sar : v.lhf.sar = sarsWith u (slotAfter x t) s.lhf.sar
  sampled : n < s.lhf.sys.length → ∃ y, (sysOf v n).win = (y :: (sysOf s n).win).take 89 ∧ Sampled s n (t - 1000) (max (-2048) (min 2047 code)) y
  outside : frontOutside v = frontOutside s
  store : (sysOf s n).ref = none → v.pst = s.pst
  fault : (sysOf s n).change = none → ∀ m, nth false (sysOf s m).faults 0 = true → nth false (sysOf v m).faults 0 = true

/-- The sense conversion of a SAR's next slot, ending at t. -/
def conversion (u : Nat) (t code : Int) (s : State) : State :=
  calEnd (nextSlot u (t - 1000) (senseStep (4 * u + (sarOf s u).k) (sarOf s u).c (t - 1000) (max (-2048) (min 2047 code)) s))

theorem conversion_converts (u : Nat) (t code : Int) (s : State) : Converted u (4 * u + (sarOf s u).k) t code (sarOf s u) s (conversion u t code s) := by
  unfold conversion
  generalize 4 * u + (sarOf s u).k = n
  obtain ⟨p, y, hframe, hp, hy, hwin, hfault⟩ := senseStep_samples n (sarOf s u).c (t - 1000) (max (-2048) (min 2047 code)) s
  generalize senseStep n (sarOf s u).c (t - 1000) (max (-2048) (min 2047 code)) s = v at hframe hwin hfault
  have hsars : v.lhf.sar = s.lhf.sar := by rw [hframe.lhf]
  have hend := calEnd_front (nextSlot u (t - 1000) v)
  generalize calEnd (nextSlot u (t - 1000) v) = w at hend
  have hsys : ∀ m, sysOf (nextSlot u (t - 1000) v) m = sysOf v m := fun m => by
    unfold nextSlot mapSar; rfl
  have hsar : (nextSlot u (t - 1000) v).lhf.sar = sarsWith u (slotAfter (sarOf s u) t) s.lhf.sar := by
    unfold nextSlot slotAfter
    rw [mapSar_update, show sarOf v u = sarOf s u by unfold sarOf; rw [hsars], show t - 1000 + 1000 = t by omega]
    exact congrArg (sarsWith u _) hsars
  refine ⟨?_, fun hn => ⟨y, ?_, hy⟩, hend.outside.trans hframe.outside, fun hr => hend.pst.trans (hframe.pst.trans (hp hr)), fun hch m hm => ?_⟩
  · rw [hend.lhf]; exact hsar
  · rw [show (sysOf w n).win = _ from congrArg Prod.fst (hend.alike n), hsys]
    exact hwin hn
  · refine hend.fault m ?_
    rw [hsys]
    exact hfault hch m hm


section
variable {t code : Int} {s : State} {u : Fin 2}

theorem front_off (h : ¬ (active s .field = true ∧ s.lhf.on = true)) : (!active (atTime t s) .field || !(atTime t s).lhf.on) = true := by
  rw [show active (atTime t s) .field = active s .field from rfl, show (atTime t s).lhf.on = s.lhf.on from rfl]
  cases ha : active s .field
  · rfl
  · cases ho : s.lhf.on
    · rfl
    · exact absurd ⟨ha, ho⟩ h

theorem front_on (h : active s .field = true ∧ s.lhf.on = true) : (!active (atTime t s) .field || !(atTime t s).lhf.on) = false := by
  rw [show active (atTime t s) .field = true from h.1, show (atTime t s).lhf.on = true from h.2]
  rfl

theorem senseEnd_plain {v : State} {n : Nat} (h : (sarOf v n).routine = none) : senseEnd v n = slotStart v n + 1790 := by
  unfold senseEnd routineDue
  rw [h]
  rfl

theorem runRoutine_none {v : State} {n : Nat} (h : (sarOf v n).routine = none) : runRoutine n v = v := by
  unfold runRoutine routineDue
  rw [h]
  rfl

/-- SAR_CONVERSION with FIELD in service, the housekeeping conversions that come first behind it. -/
theorem sarConversion_eq (hon : active s .field = true ∧ s.lhf.on = true) {v : State}
    (hv : runUrgents u.val (sarOf (atTime t s) u.val).wait (atTime t s) = v) (hr : (sarOf v u.val).routine = none) :
    exec (.sarConversion t u code) s = if slotStart v u.val + 1790 ≠ t then settle (atTime t s) else settle (conversion u.val t code v) := by
  show execSarConversion t u code s = _
  unfold execSarConversion
  dsimp only
  rw [hv, front_on hon, if_neg (by decide), senseEnd_plain hr, runRoutine_none hr]
  rfl

end

/-- A legacy head that fails says nothing to the front end. -/
theorem failLegacy_lhf (n : Nat) (s : State) : (failLegacy n s).lhf = s.lhf := by
  have hfold : ∀ {α : Type} {f : State → α → State}, (∀ s a, (f s a).lhf = s.lhf) → ∀ (as : List α) (s : State), (as.foldl f s).lhf = s.lhf := by
    intro α f h as
    induction as with
    | nil => exact fun s => rfl
    | cons a as ih => exact fun s => (ih (f s a)).trans (h s a)
  unfold failLegacy
  refine hfold (fun s e => hfold (fun s l => ?_) _ s) _ s
  dsimp only
  split
  · rfl
  · rw [(keepWork_headWork ..).frame]

/-- A fault found stands, and says nothing else of any system. -/
theorem setFault_sys (n f : Nat) (r : Int) (s : State) :
    (∀ k, (sysOf (setFault n f r s) k).change = (sysOf s k).change)
      ∧ (n < s.lhf.sys.length → f - 1 < (sysOf s n).faults.length → nth false (sysOf (setFault n f r s) n).faults (f - 1) = true) := by
  unfold setFault
  split
  case isTrue h => exact ⟨fun _ => rfl, fun _ _ => h⟩
  case isFalse =>
    have hlhf : (note evFeFault .field 0 (w32 n) (w32 f) (w32i r) (sysBump n (8 + f) (markFault n f s))).lhf
        = (mapSys n (fun x => { x with faults := setNth x.faults (f - 1) true }) s).lhf := by
      rw [note_update]
      exact failLegacy_lhf n _
    have hsys : ∀ k, sysOf (note evFeFault .field 0 (w32 n) (w32 f) (w32i r) (sysBump n (8 + f) (markFault n f s))) k
        = if k = n ∧ n < s.lhf.sys.length then { sysOf s n with faults := setNth (sysOf s n).faults (f - 1) true } else sysOf s k := fun k => by
      refine Eq.trans (congrArg (fun x : LhfSt => nth LSys.reset x.sys k) hlhf) (sysOf_mapSys n _ s k)
    refine ⟨fun k => ?_, fun hn hf => ?_⟩
    · rw [hsys]
      split
      case isTrue h => rw [h.1]
      case isFalse => rfl
    · rw [hsys, if_pos ⟨rfl, hn⟩]
      show ((List.set _ _ true)[f - 1]?).getD false = true
      rw [List.getElem?_set, if_pos rfl, if_pos hf]
      rfl

/-- The urgent conversion that waits and begins before the sense conversion's end runs first; its reading of 19 mA and more faults its output. -/
theorem runUrgents_one {n m : Nat} {b r : Int} {s : State} (hr : (sarOf s n).routine = none) (hb : b < slotStart s n + 1790) :
    ∃ v, runUrgents n [(b, m, r)] s = v ∧ sarOf v n = { sarOf s n with free := b + 1790, wait := [] } ∧ v.lhf.sar = sarsWith n (sarOf v n) s.lhf.sar
      ∧ v.lhf.tG = s.lhf.tG ∧ v.lhf.sys.length = s.lhf.sys.length ∧ frontOutside v = frontOutside s ∧ v.pst = s.pst ∧ v.now = s.now
      ∧ (∀ k, sampleKey (sysOf v k) = sampleKey (sysOf s k) ∧ ((sysOf s k).ref = none → (sysOf v k).ref = none) ∧ (sysOf v k).change = (sysOf s k).change)
      ∧ (190 ≤ r → m < s.lhf.sys.length → 0 < (sysOf s m).faults.length → nth false (sysOf v m).faults 0 = true) := by
  have hbegins : b < senseEnd s n := by rw [senseEnd_plain hr]; exact hb
  have hstarts : ¬ slotStart s n + 1790 ≤ b := by omega
  refine ⟨_, rfl, ?_⟩
  show _ ∧ _
  unfold runUrgents runUrgents runUrgent
  rw [if_pos hbegins, if_neg hstarts]
  unfold atInstant
  dsimp only
  generalize hw : ({ mapSar n _ s with now := _ } : State) = w
  have hread : Front w (urgentReading m r w) ∧ (∀ k, (sysOf (urgentReading m r w) k).change = (sysOf w k).change)
      ∧ (190 ≤ r → m < w.lhf.sys.length → 0 < (sysOf w m).faults.length → nth false (sysOf (urgentReading m r w) m).faults 0 = true) := by
    obtain ⟨hchange, hfault⟩ := setFault_sys m 1 r w
    unfold urgentReading
    split
    · exact ⟨setFault_front .., hchange, fun _ => hfault⟩
    case isFalse h => exact ⟨.refl w, fun _ => rfl, fun h' => absurd h' h⟩
  generalize urgentReading m r w = v at hread
  obtain ⟨hv, hchange, hfault⟩ := hread
  have hw' : w = { s with now := b + 1790, lhf := { s.lhf with sar := sarsWith n { sarOf s n with free := b + 1790 } s.lhf.sar } } := by
    rw [← hw, mapSar_update]
  have hsysw : ∀ k, sysOf w k = sysOf s k := fun k => by rw [hw']; rfl
  have hvsar : v.lhf.sar = sarsWith n { sarOf s n with free := b + 1790 } s.lhf.sar := by rw [hv.lhf, hw']
  rw [mapSar_update]
  have hown : sarOf { v with now := (mapSar n (fun x => { x with free := b + 1790 }) s).now } n = { sarOf s n with free := b + 1790 } := sarOf_of_sars hvsar
  rw [hown, hvsar, sarsWith_sarsWith]
  rw [hw'] at hv hfault
  refine ⟨sarOf_of_sars rfl, ?_, ?_, hv.length, hv.outside, hv.pst, rfl, fun k => ⟨hv.alike k, hv.ref k, ?_⟩, hfault⟩
  · exact congrArg (fun y => sarsWith n y s.lhf.sar) (Eq.symm (sarOf_of_sars (by exact rfl)))
  · show v.lhf.tG = _
    rw [hv.lhf]
  · exact (hchange k).trans (by rw [hsysw])


/-- What O36 says of a conversion taken, whatever is published after it. -/
theorem Converted.reads {n : Nat} {t code : Int} {x : LSar} {u : Nat} {s v : State} (h : Converted u n t code x s v) :
    (n < s.lhf.sys.length → ∃ y, (sysOf v n).win = (y :: (sysOf s n).win).take 89 ∧ y.t = t - 1000 ∧ y.lt = !s.net.joined
        ∧ y.code = max (-2048) (min 2047 code)
        ∧ (clampAt (sysOf s n) (t - 1000) 20000 = none → y.m % 2 = b2n (decide (2047 ≤ code) || decide (code ≤ -2048))))
      ∧ v.stg = s.stg ∧ v.clr = s.clr ∧ v.sin = s.sin ∧ v.sld = s.sld ∧ v.regs = s.regs ∧ v.sec = s.sec ∧ v.bsc = s.bsc ∧ v.dom = s.dom
      ∧ ((sysOf s n).ref = none → v.pst = s.pst) := by
  obtain ⟨-, hsampled, hout, hstore, -⟩ := h
  simp only [frontOutside, Prod.mk.injEq] at hout
  obtain ⟨hstg, hclr, hsin, hsld, hregs, hsec, hbsc, hdom, -⟩ := hout
  refine ⟨fun hn => ?_, hstg, hclr, hsin, hsld, hregs, hsec, hbsc, hdom, hstore⟩
  obtain ⟨y, hwin, hat, hbase, htaken, hclip⟩ := hsampled hn
  refine ⟨y, hwin, hat, hbase, htaken, fun hc => (hclip hc).trans ?_⟩
  rw [show decide (max (-2048) (min 2047 code) = 2047) = decide (2047 ≤ code) by rw [decide_eq_decide]; omega,
    show decide (max (-2048) (min 2047 code) = -2048) = decide (code ≤ -2048) by rw [decide_eq_decide]; omega]

/-- A conversion taken after an urgent one is one of the state before it. -/
theorem Converted.after {n u : Nat} {t code : Int} {x : LSar} {s v w : State} (h : Converted u n t code x v w)
    (hsar : v.lhf.sar = sarsWith u x s.lhf.sar) (hlen : v.lhf.sys.length = s.lhf.sys.length) (hout : frontOutside v = frontOutside s) (hpst : v.pst = s.pst)
    (hsys : ∀ k, sampleKey (sysOf v k) = sampleKey (sysOf s k) ∧ ((sysOf s k).ref = none → (sysOf v k).ref = none) ∧ (sysOf v k).change = (sysOf s k).change) :
    w.lhf.sar = sarsWith u (slotAfter x t) s.lhf.sar
      ∧ (n < s.lhf.sys.length → ∃ y, (sysOf w n).win = (y :: (sysOf s n).win).take 89 ∧ y.t = t - 1000 ∧ y.lt = !s.net.joined
          ∧ y.code = max (-2048) (min 2047 code)
          ∧ (clampAt (sysOf s n) (t - 1000) 20000 = none → y.m % 2 = b2n (decide (2047 ≤ code) || decide (code ≤ -2048))))
      ∧ w.stg = s.stg ∧ w.clr = s.clr ∧ w.sin = s.sin ∧ w.sld = s.sld ∧ w.regs = s.regs ∧ w.sec = s.sec ∧ w.bsc = s.bsc ∧ w.dom = s.dom
      ∧ ((sysOf s n).ref = none → w.pst = s.pst) := by
  obtain ⟨hsampled, hrest⟩ := h.reads
  obtain ⟨hkey, href, -⟩ := hsys n
  simp only [frontOutside, Prod.mk.injEq] at hout
  obtain ⟨hstg, hclr, hsin, hsld, hregs, hsec, hbsc, hdom, hjoined⟩ := hout
  have hclamp : clampAt (sysOf v n) (t - 1000) 20000 = clampAt (sysOf s n) (t - 1000) 20000 := by
    unfold clampAt
    rw [show (sysOf v n).clamp = (sysOf s n).clamp from congrArg (fun o => o.2.1) hkey, show (sysOf v n).past = (sysOf s n).past from congrArg (fun o => o.2.2) hkey]
  rw [hlen, hclamp, hjoined, show (sysOf v n).win = (sysOf s n).win from congrArg Prod.fst hkey] at hsampled
  rw [hstg, hclr, hsin, hsld, hregs, hsec, hbsc, hdom, hpst] at hrest
  obtain ⟨h1, h2, h3, h4, h5, h6, h7, h8, hp⟩ := hrest
  exact ⟨h.sar.trans (by rw [hsar, sarsWith_sarsWith]), hsampled, h1, h2, h3, h4, h5, h6, h7, h8, fun hr => hp (href hr)⟩

theorem sarsWith_quarter (n : Nat) (y : LSar) (l : Two LSar) : sarsWith (n / 4) y l = if n < 4 then { l with a := y } else { l with b := y } := by
  unfold sarsWith
  by_cases h : n < 4
  · rw [if_pos h, if_pos (by omega)]
  · rw [if_neg h, if_neg (by omega)]

theorem sarOf_quarter (n : Nat) (s : State) : sarOf s (n / 4) = if n < 4 then s.lhf.sar.a else s.lhf.sar.b := by
  unfold sarOf
  by_cases h : n < 4
  · rw [if_pos h, if_pos (by omega)]
  · rw [if_neg h, if_neg (by omega)]

/-- The grid point at which an urgent conversion asked for now begins (R236). -/
theorem urgentConversion_asked {n : Fin 8} {t r : Int} {s : State} (hon : active s .field = true ∧ s.lhf.on = true) :
    ∃ b, exec (.urgentConversion t n r) s = settle (bump (0xBF00 + 4 * (n.val / 4))
        (mapSar (n.val / 4) (fun x => { x with urg := some b, wait := x.wait ++ [(b, n.val, r)] }) (atTime t s)))
      ∧ (match (if n.val < 4 then s.lhf.sar.a else s.lhf.sar.b).urg with | some k => max (grid10 t) (k + 2000000) | none => grid10 t) = b := by
  refine ⟨max (grid10 t) (((sarOf (atTime t s) (n.val / 4)).urg.map (· + 2000000)).getD (grid10 t)), ?_, ?_⟩
  · show execUrgentConversion t n r s = _
    unfold execUrgentConversion
    dsimp only
    rw [front_on hon]
    rfl
  · rw [show sarOf (atTime t s) (n.val / 4) = sarOf s (n.val / 4) from rfl, sarOf_quarter]
    cases (if n.val < 4 then s.lhf.sar.a else s.lhf.sar.b).urg with
    | some k => rfl
    | none => exact (max_self _).symm

/-- Settles O36: each conversion by whether FIELD is in service and whether the SAR's next slot ends now, with none or one urgent conversion before it. -/
theorem conversionsFollowTheirSlots : Obligations.ConversionsFollowTheirSlots := by
  unfold Obligations.ConversionsFollowTheirSlots
  intro t s
  dsimp only
  refine ⟨fun u2 code hon => ⟨fun hw hr ht => ?plain, fun b m r hw hr hb ht hch => ?urgent, fun hw hr ht => ?other⟩, fun a b hon => ⟨fun hms => ?strobe, fun hms => ?early⟩,
    fun n r hon => ?asked, fun u2 a b n hoff i hi => ?off⟩
  case plain =>
    have hexec := sarConversion_eq (t := t) (code := code) (u := u2) hon (v := atTime t s) (by rw [show (sarOf (atTime t s) u2.val).wait = [] from hw]; rfl) hr
    have hconv := conversion_converts u2.val t code (atTime t s)
    exact settles (hexec.trans (if_neg (not_not.mpr ht.symm))) fun o g => ⟨hconv.sar, hconv.reads⟩
  case other =>
    have hexec := sarConversion_eq (t := t) (code := code) (u := u2) hon (v := atTime t s) (by rw [show (sarOf (atTime t s) u2.val).wait = [] from hw]; rfl) hr
    exact settles (hexec.trans (if_pos (Ne.symm ht))) fun o g => rfl
  case urgent =>
    obtain ⟨v, hv, hown, hsars, htG, hlen, hout, hpst, hnow, hsys, hfault⟩ := runUrgents_one (n := u2.val) (m := m) (r := r) (s := atTime t s) hr hb
    have hexec := sarConversion_eq (t := t) (code := code) (u := u2) hon (v := v) (by rw [show (sarOf (atTime t s) u2.val).wait = [(b, m, r)] from hw]; exact hv)
      (by rw [hown]; exact hr)
    have hconv := conversion_converts u2.val t code v
    have hstart : slotStart v u2.val + 1790 = t := by
      unfold slotStart gridAt
      rw [hown, htG]
      exact ht.symm
    have hafter := hconv.after hsars hlen hout hpst hsys
    have hstands := hconv.fault ((hsys _).2.2.trans (by rw [hown]; exact hch)) m
    rw [hown] at hafter
    exact settles (hexec.trans (if_neg (not_not.mpr hstart))) fun o g => ⟨hafter.1, hafter.2.1, hafter.2.2, fun h19 hm hl => hstands (hfault h19 hm hl)⟩
  case strobe =>
    have hexec : exec (.routineConversion t a b) s = settle (mapSar 1 (fun x => { x with routine := some (t, s.lhf.rot, b) })
        (mapSar 0 (fun x => { x with routine := some (t, s.lhf.rot, a) }) (mapLhf (fun e => { e with rot := (s.lhf.rot + 1) % 6 }) (atTime t s)))) := by
      show execRoutineConversion t a b s = _
      unfold execRoutineConversion
      dsimp only
      rw [front_on hon, hms]
      rfl
    exact settles hexec fun o g => rfl
  case early =>
    have hexec : exec (.routineConversion t a b) s = settle (atTime t s) := by
      show execRoutineConversion t a b s = _
      unfold execRoutineConversion
      dsimp only
      rw [front_on hon, Bool.false_or]
      exact if_pos (bne_iff_ne.mpr hms)
    exact settles hexec fun o g => rfl
  case asked =>
    obtain ⟨b, hexec, hb⟩ := urgentConversion_asked (n := n) (r := r) hon
    refine settles hexec fun o g => ?_
    rw [mapSar_update, sarsWith_quarter, sarOf_quarter, ← hb]
    rfl
  case off =>
    have hexec : exec i s = settle (atTime t s) := by
      have hstays := front_off (t := t) hoff
      simp only [List.mem_cons, List.not_mem_nil, or_false] at hi
      rcases hi with rfl | rfl | rfl
      · show execSarConversion t u2 a s = _
        unfold execSarConversion
        dsimp only
        rw [hstays]
        rfl
      · show execRoutineConversion t a b s = _
        unfold execRoutineConversion
        dsimp only
        rw [hstays]
        rfl
      · show execUrgentConversion t n a s = _
        unfold execUrgentConversion
        dsimp only
        rw [hstays]
        rfl
    exact settles hexec fun o g => rfl

end Sys2Proof.Proofs
end

section
/-!
PROOFS. Clamps, test tones and excitation of a legacy system (R239, R244 to R246).
-/

namespace Sys2Proof.Proofs
open Sys2Proof.Machine Sys2Proof.Laws

/-! ## What a fault leaves of its system -/

/-- What of a system neither a fault nor a settling says. -/
def heldKey (x : LSys) : Option (Int × Bool) × Option (Int × Int × Bool) × Nat × Option Burst × Word := (x.clamp, x.past, x.range, x.burst, x.q)

theorem mapSys_held {n : Nat} {f : LSys → LSys} {s : State} (h : heldKey (f (sysOf s n)) = heldKey (sysOf s n)) (m : Nat) :
    heldKey (sysOf (mapSys n f s) m) = heldKey (sysOf s m) := by
  rw [sysOf_mapSys]
  split
  case isTrue he => rw [h, he.1]
  case isFalse => rfl

theorem note_sysOf (code : Nat) (d : Dom) (b : Nat) (p0 p1 p2 : Word) (s : State) (m : Nat) : sysOf (note code d b p0 p1 p2 s) m = sysOf s m := by
  rw [note_update]; rfl

theorem setFault_held (n f : Nat) (r : Int) (s : State) (m : Nat) : heldKey (sysOf (setFault n f r s) m) = heldKey (sysOf s m) := by
  unfold setFault
  split
  · rfl
  · rw [note_sysOf]
    have hlhf : (sysBump n (8 + f) (markFault n f s)).lhf = (mapSys n (fun x => { x with faults := setNth x.faults (f - 1) true }) s).lhf := failLegacy_lhf n _
    unfold sysOf at *
    rw [hlhf]
    exact mapSys_held rfl m

theorem clearFault_held (n f : Nat) (r : Int) (s : State) (m : Nat) : heldKey (sysOf (clearFault n f r s) m) = heldKey (sysOf s m) := by
  unfold clearFault
  split
  · rw [note_sysOf]
    unfold unmarkFault
    dsimp only
    have hset := mapSys_held (n := n) (f := fun x => { x with faults := setNth x.faults (f - 1) false }) (s := s) rfl m
    split
    · exact hset
    · exact (mapSys_held (by rfl) m).trans hset
  · rfl

/-- A system that is in some way unlike one after reset is one of those there are. -/
theorem sys_listed {n : Nat} {s : State} (h : sysOf s n ≠ LSys.reset) : n < s.lhf.sys.length := by
  by_contra hn
  exact h (congrArg (fun o : Option LSys => o.getD LSys.reset) (List.getElem?_eq_none (Nat.le_of_not_lt hn)))

theorem sysOf_mapSys_own {n : Nat} {s : State} (f : LSys → LSys) (h : n < s.lhf.sys.length) : sysOf (mapSys n f s) n = f (sysOf s n) := by
  rw [sysOf_mapSys, if_pos ⟨rfl, h⟩]

section
variable {t : Int} {n : Fin 8} {s : State}

theorem mapSys_congr {n : Nat} {f g : LSys → LSys} {s : State} (h : f (sysOf s n) = g (sysOf s n)) : mapSys n f s = mapSys n g s :=
  congrArg (fun y => mapLhf (fun x => { x with sys := setNth x.sys n y }) s) h

/-! ## Clamps (R239) -/

theorem clampTrip_on (pos : Bool) (hon : active s .field = true ∧ s.lhf.on = true) :
    exec (.clampTrip t n pos) s = settle (mapSys n.val (fun x => { x with clamp := some (t, pos) }) (atTime t s)) := by
  show execClampTrip t n pos s = _
  unfold execClampTrip
  dsimp only
  rw [front_on hon]
  rfl

theorem clampTrip_off (pos : Bool) (hoff : ¬ (active s .field = true ∧ s.lhf.on = true)) : exec (.clampTrip t n pos) s = settle (atTime t s) := by
  show execClampTrip t n pos s = _
  unfold execClampTrip
  dsimp only
  rw [front_off hoff]
  rfl

/-- A system whose clamp has released: it starts on its highest usable range. -/
def released (t : Int) (k : Int × Bool) (top : Nat) (x : LSys) : LSys := { x with clamp := none, past := some (k.1, t, k.2), range := top, down := 0 }

theorem clampRelease_none (h : (sysOf s n).clamp = none) : exec (.clampRelease t n) s = settle (atTime t s) := by
  show execClampRelease t n s = _
  unfold execClampRelease
  dsimp only
  rw [show (sysOf (atTime t s) n.val).clamp = none from h]

theorem clampRelease_some {k : Int × Bool} (h : (sysOf s n).clamp = some k) :
    exec (.clampRelease t n) s = settle (clearFault n.val 5 0 (mapSys n.val (released t k (topRange s n)) (atTime t s))) := by
  show execClampRelease t n s = _
  unfold execClampRelease
  dsimp only
  rw [show (sysOf (atTime t s) n.val).clamp = some k from h]
  rfl

theorem clampRelease_releases {k : Int × Bool} (h : (sysOf s n).clamp = some k) :
    ∃ u, exec (.clampRelease t n) s = .next u ∧ (sysOf u n).clamp = none ∧ (sysOf u n).past = some (k.1, t, k.2) ∧ (sysOf u n).range = topRange s n
      ∧ (nth false (sysOf s n).faults 4 = false →
        u = { shown s u with now := t, lhf := { s.lhf with sys := setNth s.lhf.sys n (released t k (topRange s n) (sysOf s n)) } }) := by
  have hlist : n.val < s.lhf.sys.length := sys_listed fun he => by rw [he] at h; cases h
  have hheld := clearFault_held n.val 5 0 (mapSys n.val (released t k (topRange s n)) (atTime t s)) n.val
  have hown : sysOf (mapSys n.val (released t k (topRange s n)) (atTime t s)) n.val = released t k (topRange s n) (sysOf s n) := sysOf_mapSys_own _ hlist
  rw [hown] at hheld
  refine settles (clampRelease_some h) fun o g => ⟨congrArg Prod.fst hheld, (congrArg (fun e => e.2.1) hheld :), (congrArg (fun e => e.2.2.1) hheld :), fun hf => ?_⟩
  have hquiet : clearFault n.val 5 0 (mapSys n.val (released t k (topRange s n)) (atTime t s)) = mapSys n.val (released t k (topRange s n)) (atTime t s) := by
    unfold clearFault
    rw [hown]
    exact if_neg (by rw [show (released t k (topRange s n) (sysOf s n)).fault 5 = false from hf]; decide)
  rw [hquiet]
  rfl

/-! ## Test tones (R245, R246) -/

theorem burstAt_iff (k : Nat) : burstAt s n.val t = some k ↔ t = s.lhf.tT + 250000000 * (k : Int) + 31250000 * (n.val : Int) := by
  unfold burstAt
  dsimp only
  split
  case isTrue h =>
    rw [Bool.and_eq_true, decide_eq_true_eq, decide_eq_true_eq] at h
    rw [Option.some_inj]
    omega
  case isFalse h =>
    rw [Bool.and_eq_true, decide_eq_true_eq, decide_eq_true_eq] at h
    refine ⟨fun he => absurd he.symm (Option.some_ne_none k), fun he => absurd ?_ h⟩
    omega

theorem excOutput_isNone (x : LSys) (t : Int) : (excOutput x t).isNone = (!x.en || nth false x.faults 0) := by
  unfold excOutput
  dsimp only
  rw [show x.fault 1 = nth false x.faults 0 from rfl]
  split
  case isTrue h => exact h.symm
  case isFalse h => exact (Bool.eq_false_iff.2 h).symm

/-- Whether a system's tones are on and its output driven. -/
def ToneDriven (s : State) (n : Nat) : Prop :=
  (active s .field = true ∧ s.lhf.on = true) ∧ ctlF s n 1 1 ≠ 0 ∧ (sysOf s n).en = true ∧ nth false (sysOf s n).faults 0 = false

theorem toneDriven_iff : ToneDriven s n.val ↔ (!active (atTime t s) .field || !(atTime t s).lhf.on || decide (ctlF (atTime t s) n.val 1 1 = 0)
    || (excOutput (sysOf (atTime t s) n.val) t).isNone) = false := by
  rw [excOutput_isNone]
  simp only [Bool.or_eq_false_iff, Bool.not_eq_false', decide_eq_false_iff_not]
  exact ⟨fun ⟨⟨ha, ho⟩, hc, he, hf⟩ => ⟨⟨⟨ha, ho⟩, hc⟩, he, hf⟩, fun ⟨⟨⟨ha, ho⟩, hc⟩, he, hf⟩ => ⟨⟨ha, ho⟩, hc, he, hf⟩⟩

/-- The burst k of a system, begun at t. -/
def burstBegun (k : Nat) (t : Int) (x : LSys) : Burst :=
  { n := k, start := t, stop := t + 2000000, f := if k % 2 = 0 then x.freq + 54975581 else x.freq - 54975581, bb := x.bb, ti := 0, tq := 0, cnt := 0, skip := false,
    past := false }

theorem toneBurstStart_begins {k : Nat} (hd : ToneDriven s n.val) (ht : t = s.lhf.tT + 250000000 * (k : Int) + 31250000 * (n.val : Int)) :
    exec (.toneBurstStart t n) s = settle (mapSys n.val (fun x => { x with burst := some (burstBegun k t x) }) (atTime t s)) := by
  show execToneBurstStart t n s = _
  unfold execToneBurstStart
  dsimp only
  rw [show burstAt (atTime t s) n.val t = some k from (burstAt_iff (s := atTime t s) k).2 ht]
  unfold burstBegun
  dsimp only
  rw [if_neg (by rw [toneDriven_iff.1 hd]; decide)]
  exact congrArg settle (mapSys_congr rfl)

theorem toneBurstStart_idle (h : ¬ ToneDriven s n.val ∨ ∀ k : Nat, t ≠ s.lhf.tT + 250000000 * (k : Int) + 31250000 * (n.val : Int)) :
    exec (.toneBurstStart t n) s = settle (atTime t s) := by
  show execToneBurstStart t n s = _
  unfold execToneBurstStart
  dsimp only
  split
  · rfl
  case _ k hk =>
    refine if_pos ?_
    rcases h with h | h
    · rw [toneDriven_iff (t := t), Bool.not_eq_false] at h
      exact h
    · exact absurd ((burstAt_iff k).1 hk) (h k)

theorem toneBurstEvaluate_idle (h : (sysOf s n).burst = none ∨ ∃ b, (sysOf s n).burst = some b ∧ b.past = false) :
    exec (.toneBurstEvaluate t n) s = settle (atTime t s) := by
  show execToneBurstEvaluate t n s = _
  unfold execToneBurstEvaluate
  dsimp only
  rcases h with h | ⟨b, h, hp⟩
  · rw [show (sysOf (atTime t s) n.val).burst = none from h]
  · rw [show (sysOf (atTime t s) n.val).burst = some b from h]
    dsimp only
    rw [hp]
    rfl

theorem toneBurstEvaluate_skips {b : Burst} (h : (sysOf s n).burst = some b) (hp : b.past = true) (hs : b.skip = true) :
    exec (.toneBurstEvaluate t n) s = settle (sysBump n.val 7 (mapSys n.val (fun x => { x with burst := none }) (atTime t s))) := by
  show execToneBurstEvaluate t n s = _
  unfold execToneBurstEvaluate
  dsimp only
  rw [show (sysOf (atTime t s) n.val).burst = some b from h]
  dsimp only
  rw [hp, hs]
  rfl

/-- What a burst gives (R246). -/
def burstQ (b : Burst) : Word := w32i (satu (rnd (1048576 * (rnd b.ti 8 * rnd b.ti 8 + rnd b.tq 8 * rnd b.tq 8)) b.bb) 32)

theorem toneFault_held (n : Nat) (even fail : Bool) (q : Word) (s : State) (m : Nat) : heldKey (sysOf (toneFault n even fail q s) m) = heldKey (sysOf s m) := by
  unfold toneFault
  extract_lets s1 x stands s2
  have h1 : heldKey (sysOf s1 m) = heldKey (sysOf s m) := mapSys_held rfl m
  have h2 : heldKey (sysOf s2 m) = heldKey (sysOf s1 m) := mapSys_held rfl m
  split
  · exact (setFault_held ..).trans (h2.trans h1)
  · exact (clearFault_held ..).trans (h2.trans h1)

theorem toneBurstEvaluate_ends {b : Burst} (h : (sysOf s n).burst = some b) (hp : b.past = true) (hs : b.skip = false) :
    ∃ u, exec (.toneBurstEvaluate t n) s = .next u ∧ (sysOf u n).burst = none ∧ (sysOf u n).q = burstQ b := by
  have hlist : n.val < s.lhf.sys.length := sys_listed fun he => by rw [he] at h; cases h
  have hexec : ∃ even fail c, exec (.toneBurstEvaluate t n) s = settle (toneFault n.val even fail (burstQ b)
      { mapSys n.val (fun x => { x with burst := none, q := burstQ b }) (atTime t s) with ctr := c }) := by
    refine ⟨b.n % 2 == 0, decide ((burstQ b).toNat < (reg s (0xB008 + 0x10 * n)).toNat) || decide ((burstQ b).toNat > (reg s (0xB00C + 0x10 * n)).toNat), ?_⟩
    show ∃ c, execToneBurstEvaluate t n s = _
    unfold execToneBurstEvaluate
    dsimp only
    rw [show (sysOf (atTime t s) n.val).burst = some b from h]
    dsimp only
    rw [hp, hs, if_neg (by decide), if_neg (by decide)]
    split
    · exact ⟨_, rfl⟩
    · exact ⟨_, rfl⟩
  obtain ⟨even, fail, c, hexec⟩ := hexec
  have hheld := toneFault_held n.val even fail (burstQ b) { mapSys n.val (fun x => { x with burst := none, q := burstQ b }) (atTime t s) with ctr := c } n.val
  have hown : sysOf { mapSys n.val (fun x => { x with burst := none, q := burstQ b }) (atTime t s) with ctr := c } n.val = { sysOf s n with burst := none, q := burstQ b } :=
    sysOf_mapSys_own (s := atTime t s) (fun x => { x with burst := none, q := burstQ b }) hlist
  rw [hown] at hheld
  exact settles hexec fun o g => ⟨(congrArg (fun e => e.2.2.2.1) hheld :), (congrArg (fun e => e.2.2.2.2) hheld :)⟩

end


/-! ## Excitation (R234, R244) -/

/-- The register of a system's excitation that is written, the value kept of what is written, and whether it keeps its limits. -/
def excOff (n : Nat) (ctl : Bool) : Nat := 0xB000 + 0x10 * n + (if ctl then 4 else 0)

def excWord (ctl : Bool) (v : Word) : Word := w32 (if ctl then v.toNat &&& 0xFFFF03 else fld v 29 0)

def ExcOk (ctl : Bool) (v : Word) : Prop :=
  if ctl then fld v 23 16 ≤ 200 ∧ fld v 15 8 ≤ (if bitOf v 1 then 181 else 200) else 175921860 ≤ fld v 29 0 ∧ fld v 29 0 ≤ 615726512

/-- Whether a write moves the excitation. -/
def ExcMoves (s : State) (n : Nat) (ctl : Bool) (v : Word) : Prop :=
  ctl = false ∨ fld (excWord ctl v) 15 8 ≠ fld (reg s (excOff n ctl)) 15 8 ∨ bitOf (excWord ctl v) 0 ≠ bitOf (reg s (excOff n ctl)) 0

section
variable {t : Int} {n : Fin 8} {ctl : Bool} {v : Word} {s : State}

theorem excOk_iff : ExcOk ctl v ↔ (if ctl then fld v 23 16 ≤ 200 && fld v 15 8 ≤ (if bitOf v 1 then 181 else 200)
    else decide (175921860 ≤ fld v 29 0) && decide (fld v 29 0 ≤ 615726512) : Bool) = true := by
  unfold ExcOk
  cases ctl
  · simp only [Bool.false_eq_true, if_false, Bool.and_eq_true, decide_eq_true_eq]
  · simp only [if_true, Bool.and_eq_true, decide_eq_true_eq]

theorem excMoves_iff : ExcMoves s n ctl v ↔ (!ctl || fld (excWord ctl v) 15 8 != fld (reg s (excOff n ctl)) 15 8
    || bitOf (excWord ctl v) 0 != bitOf (reg s (excOff n ctl)) 0) = true := by
  unfold ExcMoves
  rw [Bool.or_eq_true, Bool.or_eq_true, Bool.not_eq_true', bne_iff_ne, bne_iff_ne, or_assoc]

/-- A write that breaks a limit is ignored; one that lands goes to the store, and moves the excitation where FIELD is ACTIVE (R234, R244). -/
theorem excitationWrite_eq :
    (¬ ExcOk ctl v → excitationWrite n ctl v s = ignoreWrite .field 0 (excOff n ctl) v 0 s)
    ∧ (ExcOk ctl v → lands s (pregWord (excOff n ctl)) = true → (active s .field = false ∨ ¬ ExcMoves s n ctl v) →
      excitationWrite n ctl v s = pstQueue (pregWord (excOff n ctl)) (excWord ctl v) s)
    ∧ (ExcOk ctl v → lands s (pregWord (excOff n ctl)) = true → active s .field = true → ExcMoves s n ctl v →
      (∀ h, (sysOf s n).change = some h → cycleNow s < 22 * (h : Int)) →
      excitationWrite n ctl v s = mapSys n (fun x => { x with change := some (x.change.getD (nextValue s)), enLow := x.enLow || (ctl && !bitOf (excWord ctl v) 0) })
        (pstQueue (pregWord (excOff n ctl)) (excWord ctl v) s)) := by
  have heq : excitationWrite n ctl v s = (if (!(if ctl then fld v 23 16 ≤ 200 && fld v 15 8 ≤ (if bitOf v 1 then 181 else 200)
        else decide (175921860 ≤ fld v 29 0) && decide (fld v 29 0 ≤ 615726512) : Bool)) = true then ignoreWrite .field 0 (excOff n ctl) v 0 s
      else if (!lands s (pregWord (excOff n ctl)) || !active s .field || !(!ctl || fld (excWord ctl v) 15 8 != fld (reg s (excOff n ctl)) 15 8
        || bitOf (excWord ctl v) 0 != bitOf (reg s (excOff n ctl)) 0)) = true then pstArrive (excOff n ctl) (pregWord (excOff n ctl)) (excWord ctl v) s
      else mapSys n (fun x => { x with change := some (x.change.getD (nextValue (applyChange n (cycleNow s) s))), enLow := x.enLow || (ctl && !bitOf (excWord ctl v) 0) })
        (pstArrive (excOff n ctl) (pregWord (excOff n ctl)) (excWord ctl v) (applyChange n (cycleNow s) s))) := rfl
  refine ⟨fun hok => ?_, fun hok hl hno => ?_, fun hok hl ha hm hc => ?_⟩
  · rw [excOk_iff, Bool.not_eq_true] at hok
    rw [heq, hok]
    rfl
  · rw [heq, excOk_iff.1 hok, if_neg (by decide), if_pos ?_, pstArrive_lands hl]
    rw [hl]
    rcases hno with ha | hm
    · rw [ha]; rfl
    · rw [excMoves_iff, Bool.not_eq_true] at hm
      rw [hm]
      cases active s .field <;> rfl
  · have happly : applyChange n (cycleNow s) s = s := by
      unfold applyChange
      dsimp only
      split
      · rfl
      case _ h hh => exact if_pos (hc h hh)
    rw [heq, excOk_iff.1 hok, if_neg (by decide), hl, ha, excMoves_iff.1 hm, if_neg (by decide), happly, pstArrive_lands hl]

theorem excitationChange_eq (hhost : active s .host = true) : exec (.lhfExcitationChange t n ctl v) s = settle (excitationWrite n ctl v (atTime t s)) :=
  if_neg (by rw [show active (atTime t s) .host = true from hhost]; decide)

end

/-- Settles O37: each command of a legacy system by its conditions. -/
theorem legacySystemsFollowTheirCommands : Obligations.LegacySystemsFollowTheirCommands := by
  unfold Obligations.LegacySystemsFollowTheirCommands
  intro t n s
  refine ⟨fun pos hon => settles (clampTrip_on pos hon) fun o g => rfl, fun pos hoff => settles (clampTrip_off pos hoff) fun o g => rfl,
    fun h => settles (clampRelease_none h) fun o g => rfl, fun k h => clampRelease_releases h,
    ⟨fun k hd ht => settles (toneBurstStart_begins hd ht) fun o g => rfl, fun h => settles (toneBurstStart_idle h) fun o g => rfl⟩,
    fun b h hp hs => toneBurstEvaluate_ends h hp hs, fun b h hp hs => settles (toneBurstEvaluate_skips h hp hs) fun o g => rfl,
    fun h => settles (toneBurstEvaluate_idle h) fun o g => rfl, fun ctl v hhost => ?excitation⟩
  case excitation =>
    obtain ⟨hignored, hqueued, hmoved⟩ := excitationWrite_eq (n := n) (ctl := ctl) (v := v) (s := atTime t s)
    have hexec := excitationChange_eq (t := t) (n := n) (ctl := ctl) (v := v) hhost
    refine ⟨fun hok hl ha hm hc => ?_, fun hok hl hno => ?_, fun hok => ?_⟩
    · exact settles (hexec.trans (congrArg settle (hmoved hok hl ha hm hc))) fun o g => rfl
    · exact settles (hexec.trans (congrArg settle (hqueued hok hl hno))) fun o g => rfl
    · obtain ⟨g, hg⟩ := ignoreWrite_update .field 0 (excOff n ctl) v 0 (atTime t s)
      refine settles (hexec.trans (congrArg settle ((hignored hok).trans hg))) fun o g' => ⟨rfl, fun hup => ?_⟩
      refine List.mem_append_right _ ?_
      rw [show aonUp (atTime t s) = true from hup]
      exact List.mem_singleton.2 rfl

end Sys2Proof.Proofs
end

section
/-!
PROOFS. Streams and the history store (R328, R348 to R353); a definition that rises (R340, R345): a refutation.
-/

namespace Sys2Proof.Proofs
open Sys2Proof.Machine Sys2Proof.Laws

/-! ## A definition that rises while its region is enabled (R345) -/

/-- HOST up; definition 0 keeps its limits, and region 0 is enabled with no block that is to carry RESTART. -/
def regionEnabled : State :=
  { State.reset with
    dom := { State.reset.dom with host := { DomSt.reset with st := .active } },
    regs := { RegSt.reset with rw := [(0xD400, 0x110), (0xD404, 0x10001), (0xD408, 1)] },
    hsc := { State.reset.hsc with regions := [(0, some { en := true, hold := false, wptr := 0, wraps := 0, shed := 0, heldAt := 0, countdown := none, armed := true,
                                                         blocks := [], fresh := false, gap := false, lastN := none })] } }

/-- What a step leaves, where it leaves a state. -/
def leaves (r : Host.Outcome State Fault Refusal) (p : State → Bool) : Bool := match r with | .next u => p u | _ => false

theorem regionEnabled_rises : leaves (exec (.hscSdefEnable 0 0 true) regionEnabled) (fun u => (regionOf u.hsc 0).fresh) = true := by decide +kernel

/-- Refutes O39: the rise of a definition's EN marks its enabled region too, so that the next block there carries RESTART; the statement keeps every region. -/
theorem not_regionsAndDefinitionsFollowTheirEnable : ¬ Obligations.RegionsAndDefinitionsFollowTheirEnable := by
  unfold Obligations.RegionsAndDefinitionsFollowTheirEnable
  rintro ⟨-, hdefs, -⟩
  obtain ⟨u, hu, ⟨-, hregions, -⟩, -⟩ := (hdefs 0 0 regionEnabled rfl).1 rfl (by decide +kernel)
  have hfresh : (regionOf u.hsc 0).fresh = true := by
    have := regionEnabled_rises
    rw [hu] at this
    exact this
  unfold regionOf at hfresh
  rw [hregions] at hfresh
  cases hfresh


/-! ## Data rings (R327, R328) -/

/-- A ring as it is read. -/
theorem ringOf_mapRing (n : Nat) (f : RingSt → RingSt) (s : State) : ringOf (mapRing n f s).hre n = f (ringOf s.hre n) := by
  show (tget (none : Option RingSt) n (tput none n (some _) s.hre.rings)).getD _ = _
  rw [tget_tput_some]
  rfl

theorem ringOf_mapRing_ne {n m : Nat} (f : RingSt → RingSt) (s : State) (h : m ≠ n) : ringOf (mapRing n f s).hre m = ringOf s.hre m := by
  show (tget (none : Option RingSt) m (tput none n (some _) s.hre.rings)).getD _ = _
  rw [tget_tput_ne _ _ _ _ h]
  rfl

/-- An item laid into the buffer being filled, where one is posted that holds it beside what it has. -/
theorem ringPut_fits {n fmt job : Nat} {item : List Byte} {p : Posted} {l : List Posted} {s : State} (hready : ringReady s n = true)
    (hposted : (ringOf s.hre n).posted = p :: l) (hfits : (ringOf s.hre n).fill.length + item.length ≤ p.length) :
    ringPut n fmt job item s = mapRing n (fun g => { g with fill := g.fill ++ item, items := g.items + 1 }) s := by
  have hfit : ringFit n fmt job item.length (ringOf s.hre n).posted.length s = s := by
    rw [hposted]
    show ringFit n fmt job item.length (l.length + 1) s = s
    unfold ringFit
    dsimp only
    rw [hposted]
    exact if_pos hfits
  unfold ringPut
  rw [hready, if_neg (by decide), hfit]
  dsimp only
  rw [hposted]
  rfl

theorem ringPut_sheds {n fmt job : Nat} {item : List Byte} {s : State} (h : ringReady s n = false) : ringPut n fmt job item s = ringShed n s := by
  unfold ringPut
  rw [h]
  rfl

/-- What a completed buffer leaves: the ring empty with fewer buffers posted, what was written before written. -/
structure RingEmptied (n : Nat) (s u : State) : Prop where
  frame : ∃ o g, u = { s with out := s.out ++ o, hre := { hreItems s.hre g with rings := u.hre.rings } }
  fill : (ringOf s.hre n).fill = [] → (ringOf u.hre n).fill = []
  items : (ringOf s.hre n).items = 0 → (ringOf u.hre n).items = 0
  posted : (ringOf u.hre n).posted <:+ (ringOf s.hre n).posted

section
variable {n : Nat} {s t u : State}

theorem RingEmptied.refl (n : Nat) (s : State) : RingEmptied n s s :=
  ⟨⟨[], s.hre, by rw [List.append_nil]; rfl⟩, id, id, List.suffix_refl _⟩

theorem RingEmptied.trans (h : RingEmptied n s t) (k : RingEmptied n t u) : RingEmptied n s u := by
  obtain ⟨o, g, hst⟩ := h.frame
  obtain ⟨o', g', htu⟩ := k.frame
  refine ⟨⟨o ++ o', g', ?_⟩, fun hf => k.fill (h.fill hf), fun hi => k.items (h.items hi), List.IsSuffix.trans k.posted h.posted⟩
  rw [htu, hst, List.append_assoc]
  rfl

/-- A ring whose front descriptor has been returned. -/
def nextPosted (g : RingSt) : RingSt := { g with done := g.done + 1, seq := g.seq + 1, shed := 0, fill := [], items := 0, posted := g.posted.drop 1 }

/-- A descriptor returned: the ring goes on with the next one, its buffer empty. -/
theorem ringDone_empties (n : Nat) (p : Posted) (bytes fmt job : Nat) (reduced err last : Bool) (crc : Word) (s : State) :
    let u := ringDone n p bytes fmt job reduced err last crc s
    RingEmptied n s u ∧ (ringOf u.hre n).fill = [] ∧ (ringOf u.hre n).items = 0 ∧ (ringOf u.hre n).posted = (ringOf s.hre n).posted.drop 1 := by
  intro u
  have hu : ∃ o g, u = { s with out := s.out ++ o, hre := hreItems (mapRing n nextPosted s).hre g } := by
    unfold u ringDone
    extract_lets g w4 ws v
    obtain ⟨o, ho⟩ : ∃ o, v = { s with out := s.out ++ o } := hostWrite_update ..
    obtain ⟨g, hg⟩ := vecItem_update (ringVector n) (mapRing n nextPosted v)
    refine ⟨o, g, hg.trans ?_⟩
    rw [ho]
    rfl
  obtain ⟨o, g, hu⟩ := hu
  have hring : ringOf u.hre n = nextPosted (ringOf s.hre n) := by
    rw [hu]
    exact ringOf_mapRing n nextPosted s
  refine ⟨⟨⟨o, g, ?_⟩, fun _ => by rw [hring]; rfl, fun _ => by rw [hring]; rfl, by rw [hring]; exact List.drop_suffix ..⟩, by rw [hring]; rfl, by rw [hring]; rfl, by rw [hring]; rfl⟩
  rw [hu]
  rfl

theorem ringPrune_empties (n f : Nat) (s : State) : RingEmptied n s (ringPrune n f s) := by
  induction f generalizing s with
  | zero => exact .refl n s
  | succ f ih =>
    unfold ringPrune
    split
    · split
      · exact .refl n s
      · exact (ringDone_empties ..).1.trans (ih _)
    · exact .refl n s

/-- A buffer completed: its data first, then its done form. -/
theorem ringClose_empties {p : Posted} {l : List Posted} (fmt job : Nat) (reduced last : Bool) (hposted : (ringOf s.hre n).posted = p :: l) :
    let u := ringClose n fmt job reduced last s
    (∃ o g, u = { s with out := (hostWrite p.addr (ringOf s.hre n).fill s).out ++ o, hre := { hreItems s.hre g with rings := u.hre.rings } })
      ∧ (ringOf u.hre n).fill = [] ∧ (ringOf u.hre n).items = 0 ∧ (ringOf u.hre n).posted <:+ l := by
  intro u
  have hu : u = ringPrune n l.length (ringDone n p (ringOf s.hre n).fill.length fmt job reduced false last (crc32c (ringOf s.hre n).fill)
      (hostWrite p.addr (ringOf s.hre n).fill s)) := by
    unfold u ringClose
    dsimp only
    rw [hposted]
  obtain ⟨o, ho⟩ := hostWrite_update p.addr (ringOf s.hre n).fill s
  generalize hostWrite p.addr (ringOf s.hre n).fill s = v at hu ho
  obtain ⟨hdone, hfill, hitems, hdrop⟩ := ringDone_empties n p (ringOf s.hre n).fill.length fmt job reduced false last (crc32c (ringOf s.hre n).fill) v
  have hprune := ringPrune_empties n l.length (ringDone n p (ringOf s.hre n).fill.length fmt job reduced false last (crc32c (ringOf s.hre n).fill) v)
  rw [← hu] at hprune
  have hposted' : (ringOf v.hre n).posted = p :: l := by rw [ho]; exact hposted
  obtain ⟨o', g, hframe⟩ := (hdone.trans hprune).frame
  refine ⟨⟨o', g, hframe.trans ?_⟩, hprune.fill hfill, hprune.items hitems, ?_⟩
  · rw [ho]
  · have := hprune.posted
    rw [hdrop, hposted'] at this
    exact this

end

/-! ## STREAM_BLOCK_PACK and STREAM_FLUSH_TIMER (R328, R348, R349) -/

section
variable {t : Int} {n : Fin 8} {s : State}

/-- A state whose front block for ring n has left its queue. -/
def unqueued (n : Nat) (r : List Block) (s : State) : State := { s with hsc := { s.hsc with strq := tput [] n r s.hsc.strq } }

theorem streamBlockPack_eq {b : Block} {r : List Block} (hq : tget [] n.val s.hsc.strq = b :: r) : exec (.streamBlockPack t n) s =
    if !active s .host then settle (unqueued n r (atTime t s)) else if b.bytes = [] then settle (closeStr n.val true (unqueued n r (atTime t s)))
      else settle (packStr n.val b (unqueued n r (atTime t s))) := by
  show execStreamBlockPack t n s = _
  unfold execStreamBlockPack
  dsimp only
  rw [show tget [] n.val (atTime t s).hsc.strq = b :: r from hq]
  rfl

theorem streamBlockPack_none (hq : tget [] n.val s.hsc.strq = []) : exec (.streamBlockPack t n) s = settle (atTime t s) := by
  show execStreamBlockPack t n s = _
  unfold execStreamBlockPack
  dsimp only
  rw [show tget [] n.val (atTime t s).hsc.strq = [] from hq]

/-- Packing a block changes the deadline beside what laying it changes. -/
theorem packStr_update (n : Nat) (b : Block) (s : State) :
    ∃ a, packStr n b s = { ringPut n (blockFormat b.bytes) 0 b.bytes s with hsc := { (ringPut n (blockFormat b.bytes) 0 b.bytes s).hsc with strAt := a } } := by
  unfold packStr
  dsimp only
  split
  · exact ⟨_, rfl⟩
  · exact ⟨_, rfl⟩

theorem streamFlushTimer_eq {e : Int} (he : tget none n.val s.hsc.strAt = some e) :
    exec (.streamFlushTimer t n) s = if t ≥ e then settle (closeStr n.val false (atTime t s)) else settle (atTime t s) := by
  show execStreamFlushTimer t n s = _
  unfold execStreamFlushTimer
  dsimp only
  rw [show tget none n.val (atTime t s).hsc.strAt = some e from he]
  rfl

/-- A buffer whose FLUSH has passed leaves it, its data first. -/
theorem streamFlushTimer_closes {e : Int} {p : Posted} {l : List Posted} (he : tget none n.val s.hsc.strAt = some e) (hdue : e ≤ t)
    (hfill : (ringOf s.hre n.val).fill ≠ []) (hposted : (ringOf s.hre n.val).posted = p :: l) (hcan : hostCan s = true) (hrun : hreRun s = true) :
    ∃ u, exec (.streamFlushTimer t n) s = .next u ∧ .hostWrite p.addr (ringOf s.hre n.val).fill ∈ u.out ∧ (ringOf u.hre n.val).fill = []
      ∧ (ringOf u.hre n.val).items = 0 ∧ (ringOf u.hre n.val).posted <:+ l
      ∧ u = { reported s u with now := t, ctr := s.ctr, erc := s.erc, hsc := { s.hsc with strAt := tput none n.val none s.hsc.strAt },
                                hre := { (reported s u).hre with rings := u.hre.rings } } := by
  have hexec := (streamFlushTimer_eq (t := t) he).trans (if_pos hdue)
  have hclose : closeStr n.val false (atTime t s) = setFlush n.val none (ringClose n.val (blockFormat (ringOf s.hre n.val).fill) 0 false false (atTime t s)) := by
    unfold closeStr
    dsimp only
    rw [if_neg (show ¬ (ringOf (atTime t s).hre n.val).fill = [] from hfill)]
    rfl
  obtain ⟨⟨o, g, hframe⟩, hf, hi, hp⟩ := ringClose_empties (s := atTime t s) (blockFormat (ringOf s.hre n.val).fill) 0 false false hposted
  rw [hclose] at hexec
  generalize ringClose n.val (blockFormat (ringOf s.hre n.val).fill) 0 false false (atTime t s) = v at hexec hframe hf hi hp
  have hwrite : (hostWrite p.addr (ringOf (atTime t s).hre n.val).fill (atTime t s)).out = s.out ++ [.hostWrite p.addr (ringOf s.hre n.val).fill] := by
    unfold hostWrite
    rw [show hostCan (atTime t s) = true from hcan, show hreRun (atTime t s) = true from hrun]
    rfl
  rw [hwrite] at hframe
  refine settles hexec fun o' g' => ⟨?_, hf, hi, hp, ?_⟩
  · refine List.mem_append_left _ ?_
    show _ ∈ v.out
    rw [hframe]
    exact List.mem_append_left _ (List.mem_append_right _ (List.mem_singleton_self _))
  · rw [hframe]
    rfl

/-- What a block shed for a ring changes. -/
theorem ringShed_update (n : Nat) (s : State) : ringShed n s = { mapRing n (fun g => { g with shed := satAdd 32 g.shed 1 }) s with
    ctr := (bump (0xCC5C + 4 * n) s).ctr, dom := s.dom.put .host { s.dom.get .host with busy := true } } := rfl

/-- The next block for a ring laid whole behind what the buffer holds, or shed and counted. -/
theorem streamBlockPack_lays {b : Block} {r : List Block} (hq : tget [] n.val s.hsc.strq = b :: r) :
    let g := ringOf s.hre n.val
    let q := tput [] n.val r s.hsc.strq
    (active s .host = false → ∃ u, exec (.streamBlockPack t n) s = .next u ∧ u = { shown s u with now := t, hsc := { s.hsc with strq := q } })
      ∧ (∀ p l, active s .host = true → b.bytes ≠ [] → ringReady s n.val = true → g.posted = p :: l → g.fill.length + b.bytes.length ≤ p.length →
        ∃ u, exec (.streamBlockPack t n) s = .next u ∧ ringOf u.hre n.val = { g with fill := g.fill ++ b.bytes, items := g.items + 1 }
          ∧ (∀ m, m ≠ n.val → ringOf u.hre m = ringOf s.hre m)
          ∧ u = { shown s u with now := t, hsc := { s.hsc with strq := q, strAt := u.hsc.strAt }, hre := { (shown s u).hre with rings := u.hre.rings } })
      ∧ (active s .host = true → b.bytes ≠ [] → ringReady s n.val = false →
        ∃ u, exec (.streamBlockPack t n) s = .next u ∧ ringOf u.hre n.val = { g with shed := satAdd 32 g.shed 1 }
          ∧ u = { shown s u with now := t, ctr := (bump (0xCC5C + 4 * n.val) s).ctr, dom := s.dom.put .host { s.dom.get .host with busy := true },
                                 hsc := { s.hsc with strq := q, strAt := u.hsc.strAt }, hre := { (shown s u).hre with rings := u.hre.rings } }) := by
  have hexec := streamBlockPack_eq (t := t) hq
  refine ⟨fun hoff => ?off, fun p l hon hbytes hready hposted hfits => ?fits, fun hon hbytes hready => ?sheds⟩
  case off =>
    rw [hoff] at hexec
    exact settles (hexec.trans (if_pos rfl)) fun o g => rfl
  case fits =>
    rw [hon] at hexec
    obtain ⟨a, ha⟩ := packStr_update n.val b (unqueued n.val r (atTime t s))
    have hput : ringPut n.val (blockFormat b.bytes) 0 b.bytes (unqueued n.val r (atTime t s)) = _ :=
      ringPut_fits (s := unqueued n.val r (atTime t s)) hready hposted hfits
    rw [hput] at ha
    rw [if_neg (by decide), if_neg hbytes, ha] at hexec
    exact settles hexec fun o g => ⟨ringOf_mapRing n.val (fun g => { g with fill := g.fill ++ b.bytes, items := g.items + 1 }) s,
      fun m hm => ringOf_mapRing_ne (fun g => { g with fill := g.fill ++ b.bytes, items := g.items + 1 }) s hm, rfl⟩
  case sheds =>
    rw [hon] at hexec
    obtain ⟨a, ha⟩ := packStr_update n.val b (unqueued n.val r (atTime t s))
    have hput : ringPut n.val (blockFormat b.bytes) 0 b.bytes (unqueued n.val r (atTime t s)) = _ :=
      ringPut_sheds (s := unqueued n.val r (atTime t s)) hready
    rw [hput, ringShed_update] at ha
    rw [if_neg (by decide), if_neg hbytes, ha] at hexec
    exact settles hexec fun o g => ⟨ringOf_mapRing n.val (fun g => { g with shed := satAdd 32 g.shed 1 }) s, rfl⟩

/-- A timer that is not due, or that finds its buffer empty. -/
theorem streamFlushTimer_waits {e : Int} (he : tget none n.val s.hsc.strAt = some e) :
    (t < e → ∃ u, exec (.streamFlushTimer t n) s = .next u ∧ u = { shown s u with now := t })
      ∧ (e ≤ t → (ringOf s.hre n.val).fill = [] → ∃ u, exec (.streamFlushTimer t n) s = .next u
        ∧ u = { shown s u with now := t, hsc := { s.hsc with strAt := tput none n.val none s.hsc.strAt } }) := by
  have hexec := streamFlushTimer_eq (t := t) he
  refine ⟨fun hearly => settles (hexec.trans (if_neg (by omega))) fun o g => rfl, fun hdue hempty => ?_⟩
  have hclose : closeStr n.val false (atTime t s) = setFlush n.val none (atTime t s) := congrArg (setFlush n.val none) (if_pos hempty)
  rw [if_pos hdue, hclose] at hexec
  exact settles hexec fun o g => rfl

end

/-! ## HISTORY_BLOCK_WRITE (R351 to R353) -/

section
variable {t : Int} {k : Fin 16} {s u v : State}

theorem regionOf_mapRegion (k : Nat) (f : RegionSt → RegionSt) (s : State) : regionOf (mapRegion k f s).hsc k = f (regionOf s.hsc k) := by
  show (tget (none : Option RegionSt) k (tput none k (some _) s.hsc.regions)).getD _ = _
  rw [tget_tput_some]
  rfl

theorem regionOf_mapRegion_ne {k j : Nat} (f : RegionSt → RegionSt) (s : State) (h : j ≠ k) : regionOf (mapRegion k f s).hsc j = regionOf s.hsc j := by
  show (tget (none : Option RegionSt) j (tput none k (some _) s.hsc.regions)).getD _ = _
  rw [tget_tput_ne _ _ _ _ h]
  rfl

/-- What a block written to region k keeps: its queue, every other region, and what lies outside the history store. -/
structure RegionFrame (k : Nat) (s u : State) : Prop where
  queue : u.hsc.hisq = s.hsc.hisq
  others : ∀ j, j ≠ k → regionOf u.hsc j = regionOf s.hsc j
  shed : (regionOf u.hsc k).shed = (regionOf s.hsc k).shed
  defs : u.hsc.defs = s.hsc.defs
  strq : u.hsc.strq = s.hsc.strq
  stg : u.stg = s.stg
  sec : u.sec = s.sec
  pst : u.pst = s.pst
  regs : u.regs = s.regs

theorem RegionFrame.trans {k : Nat} (h : RegionFrame k s u) (g : RegionFrame k u v) : RegionFrame k s v where
  queue := g.queue.trans h.queue
  others j hj := (g.others j hj).trans (h.others j hj)
  shed := g.shed.trans h.shed
  defs := g.defs.trans h.defs
  strq := g.strq.trans h.strq
  stg := g.stg.trans h.stg
  sec := g.sec.trans h.sec
  pst := g.pst.trans h.pst
  regs := g.regs.trans h.regs

theorem mapRegion_regionFrame {k : Nat} {f : RegionSt → RegionSt} (s : State) (h : (f (regionOf s.hsc k)).shed = (regionOf s.hsc k).shed) :
    RegionFrame k s (mapRegion k f s) where
  queue := rfl
  others j hj := regionOf_mapRegion_ne f s hj
  shed := by rw [regionOf_mapRegion, h]
  defs := rfl
  strq := rfl
  stg := rfl
  sec := rfl
  pst := rfl
  regs := rfl

theorem loseHis_hsc (n : Nat) (s : State) : ∃ h, loseHis n s = { s with hre := h } := by
  unfold loseHis
  split
  · exact ⟨_, rfl⟩
  · exact ⟨_, rfl⟩

/-- Blocks overwritten leave WPTR where it is. -/
theorem overwrite_keeps (k m : Nat) (s : State) : RegionFrame k s (overwrite k m s) ∧ (regionOf (overwrite k m s).hsc k).wptr = (regionOf s.hsc k).wptr := by
  unfold overwrite
  split
  · exact ⟨⟨rfl, fun _ _ => rfl, rfl, rfl, rfl, rfl, rfl, rfl, rfl⟩, rfl⟩
  · extract_lets bs f js rs lost bsc w
    obtain ⟨h, hlose⟩ := loseHis_hsc lost (mapRegion k (fun r => { r with blocks := r.blocks.drop m }) w)
    rw [hlose]
    have hmap := mapRegion_regionFrame (k := k) (f := fun r => { r with blocks := r.blocks.drop m }) w rfl
    have hwptr : (regionOf (mapRegion k (fun r => { r with blocks := r.blocks.drop m }) w).hsc k).wptr = (regionOf w.hsc k).wptr := by
      rw [regionOf_mapRegion]
    exact ⟨⟨hmap.queue, hmap.others, hmap.shed, hmap.defs, hmap.strq, hmap.stg, hmap.sec, hmap.pst, hmap.regs⟩, hwptr⟩

/-- An entry laid at WPTR is the youngest, and WPTR lies behind it, or at 0 where it reaches the end. -/
theorem layEntry_keeps (k len size : Nat) (b : Block) (s : State) :
    RegionFrame k s (layEntry k len size b s)
      ∧ (regionOf (layEntry k len size b s).hsc k).blocks.getLast? = some ((regionOf s.hsc k).wptr, b)
      ∧ (regionOf (layEntry k len size b s).hsc k).wptr = if (regionOf s.hsc k).wptr + size ≥ len then 0 else (regionOf s.hsc k).wptr + size := by
  unfold layEntry
  obtain ⟨hframe, hwptr⟩ := overwrite_keeps k (covered len (regionOf s.hsc k).wptr ((regionOf s.hsc k).wptr + size) (regionOf s.hsc k).blocks) s
  dsimp only
  generalize overwrite k _ s = v at hframe hwptr
  refine ⟨hframe.trans (mapRegion_regionFrame v rfl), ?_, ?_⟩
  · rw [regionOf_mapRegion, ← hwptr]
    exact List.getLast?_concat ..
  · rw [regionOf_mapRegion, ← hwptr]

/-- A block written is its region's youngest, whole within the region's length. -/
theorem writeHistory_keeps (k : Nat) (b : Block) (s : State) :
    RegionFrame k s (writeHistory k b s) ∧ (regionOf (writeHistory k b s).hsc k).lastN = some b.n
      ∧ ∃ off, (regionOf (writeHistory k b s).hsc k).blocks.getLast? = some (off, b)
        ∧ (b.bytes ≠ [] → b.bytes.length ≤ (regionSpan s k).2 → off + b.bytes.length ≤ (regionSpan s k).2) := by
  unfold writeHistory
  dsimp only
  have hplace : ∀ v, RegionFrame k s v → (b.bytes ≠ [] → b.bytes.length ≤ (regionSpan s k).2 → (regionOf v.hsc k).wptr + b.bytes.length ≤ (regionSpan s k).2) →
      RegionFrame k s (mapRegion k (fun r => { r with lastN := some b.n }) (layEntry k (regionSpan s k).2 b.bytes.length b v))
        ∧ (regionOf (mapRegion k (fun r => { r with lastN := some b.n }) (layEntry k (regionSpan s k).2 b.bytes.length b v)).hsc k).lastN = some b.n
        ∧ ∃ off, (regionOf (mapRegion k (fun r => { r with lastN := some b.n }) (layEntry k (regionSpan s k).2 b.bytes.length b v)).hsc k).blocks.getLast? = some (off, b)
          ∧ (b.bytes ≠ [] → b.bytes.length ≤ (regionSpan s k).2 → off + b.bytes.length ≤ (regionSpan s k).2) := by
    intro v hv hfits
    obtain ⟨hframe, hlast, -⟩ := layEntry_keeps k (regionSpan s k).2 b.bytes.length b v
    generalize layEntry k (regionSpan s k).2 b.bytes.length b v = w at hframe hlast
    rw [regionOf_mapRegion]
    exact ⟨(hv.trans hframe).trans (mapRegion_regionFrame w rfl), rfl, _, hlast, hfits⟩
  split
  case _ hpad =>
    obtain ⟨hframe, -, hwptr⟩ := layEntry_keeps k (regionSpan s k).2 ((regionSpan s k).2 - (regionOf s.hsc k).wptr) { b with bytes := [] } s
    refine hplace _ hframe fun _ hlen => ?_
    rw [hwptr, if_pos (by omega)]
    omega
  case _ hroom =>
    refine hplace s ⟨rfl, fun _ _ => rfl, rfl, rfl, rfl, rfl, rfl, rfl, rfl⟩ fun hbytes _ => ?_
    have := List.length_pos_of_ne_nil hbytes
    omega

theorem historyBlockWrite_none (hq : tget [] k.val s.hsc.hisq = []) : exec (.historyBlockWrite t k) s = settle (atTime t s) := by
  show execHistoryBlockWrite t k s = _
  unfold execHistoryBlockWrite
  dsimp only
  rw [show tget [] k.val (atTime t s).hsc.hisq = [] from hq]

theorem historyBlockWrite_eq {b : Block} {r : List Block} (hq : tget [] k.val s.hsc.hisq = b :: r) : exec (.historyBlockWrite t k) s =
    if !active s .host || !(regionOf s.hsc k.val).en then settle (setHisq k.val r (atTime t s))
    else if (regionOf s.hsc k.val).hold || !s.hsc.eccReady then
      settle (markBusy .host (mapRegion k.val (fun g => { g with shed := satAdd 32 g.shed 1, gap := true }) (setHisq k.val r (atTime t s))))
    else settle (writeHistory k.val b (setHisq k.val r (atTime t s))) := by
  show execHistoryBlockWrite t k s = _
  unfold execHistoryBlockWrite
  dsimp only
  rw [show tget [] k.val (atTime t s).hsc.hisq = b :: r from hq]
  rfl

/-- Settles O38: the next block is packed whole or shed and counted; a history block becomes its region's youngest. -/
theorem blocksReachStreamsAndHistory : Obligations.BlocksReachStreamsAndHistory := by
  unfold Obligations.BlocksReachStreamsAndHistory
  refine ⟨⟨fun t n b r s hq => streamBlockPack_lays hq, fun t n s hq => settles (streamBlockPack_none hq) fun o g => rfl, fun t e n s he => ?flush⟩, fun t k s => ?history⟩
  case flush =>
    obtain ⟨hearly, hempty⟩ := streamFlushTimer_waits (t := t) he
    exact ⟨hearly, hempty, fun p l hdue hfill hposted hcan hrun => streamFlushTimer_closes he hdue hfill hposted hcan hrun⟩
  case history =>
    refine ⟨fun hq => settles (historyBlockWrite_none hq) fun o g => rfl, fun b r hq hon hen hhold hecc => ?written, fun b r hq hon hen hnot => ?shed, fun b r hq hnot => ?dropped⟩
    case written =>
      have hexec := historyBlockWrite_eq (t := t) hq
      rw [hon, hen, hhold, hecc, if_neg (by decide), if_neg (by decide)] at hexec
      obtain ⟨hframe, hlast, off, hoff, hspan⟩ := writeHistory_keeps k.val b (setHisq k.val r (atTime t s))
      generalize writeHistory k.val b (setHisq k.val r (atTime t s)) = v at hexec hframe hlast hoff
      obtain ⟨u, hu, hP⟩ := settles (P := fun u => RegionFrame k.val (setHisq k.val r (atTime t s)) u ∧ (regionOf u.hsc k.val).lastN = some b.n
        ∧ (regionOf u.hsc k.val).blocks.getLast? = some (off, b)) hexec
        fun o g => ⟨⟨hframe.queue, hframe.others, hframe.shed, hframe.defs, hframe.strq, hframe.stg, hframe.sec, hframe.pst, hframe.regs⟩, hlast, hoff⟩
      obtain ⟨hf, hlast, hoff⟩ := hP
      exact ⟨u, off, hu, ⟨hf.queue.symm, hf.others, hf.defs, hf.strq, hf.stg, hf.sec, hf.pst, hf.regs⟩, hoff, hlast, hf.shed, hspan⟩
    case shed =>
      have hexec := historyBlockWrite_eq (t := t) hq
      have hheld : ((regionOf s.hsc k.val).hold || !s.hsc.eccReady) = true := by
        obtain h | h := hnot <;> simp [h]
      rw [hon, hen, if_neg (by decide), if_pos hheld] at hexec
      exact settles hexec fun o g =>
        ⟨⟨rfl, fun j hj => regionOf_mapRegion_ne (fun g => { g with shed := satAdd 32 g.shed 1, gap := true }) s hj, rfl, rfl, rfl, rfl, rfl, rfl⟩,
          regionOf_mapRegion k.val (fun g => { g with shed := satAdd 32 g.shed 1, gap := true }) s⟩
    case dropped =>
      have hexec := historyBlockWrite_eq (t := t) hq
      have hout : (!active s .host || !(regionOf s.hsc k.val).en) = true := by
        obtain h | h := hnot <;> simp [h]
      rw [if_pos hout] at hexec
      exact settles hexec fun o g => ⟨⟨rfl, fun _ _ => rfl, rfl, rfl, rfl, rfl, rfl, rfl⟩, rfl⟩

end

end Sys2Proof.Proofs
end

section
/-!
PROOFS. Probes of the round network (R281, R282).
-/

namespace Sys2Proof.Proofs
open Sys2Proof.Machine Sys2Proof.Laws

/-! ## Requests -/

section
variable {t : Int} {port : Fin 6} {s : State} {l : Lane}

/-- A port that is a branch of the ridge. -/
theorem probeRequestSend_ridge (hr : ridgeLive (atTime t s) = true) : exec (.probeRequestSend t port) s =
    if probeDue (atTime t s) (branchOf s port.val).probed then
      settle (mapBranch port.val (fun b => { b with dep := t :: b.dep, probed := some t }) { atTime t s with out := s.out ++ [.probe port.val t 1 0] })
    else settle (atTime t s) :=
  if_pos hr

/-- A port that is a lane's channel port. -/
theorem probeRequestSend_lane (hr : ridgeLive (atTime t s) = false) (hl : portLane s port.val = some l) : exec (.probeRequestSend t port) s =
    if rctRound (atTime t s) l && probeDue (atTime t s) (s.net.rct.lane l).probed then
      settle (bump (rctCtr l 0) (mapRct l (fun x => { x with dep := t :: x.dep, probed := some t }) { atTime t s with out := s.out ++ [.probe port.val t 1 0] }))
    else settle (atTime t s) := by
  show execProbeRequestSend t port s = _
  unfold execProbeRequestSend
  dsimp only
  rw [hr, show portLane (atTime t s) port.val = some l from hl]
  rfl

theorem probeReflectionReceive_ridge {w : BitVec 16} (hr : ridgeLive (atTime t s) = true) : exec (.probeReflectionReceive t port w) s =
    settle (mapBranch port.val (fun b => match b.dep with | d :: r => { b with dep := r, loops := addSample (t - d - 256 - 8 * (w.toNat : Int)) b.loops } | [] => b)
      (atTime t s)) :=
  if_pos hr

theorem probeReflectionReceive_lane {w : BitVec 16} (hr : ridgeLive (atTime t s) = false) (hl : portLane s port.val = some l) :
    exec (.probeReflectionReceive t port w) s =
      if rctRound (atTime t s) l then
        settle (mapRct l (fun x => match x.dep with | d :: r => { x with dep := r, loops := addSample (t - d - 256 - 8 * (w.toNat : Int)) x.loops } | [] => x)
          (atTime t s))
      else settle (atTime t s) := by
  show execProbeReflectionReceive t port w s = _
  unfold execProbeReflectionReceive
  dsimp only
  rw [hr, show portLane (atTime t s) port.val = some l from hl]
  rfl

/-- A departure younger than 4 ms is not one that is 4 ms old. -/
theorem not_old (t : Int) : (fun d : Int => !decide (t - d ≥ 4000000)) = fun d => decide (t - d < 4000000) := by
  funext d
  rw [← decide_not]
  exact decide_eq_decide.mpr (by omega)

theorem probeLost_ridge (hr : ridgeLive (atTime t s) = true) : exec (.probeLost t port) s =
    settle (mapBranch port.val (fun b => { b with dep := b.dep.filter (fun d => decide (t - d < 4000000)) }) (atTime t s)) := by
  rw [← not_old]
  exact if_pos hr

theorem probeLost_lane (hr : ridgeLive (atTime t s) = false) (hl : portLane s port.val = some l) : exec (.probeLost t port) s =
    settle (bumpBy (rctCtr l 1) (((s.net.rct.lane l).dep.filter (fun d => decide (4000000 ≤ t - d))).length)
      (mapRct l (fun x => { x with dep := x.dep.filter (fun d => decide (t - d < 4000000)) }) (atTime t s))) := by
  rw [← not_old]
  show execProbeLost t port s = _
  unfold execProbeLost
  dsimp only
  rw [hr, show portLane (atTime t s) port.val = some l from hl]
  rfl

/-- A port of no live lane, the ridge silent, takes part in no probe. -/
theorem probe_noLane {w : BitVec 16} (hr : ridgeLive (atTime t s) = false) (hl : portLane s port.val = none) :
    ∀ i ∈ [Instr.probeRequestSend t port, .probeReflectionReceive t port w, .probeLost t port], exec i s = settle (atTime t s) := by
  have hl' : portLane (atTime t s) port.val = none := hl
  have hsend : execProbeRequestSend t port s = settle (atTime t s) := by
    unfold execProbeRequestSend
    dsimp only
    rw [hr, hl']
    rfl
  have hback : execProbeReflectionReceive t port w s = settle (atTime t s) := by
    unfold execProbeReflectionReceive
    dsimp only
    rw [hr, hl']
    rfl
  have hlost : execProbeLost t port s = settle (atTime t s) := by
    unfold execProbeLost
    dsimp only
    rw [hr, hl']
    rfl
  intro i hi
  simp only [List.mem_cons, List.not_mem_nil, or_false] at hi
  obtain rfl | rfl | rfl := hi
  · exact hsend
  · exact hback
  · exact hlost

/-! ## Reflections -/

/-- WAIT as the frame that the port sends then says, or 0 (R281). -/
theorem reflectWait_eq {r : Reflect} {p n : Nat} (hp : r.port = p)
    (hn : (∃ k e, (tget none p s.net.tx = some (k, e) ∧ k ≤ r.at_ + 256 ∧ r.at_ + 256 < e) ∧ (n : Int) = (e - (r.at_ + 256) + 7) / 8)
      ∨ ¬ (∃ k e, tget none p s.net.tx = some (k, e) ∧ k ≤ r.at_ + 256 ∧ r.at_ + 256 < e) ∧ n = 0) : reflectWait s r = n := by
  unfold reflectWait
  dsimp only
  rw [hp]
  obtain ⟨k, e, ⟨htx, hk, he⟩, hn⟩ | ⟨hno, rfl⟩ := hn
  · rw [htx]
    have hin : (decide (k ≤ r.at_ + 256) && decide (r.at_ + 256 < e)) = true := by simp [hk, he]
    refine (if_pos hin).trans ?_
    rw [← hn]
    exact Int.toNat_natCast n
  · split
    case _ k e htx =>
      refine if_neg fun hin => hno ⟨k, e, htx, ?_⟩
      simpa using hin
    · rfl

/-- The reflection that is next to leave a port. -/
theorem probeReflectionSend_eq {r : Reflect} {n : Nat} (hr : s.net.refl.find? (fun r => r.port == port.val) = some r) (hn : reflectWait s r = n) :
    exec (.probeReflectionSend t port) s = if t < r.at_ + 256 + 8 * (n : Int) then settle (atTime t s) else
      settle (if reflects (atTime t s) port.val then
        { atTime t s with net := { s.net with refl := s.net.refl.erase r }, out := s.out ++ [.probe port.val (r.at_ + 256 + 8 * (n : Int)) 2 n] }
      else { atTime t s with net := { s.net with refl := s.net.refl.erase r } }) := by
  subst hn
  show execProbeReflectionSend t port s = _
  unfold execProbeReflectionSend
  dsimp only
  rw [show (atTime t s).net.refl.find? (fun r => r.port == port.val) = some r from hr]
  rfl

theorem probeReflectionSend_none (hr : s.net.refl.find? (fun r => r.port == port.val) = none) : exec (.probeReflectionSend t port) s = settle (atTime t s) := by
  show execProbeReflectionSend t port s = _
  unfold execProbeReflectionSend
  dsimp only
  rw [show (atTime t s).net.refl.find? (fun r => r.port == port.val) = none from hr]

/-- A reflection leaves at its instant, not before. -/
theorem probeReflectionSend_leaves {r : Reflect} {n : Nat} (hr : s.net.refl.find? (fun r => r.port == port.val) = some r) (hn : reflectWait s r = n) :
    let due := r.at_ + 256 + 8 * (n : Int)
    (t < due → ∃ u, exec (.probeReflectionSend t port) s = .next u ∧ u = { shown s u with now := t })
      ∧ (due ≤ t → ∃ u, exec (.probeReflectionSend t port) s = .next u
        ∧ u = { shown s u with now := t, net := { s.net with refl := s.net.refl.erase r } } ∧ (reflects (atTime t s) port.val = true → Out.probe port.val due 2 n ∈ u.out)) := by
  have hexec := probeReflectionSend_eq (t := t) hr hn
  refine ⟨fun hearly => settles (hexec.trans (if_pos hearly)) fun o g => rfl, fun hdue => ?_⟩
  rw [if_neg (by omega)] at hexec
  cases href : reflects (atTime t s) port.val with
  | false =>
    rw [href] at hexec
    exact settles hexec fun o g => ⟨rfl, fun h => absurd h (by decide)⟩
  | true =>
    rw [href] at hexec
    exact settles hexec fun o g => ⟨rfl, fun _ => List.mem_append_left _ (List.mem_append_right _ (List.mem_singleton_self _))⟩

theorem probeRequestReceive_reflects (set : List (Bool × Byte)) : ∃ u, exec (.probeRequestReceive t port set) s = .next u ∧
    u = { shown s u with now := t, net := { s.net with refl := if set = requestSet ∧ reflects (atTime t s) port.val then s.net.refl ++ [{ port := port.val, at_ := t }] else s.net.refl } } := by
  have hexec : exec (.probeRequestReceive t port set) s = if set == requestSet && reflects (atTime t s) port.val then
      settle { atTime t s with net := { s.net with refl := s.net.refl ++ [{ port := port.val, at_ := t }] } } else settle (atTime t s) := rfl
  by_cases h : set = requestSet ∧ reflects (atTime t s) port.val = true
  · rw [if_pos (by simpa using h)] at hexec
    rw [if_pos h]
    exact settles hexec fun o g => rfl
  · rw [if_neg (by simpa using h)] at hexec
    rw [if_neg h]
    exact settles hexec fun o g => rfl

end

/-- Settles O43: what each probe event leaves, on a branch of the ridge, on a lane's channel port, and on any other port. -/
theorem probesMeasureTheLoop : Obligations.ProbesMeasureTheLoop := by
  unfold Obligations.ProbesMeasureTheLoop
  intro t port w set s
  refine ⟨fun hr => ?sendRidge, fun l hr hl => ?sendLane, fun hr hl i hi => settles (probe_noLane hr hl i hi) fun o g => rfl, probeRequestReceive_reflects set,
    fun hno => settles (probeReflectionSend_none hno) fun o g => rfl, fun r hr n hn => ?reflect, fun hr => ?backRidge, fun l hr hl => ?backLane,
    fun hr => settles (probeLost_ridge hr) fun o g => rfl, fun l hr hl => settles (probeLost_lane hr hl) fun o g => rfl⟩
  case sendRidge =>
    have hexec := probeRequestSend_ridge (port := port) hr
    split
    case _ hdue =>
      rw [if_pos hdue] at hexec
      exact settles hexec fun o g => ⟨rfl, List.mem_append_left _ (List.mem_append_right _ (List.mem_singleton_self _))⟩
    case _ hdue =>
      rw [if_neg hdue] at hexec
      exact settles hexec fun o g => rfl
  case sendLane =>
    intro x
    have hexec := probeRequestSend_lane hr hl
    split
    case _ hdue =>
      rw [if_pos (by simpa using hdue)] at hexec
      exact settles hexec fun o g => ⟨rfl, List.mem_append_left _ (List.mem_append_right _ (List.mem_singleton_self _))⟩
    case _ hdue =>
      rw [if_neg (by simpa using hdue)] at hexec
      exact settles hexec fun o g => rfl
  case reflect =>
    have hport : r.port = port.val := by
      have := List.find?_some hr
      simpa using this
    exact probeReflectionSend_leaves hr (reflectWait_eq hport hn)
  case backRidge => exact settles (probeReflectionReceive_ridge hr) fun o g => rfl
  case backLane =>
    intro x
    have hexec := probeReflectionReceive_lane (w := w) hr hl
    split
    case _ hround =>
      rw [if_pos hround] at hexec
      exact settles hexec fun o g => rfl
    case _ hround =>
      rw [if_neg hround] at hexec
      exact settles hexec fun o g => rfl

end Sys2Proof.Proofs
end

section
/-!
PROOFS. What a frame that leaves on a channel changes, a dead letter, and polled mode on the round ports (R254, R261, R273 to R275).
-/

namespace Sys2Proof.Proofs
open Sys2Proof.Machine Sys2Proof.Laws

/-! ## A frame on a lane's channel -/

section
variable {l : Lane} {a s v : State} {o : Out} {y : RctSt}

/-- A lane's RCT put in place. -/
def withRct (l : Lane) (y : RctSt) (a : State) : State := { a with net := { a.net with rct := a.net.rct.setLane l y } }

theorem mapRct_eq (f : RctSt → RctSt) (a : State) : mapRct l f a = withRct l (f (a.net.rct.lane l)) a := rfl

theorem withRct_self (a : State) : withRct l (a.net.rct.lane l) a = a := by
  show ({ a with net := { a.net with rct := a.net.rct.setLane l (a.net.rct.lane l) } } : State) = a
  rw [setLane_lane]

theorem netKey_withRct (hk : y.keys = (a.net.rct.lane l).keys) (m : Lane) (gen : Nat) : netKey (withRct l y a) m gen = netKey a m gen := by
  have hlane : ((withRct l y a).net.rct.lane m).keys = (a.net.rct.lane m).keys := by
    by_cases hm : m = l
    · subst hm
      exact (congrArg RctSt.keys (lane_setLane ..)).trans hk
    · exact congrArg RctSt.keys (lane_setLane_ne _ _ hm)
  unfold netKey
  rw [hlane]
  rfl

/-- A frame's bytes depend on a lane's RCT by its keys alone. -/
theorem frameBytes_withRct (hk : y.keys = (a.net.rct.lane l).keys) (ring : Bool) (ch type : Nat) (dyn : Bool) (index round : Nat) (payload : List Byte) :
    frameBytes (withRct l y a) ring ch type dyn index round payload = frameBytes a ring ch type dyn index round payload := by
  unfold frameBytes
  rw [netKey_withRct hk]
  rfl

theorem ringSends_withRct (hs : y.silent = (a.net.rct.lane l).silent) : ringSends (withRct l y a) l = ringSends a l := by
  have hlane : ((withRct l y a).net.rct.lane l).silent = (a.net.rct.lane l).silent := (congrArg RctSt.silent (lane_setLane ..)).trans hs
  unfold ringSends
  rw [hlane]
  rfl

/-- What the output of one frame by a lane leaves of a state: the frame, the lane's RCT, what the line and the ring hold, the counters and a note. -/
def Sends (l : Lane) (a : State) (y : RctSt) (o : Out) (v : State) : Prop :=
  ∃ c i r x, v = { a with out := a.out ++ [o], ctr := c, erc := { a.erc with inbox := i },
                          net := { a.net with rct := a.net.rct.setLane l y, ring := r, tx := x } } ∧ (ringSends a l = false → r = a.net.ring)

/-- A frame queued for the ring changes the ring's queues and a counter. -/
theorem ringQueue_update (to3 : Bool) (b : List Byte) (s : State) : ∃ c r, ringQueue to3 b s = { s with ctr := c, net := { s.net with ring := r } } := by
  unfold ringQueue
  extract_lets r dir q
  split
  · exact ⟨_, _, rfl⟩
  · split
    · exact ⟨_, _, rfl⟩
    · exact ⟨_, _, rfl⟩

/-- A frame on the line. -/
def onLine (l : Lane) (b : List Byte) (s : State) : State :=
  { s with out := s.out ++ [.frame (chanPort s l) s.now b], net := { s.net with tx := tput none (chanPort s l) (some (frameSpan s.now b)) s.net.tx } }

theorem emitFrame_eq (type : Nat) (dyn : Bool) (index : Nat) (payload : List Byte) (s : State) : emitFrame l type dyn index payload s =
    if ringSends s l then ringQueue true (frameBytes s true l.num type dyn index (curRound s) payload) (onLine l (frameBytes s false l.num type dyn index (curRound s) payload) s)
    else onLine l (frameBytes s false l.num type dyn index (curRound s) payload) s := rfl

theorem emitFrame_sends (type : Nat) (dyn : Bool) (index : Nat) (payload : List Byte) (hk : y.keys = (a.net.rct.lane l).keys)
    (hs : y.silent = (a.net.rct.lane l).silent) :
    Sends l a y (.frame (chanPort a l) a.now (frameBytes a false l.num type dyn index (curRound a) payload)) (emitFrame l type dyn index payload (withRct l y a)) := by
  rw [emitFrame_eq, ringSends_withRct hs, frameBytes_withRct hk, frameBytes_withRct hk]
  cases hring : ringSends a l with
  | true =>
    obtain ⟨c, r, h⟩ := ringQueue_update true (frameBytes a true l.num type dyn index (curRound (withRct l y a)) payload)
      (onLine l (frameBytes a false l.num type dyn index (curRound (withRct l y a)) payload) (withRct l y a))
    exact ⟨c, a.erc.inbox, r, _, h.trans rfl, fun hno => absurd (hring.symm.trans hno) (by decide)⟩
  | false => exact ⟨a.ctr, a.erc.inbox, a.net.ring, _, rfl, fun _ => rfl⟩

theorem Sends.mapRct (f : RctSt → RctSt) (h : Sends l a y o v) : Sends l a (f y) o (mapRct l f v) := by
  obtain ⟨c, i, r, x, rfl, hr⟩ := h
  refine ⟨c, i, r, x, ?_, hr⟩
  rw [mapRct_eq]
  show ({ a with out := a.out ++ [o], ctr := c, erc := { a.erc with inbox := i },
                 net := { a.net with rct := (a.net.rct.setLane l y).setLane l (f ((a.net.rct.setLane l y).lane l)), ring := r, tx := x } } : State) = _
  rw [lane_setLane, setLane_setLane]

/-- What a lane that sends leaves. -/
theorem Sends.settles {t : Int} {r : Host.Outcome State Fault Refusal} (h : Sends l (atTime t s) y o v) (hexec : r = settle v) :
    ∃ u, r = .next u ∧ o ∈ u.out ∧ u = { reported s u with now := t, net := { s.net with rct := s.net.rct.setLane l y, ring := u.net.ring, tx := u.net.tx } }
      ∧ (ringSends (atTime t s) l = false → u.net.ring = s.net.ring) := by
  obtain ⟨c, i, r, x, rfl, hr⟩ := h
  exact Proofs.settles hexec fun o' g => ⟨List.mem_append_left _ (List.mem_append_right _ (List.mem_singleton_self _)), rfl, hr⟩

end

/-! ## Dead letters (R261) -/

/-- A dead letter is counted and, where it is the first for long enough, recorded. -/
theorem deadLetter_update (port cause node : Nat) (s : State) :
    ∃ c i d, deadLetter port cause node s = { s with ctr := c, erc := { s.erc with inbox := i }, net := { s.net with dead := d } } := by
  have hnotes : ∀ (code : Nat) (d : Dom) (b : Nat) (p0 p1 p2 : Word) (v : State), (∃ c i x, v = { s with ctr := c, erc := { s.erc with inbox := i }, net := { s.net with dead := x } }) →
      ∃ c i x, note code d b p0 p1 p2 v = { s with ctr := c, erc := { s.erc with inbox := i }, net := { s.net with dead := x } } := by
    rintro code d b p0 p1 p2 v ⟨c, i, x, rfl⟩
    exact ⟨_, _, _, note_update ..⟩
  unfold deadLetter
  extract_lets d blk off s1 s2 quiet net s3
  have h2 : ∃ c i x, s2 = { s with ctr := c, erc := { s.erc with inbox := i }, net := { s.net with dead := x } } := ⟨_, s.erc.inbox, s.net.dead, rfl⟩
  have h3 : ∃ c i x, s3 = { s with ctr := c, erc := { s.erc with inbox := i }, net := { s.net with dead := x } } := by
    unfold s3
    split
    · exact h2
    · exact hnotes _ _ _ _ _ _ _ ⟨s2.ctr, s.erc.inbox, _, rfl⟩
  split
  · exact hnotes _ _ _ _ _ _ _ h3
  · exact h3

/-! ## Polled mode (R273 to R275) -/

section
variable {t : Int} {l : Lane} {s : State}

theorem pollSend_none (h : (pollEntries s 0)[(s.net.rct.lane l).pollIx]? = none) : exec (.pollSend t l) s = settle (atTime t s) := by
  show execPollSend t l s = _
  unfold execPollSend
  dsimp only
  rw [show (pollEntries (atTime t s) 0)[((atTime t s).net.rct.lane l).pollIx]? = none from h]

/-- What keeps a POLL from leaving now. -/
def pollHeld (t : Int) (l : Lane) (w : Word) (s : State) : Bool :=
  !pollLive (atTime t s) l || !pollMaster s || (s.net.rct.lane l).poll.isSome || t < (s.net.rct.lane l).pollAt
    || t + 8 * 31 + ((fld w 19 12 * 1000 : Nat) : Int) > pollLimit (atTime t s)

/-- A POLL for an entry as the lane awaits its reply. -/
def pollOf (t : Int) (w : Word) : PollOut :=
  { addr := fld w 7 0, req := fld w 23 20, wait := ((fld w 19 12 * 1000 : Nat) : Int), tEnd := t + 248, seq := 0 }

/-- A lane that has polled an entry. -/
def polling (t : Int) (w : Word) (x : RctSt) : RctSt := { x with pollIx := x.pollIx + 1, poll := some (pollOf t w) }

theorem pollSend_eq {w : Word} (h : (pollEntries s 0)[(s.net.rct.lane l).pollIx]? = some w) : exec (.pollSend t l) s =
    if pollHeld t l w s then settle (atTime t s) else
      settle (mapRct l (polling t w)
        (let b := frameBytes (atTime t s) false l.num 7 false 0 (curRound (atTime t s)) (wordBytes (w32 (fld w 7 0 + 256 * fld w 23 20)))
         { atTime t s with out := s.out ++ [.frame (chanPort s l) t b], net := { s.net with tx := tput none (chanPort s l) (some (frameSpan t b)) s.net.tx } })) := by
  show execPollSend t l s = _
  unfold execPollSend
  dsimp only
  rw [show (pollEntries (atTime t s) 0)[((atTime t s).net.rct.lane l).pollIx]? = some w from h]
  rfl

theorem pollHeld_iff {w : Word} : pollHeld t l w s = false ↔ pollLive (atTime t s) l = true ∧ pollMaster s = true ∧ (s.net.rct.lane l).poll = none
    ∧ (s.net.rct.lane l).pollAt ≤ t ∧ t + 248 + ((fld w 19 12 * 1000 : Nat) : Int) ≤ pollLimit (atTime t s) := by
  unfold pollHeld
  simp only [Bool.or_eq_false_iff, Bool.not_eq_false', Option.isSome_eq_false_iff, Option.isNone_iff_eq_none, decide_eq_false_iff_not, not_lt, gt_iff_lt, and_assoc]
  exact Iff.rfl

/-- The master's next POLL leaves while its reply window ends in time, not else. -/
theorem pollSend_polls {w : Word} (h : (pollEntries s 0)[(s.net.rct.lane l).pollIx]? = some w) :
    (pollHeld t l w s = false → ∃ u, exec (.pollSend t l) s = .next u
      ∧ Out.frame (chanPort s l) t (frameBytes (atTime t s) false l.num 7 false 0 (curRound (atTime t s)) (wordBytes (w32 (fld w 7 0 + 256 * fld w 23 20)))) ∈ u.out
      ∧ u = { reported s u with now := t, net := { s.net with rct := s.net.rct.setLane l (polling t w (s.net.rct.lane l)), ring := u.net.ring, tx := u.net.tx } } ∧ u.net.ring = s.net.ring)
      ∧ (pollHeld t l w s = true → ∃ u, exec (.pollSend t l) s = .next u ∧ u = { shown s u with now := t }) := by
  have hexec := pollSend_eq (t := t) h
  refine ⟨fun hmay => settles (hexec.trans (if_neg (by rw [hmay]; decide))) fun o g => ⟨?_, rfl, rfl⟩, fun hheld => settles (hexec.trans (if_pos hheld)) fun o g => rfl⟩
  exact List.mem_append_left _ (List.mem_append_right _ (List.mem_singleton_self _))

theorem pollReplyTimeout_none (h : (s.net.rct.lane l).poll = none) : exec (.pollReplyTimeout t l) s = settle (atTime t s) := by
  show execPollReplyTimeout t l s = _
  unfold execPollReplyTimeout
  dsimp only
  rw [show ((atTime t s).net.rct.lane l).poll = none from h]

theorem pollReplyTimeout_eq {p : PollOut} (h : (s.net.rct.lane l).poll = some p) : exec (.pollReplyTimeout t l) s =
    if pollMaster s && t ≥ p.tEnd + p.wait then settle (mapRct l (fun x => { x with poll := none, pollAt := t + 2000 }) (atTime t s)) else settle (atTime t s) := by
  show execPollReplyTimeout t l s = _
  unfold execPollReplyTimeout
  dsimp only
  rw [show ((atTime t s).net.rct.lane l).poll = some p from h]
  rfl

theorem pollReplySend_none (h : (s.net.rct.lane l).reply = none) : exec (.pollReplySend t l) s = settle (atTime t s) := by
  show execPollReplySend t l s = _
  unfold execPollReplySend
  dsimp only
  rw [show ((atTime t s).net.rct.lane l).reply = none from h]

/-- A lane whose reply is no longer due. -/
def replied (x : RctSt) : RctSt := { x with reply := none }

theorem pollReplySend_eq {req : Nat} {due : Int} (h : (s.net.rct.lane l).reply = some (req, due)) : exec (.pollReplySend t l) s =
    let v := withRct l (replied (s.net.rct.lane l)) (atTime t s)
    let rs := oldest (v.net.rct.lane l) (t - 10000) 63
    if !pollLive v l || due ≠ t then settle v
    else if req = 1 then settle (sentRecords l rs.length (emitFrame l 2 false 0 (lettersPayload (v.net.rct.lane l) rs) v))
    else if req = 2 then settle (sendStates l 0 true 1024 v)
    else settle v := by
  show execPollReplySend t l s = _
  unfold execPollReplySend
  dsimp only
  rw [show ((atTime t s).net.rct.lane l).reply = some (req, due) from h]
  rfl

/-- The messages that a SECTION_STATE frame with room for n takes. -/
def readyMessages (x : RctSt) (t : Int) (n : Nat) : List QMsg :=
  sortBy (fun q => (q.block : Int)) ((x.queue.filter (fun q => decide (q.at_ + 10000 ≤ t))).take (min 3 n))

/-- A lane's queue of count messages with some gone. -/
def unsent (ms : List QMsg) (x : RctSt) : RctSt := { x with queue := x.queue.filter (fun q => !ms.contains q) }

theorem unsent_nil (x : RctSt) : unsent [] x = x := by
  unfold unsent
  have : x.queue.filter (fun q => !([] : List QMsg).contains q) = x.queue := List.filter_eq_self.mpr fun q _ => rfl
  rw [this]

/-- NULL, or the messages that are ready, their postmarks read back well. -/
theorem sendStates_sends {a : State} {y : RctSt} {ms : List QMsg} (index limit : Nat) (hready : readyMessages y a.now (limit / 276) = ms)
    (hk : y.keys = (a.net.rct.lane l).keys) (hs : y.silent = (a.net.rct.lane l).silent) :
    Sends l a (unsent ms y) (if ms = [] then .frame (chanPort a l) a.now (frameBytes a false l.num 5 false index (curRound a) [])
      else .frame (chanPort a l) a.now (frameBytes a false l.num 1 false index (curRound a) (wordsBytes (ms.flatMap (·.words)))))
      (sendStates l index true limit (withRct l y a)) := by
  have hlane : (withRct l y a).net.rct.lane l = y := lane_setLane ..
  have hsend : sendStates l index true limit (withRct l y a) = if ms = [] then emitFrame l 5 false index [] (withRct l y a)
      else emitFrame l 1 false index (wordsBytes (ms.flatMap (·.words))) (mapRct l (unsent ms) (withRct l y a)) := by
    unfold sendStates
    dsimp only
    rw [hlane, ← hready]
    rfl
  rw [hsend]
  clear hready
  by_cases hms : ms = []
  · subst hms
    rw [if_pos rfl, if_pos rfl, unsent_nil]
    exact emitFrame_sends 5 false index [] hk hs
  · rw [if_neg hms, if_neg hms]
    have hmap : mapRct l (unsent ms) (withRct l y a) = withRct l (unsent ms y) a := by
      show ({ a with net := { a.net with rct := (a.net.rct.setLane l y).setLane l (unsent ms ((withRct l y a).net.rct.lane l)) } } : State) = _
      rw [hlane, setLane_setLane]
      rfl
    rw [hmap]
    have hk' : (unsent ms y).keys = (a.net.rct.lane l).keys := hk
    have hs' : (unsent ms y).silent = (a.net.rct.lane l).silent := hs
    generalize unsent ms y = z at hk' hs'
    have hsends := emitFrame_sends (l := l) (a := a) (y := z) 1 false index (wordsBytes (ms.flatMap (·.words))) hk' hs'
    exact hsends

/-- A reply of the requested type leaves at its instant; any other is given up. -/
theorem pollReplySend_replies {req : Nat} {due : Int} (h : (s.net.rct.lane l).reply = some (req, due)) :
    let a := atTime t s
    let x := s.net.rct.lane l
    let ms := readyMessages x t 3
    let rs := oldest x (t - 10000) 63
    let with_ := fun (y : RctSt) (u : State) => u = { reported s u with now := t, net := { s.net with rct := s.net.rct.setLane l y, ring := u.net.ring, tx := u.net.tx } };
    ((pollLive a l = false ∨ due ≠ t ∨ (req ≠ 1 ∧ req ≠ 2)) → ∃ u, exec (.pollReplySend t l) s = .next u ∧ with_ (replied x) u ∧ u.net.ring = s.net.ring)
      ∧ (pollLive a l = true → due = t → req = 1 → ∃ u, exec (.pollReplySend t l) s = .next u
        ∧ Out.frame (chanPort s l) t (frameBytes a false l.num 2 false 0 (curRound a) (lettersPayload x rs)) ∈ u.out
        ∧ with_ { replied x with stream := { x.stream with recs := x.stream.recs.drop rs.length } } u)
      ∧ (pollLive a l = true → due = t → req = 2 → ∃ u, exec (.pollReplySend t l) s = .next u
        ∧ (if ms = [] then Out.frame (chanPort s l) t (frameBytes a false l.num 5 false 0 (curRound a) []) ∈ u.out
          else Out.frame (chanPort s l) t (frameBytes a false l.num 1 false 0 (curRound a) (wordsBytes (ms.flatMap (·.words)))) ∈ u.out)
        ∧ with_ (unsent ms (replied x)) u) := by
  intro a x ms rs with_
  have hexec := pollReplySend_eq (t := t) h
  dsimp only at hexec
  have hlane : (withRct l (replied (s.net.rct.lane l)) (atTime t s)).net.rct.lane l = replied (s.net.rct.lane l) := lane_setLane ..
  have hlive : pollLive (withRct l (replied (s.net.rct.lane l)) (atTime t s)) l = pollLive (atTime t s) l := rfl
  rw [hlane, hlive] at hexec
  refine ⟨fun hnot => ?gone, fun hl hdue hreq => ?letters, fun hl hdue hreq => ?states⟩
  case gone =>
    have hgone : exec (.pollReplySend t l) s = settle (withRct l (replied (s.net.rct.lane l)) (atTime t s)) := by
      by_cases hout : (!pollLive (atTime t s) l || decide (due ≠ t)) = true
      · exact hexec.trans (if_pos hout)
      · obtain hl | hdue | ⟨h1, h2⟩ := hnot
        · exact absurd (by rw [hl]; rfl) hout
        · exact absurd (by simp [hdue]) hout
        · rw [if_neg hout, if_neg h1, if_neg h2] at hexec
          exact hexec
    exact settles hgone fun o g => ⟨rfl, rfl⟩
  case letters =>
    rw [hl, hdue, hreq] at hexec
    rw [if_neg (by simp), if_pos rfl] at hexec
    have hsend := emitFrame_sends (l := l) (a := atTime t s) (y := replied (s.net.rct.lane l)) 2 false 0
      (lettersPayload (replied (s.net.rct.lane l)) (oldest (replied (s.net.rct.lane l)) (t - 10000) 63)) rfl rfl
    obtain ⟨u, hu, hout, hframe, -⟩ := (hsend.mapRct (fun x => { x with stream := { x.stream with recs := x.stream.recs.drop (oldest (s.net.rct.lane l) (t - 10000) 63).length } })).settles hexec
    exact ⟨u, hu, hout, hframe⟩
  case states =>
    rw [hl, hdue, hreq] at hexec
    rw [if_neg (by simp), if_neg (by decide), if_pos rfl] at hexec
    have hsend := sendStates_sends (l := l) (a := atTime t s) (y := replied (s.net.rct.lane l)) (ms := ms) 0 1024 rfl rfl rfl
    obtain ⟨u, hu, hout, hframe, -⟩ := hsend.settles hexec
    refine ⟨u, hu, ?_, hframe⟩
    split
    case _ hms => rwa [if_pos hms] at hout
    case _ hms => rwa [if_neg hms] at hout

/-! ### Frames taken -/

theorem pollReceive_none {f : FrameRx} (h : portLane s f.port = none) : exec (.pollReceive f) s = settle (atTime f.tEnd s) := by
  show execPollReceive f s = _
  unfold execPollReceive
  dsimp only
  rw [show portLane (atTime f.tEnd s) f.port = none from h]

theorem pollReceive_eq {f : FrameRx} (h : portLane s f.port = some l) : exec (.pollReceive f) s =
    if pollLive (atTime f.tEnd s) l && !pollMaster s then settle (polledFrame l (heardRx (atTime f.tEnd s) f) true (atTime f.tEnd s)) else settle (atTime f.tEnd s) := by
  show execPollReceive f s = _
  unfold execPollReceive
  dsimp only
  rw [show portLane (atTime f.tEnd s) f.port = some l from h]
  rfl

theorem frameReceive_polled {f : FrameRx} {crossOk : Bool} (h : portLane s f.port = some l) (hl : pollLive (atTime f.tEnd s) l = true) :
    exec (.frameReceive f crossOk) s = settle (polledFrame l (heardRx (atTime f.tEnd s) f) crossOk (atTime f.tEnd s)) := by
  show settle (receiveFrame (heardRx (atTime f.tEnd s) f) crossOk (atTime f.tEnd s)) = _
  unfold receiveFrame
  rw [show portLane (atTime f.tEnd s) (heardRx (atTime f.tEnd s) f).port = some l from h]
  exact congrArg settle (if_pos hl)

/-- A frame that fails a check is a dead letter; a POLL is kept for its reply. -/
theorem polledFrame_cases {f : FrameRx} {crossOk : Bool} {r : Host.Outcome State Fault Refusal}
    (hexec : r = settle (polledFrame l (heardRx (atTime f.tEnd s) f) crossOk (atTime f.tEnd s))) :
    let b := atTime f.tEnd s
    let g := parseFrame f.bytes
    (pollCause b l (heardRx b f) g ≠ 0 → ∃ u, r = .next u ∧ u = { reported s u with now := f.tEnd, net := { s.net with dead := u.net.dead } })
      ∧ (pollCause b l (heardRx b f) g = 0 → g.type = 7 → ∃ u, r = .next u
        ∧ u = { shown s u with now := f.tEnd, net := { s.net with rct := s.net.rct.setLane l (u.net.rct.lane l) } } ∧ (u.net.rct.lane l).heard = true
        ∧ (fld (g.word 0) 7 0 = nodeId s → (u.net.rct.lane l).reply = some (fld (g.word 0) 11 8, f.tEnd + 2000))) := by
  unfold polledFrame at hexec
  dsimp only at hexec
  refine ⟨fun hc => ?dead, fun hc htype => ?poll⟩
  case dead =>
    rw [if_pos (show pollCause (atTime f.tEnd s) l (heardRx (atTime f.tEnd s) f) (parseFrame (heardRx (atTime f.tEnd s) f).bytes) ≠ 0 from hc)] at hexec
    obtain ⟨c, i, d, hdead⟩ := deadLetter_update (heardRx (atTime f.tEnd s) f).port (pollCause (atTime f.tEnd s) l (heardRx (atTime f.tEnd s) f)
      (parseFrame (heardRx (atTime f.tEnd s) f).bytes)) (parseFrame (heardRx (atTime f.tEnd s) f).bytes).node (atTime f.tEnd s)
    rw [hdead] at hexec
    exact settles hexec fun o g => rfl
  case poll =>
    rw [if_neg (not_not.mpr (show pollCause (atTime f.tEnd s) l (heardRx (atTime f.tEnd s) f) (parseFrame (heardRx (atTime f.tEnd s) f).bytes) = 0 from hc)),
      if_pos (show (parseFrame (heardRx (atTime f.tEnd s) f).bytes).type = 7 from htype)] at hexec
    refine settles hexec fun o g => ⟨?_, congrArg RctSt.heard (lane_setLane ..), fun haddr => (congrArg RctSt.reply (lane_setLane ..)).trans ?_⟩
    · show _ = ({ atTime f.tEnd s with out := _, hre := _, net := { s.net with rct := s.net.rct.setLane l ((s.net.rct.setLane l _).lane l) } } : State)
      rw [lane_setLane]
      rfl
    · exact if_pos haddr

end

/-- Settles O46: what each event of polled mode leaves. -/
theorem pollsAndRepliesAlternate : Obligations.PollsAndRepliesAlternate := by
  unfold Obligations.PollsAndRepliesAlternate
  intro t l s
  refine ⟨fun h => settles (pollSend_none h) fun o g => rfl, fun w h => ?send, fun h => settles (pollReplyTimeout_none h) fun o g => rfl, fun p h => ?timeout,
    fun h => settles (pollReplySend_none h) fun o g => rfl, fun req due h => pollReplySend_replies h, fun f => ?receive⟩
  case send =>
    obtain ⟨hsends, hheld⟩ := pollSend_polls (t := t) h
    refine ⟨fun hmay => hsends (pollHeld_iff.mpr hmay), fun hnot => hheld ?_⟩
    by_contra hno
    exact hnot (pollHeld_iff.mp (Bool.eq_false_iff.mpr hno))
  case timeout =>
    have hexec := pollReplyTimeout_eq (t := t) h
    refine ⟨fun hm hdue => settles (hexec.trans (if_pos (by simp [hm, hdue]))) fun o g => ⟨rfl, rfl⟩, fun hnot => settles (hexec.trans (if_neg ?_)) fun o g => rfl⟩
    obtain hm | hearly := hnot
    · simp [hm]
    · simp [not_le.mpr hearly]
  case receive =>
    refine ⟨fun h => settles (pollReceive_none h) fun o g => rfl, fun h hnot => ?_, fun i hi h hl => ?_⟩
    · refine settles ((pollReceive_eq h).trans (if_neg ?_)) fun o g => rfl
      obtain hl | hm := hnot
      · simp [hl]
      · simp [hm]
    · obtain ⟨rfl, hm⟩ | rfl := hi
      · exact polledFrame_cases ((pollReceive_eq h).trans (if_pos (by simp [hl, hm])))
      · exact polledFrame_cases (frameReceive_polled h hl)

end Sys2Proof.Proofs
end

section
/-!
PROOFS. The legacy round port (R276 to R278).
-/

namespace Sys2Proof.Proofs
open Sys2Proof.Machine Sys2Proof.Laws

section
variable {t : Int} {s : State}

/-! ## The bus -/

/-- A bus put in place. -/
def withBus (b : LBusSt) (s : State) : State := { s with net := { s.net with bus := b } }

/-- The bus as a poll cycle takes RCT_LBUS. -/
def busNow (s : State) : LBusSt :=
  if s.net.bus.running = true ∨ s.net.bus.reply ≠ none then s.net.bus else { s.net.bus with mode := regF s 0x9028 1 0, shown := slaves s }

theorem busCycle_eq (s : State) : busCycle s = withBus (busNow s) s := by
  unfold busCycle busNow
  by_cases h : s.net.bus.running = true ∨ s.net.bus.reply ≠ none
  · rw [if_pos h, if_pos (by simpa [Option.isSome_iff_ne_none] using h)]
    rfl
  · rw [if_neg h, if_neg (by simpa [Option.isSome_iff_ne_none] using h)]
    rfl

theorem busNow_running (s : State) : (busNow s).running = s.net.bus.running ∧ (busNow s).walkAt = s.net.bus.walkAt := by
  unfold busNow
  split
  · exact ⟨rfl, rfl⟩
  · exact ⟨rfl, rfl⟩

/-- Whether the port works in a mode with a bus in place (R251, R277, R278). -/
def BusLives (s : State) (y : LBusSt) (m : Nat) : Prop :=
  active s .field = true ∧ s.net.ridge = false ∧ s.bsc.power ≠ .safehalt ∧ s.sec.lifecycle ≠ 5 ∧ y.mode = m

theorem busLive_iff {m : Nat} {v : State} : busLive v m = true ↔ BusLives v v.net.bus m := by
  unfold busLive BusLives
  simp only [Bool.and_eq_true, Bool.not_eq_true', bne_iff_ne, ne_eq, decide_eq_true_eq, and_assoc]

theorem busLive_false {m : Nat} {v : State} (h : ¬ BusLives v v.net.bus m) : busLive v m = false := by
  cases hv : busLive v m with
  | false => rfl
  | true => exact absurd (busLive_iff.mp hv) h

/-! ## A walk (R277) -/

/-- Whether a walk may start. -/
def MayWalk (t : Int) (s : State) : Prop :=
  BusLives s (busNow s) 1 ∧ s.net.bus.running = false ∧ (∀ w, s.net.bus.walkAt = some w → w + ((regF s 0x9028 25 16 * 1000000 : Nat) : Int) ≤ t) ∧ pollEntries s 1 ≠ []

theorem legacyWalkStart_starts :
    (MayWalk t s → exec (.legacyWalkStart t) s = settle (withBus { busNow s with walkAt := some t, running := true, ix := 0, nextAt := t, out := none } (atTime t s)))
      ∧ (¬ MayWalk t s → exec (.legacyWalkStart t) s = settle (withBus (busNow s) (atTime t s))) := by
  obtain ⟨hrun, hwalk⟩ := busNow_running s
  have hiff : (busLive (withBus (busNow s) (atTime t s)) 1 && !(busNow s).running && (busNow s).walkAt.all (fun w => decide (t ≥ w + ((regF s 0x9028 25 16 * 1000000 : Nat) : Int)))
      && pollEntries s 1 != []) = true ↔ MayWalk t s := by
    rw [hrun, hwalk]
    unfold MayWalk
    rw [Bool.and_eq_true, Bool.and_eq_true, Bool.and_eq_true, busLive_iff, Bool.not_eq_true', Option.all_eq_true, bne_iff_ne, and_assoc, and_assoc]
    simp only [decide_eq_true_eq, ge_iff_le]
    exact Iff.rfl
  have hexec : exec (.legacyWalkStart t) s =
      if busLive (withBus (busNow s) (atTime t s)) 1 && !(busNow s).running && (busNow s).walkAt.all (fun w => decide (t ≥ w + ((regF s 0x9028 25 16 * 1000000 : Nat) : Int)))
        && pollEntries s 1 != [] then settle (withBus { busNow s with walkAt := some t, running := true, ix := 0, nextAt := t, out := none } (atTime t s))
      else settle (withBus (busNow s) (atTime t s)) := by
    show execLegacyWalkStart t s = _
    unfold execLegacyWalkStart
    dsimp only
    rw [busCycle_eq]
    rfl
  exact ⟨fun h => hexec.trans (if_pos (hiff.mpr h)), fun h => hexec.trans (if_neg fun hb => h (hiff.mp hb))⟩

/-- Whether the walk's next poll may leave. -/
def MayPoll (t : Int) (s : State) : Prop :=
  BusLives s s.net.bus 1 ∧ s.net.bus.running = true ∧ s.net.bus.out = none ∧ s.net.bus.nextAt ≤ t

theorem legacyPollSend_none (h : (pollEntries s 1)[s.net.bus.ix]? = none) : exec (.legacyPollSend t) s = settle (atTime t s) := by
  show execLegacyPollSend t s = _
  unfold execLegacyPollSend
  dsimp only
  rw [show (pollEntries (atTime t s) 1)[(atTime t s).net.bus.ix]? = none from h]

/-- The poll of an entry as it awaits its reply. -/
def busPoll (t : Int) (w : Word) (seq : Nat) : PollOut :=
  { addr := fld w 7 0, req := fld w 23 20, wait := ((fld w 19 12 * 10000 : Nat) : Int), tEnd := t + 27500, seq := seq }

theorem legacyPollSend_polls {w : Word} (h : (pollEntries s 1)[s.net.bus.ix]? = some w) :
    (MayPoll t s → ∃ u seq, exec (.legacyPollSend t) s = .next u
      ∧ (let q : Byte := BitVec.ofNat 8 seq
        Out.chars t (t - 500) (t + 28000) (busChars (BitVec.ofNat 8 (fld w 7 0) :: 0x31 :: q :: busCrc [0x31, q])) ∈ u.out)
      ∧ u = { shown s u with now := t, free := s.free + 1, net := { s.net with bus := { s.net.bus with ix := s.net.bus.ix + 1, out := some (busPoll t w seq) } } })
      ∧ (¬ MayPoll t s → ∃ u, exec (.legacyPollSend t) s = .next u ∧ u = { shown s u with now := t }) := by
  have hiff : (!busLive (atTime t s) 1 || !s.net.bus.running || s.net.bus.out.isSome || decide (t < s.net.bus.nextAt)) = false ↔ MayPoll t s := by
    unfold MayPoll
    rw [Bool.or_eq_false_iff, Bool.or_eq_false_iff, Bool.or_eq_false_iff, Bool.not_eq_false', Bool.not_eq_false', busLive_iff, Option.isSome_eq_false_iff,
      Option.isNone_iff_eq_none, decide_eq_false_iff_not, not_lt, and_assoc, and_assoc]
    exact Iff.rfl
  let seq := fld (draw (atTime t s)).1 7 0
  have hend : charsEnd t 5 = t + 27500 := by unfold charsEnd; omega
  have hlow : charsEnd t 5 + 500 = t + 28000 := by unfold charsEnd; omega
  have hexec : exec (.legacyPollSend t) s = if !busLive (atTime t s) 1 || !s.net.bus.running || s.net.bus.out.isSome || decide (t < s.net.bus.nextAt) then settle (atTime t s)
      else settle (withBus { s.net.bus with ix := s.net.bus.ix + 1, out := some (busPoll t w seq) }
        { atTime t s with free := s.free + 1,
                          out := s.out ++ [.chars t (t - 500) (t + 28000) (busChars (BitVec.ofNat 8 (fld w 7 0) :: 0x31 :: BitVec.ofNat 8 seq :: busCrc [0x31, BitVec.ofNat 8 seq]))] }) := by
    show execLegacyPollSend t s = _
    unfold execLegacyPollSend
    dsimp only
    rw [show (pollEntries (atTime t s) 1)[(atTime t s).net.bus.ix]? = some w from h]
    unfold busPoll
    rw [← hlow, ← hend]
    rfl
  refine ⟨fun hmay => ?_, fun hnot => settles (hexec.trans (if_pos ?_)) fun o g => rfl⟩
  · have hne : ¬ (!busLive (atTime t s) 1 || !s.net.bus.running || s.net.bus.out.isSome || decide (t < s.net.bus.nextAt)) = true := by
      rw [hiff.mpr hmay]
      decide
    obtain ⟨u, hu, hout, hframe⟩ := settles (P := fun u => Out.chars t (t - 500) (t + 28000)
        (busChars (BitVec.ofNat 8 (fld w 7 0) :: 0x31 :: BitVec.ofNat 8 seq :: busCrc [0x31, BitVec.ofNat 8 seq])) ∈ u.out ∧ u = { shown s u with now := t, free := s.free + 1, net := { s.net with bus := { s.net.bus with ix := s.net.bus.ix + 1, out := some (busPoll t w seq) } } })
      (hexec.trans (if_neg hne)) fun o g => ⟨List.mem_append_left _ (List.mem_append_right _ (List.mem_singleton_self _)), rfl⟩
    exact ⟨u, seq, hu, hout, hframe⟩
  · by_contra hno
    exact hnot (hiff.mp (Bool.eq_false_iff.mpr hno))

/-! ## Replies (R276, R277) -/

/-- The bus after a poll that has ended at an instant. -/
def pollDone (e : Int) (s : State) : LBusSt :=
  { s.net.bus with out := none, nextAt := e + 20000, running := decide (s.net.bus.ix < (pollEntries s 1).length) }

theorem legacyReplyTimeout_none (h : s.net.bus.out = none) : exec (.legacyReplyTimeout t) s = settle (atTime t s) := by
  show execLegacyReplyTimeout t s = _
  unfold execLegacyReplyTimeout
  dsimp only
  rw [show (atTime t s).net.bus.out = none from h]

theorem legacyReplyTimeout_ends {p : PollOut} (h : s.net.bus.out = some p) :
    (BusLives s s.net.bus 1 → p.tEnd + p.wait ≤ t → ∃ u, exec (.legacyReplyTimeout t) s = .next u
      ∧ u = { reported s u with now := t, net := { s.net with dead := u.net.dead, bus := pollDone t s } })
      ∧ ((¬ BusLives s s.net.bus 1 ∨ t < p.tEnd + p.wait) → ∃ u, exec (.legacyReplyTimeout t) s = .next u ∧ u = { shown s u with now := t }) := by
  have hexec : exec (.legacyReplyTimeout t) s = if busLive (atTime t s) 1 && decide (t ≥ p.tEnd + p.wait) then settle (deadLetter 6 2 p.addr (withBus (pollDone t s) (atTime t s)))
      else settle (atTime t s) := by
    show execLegacyReplyTimeout t s = _
    unfold execLegacyReplyTimeout
    dsimp only
    rw [show (atTime t s).net.bus.out = some p from h]
    rfl
  refine ⟨fun hl hdue => ?_, fun hnot => settles (hexec.trans (if_neg ?_)) fun o g => rfl⟩
  · obtain ⟨c, i, d, hdead⟩ := deadLetter_update 6 2 p.addr (withBus (pollDone t s) (atTime t s))
    rw [if_pos (by rw [busLive_iff.mpr (show BusLives (atTime t s) (atTime t s).net.bus 1 from hl), decide_eq_true hdue]; rfl), hdead] at hexec
    exact settles hexec fun o g => rfl
  · obtain hl | hearly := hnot
    · rw [busLive_false (show ¬ BusLives (atTime t s) (atTime t s).net.bus 1 from hl)]
      exact Bool.false_ne_true
    · rw [decide_eq_false (not_le.mpr hearly), Bool.and_false]
      exact Bool.false_ne_true

/-- An item of an OB1160 for one lane's ledger. -/
def busLane (it : Lane → State → HItem) (l : Lane) (s : State) : State :=
  if laneTakes s l && (s.net.joins != 0 || polled s) then rctItem l (it l s) s else s

theorem busLane_update (it : Lane → State → HItem) (l : Lane) (s : State) : ∃ q, busLane it l s = { s with rctq := q } := by
  unfold busLane
  split
  · exact ⟨_, rfl⟩
  · exact ⟨s.rctq, rfl⟩

/-- The items of an OB1160 wait in the lanes' ledgers. -/
theorem busItem_update (it : Lane → State → HItem) (s : State) : ∃ q, busItem it s = { s with rctq := q } := by
  obtain ⟨q, hq⟩ := busLane_update it .x s
  obtain ⟨r, hr⟩ := busLane_update it .y (busLane it .x s)
  rw [hq] at hr
  refine ⟨r, .trans ?_ hr⟩
  rw [← hq]
  rfl

/-- The events of a reply change what waits for the lanes' ledgers and what waits for the recorder. -/
def BusHeard (s v : State) : Prop := ∃ i q, v = { s with erc := { s.erc with inbox := i }, rctq := q }

theorem busEvent_heard {v : State} (a ty : Nat) (neg : Bool) (e : Int) (h : BusHeard s v) : BusHeard s (busEvent a ty neg e v) := by
  obtain ⟨i, q, rfl⟩ := h
  obtain ⟨r, hr⟩ := busItem_update (fun _ _ => .ev (some a) { ty := ty, neg := neg, lt := false, zone := 3, pending := 0, head := 8191, t := e, data := 0, marks := 512, rst := none })
    { s with erc := { s.erc with inbox := i }, rctq := q }
  exact ⟨i, r, hr⟩

theorem foldl_heard {α : Type} (f : State → α → State) (l : List α) (hf : ∀ v x, BusHeard s v → BusHeard s (f v x)) {v : State} (h : BusHeard s v) :
    BusHeard s (l.foldl f v) := by
  induction l generalizing v with
  | nil => exact h
  | cons x l ih => exact ih (hf v x h)

/-- A status of an OB1160: its watermark is both lanes' mark of the node. -/
theorem busStatus_marks (a flags : Nat) (w : Int) (v : State) :
    ∃ q r, busStatus a flags w v = { v with rctq := q, net := { v.net with rct := r } }
      ∧ tget none (markKey a 8191) r.a.marks = some w ∧ tget none (markKey a 8191) r.b.marks = some w := by
  obtain ⟨q, hq⟩ := busItem_update (fun l s => .status (some a) (busState flags ((tget none (markKey a 8191) (s.net.rct.lane l).marks).getD w) w)) v
  have hstatus : busStatus a flags w v = mapRct .y (fun y => { y with marks := tput none (markKey a 8191) (some w) y.marks })
      (mapRct .x (fun y => { y with marks := tput none (markKey a 8191) (some w) y.marks }) { v with rctq := q }) := by
    rw [← hq]
    rfl
  exact ⟨q, _, hstatus, tget_tput_some .., tget_tput_some ..⟩

/-- A node of the legacy bus as a reply shows it. -/
def busNode (ts : Int) (p : List Byte) : Ob1160 :=
  { service := true, pos := (nth 0 p 3).toNat, neg := (nth 0 p 4).toNat, tPrev := some ts, wmPrev := ts - 150000 }

theorem evalReply_update (a : Nat) (ts : Int) (p : List Byte) (s : State) :
    ∃ i q r, evalReply a ts p s = { s with erc := { s.erc with inbox := i }, rctq := q,
                                           net := { s.net with rct := r, bus := { s.net.bus with nodes := tput none a (some (busNode ts p)) s.net.bus.nodes } } }
      ∧ tget none (markKey a 8191) r.a.marks = some (ts - 150000) ∧ tget none (markKey a 8191) r.b.marks = some (ts - 150000) := by
  unfold evalReply
  extract_lets byte tick flags pos neg hist o moved fresh s1 np nn used s2
  have h1 : BusHeard s s1 := by
    unfold s1
    split
    · exact ⟨_, s.rctq, note_update ..⟩
    · exact ⟨s.erc.inbox, s.rctq, rfl⟩
  have h2 : BusHeard s s2 := by
    unfold s2
    split
    · split
      · exact busEvent_heard _ _ _ _ h1
      · exact h1
    · split
      · exact busEvent_heard _ _ _ _ h1
      · exact foldl_heard _ _ (fun v x hv => busEvent_heard _ _ _ _ hv) h1
  obtain ⟨i, q, hs2⟩ := h2
  obtain ⟨q', r, hstatus, hx, hy⟩ := busStatus_marks a flags (ts - 150000)
    (mapBus (fun b => { b with nodes := tput none a (some (busNode ts p)) b.nodes }) s2)
  rw [hs2] at hstatus
  rw [hs2]
  exact ⟨i, q', r, hstatus, hx, hy⟩

theorem legacyReplyReceive_silent {cs : List CharRx} (h : busRx cs = none ∨ ¬ BusLives s s.net.bus 1) : exec (.legacyReplyReceive cs) s = settle (atTime (charsNow cs) s) := by
  show execLegacyReplyReceive cs s = _
  unfold execLegacyReplyReceive
  dsimp only
  split
  case _ => rfl
  case _ r hr =>
    obtain h | h := h
    · rw [h] at hr
      cases hr
    · exact if_pos (by rw [busLive_false (show ¬ BusLives (atTime (charsNow cs) s) (atTime (charsNow cs) s).net.bus 1 from h)]; rfl)

theorem legacyReplyReceive_eq {cs : List CharRx} {r : BusRx} (hr : busRx cs = some r) (hl : BusLives s s.net.bus 1) : exec (.legacyReplyReceive cs) s =
    match s.net.bus.out with
    | none => settle (deadLetter 6 2 (nth 0 r.chars 3).toNat (atTime (charsNow cs) s))
    | some p =>
      if replyCause p r ≠ 0 then settle (deadLetter 6 (replyCause p r) (nth 0 r.chars 3).toNat (withBus (pollDone r.fin s) (atTime (charsNow cs) s)))
      else settle (evalReply p.addr r.t ((r.chars.drop 5).take 18) (withBus (pollDone r.fin s) (atTime (charsNow cs) s))) := by
  show execLegacyReplyReceive cs s = _
  unfold execLegacyReplyReceive
  dsimp only
  rw [hr]
  dsimp only
  rw [if_neg (by rw [busLive_iff.mpr (show BusLives (atTime (charsNow cs) s) (atTime (charsNow cs) s).net.bus 1 from hl)]; decide)]
  rfl

/-- Byte i of a STATUS reply's payload is character i + 5 of its frame. -/
theorem nth_payload (c : List Byte) {i : Nat} (hi : i < 18) : nth 0 ((c.drop 5).take 18) i = nth 0 c (5 + i) := by
  unfold nth
  rw [List.getElem?_take_of_lt hi, List.getElem?_drop]

theorem legacyReplyReceive_takes {cs : List CharRx} {r : BusRx} (hr : busRx cs = some r) (hl : BusLives s s.net.bus 1) :
    let e := charsNow cs
    (s.net.bus.out = none → ∃ u, exec (.legacyReplyReceive cs) s = .next u ∧ u = { reported s u with now := e, net := { s.net with dead := u.net.dead } })
      ∧ (∀ p, s.net.bus.out = some p → replyCause p r ≠ 0 → ∃ u, exec (.legacyReplyReceive cs) s = .next u
        ∧ u = { reported s u with now := e, net := { s.net with dead := u.net.dead, bus := pollDone r.fin s } })
      ∧ (∀ p, s.net.bus.out = some p → replyCause p r = 0 → ∃ u, exec (.legacyReplyReceive cs) s = .next u
        ∧ u.net.bus = { pollDone r.fin s with nodes := tput none p.addr (some { service := true, pos := (nth 0 r.chars 8).toNat, neg := (nth 0 r.chars 9).toNat, tPrev := some r.t, wmPrev := r.t - 150000 }) s.net.bus.nodes }
        ∧ u = { reported s u with now := e, ctr := s.ctr, rctq := u.rctq, net := { s.net with bus := u.net.bus, rct := u.net.rct } }
        ∧ tget none (markKey p.addr 8191) u.net.rct.a.marks = some (r.t - 150000) ∧ tget none (markKey p.addr 8191) u.net.rct.b.marks = some (r.t - 150000)) := by
  have hexec := legacyReplyReceive_eq hr hl
  refine ⟨fun hout => ?none, fun p hout hc => ?fails, fun p hout hc => ?good⟩
  case none =>
    rw [hout] at hexec
    obtain ⟨c, i, d, hdead⟩ := deadLetter_update 6 2 (nth 0 r.chars 3).toNat (atTime (charsNow cs) s)
    exact settles (hexec.trans (congrArg settle hdead)) fun o g => rfl
  case fails =>
    rw [hout] at hexec
    obtain ⟨c, i, d, hdead⟩ := deadLetter_update 6 (replyCause p r) (nth 0 r.chars 3).toNat (withBus (pollDone r.fin s) (atTime (charsNow cs) s))
    exact settles ((hexec.trans (if_pos hc)).trans (congrArg settle hdead)) fun o g => rfl
  case good =>
    rw [hout] at hexec
    obtain ⟨i, q, m, heval, hx, hy⟩ := evalReply_update p.addr r.t ((r.chars.drop 5).take 18) (withBus (pollDone r.fin s) (atTime (charsNow cs) s))
    have hnode : busNode r.t ((r.chars.drop 5).take 18)
        = { service := true, pos := (nth 0 r.chars 8).toNat, neg := (nth 0 r.chars 9).toNat, tPrev := some r.t, wmPrev := r.t - 150000 } := by
      unfold busNode
      rw [nth_payload _ (by decide), nth_payload _ (by decide)]
    rw [hnode] at heval
    exact settles ((hexec.trans (if_neg (not_not.mpr hc))).trans (congrArg settle heval)) fun o g => ⟨rfl, rfl, hx, hy⟩

/-! ## The slave (R278) -/

/-- A STATUS poll to one of the addresses that the port answers for. -/
def GoodPoll (s : State) (r : BusRx) : Prop :=
  BusLives s (busNow s) 2 ∧ r.stopsOk = true ∧ r.chars.length = 5 ∧ (nth 0 r.chars 1).toNat = 0x31
    ∧ busCrc ((r.chars.drop 1).take 2) = r.chars.drop 3 ∧ ∃ h, ((nth 0 r.chars 0).toNat, h) ∈ (busNow s).shown

theorem any_fst {l : List (Nat × Nat)} {a : Nat} : l.any (fun p => p.1 == a) = true ↔ ∃ h, (a, h) ∈ l := by
  rw [List.any_eq_true]
  constructor
  · rintro ⟨⟨b, h⟩, hmem, hb⟩
    exact ⟨h, (beq_iff_eq.mp hb : b = a) ▸ hmem⟩
  · rintro ⟨h, hmem⟩
    exact ⟨(a, h), hmem, beq_self_eq_true a⟩

theorem legacyPollReceive_takes {cs : List CharRx} {r : BusRx} (hr : busRx cs = some r) :
    (GoodPoll s r → exec (.legacyPollReceive cs) s
      = settle (withBus { busNow s with reply := some ((nth 0 r.chars 0).toNat, (nth 0 r.chars 2).toNat, r.fin + 20000) } (atTime (charsNow cs) s)))
      ∧ (¬ GoodPoll s r → exec (.legacyPollReceive cs) s = settle (withBus (busNow s) (atTime (charsNow cs) s))) := by
  have hexec : exec (.legacyPollReceive cs) s =
      if busLive (withBus (busNow s) (atTime (charsNow cs) s)) 2 && (r.stopsOk && r.chars.length == 5 && (nth 0 r.chars 1).toNat == 0x31
          && busCrc ((r.chars.drop 1).take 2) == r.chars.drop 3) && (busNow s).shown.any (fun p => p.1 == (nth 0 r.chars 0).toNat)
      then settle (withBus { busNow s with reply := some ((nth 0 r.chars 0).toNat, (nth 0 r.chars 2).toNat, r.fin + 20000) } (atTime (charsNow cs) s))
      else settle (withBus (busNow s) (atTime (charsNow cs) s)) := by
    show execLegacyPollReceive cs s = _
    unfold execLegacyPollReceive
    dsimp only
    rw [busCycle_eq, hr]
    rfl
  have hiff : (busLive (withBus (busNow s) (atTime (charsNow cs) s)) 2 && (r.stopsOk && r.chars.length == 5 && (nth 0 r.chars 1).toNat == 0x31
      && busCrc ((r.chars.drop 1).take 2) == r.chars.drop 3) && (busNow s).shown.any (fun p => p.1 == (nth 0 r.chars 0).toNat)) = true ↔ GoodPoll s r := by
    unfold GoodPoll
    rw [Bool.and_eq_true, Bool.and_eq_true, Bool.and_eq_true, Bool.and_eq_true, Bool.and_eq_true, busLive_iff, beq_iff_eq, beq_iff_eq, beq_iff_eq, any_fst]
    simp only [and_assoc]
    exact Iff.rfl
  exact ⟨fun h => hexec.trans (if_pos (hiff.mpr h)), fun h => hexec.trans (if_neg fun hb => h (hiff.mp hb))⟩

theorem legacyPollReceive_none {cs : List CharRx} (hr : busRx cs = none) : exec (.legacyPollReceive cs) s = settle (withBus (busNow s) (atTime (charsNow cs) s)) := by
  show execLegacyPollReceive cs s = _
  unfold execLegacyPollReceive
  dsimp only
  rw [busCycle_eq, hr]
  rfl

/-- The history entries of a head take 12 bytes; those without an event are drawn. -/
theorem slaveHist_length (x : SlaveHead) (s : State) : (∃ f, (slaveHist x s).2 = { s with free := f }) ∧ (slaveHist x s).1.length = 12 := by
  have hfold : ∀ (l : List Nat) (f : List Byte × State → Nat → List Byte × State),
      (∀ b i, (∃ k, b.2 = { s with free := k }) → (∃ k, (f b i).2 = { s with free := k }) ∧ (f b i).1.length = b.1.length + 3) →
      ∀ b, (∃ k, b.2 = { s with free := k }) → (∃ k, (l.foldl f b).2 = { s with free := k }) ∧ (l.foldl f b).1.length = b.1.length + 3 * l.length := by
    intro l f hf
    induction l with
    | nil => exact fun b hb => ⟨hb, rfl⟩
    | cons i l ih =>
      intro b hb
      obtain ⟨hk, hlen⟩ := hf b i hb
      obtain ⟨hk', hlen'⟩ := ih (f b i) hk
      exact ⟨hk', by rw [List.foldl_cons, hlen', hlen, List.length_cons]; omega⟩
  refine hfold (List.range 4) _ (fun b i hb => ?_) ([], s) ⟨s.free, rfl⟩
  obtain ⟨k, hk⟩ := hb
  dsimp only
  split
  case _ h _ => exact ⟨⟨k, hk⟩, by rw [List.length_append, List.length_append, natBytes_length]; rfl⟩
  case _ _ => exact ⟨⟨k + 1, by rw [hk]; rfl⟩, by rw [List.length_append, List.length_append, natBytes_length]; rfl⟩

theorem legacyReplySend_none (h : s.net.bus.reply = none) : exec (.legacyReplySend t) s = settle (atTime t s) := by
  show execLegacyReplySend t s = _
  unfold execLegacyReplySend
  dsimp only
  rw [show (atTime t s).net.bus.reply = none from h]

/-- Whether a reply that is due may leave now. -/
def MayReply (t : Int) (s : State) (ad : Nat) (due : Int) : Prop :=
  BusLives s s.net.bus 2 ∧ due - 1000 ≤ t ∧ t ≤ due + 1000 ∧ ∃ h, (ad, h) ∈ s.net.bus.shown

/-- The bus with no reply due any more. -/
def unreplied (s : State) : LBusSt := { s.net.bus with reply := none }

/-- The head that an address stands for, as the slave keeps it. -/
def slaveOf (h : Nat) (s : State) : SlaveHead := (tget none h s.net.bus.heads).getD { pos := 0, neg := 0, hist := [], on1 := false, on2 := false }

/-- The payload of a STATUS reply. -/
def replyBytes (t : Int) (ad h : Nat) (s : State) : List Byte :=
  let x := slaveOf h s
  let st := headState s h
  let flags := b2n x.on1 + 2 * b2n x.on2 + 4 * b2n (st = 0 || st = 4) + 8 * b2n (!s.net.bus.replied.contains ad)
  natBytes 2 ((t / 100000) % 65536).toNat ++ [BitVec.ofNat 8 flags, BitVec.ofNat 8 x.pos, BitVec.ofNat 8 x.neg, 0] ++ (slaveHist x s).1

theorem replyBytes_length (t : Int) (ad h : Nat) (s : State) : (replyBytes t ad h s).length = 18 := by
  unfold replyBytes
  rw [List.length_append, List.length_append, natBytes_length, (slaveHist_length _ s).2]
  rfl

/-- A STATUS reply without its CRC. -/
def replyBody (t : Int) (ad seq h : Nat) (s : State) : List Byte := [21, 0xB1, BitVec.ofNat 8 ad, BitVec.ofNat 8 seq] ++ replyBytes t ad h s

theorem legacyReplySend_eq {ad seq : Nat} {due : Int} (h : s.net.bus.reply = some (ad, seq, due)) :
    let v := withBus (unreplied s) (atTime t s)
    exec (.legacyReplySend t) s =
      match s.net.bus.shown.find? (fun p => p.1 == ad) with
      | none => settle v
      | some p =>
        if !busLive v 2 || t > due + 1000 || t < due - 1000 then settle v
        else settle (mapBus (fun b => { b with replied := if b.replied.contains ad then b.replied else ad :: b.replied })
          (busSend t ([0] ++ replyBody t ad seq p.2 v ++ busCrc (replyBody t ad seq p.2 v)) (slaveHist (slaveOf p.2 v) v).2)) := by
  intro v
  show execLegacyReplySend t s = _
  unfold execLegacyReplySend
  dsimp only
  rw [show (atTime t s).net.bus.reply = some (ad, seq, due) from h]
  rfl

/-- A due reply leaves to the address asked, 25 characters in all. -/
theorem legacyReplySend_replies {ad seq : Nat} {due : Int} (h : s.net.bus.reply = some (ad, seq, due)) :
    (MayReply t s ad due → ∃ u c, exec (.legacyReplySend t) s = .next u
      ∧ Out.chars t (t - 500) (t + 138000) (busChars (0 :: 21 :: 0xB1 :: BitVec.ofNat 8 ad :: BitVec.ofNat 8 seq :: c)) ∈ u.out ∧ c.length = 20
      ∧ u = { shown s u with now := t, free := u.free, net := { s.net with bus := { unreplied s with replied := if s.net.bus.replied.contains ad then s.net.bus.replied else ad :: s.net.bus.replied } } })
      ∧ (¬ MayReply t s ad due → ∃ u, exec (.legacyReplySend t) s = .next u ∧ u = { shown s u with now := t, net := { s.net with bus := unreplied s } }) := by
  have hexec := legacyReplySend_eq (t := t) h
  dsimp only at hexec
  refine ⟨fun hmay => ?sends, fun hnot => ?silent⟩
  case sends =>
    obtain ⟨hlive, hlow, hhigh, hshown⟩ := hmay
    obtain ⟨p, hp⟩ : ∃ p, s.net.bus.shown.find? (fun p => p.1 == ad) = some p :=
      Option.isSome_iff_exists.mp (List.find?_isSome.mpr (List.any_eq_true.mp (any_fst.mpr hshown)))
    rw [hp] at hexec
    have hgo : ¬ (!busLive (withBus (unreplied s) (atTime t s)) 2 || decide (t > due + 1000) || decide (t < due - 1000)) = true := by
      rw [busLive_iff.mpr (show BusLives (withBus (unreplied s) (atTime t s)) (unreplied s) 2 from hlive), decide_eq_false (not_lt.mpr hhigh), decide_eq_false (not_lt.mpr hlow)]
      decide
    replace hexec := hexec.trans (if_neg hgo)
    generalize hv : withBus (unreplied s) (atTime t s) = v at hexec
    obtain ⟨f, hf⟩ := (slaveHist_length (slaveOf p.2 v) v).1
    rw [hf] at hexec
    have hlen : ([0] ++ replyBody t ad seq p.2 v ++ busCrc (replyBody t ad seq p.2 v)).length = 25 := by
      unfold replyBody
      rw [List.length_append, List.length_append, List.length_append, replyBytes_length]
      rfl
    have hend : charsEnd t 25 + 500 = t + 138000 := by unfold charsEnd; omega
    unfold busSend at hexec
    rw [hlen, hend] at hexec
    obtain ⟨u, hu, hout, hframe⟩ := settles (P := fun u => Out.chars t (t - 500) (t + 138000)
        (busChars (0 :: 21 :: 0xB1 :: BitVec.ofNat 8 ad :: BitVec.ofNat 8 seq :: (replyBytes t ad p.2 v ++ busCrc (replyBody t ad seq p.2 v)))) ∈ u.out
        ∧ u = { shown s u with now := t, free := u.free, net := { s.net with bus := { unreplied s with replied := if s.net.bus.replied.contains ad then s.net.bus.replied else ad :: s.net.bus.replied } } })
      hexec fun o g => ⟨List.mem_append_left _ (List.mem_append_right _ (List.mem_singleton_self _)), by rw [← hv]; rfl⟩
    exact ⟨u, _, hu, hout, by rw [List.length_append, replyBytes_length]; rfl, hframe⟩
  case silent =>
    have hsilent : exec (.legacyReplySend t) s = settle (withBus (unreplied s) (atTime t s)) := by
      split at hexec
      case _ => exact hexec
      case _ p hp =>
        refine hexec.trans (if_pos ?_)
        by_contra hno
        have hshown : s.net.bus.shown.any (fun p => p.1 == ad) = true := List.any_eq_true.mpr ⟨p, List.mem_of_find?_eq_some hp, List.find?_some (p := fun p : Nat × Nat => p.1 == ad) hp⟩
        simp only [Bool.or_eq_true, Bool.not_eq_true', decide_eq_true_eq, not_or, Bool.not_eq_false, not_lt, gt_iff_lt] at hno
        obtain ⟨⟨hlive, hhigh⟩, hlow⟩ := hno
        exact hnot ⟨busLive_iff.mp hlive, hlow, hhigh, any_fst.mp hshown⟩
    exact settles hsilent fun o g => rfl

end

/-- Settles O47: what each event of the legacy round port leaves. -/
theorem legacyBusWalksAndAnswers : Obligations.LegacyBusWalksAndAnswers := by
  unfold Obligations.LegacyBusWalksAndAnswers
  intro t s
  refine ⟨fun h => settles (legacyWalkStart_starts.1 h) fun o g => rfl, fun h => settles (legacyWalkStart_starts.2 h) fun o g => rfl, fun w h => legacyPollSend_polls h,
    fun h => settles (legacyPollSend_none h) fun o g => rfl, fun h => settles (legacyReplyTimeout_none h) fun o g => rfl, fun p h => legacyReplyTimeout_ends h,
    fun cs => ⟨fun h => settles (legacyReplyReceive_silent h) fun o g => rfl, fun r hr hl => legacyReplyReceive_takes hr hl⟩,
    fun cs => ⟨fun r hr hok => settles ((legacyPollReceive_takes hr).1 hok) fun o g => rfl, fun hno => ?poll⟩,
    fun h => settles (legacyReplySend_none h) fun o g => rfl, fun ad seq due h => legacyReplySend_replies h⟩
  case poll =>
    cases hr : busRx cs with
    | none => exact settles (legacyPollReceive_none hr) fun o g => rfl
    | some r => exact settles ((legacyPollReceive_takes hr).2 (hno r hr)) fun o g => rfl

end Sys2Proof.Proofs
end

section
/-!
PROOFS. A located fault sends no frame (R189, R198 to R201); FRAME_SEND and CLAIM_SEND (R254 to R256, R263, R268, R270, R285).
-/

namespace Sys2Proof.Proofs
open Sys2Proof.Machine Sys2Proof.Laws

/-! ## What sends no frame -/

/-- Every frame that has left in u had left in s. -/
structure NoFrame (s u : State) : Prop where
  frames : ∀ p t b, Out.frame p t b ∈ u.out → Out.frame p t b ∈ s.out

section
variable {l : Lane} {s t u : State}

theorem NoFrame.refl (s : State) : NoFrame s s := ⟨fun _ _ _ h => h⟩

theorem NoFrame.trans (h : NoFrame s t) (k : NoFrame t u) : NoFrame s u := ⟨fun p i b hb => h.frames p i b (k.frames p i b hb)⟩

theorem NoFrame.of_out (h : u.out = s.out) : NoFrame s u := ⟨fun _ _ _ hb => h ▸ hb⟩

/-- A later part sends no frame where the earlier one sends nothing. -/
theorem NoFrame.after (k : NoFrame t u) (h : t.out = s.out) : NoFrame s u := (NoFrame.of_out h).trans k

theorem NoFrame.foldl {α : Type} {f : State → α → State} (h : ∀ s a, NoFrame s (f s a)) (l : List α) (s : State) : NoFrame s (l.foldl f s) := by
  induction l generalizing s with
  | nil => exact .refl s
  | cons a l ih => exact (h s a).trans (ih (f s a))

/-- Something else that leaves the part is no frame. -/
theorem NoFrame.append {o : Out} (h : u.out = s.out ++ [o]) (ho : ∀ p t b, o ≠ .frame p t b) : NoFrame s u :=
  ⟨fun p i b hb => by
    rw [h, List.mem_append, List.mem_singleton] at hb
    exact hb.resolve_right fun he => ho p i b he.symm⟩

theorem hostWrite_noFrame (a : Nat) (d : List Byte) (s : State) : NoFrame s (hostWrite a d s) := by
  unfold hostWrite
  split
  · exact .append rfl fun _ _ _ => nofun
  · exact .refl s

theorem sendFiring_noFrame (s : State) : NoFrame s (sendFiring s) := by
  unfold sendFiring
  refine .after (.foldl (fun u v => ?_) _ _) rfl
  unfold vecSend
  split
  · exact .of_out rfl
  · exact .append rfl fun _ _ _ => nofun

theorem publish_noFrame (s : State) : NoFrame s (publish s) := by
  unfold publish
  split
  · exact .refl s
  split
  · exact sendFiring_noFrame s
  split
  · exact sendFiring_noFrame s
  split
  · exact .refl s
  · refine .trans ?_ (sendFiring_noFrame _)
    exact .after (hostWrite_noFrame ..) rfl

theorem noteEv_noFrame (e : EvIn) (s : State) : NoFrame s (noteEv e s) := by
  rw [noteEv_update]
  exact .of_out rfl

theorem note_noFrame (code : Nat) (d : Dom) (b : Nat) (p0 p1 p2 : Word) (s : State) : NoFrame s (note code d b p0 p1 p2 s) := noteEv_noFrame _ s

theorem cplEmit_noFrame (o : OutCmd) (st : Nat) (r0 r1 : Word) (lx ly : Bool) (s : State) : NoFrame s (cplEmit o st r0 r1 lx ly s) := by
  unfold cplEmit
  extract_lets b
  split
  · unfold cplWrite
    extract_lets w
    obtain ⟨g, hg⟩ := vecItem_update 0 { w with hre := { w.hre with cplProd := w.hre.cplProd + 1 } }
    rw [hg]
    have hw : NoFrame s w := .after (hostWrite_noFrame ..) rfl
    exact hw.trans (.of_out rfl)
  split
  · exact .of_out rfl
  · exact .after (note_noFrame ..) rfl

theorem finish_noFrame (id st : Nat) (r0 r1 : Word) (s : State) : NoFrame s (finish id st r0 r1 s) := by
  unfold finish
  split
  · exact .refl s
  · exact .after (cplEmit_noFrame ..) rfl

theorem orderBand_out (d : Dom) (b : Nat) (s : State) : (orderBand d b s).out = s.out := by
  unfold orderBand
  dsimp only
  split <;> rfl

theorem setFloor_noFrame (d : Dom) (f : Nat) (s : State) : NoFrame s (setFloor d f s) := by
  unfold setFloor holdFloor
  split
  · split
    · exact .of_out (orderBand_out ..)
    · exact .of_out rfl
  · exact .of_out rfl

theorem setDom_noFrame (d : Dom) (st : DState) (s : State) : NoFrame s (setDom d st s) := by cases d <;> exact .of_out rfl

theorem holdDom_noFrame (d : Dom) (s : State) : NoFrame s (holdDom d s) := by
  unfold holdDom
  split
  · exact setDom_noFrame d .held s
  · exact .refl s

theorem fsyncPart_noFrame (id inst st : Nat) (ny : Int) (s : State) : NoFrame s (fsyncPart id inst st ny s) := by
  unfold fsyncPart
  split
  · exact .refl s
  · extract_lets f rest
    split
    · split <;> exact .after (finish_noFrame ..) rfl
    · exact .of_out rfl

theorem syncCancel_noFrame (i : Fch) (r : SyncReq) (s : State) : NoFrame s (syncCancel i r s) := by
  unfold syncCancel
  split
  · exact fsyncPart_noFrame ..
  · split
    · exact note_noFrame ..
    · exact .refl s

theorem syncsCancel_noFrame (i : Fch) (rs : List SyncReq) (s : State) : NoFrame s (rs.foldl (fun s r => syncCancel i r s) s) :=
  .foldl (fun s r => syncCancel_noFrame i r s) rs s

theorem cancelWaiting_noFrame (i : Fch) (s : State) : NoFrame s (cancelWaiting i s) := by
  unfold cancelWaiting
  dsimp only
  have h := NoFrame.after (syncsCancel_noFrame i (fchOf s i).syncs (mapFch i (fun x => { x with syncs := [], swap := none }) s)) (mapFch_out ..)
  split
  · exact h.trans (finish_noFrame ..)
  · exact h

theorem toStr_noFrame (b : Block) (s : State) : NoFrame s (toStr b s) := by
  unfold toStr
  refine .foldl (fun s n => ?_) _ s
  dsimp only
  split
  · exact .of_out rfl
  · exact .refl s

theorem flagDef_out (d : Nat) (s : State) : (flagDef d s).out = s.out := by
  unfold flagDef
  dsimp only
  split <;> rfl

theorem zonePoint_noFrame (i : Fch) (kind : Nat) (n t : Int) (lt : Bool) (s : State) : NoFrame s (zonePoint i kind n t lt s) := by
  unfold zonePoint
  dsimp only
  split
  · exact .trans (.foldl (fun s d => .after (toStr_noFrame ..) (flagDef_out d s)) _ s) (.of_out (mapFch_out ..))
  · exact .of_out (mapFch_out ..)

theorem endChain_noFrame (i : Fch) (n : Option Int) (t : Int) (s : State) : NoFrame s (endChain i n t s) := by
  have hend : ∀ (k t : Int) (lt : Bool) (u : State), NoFrame u (zonePoint i 2 k t lt (cancelWaiting i (mapFch i (fun x => { x with endAt := none }) u))) :=
    fun k t lt u => .trans (.after (cancelWaiting_noFrame ..) (mapFch_out ..)) (zonePoint_noFrame ..)
  unfold endChain
  extract_lets x last y meets swaps v w z
  have hw : NoFrame s w := .after (syncsCancel_noFrame ..) (mapFch_out ..)
  have hz : NoFrame s z := by
    unfold z
    split
    · split
      · exact hw
      · exact hw.trans (finish_noFrame ..)
    · exact hw
  split
  · split
    · exact hz.trans (hend ..)
    · exact hz
  · split
    · exact hz.trans (hend ..)
    · exact hz
  · exact hz

theorem stopPort_noFrame (p : Port) (run : Nat) (s : State) : NoFrame s (stopPort p run s) := by
  unfold stopPort
  dsimp only
  refine .trans ?_ (setFloor_noFrame ..)
  refine .trans ?_ (note_noFrame ..)
  exact .after (endChain_noFrame ..) (mapStg_out ..)

theorem haltPort_noFrame (p : Port) (s : State) : NoFrame s (haltPort p s) := by
  unfold haltPort
  extract_lets x n u v w
  split
  · exact .refl s
  have hu : NoFrame s u := by
    unfold u; split
    · exact finish_noFrame ..
    · exact .refl s
  have hv : NoFrame s v := by
    unfold v; split
    · exact hu.trans (finish_noFrame ..)
    · exact hu
  have hw : NoFrame s w := by
    unfold w; split
    · exact hv.trans (finish_noFrame ..)
    · exact hv
  refine .trans (.trans hw ?_) (stopPort_noFrame ..)
  unfold cancelRequests
  exact .after (.foldl (fun s i => finish_noFrame i stCancelled 0 0 s) _ _) (by rw [mapStg_out, mapStg_out])

theorem laneCommandsCancel_noFrame (s : State) : NoFrame s (laneCommandsCancel s) := by
  unfold laneCommandsCancel cancelAll
  exact .after (.foldl (fun s (o : OutCmd) => finish_noFrame o.id stCancelled 0 0 s) _ _) rfl

theorem topoCancel_noFrame (s : State) : NoFrame s (topoCancel s) := by
  unfold topoCancel
  split
  · exact .refl s
  case _ w _ =>
    refine .after (finish_noFrame ..) ?_
    unfold setBankState
    cases w.bank <;> rfl

theorem enterHalt_noFrame (cause : HaltCause) (s : State) : NoFrame s (enterHalt cause s) := by
  unfold enterHalt
  split
  · exact .refl s
  · extract_lets u v
    have hu : NoFrame s u :=
      (haltPort_noFrame .p0 s).trans ((haltPort_noFrame .p1 (haltPort .p0 s)).trans
        ((laneCommandsCancel_noFrame (haltPort .p1 (haltPort .p0 s))).trans (topoCancel_noFrame (laneCommandsCancel (haltPort .p1 (haltPort .p0 s))))))
    have hv : NoFrame u v := .foldl (fun s d => holdDom_noFrame d s) _ u
    clear_value v
    refine (hu.trans hv).trans ?_
    rw [setPower_frame]
    exact .of_out rfl

theorem openTarget_noFrame (s : State) : NoFrame s (openTarget l s) := by
  unfold openTarget
  split
  · split
    · refine .trans ?_ (finish_noFrame ..)
      exact .after (note_noFrame ..) rfl
    · exact .refl s
  · exact .refl s

theorem startReadmit_noFrame (id : Option Nat) (s : State) : NoFrame s (startReadmit l id s) := by
  obtain ⟨i, m, k, x, n, h, -, -⟩ := startReadmit_update l id s
  rw [h]
  exact .of_out rfl

theorem retireLane_noFrame (s : State) : NoFrame s (retireLane l s) := by
  unfold retireLane
  split
  · exact .refl s
  case _ f _ =>
  extract_lets reported counted recent lcm recorded held floored finished opened
  have hcounted : NoFrame s counted := (note_noFrame ..).trans (.of_out rfl)
  have hheld : NoFrame counted held := .after (holdDom_noFrame ..) rfl
  have hfloored : NoFrame held floored := by
    unfold floored
    split
    · exact .of_out (orderBand_out ..)
    · exact .of_out rfl
  have hfinished : NoFrame floored finished := by
    unfold finished
    split
    · exact finish_noFrame ..
    · exact .refl _
  have hopened : NoFrame s opened := hcounted.trans (hheld.trans (hfloored.trans (hfinished.trans (openTarget_noFrame _))))
  split
  · exact hopened.trans (startReadmit_noFrame ..)
  · exact hopened

theorem readmitEnd_noFrame (check : Nat) (hard : Bool) (s : State) : NoFrame s (readmitEnd l check hard s) := by
  unfold readmitEnd
  split
  · exact .refl s
  case _ r _ =>
  extract_lets reported finished lcm ended
  have hreported : NoFrame s reported := note_noFrame ..
  have hfinished : NoFrame reported finished := by
    unfold finished
    split
    · exact finish_noFrame ..
    · exact .refl _
  exact (hreported.trans hfinished).trans (.after (retireLane_noFrame _) rfl)

theorem lanesHaltAs_noFrame (cause : HaltCause) (why : Nat) (s : State) : NoFrame s (lanesHaltAs cause why s) := by
  unfold lanesHaltAs
  extract_lets u v
  have hu : NoFrame s u := .foldl (fun s l => by split <;> [exact .of_out rfl; exact .refl s]) _ s
  have hv : NoFrame u v := .foldl (fun s l => by
    unfold readmitBreak
    split
    · exact .refl s
    · exact .after (readmitEnd_noFrame ..) rfl) _ u
  exact ((hu.trans hv).trans (note_noFrame ..)).trans (enterHalt_noFrame ..)

theorem laneFault_noFrame (check detail : Nat) (s : State) : NoFrame s (laneFault l check detail s) := by
  unfold laneFault laneFaultAs
  split
  · extract_lets u other f c net lcm w
    have hu : NoFrame s u := noteEv_noFrame ..
    have hw : NoFrame s w := hu.trans (.of_out rfl)
    split
    · refine hw.trans ?_
      unfold releaseAlone
      extract_lets c o
      split
      · exact .refl _
      · exact .of_out rfl
    · exact hw.trans (lanesHaltAs_noFrame ..)
  · exact .trans (noteEv_noFrame ..) (readmitEnd_noFrame ..)
  · exact .refl s

end

end Sys2Proof.Proofs
end

section
/-!
PROOFS. FRAME_SEND and CLAIM_SEND (R254 to R256, R263, R268, R270, R285).
-/

namespace Sys2Proof.Proofs
open Sys2Proof.Machine Sys2Proof.Laws

section
variable {t : Int} {l : Lane} {index : Nat} {dyn : Bool} {ck : SendCheck} {e : Sched} {s v : State} {a : State} {o : Out} {y : RctSt}

/-! ## The places of a lane -/

/-- A frame that fails its crossing to the RSW stays off the ring; nothing else changes but a note. -/
theorem Sends.cross (ok : Bool) (h : Sends l a y o v) : Sends l a y o (ringCross l ok a v) := by
  unfold ringCross
  split
  · exact h
  · obtain ⟨c, i, r, x, rfl, -⟩ := h
    rw [note_update]
    exact ⟨c, _, a.net.ring, x, rfl, fun _ => rfl⟩

/-- A frame from the lane's RCT as it stands. -/
theorem emitFrame_leaves (type : Nat) (dyn : Bool) (index : Nat) (payload : List Byte) (a : State) :
    Sends l a (a.net.rct.lane l) (.frame (chanPort a l) a.now (frameBytes a false l.num type dyn index (curRound a) payload)) (emitFrame l type dyn index payload a) := by
  have h := emitFrame_sends (l := l) (a := a) (y := a.net.rct.lane l) type dyn index payload rfl rfl
  rwa [withRct_self] at h

theorem ringCross_self (ok : Bool) (a : State) : ringCross l ok a a = a := if_pos (by rw [beq_self_eq_true, Bool.or_true])

/-- Anywhere but in an owned place at its send point a lane sends nothing. -/
theorem frameSend_elsewhere (h : ∀ e, ownerOf (atTime t s) (curRound (atTime t s)) dyn index = some e →
      e.node ≠ nodeId s ∨ maySend (atTime t s) l e.kind = false ∨ sendAt (atTime t s) l dyn index ≠ some t) :
    exec (.frameSend t l index dyn ck) s = settle (atTime t s) := by
  refine .trans ?_ (congrArg settle (ringCross_self (l := l) ck.ringOk (atTime t s)))
  show execFrameSend t l index dyn ck s = _
  unfold execFrameSend
  dsimp only
  split
  case _ => rfl
  case _ e he =>
    refine if_pos ?_
    obtain hnode | hmay | hat := h e he
    · rw [bne_iff_ne.mpr (show e.node ≠ nodeId (atTime t s) from hnode)]
      rfl
    · rw [hmay]
      simp
    · rw [bne_iff_ne.mpr hat]
      simp

/-- In a place that the node owns, at its send point and with the guardian open, a lane does what the place's kind says. -/
theorem frameSend_place (ho : ownerOf (atTime t s) (curRound (atTime t s)) dyn index = some e) (hnode : e.node = nodeId s)
    (hmay : maySend (atTime t s) l e.kind = true) (hat : sendAt (atTime t s) l dyn index = some t) : exec (.frameSend t l index dyn ck) s =
      match e.kind with
      | 1 => settle (ringCross l ck.ringOk (atTime t s) (sendStates l index ck.readBackOk (slotLimit s) (atTime t s)))
      | 2 => settle (ringCross l ck.ringOk (atTime t s) (sentRecords l (oldest (s.net.rct.lane l) (t - 10000) (min 63 ((slotLimit s - 8) / 16))).length
        (emitFrame l 2 false index (lettersPayload (s.net.rct.lane l) (oldest (s.net.rct.lane l) (t - 10000) (min 63 ((slotLimit s - 8) / 16)))) (atTime t s))))
      | 3 => settle (ringCross l ck.ringOk (atTime t s) (sendTime l index (atTime t s)))
      | _ => if (dynIds (atTime t s) (curRound (atTime t s))).all (fun e => (claimOf (s.net.rct.lane l).claims e.index).isSome)
        then settle (ringCross l ck.ringOk (atTime t s) (sendBay l index (atTime t s))) else settle (ringCross l ck.ringOk (atTime t s) (atTime t s)) := by
  show execFrameSend t l index dyn ck s = _
  unfold execFrameSend
  dsimp only
  rw [ho]
  dsimp only
  rw [if_neg (by simp [hnode, hmay, hat]; rfl)]
  rfl

/-! ## What a lane sends in each kind of place -/

section
variable (ho : ownerOf (atTime t s) (curRound (atTime t s)) dyn index = some e) (hnode : e.node = nodeId s)
    (hmay : maySend (atTime t s) l e.kind = true) (hat : sendAt (atTime t s) l dyn index = some t)
include ho hnode hmay hat

theorem frameSend_states (hkind : e.kind = 1) : exec (.frameSend t l index dyn ck) s
    = settle (ringCross l ck.ringOk (atTime t s) (sendStates l index ck.readBackOk (slotLimit s) (atTime t s))) := by
  rw [frameSend_place ho hnode hmay hat, hkind]
  rfl

theorem frameSend_letters (hkind : e.kind = 2) :
    let x := s.net.rct.lane l
    let rs := oldest x (t - 10000) (min 63 ((slotLimit s - 8) / 16))
    exec (.frameSend t l index dyn ck) s
      = settle (ringCross l ck.ringOk (atTime t s) (sentRecords l rs.length (emitFrame l 2 false index (lettersPayload x rs) (atTime t s)))) := by
  rw [frameSend_place ho hnode hmay hat, hkind]
  rfl

theorem frameSend_time (hkind : e.kind = 3) : exec (.frameSend t l index dyn ck) s = settle (ringCross l ck.ringOk (atTime t s) (sendTime l index (atTime t s))) := by
  rw [frameSend_place ho hnode hmay hat, hkind]
  rfl

theorem frameSend_bay (hkind : e.kind = 4 ∨ e.kind = 5) : exec (.frameSend t l index dyn ck) s =
    if (dynIds (atTime t s) (curRound (atTime t s))).all (fun e => (claimOf (s.net.rct.lane l).claims e.index).isSome)
    then settle (ringCross l ck.ringOk (atTime t s) (sendBay l index (atTime t s))) else settle (ringCross l ck.ringOk (atTime t s) (atTime t s)) := by
  rw [frameSend_place ho hnode hmay hat]
  obtain hkind | hkind := hkind
  · rw [hkind]
    rfl
  · rw [hkind]
    rfl

end

/-- A TIME or STARTUP frame: the sender's own counts among the round's. -/
theorem sendTime_sends (index : Nat) (a : State) : ∃ y, Sends l a y (.frame (chanPort a l) a.now (frameBytes a false l.num (if (a.net.rct.lane l).st = 1 then 4 else 3)
      false index (curRound a) (timePayload (watchEligible l a) l))) (sendTime l index a)
    ∧ y.st = (a.net.rct.lane l).st ∧ y.stream = (a.net.rct.lane l).stream ∧ y.queue = (a.net.rct.lane l).queue ∧ y.times.length = (a.net.rct.lane l).times.length + 1 := by
  obtain ⟨z, hz, hkeys, hsilent, hst, hstream, hqueue, htimes⟩ : ∃ z, watchEligible l a = withRct l z a ∧ z.keys = (a.net.rct.lane l).keys ∧ z.silent = (a.net.rct.lane l).silent
      ∧ z.st = (a.net.rct.lane l).st ∧ z.stream = (a.net.rct.lane l).stream ∧ z.queue = (a.net.rct.lane l).queue ∧ z.times = (a.net.rct.lane l).times :=
    ⟨_, rfl, rfl, rfl, rfl, rfl, rfl, rfl⟩
  have hlane : (withRct l z a).net.rct.lane l = z := lane_setLane ..
  have hemit := emitFrame_sends (l := l) (a := a) (y := z) (if (a.net.rct.lane l).st = 1 then 4 else 3) false index (timePayload (watchEligible l a) l) hkeys hsilent
  have htype : (if ((withRct l z a).net.rct.lane l).st = 1 then 4 else 3) = if (a.net.rct.lane l).st = 1 then 4 else 3 := by
    rw [hlane, hst]
  have hsend : ∃ f : RctSt → RctSt, sendTime l index a = mapRct l f (emitFrame l (if (a.net.rct.lane l).st = 1 then 4 else 3) false index (timePayload (watchEligible l a) l) (withRct l z a))
      ∧ ∀ x, (f x).st = x.st ∧ (f x).stream = x.stream ∧ (f x).queue = x.queue ∧ (f x).times.length = x.times.length + 1 := by
    unfold sendTime
    dsimp only
    rw [hz, htype]
    exact ⟨_, rfl, fun x => ⟨rfl, rfl, rfl, List.length_append⟩⟩
  obtain ⟨f, hf, hkeeps⟩ := hsend
  obtain ⟨h1, h2, h3, h4⟩ := hkeeps z
  refine ⟨f z, ?_, h1.trans hst, h2.trans hstream, h3.trans hqueue, h4.trans (by rw [htimes])⟩
  rw [hf]
  exact hemit.mapRct f

/-- A bay claimed for letters. -/
theorem sendBay_letters {c : Claimed} (hc : (a.net.rct.lane l).claimed.find? (fun c => c.id == index) = some c) (hd : c.diag = false) :
    let x := a.net.rct.lane l
    let rs := x.stream.recs.take c.recs
    Sends l a { x with stream := { x.stream with recs := x.stream.recs.drop rs.length } }
      (.frame (chanPort a l) a.now (frameBytes a false l.num 2 true index (curRound a) (lettersPayload x rs))) (sendBay l index a) := by
  intro x rs
  have hbay : sendBay l index a = sentRecords l rs.length (emitFrame l 2 true index (lettersPayload x rs) a) := by
    unfold sendBay
    dsimp only
    rw [hc]
    dsimp only
    rw [hd]
    rfl
  rw [hbay]
  exact (emitFrame_leaves 2 true index (lettersPayload x rs) a).mapRct (fun x => { x with stream := { x.stream with recs := x.stream.recs.drop rs.length } })

/-- A lane's RCT without a diagnostic payload. -/
def diagLess (id : Nat) (x : RctSt) : RctSt := { x with diag := x.diag.filter (fun d => d.1 != id) }

/-- A lane's RCT put in place by a frame that ends a command. -/
def diagCrossed (l : Lane) (y : RctSt) (k : Tab Nat) (i : List EvIn) (w : List Out) (h : HreSt) (r : RingNet) (x : Tab (Option (Int × Int))) (a : State) : State :=
  { a with ctr := k, erc := { a.erc with inbox := i }, out := w, hre := h, net := { a.net with rct := a.net.rct.setLane l y, ring := r, tx := x } }

/-- A lane's diagnostic payload gone, and what its command's end may change. -/
def diagGone (l : Lane) (id : Nat) (k : Tab Nat) (i : List EvIn) (w : List Out) (h : HreSt) (v : State) : State :=
  { mapRct l (fun x => { x with diag := x.diag.filter (fun d => d.1 != id) }) v with ctr := k, erc := { v.erc with inbox := i }, out := w, hre := h }

/-- A diagnostic payload that has left ends its command once every serving lane has sent it. -/
theorem diagSent_update (id : Nat) (v : State) : ∃ k i w g, diagSent l id v =
    diagGone l id k i (v.out ++ w) { hreTold v.hre g with out := g.out } v := by
  unfold diagSent
  extract_lets u wait
  split
  · exact ⟨v.ctr, v.erc.inbox, [], v.hre, by rw [List.append_nil]; rfl⟩
  · obtain ⟨k, i, w, g, hg⟩ := finish_update id stApplied (roundLo u) 0 u
    exact ⟨k, i, w, { hreTold u.hre g with out := u.hre.out.filter (fun o => o.id != id) }, hg⟩

theorem ringCross_diagGone (id : Nat) (k : Tab Nat) (i : List EvIn) (w : List Out) (h : HreSt) (ok : Bool) (hv : Sends l a y o v) :
    ∃ i' r x, ringCross l ok a (diagGone l id k i w h v) = diagCrossed l (diagLess id y) k i' w h r x a := by
  obtain ⟨_, _, r, x, hv, -⟩ := hv
  have hgone : diagGone l id k i w h v = diagCrossed l (diagLess id y) k i w h r x a := by
    rw [hv]
    unfold diagGone diagCrossed
    rw [mapRct_eq]
    show ({ a with ctr := k, erc := { a.erc with inbox := i }, out := w, hre := h,
                   net := { a.net with rct := (a.net.rct.setLane l y).setLane l (diagLess id ((a.net.rct.setLane l y).lane l)), ring := r, tx := x } } : State) = _
    rw [lane_setLane, setLane_setLane]
  rw [hgone]
  unfold ringCross
  split
  · exact ⟨i, r, x, rfl⟩
  · rw [note_update]
    exact ⟨_, a.net.ring, x, rfl⟩

/-- A bay claimed for a diagnostic frame. -/
theorem frameSend_diag {c : Claimed} {d : Nat × List Byte} {r : List (Nat × List Byte)} (hc : (s.net.rct.lane l).claimed.find? (fun c => c.id == index) = some c)
    (hd : c.diag = true) (hq : (s.net.rct.lane l).diag = d :: r)
    (hexec : exec (.frameSend t l index dyn ck) s = settle (ringCross l ck.ringOk (atTime t s) (sendBay l index (atTime t s)))) :
    let a := atTime t s
    let x := s.net.rct.lane l
    ∃ u, exec (.frameSend t l index dyn ck) s = .next u ∧ Out.frame (chanPort s l) t (frameBytes a false l.num 6 true index (curRound a) d.2) ∈ u.out
      ∧ u = { commanded s u with now := t, net := { s.net with rct := s.net.rct.setLane l { x with diag := x.diag.filter (fun z => z.1 != d.1) }, ring := u.net.ring, tx := u.net.tx } } := by
  intro a x
  have hbay : sendBay l index a = diagSent l d.1 (emitFrame l 6 true index d.2 a) := by
    unfold sendBay
    dsimp only
    rw [show (a.net.rct.lane l).claimed.find? (fun c => c.id == index) = some c from hc]
    dsimp only
    rw [if_pos hd, show (a.net.rct.lane l).diag = d :: r from hq]
  obtain ⟨k, i, w, g, hdiag⟩ := diagSent_update (l := l) d.1 (emitFrame l 6 true index d.2 a)
  have hemit := emitFrame_leaves (l := l) 6 true index d.2 a
  rw [hbay, hdiag] at hexec
  generalize emitFrame l 6 true index d.2 a = v at hexec hemit
  have hout : .frame (chanPort s l) t (frameBytes a false l.num 6 true index (curRound a) d.2) ∈ v.out ++ w := by
    obtain ⟨_, _, _, _, hv, -⟩ := hemit
    rw [hv]
    exact List.mem_append_left _ (List.mem_append_right _ (List.mem_singleton_self _))
  have hhre : v.hre = s.hre := by
    obtain ⟨_, _, _, _, hv, -⟩ := hemit
    rw [hv]
    rfl
  obtain ⟨i', r', x', hcross⟩ := ringCross_diagGone d.1 k i (v.out ++ w) { hreTold v.hre g with out := g.out } ck.ringOk hemit
  rw [hcross, hhre] at hexec
  exact settles hexec fun o' g' => ⟨List.mem_append_left _ hout, with_reserve _ (if_pos rfl)⟩

/-! ## Claims (R270) -/

theorem claimSend_none (h : ownerOf (atTime t s) (curRound (atTime t s)) true index = none ∨ claimStart (atTime t s) (curRound (atTime t s)) index = none) :
    exec (.claimSend t l index) s = settle (atTime t s) := by
  show execClaimSend t l index s = _
  unfold execClaimSend
  dsimp only
  split
  case _ e o he ho =>
    obtain h | h := h
    · rw [h] at he
      cases he
    · rw [h] at ho
      cases ho
  case _ => rfl

/-- A lane that has claimed for a place of the round. -/
def claiming (id len : Nat) (f : Option (Claimed × Nat)) (x : RctSt) : RctSt :=
  { x with claims := addClaim id (some len) x.claims, claimed := x.claimed ++ (match f with | some c => [c.1] | none => []) }

theorem claimSend_eq {off : Int} (ho : ownerOf (atTime t s) (curRound (atTime t s)) true index = some e)
    (hc : claimStart (atTime t s) (curRound (atTime t s)) index = some off) :
    let a := atTime t s
    let start := (curRound a : Int) * roundNs s + off
    let f := claimFrame a l e start
    let len := match f with | some c => frameMinis c.2 | none => 0
    exec (.claimSend t l index) s = if e.node != nodeId s || !maySend a l e.kind || t != start + 250 then settle a
      else settle { mapRct l (claiming index len f) a with out := s.out ++ [.claim (chanPort s l) t (index % 256) len (claimCheck index len)] } := by
  intro a start f len
  show execClaimSend t l index s = _
  unfold execClaimSend
  dsimp only
  rw [ho, hc]
  rfl

end

/-- Settles O40: what a lane sends in each kind of place, and nothing anywhere else. -/
theorem framesAndClaimsLeaveAtTheirPlace : Obligations.FramesAndClaimsLeaveAtTheirPlace := by
  unfold Obligations.FramesAndClaimsLeaveAtTheirPlace
  intro t l s a k x same with_ sent
  refine ⟨fun index dyn ck h => settles (frameSend_elsewhere h) fun o g => rfl, fun index dyn ck e ho hnode hmay hat => ?place, fun id e o ho hc => ?claim,
    fun id h => settles (claimSend_none h) fun o g => rfl⟩
  case place =>
    intro ms rs known
    have hbay := frameSend_bay (ck := ck) ho hnode hmay hat
    refine ⟨fun hkind hms => ?null, fun hkind hms hok => ?states, fun hkind hms hbad => ?fault, fun hkind => ?letters, fun hkind => ?time,
      fun _ hknown c hc hd hkind => ?bay, fun _ hknown c d r hc hd hq hkind => ?diag, fun _ hnot hkind => ?nothing⟩
    case null =>
      have hexec := frameSend_states (ck := ck) ho hnode hmay hat hkind
      have hsend : sendStates l index ck.readBackOk (slotLimit s) a = emitFrame l 5 false index [] a := if_pos hms
      rw [hsend] at hexec
      obtain ⟨u, hu, hout, hframe⟩ := ((emitFrame_leaves 5 false index [] a).cross ck.ringOk).settles hexec
      exact ⟨u, hu, hout, hframe⟩
    case states =>
      have hexec := frameSend_states (ck := ck) ho hnode hmay hat hkind
      rw [hok] at hexec
      have hsends := sendStates_sends (l := l) (a := a) (y := x) (ms := ms) index (slotLimit s) rfl rfl rfl
      rw [if_neg hms, show withRct l x a = a from withRct_self a] at hsends
      obtain ⟨u, hu, hout, hframe⟩ := (hsends.cross ck.ringOk).settles hexec
      exact ⟨u, hu, hout, hframe⟩
    case fault =>
      have hexec := frameSend_states (ck := ck) ho hnode hmay hat hkind
      have hsend : sendStates l index ck.readBackOk (slotLimit s) a = laneFault l 12 0 a := by
        rw [hbad]
        exact (if_neg hms).trans (if_pos rfl)
      rw [hsend] at hexec
      have hcross : NoFrame (laneFault l 12 0 a) (ringCross l ck.ringOk a (laneFault l 12 0 a)) := by
        unfold ringCross
        split
        · exact .refl _
        · exact .after (note_noFrame ..) rfl
      have hnone := ((laneFault_noFrame (l := l) 12 0 a).trans hcross).trans (publish_noFrame _)
      exact ⟨_, hexec, hnone.frames⟩
    case letters =>
      have hexec := frameSend_letters (ck := ck) ho hnode hmay hat hkind
      have hsends := (emitFrame_leaves (l := l) 2 false index (lettersPayload x rs) a).mapRct (fun x => { x with stream := { x.stream with recs := x.stream.recs.drop rs.length } })
      obtain ⟨u, hu, hout, hframe⟩ := (hsends.cross ck.ringOk).settles hexec
      exact ⟨u, hu, hout, hframe⟩
    case time =>
      have hexec := frameSend_time (ck := ck) ho hnode hmay hat hkind
      obtain ⟨y, hsends, hst, hstream, hqueue, htimes⟩ := sendTime_sends (l := l) index a
      obtain ⟨u, hu, hout, hframe, hring⟩ := (hsends.cross ck.ringOk).settles hexec
      have hlane : u.net.rct.lane l = y := by
        rw [hframe]
        exact lane_setLane ..
      rw [← hlane] at hframe hst hstream hqueue htimes
      exact ⟨u, hu, hout, ⟨hframe, hring⟩, hst, hstream, hqueue, htimes⟩
    case bay =>
      have hexec := (hbay hkind).trans (if_pos hknown)
      obtain ⟨u, hu, hout, hframe⟩ := ((sendBay_letters (a := a) hc hd).cross ck.ringOk).settles hexec
      exact ⟨u, hu, hout, hframe⟩
    case diag => exact frameSend_diag hc hd hq ((hbay hkind).trans (if_pos hknown))
    case nothing =>
      have hexec := hbay hkind
      rw [ringCross_self] at hexec
      obtain hunknown | hnone := hnot
      · exact settles (hexec.trans (if_neg (by rw [← Bool.not_eq_true] at hunknown; exact hunknown))) fun o g => rfl
      · have hstill : sendBay l index a = a := by
          unfold sendBay
          dsimp only
          rw [show (a.net.rct.lane l).claimed.find? (fun c => c.id == index) = none from hnone]
        rw [hstill, ringCross_self, ite_self] at hexec
        exact settles hexec fun o g => rfl
  case claim =>
    intro start f len
    have hexec := claimSend_eq (l := l) ho hc
    dsimp only at hexec
    refine ⟨fun hnode hmay hat => ?_, fun hnot => settles (hexec.trans (if_pos ?_)) fun o g => rfl⟩
    · have hgo : ¬ (e.node != nodeId s || !maySend a l e.kind || t != start + 250) = true := by
        rw [bne_eq_false_iff_eq.mpr hnode, hmay, bne_eq_false_iff_eq.mpr hat]
        decide
      exact settles (hexec.trans (if_neg hgo)) fun o g => ⟨List.mem_append_left _ (List.mem_append_right _ (List.mem_singleton_self _)), rfl⟩
    · obtain hnode | hmay | hat := hnot
      · rw [bne_iff_ne.mpr hnode]
        rfl
      · rw [hmay]
        simp
      · rw [bne_iff_ne.mpr hat]
        simp

end Sys2Proof.Proofs
end

section
/-!
PROOFS. FRAME_RECEIVE and CLAIM_RECEIVE in round mode (R260 to R262, R270, R283, R291).
-/

namespace Sys2Proof.Proofs
open Sys2Proof.Machine Sys2Proof.Laws

section
variable {t : Int} {l : Lane} {s a v : State} {y : RctSt} {rx : FrameRx} {f : Frame} {d : Int}

/-! ## What a received frame may change -/

/-- What taking a frame may change: the lanes' RCTs, the dead letters, the counters, a note. -/
def RctFrame (a v : State) : Prop :=
  ∃ c i r x, v = { a with ctr := c, erc := { a.erc with inbox := i }, net := { a.net with rct := r, dead := x } }

theorem RctFrame.refl (a : State) : RctFrame a a := ⟨a.ctr, a.erc.inbox, a.net.rct, a.net.dead, rfl⟩

theorem RctFrame.withRct (h : RctFrame a v) : RctFrame a (withRct l y v) := by
  obtain ⟨c, i, r, x, rfl⟩ := h
  exact ⟨c, i, _, x, rfl⟩

theorem RctFrame.deadLetter (port cause node : Nat) (h : RctFrame a v) : RctFrame a (deadLetter port cause node v) := by
  obtain ⟨c, i, r, x, rfl⟩ := h
  obtain ⟨c', i', x', h⟩ := deadLetter_update port cause node { a with ctr := c, erc := { a.erc with inbox := i }, net := { a.net with rct := r, dead := x } }
  exact ⟨c', i', r, x', h⟩

theorem RctFrame.soloNote (m : Lane) (code blk : Nat) (p0 p1 p2 : Word) (h : RctFrame a v) : RctFrame a (soloNote m code blk p0 p1 p2 v) := by
  obtain ⟨c, i, r, x, rfl⟩ := h
  unfold Machine.soloNote
  rw [noteEv_update]
  exact ⟨c, _, r, x, rfl⟩

/-- What a step that takes a frame leaves. -/
theorem RctFrame.settles {r : Host.Outcome State Fault Refusal} (h : RctFrame (atTime t s) v) (hexec : r = settle v) :
    ∃ u, r = .next u ∧ u = { reported s u with now := t, net := { s.net with rct := u.net.rct, dead := u.net.dead } } ∧ u.net.rct = v.net.rct ∧ u.ctr = v.ctr := by
  obtain ⟨c, i, q, x, rfl⟩ := h
  exact Proofs.settles hexec fun o g => ⟨rfl, rfl, rfl⟩

/-- A part of a lane's RCT that a write to it keeps reads as before in every lane. -/
theorem lane_withRct {α : Type} (p : RctSt → α) (h : p y = p (a.net.rct.lane l)) (m : Lane) : p ((withRct l y a).net.rct.lane m) = p (a.net.rct.lane m) := by
  by_cases hm : m = l
  · subst hm
    exact (congrArg p (lane_setLane ..)).trans h
  · exact congrArg p (lane_setLane_ne _ _ hm)

theorem withRct_lane (l : Lane) (y : RctSt) (a : State) : (withRct l y a).net.rct.lane l = y := lane_setLane ..

theorem withRct_other (l : Lane) (y : RctSt) (a : State) : (withRct l y a).net.rct.lane l.other = a.net.rct.lane l.other := lane_setLane_other ..

theorem withRct_withRct (l : Lane) (y z : RctSt) (a : State) : withRct l z (withRct l y a) = withRct l z a := by
  show ({ a with net := { a.net with rct := (a.net.rct.setLane l y).setLane l z } } : State) = _
  rw [setLane_setLane]
  rfl

theorem mapRct_withRct (g : RctSt → RctSt) (l : Lane) (y : RctSt) (a : State) : mapRct l g (withRct l y a) = withRct l (g y) a := by
  rw [mapRct_eq, withRct_lane, withRct_withRct]

/-! ## Dead letters counted (R261) -/

/-- The low half of a word after a count in its low half, and in its high half. -/
theorem bumpHalf_low (o : Nat) (s : State) : tget 0 o (bumpHalf o false s).ctr % 65536 = satAdd 16 (tget 0 o s.ctr % 65536) 1
    ∧ tget 0 o (bumpHalf o false s).ctr / 65536 = tget 0 o s.ctr / 65536 := by
  have hne : tget 0 o s.ctr / 65536 * 65536 + satAdd 16 (tget 0 o s.ctr % 65536) 1 ≠ 0 := by
    unfold satAdd
    omega
  have hread : tget 0 o (bumpHalf o false s).ctr = tget 0 o s.ctr / 65536 * 65536 + satAdd 16 (tget 0 o s.ctr % 65536) 1 := tget_tput_of_ne _ _ _ _ _ hne
  rw [hread]
  unfold satAdd
  constructor <;> omega

theorem bumpHalf_high (o : Nat) (s : State) : tget 0 o (bumpHalf o true s).ctr % 65536 = tget 0 o s.ctr % 65536
    ∧ tget 0 o (bumpHalf o true s).ctr / 65536 = satAdd 16 (tget 0 o s.ctr / 65536) 1 := by
  have hne : satAdd 16 (tget 0 o s.ctr / 65536) 1 * 65536 + tget 0 o s.ctr % 65536 ≠ 0 := by
    unfold satAdd
    omega
  have hread : tget 0 o (bumpHalf o true s).ctr = satAdd 16 (tget 0 o s.ctr / 65536) 1 * 65536 + tget 0 o s.ctr % 65536 := tget_tput_of_ne _ _ _ _ _ hne
  rw [hread]
  constructor <;> omega

theorem deadLetter_ctr (port cause node : Nat) (s : State) : (deadLetter port cause node s).ctr
    = (bumpHalf (0x9E00 + 0x40 * port + 4 * (cause / 2)) (cause % 2 = 1) (bumpHalf (0x9E00 + 0x40 * port) false s)).ctr := by
  unfold deadLetter
  extract_lets d blk o s1 s2 quiet net s3
  have h3 : s3.ctr = s2.ctr := by
    unfold s3
    split
    · rfl
    · rw [note_update]
  split
  · rw [note_update]
    exact h3
  · exact h3

/-- A dead letter is counted in the low half of its port's first word, whatever its cause. -/
theorem deadLetter_counts (port node : Nat) {cause : Nat} (hc : cause ≠ 0) (s : State) :
    tget 0 (0x9E00 + 0x40 * port) (deadLetter port cause node s).ctr % 65536 = satAdd 16 (tget 0 (0x9E00 + 0x40 * port) s.ctr % 65536) 1 := by
  rw [deadLetter_ctr]
  by_cases h1 : cause = 1
  · subst h1
    exact (bumpHalf_high (0x9E00 + 0x40 * port) (bumpHalf (0x9E00 + 0x40 * port) false s)).1.trans (bumpHalf_low ..).1
  · have hkey : 0x9E00 + 0x40 * port ≠ 0x9E00 + 0x40 * port + 4 * (cause / 2) := by omega
    refine Eq.trans ?_ (bumpHalf_low (0x9E00 + 0x40 * port) s).1
    exact congrArg (· % 65536) (tget_tput_ne _ _ _ _ hkey)

/-- One whose cause is a code error is counted in the high half of that word too. -/
theorem deadLetter_code (port node : Nat) (s : State) :
    tget 0 (0x9E00 + 0x40 * port) (deadLetter port 1 node s).ctr / 65536 = satAdd 16 (tget 0 (0x9E00 + 0x40 * port) s.ctr / 65536) 1 := by
  rw [deadLetter_ctr]
  refine (bumpHalf_high (0x9E00 + 0x40 * port) (bumpHalf (0x9E00 + 0x40 * port) false s)).2.trans ?_
  rw [(bumpHalf_low (0x9E00 + 0x40 * port) s).2]

/-! ## What a lane does with a frame on its channel -/

/-- What measuring a frame or judging it may not change of a lane's RCT. -/
structure RctKept (x y : RctSt) : Prop where
  st : y.st = x.st
  loops : y.loops = x.loops
  claims : y.claims = x.claims
  stream : y.stream = x.stream
  peers : y.peers = x.peers
  times : y.times = x.times
  used : y.used = x.used

theorem RctKept.refl (x : RctSt) : RctKept x x := ⟨rfl, rfl, rfl, rfl, rfl, rfl, rfl⟩

theorem measure_kept (l : Lane) (rx : FrameRx) (f : Frame) (d : Int) (a : State) : ∃ y, measure l rx f d a = withRct l y a ∧ RctKept (a.net.rct.lane l) y := by
  have hself : ∃ y, a = withRct l y a ∧ RctKept (a.net.rct.lane l) y := ⟨_, (withRct_self a).symm, .refl _⟩
  unfold Machine.measure
  dsimp only
  split
  · exact hself
  split
  · exact hself
  split
  · exact ⟨_, mapRct_eq _ _, ⟨rfl, rfl, rfl, rfl, rfl, rfl, rfl⟩⟩
  · exact hself

theorem failingTime_kept (l : Lane) (rx : FrameRx) (f : Frame) (d : Int) (cause : Nat) {x : RctSt} (h : RctKept x y) :
    ∃ z, failingTime l rx f d cause (withRct l y a) = withRct l z a ∧ RctKept x z := by
  unfold failingTime
  split
  · exact ⟨y, rfl, h⟩
  · exact ⟨_, mapRct_withRct .., h.st, h.loops, h.claims, h.stream, h.peers, h.times, h.used⟩

/-- A frame with a code error is not measured. -/
theorem measure_codeError (h : rx.codeOk = false) (l : Lane) (f : Frame) (d : Int) (a : State) : measure l rx f d a = a := by
  unfold Machine.measure
  dsimp only
  split
  · rfl
  split
  · rfl
  refine if_neg ?_
  have hcause : ∀ w k m n, frameCause a l { rx with t := m, tEnd := n } f d w k = 1 := fun w k m n => by
    unfold frameCause
    rw [if_pos (by rw [h]; rfl)]
  rw [hcause]
  simp

/-- A round-mode frame on a lane's channel. -/
theorem frameReceive_round {crossOk : Bool} {rx : FrameRx} (h : portLane s rx.port = some l) (hr : rctRound (atTime rx.tEnd s) l = true) :
    exec (.frameReceive rx crossOk) s = settle (chanFrame l (heardRx (atTime rx.tEnd s) rx) crossOk (atTime rx.tEnd s)) := by
  have hpoll : pollLive (atTime rx.tEnd s) l = false := by
    unfold rctRound at hr
    unfold pollLive
    rw [Bool.and_eq_true, Bool.not_eq_true'] at hr
    rw [hr.2, Bool.and_false]
  show settle (receiveFrame (heardRx (atTime rx.tEnd s) rx) crossOk (atTime rx.tEnd s)) = _
  unfold receiveFrame
  rw [show portLane (atTime rx.tEnd s) (heardRx (atTime rx.tEnd s) rx).port = some l from h]
  dsimp only
  rw [if_neg (by rw [hpoll]; decide), if_pos hr]

theorem frameReceive_none {crossOk : Bool} {rx : FrameRx} (h : portLane s rx.port = none) : exec (.frameReceive rx crossOk) s = settle (atTime rx.tEnd s) := by
  show settle (receiveFrame (heardRx (atTime rx.tEnd s) rx) crossOk (atTime rx.tEnd s)) = _
  unfold receiveFrame
  rw [show portLane (atTime rx.tEnd s) (heardRx (atTime rx.tEnd s) rx).port = none from h]

theorem frameReceive_silent {crossOk : Bool} {rx : FrameRx} (h : portLane s rx.port = some l) (hr : rctRound (atTime rx.tEnd s) l = false)
    (hp : pollLive (atTime rx.tEnd s) l = false) : exec (.frameReceive rx crossOk) s = settle (atTime rx.tEnd s) := by
  show settle (receiveFrame (heardRx (atTime rx.tEnd s) rx) crossOk (atTime rx.tEnd s)) = _
  unfold receiveFrame
  rw [show portLane (atTime rx.tEnd s) (heardRx (atTime rx.tEnd s) rx).port = some l from h]
  dsimp only
  rw [if_neg (by rw [hp]; decide), if_neg (by rw [hr]; decide)]

theorem chanFrame_unjoined {crossOk : Bool} (hf : parseFrame rx.bytes = f) (hj : isJoined a = false) (ht : f.timed = false) : chanFrame l rx crossOk a = a := by
  subst hf
  unfold chanFrame
  dsimp only
  rw [hj, ht]
  rfl

section
variable {crossOk : Bool} (hf : parseFrame rx.bytes = f) (hj : isJoined a = true ∨ f.timed = true)
include hf hj

theorem chanFrame_undelayed (hd : delayOf a l f = none) : chanFrame l rx crossOk a = bump (rctCtr l 2) a := by
  subst hf
  unfold chanFrame
  dsimp only
  rw [if_neg (by obtain h | h := hj <;> simp [h]), hd]

theorem chanFrame_listens (hd : delayOf a l f = some d) (ht : f.timed = true) (hst : (a.net.rct.lane l).st = 0) :
    chanFrame l rx crossOk a = takeStart l rx f d a := by
  subst hf
  unfold chanFrame
  dsimp only
  rw [if_neg (by obtain h | h := hj <;> simp [h]), hd]
  dsimp only
  rw [if_pos (by rw [hst]; rfl), if_pos ht]

theorem chanFrame_judges (hd : delayOf a l f = some d) (hst : 2 ≤ (a.net.rct.lane l).st) : chanFrame l rx crossOk a =
    let b := measure l rx f d a
    let c := frameCause b l rx f d true (laneRound b l)
    if c = 0 then shareFrame l f rx.tEnd crossOk (noteValid l rx f d b)
    else deadLetter rx.port c f.node (failingTime l rx f d c b) := by
  subst hf
  unfold chanFrame
  dsimp only
  rw [if_neg (by obtain h | h := hj <;> simp [h]), hd]
  dsimp only
  rw [if_neg (by simp; omega)]

end

/-- A lane in LISTEN takes the time of a master's frame. -/
theorem leaveListen_takes (m : Nat) (delta : Int) (hj : a.net.joined = false) (ho : (a.net.rct.lane l.other).st ≠ 3) :
    RctFrame a (leaveListen l m delta a) ∧ ((leaveListen l m delta a).net.rct.lane l).st = 2 ∧ ((leaveListen l m delta a).net.rct.lane l).master = m
      ∧ ((leaveListen l m delta a).net.rct.lane l).delta = delta := by
  have halone : alone a l = false := by
    unfold alone
    rw [beq_eq_false_iff_ne.mpr ho]
    simp
  have hown : ∃ y, integrate l m delta a = withRct l y a ∧ y.st = 2 ∧ y.master = m ∧ y.delta = delta := by
    refine ⟨_, (rfl : integrate l m delta a = withRct l _ a), rfl, rfl, ?_⟩
    show (if (a.net.joined && decide (delta ≤ 8 * accNs a) && decide (-delta ≤ 8 * accNs a) || alone a l) = true then 0 else delta) = delta
    rw [hj, halone]
    rfl
  obtain ⟨y, hy, hst, hmaster, hdelta⟩ := hown
  unfold leaveListen
  dsimp only
  rw [hy]
  split
  · have hother : ∃ z, integrate l.other m delta (withRct l y a) = withRct l.other z (withRct l y a) := ⟨_, rfl⟩
    obtain ⟨z, hz⟩ := hother
    have hlane : (withRct l.other z (withRct l y a)).net.rct.lane l = y := by
      have hll : l = l.other.other := by cases l <;> rfl
      have h := withRct_other l.other z (withRct l y a)
      rw [← hll] at h
      exact h.trans (withRct_lane ..)
    rw [hz, hlane]
    exact ⟨(RctFrame.refl a).withRct.withRct, hst, hmaster, hdelta⟩
  · rw [withRct_lane]
    exact ⟨(RctFrame.refl a).withRct, hst, hmaster, hdelta⟩

/-! ## Frames that pass (R262, R283) -/

/-- The second copy's bound depends on the lanes' RCTs by their loops, their claims and the sender's loop. -/
theorem copyDue_withRct (hl : y.loops = (a.net.rct.lane l).loops) (hc : y.claims = (a.net.rct.lane l).claims)
    (hp : (peerOf y f.node).loop = (peerOf (a.net.rct.lane l) f.node).loop) (tEnd : Int) : copyDue (withRct l y a) f tEnd = copyDue a f tEnd := by
  have hloops := fun m => lane_withRct (fun x => x.loops) hl m
  have hclaims := fun m => lane_withRct (fun x => x.claims) hc m
  have hpeer := fun m => lane_withRct (fun x => (peerOf x f.node).loop) hp m
  have hdelay : ∀ m, delayOf (withRct l y a) m f = delayOf a m f := fun m => by
    unfold delayOf
    dsimp only
    rw [hloops m, hpeer m]
    rfl
  unfold copyDue
  dsimp only
  rw [hdelay .x, hdelay .y, hclaims .x, hclaims .y]
  rfl

theorem isJoined_withRct (h : y.st = (a.net.rct.lane l).st) : isJoined (withRct l y a) = isJoined a := by
  have hx : (withRct l y a).net.rct.a.st = a.net.rct.a.st := lane_withRct (fun x => x.st) h .x
  have hy : (withRct l y a).net.rct.b.st = a.net.rct.b.st := lane_withRct (fun x => x.st) h .y
  unfold isJoined
  rw [hx, hy]
  rfl

/-- A peer with one copy more that waits for its merge. -/
def moreHeld (n : Nat) (c : LCopy) (x : RctSt) : RctSt := { x with peers := tput none n (some { peerOf x n with held := (peerOf x n).held ++ [c] }) x.peers }

theorem peerOf_moreHeld (n : Nat) (c : LCopy) (x : RctSt) : peerOf (moreHeld n c x) n = { peerOf x n with held := (peerOf x n).held ++ [c] } := by
  unfold moreHeld peerOf
  rw [tget_tput_some]
  rfl

/-- A LETTERS frame waits for its merge. -/
theorem useFrame_letters (htype : f.type = 2) (tEnd : Int) :
    useFrame l f tEnd a = if isJoined a || polled a then withRct l (moreHeld f.node (copyOf (copyDue a f tEnd) f) (a.net.rct.lane l)) a else a := by
  unfold useFrame
  dsimp only
  rw [if_pos htype]
  rfl

/-- A TIME or STARTUP frame of which no copy was used counts among the round's. -/
theorem useFrame_timed (htimed : f.timed = true) (tEnd : Int) : ∃ z, useFrame l f tEnd a = withRct l z a ∧ z.heard = (a.net.rct.lane l).heard ∧ z.peers = (a.net.rct.lane l).peers
    ∧ ((a.net.rct.lane l).used.contains (f.node, f.dyn, f.index, f.round) = false → z.times.length = (a.net.rct.lane l).times.length + 1) := by
  have htype : f.type ≠ 2 := by
    unfold Frame.timed at htimed
    intro h
    rw [h] at htimed
    cases htimed
  unfold useFrame
  dsimp only
  rw [if_neg htype]
  split
  case _ hused => exact ⟨_, (withRct_self a).symm, rfl, rfl, fun h => absurd (h.symm.trans hused) (by decide)⟩
  case _ =>
    rw [mapRct_eq _ a, mapRct_withRct]
    exact ⟨_, rfl, rfl, rfl, fun _ => List.length_append⟩

/-- What a valid frame shows of its sender. -/
theorem noteValid_kept (l : Lane) (rx : FrameRx) (f : Frame) (d : Int) {x : RctSt} (h : RctKept x y) : ∃ z, noteValid l rx f d (withRct l y a) = withRct l z a ∧ z.heard = true
    ∧ z.st = x.st ∧ z.loops = x.loops ∧ z.claims = x.claims ∧ z.times = x.times ∧ z.used = x.used ∧ (f.timed = false → z.peers = x.peers)
    ∧ (f.timed = true → (peerOf z f.node).loop = some ((f.word 1).toNat, bitOf (f.word 0) 12)) := by
  unfold noteValid
  dsimp only
  rw [mapRct_withRct]
  split
  case _ ht =>
    rw [Bool.not_eq_true'] at ht
    exact ⟨_, rfl, rfl, h.st, h.loops, h.claims, h.times, h.used, fun _ => h.peers, fun h => absurd (ht.symm.trans h) (by decide)⟩
  case _ ht =>
    rw [Bool.not_eq_true, Bool.not_eq_false'] at ht
    unfold mapPeer
    rw [mapRct_withRct, mapRct_withRct]
    refine ⟨_, rfl, rfl, h.st, h.loops, h.claims, h.times, h.used, fun h => absurd (ht.symm.trans h) (by decide), fun _ => ?_⟩
    unfold peerOf
    rw [tget_tput_some]
    rfl

/-- A frame used by its lane is passed to the other where that one is live and it crosses well. -/
theorem shareFrame_eq (tEnd : Int) (crossOk : Bool) : ∃ cross : Bool, shareFrame l f tEnd crossOk a =
    (let w := useFrame l f tEnd a
     if cross then useFrame l.other f tEnd w
     else if crossOk || !rctLive w l.other || w.lcm.cond.lane l == .retired || w.lcm.cond.lane l == .failSilent then w
     else soloNote l.other evCrossingFail 3 2 (w32 l.other.num) (roundLo w) w)
    ∧ (crossOk = true → rctLive (useFrame l f tEnd a) l.other = true → (useFrame l f tEnd a).lcm.cond.lane l = .serving → cross = true) := by
  unfold shareFrame
  dsimp only
  generalize useFrame l f tEnd a = w
  by_cases hout : (!rctLive w l.other || w.lcm.cond.lane l == .retired || w.lcm.cond.lane l == .failSilent) = true
  · refine ⟨false, ?_, fun _ hlive hserv => ?_⟩
    · rw [if_pos hout, if_neg (by decide), if_pos]
      rw [Bool.or_assoc, Bool.or_assoc, ← Bool.or_assoc (!rctLive w l.other), hout, Bool.or_true]
    · rw [hlive, hserv] at hout
      exact absurd hout (by decide)
  · cases crossOk with
    | true =>
      refine ⟨true, ?_, fun _ _ _ => rfl⟩
      rw [if_neg hout]
      rfl
    | false =>
      refine ⟨false, ?_, fun h => absurd h (by decide)⟩
      rw [if_neg hout, if_neg (by decide), if_neg (by decide), if_neg (by rw [Bool.false_or]; exact hout)]

theorem withRct_of_other (l : Lane) (y : RctSt) (a : State) : (withRct l.other y a).net.rct.lane l = a.net.rct.lane l := by
  cases l <;> rfl

/-- A LETTERS frame waits in its lane and, where it crosses, in the other. -/
theorem shareFrame_letters {z : RctSt} (htype : f.type = 2) (tEnd : Int) (crossOk : Bool) (hst : z.st = (a.net.rct.lane l).st) (hl : z.loops = (a.net.rct.lane l).loops)
    (hc : z.claims = (a.net.rct.lane l).claims) (hp : z.peers = (a.net.rct.lane l).peers) :
    let u := shareFrame l f tEnd crossOk (withRct l z a)
    let more := copyOf (copyDue a f tEnd) f
    RctFrame a u ∧ (u.net.rct.lane l).heard = z.heard
      ∧ (isJoined a = true → (peerOf (u.net.rct.lane l) f.node).held = (peerOf (a.net.rct.lane l) f.node).held ++ [more])
      ∧ (isJoined a = true → crossOk = true → rctLive a l.other = true → a.lcm.cond.lane l = .serving →
        (peerOf (u.net.rct.lane l.other) f.node).held = (peerOf (a.net.rct.lane l.other) f.node).held ++ [more]) := by
  intro u more
  have hpeer : peerOf z f.node = peerOf (a.net.rct.lane l) f.node := by unfold peerOf; rw [hp]
  obtain ⟨x, hx, hheard, hxst, hxl, hxc, hxloop, hheld⟩ : ∃ x, useFrame l f tEnd (withRct l z a) = withRct l x a ∧ x.heard = z.heard ∧ x.st = z.st ∧ x.loops = z.loops ∧ x.claims = z.claims
      ∧ (peerOf x f.node).loop = (peerOf z f.node).loop ∧ (isJoined a = true → (peerOf x f.node).held = (peerOf z f.node).held ++ [more]) := by
    rw [useFrame_letters htype, isJoined_withRct hst, copyDue_withRct hl hc (congrArg Peer.loop hpeer), withRct_lane, withRct_withRct]
    split
    · refine ⟨_, rfl, rfl, rfl, rfl, rfl, ?_, fun _ => ?_⟩
      · rw [peerOf_moreHeld]
      · rw [peerOf_moreHeld]
    case _ hno => exact ⟨z, rfl, rfl, rfl, rfl, rfl, rfl, fun h => absurd (by rw [h]; rfl) hno⟩
  obtain ⟨cross, hu, hcross⟩ := shareFrame_eq (l := l) (f := f) (a := withRct l z a) tEnd crossOk
  rw [hx] at hu hcross
  have hframe : RctFrame a (withRct l x a) := (RctFrame.refl a).withRct
  have hown : (peerOf ((withRct l x a).net.rct.lane l) f.node).held = (peerOf x f.node).held := by rw [withRct_lane]
  cases cross with
  | true =>
    have hother : useFrame l.other f tEnd (withRct l x a)
        = if isJoined a || polled a then withRct l.other (moreHeld f.node more (a.net.rct.lane l.other)) (withRct l x a) else withRct l x a := by
      rw [useFrame_letters htype, isJoined_withRct (hxst.trans hst), copyDue_withRct (hxl.trans hl) (hxc.trans hc) (hxloop.trans (congrArg Peer.loop hpeer)), withRct_other]
      rfl
    have hshare : u = if isJoined a || polled a then withRct l.other (moreHeld f.node more (a.net.rct.lane l.other)) (withRct l x a) else withRct l x a := hu.trans hother
    rw [hshare]
    split
    case _ hj =>
      refine ⟨hframe.withRct, ?_, fun h => ?_, fun _ _ _ _ => ?_⟩
      · rw [withRct_of_other, withRct_lane, hheard]
      · rw [withRct_of_other, withRct_lane, hheld h, hpeer]
      · rw [withRct_lane, peerOf_moreHeld]
    case _ hno =>
      have hunjoined : isJoined a ≠ true := fun h => hno (by rw [h]; rfl)
      exact ⟨hframe, by rw [withRct_lane, hheard], fun h => absurd h hunjoined, fun h => absurd h hunjoined⟩
  | false =>
    have hkept : RctFrame a u ∧ u.net.rct = (withRct l x a).net.rct := by
      rw [show u = _ from hu]
      dsimp only
      rw [if_neg (by decide)]
      split
      · exact ⟨hframe, rfl⟩
      · refine ⟨hframe.soloNote .., ?_⟩
        unfold Machine.soloNote
        rw [noteEv_update]
    obtain ⟨hkept, hrct⟩ := hkept
    refine ⟨hkept, ?_, fun h => ?_, fun _ h1 h2 h3 => absurd (hcross h1 h2 h3) (by decide)⟩
    · rw [hrct, withRct_lane, hheard]
    · rw [hrct, withRct_lane, hheld h, hpeer]

/-- A TIME or STARTUP frame counts in its lane and, where it crosses, in the other. -/
theorem shareFrame_timed {z : RctSt} (htimed : f.timed = true) (tEnd : Int) (crossOk : Bool) :
    let u := shareFrame l f tEnd crossOk (withRct l z a)
    RctFrame a u ∧ (u.net.rct.lane l).heard = z.heard ∧ (u.net.rct.lane l).peers = z.peers
      ∧ (z.used.contains (f.node, f.dyn, f.index, f.round) = false → (u.net.rct.lane l).times.length = z.times.length + 1) := by
  intro u
  obtain ⟨x, hx, hheard, hpeers, htimes⟩ := useFrame_timed (l := l) (a := withRct l z a) htimed tEnd
  rw [withRct_withRct] at hx
  rw [withRct_lane] at hheard hpeers htimes
  obtain ⟨cross, hu, -⟩ := shareFrame_eq (l := l) (f := f) (a := withRct l z a) tEnd crossOk
  rw [hx] at hu
  have hframe : RctFrame a (withRct l x a) := (RctFrame.refl a).withRct
  have hown : RctFrame a u ∧ u.net.rct.lane l = x := by
    rw [show u = _ from hu]
    dsimp only
    split
    · obtain ⟨w, hw, -⟩ := useFrame_timed (l := l.other) (a := withRct l x a) htimed tEnd
      rw [hw, withRct_of_other, withRct_lane]
      exact ⟨hframe.withRct, rfl⟩
    split
    · exact ⟨hframe, withRct_lane ..⟩
    · refine ⟨hframe.soloNote .., ?_⟩
      unfold Machine.soloNote
      rw [noteEv_update]
      exact withRct_lane ..
  obtain ⟨hkept, hlane⟩ := hown
  rw [hlane]
  exact ⟨hkept, hheard, hpeers, htimes⟩

/-! ## Claims (R270, R301) -/

theorem claimReceive_ridge {port id : Nat} {rx : BranchRx} (hr : ridgeLive (atTime t s) = true) : exec (.claimReceive t port id rx) s =
    if s.net.rdg.sched then settle { atTime t s with net := { s.net with rdg := { s.net.rdg with claims := addClaim id (readClaim id rx) s.net.rdg.claims } } }
    else settle (atTime t s) := if_pos hr

theorem claimReceive_lane {port id : Nat} {rx : BranchRx} (hr : ridgeLive (atTime t s) = false) (hl : portLane s port = some l) : exec (.claimReceive t port id rx) s =
    if rctRound (atTime t s) l && (dynIds (atTime t s) (laneRound (atTime t s) l)).any (fun e => e.index == id) then
      settle (mapRct l (fun x => { x with claims := addClaim id (if claimInTime (atTime t s) l id then readClaim id rx else none) x.claims }) (atTime t s))
    else settle (atTime t s) := by
  show execClaimReceive t port id rx s = _
  unfold execClaimReceive
  dsimp only
  rw [hr, show portLane (atTime t s) port = some l from hl]
  rfl

theorem claimReceive_none {port id : Nat} {rx : BranchRx} (hr : ridgeLive (atTime t s) = false) (hl : portLane s port = none) :
    exec (.claimReceive t port id rx) s = settle (atTime t s) := by
  show execClaimReceive t port id rx s = _
  unfold execClaimReceive
  dsimp only
  rw [hr, show portLane (atTime t s) port = none from hl]
  rfl

end

/-- A frame in the state that its port's receiver has taken it: its bytes and its instants are its own. -/
theorem claimsAreTaken (t : Int) (port id : Nat) (rx : BranchRx) (s : State) :
    let a := atTime t s
    let same := fun (u : State) => u = { shown s u with now := t }
    (ridgeLive a = true → s.net.rdg.sched = true → ∃ u, exec (.claimReceive t port id rx) s = .next u
      ∧ u = { shown s u with now := t, net := { s.net with rdg := { s.net.rdg with claims := addClaim id (readClaim id rx) s.net.rdg.claims } } })
    ∧ (ridgeLive a = true → s.net.rdg.sched = false → ∃ u, exec (.claimReceive t port id rx) s = .next u ∧ same u)
    ∧ (∀ l, ridgeLive a = false → portLane s port = some l →
      let x := s.net.rct.lane l
      let used := rctRound a l && (dynIds a (laneRound a l)).any (fun e => e.index == id)
      (used = true → ∃ u, exec (.claimReceive t port id rx) s = .next u ∧ u = { shown s u with now := t, net := { s.net with rct := s.net.rct.setLane l { x with claims := addClaim id (if claimInTime a l id then readClaim id rx else none) x.claims } } })
      ∧ (used = false → ∃ u, exec (.claimReceive t port id rx) s = .next u ∧ same u))
    ∧ (ridgeLive a = false → portLane s port = none → ∃ u, exec (.claimReceive t port id rx) s = .next u ∧ same u) := by
  refine ⟨fun hr hs => settles ((claimReceive_ridge hr).trans (if_pos hs)) fun o g => rfl,
    fun hr hs => settles ((claimReceive_ridge hr).trans (if_neg (by rw [hs]; decide))) fun o g => rfl, fun l hr hl => ⟨fun hu => ?_, fun hu => ?_⟩,
    fun hr hl => settles (claimReceive_none hr hl) fun o g => rfl⟩
  · exact settles ((claimReceive_lane hr hl).trans (if_pos hu)) fun o g => rfl
  · exact settles ((claimReceive_lane hr hl).trans (if_neg (by rw [← Bool.not_eq_true] at hu; exact hu))) fun o g => rfl

/-- Settles O41: a received frame is taken, or is a dead letter of its cause; a claim is kept. -/
theorem framesAndClaimsAreTaken : Obligations.FramesAndClaimsAreTaken := by
  unfold Obligations.FramesAndClaimsAreTaken
  refine ⟨fun f crossOk s => ?frames, fun t port id rx s => claimsAreTaken t port id rx s⟩
  case frames =>
    intro a h g same kept
    refine ⟨fun hl => settles (frameReceive_none hl) fun o g => rfl, fun l hl hr hp => settles (frameReceive_silent hl hr hp) fun o g => rfl,
      fun l hl hr hj ht => ?unjoined, fun l hl hr hj hd => ?undelayed, fun l d hl hr ht hd hst hc hj ho hm => ?listens, fun w l d hw h1 h2 hl hr hj hd hst => ?los,
      fun l d hl hr hj hd hst => ?judged⟩
    case unjoined =>
      have hexec := frameReceive_round (crossOk := crossOk) hl hr
      rw [chanFrame_unjoined (a := a) (rx := h) (f := g) rfl hj ht] at hexec
      exact settles hexec fun o g => rfl
    case undelayed =>
      have hexec := frameReceive_round (crossOk := crossOk) hl hr
      rw [chanFrame_undelayed (a := a) (rx := h) (f := g) rfl hj hd] at hexec
      exact settles hexec fun o g => rfl
    case listens =>
      have hexec := frameReceive_round (crossOk := crossOk) hl hr
      have htake : takeStart l h g d a = leaveListen l g.node (frameNt a g d - f.t) a := by
        unfold takeStart
        dsimp only
        rw [if_neg (not_not.mpr hc), if_pos (show (a.net.rct.lane l).st = 0 from hst), ← hm, if_pos rfl]
        rfl
      rw [chanFrame_listens (a := a) (rx := h) (f := g) rfl (.inr ht) hd ht hst, htake] at hexec
      obtain ⟨hframe, hst', hmaster, hdelta⟩ := leaveListen_takes (l := l) (a := a) g.node (frameNt a g d - f.t) hj ho
      obtain ⟨u, hu, hkept, hrct, -⟩ := hframe.settles hexec
      rw [← hrct] at hst' hmaster hdelta
      exact ⟨u, hu, hkept, hst', hmaster, hdelta⟩
    case los =>
      have hcode : h.codeOk = false := by
        show (f.codeOk && (tget none f.port s.net.los).all (fun t => decide (t < f.t) || decide (f.tEnd < t))) = false
        rw [hw, Option.all_some, decide_eq_false (not_lt.mpr h1), decide_eq_false (not_lt.mpr h2)]
        exact Bool.and_false _
      have hexec := frameReceive_round (crossOk := crossOk) hl hr
      have hcause : frameCause a l h g d true (laneRound a l) = 1 := if_pos (by rw [hcode]; rfl)
      obtain ⟨y, hy, -⟩ := failingTime_kept l h g d 1 (a := a) (.refl (a.net.rct.lane l))
      rw [withRct_self] at hy
      have hchan : chanFrame l h crossOk a = deadLetter f.port 1 g.node (withRct l y a) := by
        rw [chanFrame_judges (a := a) (rx := h) (f := g) rfl (.inl hj) hd hst]
        dsimp only
        rw [measure_codeError hcode, hcause, if_neg (by decide), hy]
        rfl
      rw [hchan] at hexec
      obtain ⟨u, hu, -, -, hctr⟩ := ((RctFrame.refl a).withRct.deadLetter f.port 1 g.node).settles hexec
      exact ⟨u, hu, by rw [hctr, deadLetter_code]; rfl⟩
    case judged =>
      intro b c
      have hexec := frameReceive_round (crossOk := crossOk) hl hr
      rw [chanFrame_judges (a := a) (rx := h) (f := g) rfl hj hd hst] at hexec
      obtain ⟨y, hy, hkept⟩ := measure_kept l h g d a
      refine ⟨fun hc => ?dead, fun hc htype => ?letters, fun hc htimed => ?timed⟩
      case dead =>
        obtain ⟨z, hz, hzk⟩ := failingTime_kept l h g d c (a := a) hkept
        replace hexec := hexec.trans (congrArg settle (if_neg hc))
        rw [show measure l h g d a = withRct l y a from hy, show frameCause (withRct l y a) l h g d true (laneRound (withRct l y a) l) = c by rw [← hy],
          show failingTime l h g d c (withRct l y a) = withRct l z a from hz] at hexec
        obtain ⟨u, hu, hframe, hrct, hctr⟩ := ((RctFrame.refl a).withRct.deadLetter f.port c g.node).settles hexec
        obtain ⟨c', i', x', hdead⟩ := deadLetter_update f.port c g.node (withRct l z a)
        rw [hdead] at hrct
        have hlane : u.net.rct.lane l = z := by rw [hrct]; exact withRct_lane l z a
        have hother : u.net.rct.lane l.other = s.net.rct.lane l.other := by rw [hrct]; exact withRct_other l z a
        rw [← hlane] at hzk
        exact ⟨u, hu, hframe, hother, hzk.stream, hzk.peers, hzk.times, hzk.used, by rw [hctr, deadLetter_counts f.port g.node hc]; rfl⟩
      case letters =>
        obtain ⟨z, hz, hheard, hzst, hzl, hzc, -, -, hzp, -⟩ := noteValid_kept (a := a) l h g d hkept
        have htimed : g.timed = false := by unfold Frame.timed; rw [htype]; rfl
        replace hexec := hexec.trans (congrArg settle (if_pos hc))
        rw [show measure l h g d a = withRct l y a from hy, show noteValid l h g d (withRct l y a) = withRct l z a from hz] at hexec
        obtain ⟨hframe, hh, hown, hother⟩ := shareFrame_letters (l := l) (a := a) htype f.tEnd crossOk hzst hzl hzc (hzp htimed)
        obtain ⟨u, hu, hkept', hrct, -⟩ := hframe.settles hexec
        rw [← hrct] at hh hown hother
        exact ⟨u, hu, hkept', hh.trans hheard, hown, hother⟩
      case timed =>
        obtain ⟨z, hz, hheard, -, -, -, hztimes, hzused, -, hzloop⟩ := noteValid_kept (a := a) l h g d hkept
        replace hexec := hexec.trans (congrArg settle (if_pos hc))
        rw [show measure l h g d a = withRct l y a from hy, show noteValid l h g d (withRct l y a) = withRct l z a from hz] at hexec
        obtain ⟨hframe, hh, hpeers, htimes⟩ := shareFrame_timed (l := l) (a := a) (z := z) htimed f.tEnd crossOk
        obtain ⟨u, hu, hkept', hrct, -⟩ := hframe.settles hexec
        rw [← hrct] at hh hpeers htimes
        refine ⟨u, hu, hkept', hh.trans hheard, ?_, fun hused => ?_⟩
        · have hpeer : peerOf (u.net.rct.lane l) g.node = peerOf z g.node := by unfold peerOf; rw [hpeers]
          rw [hpeer]
          exact hzloop htimed
        · rw [htimes (by rw [hzused]; exact hused), hztimes]
          rfl

end Sys2Proof.Proofs
end

section
/-!
PROOFS. LETTERS_MERGE, MASTER_DECISION and LISTEN_TIMEOUT (R262, R269, R289, R291, R294).
-/

namespace Sys2Proof.Proofs
open Sys2Proof.Machine Sys2Proof.Laws

section
variable {t : Int} {l : Lane} {n : Nat} {s a v w : State}

/-! ## What a merge may change -/

/-- What merging letters of node n into lane l keeps: all but a note, the lane's RCT and its ledger's queue; of the RCT what waits of n and all of other nodes. -/
structure Merged (l : Lane) (n : Nat) (a v : State) : Prop where
  frame : ∃ i r q, v = { a with erc := { a.erc with inbox := i }, net := { a.net with rct := r }, rctq := q }
  other : v.net.rct.lane l.other = a.net.rct.lane l.other
  queue : v.rctq.lane l.other = a.rctq.lane l.other
  held : (peerOf (v.net.rct.lane l) n).held = (peerOf (a.net.rct.lane l) n).held
  peers : ∀ m, m ≠ n → peerOf (v.net.rct.lane l) m = peerOf (a.net.rct.lane l) m

theorem Merged.refl (l : Lane) (n : Nat) (a : State) : Merged l n a a := ⟨⟨a.erc.inbox, a.net.rct, a.rctq, rfl⟩, rfl, rfl, rfl, fun _ _ => rfl⟩

theorem Merged.trans (h : Merged l n a v) (k : Merged l n v w) : Merged l n a w := by
  refine ⟨?_, k.other.trans h.other, k.queue.trans h.queue, k.held.trans h.held, fun m hm => (k.peers m hm).trans (h.peers m hm)⟩
  obtain ⟨i, r, q, rfl⟩ := h.frame
  obtain ⟨i', r', q', hw⟩ := k.frame
  exact ⟨i', r', q', hw⟩

theorem Merged.foldl {α : Type} {f : State → α → State} (h : ∀ s x, Merged l n s (f s x)) (xs : List α) (s : State) : Merged l n s (xs.foldl f s) := by
  induction xs generalizing s with
  | nil => exact .refl l n s
  | cons x xs ih => exact (h s x).trans (ih (f s x))

theorem noteEv_merged (l : Lane) (n : Nat) (e : EvIn) (s : State) : Merged l n s (noteEv e s) := by
  rw [noteEv_update]
  exact ⟨⟨_, s.net.rct, s.rctq, rfl⟩, rfl, rfl, rfl, fun _ _ => rfl⟩

theorem laneNote_merged (l m : Lane) (n code blk : Nat) (p0 p1 p2 : Word) (s : State) : Merged l n s (laneNote m code blk p0 p1 p2 s) := by
  unfold laneNote
  split
  · split
    · exact noteEv_merged ..
    · exact .refl ..
  · split
    · exact noteEv_merged ..
    · exact .refl ..

theorem rctItem_merged (l : Lane) (n : Nat) (it : HItem) (s : State) : Merged l n s (rctItem l it s) :=
  ⟨⟨s.erc.inbox, s.net.rct, _, rfl⟩, rfl, lane_setLane_other .., rfl, fun _ _ => rfl⟩

/-- A lane's RCT with the same peers. -/
theorem withRct_merged {y : RctSt} (n : Nat) (hp : y.peers = (s.net.rct.lane l).peers) : Merged l n s (withRct l y s) := by
  have hpeer : ∀ m, peerOf ((withRct l y s).net.rct.lane l) m = peerOf (s.net.rct.lane l) m := fun m => by
    rw [withRct_lane]
    unfold peerOf
    rw [hp]
  exact ⟨⟨s.erc.inbox, _, s.rctq, rfl⟩, withRct_other .., rfl, congrArg Peer.held (hpeer n), fun m _ => hpeer m⟩

theorem peerOf_mapPeer (f : Peer → Peer) (s : State) : peerOf ((mapPeer l n f s).net.rct.lane l) n = f (peerOf (s.net.rct.lane l) n) := by
  unfold mapPeer
  rw [mapRct_eq, withRct_lane]
  unfold peerOf
  rw [tget_tput_some]
  rfl

theorem peerOf_mapPeer_ne (f : Peer → Peer) (s : State) {m : Nat} (hm : m ≠ n) : peerOf ((mapPeer l n f s).net.rct.lane l) m = peerOf (s.net.rct.lane l) m := by
  unfold mapPeer
  rw [mapRct_eq, withRct_lane]
  unfold peerOf
  rw [tget_tput_ne _ _ _ _ hm]

/-- A peer changed, what waits of it kept. -/
theorem mapPeer_merged {f : Peer → Peer} (s : State) (hf : (f (peerOf (s.net.rct.lane l) n)).held = (peerOf (s.net.rct.lane l) n).held) : Merged l n s (mapPeer l n f s) :=
  ⟨⟨s.erc.inbox, _, s.rctq, rfl⟩, lane_setLane_other .., rfl, by rw [peerOf_mapPeer, hf], fun _ hm => peerOf_mapPeer_ne f s hm⟩

theorem overflowItem_merged (l : Lane) (n node head : Nat) (s : State) : Merged l n s (overflowItem l node head s) := rctItem_merged ..

theorem letterGap_merged (l : Lane) (n node lost epoch : Nat) (s : State) : Merged l n s (letterGap l node lost epoch s) := by
  unfold letterGap
  exact (laneNote_merged ..).trans (.foldl (fun s e => overflowItem_merged ..) _ _)

theorem disagree_merged (l : Lane) (n node seq : Nat) (heads : List Nat) (s : State) : Merged l n s (disagree l node seq heads s) := by
  unfold disagree
  exact (laneNote_merged ..).trans (.foldl (fun s e => overflowItem_merged ..) _ _)

/-- A record accepted: E advances and it is kept; a status may move the lane's mark of its head. -/
theorem acceptRec_merged (l : Lane) (n seq epoch : Nat) (ws : List Word) (s : State) : Merged l n s (acceptRec l n seq epoch ws s) := by
  unfold acceptRec
  extract_lets head prev u
  have hu : Merged l n s u := mapPeer_merged s rfl
  split
  · exact hu
  case _ it _ =>
    extract_lets v
    have hv : Merged l n s v := hu.trans (rctItem_merged l n it u)
    split
    · split
      · exact hv.trans (withRct_merged n rfl)
      · exact hv
    · exact hv

theorem mergeRec_merged (l : Lane) (n epoch seq : Nat) (ws : List Word) (s : State) : Merged l n s (mergeRec l n epoch seq ws s) := by
  unfold mergeRec
  dsimp only
  split
  · exact acceptRec_merged ..
  split
  · exact (letterGap_merged l n n _ _ s).trans (acceptRec_merged ..)
  split
  · split
    · split
      · exact .refl l n s
      · exact disagree_merged ..
    · exact .refl l n s
  split
  · exact acceptRec_merged ..
  · exact (letterGap_merged l n n _ _ s).trans (acceptRec_merged ..)

theorem mergeFrame_merged (l : Lane) (n : Nat) (cs : List LCopy) (s : State) : Merged l n s (mergeFrame l n cs s) := by
  unfold mergeFrame
  refine .foldl (fun s ep => ?_) _ s
  extract_lets j p base past u v
  have hu : Merged l n s u := .foldl (fun s q => disagree_merged ..) _ s
  have hv : Merged l n u v := by
    refine .foldl (fun s q => ?_) _ u
    dsimp only
    split
    · exact disagree_merged ..
    · exact .refl l n s
  exact hu.trans (hv.trans (.foldl (fun s a => mergeRec_merged ..) _ v))

/-! ## One record in order (R269) -/

/-- The copies of one frame: one copy with one record gives that record. -/
theorem joinCopies_single {c : LCopy} {ws : List Word} (h : c.recs = [ws]) : joinCopies [c] = ([(c.seq % 4294967296, ws)], []) := by
  unfold joinCopies
  rw [List.flatMap_singleton, h]
  simp [nth, List.range_succ, List.eraseDups_cons]

/-- A record that is the next is accepted. -/
theorem mergeFrame_single {c : LCopy} {ws : List Word} (h : c.recs = [ws]) (hnext : (peerOf (s.net.rct.lane l) n).next = some (c.seq % 4294967296, c.epoch)) :
    mergeFrame l n [c] s = acceptRec l n (c.seq % 4294967296) c.epoch ws s := by
  have hrec : mergeRec l n c.epoch (c.seq % 4294967296) ws s = acceptRec l n (c.seq % 4294967296) c.epoch ws s := by
    have hd : seqDiff (c.seq % 4294967296) (c.seq % 4294967296) = 0 := by
      unfold seqDiff
      rw [Int.sub_self]
      decide
    unfold mergeRec
    dsimp only
    rw [hnext]
    dsimp only
    rw [hd, if_neg (not_not.mpr rfl), if_neg (by decide), if_pos rfl]
  unfold mergeFrame
  have hfilter : [c].filter (fun d => d.epoch == c.epoch) = [c] := by simp
  have hepochs : ([c].map (·.epoch)).eraseDups = [c.epoch] := by simp [List.eraseDups_cons]
  rw [hepochs, List.foldl_cons, List.foldl_nil, hfilter, joinCopies_single h]
  exact hrec

theorem acceptRec_accepts {seq epoch : Nat} {ws : List Word} {it : HItem}
    (hit : itemOfRec n (tget none (markKey n (fld (nth 0 ws 0) 12 0)) (s.net.rct.lane l).marks) ws = some it) :
    let u := acceptRec l n seq epoch ws s
    (peerOf (u.net.rct.lane l) n).next = some ((seq + 1) % 4294967296, epoch)
      ∧ (peerOf (u.net.rct.lane l) n).kept = ((seq, ws) :: (peerOf (s.net.rct.lane l) n).kept).take 256
      ∧ u.rctq = s.rctq.setLane l (s.rctq.lane l ++ [it]) := by
  unfold acceptRec
  dsimp only
  rw [hit]
  dsimp only
  have hpeer := peerOf_mapPeer (l := l) (n := n) (fun p => { p with next := some ((seq + 1) % 4294967296, epoch), kept := ((seq, ws) :: p.kept).take 256 }) s
  generalize hv : mapPeer l n (fun p => { p with next := some ((seq + 1) % 4294967296, epoch), kept := ((seq, ws) :: p.kept).take 256 }) s = v at hpeer
  have hq : (rctItem l it v).rctq = s.rctq.setLane l (s.rctq.lane l ++ [it]) := by rw [← hv]; rfl
  have hbare : (peerOf ((rctItem l it v).net.rct.lane l) n).next = some ((seq + 1) % 4294967296, epoch)
      ∧ (peerOf ((rctItem l it v).net.rct.lane l) n).kept = ((seq, ws) :: (peerOf (s.net.rct.lane l) n).kept).take 256 := by
    rw [show (rctItem l it v).net = v.net from rfl, hpeer]
    exact ⟨rfl, rfl⟩
  have hmarks : ∀ f : RctSt → RctSt, (∀ x, (f x).peers = x.peers) →
      peerOf ((mapRct l f (rctItem l it v)).net.rct.lane l) n = peerOf ((rctItem l it v).net.rct.lane l) n := fun f hf => by
    rw [mapRct_eq, withRct_lane]
    unfold peerOf
    rw [hf]
  split
  · split
    · refine ⟨?_, ?_, hq⟩
      · rw [hmarks]
        · exact hbare.1
        · exact fun _ => rfl
      · rw [hmarks]
        · exact hbare.2
        · exact fun _ => rfl
    · exact ⟨hbare.1, hbare.2, hq⟩
  · exact ⟨hbare.1, hbare.2, hq⟩

/-! ## LETTERS_MERGE (R262, R269) -/

theorem lettersMerge_none (h : (peerOf (s.net.rct.lane l) n).held = []) : exec (.lettersMerge t l n) s = settle (atTime t s) := by
  show execLettersMerge t l n s = _
  unfold execLettersMerge
  dsimp only
  rw [show (peerOf ((atTime t s).net.rct.lane l) n).held = [] from h]

/-- The copies of the frame of which c is one. -/
def sameFrame (c d : LCopy) : Bool := d.dyn == c.dyn && d.index == c.index && d.round == c.round

theorem lettersMerge_eq {c : LCopy} {r : List LCopy} (h : (peerOf (s.net.rct.lane l) n).held = c :: r) : exec (.lettersMerge t l n) s =
    if !laneTakes (atTime t s) l || !waitOver (atTime t s) ((c :: r).filter (sameFrame c)).length c then settle (atTime t s)
    else settle (mergeFrame l n ((c :: r).filter (sameFrame c)) (mapPeer l n (fun p => { p with held := p.held.filter (fun d => !sameFrame c d) }) (atTime t s))) := by
  show execLettersMerge t l n s = _
  unfold execLettersMerge
  dsimp only
  rw [show (peerOf ((atTime t s).net.rct.lane l) n).held = c :: r from h]
  rfl

/-! ## MASTER_DECISION (R289) -/

/-- A lane that has decided its master for the next round. -/
def decided (k : Nat) (s : State) (x : RctSt) : RctSt :=
  let m := decideMaster k x.master x.mRound x.times
  let lost := x.master != nodeId s && m == x.master && masterLost k x.master x.mRound x.times
  { x with newMaster := if m = x.master then none else some m, lost := lost, dNow := if lost then none else x.dNow }

/-- What the end of the static segment makes of a lane. -/
def decision (s : State) (l : Lane) : RctSt :=
  let x := s.net.rct.lane l
  if rctRound s l ∧ (x.st = 2 ∨ x.st = 3) then decided (laneRound s l) s x else x

/-- What MASTER_DECISION does in a lane. -/
def decideLane (l : Lane) (s : State) : State :=
  let x := s.net.rct.lane l
  if rctRound s l && (x.st = 2 || x.st = 3) then
    let k := laneRound s l
    let m := decideMaster k x.master x.mRound x.times
    let lost := x.master != nodeId s && m == x.master && masterLost k x.master x.mRound x.times
    mapRct l (fun y => { y with newMaster := if m = y.master then none else some m, lost := lost, dNow := if lost then none else y.dNow }) s
  else s

theorem decideLane_eq (l : Lane) (s : State) : decideLane l s = withRct l (decision s l) s := by
  unfold decideLane decision
  dsimp only
  by_cases h : rctRound s l = true ∧ ((s.net.rct.lane l).st = 2 ∨ (s.net.rct.lane l).st = 3)
  · rw [if_pos h, if_pos (by simpa using h)]
    rfl
  · rw [if_neg h, if_neg (by simpa using h), withRct_self]

/-- The ridge's decision. -/
def ridgeDecided (a : State) : RidgeSt :=
  let r := a.net.rdg
  let m := decideMaster (curRound a) r.master r.mRound r.times
  let lost := m == r.master && masterLost (curRound a) r.master r.mRound r.times
  if ridgeLive a = true ∧ r.sched = true then { r with newMaster := if m = r.master then none else some m, lost := lost, dNow := if lost then none else r.dNow } else r

theorem masterDecision_eq :
    let a := atTime t s
    exec (.masterDecision t) s = settle { withRct .y (decision a .y) (withRct .x (decision a .x) a) with
             net := { (withRct .y (decision a .y) (withRct .x (decision a .x) a)).net with rdg := ridgeDecided a } } := by
  intro a
  have hy : decision (withRct .x (decision a .x) a) .y = decision a .y := rfl
  have hexec : exec (.masterDecision t) s = (let v := decideLane .y (decideLane .x a)
      if ridgeLive v && v.net.rdg.sched then settle { v with net := { v.net with rdg := (let r := v.net.rdg
        let m := decideMaster (curRound v) r.master r.mRound r.times
        let lost := m == r.master && masterLost (curRound v) r.master r.mRound r.times
        { r with newMaster := if m = r.master then none else some m, lost := lost, dNow := if lost then none else r.dNow }) } } else settle v) := rfl
  rw [hexec, decideLane_eq .x, decideLane_eq .y, hy]
  dsimp only
  by_cases h : ridgeLive a = true ∧ a.net.rdg.sched = true
  · have hr : ridgeDecided a = _ := if_pos h
    rw [hr]
    refine (if_pos ?_).trans rfl
    rw [Bool.and_eq_true]
    exact h
  · have hr : ridgeDecided a = _ := if_neg h
    rw [hr]
    refine (if_neg ?_).trans rfl
    rw [Bool.and_eq_true]
    exact h

/-! ## LISTEN_TIMEOUT (R291, R294) -/

theorem moveDoms_states (o : Int) (s : State) : ∃ m, moveDoms o s = { s with dom := m } ∧ ∀ e, (m.get e).st = (s.dom.get e).st := by
  have hfold : ∀ (l : List Dom) (v : State), (∃ m, v = { s with dom := m } ∧ ∀ e, (m.get e).st = (s.dom.get e).st) →
      ∃ m, l.foldl (fun s d => mapDom d (fun x => { x with since := x.since + o, restarts := x.restarts.map (· + o) }) s) v = { s with dom := m }
        ∧ ∀ e, (m.get e).st = (s.dom.get e).st := by
    intro l
    induction l with
    | nil => exact fun v hv => hv
    | cons d l ih =>
      rintro v ⟨m, rfl, hm⟩
      refine ih _ ⟨_, rfl, fun e => ?_⟩
      exact (mapDom_states d (f := fun x => { x with since := x.since + o, restarts := x.restarts.map (· + o) }) { s with dom := m } rfl e).trans (hm e)
  exact hfold allDoms s ⟨s.dom, rfl, fun _ => rfl⟩

/-- A step of the counters leaves a lane in ROUND mode in it. -/
theorem rctRound_stepCounters (o dk : Int) (s : State) (l : Lane) : rctRound (stepCounters o dk s) l = rctRound s l := by
  obtain ⟨m, hm, hst⟩ := moveDoms_states o (moveHost o s)
  have hdom : ((stepCounters o dk s).dom.get l.dom).st = (s.dom.get l.dom).st := by
    refine Eq.trans ?_ (hst l.dom)
    show ((moveDoms o (moveHost o s)).dom.get l.dom).st = _
    rw [hm]
  have hactive : active (stepCounters o dk s) l.dom = active s l.dom := by
    unfold active
    rw [hdom]
  have hon : ((stepCounters o dk s).net.rct.lane l).on = (s.net.rct.lane l).on := by cases l <;> rfl
  have hsteps : ((stepCounters o dk s).lcm.readm.lane l).any (fun r => decide (r.step ≥ 4)) = (s.lcm.readm.lane l).any (fun r => decide (r.step ≥ 4)) := by
    cases l
    · exact Option.any_map
    · exact Option.any_map
  have hreg : ∀ off, reg (stepCounters o dk s) off = reg s off := fun off => by
    show reg (moveDoms o (moveHost o s)) off = _
    rw [hm]
    rfl
  have hnode : nodeId (stepCounters o dk s) = nodeId s := congrArg (fun w => fld w 7 0) (hreg 0x9004)
  have hpolled : polled (stepCounters o dk s) = polled s := congrArg (fun w => !s.net.ridge && decide (fld w 13 12 ≠ 0)) (hreg 0x9014)
  have hcond : (stepCounters o dk s).lcm.cond = s.lcm.cond := rfl
  have hridge : (stepCounters o dk s).net.ridge = s.net.ridge := rfl
  have hpower : (stepCounters o dk s).bsc.power = s.bsc.power := by
    show (moveDoms o (moveHost o s)).bsc.power = _
    rw [hm]
    rfl
  have hlife : (stepCounters o dk s).sec.lifecycle = s.sec.lifecycle := by
    show (moveDoms o (moveHost o s)).sec.lifecycle = _
    rw [hm]
    rfl
  unfold rctRound rctLive laneTakes
  rw [hactive, hon, hsteps, hpower, hlife, hnode, hpolled, hcond, hridge]

/-- The counters as they stand when round 1 begins 20 µs later, the device joined. -/
def coldTime (a : State) : State :=
  { rebase (roundNs a - (a.now + 20000)) a with net := { (rebase (roundNs a - (a.now + 20000)) a).net with joined := true } }

/-- What a step of the counters keeps. -/
theorem stepCounters_keeps (o dk : Int) (s : State) : (stepCounters o dk s).now = s.now + o ∧ (stepCounters o dk s).regs = s.regs ∧ (stepCounters o dk s).phx = s.phx
    ∧ (stepCounters o dk s).sec = { s.sec with lockUntil := (stepCounters o dk s).sec.lockUntil, tapAt := (stepCounters o dk s).sec.tapAt, challenge := (stepCounters o dk s).sec.challenge }
    ∧ nodeId (stepCounters o dk s) = nodeId s := by
  obtain ⟨m, hm, -⟩ := moveDoms_states o (moveHost o s)
  have hsec : (stepCounters o dk s).sec = (moveHost o s).sec := by
    show (moveDoms o (moveHost o s)).sec = _
    rw [hm]
  refine ⟨rfl, ?_, ?_, ?_, ?_⟩
  · show (moveDoms o (moveHost o s)).regs = _
    rw [hm]
    rfl
  · show (moveDoms o (moveHost o s)).phx = _
    rw [hm]
    rfl
  · rw [hsec]
    rfl
  · show nodeId (moveDoms o (moveHost o s)) = _
    rw [hm]
    rfl

theorem coldTime_eq (a : State) : ∃ o dk, o = roundNs a - (a.now + 20000) ∧ coldTime a = { stepCounters o dk a with net := { (stepCounters o dk a).net with joined := true } } :=
  ⟨_, _, rfl, rfl⟩

/-- What a cold start keeps. -/
theorem coldTime_keeps (a : State) : (coldTime a).now = roundNs a - 20000 ∧ (coldTime a).regs = a.regs ∧ (coldTime a).phx = a.phx
    ∧ (coldTime a).sec = { a.sec with lockUntil := (coldTime a).sec.lockUntil, tapAt := (coldTime a).sec.tapAt, challenge := (coldTime a).sec.challenge }
    ∧ nodeId (coldTime a) = nodeId a ∧ ∀ m, rctRound (coldTime a) m = rctRound a m := by
  obtain ⟨o, dk, ho, hcold⟩ := coldTime_eq a
  obtain ⟨hnow, hregs, hphx, hsec, hnode⟩ := stepCounters_keeps o dk a
  have hround := rctRound_stepCounters o dk a
  rw [hcold]
  generalize stepCounters o dk a = b at hnow hregs hphx hsec hnode hround
  exact ⟨hnow.trans (by rw [ho]; omega), hregs, hphx, hsec, hnode, hround⟩

/-- A lane as its own master. -/
def coldRct (s : State) (x : RctSt) : RctSt :=
  { x with st := 1, since := s.now, master := nodeId s, delta := 0, times := [], dNow := none, sigma := 0, lost := false, own := true }

theorem coldLane_eq (l : Lane) (s : State) : coldLane l s = if rctRound s l then withRct l (coldRct s (s.net.rct.lane l)) s else s := rfl

theorem listenTimeout_waits (h : mayColdstart (atTime t s) l = false) : exec (.listenTimeout t l) s = settle (atTime t s) :=
  if_pos (by rw [show mayColdstart (atTime t s) l = false from h]; rfl)

theorem listenTimeout_starts (h : mayColdstart (atTime t s) l = true) : exec (.listenTimeout t l) s =
    settle (rctNote l evColdstart (w32 l.num) 0 0 (coldLane l.other (coldLane l (coldTime (atTime t s))))) :=
  if_neg (by rw [show mayColdstart (atTime t s) l = true from h]; decide)

/-- A lane that cold-starts, and the other with it where it takes part. -/
theorem coldLanes (b : State) (h : rctRound b l = true) : ∃ r, coldLane l.other (coldLane l b) = { b with net := { b.net with rct := r } }
    ∧ r.lane l = coldRct b (b.net.rct.lane l) ∧ (rctRound b l.other = true → (r.lane l.other).st = 1) := by
  have hone : coldLane l b = withRct l (coldRct b (b.net.rct.lane l)) b := (coldLane_eq l b).trans (if_pos h)
  have hother : rctRound (withRct l (coldRct b (b.net.rct.lane l)) b) l.other = rctRound b l.other := by
    have hon := lane_withRct (l := l) (a := b) (y := coldRct b (b.net.rct.lane l)) (fun x => x.on) rfl l.other
    unfold rctRound
    rw [hon]
    rfl
  rw [hone, coldLane_eq, hother]
  split
  · exact ⟨_, rfl, (withRct_of_other ..).trans (withRct_lane ..), fun _ => congrArg RctSt.st (lane_setLane ..)⟩
  case _ hno => exact ⟨_, rfl, withRct_lane .., fun h => absurd h hno⟩

theorem listenTimeout_coldstarts (h : mayColdstart (atTime t s) l = true) : ∃ u, exec (.listenTimeout t l) s = .next u ∧ u.now = roundNs s - 20000 ∧ u.net.joined = true
    ∧ (u.net.rct.lane l).st = 1 ∧ (u.net.rct.lane l).master = nodeId s ∧ (u.net.rct.lane l).delta = 0 ∧ (u.net.rct.lane l).own = true
    ∧ (rctRound (atTime t s) l.other = true → (u.net.rct.lane l.other).st = 1)
    ∧ u.regs = s.regs ∧ u.sec = { s.sec with lockUntil := u.sec.lockUntil, tapAt := u.sec.tapAt, challenge := u.sec.challenge } ∧ u.phx = s.phx := by
  have hexec := listenTimeout_starts h
  obtain ⟨hnow, hregs, hphx, hsec, hnode, hround⟩ := coldTime_keeps (atTime t s)
  have hjoined : (coldTime (atTime t s)).net.joined = true := rfl
  have hlive : rctRound (coldTime (atTime t s)) l = true := by
    rw [hround]
    unfold mayColdstart at h
    simp only [Bool.and_eq_true] at h
    obtain ⟨⟨⟨⟨⟨⟨⟨hr, -⟩, -⟩, -⟩, -⟩, -⟩, -⟩, -⟩ := h
    exact hr
  generalize coldTime (atTime t s) = b at hexec hnow hregs hphx hsec hnode hround hjoined hlive
  obtain ⟨r, hr, hown, hother⟩ := coldLanes b hlive
  unfold rctNote at hexec
  rw [hr, note_update] at hexec
  refine settles hexec fun o g => ⟨hnow, hjoined, ?_, ?_, ?_, ?_, fun hl => hother ((hround l.other).trans hl), hregs, hsec, hphx⟩
  · exact congrArg RctSt.st hown
  · exact (congrArg RctSt.master hown).trans hnode
  · exact congrArg RctSt.delta hown
  · exact congrArg RctSt.own hown

end

/-- Settles O42: a merge waits and takes one frame's copies, masters are decided at the end of the static segment, a lane that may cold-starts. -/
theorem lettersMastersAndColdStart : Obligations.LettersMastersAndColdStart := by
  unfold Obligations.LettersMastersAndColdStart
  intro t s a same copies waited
  have hdue : ∀ l n c r, (peerOf (s.net.rct.lane l) n).held = c :: r → (waitOver a ((c :: r).filter (sameFrame c)).length c = true ↔ waited l n c) := by
    intro l n c r hheld
    unfold waited copies waitOver
    rw [hheld, Bool.or_eq_true, decide_eq_true_eq, decide_eq_true_eq]
    exact Iff.rfl
  have hgo : ∀ l n c r, (peerOf (s.net.rct.lane l) n).held = c :: r → laneTakes s l = true → waited l n c → exec (.lettersMerge t l n) s =
      settle (mergeFrame l n ((c :: r).filter (sameFrame c)) (mapPeer l n (fun p => { p with held := p.held.filter (fun d => !sameFrame c d) }) a)) := by
    intro l n c r hheld htakes hwaited
    refine (lettersMerge_eq hheld).trans (if_neg ?_)
    rw [show laneTakes (atTime t s) l = true from htakes, (hdue l n c r hheld).mpr hwaited]
    decide
  refine ⟨fun l n h => ?waits, fun l n c r hheld htakes hwaited => ?merges, fun l n c ws it hheld hrecs htakes hwaited => ?single, ?decision,
    fun l => ⟨fun h => settles (listenTimeout_waits h) fun o g => rfl, listenTimeout_coldstarts⟩⟩
  case waits =>
    cases hheld : (peerOf (s.net.rct.lane l) n).held with
    | nil => exact settles (lettersMerge_none hheld) fun o g => rfl
    | cons c r =>
      refine settles ((lettersMerge_eq hheld).trans (if_pos ?_)) fun o g => rfl
      obtain hnil | hno | ⟨c', r', hc, hno⟩ := h
      · rw [hheld] at hnil
        cases hnil
      · rw [show laneTakes (atTime t s) l = false from hno]
        rfl
      · rw [hheld] at hc
        obtain ⟨rfl, rfl⟩ := List.cons.inj hc
        rw [Bool.eq_false_iff.mpr fun hw => hno ((hdue l n c r hheld).mp hw), Bool.not_false, Bool.or_true]
  case merges =>
    have hexec := hgo l n c r hheld htakes hwaited
    have hmerged := mergeFrame_merged l n ((c :: r).filter (sameFrame c)) (mapPeer l n (fun p => { p with held := p.held.filter (fun d => !sameFrame c d) }) a)
    have hheld' := peerOf_mapPeer (l := l) (n := n) (fun p => { p with held := p.held.filter (fun d => !sameFrame c d) }) a
    have hpeers := fun m (hm : m ≠ n) => peerOf_mapPeer_ne (l := l) (n := n) (fun p => { p with held := p.held.filter (fun d => !sameFrame c d) }) a hm
    have hother : (mapPeer l n (fun p => { p with held := p.held.filter (fun d => !sameFrame c d) }) a).net.rct.lane l.other = s.net.rct.lane l.other := lane_setLane_other ..
    generalize mergeFrame l n ((c :: r).filter (sameFrame c)) (mapPeer l n (fun p => { p with held := p.held.filter (fun d => !sameFrame c d) }) a) = v at hexec hmerged
    obtain ⟨i, q, k, hv⟩ := hmerged.frame
    obtain ⟨-, hrest, hqueue, hkept, hsame⟩ := hmerged
    obtain ⟨u, hu, hframe, hrct, hrctq⟩ := settles (P := fun u => u = { reported s u with now := t, net := { s.net with rct := u.net.rct }, rctq := u.rctq } ∧ u.net.rct = v.net.rct ∧ u.rctq = v.rctq)
      hexec fun o g => ⟨by rw [hv]; rfl, rfl, rfl⟩
    refine ⟨u, hu, hframe, ?_, ?_, ?_, fun m hm => ?_⟩
    · rw [hrct, hrest, hother]
    · rw [hrctq, hqueue]
      rfl
    · rw [hrct, hkept, hheld']
      show (peerOf (s.net.rct.lane l) n).held.filter _ = _
      rw [hheld]
      rfl
    · rw [hrct, hsame m hm, hpeers m hm]
      rfl
  case single =>
    intro q hnext hit
    have hexec := hgo l n c [] hheld htakes hwaited
    have hself : [c].filter (sameFrame c) = [c] := by simp [sameFrame]
    generalize hm : mapPeer l n (fun p => { p with held := p.held.filter (fun d => !sameFrame c d) }) a = m at hexec
    have hpeer : peerOf (m.net.rct.lane l) n = { peerOf (s.net.rct.lane l) n with held := (peerOf (s.net.rct.lane l) n).held.filter (fun d => !sameFrame c d) } := by
      rw [← hm, peerOf_mapPeer]
      rfl
    have hmarks : (m.net.rct.lane l).marks = (s.net.rct.lane l).marks := by
      rw [← hm]
      unfold mapPeer
      rw [mapRct_eq, withRct_lane]
      rfl
    have hqueue : m.rctq = s.rctq := by rw [← hm]; rfl
    rw [hself, mergeFrame_single hrecs (by rw [hpeer]; exact hnext)] at hexec
    obtain ⟨hn, hk, hr⟩ := acceptRec_accepts (l := l) (n := n) (s := m) (seq := c.seq % 4294967296) (epoch := c.epoch) (ws := ws) (by rw [hmarks]; exact hit)
    rw [hpeer] at hk
    rw [hqueue] at hr
    exact settles hexec fun o g => ⟨hn, hk, hr⟩
  case decision =>
    refine settles masterDecision_eq fun o g => ⟨rfl, fun l => ?_, rfl⟩
    cases l
    · rfl
    · rfl

end Sys2Proof.Proofs
end

section
/-!
PROOFS. The ring (R304 to R306).
-/

namespace Sys2Proof.Proofs
open Sys2Proof.Machine Sys2Proof.Laws

section
variable {t : Int} {l : Lane} {s a v w : State} {f : Frame}

/-! ## What a lane does with a frame -/

/-- What handing a frame to a lane may change: the lanes' RCTs and the dead letters, what the host is given, the counters, a note, HOST's domain. -/
def Delivered (a v : State) : Prop :=
  ∃ c i o h d r x, v = { a with ctr := c, erc := { a.erc with inbox := i }, out := o, hre := h, dom := d, net := { a.net with rct := r, dead := x } }

theorem Delivered.refl (a : State) : Delivered a a := ⟨a.ctr, a.erc.inbox, a.out, a.hre, a.dom, a.net.rct, a.net.dead, rfl⟩

theorem Delivered.trans (h : Delivered a v) (k : Delivered v w) : Delivered a w := by
  obtain ⟨_, _, _, _, _, _, _, rfl⟩ := h
  obtain ⟨c, i, o, h, d, r, x, hw⟩ := k
  exact ⟨c, i, o, h, d, r, x, hw⟩

theorem Delivered.foldl {α : Type} {f : State → α → State} (h : ∀ s x, Delivered s (f s x)) (xs : List α) (s : State) : Delivered s (xs.foldl f s) := by
  induction xs generalizing s with
  | nil => exact .refl s
  | cons x xs ih => exact (h s x).trans (ih (f s x))

theorem RctFrame.delivered (h : RctFrame a v) : Delivered a v := by
  obtain ⟨c, i, r, x, rfl⟩ := h
  exact ⟨c, i, a.out, a.hre, a.dom, r, x, rfl⟩

theorem ringShed_delivered (n : Nat) (s : State) : Delivered s (ringShed n s) := by
  rw [ringShed_update]
  exact ⟨_, s.erc.inbox, s.out, _, _, s.net.rct, s.net.dead, rfl⟩

theorem ringClose_delivered (n fmt job : Nat) (reduced last : Bool) (s : State) : Delivered s (ringClose n fmt job reduced last s) := by
  cases hp : (ringOf s.hre n).posted with
  | nil =>
    have hclose : ringClose n fmt job reduced last s = s := by
      unfold ringClose
      dsimp only
      rw [hp]
    rw [hclose]
    exact .refl s
  | cons p r =>
    obtain ⟨⟨o, g, hframe⟩, -⟩ := ringClose_empties fmt job reduced last hp
    exact ⟨s.ctr, s.erc.inbox, _, _, s.dom, s.net.rct, s.net.dead, hframe⟩

theorem ringFit_delivered (n fmt job len fuel : Nat) (s : State) : Delivered s (ringFit n fmt job len fuel s) := by
  induction fuel generalizing s with
  | zero => exact .refl s
  | succ f ih =>
    unfold ringFit
    dsimp only
    split
    · split
      · exact .refl s
      · exact (ringClose_delivered ..).trans (ih _)
    · exact .refl s

theorem ringPut_delivered (n fmt job : Nat) (item : List Byte) (s : State) : Delivered s (ringPut n fmt job item s) := by
  unfold ringPut
  split
  · exact ringShed_delivered n s
  · extract_lets u
    have hu : Delivered s u := ringFit_delivered ..
    split
    · exact hu.trans ⟨u.ctr, u.erc.inbox, u.out, _, u.dom, u.net.rct, u.net.dead, rfl⟩
    · exact hu.trans (ringShed_delivered n u)

theorem netItem_delivered (f : Frame) (body : List Byte) (s : State) : Delivered s (netItem f body s) := by
  unfold netItem
  split
  · exact ringPut_delivered ..
  · exact .refl s

theorem toHost_delivered (l : Lane) (f : Frame) (s : State) : Delivered s (toHost l f s) := by
  unfold toHost
  split
  · exact .refl s
  split
  · exact .foldl (fun s m => netItem_delivered f m s) _ s
  split
  · exact netItem_delivered ..
  · exact .refl s

theorem mapRct_delivered (l : Lane) (g : RctSt → RctSt) (s : State) : Delivered s (mapRct l g s) :=
  ⟨s.ctr, s.erc.inbox, s.out, s.hre, s.dom, _, s.net.dead, rfl⟩

theorem useFrame_delivered (l : Lane) (f : Frame) (tEnd : Int) (s : State) : Delivered s (useFrame l f tEnd s) := by
  unfold useFrame
  dsimp only
  split
  · split
    · exact mapRct_delivered ..
    · exact .refl s
  split
  · exact .refl s
  split
  · exact (mapRct_delivered ..).trans (mapRct_delivered ..)
  split
  · exact (mapRct_delivered ..).trans (toHost_delivered ..)
  · exact mapRct_delivered ..

theorem shareFrame_delivered (l : Lane) (f : Frame) (tEnd : Int) (crossOk : Bool) (s : State) : Delivered s (shareFrame l f tEnd crossOk s) := by
  obtain ⟨cross, hshare, -⟩ := shareFrame_eq (l := l) (f := f) (a := s) tEnd crossOk
  rw [hshare]
  dsimp only
  have hown := useFrame_delivered l f tEnd s
  generalize useFrame l f tEnd s = w at hown
  split
  · exact hown.trans (useFrame_delivered ..)
  split
  · exact hown
  · exact hown.trans ((RctFrame.refl w).soloNote ..).delivered

theorem ringToLane_delivered (port : Nat) (f : Frame) (tEnd : Int) (s : State) : Delivered s (ringToLane port f tEnd s) := by
  unfold ringToLane
  dsimp only
  split
  · exact .refl s
  split
  · exact ((RctFrame.refl s).deadLetter ..).delivered
  · exact shareFrame_delivered ..

/-! ## RING_FRAME_RECEIVE (R304, R306) -/

section
variable {f : FrameRx}

theorem ringFrameReceive_idle (h : rswLive (atTime f.tEnd s) = false ∨ (f.port ≠ 2 ∧ f.port ≠ 3)) : exec (.ringFrameReceive f) s = settle (atTime f.tEnd s) := by
  refine if_pos ?_
  obtain hr | ⟨h2, h3⟩ := h
  · rw [hr]
    rfl
  · simp [h2, h3]

theorem ringFrameReceive_eq (hr : rswLive (atTime f.tEnd s) = true) (hport : f.port = 2 ∨ f.port = 3) : exec (.ringFrameReceive f) s =
    let b := atTime f.tEnd s
    let g := parseFrame f.bytes
    if !(heardRx b f).codeOk then settle (deadLetter f.port 1 g.node b)
    else if !lengthOk b g then settle (deadLetter f.port 3 g.node b)
    else if !g.crcOk then settle (deadLetter f.port 4 g.node b)
    else if !g.ring then settle (deadLetter f.port 8 g.node b)
    else
      let u := if g.node = nodeId s then b else ringToLane f.port g f.tEnd b
      if g.node = nodeId s && f.port = 2 then settle (bump 0xAC04 u) else settle (ringQueue (f.port = 2) f.bytes u) := by
  refine (if_neg ?_).trans rfl
  rw [hr]
  obtain h | h := hport <;> simp [h]

/-- A frame with a wrong code, length, CRC or RING bit is a dead letter of some cause. -/
theorem ringFrameReceive_fails (hr : rswLive (atTime f.tEnd s) = true) (hport : f.port = 2 ∨ f.port = 3)
    (hbad : (heardRx (atTime f.tEnd s) f).codeOk = false ∨ lengthOk (atTime f.tEnd s) (parseFrame f.bytes) = false ∨ (parseFrame f.bytes).crcOk = false
      ∨ (parseFrame f.bytes).ring = false) :
    ∃ c, c ≠ 0 ∧ exec (.ringFrameReceive f) s = settle (deadLetter f.port c (parseFrame f.bytes).node (atTime f.tEnd s)) := by
  rw [ringFrameReceive_eq hr hport]
  dsimp only
  cases h1 : (heardRx (atTime f.tEnd s) f).codeOk with
  | false => exact ⟨1, by decide, rfl⟩
  | true =>
  cases h2 : lengthOk (atTime f.tEnd s) (parseFrame f.bytes) with
  | false => exact ⟨3, by decide, rfl⟩
  | true =>
  cases h3 : (parseFrame f.bytes).crcOk with
  | false => exact ⟨4, by decide, rfl⟩
  | true =>
  cases h4 : (parseFrame f.bytes).ring with
  | false => exact ⟨8, by decide, rfl⟩
  | true =>
    rw [h1, h2, h3, h4] at hbad
    exact absurd hbad (by decide)

theorem ringFrameReceive_good (hr : rswLive (atTime f.tEnd s) = true) (hport : f.port = 2 ∨ f.port = 3) (h1 : (heardRx (atTime f.tEnd s) f).codeOk = true)
    (h2 : lengthOk (atTime f.tEnd s) (parseFrame f.bytes) = true) (h3 : (parseFrame f.bytes).crcOk = true) (h4 : (parseFrame f.bytes).ring = true) :
    exec (.ringFrameReceive f) s =
      let u := if (parseFrame f.bytes).node = nodeId s then atTime f.tEnd s else ringToLane f.port (parseFrame f.bytes) f.tEnd (atTime f.tEnd s)
      if (parseFrame f.bytes).node = nodeId s && f.port = 2 then settle (bump 0xAC04 u) else settle (ringQueue (f.port = 2) f.bytes u) := by
  rw [ringFrameReceive_eq hr hport]
  dsimp only
  rw [h1, h2, h3, h4]
  rfl

/-- A frame of another node is queued for the other port. -/
theorem ringQueue_queues (to3 : Bool) (b : List Byte) (h2 : s.net.ring.rp2Broken = false) (h3 : s.net.ring.rp3Broken = false) :
    (to3 = true → ringFill (s.net.ring.q3 ++ [b]) ≤ 131072 → (ringQueue to3 b s).net.ring = { s.net.ring with q3 := s.net.ring.q3 ++ [b] })
      ∧ (to3 = false → ringFill (s.net.ring.q2 ++ [b]) ≤ 131072 → (ringQueue to3 b s).net.ring = { s.net.ring with q2 := s.net.ring.q2 ++ [b] }) := by
  refine ⟨fun hto hfill => ?_, fun hto hfill => ?_⟩
  · have hqueue : ringQueue true b s = if ringFill (s.net.ring.q3 ++ [b]) > 131072 then s
        else bumpMax 0xAC10 (ringFill (s.net.ring.q3 ++ [b])) { s with net := { s.net with ring := { s.net.ring with q3 := s.net.ring.q3 ++ [b] } } } := by
      unfold ringQueue
      dsimp only
      rw [h2, h3]
      rfl
    rw [hto, hqueue, if_neg (not_lt.mpr hfill)]
    rfl
  · have hqueue : ringQueue false b s = if ringFill (s.net.ring.q2 ++ [b]) > 131072 then s
        else bumpMax 0xAD10 (ringFill (s.net.ring.q2 ++ [b])) { s with net := { s.net with ring := { s.net.ring with q2 := s.net.ring.q2 ++ [b] } } } := by
      unfold ringQueue
      dsimp only
      rw [h2, h3]
      rfl
    rw [hto, hqueue, if_neg (not_lt.mpr hfill)]
    rfl

end

/-! ## RING_FRAME_SEND (R304) -/

section
variable {dir : RingDir}

/-- A direction's queue, and whether its port is broken. -/
def ringQ (dir : RingDir) (r : RingNet) : List (List Byte) := if dir == .towardRp3 then r.q3 else r.q2

def ringBroken (dir : RingDir) (r : RingNet) : Bool := if dir == .towardRp3 then r.rp3Broken else r.rp2Broken

/-- A direction's queue put in place. -/
def ringPutQ (dir : RingDir) (q : List (List Byte)) (r : RingNet) : RingNet := if dir == .towardRp3 then { r with q3 := q } else { r with q2 := q }

/-- A frame at the head of a queue, taken from it. -/
def ringHead (t : Int) (dir : RingDir) (b : List Byte) (q : List (List Byte)) (s : State) : Host.Outcome State Fault Refusal :=
  let o := 0xAC00 + 0x100 * (if dir == .towardRp3 then 0 else 1)
  let p := if dir == .towardRp3 then 3 else 2
  let v := { atTime t s with net := { s.net with ring := ringPutQ dir q s.net.ring } }
  if (parseFrame b).round + regF s 0x9020 11 8 < curRound (atTime t s) then settle (bump (o + 8) v)
  else
    let w := if (parseFrame b).node = nodeId s then v else bump o v
    settle { w with out := w.out ++ [.frame p t b], net := { w.net with tx := tput none p (some (frameSpan t b)) w.net.tx } }

theorem ringFrameSend_eq : exec (.ringFrameSend t dir) s = if !rswLive (atTime t s) || ringBroken dir s.net.ring then settle (atTime t s)
    else match ringQ dir s.net.ring with | [] => settle (atTime t s) | b :: q => ringHead t dir b q s := rfl

theorem ringFrameSend_idle (h : rswLive (atTime t s) = false ∨ ringBroken dir s.net.ring = true ∨ ringQ dir s.net.ring = []) :
    exec (.ringFrameSend t dir) s = settle (atTime t s) := by
  rw [ringFrameSend_eq]
  obtain hr | hb | hq := h
  · exact if_pos (by rw [hr]; rfl)
  · exact if_pos (by rw [hb, Bool.or_true])
  · rw [hq]
    exact ite_self _

theorem ringFrameSend_head {b : List Byte} {q : List (List Byte)} (hr : rswLive (atTime t s) = true) (hb : ringBroken dir s.net.ring = false)
    (hq : ringQ dir s.net.ring = b :: q) : exec (.ringFrameSend t dir) s = ringHead t dir b q s := by
  rw [ringFrameSend_eq, hr, hb, hq]
  rfl

theorem ringFrameSend_sends {b : List Byte} {q : List (List Byte)} (hr : rswLive (atTime t s) = true) (hb : ringBroken dir s.net.ring = false)
    (hq : ringQ dir s.net.ring = b :: q) : ∃ u, exec (.ringFrameSend t dir) s = .next u
      ∧ u = { shown s u with now := t, ctr := u.ctr, net := { s.net with tx := u.net.tx, ring := ringPutQ dir q s.net.ring } }
      ∧ (curRound (atTime t s) ≤ (parseFrame b).round + regF s 0x9020 11 8 → Out.frame (if dir == .towardRp3 then 3 else 2) t b ∈ u.out)
      ∧ ((parseFrame b).round + regF s 0x9020 11 8 < curRound (atTime t s) → ∀ p t' x, Out.frame p t' x ∈ u.out → Out.frame p t' x ∈ s.out) := by
  have hexec := ringFrameSend_head hr hb hq
  unfold ringHead at hexec
  dsimp only at hexec
  by_cases hold : (parseFrame b).round + regF s 0x9020 11 8 < curRound (atTime t s)
  · rw [if_pos hold] at hexec
    have hquiet := publish_noFrame (bump (0xAC00 + 0x100 * (if dir == .towardRp3 then 0 else 1) + 8) { atTime t s with net := { s.net with ring := ringPutQ dir q s.net.ring } })
    obtain ⟨o, g, hpub⟩ := publish_update (bump (0xAC00 + 0x100 * (if dir == .towardRp3 then 0 else 1) + 8) { atTime t s with net := { s.net with ring := ringPutQ dir q s.net.ring } })
    refine ⟨_, hexec, ?_, fun hyoung => absurd hold (not_lt.mpr hyoung), fun _ => hquiet.frames⟩
    rw [hpub]
    rfl
  · rw [if_neg hold] at hexec
    split at hexec
    · exact settles hexec fun o g => ⟨rfl, fun _ => List.mem_append_left _ (List.mem_append_right _ (List.mem_singleton_self _)), fun h => absurd h hold⟩
    · exact settles hexec fun o g => ⟨rfl, fun _ => List.mem_append_left _ (List.mem_append_right _ (List.mem_singleton_self _)), fun h => absurd h hold⟩

end

/-! ## Breaks and returns (R305, R465) -/

section
variable {rp3 : Bool}

/-- A ring with a port broken: what is queued for it goes out of the other. -/
def brokenRing (rp3 : Bool) (r : RingNet) : RingNet :=
  let x := if rp3 then { r with rp3Broken := true } else { r with rp2Broken := true }
  if rp3 then (if r.rp2Broken then x else { x with q2 := r.q2 ++ r.q3, q3 := [] }) else (if r.rp3Broken then x else { x with q3 := r.q3 ++ r.q2, q2 := [] })

theorem ringBreak_whole (h : rswLive a = false ∨ (if rp3 then a.net.ring.rp3Broken else a.net.ring.rp2Broken) = true) : ringBreak rp3 a = a := by
  refine if_pos ?_
  obtain h | h := h
  · rw [h]
    rfl
  · rw [h, Bool.or_true]

theorem ringBreak_breaks (hr : rswLive a = true) (hb : (if rp3 then a.net.ring.rp3Broken else a.net.ring.rp2Broken) = false) :
    ∃ c, ringBreak rp3 a = { note evRingPort .ring 0 (w32 (if rp3 then 3 else 2)) 1 0 a with ctr := c, net := { a.net with ring := brokenRing rp3 a.net.ring } } := by
  have hbreak : ringBreak rp3 a = { bump (0xAC00 + 0x100 * (if rp3 then 0 else 1) + 12) (note evRingPort .ring 0 (w32 (if rp3 then 3 else 2)) 1 0 a) with
      net := { (bump (0xAC00 + 0x100 * (if rp3 then 0 else 1) + 12) (note evRingPort .ring 0 (w32 (if rp3 then 3 else 2)) 1 0 a)).net with ring := brokenRing rp3 a.net.ring } } :=
    if_neg (by rw [hr, hb]; decide)
  rw [hbreak, note_update]
  exact ⟨_, rfl⟩

theorem brokenRing_breaks (rp3 : Bool) (r : RingNet) :
    (brokenRing rp3 r).rp3Broken = (r.rp3Broken || rp3) ∧ (brokenRing rp3 r).rp2Broken = (r.rp2Broken || !rp3)
      ∧ (rp3 = true → r.rp2Broken = false → (brokenRing rp3 r).q2 = r.q2 ++ r.q3 ∧ (brokenRing rp3 r).q3 = [])
      ∧ (rp3 = false → r.rp3Broken = false → (brokenRing rp3 r).q3 = r.q3 ++ r.q2 ∧ (brokenRing rp3 r).q2 = []) := by
  unfold brokenRing
  cases rp3 with
  | true => cases r.rp2Broken <;> simp
  | false => cases r.rp3Broken <;> simp

theorem ringPortReturn_idle (h : rswLive (atTime t s) = false ∨ (if rp3 then s.net.ring.rp3Broken else s.net.ring.rp2Broken) = false) :
    exec (.ringPortReturn t rp3) s = settle (atTime t s) := by
  refine if_pos ?_
  obtain h | h := h
  · rw [h]
    rfl
  · rw [show (if rp3 then (atTime t s).net.ring.rp3Broken else (atTime t s).net.ring.rp2Broken) = false from h, Bool.not_false, Bool.or_true]

/-- A ring whose broken port has returned. -/
def healedRing (rp3 : Bool) (r : RingNet) : RingNet := if rp3 then { r with rp3Broken := false } else { r with rp2Broken := false }

theorem ringPortReturn_heals (hr : rswLive (atTime t s) = true) (hb : (if rp3 then s.net.ring.rp3Broken else s.net.ring.rp2Broken) = true) :
    ∃ i, exec (.ringPortReturn t rp3) s = settle { atTime t s with erc := { s.erc with inbox := i }, net := { s.net with ring := healedRing rp3 s.net.ring } } := by
  have hexec : exec (.ringPortReturn t rp3) s = settle { note evRingPort .ring 0 (w32 (if rp3 then 3 else 2)) 0 0 (atTime t s) with
      net := { (note evRingPort .ring 0 (w32 (if rp3 then 3 else 2)) 0 0 (atTime t s)).net with ring := healedRing rp3 s.net.ring } } :=
    if_neg (by rw [hr, show (if rp3 then (atTime t s).net.ring.rp3Broken else (atTime t s).net.ring.rp2Broken) = true from hb]; decide)
  rw [hexec, note_update]
  exact ⟨_, rfl⟩

/-- The instants of RPn_LOS put in place. -/
def withLos (w : Tab (Option Int)) (a : State) : State := { a with net := { a.net with los := w } }

/-- A break, by itself or with RPn_LOS. -/
theorem ringBreak_step {i : Instr} {w : Tab (Option Int)} (hexec : exec i s = settle (ringBreak rp3 (withLos w (atTime t s)))) :
    ((rswLive (atTime t s) = false ∨ (if rp3 then s.net.ring.rp3Broken else s.net.ring.rp2Broken) = true) → ∃ u, exec i s = .next u ∧ u = { shown s u with now := t, net := { s.net with los := w } })
      ∧ (rswLive (atTime t s) = true → (if rp3 then s.net.ring.rp3Broken else s.net.ring.rp2Broken) = false →
        ∃ u, exec i s = .next u ∧ u = { reported s u with now := t, net := { s.net with ring := u.net.ring, los := w } }
          ∧ u.net.ring = brokenRing rp3 s.net.ring
          ∧ (aonUp s = true → u.erc.inbox = s.erc.inbox ++ [{ code := evRingPort, src := 80, p0 := w32 (if rp3 then 3 else 2), p1 := 1, p2 := 0, solo := false }])) := by
  refine ⟨fun h => ?_, fun hr hb => ?_⟩
  · rw [ringBreak_whole (a := withLos w (atTime t s)) h] at hexec
    exact settles hexec fun o g => rfl
  · obtain ⟨c, hbreak⟩ := ringBreak_breaks (a := withLos w (atTime t s)) hr hb
    rw [hbreak, note_update] at hexec
    refine settles hexec fun o g => ⟨rfl, rfl, fun hup => ?_⟩
    exact congrArg (s.erc.inbox ++ ·) (if_pos hup)

theorem rpLos_other (port : Fin 6) (h2 : port.val ≠ 2) (h3 : port.val ≠ 3) :
    exec (.rpLos t port) s = settle { atTime t s with net := { s.net with los := tput none port.val (some t) s.net.los } } :=
  (if_neg h2).trans (if_neg h3)

end

end

/-- Settles O45: what each event of the ring leaves. -/
theorem ringPassesRemovesAndHeals : Obligations.RingPassesRemovesAndHeals := by
  unfold Obligations.RingPassesRemovesAndHeals
  intro t s a r same
  refine ⟨fun f => ?receive, fun dir => ⟨fun h => settles (ringFrameSend_idle h) fun o g => rfl, fun b q hr hb hq => ringFrameSend_sends hr hb hq⟩, fun rp3 i w hi => ?breaks,
    fun port h2 h3 => settles (rpLos_other port h2 h3) fun o g => rfl,
    fun rp3 => ⟨fun h => settles (ringPortReturn_idle h) fun o g => rfl, fun hr hb => ?heals⟩⟩
  case receive =>
    intro b h g
    refine ⟨fun hno => settles (ringFrameReceive_idle hno) fun o g => rfl, fun hr hport hbad => ?dead, fun hr hport h1 h2 h3 h4 hown => ?own,
      fun hr hport h1 h2 h3 h4 hnode hb2 hb3 => ?pass⟩
    case dead =>
      obtain ⟨c, hc, hexec⟩ := ringFrameReceive_fails hr hport hbad
      obtain ⟨u, hu, hframe, hrct, hctr⟩ := ((RctFrame.refl b).deadLetter f.port c g.node).settles hexec
      obtain ⟨_, _, x, hdead⟩ := deadLetter_update f.port c g.node b
      rw [hdead] at hrct
      have hsame : u.net.rct = s.net.rct := hrct
      rw [hsame] at hframe
      exact ⟨u, hu, hframe, by rw [hctr, deadLetter_counts f.port g.node hc]; rfl⟩
    case own =>
      have hexec := ringFrameReceive_good hr (.inl hport) h1 h2 h3 h4
      dsimp only at hexec
      rw [if_pos hown, if_pos (by rw [decide_eq_true hown, decide_eq_true hport]; rfl)] at hexec
      exact settles hexec fun o g => rfl
    case pass =>
      have hexec := ringFrameReceive_good hr hport h1 h2 h3 h4
      dsimp only at hexec
      rw [if_neg hnode, if_neg (by rw [decide_eq_false hnode]; exact Bool.false_ne_true)] at hexec
      obtain ⟨c, i, o, hh, d, q, x, hlane⟩ := ringToLane_delivered f.port g f.tEnd b
      obtain ⟨c', ring, hqueue⟩ := ringQueue_update (f.port = 2) f.bytes (ringToLane f.port g f.tEnd b)
      obtain ⟨hto3, hto2⟩ := ringQueue_queues (s := ringToLane f.port g f.tEnd b) (f.port = 2) f.bytes (by rw [hlane]; exact hb2) (by rw [hlane]; exact hb3)
      rw [hqueue] at hexec hto3 hto2
      rw [hlane] at hexec hto3 hto2
      refine settles hexec fun o' g' => ⟨fun hp hfill => hto3 (decide_eq_true hp) hfill, fun hp hfill => hto2 (decide_eq_false (by omega)) hfill, rfl, rfl, rfl, rfl, rfl, rfl, rfl, rfl⟩
  case breaks =>
    have hexec : exec i s = settle (ringBreak rp3 (withLos w (atTime t s))) := by
      obtain ⟨rfl, rfl⟩ | ⟨rfl, rfl⟩ := hi
      · rfl
      · cases rp3 <;> rfl
    obtain ⟨hwhole, hbreaks⟩ := ringBreak_step hexec
    refine ⟨hwhole, fun hr hb => ?_⟩
    obtain ⟨u, hu, hframe, hring, hnote⟩ := hbreaks hr hb
    obtain ⟨h3, h2, hq2, hq3⟩ := brokenRing_breaks rp3 r
    rw [← hring] at h3 h2 hq2 hq3
    exact ⟨u, hu, hframe, h3, h2, hq2, hq3, hnote⟩
  case heals =>
    obtain ⟨i, hexec⟩ := ringPortReturn_heals (t := t) hr hb
    exact settles hexec fun o g => rfl

end Sys2Proof.Proofs
end

section
/-!
PROOFS. The ridge (R299 to R302).
-/

namespace Sys2Proof.Proofs
open Sys2Proof.Machine Sys2Proof.Laws

section
variable {t : Int} {b : Fin 6} {s a v : State} {bytes : List Byte}

/-! ## What the ridge forwards (R299) -/

theorem mem_otherBranches {p b : Nat} (hp : p < 6) (hne : p ≠ b) : p ∈ otherBranches b :=
  List.mem_filter.mpr ⟨List.mem_range.mpr hp, bne_iff_ne.mpr hne⟩

theorem forwardFrame_mem (b : Nat) (t : Int) (bytes : List Byte) (s : State) : ∀ p : Nat, p < 6 → p ≠ b → Out.frame p (t + 1024) bytes ∈ (forwardFrame b t bytes s).out :=
  fun _ hp hne => List.mem_append_right _ (List.mem_map.mpr ⟨_, mem_otherBranches hp hne, rfl⟩)

/-- A violation is counted at its branch. -/
theorem bump_counts (o : Nat) (s : State) : tget 0 o (bump o s).ctr = satAdd 32 (tget 0 o s.ctr) 1 :=
  tget_tput_of_ne _ _ _ _ _ (by unfold satAdd; omega)

theorem violation_blocked {b node : Nat} (h : (branchOf s b).blocked ≠ none) : violation b node s = bump (0xAE00 + 4 * b) s :=
  congrArg (bump (0xAE00 + 4 * b)) (if_pos (Option.isSome_iff_ne_none.mpr h))

theorem violation_open {b node : Nat} (h : (branchOf s b).blocked = none) :
    violation b node s = bump (0xAE00 + 4 * b) (mapBranch b (fun x => { x with violNow := true, node := node }) s) :=
  congrArg (bump (0xAE00 + 4 * b)) (if_neg (by rw [h]; decide))

/-! ## IDLE (R300, R302) -/

theorem ridgeForward_dead {rx : BranchRx} (h : ridgeLive (atTime t s) = false) : exec (.ridgeForward t b rx) s = settle (atTime t s) :=
  if_pos (by rw [show ridgeLive (atTime t s) = false from h]; rfl)

theorem ridgeForward_frame (h : ridgeLive (atTime t s) = true) : exec (.ridgeForward t b (.frame bytes)) s =
    if s.net.rdg.sched then settle (schedFrame b.val t bytes (atTime t s)) else settle (idleFrame b.val t bytes (atTime t s)) :=
  if_neg (by rw [show ridgeLive (atTime t s) = true from h]; decide)

theorem ridgeForward_other {rx : BranchRx} (h : ridgeLive (atTime t s) = true) (hrx : ∀ x, rx ≠ .frame x) : exec (.ridgeForward t b rx) s =
    if s.net.rdg.sched then settle (schedClaim b.val t rx (atTime t s)) else settle (atTime t s) := by
  refine (if_neg (by rw [show ridgeLive (atTime t s) = true from h]; decide)).trans ?_
  cases rx with
  | frame x => exact absurd rfl (hrx x)
  | claim i n c => rfl
  | _ => rfl

theorem idleFrame_ignores {b : Nat} (h : (parseFrame bytes).timed = false ∨ (parseFrame bytes).node ≠ fld ((parseFrame bytes).word 0) 31 24) : idleFrame b t bytes a = a := by
  refine if_pos ?_
  obtain h | h := h
  · rw [h]
    rfl
  · rw [decide_eq_true h, Bool.or_true]

theorem idleFrame_later {b : Nat} (ht : (parseFrame bytes).timed = true) (hm : (parseFrame bytes).node = fld ((parseFrame bytes).word 0) 31 24)
    (hl : (∃ e, a.net.rdg.idleFwd = some e ∧ t < e.2) ∨ idleBeaten b t a.pending = true) : idleFrame b t bytes a = bump (0xAE00 + 4 * (12 + b)) a := by
  refine (if_neg (by rw [ht, decide_eq_false (not_not.mpr hm)]; decide)).trans (if_pos ?_)
  obtain ⟨e, he, hte⟩ | hl := hl
  · rw [he, Option.any_some, decide_eq_true hte]
    rfl
  · rw [hl, Bool.or_true]

/-- The ridge SCHEDULED on a frame's time. -/
def scheduled (f : Frame) (r : RidgeSt) : RidgeSt :=
  { r with sched := true, master := f.node, rho := 0, sigma := 0, lost := false, d := none, dNow := some 0, mRound := some f.round, claims := [],
           times := [], newMaster := none, idleFwd := none }

/-- The first frame of a master goes to every other branch, and with a right CRC takes the ridge to SCHEDULED. -/
theorem idleFrame_first {b : Nat} (ht : (parseFrame bytes).timed = true) (hm : (parseFrame bytes).node = fld ((parseFrame bytes).word 0) 31 24)
    (hl : ¬ ((∃ e, a.net.rdg.idleFwd = some e ∧ t < e.2) ∨ idleBeaten b t a.pending = true)) :
    (∀ p : Nat, p < 6 → p ≠ b → Out.frame p (t + 1024) bytes ∈ (idleFrame b t bytes a).out)
      ∧ ((parseFrame bytes).crcOk = true → lengthOk a (parseFrame bytes) = true → (branchOf a b).loops ≠ [] →
        (idleFrame b t bytes a).net.rdg.sched = true ∧ (idleFrame b t bytes a).net.rdg.master = (parseFrame bytes).node ∧ (idleFrame b t bytes a).net.joined = true) := by
  have hlate : (a.net.rdg.idleFwd.any (fun e => decide (t < e.2)) || idleBeaten b t a.pending) = false := by
    rw [Bool.or_eq_false_iff]
    refine ⟨?_, Bool.eq_false_iff.mpr fun h => hl (.inr h)⟩
    cases he : a.net.rdg.idleFwd with
    | none => rfl
    | some e => exact decide_eq_false fun h => hl (.inl ⟨e, he, h⟩)
  let w := forwardFrame b t bytes (mapRidge (fun r => { r with idleFwd := some (b, frameEnd t bytes) }) a)
  have hw : ∀ p : Nat, p < 6 → p ≠ b → Out.frame p (t + 1024) bytes ∈ w.out := forwardFrame_mem b t bytes _
  have hidle : idleFrame b t bytes a = if !(parseFrame bytes).crcOk || !lengthOk a (parseFrame bytes) || (branchOf a b).loops = [] then w
      else
        let delta := frameNt w (parseFrame bytes) (branchDelay w b) - t
        let first := !w.net.joined
        let v := if delta = 0 then w else rebase delta w
        let v := { v with net := { v.net with joined := true, joins := v.net.joins + 1, joinAt := v.now } }
        let v := if first || delta = 0 then v else note evTimeStep .ring 1 (lo32 delta) (hi32 delta) 0 v
        let v := note evJoined .ring 1 (w32 (parseFrame bytes).node) (roundLo v) (w32i (sat delta 32)) v
        mapRidge (scheduled (parseFrame bytes)) v :=
    (if_neg (by rw [ht, decide_eq_false (not_not.mpr hm)]; decide)).trans (if_neg (by rw [hlate]; decide))
  rw [hidle]
  split
  case _ hbad =>
    refine ⟨hw, fun hc hlen hloops => ?_⟩
    rw [hc, hlen, decide_eq_false hloops] at hbad
    exact absurd hbad (by decide)
  case _ =>
    extract_lets delta first v net v' v'' v'''
    have hv : v.out = w.out := by
      unfold v
      split
      · rfl
      · show (stepCounters _ _ w).out = _
        obtain ⟨m, hm', -⟩ := moveDoms_states delta (moveHost delta w)
        show (moveDoms delta (moveHost delta w)).out = _
        rw [hm']
        rfl
    have hv'' : v''.out = w.out ∧ v''.net.joined = true := by
      unfold v''
      split
      · exact ⟨hv, rfl⟩
      · rw [note_update]
        exact ⟨hv, rfl⟩
    have hv''' : v'''.out = w.out ∧ v'''.net.joined = true := by
      unfold v'''
      rw [note_update]
      exact hv''
    exact ⟨fun p hp hne => show _ ∈ v'''.out from hv'''.1 ▸ hw p hp hne, fun _ _ _ => ⟨rfl, rfl, hv'''.2⟩⟩

/-! ## SCHEDULED (R301) -/

/-- What the ridge uses of a frame's time. -/
def timedRidge (x : List TimeSeen) (m : Option Nat) (d : Option Int) (a : State) : State :=
  { a with net := { a.net with rdg := { a.net.rdg with times := x, mRound := m, dNow := d } } }

theorem ridgeTime_update (b : Nat) (t : Int) (f : Frame) (a : State) : ∃ x m d, ridgeTime b t f a = timedRidge x m d a := by
  unfold ridgeTime
  split
  · exact ⟨_, _, _, rfl⟩
  · split
    · exact ⟨_, _, _, rfl⟩
    · exact ⟨_, _, _, rfl⟩

/-- What a scheduled ridge does with a frame, its time taken. -/
def judgedFrame (b : Nat) (t : Int) (bytes : List Byte) (s : State) : State :=
  let f := parseFrame bytes
  if (branchOf s b).blocked.isSome then violation b f.node s
  else
    match openWindow s b t with
    | none =>
      let unknown := f.dyn && (dynIds s (curRound s)).any (fun e => (claimOf s.net.rdg.claims e.index).isNone)
      if unknown then s else violation b f.node s
    | some (e, _, close) =>
      if f.node ≠ e.node || f.round ≠ curRound s then violation b f.node s
      else
        let fin := frameEnd t bytes
        if fin ≤ close then forwardFrame b t bytes s
        else
          mapBranch b (fun x => { x with fwd := some close, node := f.node }) (forwardFrame b t (bytes.take (((close - t) / 8).toNat - 1)) s)

theorem schedFrame_eq (b : Nat) (a : State) : ∃ x m d, schedFrame b t bytes a = judgedFrame b t bytes (timedRidge x m d a) := by
  obtain ⟨x, m, d, h⟩ := ridgeTime_update b t (parseFrame bytes) a
  refine ⟨x, m, d, ?_⟩
  rw [← h]
  rfl

theorem ridgeForward_sched (hr : ridgeLive (atTime t s) = true) (hs : s.net.rdg.sched = true) :
    ∃ x m d, exec (.ridgeForward t b (.frame bytes)) s = settle (judgedFrame b.val t bytes (timedRidge x m d (atTime t s))) := by
  obtain ⟨x, m, d, h⟩ := schedFrame_eq (t := t) (bytes := bytes) b.val (atTime t s)
  exact ⟨x, m, d, (ridgeForward_frame hr).trans ((if_pos hs).trans (congrArg settle h))⟩

theorem judgedFrame_blocked {b : Nat} (h : (branchOf a b).blocked ≠ none) : judgedFrame b t bytes a = bump (0xAE00 + 4 * b) a :=
  (if_pos (Option.isSome_iff_ne_none.mpr h)).trans (violation_blocked h)

section
variable {k : Nat} (hb : (branchOf a k).blocked = none)
include hb

theorem judgedFrame_shut (hw : openWindow a k t = none) :
    judgedFrame k t bytes a = a ∧ (parseFrame bytes).dyn = true
      ∨ judgedFrame k t bytes a = bump (0xAE00 + 4 * k) (mapBranch k (fun x => { x with violNow := true, node := (parseFrame bytes).node }) a) := by
  unfold judgedFrame
  dsimp only
  rw [hb, hw]
  by_cases hu : ((parseFrame bytes).dyn && (dynIds a (curRound a)).any (fun e => (claimOf a.net.rdg.claims e.index).isNone)) = true
  · exact .inl ⟨(if_neg (by decide)).trans (if_pos hu), (Bool.and_eq_true _ _ ▸ hu).1⟩
  · exact .inr ((if_neg (by decide)).trans ((if_neg hu).trans (violation_open hb)))

section
variable {e : Sched} {sp close : Int} (hw : openWindow a k t = some (e, sp, close))
include hw

theorem judgedFrame_foreign (h : (parseFrame bytes).node ≠ e.node ∨ (parseFrame bytes).round ≠ curRound a) :
    judgedFrame k t bytes a = bump (0xAE00 + 4 * k) (mapBranch k (fun x => { x with violNow := true, node := (parseFrame bytes).node }) a) := by
  unfold judgedFrame
  dsimp only
  rw [hb, hw]
  exact (if_neg (by decide)).trans ((if_pos (by simpa using h)).trans (violation_open hb))

variable (hn : (parseFrame bytes).node = e.node) (hr : (parseFrame bytes).round = curRound a)
include hn hr

theorem judgedFrame_whole (h : frameEnd t bytes ≤ close) : judgedFrame k t bytes a = forwardFrame k t bytes a := by
  unfold judgedFrame
  dsimp only
  rw [hb, hw]
  exact (if_neg (by decide)).trans ((if_neg (by simp [hn, hr])).trans (if_pos h))

theorem judgedFrame_cut (h : close < frameEnd t bytes) : judgedFrame k t bytes a =
    mapBranch k (fun x => { x with fwd := some close, node := (parseFrame bytes).node }) (forwardFrame k t (bytes.take (((close - t) / 8).toNat - 1)) a) := by
  unfold judgedFrame
  dsimp only
  rw [hb, hw]
  exact (if_neg (by decide)).trans ((if_neg (by simp [hn, hr])).trans (if_neg (not_le.mpr h)))

end
end

/-! ## Claims -/

theorem schedClaim_shut {k : Nat} {rx : BranchRx} (h : (branchOf a k).blocked ≠ none ∨ openClaim a k t = none) : schedClaim k t rx a = a := by
  by_cases hb : (branchOf a k).blocked.isSome = true
  · exact if_pos hb
  · refine (if_neg hb).trans ?_
    obtain h | h := h
    · exact absurd (Option.isSome_iff_ne_none.mpr h) hb
    · rw [h]

theorem schedClaim_open {k id : Nat} {i n c : Byte} (hb : (branchOf a k).blocked = none) (ho : openClaim a k t = some id) : schedClaim k t (.claim i n c) a =
    { mapRidge (fun r => { r with claims := addClaim id (readClaim id (.claim i n c)) r.claims }) a with
      out := a.out ++ (otherBranches k).map (fun p => .claim p (t + 1024) i.toNat n.toNat c.toNat) } := by
  refine (if_neg (by rw [hb]; decide)).trans ?_
  rw [ho]
  rfl

/-! ## Windows, blocked branches, the time-out (R301, R302) -/

/-- A window that closes on a frame. -/
theorem ridgeWindowClose_cuts (h : ridgeLive (atTime t s) = true ∧ ∃ c, (branchOf s b.val).fwd = some c ∧ c ≤ t) : exec (.ridgeWindowClose t b) s =
    settle (violation b.val (branchOf s b.val).node (mapBranch b.val (fun x => { x with fwd := none }) (atTime t s))) := by
  obtain ⟨hr, c, hc, hct⟩ := h
  refine if_pos ?_
  rw [show ridgeLive (atTime t s) = true from hr, show (branchOf (atTime t s) b.val).fwd = some c from hc, Option.any_some, decide_eq_true hct]
  rfl

theorem ridgeWindowClose_idle (h : ridgeLive (atTime t s) = false ∨ ∀ c, (branchOf s b.val).fwd = some c → t < c) : exec (.ridgeWindowClose t b) s = settle (atTime t s) := by
  refine if_neg ?_
  obtain h | h := h
  · rw [show ridgeLive (atTime t s) = false from h]
    exact Bool.false_ne_true
  · rw [Bool.and_eq_true, Option.any_eq_true]
    rintro ⟨-, c, hc, hct⟩
    exact absurd (of_decide_eq_true hct) (not_le.mpr (h c hc))

/-- What the close of a window on a frame leaves. -/
theorem ridgeWindowClose_leaves (h : ridgeLive (atTime t s) = true ∧ ∃ c, (branchOf s b.val).fwd = some c ∧ c ≤ t) : ∃ u, exec (.ridgeWindowClose t b) s = .next u
    ∧ tget 0 (0xAE00 + 4 * b.val) u.ctr = satAdd 32 (tget 0 (0xAE00 + 4 * b.val) s.ctr) 1
    ∧ (b.val < s.net.rdg.branches.length → (branchOf u b.val).fwd = none ∧ ((branchOf s b.val).blocked = none → (branchOf u b.val).violNow = true))
    ∧ u = { shown s u with now := t, ctr := u.ctr, net := { s.net with rdg := { s.net.rdg with branches := u.net.rdg.branches } } } := by
  have hexec := ridgeWindowClose_cuts h
  have hread : ∀ (f : BranchSt → BranchSt) (v : State), b.val < v.net.rdg.branches.length → branchOf (mapBranch b.val f v) b.val = f (branchOf v b.val) := fun f v hlen => by
    show ((v.net.rdg.branches.set b.val _)[b.val]?).getD _ = _
    rw [List.getElem?_set_self hlen]
    rfl
  have hlen' : ∀ f, (mapBranch b.val f (atTime t s)).net.rdg.branches.length = s.net.rdg.branches.length := fun f => List.length_set
  generalize hv : mapBranch b.val (fun x => { x with fwd := none }) (atTime t s) = v at hexec
  by_cases hb : (branchOf v b.val).blocked = none
  · rw [violation_open hb] at hexec
    refine settles hexec fun o g => ⟨?_, fun hlen => ⟨?_, fun _ => ?_⟩, by rw [← hv]; rfl⟩
    · refine (bump_counts (0xAE00 + 4 * b.val) (mapBranch b.val _ v)).trans ?_
      rw [← hv]
      rfl
    · have hlen'' : b.val < v.net.rdg.branches.length := by rw [← hv, hlen']; exact hlen
      refine (congrArg BranchSt.fwd (hread (fun x => { x with violNow := true, node := (branchOf s b.val).node }) v hlen'') :).trans ?_
      rw [← hv]
      exact congrArg BranchSt.fwd (hread (fun x => { x with fwd := none }) (atTime t s) hlen)
    · have hlen'' : b.val < v.net.rdg.branches.length := by rw [← hv, hlen']; exact hlen
      exact (congrArg BranchSt.violNow (hread (fun x => { x with violNow := true, node := (branchOf s b.val).node }) v hlen'') :)
  · rw [violation_blocked hb] at hexec
    refine settles hexec fun o g => ⟨?_, fun hlen => ⟨?_, fun hopen => absurd ?_ hb⟩, by rw [← hv]; rfl⟩
    · refine (bump_counts (0xAE00 + 4 * b.val) v).trans ?_
      rw [← hv]
      rfl
    · show (branchOf v b.val).fwd = none
      rw [← hv]
      exact (congrArg BranchSt.fwd (hread (fun x => { x with fwd := none }) (atTime t s) hlen) :)
    · rw [← hv]
      exact (congrArg BranchSt.blocked (hread (fun x => { x with fwd := none }) (atTime t s) hlen) :).trans hopen

theorem branchUnblock_returns {k : Nat} (hk : (branchOf s b.val).blocked = some k) (hle : k ≤ curRound (atTime t s)) : exec (.branchUnblock t b) s =
    settle (mapBranch b.val (fun x => { x with blocked := none, viol := 0, violNow := false }) (atTime t s)) := by
  refine if_pos ?_
  rw [show (branchOf (atTime t s) b.val).blocked = some k from hk, Option.any_some]
  exact decide_eq_true hle

theorem branchUnblock_waits (h : ∀ k, (branchOf s b.val).blocked = some k → curRound (atTime t s) < k) : exec (.branchUnblock t b) s = settle (atTime t s) := by
  refine if_neg ?_
  rw [Option.any_eq_true]
  rintro ⟨k, hk, hle⟩
  exact absurd (of_decide_eq_true hle) (not_le.mpr (h k hk))

theorem ridgeIdleTimeout_ends (h : ridgeLive (atTime t s) = true ∧ s.net.rdg.sched = true ∧ ∀ k, s.net.rdg.mRound = some k → k + 8 < curRound (atTime t s)) :
    exec (.ridgeIdleTimeout t) s =
      settle (mapRidge (fun r => { r with sched := false, claims := [], times := [], dNow := none, newMaster := none, idleFwd := none, sigma := 0 }) (atTime t s)) := by
  obtain ⟨hr, hs, hk⟩ := h
  refine if_pos ?_
  rw [hr, show (atTime t s).net.rdg.sched = true from hs, Bool.true_and, Bool.true_and, Option.all_eq_true]
  exact fun k hm => decide_eq_true (hk k hm)

theorem ridgeIdleTimeout_waits (h : ridgeLive (atTime t s) = false ∨ s.net.rdg.sched = false ∨ ∃ k, s.net.rdg.mRound = some k ∧ curRound (atTime t s) ≤ k + 8) :
    exec (.ridgeIdleTimeout t) s = settle (atTime t s) := by
  refine if_neg ?_
  obtain h | h | ⟨k, hm, hk⟩ := h
  · rw [h]
    exact Bool.false_ne_true
  · rw [show (atTime t s).net.rdg.sched = false from h, Bool.and_false]
    exact Bool.false_ne_true
  · rw [show (atTime t s).net.rdg.mRound = some k from hm, Option.all_some, decide_eq_false (not_lt.mpr hk), Bool.and_false]
    exact Bool.false_ne_true

/-- A scheduled ridge's frames: what leaves, what is counted, what of the branches changes. -/
theorem ridgeForward_judges (hr : ridgeLive (atTime t s) = true) (hs : s.net.rdg.sched = true) :
    let a := atTime t s
    let r := s.net.rdg
    let br := branchOf s b.val
    let silent := fun (u : State) => ∀ p t' x, Out.frame p t' x ∈ u.out → Out.frame p t' x ∈ s.out
    let counted := fun (u : State) => tget 0 (0xAE00 + 4 * b.val) u.ctr = satAdd 32 (tget 0 (0xAE00 + 4 * b.val) s.ctr) 1
    let timed := fun (y : RidgeSt) (u : State) => { y with times := u.net.rdg.times, mRound := u.net.rdg.mRound, dNow := u.net.rdg.dNow }
    let f := parseFrame bytes
    (br.blocked ≠ none → ∃ u, exec (.ridgeForward t b (.frame bytes)) s = .next u ∧ silent u ∧ counted u
        ∧ u = { shown s u with now := t, ctr := u.ctr, net := { s.net with rdg := timed r u } })
      ∧ (∀ e sp close, br.blocked = none → openWindow a b.val t = some (e, sp, close) →
        ((f.node ≠ e.node ∨ f.round ≠ curRound a) → ∃ u, exec (.ridgeForward t b (.frame bytes)) s = .next u ∧ silent u ∧ counted u
          ∧ u = { shown s u with now := t, ctr := u.ctr, net := { s.net with rdg := timed { r with branches := setNth r.branches b.val { br with violNow := true, node := f.node } } u } })
        ∧ (f.node = e.node → f.round = curRound a → frameEnd t bytes ≤ close → ∃ u, exec (.ridgeForward t b (.frame bytes)) s = .next u
          ∧ (∀ p : Nat, p < 6 → p ≠ b.val → Out.frame p (t + 1024) bytes ∈ u.out)
          ∧ u = { shown s u with now := t, net := { s.net with tx := u.net.tx, rdg := timed r u } })
        ∧ (f.node = e.node → f.round = curRound a → close < frameEnd t bytes → ∃ u, exec (.ridgeForward t b (.frame bytes)) s = .next u
          ∧ (∀ p : Nat, p < 6 → p ≠ b.val → Out.frame p (t + 1024) (bytes.take (((close - t) / 8).toNat - 1)) ∈ u.out)
          ∧ u = { shown s u with now := t, net := { s.net with tx := u.net.tx, rdg := timed { r with branches := setNth r.branches b.val { br with fwd := some close, node := f.node } } u } }))
      ∧ (br.blocked = none → openWindow a b.val t = none → ∃ u, exec (.ridgeForward t b (.frame bytes)) s = .next u ∧ silent u ∧ (f.dyn = false → counted u)) := by
  intro a r br silent counted timed f
  obtain ⟨x, m, d, hexec⟩ := ridgeForward_sched (b := b) (bytes := bytes) hr hs
  have hquiet : ∀ v : State, v.out = s.out → ∀ u, publish v = u → silent u := fun v hv u hu => by
    rw [← hu]
    exact fun p t' y hy => hv ▸ (publish_noFrame v).frames p t' y hy
  refine ⟨fun hb => ?blocked, fun e sp close hb hw => ⟨fun hforeign => ?foreign, fun hn hround hfits => ?whole, fun hn hround hcut => ?cut⟩, fun hb hw => ?shut⟩
  case blocked =>
    rw [judgedFrame_blocked (a := timedRidge x m d a) hb] at hexec
    obtain ⟨o, g, hpub⟩ := publish_update (bump (0xAE00 + 4 * b.val) (timedRidge x m d a))
    refine ⟨_, hexec, hquiet (bump (0xAE00 + 4 * b.val) (timedRidge x m d a)) rfl _ rfl, ?_, ?_⟩
    · rw [hpub]
      exact bump_counts (0xAE00 + 4 * b.val) (timedRidge x m d a)
    · rw [hpub]
      rfl
  case foreign =>
    rw [judgedFrame_foreign (a := timedRidge x m d a) hb hw hforeign] at hexec
    generalize hv : mapBranch b.val (fun x => { x with violNow := true, node := (parseFrame bytes).node }) (timedRidge x m d a) = v at hexec
    obtain ⟨o, g, hpub⟩ := publish_update (bump (0xAE00 + 4 * b.val) v)
    refine ⟨_, hexec, hquiet (bump (0xAE00 + 4 * b.val) v) (by rw [← hv]; rfl) _ rfl, ?_, ?_⟩
    · rw [hpub]
      refine (bump_counts (0xAE00 + 4 * b.val) v).trans ?_
      rw [← hv]
      rfl
    · rw [hpub, ← hv]
      rfl
  case whole =>
    rw [judgedFrame_whole (a := timedRidge x m d a) hb hw hn hround hfits] at hexec
    exact settles hexec fun o g => ⟨fun p hp hne => List.mem_append_left _ (forwardFrame_mem b.val t bytes (timedRidge x m d a) p hp hne), rfl⟩
  case cut =>
    rw [judgedFrame_cut (a := timedRidge x m d a) hb hw hn hround hcut] at hexec
    exact settles hexec fun o g => ⟨fun p hp hne => List.mem_append_left _ (forwardFrame_mem b.val t _ (timedRidge x m d a) p hp hne), rfl⟩
  case shut =>
    obtain ⟨hstay, hdyn⟩ | hviol := judgedFrame_shut (a := timedRidge x m d a) (bytes := bytes) hb hw
    · rw [hstay] at hexec
      exact ⟨_, hexec, hquiet (timedRidge x m d a) rfl _ rfl, fun h => absurd (h.symm.trans hdyn) (by decide)⟩
    · rw [hviol] at hexec
      generalize hv : mapBranch b.val (fun x => { x with violNow := true, node := (parseFrame bytes).node }) (timedRidge x m d a) = v at hexec
      obtain ⟨o, g, hpub⟩ := publish_update (bump (0xAE00 + 4 * b.val) v)
      refine ⟨_, hexec, hquiet (bump (0xAE00 + 4 * b.val) v) (by rw [← hv]; rfl) _ rfl, fun _ => ?_⟩
      rw [hpub]
      refine (bump_counts (0xAE00 + 4 * b.val) v).trans ?_
      rw [← hv]
      rfl

end

/-- Settles O44: what the ridge does with each frame and claim, and with its windows, branches and master. -/
theorem ridgeForwardsWithinWindows : Obligations.RidgeForwardsWithinWindows := by
  unfold Obligations.RidgeForwardsWithinWindows
  intro t b s a r br same silent counted timed
  refine ⟨fun rx hr => settles (ridgeForward_dead hr) fun o g => rfl, fun bytes hr hs => ?idle, fun bytes hr hs => ?ignored, fun rx hr hs hrx => ?other,
    fun bytes hr hs => ridgeForward_judges hr hs, fun i n c id hr hs hb ho => ?claim, fun rx hr hs hrx hno => ?silentClaim, ridgeWindowClose_leaves,
    fun h => settles (ridgeWindowClose_idle h) fun o g => rfl, fun k hk hle => settles (branchUnblock_returns hk hle) fun o g => rfl,
    fun h => settles (branchUnblock_waits h) fun o g => rfl, fun h => settles (ridgeIdleTimeout_ends h) fun o g => ⟨rfl, rfl⟩,
    fun h => settles (ridgeIdleTimeout_waits h) fun o g => rfl⟩
  case idle =>
    intro f ht hm later
    have hexec := (ridgeForward_frame (b := b) (bytes := bytes) hr).trans (if_neg (by rw [hs]; decide))
    refine ⟨fun hl => ?_, fun hl => ?_⟩
    · rw [idleFrame_later (a := atTime t s) ht hm hl] at hexec
      exact settles hexec fun o g => rfl
    · obtain ⟨hout, hsched⟩ := idleFrame_first (a := atTime t s) (b := b.val) ht hm hl
      exact settles hexec fun o g => ⟨fun p hp hne => List.mem_append_left _ (hout p hp hne), hsched⟩
  case ignored =>
    intro f hno
    have hexec := (ridgeForward_frame (b := b) (bytes := bytes) hr).trans (if_neg (by rw [hs]; decide))
    rw [idleFrame_ignores (a := atTime t s) hno] at hexec
    exact settles hexec fun o g => rfl
  case other => exact settles ((ridgeForward_other hr hrx).trans (if_neg (by rw [hs]; decide))) fun o g => rfl
  case claim =>
    have hexec := (ridgeForward_other (b := b) (rx := .claim i n c) hr fun _ => nofun).trans (if_pos hs)
    rw [schedClaim_open (a := atTime t s) hb ho] at hexec
    exact settles hexec fun o g => ⟨fun p hp hne => List.mem_append_left _ (List.mem_append_right _ (List.mem_map.mpr ⟨p, mem_otherBranches hp hne, rfl⟩)), rfl⟩
  case silentClaim =>
    have hexec := (ridgeForward_other (b := b) hr hrx).trans (if_pos hs)
    rw [schedClaim_shut (a := atTime t s) hno] at hexec
    exact settles hexec fun o g => rfl

end Sys2Proof.Proofs
end

section
/-!
PROOFS. Debug sessions (R394 to R397).
-/

namespace Sys2Proof.Proofs
open Sys2Proof.Machine Sys2Proof.Laws

section
variable {c : HostCmd} {s x v : State} {b : List Byte}

/-! ## DEBUG_CHALLENGE (R394, R395) -/

theorem effDebugChallenge_lost (h : aonUp x = false) : effDebugChallenge c x = refuse 0x60 c stRefusedAon x := if_pos (by rw [h]; rfl)

theorem effDebugChallenge_locked (h : aonUp x = true) {a : Int} (ha : x.sec.lockUntil = some a) (hlt : x.now < a) :
    effDebugChallenge c x = refuse 0x60 c stRefusedState x := by
  refine (if_neg (by rw [h]; decide)).trans (if_pos ?_)
  rw [ha]
  exact decide_eq_true hlt

theorem effDebugChallenge_open (h : aonUp x = true) (hopen : ∀ a, x.sec.lockUntil = some a → a ≤ x.now) :
    effDebugChallenge c x = if Config.freeBool x.free then refuse 0x60 c stRefusedState (secNote evEntropyFail 0 0 0 { x with free := x.free + 1 })
      else
        let d := drawBytes 32 { x with free := x.free + 1 }
        let n := x.sec.challenges + 1
        let bytes := natBytes 8 Config.uid.toNat ++ natBytes 4 x.sec.lifecycle ++ natBytes 4 n ++ d.1 ++ zeros 16
        finishNow c 0x60 stApplied 64 0 (hostWrite (argBuf c) bytes
          { x with free := x.free + 33, sec := { x.sec with challenge := some (bytes, x.now), challenges := n } }) := by
  refine (if_neg (by rw [h]; decide)).trans (if_neg ?_)
  rw [Option.any_eq_true]
  rintro ⟨a, ha, hlt⟩
  exact absurd (of_decide_eq_true hlt) (not_lt.mpr (hopen a ha))

theorem debugChallenge_answers (h : Passes 0x60 c s) (hup : aonUp s = true) (hopen : ∀ a, s.sec.lockUntil = some a → a ≤ c.t) :
    ∃ u, exec (.debugChallenge c) s = .next u ∧
      ((Completed 0x60 c stRefusedState 0 0 s u ∧ u = { commanded s u with now := c.t, sec := s.sec, pst := s.pst, free := s.free + 1 }
          ∧ ({ code := evEntropyFail, src := 4, p0 := 0, p1 := 0, p2 := 0, solo := false } : EvIn) ∈ u.erc.inbox)
        ∨ ∃ b, Completed 0x60 c stApplied 64 0 s u ∧ .hostWrite (argBuf c) b ∈ u.out ∧ b.length = 64 ∧ b.take 8 = natBytes 8 Config.uid.toNat
            ∧ u = { commanded s u with now := c.t, pst := s.pst, free := s.free + 33, erc := s.erc, sec := { s.sec with challenge := some (b, c.t), challenges := s.sec.challenges + 1 } }) := by
  have heff := effDebugChallenge_open (c := c) (x := takeCmd c (atTime c.t s)) hup hopen
  by_cases hfree : Config.freeBool s.free = true
  · have hnote := note_up evEntropyFail .aon 4 0 0 0 (s := { takeCmd c (atTime c.t s) with free := s.free + 1 }) hup
    obtain ⟨u, hexec, hdone, hP⟩ := (taken_classU h rfl).completes (P := fun u => u = { commanded s u with now := c.t, sec := s.sec, pst := s.pst, free := s.free + 1 }
        ∧ ({ code := evEntropyFail, src := 4, p0 := 0, p1 := 0, p2 := 0, solo := false } : EvIn) ∈ u.erc.inbox)
      ((heff.trans (if_pos hfree)).trans (congrArg (finishNow c 0x60 stRefusedState 0 0) hnote)) ⟨rfl, rfl, fun _ _ => rfl, rfl, rfl, rfl⟩ (.of_eq rfl)
      fun k o g g' => ⟨rfl, List.mem_append_right _ (List.mem_singleton.mpr rfl)⟩
    exact ⟨u, hexec, .inl ⟨hdone, hP⟩⟩
  · obtain ⟨hrun, hcan⟩ := can_of_examinable h.1
    have hwrite := fun (b : List Byte) (y : SecSt) => show hostWrite (argBuf c) b { takeCmd c (atTime c.t s) with free := s.free + 33, sec := y } = _ from if_pos (by
      show (hostCan (atTime c.t s) && hreRun (atTime c.t s)) = true
      rw [hrun, hcan]
      rfl)
    obtain ⟨u, hexec, hdone, hP⟩ := (taken_classU h rfl).completes (P := fun u => ∃ b, .hostWrite (argBuf c) b ∈ u.out ∧ b.length = 64 ∧ b.take 8 = natBytes 8 Config.uid.toNat
            ∧ u = { commanded s u with now := c.t, pst := s.pst, free := s.free + 33, erc := s.erc, sec := { s.sec with challenge := some (b, c.t), challenges := s.sec.challenges + 1 } })
      ((heff.trans (if_neg hfree)).trans (congrArg (finishNow c 0x60 stApplied 64 0) (hwrite _ _))) ⟨rfl, rfl, fun _ _ => rfl, rfl, rfl, rfl⟩ (.of_eq rfl)
      fun k o g g' => ⟨_, List.mem_append_left _ (List.mem_append_right _ (List.mem_singleton.mpr rfl)), rfl, rfl, rfl⟩
    obtain ⟨b, hb, hlen, huid, hu⟩ := hP
    exact ⟨u, hexec, .inr ⟨b, hdone, hb, hlen, huid, hu⟩⟩

/-! ## DEBUG_RESPONSE (R394 to R396) -/

/-- A refused response by the failures in a row that it makes. -/
theorem responseRefused_counts {level k f : Nat} {s v : State} (hv : secNote evDebugRefused (w32 level) (w32 k) 0 (bump (0x11C0C + 4 * k) s) = v)
    (hsec : v.sec = s.sec) (hf : (if k = 5 then s.sec.fails + 1 else 0) = f) :
    responseRefused level k s = if f ≥ 3 then secNote evDebugLockout 0 0 0 (bump 0x11C2C (mapSec (fun x => { x with fails := 0, lockUntil := some (v.now + 600000000000) }) v))
      else mapSec (fun x => { x with fails := f }) v := by
  subst hv hf
  unfold responseRefused
  dsimp only
  rw [hsec]

/-- A refused response: recorded, its failures counted, the third in a row at check 5 locks. -/
theorem responseRefused_update (level k : Nat) (s : State) :
    ∃ n i, responseRefused level k s = { s with ctr := n, erc := { s.erc with inbox := i }, sec := { s.sec with fails := (if k = 5 ∧ s.sec.fails < 2 then s.sec.fails + 1 else 0), lockUntil := (if k = 5 ∧ 2 ≤ s.sec.fails then some (s.now + 600000000000) else s.sec.lockUntil) } }
      ∧ (aonUp s = true → ({ code := evDebugRefused, src := 4, p0 := w32 level, p1 := w32 k, p2 := 0, solo := false } : EvIn) ∈ i) := by
  obtain ⟨i, hnote, hmem⟩ := noteEv_event { code := evDebugRefused, src := 16 * Dom.aon.num + 4, p0 := w32 level, p1 := w32 k, p2 := 0, solo := false } (bump (0x11C0C + 4 * k) s)
  have hcounts := fun f => responseRefused_counts (f := f) hnote rfl
  by_cases hk : k = 5
  · by_cases hf : s.sec.fails < 2
    · rw [hcounts _ (if_pos hk), if_neg (by omega), if_pos ⟨hk, hf⟩, if_neg fun h => absurd h.2 (by omega)]
      exact ⟨_, _, rfl, hmem⟩
    · rw [hcounts _ (if_pos hk), if_pos (by omega), if_neg fun h => absurd h.2 hf, if_pos ⟨hk, by omega⟩, secNote, note_update]
      exact ⟨_, _, rfl, fun h => List.mem_append_left _ (hmem h)⟩
  · rw [hcounts _ (if_neg hk), if_neg (by omega), if_neg fun h => absurd h.1 hk, if_neg fun h => absurd h.1 hk]
    exact ⟨_, _, rfl, hmem⟩

/-- What a response answers for the lane it names. -/
def argTarget (c : HostCmd) : Lane := if bitOf c.a0 8 then .y else .x

/-- Whether the bytes of a response are the answer to the challenge that stands. -/
def answersChallenge (c : HostCmd) (b : List Byte) (s : State) : Bool :=
  decide (b.take 16 = debugAnswer s ((s.sec.challenge.map (·.1)).getD []) (fld c.a0 1 0) (argTarget c)) && (slotOf s.sec 0).status = 1

/-- The state after a response has consumed its challenge. -/
def consumed (s : State) : State := mapSec (fun x => { x with challenge := none }) s

theorem effDebugResponse_read (hbuf : c.buf = some b) :
    effDebugResponse c x = match responseCheck x c (fld c.a0 1 0) (argTarget c) (answersChallenge c b x) with
      | some (chk, st) => refuse 0x61 c st (responseRefused (fld c.a0 1 0) chk (consumed x))
      | none => grant c (fld c.a0 1 0) (argTarget c) (bump 0x11C0C (mapSec (fun x => { x with fails := 0 }) (consumed x))) := by
  unfold effDebugResponse
  dsimp only
  rw [hbuf]
  cases responseCheck x c (fld c.a0 1 0) (if bitOf c.a0 8 then Lane.y else Lane.x) true <;> rfl

/-- A response that passes all six checks. -/
def granted (s : State) : State := bump 0x11C0C (mapSec (fun x => { x with fails := 0 }) (consumed s))

/-- D2 for a lane that serves is asked only while the other serves (check 6). -/
theorem serving_of_responseCheck {ok : Bool} {l : Lane} (h : responseCheck s c 2 l ok = none) (hp : s.bsc.power ≠ .safehalt) : serving s l.other = true := by
  by_contra hno
  revert h
  unfold responseCheck
  dsimp only
  have h6 : (decide (2 = 2) && s.bsc.power != .safehalt && (!serving s l.other || (s.lcm.cond.a == .readmission || s.lcm.cond.b == .readmission) || s.bsc.power == .start)) = true := by
    rw [Bool.eq_false_iff.mpr hno, bne_iff_ne.mpr hp]
    rfl
  rw [if_pos h6]
  split_ifs <;> simp

theorem secNote_update (code : Nat) (p0 p1 p2 : Word) (s : State) : ∃ i, secNote code p0 p1 p2 s = { s with erc := { s.erc with inbox := i } } :=
  ⟨_, note_update ..⟩

/-- A D2 unlock of a lane that waits for its retirement (R396). -/
def unlockWaits (c : HostCmd) (l : Lane) (s : State) : State :=
  setKeys l [] (mapSec (fun x => { x with d2 := some (newId s, l), tapAt := s.now }) (accept c 0x61 s))

/-- D2 of a lane that serves beside another: the lane is faulted with check 9, and the grant waits for its retirement. -/
theorem grant_waits {l : Lane} (hlevel : s.sec.level < 2) (hp : s.bsc.power ≠ .safehalt) (hc : s.lcm.cond.lane l = .serving) (ho : serving s l.other = true) :
    ∃ i m, grant c 2 l s = { unlockWaits c l s with erc := { s.erc with inbox := i }, lcm := m } ∧ m.cond = s.lcm.cond.setLane l .failSilent := by
  have hgrant : grant c 2 l s = laneFault l 9 0 (unlockWaits c l s) := by
    unfold grant
    rw [if_neg (not_le.mpr hlevel), if_neg (show (2 : Nat) ≠ 1 by decide), if_neg]
    · rfl
    · rw [hc, beq_eq_false_iff_ne.mpr hp]
      decide
  obtain ⟨why, hfault⟩ := laneFaultAs_serving .lanes (hardCheck 9) none (l := l) 9 0 (s := unlockWaits c l s) hc
  obtain ⟨i, hfall, -⟩ := fallSilent_update (hardCheck 9) none l 9 0 (unlockWaits c l s)
  obtain ⟨cmp, hrel⟩ := releaseAlone_frame l.other (fallSilent (hardCheck 9) none l 9 0 (unlockWaits c l s))
  rw [show serving (unlockWaits c l s) l.other = true from ho, if_pos rfl, hrel, hfall] at hfault
  exact ⟨i, _, hgrant.trans hfault, rfl⟩

/-! ## DEBUG_RESPONSE completed -/

/-- A response that is refused. -/
theorem debugResponse_refused (h : Passes 0x61 c s) (hbuf : c.buf = some b) {k st : Nat}
    (hchk : responseCheck (atTime c.t s) c (fld c.a0 1 0) (argTarget c) (answersChallenge c b s) = some (k, st)) :
    ∃ u, exec (.debugResponse c) s = .next u ∧ Completed 0x61 c st 0 0 s u
      ∧ (aonUp s = true → ({ code := evDebugRefused, src := 4, p0 := w32 (fld c.a0 1 0), p1 := w32 k, p2 := 0, solo := false } : EvIn) ∈ u.erc.inbox)
      ∧ u = { commanded s u with now := c.t, pst := s.pst, sec := { s.sec with challenge := none, fails := (if k = 5 ∧ s.sec.fails < 2 then s.sec.fails + 1 else 0), lockUntil := (if k = 5 ∧ 2 ≤ s.sec.fails then some (c.t + 600000000000) else s.sec.lockUntil) } } := by
  have heff := effDebugResponse_read (x := takeCmd c (atTime c.t s)) hbuf
  rw [show responseCheck (takeCmd c (atTime c.t s)) c (fld c.a0 1 0) (argTarget c) (answersChallenge c b (takeCmd c (atTime c.t s))) = some (k, st) from hchk] at heff
  obtain ⟨n, i, hcounts, hmem⟩ := responseRefused_update (fld c.a0 1 0) k (consumed (takeCmd c (atTime c.t s)))
  exact (taken_classU h rfl).completes (heff.trans (congrArg (refuse 0x61 c st) hcounts)) ⟨rfl, rfl, fun _ _ => rfl, rfl, rfl, rfl⟩ (.of_eq rfl) fun _ _ _ _ => ⟨hmem, rfl⟩

/-- A response that passes. -/
theorem effDebugResponse_passes (hbuf : c.buf = some b) (hchk : responseCheck (atTime c.t s) c (fld c.a0 1 0) (argTarget c) (answersChallenge c b s) = none) :
    effDebugResponse c (takeCmd c (atTime c.t s)) = grant c (fld c.a0 1 0) (argTarget c) (granted (takeCmd c (atTime c.t s))) := by
  have heff := effDebugResponse_read (x := takeCmd c (atTime c.t s)) hbuf
  rw [show responseCheck (takeCmd c (atTime c.t s)) c (fld c.a0 1 0) (argTarget c) (answersChallenge c b (takeCmd c (atTime c.t s))) = none from hchk] at heff
  exact heff

/-- A response at or below the level in force grants nothing more. -/
theorem debugResponse_stands (h : Passes 0x61 c s) (hbuf : c.buf = some b)
    (hchk : responseCheck (atTime c.t s) c (fld c.a0 1 0) (argTarget c) (answersChallenge c b s) = none) (hle : fld c.a0 1 0 ≤ s.sec.level) :
    ∃ u, exec (.debugResponse c) s = .next u ∧ Completed 0x61 c stApplied (w32 (fld c.a0 1 0)) 0 s u
      ∧ u = { commanded s u with now := c.t, pst := s.pst, sec := { s.sec with challenge := none, fails := 0 } } :=
  (taken_classU h rfl).completes (v := granted (takeCmd c (atTime c.t s))) ((effDebugResponse_passes hbuf hchk).trans (if_pos hle)) ⟨rfl, rfl, fun _ _ => rfl, rfl, rfl, rfl⟩ (.of_eq rfl) fun _ _ _ _ => rfl

/-- D1 is granted at once. -/
theorem debugResponse_first (h : Passes 0x61 c s) (hbuf : c.buf = some b)
    (hchk : responseCheck (atTime c.t s) c (fld c.a0 1 0) (argTarget c) (answersChallenge c b s) = none) (hlt : s.sec.level < fld c.a0 1 0) (h1 : fld c.a0 1 0 = 1) :
    ∃ u, exec (.debugResponse c) s = .next u ∧ Completed 0x61 c stApplied 1 0 s u
      ∧ u = { commanded s u with now := c.t, pst := s.pst, sec := { s.sec with challenge := none, fails := 0, level := 1, tapAt := c.t } } := by
  have heff : effDebugResponse c (takeCmd c (atTime c.t s)) = finishNow c 0x61 stApplied 1 0 (unlock 1 s.sec.target (granted (takeCmd c (atTime c.t s)))) :=
    (effDebugResponse_passes hbuf hchk).trans ((if_neg (not_le.mpr hlt)).trans (if_pos h1))
  obtain ⟨i, hi⟩ := secNote_update evDebugUnlock (w32 1) (w32 s.sec.target.num) 0 (mapSec (fun x => { x with level := 1, target := s.sec.target, tapAt := c.t }) (granted (takeCmd c (atTime c.t s))))
  exact (taken_classU h rfl).completes (heff.trans (congrArg (finishNow c 0x61 stApplied 1 0) hi)) ⟨rfl, rfl, fun _ _ => rfl, rfl, rfl, rfl⟩ (.of_eq rfl) fun _ _ _ _ => rfl

/-- D2 is granted at once in SAFEHALT or for a retired lane. -/
theorem debugResponse_second (h : Passes 0x61 c s) (hbuf : c.buf = some b)
    (hchk : responseCheck (atTime c.t s) c (fld c.a0 1 0) (argTarget c) (answersChallenge c b s) = none) (hlt : s.sec.level < fld c.a0 1 0) (h2 : fld c.a0 1 0 = 2)
    (hnow : s.bsc.power = .safehalt ∨ s.lcm.cond.lane (argTarget c) = .retired) :
    ∃ u, exec (.debugResponse c) s = .next u ∧ Completed 0x61 c stApplied 2 0 s u
      ∧ u = { commanded s u with now := c.t, pst := s.pst, net := (setKeys (argTarget c) [] s).net, sec := { s.sec with challenge := none, fails := 0, level := 2, target := argTarget c, tapAt := c.t } } := by
  have hdue : ((granted (takeCmd c (atTime c.t s))).bsc.power == .safehalt || (granted (takeCmd c (atTime c.t s))).lcm.cond.lane (argTarget c) == .retired) = true := by
    rw [Bool.or_eq_true, beq_iff_eq, beq_iff_eq]
    exact hnow
  have heff : effDebugResponse c (takeCmd c (atTime c.t s)) = finishNow c 0x61 stApplied 2 0 (unlock 2 (argTarget c) (setKeys (argTarget c) [] (granted (takeCmd c (atTime c.t s))))) :=
    (effDebugResponse_passes hbuf hchk).trans ((if_neg (not_le.mpr hlt)).trans ((if_neg (by omega)).trans (if_pos hdue)))
  obtain ⟨i, hi⟩ := secNote_update evDebugUnlock (w32 2) (w32 (argTarget c).num) 0
    (mapSec (fun x => { x with level := 2, target := argTarget c, tapAt := c.t }) (setKeys (argTarget c) [] (granted (takeCmd c (atTime c.t s)))))
  exact (taken_classU h rfl).completes (heff.trans (congrArg (finishNow c 0x61 stApplied 2 0) hi)) ⟨rfl, rfl, fun _ _ => rfl, rfl, rfl, rfl⟩ (.of_eq rfl) fun _ _ _ _ => rfl

/-- D2 of a lane that serves waits for its retirement. -/
theorem debugResponse_waits (h : Passes 0x61 c s) (hbuf : c.buf = some b)
    (hchk : responseCheck (atTime c.t s) c (fld c.a0 1 0) (argTarget c) (answersChallenge c b s) = none) (hlt : s.sec.level < fld c.a0 1 0) (h2 : fld c.a0 1 0 = 2)
    (hp : s.bsc.power ≠ .safehalt) (hc : s.lcm.cond.lane (argTarget c) = .serving) :
    ∃ u, exec (.debugResponse c) s = .next u ∧ Accepted 0x61 c s u
      ∧ u.sec = { s.sec with challenge := none, fails := 0, d2 := some (s.hre.nextId + 1, argTarget c), tapAt := c.t }
      ∧ u.lcm.cond.lane (argTarget c) = .failSilent ∧ u.lcm.cond.lane (argTarget c).other = s.lcm.cond.lane (argTarget c).other := by
  have ho : serving (atTime c.t s) (argTarget c).other = true := serving_of_responseCheck (h2 ▸ hchk) hp
  obtain ⟨i, m, hgrant, hcond⟩ := grant_waits (c := c) (l := argTarget c) (s := granted (takeCmd c (atTime c.t s))) (h2 ▸ hlt) hp hc ho
  have heff := effDebugResponse_passes hbuf hchk
  rw [h2, hgrant] at heff
  refine (taken_classU h rfl).accepts heff rfl fun o g => ⟨rfl, ?_, ?_⟩
  · show m.cond.lane _ = _
    rw [hcond]
    exact lane_setLane ..
  · show m.cond.lane _ = _
    rw [hcond]
    exact lane_setLane_other ..

/-! ## The ends of a session (R395) -/

/-- The security state with no session and no unlock that waits. -/
def sessionless (x : SecSt) : SecSt := { x with level := 0, d2 := none }

/-- A level that falls is recorded; without one nothing is. -/
theorem levelEnds_update (why : Nat) (s : State) :
    ∃ i, (if s.sec.level = 0 then s else secNote evDebugEnd (w32 why) 0 0 (mapSec (fun x => { x with level := 0 }) s)) = { s with erc := { s.erc with inbox := i }, sec := { s.sec with level := 0 } } := by
  by_cases h : s.sec.level = 0
  · have hsec : { s.sec with level := 0 } = s.sec := by rw [← h]
    exact ⟨s.erc.inbox, (if_pos h).trans (by rw [hsec])⟩
  · obtain ⟨i, hi⟩ := secNote_update evDebugEnd (w32 why) 0 0 (mapSec (fun x => { x with level := 0 }) s)
    exact ⟨i, (if_neg h).trans hi⟩

/-- A session that ends with no unlock waiting completes nothing. -/
theorem endSession_alone (why : Nat) {s : State} (h : s.sec.d2 = none) : ∃ i, endSession why s = { s with erc := { s.erc with inbox := i }, sec := sessionless s.sec } := by
  obtain ⟨i, hi⟩ := levelEnds_update why s
  have hsec : { s.sec with level := 0 } = sessionless s.sec := by
    rw [sessionless, ← h]
  refine ⟨i, ?_⟩
  rw [← hsec, ← hi]
  unfold endSession
  rw [h]

theorem endSession_update (why : Nat) (s : State) :
    ∃ k i w g h, endSession why s = { s with ctr := k, erc := { s.erc with inbox := i }, out := s.out ++ w, hre := { hreTold s.hre g with out := h }, sec := sessionless s.sec } := by
  rcases hd : s.sec.d2 with - | ⟨id, l⟩
  · obtain ⟨i, hi⟩ := endSession_alone why hd
    exact ⟨s.ctr, i, [], s.hre, s.hre.out, hi.trans (by rw [List.append_nil]; rfl)⟩
  · obtain ⟨k, i, w, g, hfin⟩ := finish_update id stCancelled 0 0 (mapSec (fun x => { x with d2 := none }) s)
    obtain ⟨j, hj⟩ := levelEnds_update why (finish id stCancelled 0 0 (mapSec (fun x => { x with d2 := none }) s))
    refine ⟨k, j, w, g, s.hre.out.filter (fun o => o.id != id), Eq.trans ?_ (hj.trans ?_)⟩
    · unfold endSession
      rw [hd]
    · rw [hfin]
      rfl

theorem debugClose_closes (h : Passes 0x62 c s) (hup : aonUp s = true) :
    ∃ u, exec (.debugClose c) s = .next u ∧ u = { commanded s u with now := c.t, pst := s.pst, sec := { s.sec with level := 0, d2 := none } }
      ∧ (s.sec.d2 = none → Completed 0x62 c stApplied 0 0 s u) := by
  have heff : effDebugClose c (takeCmd c (atTime c.t s)) = finishNow c 0x62 stApplied 0 0 (endSession 0 (takeCmd c (atTime c.t s))) := if_neg (by
    rw [show aonUp (takeCmd c (atTime c.t s)) = true from hup]
    decide)
  by_cases hd : s.sec.d2 = none
  · obtain ⟨i, hend⟩ := endSession_alone 0 (s := takeCmd c (atTime c.t s)) hd
    obtain ⟨u, hexec, hdone, hu⟩ := (taken_classU h rfl).completes (P := fun u => u = { commanded s u with now := c.t, pst := s.pst, sec := { s.sec with level := 0, d2 := none } })
      (heff.trans (congrArg (finishNow c 0x62 stApplied 0 0) hend)) ⟨rfl, rfl, fun _ _ => rfl, rfl, rfl, rfl⟩ (.of_eq rfl) fun _ _ _ _ => rfl
    exact ⟨u, hexec, hu, fun _ => hdone⟩
  · obtain ⟨k, i, w, g, o, hend⟩ := endSession_update 0 (takeCmd c (atTime c.t s))
    have hexec := ((taken_classU h rfl).exec effDebugClose).trans (congrArg settle heff)
    obtain ⟨k', i', w', g', hfin⟩ := cplEmit_update (outOf c 0x62 0) stApplied 0 0 false false (endSession 0 (takeCmd c (atTime c.t s)))
    rw [show finishNow c 0x62 stApplied 0 0 _ = _ from hfin, hend] at hexec
    exact settles hexec fun _ _ => ⟨rfl, fun h => absurd h hd⟩

theorem debugSessionTimeout_due {t : Int} (h : (s.sec.level = 1 ∨ s.sec.level = 2) ∧ 3600000000000 ≤ t - s.sec.tapAt) :
    exec (.debugSessionTimeout t) s = settle (endSession 1 (atTime t s)) := by
  refine if_pos ?_
  rw [Bool.and_eq_true, Bool.or_eq_true, decide_eq_true_eq, decide_eq_true_eq, decide_eq_true_eq]
  exact h

theorem debugSessionTimeout_waits {t : Int} (h : ¬ ((s.sec.level = 1 ∨ s.sec.level = 2) ∧ 3600000000000 ≤ t - s.sec.tapAt)) :
    exec (.debugSessionTimeout t) s = settle (atTime t s) := by
  refine if_neg ?_
  rw [Bool.and_eq_true, Bool.or_eq_true, decide_eq_true_eq, decide_eq_true_eq, decide_eq_true_eq]
  exact h

theorem debugLockoutEnd_ends {t a : Int} (h : s.sec.lockUntil = some a) :
    ∃ u, exec (.debugLockoutEnd t) s = .next u ∧ u = { shown s u with now := t, sec := { s.sec with lockUntil := if a ≤ t then none else some a } } := by
  by_cases hle : a ≤ t
  · rw [if_pos hle]
    refine settles (if_pos ?_) fun o g => rfl
    rw [show (atTime t s).sec.lockUntil = some a from h]
    exact decide_eq_true hle
  · rw [if_neg hle]
    have hsec : { s.sec with lockUntil := some a } = s.sec := by rw [← h]
    rw [hsec]
    refine settles (if_neg ?_) fun o g => rfl
    rw [show (atTime t s).sec.lockUntil = some a from h, Option.any_some, decide_eq_true_eq]
    exact hle

theorem debugLockoutEnd_none {t : Int} (h : s.sec.lockUntil = none) : exec (.debugLockoutEnd t) s = settle (atTime t s) :=
  if_neg (by rw [show (atTime t s).sec.lockUntil = none from h]; exact Bool.false_ne_true)

end

/-- Settles O48: what a challenge, a response, a close and the two timers do with the debug level. -/
theorem debugNeedsAChallengeAnswered : Obligations.DebugNeedsAChallengeAnswered := by
  unfold Obligations.DebugNeedsAChallengeAnswered
  refine ⟨fun c s h => ⟨fun hup hopen => debugChallenge_answers h hup hopen, fun hup hlock => ?locked, fun hlost => ?lost⟩, fun c b s h hbuf => ?response,
    fun c s h hup => debugClose_closes h hup, fun t s => ⟨fun h => ?idle, fun h => settles (debugSessionTimeout_waits h) fun o g => rfl,
      fun a h => debugLockoutEnd_ends h, fun h => settles (debugLockoutEnd_none h) fun o g => rfl⟩⟩
  case locked =>
    obtain ⟨a, ha, hlt⟩ := hlock
    exact (taken_classU h rfl).completes (effDebugChallenge_locked hup ha hlt) (.refl _) (.of_eq rfl) fun _ _ _ _ => rfl
  case lost =>
    exact (taken_classU h rfl).completes (effDebugChallenge_lost hlost) (.refl _) (.of_eq rfl) fun _ _ _ _ => rfl
  case response =>
    exact ⟨fun k st hchk => debugResponse_refused h hbuf hchk, fun hchk hle => debugResponse_stands h hbuf hchk hle, fun hchk hlt h1 => debugResponse_first h hbuf hchk hlt h1,
      fun hchk hlt h2 hnow => debugResponse_second h hbuf hchk hlt h2 hnow, fun hchk hlt h2 hp hc => debugResponse_waits h hbuf hchk hlt h2 hp hc⟩
  case idle =>
    obtain ⟨k, i, w, g, o, hend⟩ := endSession_update 1 (atTime t s)
    exact settles ((debugSessionTimeout_due h).trans (congrArg settle hend)) fun _ _ => rfl

end Sys2Proof.Proofs
end

section
/-!
PROOFS. The lifecycle and attestation (R382, R390, R395, R400).
-/

namespace Sys2Proof.Proofs
open Sys2Proof.Machine Sys2Proof.Laws

section
variable {c : HostCmd} {s x : State} {new : Nat}

/-! ## LIFECYCLE_SET (R382) -/

/-- A change of lifecycle state ends the session and is recorded. -/
theorem setLifecycle_update (new : Nat) (s : State) :
    ∃ k i w g h, setLifecycle new (endSession 2 s) = { s with ctr := k, erc := { s.erc with inbox := i }, out := s.out ++ w, hre := { hreTold s.hre g with out := h }, sec := { sessionless s.sec with lifecycle := new } }
      ∧ (aonUp s = true → ({ code := evLifecycle, src := 4, p0 := w32 s.sec.lifecycle, p1 := w32 new, p2 := 0, solo := false } : EvIn) ∈ i) := by
  obtain ⟨k, i, w, g, h, hend⟩ := endSession_update 2 s
  obtain ⟨j, hnote, hmem⟩ := noteEv_event { code := evLifecycle, src := 4, p0 := w32 s.sec.lifecycle, p1 := w32 new, p2 := 0, solo := false }
    (mapSec (fun x => { x with lifecycle := new }) { s with ctr := k, erc := { s.erc with inbox := i }, out := s.out ++ w, hre := { hreTold s.hre g with out := h }, sec := sessionless s.sec })
  exact ⟨k, j, w, g, h, by rw [hend]; exact hnote, hmem⟩

/-- The security state that a permitted transition leaves. -/
def moved (new : Nat) (s : State) (x : SecSt) : SecSt :=
  { x with txGen := (if new = 2 then regF s 0x9018 1 0 else x.txGen), rxMask := (if new = 2 then regF s 0x9018 7 4 else x.rxMask),
           fdCount := (if new = 4 then x.fdCount + 1 else x.fdCount) }

/-- FIELD_DEBUG is entered from FIELD alone. -/
theorem lifecycle_of_fieldDebug (h : lifecycleOk s 4 = true) : s.sec.lifecycle = 3 := by
  unfold lifecycleOk at h
  split at h <;> simp_all

/-- The keys are taken on entering OPERATIONAL, an entry of FIELD_DEBUG is counted. -/
theorem moved_eq (was : Nat) (hwas : new = 4 → was = 3) (s : State) :
    (let v := if new = 2 then takeKeys s else s
     if (was = 3 && new = 4) = true then mapSec (fun x => { x with fdCount := x.fdCount + 1 }) v else v) = { s with sec := moved new s s.sec } := by
  by_cases h4 : new = 4
  · rw [hwas h4]
    subst h4
    rfl
  · have hstay : ¬ ((was = 3 && new = 4) = true) := by
      rw [Bool.and_eq_true, decide_eq_true_eq, decide_eq_true_eq]
      exact fun h => h4 h.2
    dsimp only
    rw [if_neg hstay]
    unfold moved
    rw [if_neg h4]
    by_cases h2 : new = 2
    · rw [if_pos h2, if_pos h2, if_pos h2]
      rfl
    · rw [if_neg h2, if_neg h2, if_neg h2]

theorem Examined.lifecycleOk (h : Examined c s x) (new : Nat) : lifecycleOk x new = Machine.lifecycleOk s new := by
  obtain ⟨_, _, _, _, _, hx⟩ := h.update
  rw [hx]
  rfl

theorem effLifecycleSet_moves (hok : lifecycleOk x (fld c.a0 2 0) = true) (hnew : fld c.a0 2 0 ≠ 5) {v : State} (hv : setLifecycle (fld c.a0 2 0) (endSession 2 x) = v) :
    effLifecycleSet c x = finishNow c 0x63 stApplied (w32 (fld c.a0 2 0)) 0 { v with sec := moved (fld c.a0 2 0) v v.sec } := by
  subst hv
  refine (if_neg (by rw [hok]; decide)).trans ((if_neg hnew).trans ?_)
  rw [← moved_eq x.sec.lifecycle fun h4 => lifecycle_of_fieldDebug (h4 ▸ hok)]

theorem lifecycleSet_moves (hx : Taken 0x63 c s x) (hok : lifecycleOk s (fld c.a0 2 0) = true) (hnew : fld c.a0 2 0 ≠ 5) :
    ∃ u, exec (.lifecycleSet c) s = .next u
      ∧ (∃ a, .hostWrite a (wordsBytes (cplWords (atTime c.t s) (outOf c 0x63 0) stApplied (w32 (fld c.a0 2 0)) 0 false false)) ∈ u.out)
      ∧ (aonUp s = true → ({ code := evLifecycle, src := 4, p0 := w32 s.sec.lifecycle, p1 := w32 (fld c.a0 2 0), p2 := 0, solo := false } : EvIn) ∈ u.erc.inbox)
      ∧ u.sec = { moved (fld c.a0 2 0) s { sessionless s.sec with lifecycle := fld c.a0 2 0 } with cLast := u.sec.cLast }
      ∧ u = { commanded s u with now := c.t, sec := u.sec } := by
  obtain ⟨k, i, w, g, h, hv, hmem⟩ := setLifecycle_update (fld c.a0 2 0) x
  have heff := effLifecycleSet_moves ((hx.lifecycleOk _).trans hok) hnew hv
  generalize hy : ({ x with ctr := k, erc := { x.erc with inbox := i }, out := x.out ++ w, hre := { hreTold x.hre g with out := h }, sec := { sessionless x.sec with lifecycle := fld c.a0 2 0 } } : State) = y at heff
  have hsame : SameForCpl x { y with sec := moved (fld c.a0 2 0) y y.sec } := by subst hy; exact ⟨rfl, rfl, fun _ _ => rfl, rfl, rfl, rfl⟩
  have hrun : hreRun { y with sec := moved (fld c.a0 2 0) y y.sec } = true := by subst hy; exact hx.run
  have hcan : hostCan { y with sec := moved (fld c.a0 2 0) y y.sec } = true := by subst hy; exact hx.can
  obtain ⟨n, g', hdone⟩ := cplEmit_runs_update (outOf c 0x63 0) stApplied (w32 (fld c.a0 2 0)) 0 false false hrun hcan
  rw [(hx.same.trans hsame).cplWords] at hdone
  have hexec := (hx.exec effLifecycleSet).trans (congrArg settle (heff.trans hdone))
  have hregF : ∀ o hi lo, regF y o hi lo = regF s o hi lo := fun o hi lo => by
    rw [← hx.regF, ← hy]
    rfl
  obtain ⟨k', n', i', l, q, hu⟩ := hx.update
  have hq := hx.reserve
  subst hy
  refine settles hexec fun o g'' => ⟨⟨_, List.mem_append_left _ (List.mem_append_right _ (List.mem_singleton.mpr rfl))⟩, fun hup => ?_, ?_, ?_⟩
  · have hsaid := hmem (by rw [hu]; exact hup)
    rw [show x.sec.lifecycle = s.sec.lifecycle by rw [hu]] at hsaid
    exact hsaid
  · simp only [moved, hregF]
    subst hu
    rfl
  · subst hu
    exact with_reserve _ hq

theorem effLifecycleSet_ends (hok : lifecycleOk x (fld c.a0 2 0) = true) (hnew : fld c.a0 2 0 = 5) {v : State} (hv : setLifecycle (fld c.a0 2 0) (endSession 2 x) = v) :
    effLifecycleSet c x = mapSec (fun y => { y with decom := some (newId v) }) (accept c 0x63 v) := by
  subst hv
  exact (if_neg (by rw [hok]; decide)).trans (if_pos hnew)

theorem lifecycleSet_ends (hx : Taken 0x63 c s x) (hok : lifecycleOk s (fld c.a0 2 0) = true) (hnew : fld c.a0 2 0 = 5) :
    ∃ u, exec (.lifecycleSet c) s = .next u ∧ u.sec = { sessionless s.sec with lifecycle := fld c.a0 2 0, cLast := u.sec.cLast, decom := some (s.hre.nextId + 1) }
      ∧ outOf c 0x63 (s.hre.nextId + 1) ∈ u.hre.out
      ∧ (aonUp s = true → ({ code := evLifecycle, src := 4, p0 := w32 s.sec.lifecycle, p1 := w32 (fld c.a0 2 0), p2 := 0, solo := false } : EvIn) ∈ u.erc.inbox)
      ∧ u = { commanded s u with now := c.t, sec := u.sec } := by
  obtain ⟨k, i, w, g, h, hv, hmem⟩ := setLifecycle_update (fld c.a0 2 0) x
  obtain ⟨k', n', i', l, q, hu⟩ := hx.update
  have hq := hx.reserve
  refine settles ((hx.exec effLifecycleSet).trans (congrArg settle (effLifecycleSet_ends ((hx.lifecycleOk _).trans hok) hnew hv))) fun o g' => ⟨?_, ?_, fun hup => ?_, ?_⟩
  · subst hu
    rfl
  · have hid : x.hre.nextId = s.hre.nextId := by rw [hu]
    exact List.mem_append_right _ (List.mem_singleton.mpr (by rw [← hid]; rfl))
  · have hsaid := hmem (by rw [hu]; exact hup)
    rw [show x.sec.lifecycle = s.sec.lifecycle by rw [hu]] at hsaid
    exact hsaid
  · subst hu
    exact with_reserve _ hq

/-! ## ATTEST (R390) -/

theorem bankHash_update (s : State) : ∃ n, (bankHash s).2 = { s with free := n } := by
  unfold bankHash
  split
  · exact ⟨s.free, rfl⟩
  · exact ⟨s.free + 32, rfl⟩

/-- The report that ATTEST forms, less its signature. -/
def attestBody (c : HostCmd) (s : State) : List Byte :=
  let s' := (bankHash s).2
  natBytes 4 0x00014154 ++ natBytes 8 Config.uid.toNat ++ wordBytes c.a0 ++ natBytes 8 (curRound s') ++ natBytes 4 (attestBits s')
    ++ wordBytes (topoGen s' (curRound s')) ++ (bankHash s).1 ++ (List.range 32).map Config.romHash

theorem effAttest_up (h : aonUp x = true) : effAttest c x =
    finishNow c 0x64 stApplied 160 0 (hostWrite (argBuf c) (attestBody c x ++ ecdsaSign identityKey (sha256 (attestBody c x))) (bankHash x).2) :=
  if_neg (by rw [h]; decide)

theorem attest_reports (h : Passes 0x64 c s) (hup : aonUp s = true) :
    ∃ u, exec (.attest c) s = .next u ∧ Completed 0x64 c stApplied 160 0 s u ∧ ∃ body, .hostWrite (argBuf c) (body ++ ecdsaSign identityKey (sha256 body)) ∈ u.out
      ∧ body.take 16 = natBytes 4 0x00014154 ++ natBytes 8 Config.uid.toNat ++ wordBytes c.a0
      ∧ u = { commanded s u with now := c.t, sec := s.sec, pst := s.pst, erc := s.erc, free := u.free } := by
  obtain ⟨n, hn⟩ := bankHash_update (takeCmd c (atTime c.t s))
  obtain ⟨hrun, hcan⟩ := can_of_examinable h.1
  have heff := effAttest_up (c := c) (x := takeCmd c (atTime c.t s)) hup
  generalize hbody : attestBody c (takeCmd c (atTime c.t s)) = body at heff
  have hwrite : hostWrite (argBuf c) (body ++ ecdsaSign identityKey (sha256 body)) { takeCmd c (atTime c.t s) with free := n } = _ := if_pos (by
    show (hostCan (atTime c.t s) && hreRun (atTime c.t s)) = true
    rw [hrun, hcan]
    rfl)
  rw [hn, hwrite] at heff
  refine (taken_classU h rfl).completes heff ⟨rfl, rfl, fun _ _ => rfl, rfl, rfl, rfl⟩ (.of_eq rfl)
    fun k o g g' => ⟨body, List.mem_append_left _ (List.mem_append_right _ (List.mem_singleton.mpr rfl)), by rw [← hbody]; rfl, rfl⟩

end

/-- Settles O49: what LIFECYCLE_SET does with a transition that is permitted or not, and what ATTEST reports. -/
theorem lifecycleMovesOnlyWherePermitted : Obligations.LifecycleMovesOnlyWherePermitted := by
  unfold Obligations.LifecycleMovesOnlyWherePermitted
  refine ⟨fun c s h => ?transition, fun c s h => ⟨fun hup => ?report, fun hlost => ?lost⟩⟩
  case transition =>
    obtain ⟨x, hx, -⟩ := taken_of_passes h
    refine ⟨fun hok hnew => ?_, lifecycleSet_ends hx, fun hno => hx.refuses (if_pos (by rw [hx.lifecycleOk, hno]; rfl))⟩
    obtain ⟨u, hexec, ⟨a, hwritten⟩, hsaid, hsec, hu⟩ := lifecycleSet_moves hx hok hnew
    exact ⟨u, a, hexec, hwritten, hsaid, hsec, hu⟩
  case report =>
    obtain ⟨u, hexec, hdone, body, hwritten, hhead, hu⟩ := attest_reports h hup
    exact ⟨u, body, hexec, hdone, hwritten, hhead, hu⟩
  case lost =>
    exact (taken_classU h rfl).completes (v := takeCmd c (atTime c.t s)) (if_pos (by rw [show aonUp (takeCmd c (atTime c.t s)) = false from hlost]; rfl)) (.refl _) (.of_eq rfl) fun _ _ _ _ => rfl

end Sys2Proof.Proofs
end

section
/-!
PROOFS. What reporting and cancelling leave as it is; both lanes faulted (R198, R199, R201); the test access port (R385, R392, R393).
-/

namespace Sys2Proof.Proofs
open Sys2Proof.Machine Sys2Proof.Laws

/-! ## What only reports, cancels and ends streams -/

/-- The device's control, its domains, store and registers stand, and every event on its way stays on its way. -/
structure Stays (s u : State) : Prop where
  bsc : u.bsc = s.bsc
  lcm : u.lcm = s.lcm
  sec : u.sec = s.sec
  dom : u.dom = s.dom
  pst : u.pst = s.pst
  regs : u.regs = s.regs
  inbox : s.erc.inbox ⊆ u.erc.inbox

section
variable {s t u : State}

theorem Stays.refl (s : State) : Stays s s := ⟨rfl, rfl, rfl, rfl, rfl, rfl, List.Subset.refl _⟩

theorem Stays.trans (h : Stays s t) (k : Stays t u) : Stays s u :=
  ⟨k.bsc.trans h.bsc, k.lcm.trans h.lcm, k.sec.trans h.sec, k.dom.trans h.dom, k.pst.trans h.pst, k.regs.trans h.regs, List.Subset.trans h.inbox k.inbox⟩

/-- A later part leaves what the earlier one does. -/
theorem Stays.after (k : Stays t u) (h : Stays s t) : Stays s u := h.trans k

theorem Stays.foldl {α : Type} {f : State → α → State} (h : ∀ s a, Stays s (f s a)) (l : List α) (s : State) : Stays s (l.foldl f s) := by
  induction l generalizing s with
  | nil => exact .refl s
  | cons a l ih => exact (h s a).trans (ih (f s a))

/-- What changes none of these changes no event either. -/
theorem Stays.of_eq (hb : u.bsc = s.bsc) (hl : u.lcm = s.lcm) (hs : u.sec = s.sec) (hd : u.dom = s.dom) (hp : u.pst = s.pst) (hr : u.regs = s.regs)
    (he : u.erc = s.erc) : Stays s u := ⟨hb, hl, hs, hd, hp, hr, by rw [he]; exact List.Subset.refl _⟩

theorem note_stays (code : Nat) (d : Dom) (b : Nat) (p0 p1 p2 : Word) (s : State) : Stays s (note code d b p0 p1 p2 s) := by
  rw [note_update]
  exact ⟨rfl, rfl, rfl, rfl, rfl, rfl, List.subset_append_left _ _⟩

theorem finish_stays (id st : Nat) (r0 r1 : Word) (s : State) : Stays s (finish id st r0 r1 s) := by
  have hinbox := (finish_stands .x id st r0 r1 s).inbox
  obtain ⟨_, _, _, _, h⟩ := finish_update id st r0 r1 s
  rw [h] at hinbox ⊢
  exact ⟨rfl, rfl, rfl, rfl, rfl, rfl, hinbox⟩

theorem cancelIds_stays (ids : List Nat) (s : State) : Stays s (cancelIds ids s) := .foldl (fun s i => finish_stays i stCancelled 0 0 s) ids s

theorem mapFch_stays (i : Fch) (f : FchSt → FchSt) (s : State) : Stays s (mapFch i f s) := by
  cases i <;> exact .of_eq rfl rfl rfl rfl rfl rfl rfl

theorem fsyncPart_stays (id inst st : Nat) (ny : Int) (s : State) : Stays s (fsyncPart id inst st ny s) := by
  unfold fsyncPart
  split
  · exact .refl s
  · extract_lets f rest
    split
    · split <;> exact .after (finish_stays ..) (.of_eq rfl rfl rfl rfl rfl rfl rfl)
    · exact .of_eq rfl rfl rfl rfl rfl rfl rfl

theorem syncCancel_stays (i : Fch) (r : SyncReq) (s : State) : Stays s (syncCancel i r s) := by
  unfold syncCancel
  split
  · exact fsyncPart_stays ..
  · split
    · exact note_stays ..
    · exact .refl s

theorem syncsCancel_stays (i : Fch) (rs : List SyncReq) (s : State) : Stays s (rs.foldl (fun s r => syncCancel i r s) s) :=
  .foldl (fun s r => syncCancel_stays i r s) rs s

theorem cancelWaiting_stays (i : Fch) (s : State) : Stays s (cancelWaiting i s) := by
  unfold cancelWaiting
  dsimp only
  have h := (mapFch_stays i (fun x => { x with syncs := [], swap := none }) s).trans (syncsCancel_stays i (fchOf s i).syncs _)
  split
  · exact h.trans (finish_stays ..)
  · exact h

theorem toStr_stays (b : Block) (s : State) : Stays s (toStr b s) := by
  unfold toStr
  refine .foldl (fun s n => ?_) _ s
  dsimp only
  split
  · exact .of_eq rfl rfl rfl rfl rfl rfl rfl
  · exact .refl s

/-- An output ended, its next block to carry RESTART. -/
theorem endOutput_stays (d : Nat) (s : State) : Stays s (endOutput d (flagDef d s)) := by
  refine .after (toStr_stays ..) ?_
  unfold flagDef
  dsimp only
  split <;> exact .of_eq rfl rfl rfl rfl rfl rfl rfl

theorem zonePoint_stays (i : Fch) (kind : Nat) (n t : Int) (lt : Bool) (s : State) : Stays s (zonePoint i kind n t lt s) := by
  unfold zonePoint
  dsimp only
  split
  · exact .trans (.foldl (fun s d => endOutput_stays d s) _ s) (mapFch_stays ..)
  · exact mapFch_stays ..

theorem endChain_stays (i : Fch) (n : Option Int) (t : Int) (s : State) : Stays s (endChain i n t s) := by
  have hend : ∀ (k t : Int) (lt : Bool) (u : State), Stays u (zonePoint i 2 k t lt (cancelWaiting i (mapFch i (fun x => { x with endAt := none }) u))) :=
    fun k t lt u => ((mapFch_stays ..).trans (cancelWaiting_stays ..)).trans (zonePoint_stays ..)
  unfold endChain
  extract_lets x last y meets swaps v w z
  have hw : Stays s w := (mapFch_stays ..).trans (syncsCancel_stays ..)
  have hz : Stays s z := by
    unfold z
    split
    · split
      · exact hw
      · exact hw.trans (finish_stays ..)
    · exact hw
  split
  · split
    · exact hz.trans (hend ..)
    · exact hz
  · split
    · exact hz.trans (hend ..)
    · exact hz
  · exact hz

/-! ## The halt keeps the store's words (R363) -/

theorem orderBand_update (d : Dom) (b : Nat) (s : State) : ∃ m k, orderBand d b s = { s with dom := m, ctr := k } := by
  unfold orderBand
  dsimp only
  split <;> exact ⟨_, _, rfl⟩

theorem setFloor_pst (d : Dom) (f : Nat) (s : State) : (setFloor d f s).pst = s.pst := by
  obtain ⟨m, k, h⟩ := setFloor_update d f s
  rw [h]

theorem stopPort_pst (p : Port) (run : Nat) (s : State) : (stopPort p run s).pst = s.pst := by
  unfold stopPort
  dsimp only
  rw [setFloor_pst]
  exact ((endChain_stays ..).trans (note_stays ..)).pst

theorem haltPort_pst (p : Port) (s : State) : (haltPort p s).pst = s.pst := by
  unfold haltPort
  extract_lets x n u v w
  split
  · rfl
  have hu : Stays s u := by
    unfold u; split
    · exact finish_stays ..
    · exact .refl s
  have hv : Stays u v := by
    unfold v; split
    · exact finish_stays ..
    · exact .refl u
  have hw : Stays v w := by
    unfold w; split
    · exact finish_stays ..
    · exact .refl v
  refine (stopPort_pst ..).trans ?_
  unfold cancelRequests
  exact ((cancelIds_stays _ _).pst :).trans (hu.trans (hv.trans hw)).pst

theorem laneCommandsCancel_stays (s : State) : Stays s (laneCommandsCancel s) := by
  unfold laneCommandsCancel cancelAll
  exact .after (.foldl (fun s (o : OutCmd) => finish_stays o.id stCancelled 0 0 s) _ _) (.of_eq rfl rfl rfl rfl rfl rfl rfl)

theorem topoCancel_words (s : State) : (topoCancel s).pst.words = s.pst.words := by
  unfold topoCancel
  split
  · rfl
  case _ w _ =>
    rw [(finish_stays ..).pst]
    unfold setBankState
    cases w.bank <;> rfl

theorem setDom_pst (d : Dom) (st : DState) (s : State) : (setDom d st s).pst = s.pst := by cases d <;> rfl

theorem holdDoms_pst (ds : List Dom) (s : State) : (ds.foldl (fun s d => holdDom d s) s).pst = s.pst := by
  induction ds generalizing s with
  | nil => rfl
  | cons d ds ih =>
    refine (ih _).trans ?_
    dsimp only
    unfold holdDom
    split
    · exact setDom_pst ..
    · rfl

theorem halted_words (s : State) : (halted s).pst.words = s.pst.words := by
  unfold halted
  rw [holdDoms_pst, topoCancel_words, (laneCommandsCancel_stays _).pst, haltPort_pst, haltPort_pst]

/-! ## Faults of lanes (R189, R198 to R201) -/

/-- A fault puts no lane into service, and leaves the power state or halts the device; the keys and the store's words stand. -/
structure Halts (s u : State) : Prop where
  power : u.bsc.power = s.bsc.power ∨ u.bsc.power = .safehalt
  silent : ∀ m, s.lcm.cond.lane m ≠ .serving → u.lcm.cond.lane m ≠ .serving
  slots : u.sec.slots = s.sec.slots
  words : u.pst.words = s.pst.words
  iAvg : u.bsc.iAvg = s.bsc.iAvg
  tj : u.bsc.tj = s.bsc.tj

theorem Halts.trans (h : Halts s t) (k : Halts t u) : Halts s u := by
  refine ⟨?_, fun m hm => k.silent m (h.silent m hm), k.slots.trans h.slots, k.words.trans h.words, k.iAvg.trans h.iAvg, k.tj.trans h.tj⟩
  obtain hp | hp := k.power
  · rw [hp]
    exact h.power
  · exact .inr hp

/-- What changes none of these. -/
theorem Halts.of_eq (hb : u.bsc = s.bsc) (hc : u.lcm.cond = s.lcm.cond) (hs : u.sec.slots = s.sec.slots) (hw : u.pst.words = s.pst.words) : Halts s u :=
  ⟨.inl (by rw [hb]), fun m hm => by rw [hc]; exact hm, hs, hw, by rw [hb], by rw [hb]⟩

theorem Halts.refl (s : State) : Halts s s := .of_eq rfl rfl rfl rfl

theorem Stays.halts (h : Stays s u) : Halts s u := .of_eq h.bsc (by rw [h.lcm]) (by rw [h.sec]) (by rw [h.pst])

theorem Halts.foldl {α : Type} {f : State → α → State} (h : ∀ s a, Halts s (f s a)) (l : List α) (s : State) : Halts s (l.foldl f s) := by
  induction l generalizing s with
  | nil => exact .refl s
  | cons a l ih => exact (h s a).trans (ih (f s a))

theorem setCond_halts {c : LaneCond} (hc : c ≠ .serving) (l : Lane) (s : State) : Halts s (setCond l c s) := by
  refine ⟨.inl rfl, fun m hm => ?_, rfl, rfl, rfl, rfl⟩
  rw [setCond_lcm]
  by_cases h : m = l
  · subst h
    rw [lane_setLane]
    exact hc
  · rw [lane_setLane_ne _ _ h]
    exact hm

theorem enterHalt_power {cause : HaltCause} {s : State} (hoff : s.bsc.power ≠ .off) (hstandby : s.bsc.power ≠ .standby) : (enterHalt cause s).bsc.power = .safehalt := by
  unfold enterHalt
  split
  case isTrue h =>
    simp only [Bool.or_eq_true, beq_iff_eq] at h
    exact (h.resolve_right hstandby).resolve_right hoff
  case isFalse => rw [setPower_frame]

theorem enterHalt_eq {cause : HaltCause} {s : State} (h : ¬ (s.bsc.power == .safehalt || s.bsc.power == .off || s.bsc.power == .standby) = true) :
    enterHalt cause s = setPower .safehalt { halted s with bsc := { (halted s).bsc with halt := cause } } := by
  unfold enterHalt halted
  rw [if_neg h]

theorem enterHalt_halts (cause : HaltCause) (s : State) : Halts s (enterHalt cause s) := by
  by_cases h : (s.bsc.power == .safehalt || s.bsc.power == .off || s.bsc.power == .standby) = true
  · rw [enterHalt, if_pos h]
    exact .refl s
  · have hcontrol := halted_control s
    have hwords := halted_words s
    rw [enterHalt_eq h, setPower_frame]
    generalize halted s = u at hcontrol hwords
    exact ⟨.inr rfl, fun m hm => by rw [← hcontrol.lcm] at hm; exact hm, congrArg SecSt.slots hcontrol.sec, hwords, (congrArg BscSt.iAvg hcontrol.bsc :),
      (congrArg BscSt.tj hcontrol.bsc :)⟩

theorem openTarget_halts (l : Lane) (s : State) : Halts s (openTarget l s) := by
  unfold openTarget
  split
  · split
    · refine .trans ?_ (finish_stays ..).halts
      refine .trans ?_ (note_stays ..).halts
      exact .of_eq rfl rfl rfl rfl
    · exact .refl s
  · exact .refl s

theorem dropDiag_halts (l : Lane) (s : State) : Halts s (dropDiag l s) := by
  unfold dropDiag
  split <;> exact .of_eq rfl rfl rfl rfl

theorem setDom_halts (d : Dom) (st : DState) (s : State) : Halts s (setDom d st s) := by cases d <;> exact .of_eq rfl rfl rfl rfl

theorem raiseFloor_halts (d : Dom) (f : Nat) (s : State) : Halts s (raiseFloor d f s) := by
  obtain ⟨m, k, h, -⟩ := raiseFloor_states d f s
  rw [h]
  exact .of_eq rfl rfl rfl rfl

theorem startReadmit_halts (l : Lane) (id : Option Nat) (s : State) : Halts s (startReadmit l id s) := by
  unfold startReadmit
  extract_lets noted r lcm readied cleared
  have hreadied : Halts s readied := by
    have hnoted : Halts s noted := (note_stays ..).halts
    refine .trans (hnoted.trans ?_) (setCond_halts (c := .readmission) (by decide) ..)
    exact .of_eq rfl rfl rfl rfl
  have hcleared : Halts readied cleared := by
    refine .trans ?_ (dropDiag_halts ..)
    exact .of_eq rfl rfl rfl rfl
  clear_value cleared
  refine (hreadied.trans hcleared).trans ?_
  split
  · exact (setDom_halts ..).trans (.of_eq rfl rfl rfl rfl)
  · exact (setDom_halts ..).trans (raiseFloor_halts ..)

theorem holdDom_halts (d : Dom) (s : State) : Halts s (holdDom d s) := by
  unfold holdDom
  split
  · exact setDom_halts ..
  · exact .refl s

theorem retireLane_halts (l : Lane) (s : State) : Halts s (retireLane l s) := by
  unfold retireLane
  split
  · exact .refl s
  case _ f _ =>
  extract_lets reported counted recent lcm recorded held floored finished opened
  have hcounted : Halts s counted := (note_stays ..).halts.trans (.of_eq rfl rfl rfl rfl)
  have hrecorded : Halts counted recorded := .of_eq rfl rfl rfl rfl
  have hheld : Halts counted held := hrecorded.trans ((setCond_halts (c := .retired) (by decide) ..).trans (holdDom_halts ..))
  have hfloored : Halts held floored := by
    unfold floored
    split
    · obtain ⟨m, k, h⟩ := orderBand_update l.dom 0 held
      rw [h]
      exact .of_eq rfl rfl rfl rfl
    · exact .of_eq rfl rfl rfl rfl
  have hfinished : Halts floored finished := by
    unfold finished
    split
    · exact (finish_stays ..).halts
    · exact .refl _
  have hopened : Halts s opened := hcounted.trans (hheld.trans (hfloored.trans (hfinished.trans (openTarget_halts ..))))
  split
  · exact hopened.trans (startReadmit_halts ..)
  · exact hopened

theorem readmitEnd_halts (l : Lane) (check : Nat) (hard : Bool) (s : State) : Halts s (readmitEnd l check hard s) := by
  unfold readmitEnd
  split
  · exact .refl s
  case _ r _ =>
  extract_lets reported finished lcm ended
  have hfinished : Halts reported finished := by
    unfold finished
    split
    · exact (finish_stays ..).halts
    · exact .refl _
  have hended : Halts finished ended := .of_eq rfl rfl rfl rfl
  exact ((note_stays ..).halts.trans hfinished).trans (hended.trans ((setCond_halts (c := .failSilent) (by decide) ..).trans (retireLane_halts ..)))

theorem readmitBreak_halts (l : Lane) (s : State) : Halts s (readmitBreak l s) := by
  unfold readmitBreak
  split
  · exact .refl s
  · refine .trans ?_ (readmitEnd_halts ..)
    exact .of_eq rfl rfl rfl rfl

/-- Both lanes fall silent. -/
theorem hushed_silent (s : State) (m : Lane) : (bothLanes.foldl hush s).lcm.cond.lane m ≠ .serving := by
  obtain ⟨-, -, hx, -⟩ := hush_cases s .x
  obtain ⟨-, -, hy, hother⟩ := hush_cases (hush s .x) .y
  cases m
  · exact fun h => hx ((hother .x (by decide)).symm.trans h)
  · exact hy

theorem hush_halts (s : State) (l : Lane) : Halts s (hush s l) := by
  unfold hush
  split
  · exact setCond_halts (c := .failSilent) (by decide) ..
  · exact .refl s

/-- A device without a lane that serves. -/
structure Halted (s u : State) : Prop extends Halts s u where
  silenced : ∀ m, u.lcm.cond.lane m ≠ .serving
  safe : s.bsc.power ≠ .off → s.bsc.power ≠ .standby → u.bsc.power = .safehalt

/-- The last step of a halt enters SAFEHALT. -/
theorem Halted.of_enters {cause : HaltCause} (h : Halts s t) (hsilent : ∀ m, t.lcm.cond.lane m ≠ .serving) : Halted s (enterHalt cause t) := by
  refine { h.trans (enterHalt_halts cause t) with silenced := fun m => (enterHalt_halts cause t).silent m (hsilent m), safe := fun hoff hstandby => ?_ }
  obtain hp | hp := h.power
  · exact enterHalt_power (by rw [hp]; exact hoff) (by rw [hp]; exact hstandby)
  · exact enterHalt_power (by rw [hp]; decide) (by rw [hp]; decide)

theorem lanesHaltAs_halted (cause : HaltCause) (why : Nat) (s : State) : Halted s (lanesHaltAs cause why s) := by
  have hhushed : Halts s (bothLanes.foldl hush s) := .foldl hush_halts _ s
  have hsilent := hushed_silent s
  show Halted s (enterHalt cause (note evLanesHalt (bothLanes.foldl (fun s l => readmitBreak l s) (bothLanes.foldl hush s)).lcm.lead.dom 2 (w32 why) 0 0
    (bothLanes.foldl (fun s l => readmitBreak l s) (bothLanes.foldl hush s))))
  generalize bothLanes.foldl hush s = v at hhushed hsilent ⊢
  have hbroken : Halts v (bothLanes.foldl (fun s l => readmitBreak l s) v) := .foldl (fun s l => readmitBreak_halts l s) _ v
  generalize bothLanes.foldl (fun s l => readmitBreak l s) v = w at hbroken ⊢
  have hnoted := (note_stays evLanesHalt w.lcm.lead.dom 2 (w32 why) 0 0 w).halts
  exact .of_enters ((hhushed.trans hbroken).trans hnoted) fun m => hnoted.silent m (hbroken.silent m (hsilent m))

/-- After its fault a lane does not serve, and beside it none that did not. -/
theorem laneFaultAs_halts (cause : HaltCause) (hard : Bool) (id : Option Nat) (l : Lane) (check detail : Nat) (s : State) :
    Halts s (laneFaultAs cause hard id l check detail s) ∧ (laneFaultAs cause hard id l check detail s).lcm.cond.lane l ≠ .serving := by
  by_cases hc : s.lcm.cond.lane l = .serving
  · obtain ⟨why, h⟩ := laneFaultAs_serving cause hard id check detail hc
    obtain ⟨i, hfall, -⟩ := fallSilent_update hard id l check detail s
    have hfalls : Halts s (fallSilent hard id l check detail s) := by
      rw [hfall]
      exact .trans (.of_eq (u := { s with erc := { s.erc with inbox := i } }) rfl rfl rfl rfl) (.trans (setCond_halts (c := .failSilent) (by decide) l _) (.of_eq rfl rfl rfl rfl))
    have hown : (fallSilent hard id l check detail s).lcm.cond.lane l ≠ .serving := by
      rw [hfall]
      exact fun h => absurd ((lane_setLane ..).symm.trans h) (by decide)
    rw [h]
    generalize fallSilent hard id l check detail s = v at hfalls hown ⊢
    split
    · obtain ⟨c, hrel⟩ := releaseAlone_frame l.other v
      rw [hrel]
      exact ⟨hfalls.trans (.of_eq rfl rfl rfl rfl), hown⟩
    · have hhalted := lanesHaltAs_halted cause why v
      exact ⟨hfalls.trans hhalted.toHalts, hhalted.silenced l⟩
  · have hfaulted : Halts s (laneFaultAs cause hard id l check detail s) := by
      unfold laneFaultAs
      split
      · contradiction
      · refine .trans ?_ (readmitEnd_halts ..)
        unfold soloNote
        rw [noteEv_update]
        exact .of_eq rfl rfl rfl rfl
      · exact .refl s
    exact ⟨hfaulted, hfaulted.silent l hc⟩

/-- Both lanes faulted: no lane serves. -/
theorem bothHard_halted (cause : HaltCause) (s : State) : Halted s (bothHard cause s) := by
  unfold bothHard
  extract_lets d v
  have hdraw : Halts s d.2 := .of_eq rfl rfl rfl rfl
  obtain ⟨hx, hsx⟩ := laneFaultAs_halts cause true none .x d.1.toNat 0 d.2
  obtain ⟨hy, hsy⟩ := laneFaultAs_halts cause true none .y d.1.toNat 0 (laneFaultAs cause true none .x d.1.toNat 0 d.2)
  have hv : Halts s v := hdraw.trans (hx.trans hy)
  have hsilent : ∀ m, v.lcm.cond.lane m ≠ .serving := by
    intro m
    cases m
    · exact hy.silent .x hsx
    · exact hsy
  clear_value v
  split
  case isTrue hp => exact { hv with silenced := hsilent, safe := fun _ _ => beq_iff_eq.mp hp }
  case isFalse =>
    have hhalted := lanesHaltAs_halted cause 1 v
    refine { hv.trans hhalted.toHalts with silenced := hhalted.silenced, safe := fun hoff hstandby => ?_ }
    obtain hp | hp := hv.power
    · exact hhalted.safe (by rw [hp]; exact hoff) (by rw [hp]; exact hstandby)
    · exact hhalted.safe (by rw [hp]; decide) (by rw [hp]; decide)

/-! ## The level of a TAP instruction (R392, R393, R395) -/

/-- What an instruction shifts out stays among what has left. -/
theorem mem_tapped (a l : List Out) (x : Out) : x ∈ (a ++ [x]) ++ l := List.mem_append_left _ (List.mem_append_right _ (List.mem_singleton.mpr rfl))

/-- The state as an instruction of the TAP finds it. -/
def tapped (t : Int) (s : State) : State := mapSec (fun x => { x with tapAt := t }) (atTime t s)

section
variable {t : Int} {lv : Nat} {eff : State → State}

theorem tapCommand_lost (h : aonUp s = false) : tapCommand t lv eff s = settle (atTime t s) := if_pos (by rw [show aonUp (atTime t s) = false from h]; rfl)

theorem tapCommand_low (h : aonUp s = true) (hlt : s.sec.level < lv) : tapCommand t lv eff s = settle (tapBypass (bump 0x11C28 (tapped t s))) :=
  (if_neg (by rw [show aonUp (atTime t s) = true from h]; decide)).trans (if_pos hlt)

theorem tapCommand_answers (h : aonUp s = true) (hle : lv ≤ s.sec.level) : tapCommand t lv eff s = settle (eff (tapped t s)) :=
  (if_neg (by rw [show aonUp (atTime t s) = true from h]; decide)).trans (if_neg (not_lt.mpr hle))

/-- An instruction above the level, and one while AON is lost. -/
theorem tapCommand_withheld (t : Int) (lv : Nat) (eff : State → State) (s : State) :
    (aonUp s = true → s.sec.level < lv → ∃ u, tapCommand t lv eff s = .next u ∧ .tdo [0] ∈ u.out
        ∧ u = { shown s u with now := t, ctr := (bump 0x11C28 s).ctr, sec := { s.sec with tapAt := t, drive := 0 } })
      ∧ (aonUp s = false → ∃ u, tapCommand t lv eff s = .next u ∧ u = { shown s u with now := t }) :=
  ⟨fun h hlt => settles (tapCommand_low h hlt) fun _ _ => ⟨mem_tapped _ _ _, rfl⟩,
    fun h => settles (tapCommand_lost h) fun _ _ => rfl⟩

/-! ## KEY_LOAD (R385) -/

theorem keyLoad_empty {j : Nat} {k : BitVec 128} {v : State} (hup : aonUp v = true) (h : (slotOf v.sec j).status = 0) :
    keyLoad j k true v = { v with sec := { v.sec with slots := setNth v.sec.slots j { status := 1, key := k } }, erc := { v.erc with inbox := v.erc.inbox ++ [{ code := evKeyLoad, src := 4, p0 := w32 j, p1 := 0, p2 := keyCheck k, solo := false }] } }
      ∧ keyLoad j k false v = { v with free := v.free + 1, sec := { v.sec with slots := setNth v.sec.slots j { status := 2, key := 0 } }, erc := { v.erc with inbox := v.erc.inbox ++ [{ code := evKeyLoad, src := 4, p0 := w32 j, p1 := 1, p2 := (draw v).1, solo := false }] } } := by
  unfold keyLoad
  rw [h]
  exact ⟨note_up evKeyLoad .aon 4 (w32 j) 0 (keyCheck k) hup, note_up evKeyLoad .aon 4 (w32 j) 1 (draw v).1 hup⟩

theorem keyLoad_answers {j : Fin 5} {k : BitVec 128} {same : Bool} (h : aonUp s = true) (h3 : 3 ≤ s.sec.level) :
    exec (.keyLoad t j k same) s = settle (keyLoad j.val k same (undrive (tapped t s))) :=
  tapCommand_answers (eff := fun s => keyLoad j.val k same (undrive s)) h h3

theorem keyLoad_loads {j : Fin 5} {k : BitVec 128} (h : aonUp s = true) (h3 : 3 ≤ s.sec.level) (hempty : (slotOf s.sec j).status = 0) :
    ∃ u, exec (.keyLoad t j k true) s = .next u
      ∧ u = { shown s u with now := t, sec := { s.sec with tapAt := t, drive := 0, slots := setNth s.sec.slots j { status := 1, key := k } }, erc := { s.erc with inbox := s.erc.inbox ++ [{ code := evKeyLoad, src := 4, p0 := w32 j, p1 := 0, p2 := keyCheck k, solo := false }] } } := by
  have heff := (keyLoad_empty (k := k) (v := undrive (tapped t s)) h hempty).1
  exact settles ((keyLoad_answers h h3).trans (congrArg settle heff)) fun _ _ => rfl

theorem keyLoad_damages {j : Fin 5} {k : BitVec 128} (h : aonUp s = true) (h3 : 3 ≤ s.sec.level) (hempty : (slotOf s.sec j).status = 0) :
    ∃ u, exec (.keyLoad t j k false) s = .next u
      ∧ (∃ v, u.erc = { s.erc with inbox := s.erc.inbox ++ [{ code := evKeyLoad, src := 4, p0 := w32 j, p1 := 1, p2 := v, solo := false }] })
      ∧ ∃ x, x.status = 2 ∧ u = { shown s u with now := t, sec := { s.sec with tapAt := t, drive := 0, slots := setNth s.sec.slots j x }, erc := u.erc, free := s.free + 1 } := by
  have heff := (keyLoad_empty (k := k) (v := undrive (tapped t s)) h hempty).2
  exact settles ((keyLoad_answers h h3).trans (congrArg settle heff)) fun _ _ => ⟨⟨_, rfl⟩, { status := 2, key := 0 }, rfl, rfl⟩

theorem keyLoad_keeps {j : Fin 5} {k : BitVec 128} {same : Bool} (h : aonUp s = true) (h3 : 3 ≤ s.sec.level) (hfull : (slotOf s.sec j).status ≠ 0) :
    exec (.keyLoad t j k same) s = settle (undrive (tapped t s)) :=
  (keyLoad_answers h h3).trans (congrArg settle (if_pos (bne_iff_ne.mpr hfull)))

/-! ## What the instructions do at their level -/

theorem debugRead_update (w : DbgTarget) (s : State) : ∃ n, (debugRead w s).2 = { s with free := n } := by
  have hlane : ∀ l k, ∃ n, (laneSlate l k s).2 = { s with free := n } := fun l k => by
    unfold laneSlate
    split <;> exact ⟨_, rfl⟩
  have hslate : ∀ d k, ∃ n, (slateWords d k s).2 = { s with free := n } := fun d k => by
    unfold slateWords
    split
    · exact hlane ..
    · exact hlane ..
    · exact ⟨_, rfl⟩
  cases w with
  | register off => exact ⟨_, rfl⟩
  | nvm w => exact ⟨_, rfl⟩
  | slate d k =>
    unfold debugRead debugSlate
    dsimp only
    split
    · exact hslate d k
    · split
      · exact ⟨s.free, rfl⟩
      · exact hslate d k

theorem dbgRead_answers {w : DbgTarget} (h : aonUp s = true) (h1 : 1 ≤ s.sec.level) :
    ∃ u, exec (.dbgRead t w) s = .next u ∧ .tdo (wordsBytes u.rdata) ∈ u.out
      ∧ (∀ n, w = .nvm n → u.rdata = [nvmRead s.pst n]) ∧ u = { shown s u with now := t, sec := { s.sec with tapAt := t, drive := 0 }, rdata := u.rdata, free := u.free } := by
  obtain ⟨n, hn⟩ := debugRead_update w (undrive (tapped t s))
  have hexec : exec (.dbgRead t w) s = settle (tapOut (wordsBytes (debugRead w (undrive (tapped t s))).1) { (debugRead w (undrive (tapped t s))).2 with rdata := (debugRead w (undrive (tapped t s))).1 }) :=
    tapCommand_answers (eff := fun s => tapOut (wordsBytes (debugRead w (undrive s)).1) { (debugRead w (undrive s)).2 with rdata := (debugRead w (undrive s)).1 }) h h1
  rw [hn] at hexec
  exact settles hexec fun _ _ => ⟨mem_tapped _ _ _, fun k hw => by subst hw; rfl, rfl⟩

theorem idcode_answers (h : aonUp s = true) : exec (.idcode t) s = settle (tapOut (wordBytes (w32 Config.idcode)) { undrive (tapped t s) with rdata := [w32 Config.idcode] }) :=
  tapCommand_answers (eff := fun s => tapOut (wordBytes (w32 Config.idcode)) { undrive s with rdata := [w32 Config.idcode] }) h (Nat.zero_le _)

theorem bypass_answers (h : aonUp s = true) : exec (.bypass t) s = settle (tapBypass (tapped t s)) := tapCommand_answers (eff := tapBypass) h (Nat.zero_le _)

theorem dbgLane_answers (o : DbgLaneOp) (h : aonUp s = true) (h2 : 2 ≤ s.sec.level) : exec (.dbgLane t o) s = settle (debugLane o (undrive (tapped t s))) :=
  tapCommand_answers (eff := fun s => debugLane o (undrive s)) h h2

theorem samplePreload_answers {b : List Bool} (h : aonUp s = true) (h1 : 1 ≤ s.sec.level) :
    ∃ u, exec (.samplePreload t b) s = .next u ∧ .tdo (packBits b.length b) ∈ u.out
      ∧ u = { shown s u with now := t, sec := { s.sec with tapAt := t, drive := 0, preload := if s.sec.level = 3 then b else s.sec.preload } } := by
  have heff : (if (undrive (tapped t s)).sec.level = 3 then mapSec (fun x => { x with preload := b }) (undrive (tapped t s)) else undrive (tapped t s))
      = { atTime t s with sec := { s.sec with tapAt := t, drive := 0, preload := if s.sec.level = 3 then b else s.sec.preload } } := by
    by_cases h3 : s.sec.level = 3
    · rw [if_pos h3]
      exact if_pos h3
    · rw [if_neg h3]
      exact if_neg h3
  have hexec : exec (.samplePreload t b) s = settle (tapOut (packBits b.length b) (if (undrive (tapped t s)).sec.level = 3 then mapSec (fun x => { x with preload := b }) (undrive (tapped t s)) else undrive (tapped t s))) :=
    tapCommand_answers (eff := fun s => tapOut (packBits b.length b) (if (undrive s).sec.level = 3 then mapSec (fun x => { x with preload := b }) (undrive s) else undrive s)) h h1
  rw [heff] at hexec
  exact settles hexec fun _ _ => ⟨mem_tapped _ _ _, rfl⟩

theorem dbgLane_steps (h : aonUp s = true) (h2 : 2 ≤ s.sec.level) :
    ∃ u, exec (.dbgLane t .step) s = .next u
      ∧ u = { shown s u with now := t, sec := { s.sec with tapAt := t, drive := 0, steps := if s.sec.halted then s.sec.steps + 1 else s.sec.steps } } := by
  have heff : debugLane .step (undrive (tapped t s)) = { atTime t s with sec := { s.sec with tapAt := t, drive := 0, steps := if s.sec.halted then s.sec.steps + 1 else s.sec.steps } } := by
    by_cases hh : s.sec.halted = true
    · rw [if_pos hh]
      exact congrArg (fun y => { atTime t s with sec := y }) (if_pos hh)
    · rw [if_neg hh]
      exact congrArg (fun y => { atTime t s with sec := y }) (if_neg hh)
  exact settles ((dbgLane_answers _ h h2).trans (congrArg settle heff)) fun _ _ => rfl

/-- The target's count of a section, written. -/
def countPut (n : Nat) (v : Int) (y : SectSt) (s : State) : State :=
  let e := s.sld.lane s.sec.target
  { s with sld := s.sld.setLane s.sec.target { e with sects := tput none n (some { y with count := sat16 v }) e.sects } }

theorem dbgLane_writesCount {n : Nat} {v : Int} {y : SectSt} (h : aonUp s = true) (h2 : 2 ≤ s.sec.level) (hy : tget none n (s.sld.lane s.sec.target).sects = some y) :
    ∃ u, exec (.dbgLane t (.writeCount n v)) s = .next u ∧ tget none n (u.sld.lane s.sec.target).sects = some { y with count := sat16 v }
      ∧ u = { shown s u with now := t, sec := { s.sec with tapAt := t, drive := 0 }, sld := u.sld } := by
  have heff : debugLane (.writeCount n v) (undrive (tapped t s)) = countPut n v y (undrive (tapped t s)) := by
    unfold debugLane
    dsimp only
    rw [show tget none n ((undrive (tapped t s)).sld.lane (undrive (tapped t s)).sec.target).sects = some y from hy]
    rfl
  refine settles ((dbgLane_answers _ h h2).trans (congrArg settle heff)) fun _ _ => ⟨?_, rfl⟩
  show tget none n ((s.sld.setLane s.sec.target _).lane s.sec.target).sects = _
  rw [lane_setLane]
  exact tget_tput_of_ne _ _ _ _ _ (Option.some_ne_none _)

/-- A drive or scan instruction. -/
theorem tapDrive_drives (n : Nat) (v : State) :
    (tapDrive n v).sec.drive = n ∧ (tapDrive n v).sec.slots = v.sec.slots ∧ (tapDrive n v).pst.words = v.pst.words
      ∧ (v.bsc.power ≠ .standby → v.bsc.power ≠ .off → (tapDrive n v).bsc.power = .safehalt ∧ (tapDrive n v).bsc.halt = .drive ∧ ∀ l, (tapDrive n v).lcm.cond.lane l ≠ .serving) := by
  have hhalted := bothHard_halted .drive v
  unfold tapDrive
  generalize bothHard .drive v = w at hhalted
  dsimp only
  split
  case isTrue h =>
    simp only [Bool.or_eq_true, beq_iff_eq] at h
    exact ⟨rfl, rfl, rfl, fun h1 h2 => absurd h (not_or_intro h1 h2)⟩
  case isFalse => exact ⟨rfl, hhalted.slots, hhalted.words, fun h1 h2 => ⟨hhalted.safe h2 h1, rfl, hhalted.silenced⟩⟩

end

end

/-- Settles O50: what each instruction of the TAP does above its level and at it. -/
theorem tapObeysTheDebugLevel : Obligations.TapObeysTheDebugLevel := by
  unfold Obligations.TapObeysTheDebugLevel
  refine ⟨⟨fun t s i lv hi => ?withheld, fun t j k s hup h3 => ⟨keyLoad_loads hup h3, keyLoad_damages hup h3,
    fun same hfull => settles (keyLoad_keeps hup h3 hfull) fun _ _ => rfl⟩⟩, fun t s hup => ?answers⟩
  case withheld =>
    obtain ⟨eff, heff⟩ : ∃ eff, exec i s = tapCommand t lv eff s := by
      simp only [List.mem_cons, Prod.mk.injEq, List.not_mem_nil, or_false] at hi
      rcases hi with (⟨rfl, rfl⟩ | ⟨rfl, rfl⟩ | ⟨rfl, rfl⟩ | ⟨rfl, rfl⟩ | ⟨rfl, rfl⟩ | ⟨rfl, rfl⟩ | ⟨rfl, rfl⟩) | ⟨b, rfl, rfl⟩ | ⟨w, rfl, rfl⟩ | ⟨o, rfl, rfl⟩ | ⟨j, k, e, rfl, rfl⟩
      · exact ⟨_, (rfl : execIdcode t s = _)⟩
      · exact ⟨_, (rfl : execBypass t s = _)⟩
      · exact ⟨_, (rfl : execExtest t s = _)⟩
      · exact ⟨_, (rfl : execIntest t s = _)⟩
      · exact ⟨_, (rfl : execClamp t s = _)⟩
      · exact ⟨_, (rfl : execHighz t s = _)⟩
      · exact ⟨_, (rfl : execScan t s = _)⟩
      · exact ⟨_, (rfl : execSamplePreload t b s = _)⟩
      · exact ⟨_, (rfl : execDbgRead t w s = _)⟩
      · exact ⟨_, (rfl : execDbgLane t o s = _)⟩
      · exact ⟨_, (rfl : execKeyLoad t j k e s = _)⟩
    rw [heff]
    exact tapCommand_withheld t lv eff s
  case answers =>
    intro x
    refine ⟨?idcode, ?bypass, fun b h1 => samplePreload_answers hup h1, fun w h1 => dbgRead_answers hup h1, fun h2 => ⟨?halt, ?resume, dbgLane_steps hup h2,
      fun k ws => ?slate, fun k => ?inject, fun n v y hy => dbgLane_writesCount hup h2 hy⟩, fun h3 i k hi => ?drives, ?reset⟩
    case idcode => exact settles (idcode_answers hup) fun _ _ => ⟨mem_tapped _ _ _, rfl⟩
    case bypass => exact settles (bypass_answers hup) fun _ _ => ⟨mem_tapped _ _ _, rfl⟩
    case halt => exact settles (dbgLane_answers .halt hup h2) fun _ _ => rfl
    case resume => exact settles (dbgLane_answers .resume hup h2) fun _ _ => rfl
    case slate => exact settles (dbgLane_answers (.writeSlate k ws) hup h2) fun _ _ => rfl
    case inject => exact settles (dbgLane_answers (.inject k) hup h2) fun _ _ => rfl
    case reset => exact settles (v := mapSec (fun x => { x with drive := 0, preload := [] }) (atTime t s)) rfl fun _ _ => rfl
    case drives =>
      have hexec : exec i s = settle (tapDrive k (tapped t s)) := by
        simp only [List.mem_cons, Prod.mk.injEq, List.not_mem_nil, or_false] at hi
        rcases hi with ⟨rfl, rfl⟩ | ⟨rfl, rfl⟩ | ⟨rfl, rfl⟩ | ⟨rfl, rfl⟩ | ⟨rfl, rfl⟩ <;> exact tapCommand_answers (eff := tapDrive _) hup h3
      exact settles hexec fun _ _ => tapDrive_drives k (tapped t s)

end Sys2Proof.Proofs
end

section
/-!
PROOFS. POWER_REQUEST and the bands of the power domains (R360, R365, R370 to R373, R380).
-/

namespace Sys2Proof.Proofs
open Sys2Proof.Machine Sys2Proof.Laws

/-! ## A completion after the power state or a band has changed -/

/-- Two states in which a completion reads and leaves the same, whatever the domains' bands and the power state. -/
structure AnswersAlike (s v : State) : Prop where
  aon : aonUp v = aonUp s
  host : active v .host = active s .host
  same : SameForCpl s { v with bsc := s.bsc, dom := s.dom }

section
variable {op : Nat} {eff : HostCmd → State → State} {c : HostCmd} {s x v : State} {P : State → Prop}

theorem AnswersAlike.cplWords (h : AnswersAlike s v) (o : OutCmd) (st : Nat) (r0 r1 : Word) (lx ly : Bool) :
    cplWords v o st r0 r1 lx ly = Machine.cplWords s o st r0 r1 lx ly := by
  refine .trans ?_ (h.same.cplWords o st r0 r1 lx ly)
  unfold Machine.cplWords
  rw [h.aon]
  rfl

theorem AnswersAlike.hreRun (h : AnswersAlike s v) : hreRun v = Machine.hreRun s := by
  refine .trans ?_ h.same.hreRun
  unfold Machine.hreRun
  rw [h.host]
  rfl

theorem AnswersAlike.hostCan (h : AnswersAlike s v) (hhre : SameCmds s.hre v.hre) : hostCan v = Machine.hostCan s := by
  unfold Machine.hostCan
  rw [h.host, hhre.loss, hhre.busMaster]

/-- A command completed at its examination after it changed the power state or a band. -/
theorem Examined.answers {st : Nat} {r0 r1 : Word} (h : Examined c s x) (hexec : hostCommand op eff c s = settle (finishNow c op st r0 r1 v))
    (hsame : AnswersAlike x v) (hhre : SameCmds x.hre v.hre)
    (hP : ∀ k o g g', P { v with ctr := k, out := v.out ++ o, hre := hreShown { hreItems v.hre g with cplProd := v.hre.cplProd + 1 } g' }) :
    ∃ u, hostCommand op eff c s = .next u ∧ Completed op c st r0 r1 s u ∧ P u := by
  obtain ⟨_, _, _, _, _, hx⟩ := h.update
  have hrun := hsame.hreRun.trans h.run
  have hcan := (hsame.hostCan hhre).trans h.can
  obtain ⟨k, g, hdone⟩ := cplEmit_runs_update (outOf c op 0) st r0 r1 false false hrun hcan
  have hfin : finishNow c op st r0 r1 v = _ := hdone
  obtain ⟨o, g', hpub⟩ := publish_update (finishNow c op st r0 r1 v)
  have haddr : ringAddr v 1 v.hre.cplProd = ringAddr (atTime c.t s) 1 s.hre.cplProd := by
    rw [hhre.cplProd, show x.hre.cplProd = s.hre.cplProd by rw [hx], ← h.same.ringAddr]
    exact hsame.same.ringAddr ..
  rw [haddr, hsame.cplWords, h.same.cplWords] at hfin
  rw [hfin] at hpub
  refine ⟨_, hexec, ⟨?_, ?_, ?_, ?_, ?_⟩, by rw [hfin, hpub, List.append_assoc]; exact hP k _ g g'⟩ <;> rw [hfin, hpub]
  · exact hhre.cmdCons.trans (by rw [hx])
  · exact congrArg (· + 1) (hhre.cplProd.trans (by rw [hx]))
  · exact hhre.out.trans (by rw [hx])
  · exact hhre.nextId.trans (by rw [hx])
  · exact mem_tapped _ _ _

end

/-! ## LEAN (R364, R373) -/

section
variable {s : State}

theorem orderBand_states (d : Dom) (b : Nat) (s : State) : ∃ m k, orderBand d b s = { s with dom := m, ctr := k } ∧ ∀ e, (m.get e).st = (s.dom.get e).st := by
  unfold orderBand
  dsimp only
  split
  · exact ⟨_, _, rfl, fun _ => rfl⟩
  · exact ⟨_, _, rfl, mapDom_states d s rfl⟩

theorem leanFloors_states (s : State) : ∃ m k, leanFloors s = { s with dom := m, ctr := k } ∧ ∀ e, (m.get e).st = (s.dom.get e).st := by
  have hfold : ∀ (l : List Dom) (s : State), ∃ m k, l.foldl (fun s d => if active s d then orderBand d (s.dom.get d).floor s else s) s = { s with dom := m, ctr := k }
      ∧ ∀ e, (m.get e).st = (s.dom.get e).st := fun l => by
    induction l with
    | nil => exact fun s => ⟨_, _, rfl, fun _ => rfl⟩
    | cons d l ih =>
      intro s
      obtain ⟨m, k, h, hst⟩ : ∃ m k, (if active s d then orderBand d (s.dom.get d).floor s else s) = { s with dom := m, ctr := k } ∧ ∀ e, (m.get e).st = (s.dom.get e).st := by
        split
        · exact orderBand_states ..
        · exact ⟨_, _, rfl, fun _ => rfl⟩
      obtain ⟨m', k', h', hst'⟩ := ih (if active s d then orderBand d (s.dom.get d).floor s else s)
      refine ⟨m', k', ?_, fun e => (hst' e).trans ?_⟩
      · refine h'.trans ?_
        rw [h]
      · rw [h]
        exact hst e
  unfold leanFloors
  split
  · exact ⟨_, _, rfl, fun _ => rfl⟩
  · exact hfold _ s

/-- The power state that the LEAN causes lead to. -/
def leanPower (b : BscSt) : PState :=
  match b.power with
  | .service => if leanCause b then .lean else .service
  | .lean => if leanCause b then .lean else .service
  | p => p

theorem setPower_same {p : PState} {s : State} (h : p = s.bsc.power) : setPower p s = s := if_pos h

/-- The causes set the power state, then the floors. -/
theorem leanUpdate_eq (s : State) : leanUpdate s = leanFloors (setPower (leanPower s.bsc) s) := by
  unfold leanUpdate
  refine congrArg leanFloors ?_
  unfold leanPower
  cases hp : s.bsc.power
  case service =>
    by_cases hl : leanCause s.bsc = true
    · exact (if_pos hl).trans (congrArg (setPower · s) (if_pos hl).symm)
    · exact (if_neg hl).trans ((setPower_same hp.symm).symm.trans (congrArg (setPower · s) (if_neg hl).symm))
  case lean =>
    by_cases hl : leanCause s.bsc = true
    · exact (if_pos hl).trans ((setPower_same hp.symm).symm.trans (congrArg (setPower · s) (if_pos hl).symm))
    · exact (if_neg hl).trans (congrArg (setPower · s) (if_neg hl).symm)
  all_goals exact (setPower_same hp.symm).symm

theorem leanUpdate_update (s : State) : ∃ m k i, leanUpdate s = { s with dom := m, ctr := k, erc := { s.erc with inbox := i }, bsc := { s.bsc with power := leanPower s.bsc } }
    ∧ ∀ e, (m.get e).st = (s.dom.get e).st := by
  obtain ⟨m, k, h, hst⟩ := leanFloors_states (setPower (leanPower s.bsc) s)
  rw [leanUpdate_eq, h, setPower_frame]
  exact ⟨m, k, _, rfl, fun e => (hst e).trans (by rw [setPower_frame])⟩

end

/-! ## What the power-down writes and what it takes away (R360, R378, R416, R418) -/

/-- Only the store changes, and the events on their way. -/
structure StoreOnly (s u : State) : Prop where
  eq : ∃ p i, u = { s with pst := p, erc := { s.erc with inbox := i } }

section
variable {s t u : State}

theorem StoreOnly.refl (s : State) : StoreOnly s s := ⟨_, _, rfl⟩

theorem StoreOnly.trans (h : StoreOnly s t) (k : StoreOnly t u) : StoreOnly s u := by
  obtain ⟨p, i, rfl⟩ := h
  obtain ⟨q, j, rfl⟩ := k
  exact ⟨q, j, rfl⟩

theorem StoreOnly.foldl {α : Type} {f : State → α → State} (h : ∀ s a, StoreOnly s (f s a)) (l : List α) (s : State) : StoreOnly s (l.foldl f s) := by
  induction l generalizing s with
  | nil => exact .refl s
  | cons a l ih => exact (h s a).trans (ih (f s a))

theorem gaugeInc_store (page : Nat) (s : State) : StoreOnly s (gaugeInc page s) := by
  obtain ⟨i, h⟩ := gaugeInc_update page s
  exact ⟨_, i, h⟩

theorem writeQueued_store (torn : Bool) (s : State) : StoreOnly s (writeQueued torn s) := by
  rcases hq : s.pst.wq with - | ⟨⟨w, v⟩, q⟩
  · unfold writeQueued
    rw [hq]
    exact .refl s
  · obtain ⟨i, h⟩ := writeQueued_update torn hq
    exact ⟨_, i, h⟩

theorem flushQueue_store (n : Nat) (s : State) : StoreOnly s (flushQueue n s) := by
  induction n generalizing s with
  | zero => exact .refl s
  | succ n ih => exact (writeQueued_store false s).trans (ih _)

theorem writeNow_store (ws : List (Nat × Word)) (s : State) : StoreOnly s (writeNow ws s) := by
  unfold writeNow
  refine .foldl (fun s g => ?_) _ s
  extract_lets r v
  have hv : StoreOnly s v := ⟨r.2, s.erc.inbox, rfl⟩
  split
  · exact hv.trans (gaugeInc_store ..)
  · exact hv

theorem snapshotWrite_store (x : Option (Word × List Word)) (s : State) : StoreOnly s (snapshotWrite x s) := by
  unfold snapshotWrite
  extract_lets v
  have hv : StoreOnly s v := writeNow_store ..
  split
  · exact hv
  · exact hv.trans ((writeNow_store ..).trans (writeNow_store ..))

/-- What the domains' end leaves of the device. -/
structure AllOff (s u : State) : Prop where
  doms : ∀ d, d ≠ .aon → (u.dom.get d).st = .off
  aon : u.dom.aon = s.dom.aon
  bsc : u.bsc = { s.bsc with jobs := [], running := [], pace := ⟨false, false⟩, tested := ⟨false, false⟩ }
  sec : u.sec = s.sec
  out : u.out = s.out
  now : u.now = s.now
  pending : u.pending = s.pending
  words : u.pst.words = s.pst.words
  bad : u.pst.bad = s.pst.bad
  erc : u.erc = s.erc

/-- The domains after some of them went off. -/
def domsOff (t : Int) (ds : List Dom) (m : Doms) : Doms :=
  ds.foldl (fun m d => m.put d { DomSt.reset with since := t, restarts := (m.get d).restarts }) m

theorem offDoms_update (ds : List Dom) (s : State) :
    ∃ r k, ds.foldl (fun s d => wordsReset d (offDom d s)) s = { s with regs := r, ctr := k, dom := domsOff s.now ds s.dom } := by
  induction ds generalizing s with
  | nil => exact ⟨_, _, rfl⟩
  | cons d ds ih =>
    obtain ⟨r, k, h⟩ := ih (wordsReset d (offDom d s))
    exact ⟨r, k, h⟩

theorem allOff_allOff (s : State) : AllOff s (allOff s) := by
  obtain ⟨r, k, h⟩ := offDoms_update (allDoms.filter (· != Dom.aon)) s
  unfold allOff
  rw [h]
  refine ⟨fun d hd => ?_, rfl, rfl, rfl, rfl, rfl, rfl, rfl, rfl, rfl⟩
  cases d
  case aon => exact absurd rfl hd
  all_goals rfl

/-- Steps 2 to 5 of the power-fail sequence. -/
theorem sequence25_allOff (s : State) : ∃ v, StoreOnly s v ∧ AllOff v (sequence25 s) := by
  unfold sequence25
  extract_lets snap taken flushed written
  have hflushed : StoreOnly s flushed := by
    unfold flushed
    split
    · exact flushQueue_store ..
    · exact .refl s
  have hwritten : StoreOnly flushed written := by
    unfold written
    split
    · exact .refl _
    · exact snapshotWrite_store ..
  exact ⟨written, hflushed.trans hwritten, allOff_allOff _⟩

end

/-! ## POWER_REQUEST (R365, R380) -/

/-- Jobs dropped and commands cancelled: what stands. -/
structure JobsEnd (s u : State) : Prop where
  bsc : ∃ j r, u.bsc = { s.bsc with jobs := j, running := r }
  now : u.now = s.now
  regs : u.regs = s.regs
  pst : u.pst = s.pst
  dom : u.dom = s.dom
  sec : u.sec = s.sec
  loss : u.hre.loss = s.hre.loss
  busMaster : u.hre.busMaster = s.hre.busMaster

section
variable {c : HostCmd} {s t u x : State}

theorem JobsEnd.trans (h : JobsEnd s t) (k : JobsEnd t u) : JobsEnd s u := by
  obtain ⟨j, r, hb⟩ := h.bsc
  obtain ⟨j', r', kb⟩ := k.bsc
  exact ⟨⟨j', r', by rw [kb, hb]⟩, k.now.trans h.now, k.regs.trans h.regs, k.pst.trans h.pst, k.dom.trans h.dom, k.sec.trans h.sec, k.loss.trans h.loss,
    k.busMaster.trans h.busMaster⟩

theorem JobsEnd.refl (s : State) : JobsEnd s s := ⟨⟨_, _, rfl⟩, rfl, rfl, rfl, rfl, rfl, rfl, rfl⟩

theorem JobsEnd.foldl {α : Type} {f : State → α → State} (h : ∀ s a, JobsEnd s (f s a)) (l : List α) (s : State) : JobsEnd s (l.foldl f s) := by
  induction l generalizing s with
  | nil => exact .refl s
  | cons a l ih => exact (h s a).trans (ih (f s a))

theorem finish_jobsEnd (id st : Nat) (r0 r1 : Word) (s : State) : JobsEnd s (finish id st r0 r1 s) := by
  obtain ⟨k, i, w, g, h⟩ := finish_update id st r0 r1 s
  rw [h]
  exact ⟨⟨_, _, rfl⟩, rfl, rfl, rfl, rfl, rfl, rfl, rfl⟩

theorem dropJob_jobsEnd (j : Job) (s : State) : JobsEnd s (dropJob j s) := ⟨⟨_, _, rfl⟩, rfl, rfl, rfl, rfl, rfl, rfl, rfl⟩

theorem cancelJobs_jobsEnd (s : State) : JobsEnd s (cancelJobs s) := by
  unfold cancelJobs cancelIds
  extract_lets v ids
  have hv : JobsEnd s v := .foldl (fun s j => by
    refine .trans ?_ (dropJob_jobsEnd ..)
    split
    · exact .refl s
    · exact finish_jobsEnd ..) _ s
  refine (hv.trans ?_).trans (.foldl (fun s i => finish_jobsEnd i stCancelled 0 0 s) _ _)
  exact ⟨⟨_, _, rfl⟩, rfl, rfl, rfl, rfl, rfl, rfl, rfl⟩

theorem effPowerRequest_lean {on : Bool} (hv : fld c.a0 2 0 = if on then 4 else 3)
    (hp : if on then s.bsc.power = .service ∨ s.bsc.power = .holdover ∨ s.bsc.power = .lean ∧ s.bsc.leanRequest = false else s.bsc.power = .lean ∨ s.bsc.power = .holdover) :
    effPowerRequest c s = (let v := leanUpdate { s with bsc := { s.bsc with leanRequest := on } }
      finishNow c 0x68 stApplied (w32 v.bsc.power.code) 0 v) := by
  unfold effPowerRequest
  rw [hv]
  cases on
  · refine if_pos ?_
    rw [Bool.or_eq_true, beq_iff_eq, beq_iff_eq]
    exact hp
  · refine if_pos ?_
    rw [Bool.or_eq_true, Bool.or_eq_true, Bool.and_eq_true, beq_iff_eq, beq_iff_eq, beq_iff_eq, Bool.not_eq_true', or_assoc]
    exact hp

/-- LEAN requested or released: the power state that the causes then lead to. -/
theorem powerRequest_leans (hx : Taken 0x68 c s x) {on : Bool} (hv : fld c.a0 2 0 = if on then 4 else 3)
    (hp : if on then s.bsc.power = .service ∨ s.bsc.power = .holdover ∨ s.bsc.power = .lean ∧ s.bsc.leanRequest = false else s.bsc.power = .lean ∨ s.bsc.power = .holdover) :
    ∃ u, exec (.powerRequest c) s = .next u ∧ Completed 0x68 c stApplied (w32 u.bsc.power.code) 0 s u ∧ u.bsc.leanRequest = on
      ∧ u.bsc.power = (if s.bsc.power = .holdover then .holdover else if leanCause { s.bsc with leanRequest := on } then .lean else .service)
      ∧ (∀ d, (u.dom.get d).st = (s.dom.get d).st)
      ∧ u = { commanded s u with now := c.t, dom := u.dom, bsc := { s.bsc with leanRequest := on, power := u.bsc.power } } := by
  obtain ⟨_, _, _, _, _, hu⟩ := hx.update
  have hq := hx.reserve
  have hbsc : x.bsc = s.bsc := by rw [hu]
  obtain ⟨m, k, i, hlean, hst⟩ := leanUpdate_update { x with bsc := { x.bsc with leanRequest := on } }
  have heff := effPowerRequest_lean (s := x) hv (by rw [hbsc]; exact hp)
  rw [hlean] at heff
  have hpower : leanPower { x.bsc with leanRequest := on } = if s.bsc.power = .holdover then .holdover else if leanCause { s.bsc with leanRequest := on } then .lean else .service := by
    unfold leanPower
    rw [hbsc]
    cases on
    · obtain h | h := hp <;> rw [h] <;> rfl
    · obtain h | h | ⟨h, -⟩ := hp <;> rw [h] <;> rfl
  have hdom : ∀ d, (m.get d).st = (s.dom.get d).st := fun d => (hst d).trans (by rw [hu])
  obtain ⟨u, hexec, hdone, hP⟩ := hx.toExamined.answers (P := fun u => u.bsc.power = leanPower { x.bsc with leanRequest := on } ∧ u.bsc.leanRequest = on
      ∧ (∀ d, (u.dom.get d).st = (s.dom.get d).st) ∧ u = { commanded s u with now := c.t, dom := u.dom, bsc := { s.bsc with leanRequest := on, power := u.bsc.power } })
    ((hx.exec effPowerRequest).trans (congrArg settle heff))
    ⟨by unfold aonUp active; rw [show (m.get .aon).st = (x.dom.get .aon).st from hst .aon], by unfold active; rw [show (m.get .host).st = (x.dom.get .host).st from hst .host],
      rfl, rfl, fun _ _ => rfl, rfl, rfl, rfl⟩ ⟨rfl, rfl, rfl, rfl, rfl, rfl⟩ fun _ _ _ _ => ⟨rfl, rfl, hdom, by subst hu; exact with_reserve _ hq⟩
  obtain ⟨hcode, hon, hdoms, hframe⟩ := hP
  exact ⟨u, hexec, by rw [hcode]; exact hdone, hon, hcode.trans hpower, hdoms, hframe⟩

theorem effPowerRequest_refuses
    (hno : fld c.a0 2 0 = 1 ∧ mayStandby s = false ∨ fld c.a0 2 0 = 3 ∧ s.bsc.power ≠ .lean ∧ s.bsc.power ≠ .holdover
      ∨ fld c.a0 2 0 = 4 ∧ s.bsc.power ≠ .service ∧ s.bsc.power ≠ .holdover ∧ (s.bsc.power ≠ .lean ∨ s.bsc.leanRequest = true)) :
    effPowerRequest c s = refuse 0x68 c stRefusedState s := by
  unfold effPowerRequest
  obtain ⟨hv, hno⟩ | ⟨hv, hlean, hhold⟩ | ⟨hv, hservice, hhold, hlean⟩ := hno <;> rw [hv]
  · exact if_pos (by rw [hno]; rfl)
  · refine if_neg ?_
    rw [Bool.or_eq_true, beq_iff_eq, beq_iff_eq]
    exact not_or_intro hlean hhold
  · refine if_neg ?_
    rw [Bool.or_eq_true, Bool.or_eq_true, Bool.and_eq_true, beq_iff_eq, beq_iff_eq, beq_iff_eq, Bool.not_eq_true']
    rintro ((h | h) | ⟨h, hr⟩)
    · exact hservice h
    · exact hhold h
    · exact hlean.elim (fun hne => hne h) fun hreq => absurd (hreq.symm.trans hr) (by decide)

/-- STANDBY granted: the completion leaves first, then every domain but AON goes off. -/
theorem effPowerRequest_standby (hv : fld c.a0 2 0 = 1) (hmay : mayStandby s = true) :
    effPowerRequest c s = (let v := sequence25 (publish (finishNow c 0x68 stApplied 1 0 (cancelJobs s)))
      { v with bsc := { v.bsc with standbyAt := some (v.now + 1000000) } }) := by
  unfold effPowerRequest
  rw [hv]
  exact if_neg (by rw [hmay]; decide)

/-- What the power-down to STANDBY leaves once the completion has left. -/
theorem standby_entered {r : Host.Outcome State Fault Refusal} (h : r = settle (let v := sequence25 s; { v with bsc := { v.bsc with standbyAt := some (v.now + 1000000) } })) :
    ∃ u, r = .next u ∧ u.bsc.standbyAt = some (s.now + 1000000) ∧ u.bsc.power = s.bsc.power ∧ (∀ x ∈ s.out, x ∈ u.out)
      ∧ (∀ d, d ≠ .aon → (u.dom.get d).st = .off) ∧ u.dom.aon = s.dom.aon ∧ u.bsc.jobs = [] ∧ u.sec = s.sec := by
  obtain ⟨v, ⟨⟨p, i, hv⟩⟩, hoff⟩ := sequence25_allOff s
  generalize sequence25 s = z at h hoff
  refine settles h fun o g => ⟨?_, ?_, fun x hx => List.mem_append_left _ ?_, hoff.doms, ?_, ?_, ?_⟩
  · exact congrArg (fun n : Int => some (n + 1000000)) (hoff.now.trans (by rw [hv]))
  · exact (congrArg BscSt.power hoff.bsc).trans (by rw [hv])
  · rw [hoff.out, hv]
    exact hx
  · exact hoff.aon.trans (by rw [hv])
  · exact (congrArg BscSt.jobs hoff.bsc :)
  · exact hoff.sec.trans (by rw [hv])

theorem powerRequest_standby (hx : Taken 0x68 c s x) (hv : fld c.a0 2 0 = 1) (hmay : mayStandby s = true) :
    ∃ u, exec (.powerRequest c) s = .next u ∧ u.bsc.standbyAt = some (c.t + 1000000) ∧ u.bsc.power = s.bsc.power
      ∧ (∃ a, .hostWrite a (wordsBytes (cplWords (atTime c.t s) (outOf c 0x68 0) stApplied 1 0 false false)) ∈ u.out)
      ∧ (∀ d, d ≠ .aon → (u.dom.get d).st = .off) ∧ u.dom.aon = s.dom.aon ∧ u.bsc.jobs = [] ∧ u.sec.slots = s.sec.slots := by
  obtain ⟨_, _, _, _, _, hu⟩ := hx.update
  have hmay' : mayStandby x = true := by rw [hu]; exact hmay
  have hexec := (hx.exec effPowerRequest).trans (congrArg settle (effPowerRequest_standby hv hmay'))
  have hends := cancelJobs_jobsEnd x
  obtain ⟨j, r, hjobs⟩ := hends.bsc
  generalize cancelJobs x = y at hexec hends hjobs
  have hsame : AnswersAlike x y := ⟨by unfold aonUp active; rw [hends.dom, hjobs], by unfold active; rw [hends.dom],
    hends.now, hends.regs, fun w _ => congrArg (nvmRead · w) hends.pst, rfl, rfl, congrArg SecSt.slots hends.sec⟩
  have hcan : hostCan y = true := by
    have := hx.can
    unfold hostCan at this ⊢
    rw [hsame.host, hends.loss, hends.busMaster]
    exact this
  obtain ⟨k, g, hdone⟩ := cplEmit_runs_update (outOf c 0x68 0) stApplied 1 0 false false (hsame.hreRun.trans hx.run) hcan
  obtain ⟨o, g', hpub⟩ := publish_update (finishNow c 0x68 stApplied 1 0 y)
  rw [show finishNow c 0x68 stApplied 1 0 y = _ from hdone, hsame.cplWords, hx.same.cplWords] at hpub
  rw [show finishNow c 0x68 stApplied 1 0 y = _ from hdone, hsame.cplWords, hx.same.cplWords, hpub] at hexec
  obtain ⟨u, hu', hat, hpower, hkept, hoff, haon, hnone, hsec⟩ := standby_entered hexec
  refine ⟨u, hu', hat.trans (congrArg (fun n : Int => some (n + 1000000)) (hends.now.trans hx.now)), hpower.trans ((congrArg BscSt.power hjobs).trans (by rw [hu])),
    ⟨_, hkept _ (mem_tapped _ _ _)⟩, hoff, haon.trans ((congrArg Doms.aon hends.dom).trans (by rw [hu])), hnone, ?_⟩
  rw [hsec]
  exact (congrArg SecSt.slots hends.sec).trans (by rw [hu])

end

/-! ## Pace requests and bands (R360, R371) -/

section
variable {t : Int} {p : Port} {m : BudgetMeas} {s : State}

theorem port_dom_ne (p : Port) : p.dom ≠ .aon := by cases p <;> decide

theorem paceRequest_waits (h : ¬ (s.bsc.pace.port p = true ∧ aonUp s = true)) : exec (.paceRequest t p m) s = settle (atTime t s) := by
  refine if_pos ?_
  rw [Bool.or_eq_true, Bool.not_eq_true', Bool.not_eq_true']
  by_cases hp : s.bsc.pace.port p = true
  · exact .inr (Bool.eq_false_iff.mpr fun hup => h ⟨hp, hup⟩)
  · exact .inl (Bool.eq_false_iff.mpr hp)

theorem paceRequest_examined (h : s.bsc.pace.port p = true ∧ aonUp s = true) :
    exec (.paceRequest t p m) s = settle (if grantable (markBusy p.dom (atTime t s)) m p then grantPace p (markBusy p.dom (atTime t s)) else bump (0xEC24 + 4 * p.num) (markBusy p.dom (atTime t s))) := by
  refine if_neg ?_
  rw [Bool.or_eq_true, Bool.not_eq_true', Bool.not_eq_true']
  rintro (hp | hup)
  · exact absurd (hp.symm.trans h.1) Bool.false_ne_true
  · exact absurd (hup.symm.trans h.2) Bool.false_ne_true

/-- Whether a request may be granted reads no mark of work. -/
theorem grantable_markBusy (m : BudgetMeas) (p : Port) (s : State) : grantable (markBusy p.dom s) m p = grantable s m p := by
  have hget : (markBusy p.dom s).dom.get p.dom = { s.dom.get p.dom with busy := true } := get_put ..
  unfold grantable affordable active
  rw [hget]
  rfl

/-- A band ordered anew. -/
theorem orderBand_orders {d : Dom} {b : Nat} {s : State} (hd : d ≠ .aon) (hb : (s.dom.get d).band ≠ b) :
    orderBand d b s = bump (0xEC00 + 4 * (d.num - 1)) { s with dom := s.dom.put d { s.dom.get d with settle := some (s.dom.get d).band, band := b, idle := 0 } } := by
  unfold orderBand
  dsimp only
  rw [if_neg]
  · rfl
  · rw [Bool.or_eq_true, decide_eq_true_eq, beq_iff_eq]
    exact not_or_intro hb hd

theorem grantPace_raises (p : Port) (s : State) :
    ∃ k, grantPace p s = { s with ctr := k, dom := s.dom.put p.dom { s.dom.get p.dom with settle := some (s.dom.get p.dom).band, band := (s.dom.get p.dom).band + 1, idle := 0 }, bsc := { s.bsc with pace := s.bsc.pace.setPort p false } } := by
  have hraise := orderBand_orders (d := p.dom) (b := (s.dom.get p.dom).band + 1) (s := bump (0xEC1C + 4 * p.num) s) (port_dom_ne p) (Nat.ne_of_lt (Nat.lt_succ_self _))
  exact ⟨_, congrArg (fun v : State => { v with bsc := { v.bsc with pace := v.bsc.pace.setPort p false } }) hraise⟩

theorem paceRequest_grants (h : s.bsc.pace.port p = true ∧ aonUp s = true) (hg : grantable s m p = true) :
    ∃ u, exec (.paceRequest t p m) s = .next u ∧ (u.dom.get p.dom).band = (s.dom.get p.dom).band + 1
      ∧ (u.dom.get p.dom).settle = some (s.dom.get p.dom).band ∧ (u.dom.get p.dom).st = .active ∧ (∀ d, d ≠ p.dom → u.dom.get d = s.dom.get d)
      ∧ u = { reported s u with now := t, dom := u.dom, erc := s.erc, bsc := { s.bsc with pace := s.bsc.pace.setPort p false } } := by
  obtain ⟨k, hk⟩ := grantPace_raises p (markBusy p.dom (atTime t s))
  have hexec := paceRequest_examined (t := t) (m := m) h
  rw [grantable_markBusy, show grantable (atTime t s) m p = true from hg, if_pos rfl, hk] at hexec
  have hget : (markBusy p.dom (atTime t s)).dom.get p.dom = { s.dom.get p.dom with busy := true } := get_put ..
  rw [hget] at hexec
  have hactive : (s.dom.get p.dom).st = .active := by
    unfold grantable active at hg
    simp only [Bool.and_eq_true, beq_iff_eq] at hg
    exact hg.1.1.1.1
  refine settles hexec fun o g => ⟨?_, ?_, ?_, fun d hd => ?_, rfl⟩
  · exact congrArg DomSt.band (get_put ..)
  · exact congrArg DomSt.settle (get_put ..)
  · exact (congrArg DomSt.st (get_put ..)).trans hactive
  · exact (get_put_ne _ _ hd).trans (get_put_ne _ _ hd)

theorem paceRequest_stays (h : s.bsc.pace.port p = true ∧ aonUp s = true) (hg : grantable s m p = false) :
    ∃ u, exec (.paceRequest t p m) s = .next u ∧ u = { reported s u with now := t, erc := s.erc, dom := s.dom.put p.dom { s.dom.get p.dom with busy := true } } := by
  have hexec := paceRequest_examined (t := t) (m := m) h
  rw [grantable_markBusy, show grantable (atTime t s) m p = false from hg] at hexec
  exact settles hexec fun o g => rfl

end

/-! ## The budget period (R370 to R373) -/

/-- An ACTIVE domain stands at or above its floor. -/
def OnFloor (d : Dom) (s : State) : Prop := active s d = true → (s.dom.get d).floor ≤ (s.dom.get d).band

/-- The measurements stand, and no domain falls below its floor. -/
structure Banded (s u : State) : Prop where
  iAvg : u.bsc.iAvg = s.bsc.iAvg
  tj : u.bsc.tj = s.bsc.tj
  floors : ∀ d, OnFloor d s → OnFloor d u

section
variable {s t u : State}

theorem Banded.refl (s : State) : Banded s s := ⟨rfl, rfl, fun _ h => h⟩

theorem Banded.trans (h : Banded s t) (k : Banded t u) : Banded s u := ⟨k.iAvg.trans h.iAvg, k.tj.trans h.tj, fun d hd => k.floors d (h.floors d hd)⟩

theorem Banded.foldl {α : Type} {f : State → α → State} (h : ∀ s a, Banded s (f s a)) (l : List α) (s : State) : Banded s (l.foldl f s) := by
  induction l generalizing s with
  | nil => exact .refl s
  | cons a l ih => exact (h s a).trans (ih (f s a))

/-- A domain changed in what does not lower its band beneath its floor. -/
theorem mapDom_banded (d : Dom) {f : DomSt → DomSt} (s : State) (hst : (f (s.dom.get d)).st = (s.dom.get d).st)
    (hband : OnFloor d s → (f (s.dom.get d)).st = .active → (f (s.dom.get d)).floor ≤ (f (s.dom.get d)).band) : Banded s (mapDom d f s) := by
  refine ⟨rfl, rfl, fun e he ha => ?_⟩
  by_cases hed : e = d
  · subst hed
    have hget : (mapDom e f s).dom.get e = f (s.dom.get e) := get_put ..
    unfold active at ha
    rw [hget] at ha ⊢
    exact hband he (beq_iff_eq.mp ha)
  · have hget : (mapDom d f s).dom.get e = s.dom.get e := get_put_ne _ _ hed
    unfold active at ha
    rw [hget] at ha ⊢
    exact he ha

theorem orderBand_banded {d : Dom} {b : Nat} {s : State} (h : OnFloor d s → active s d = true → (s.dom.get d).floor ≤ b) : Banded s (orderBand d b s) := by
  unfold orderBand
  dsimp only
  split
  · exact .refl s
  · have hmap := mapDom_banded d (f := fun x => { x with settle := some (s.dom.get d).band, band := b, idle := 0 }) s rfl fun ho ha => h ho (beq_iff_eq.mpr ha)
    exact ⟨hmap.iAvg, hmap.tj, hmap.floors⟩

theorem markBusy_banded (d : Dom) (s : State) : Banded s (markBusy d s) := mapDom_banded d s rfl fun h ha => h (beq_iff_eq.mpr ha)

theorem grantPace_banded (p : Port) (s : State) : Banded s (grantPace p s) := by
  have hraise : Banded (bump (0xEC1C + 4 * p.num) s) (orderBand p.dom ((s.dom.get p.dom).band + 1) (bump (0xEC1C + 4 * p.num) s)) :=
    orderBand_banded fun ho ha => Nat.le_succ_of_le (ho ha)
  exact ⟨hraise.iAvg, hraise.tj, hraise.floors⟩

theorem servePace_banded (m : BudgetMeas) (a : List Dom × State) : Banded a.2 (servePace m a).2 := by
  unfold servePace
  generalize [Port.p0, .p1] = l
  induction l generalizing a with
  | nil => exact .refl _
  | cons p l ih =>
    refine .trans ?_ (ih _)
    dsimp only
    split
    · exact grantPace_banded ..
    · exact .refl _

theorem lowerIdle_banded (a : List Dom × State) : Banded a.2 (lowerIdle a) := by
  unfold lowerIdle
  refine .foldl (fun s d => ?_) _ _
  extract_lets x waits n v
  have hmarked : Banded s v := mapDom_banded d s rfl fun h ha => h (beq_iff_eq.mpr ha)
  split
  case isTrue hidle =>
    refine hmarked.trans (orderBand_banded fun ho ha => ?_)
    have habove : above s d > 0 := by
      by_contra hno
      have hzero : n = 0 := if_neg (by rw [decide_eq_false hno]; exact Bool.false_ne_true)
      rw [hzero] at hidle
      exact absurd hidle Bool.false_ne_true
    have hget : v.dom.get d = { s.dom.get d with idle := n, busy := false } := get_put ..
    unfold above at habove
    rw [hget]
    show (s.dom.get d).floor ≤ (s.dom.get d).band - 1
    split at habove <;> omega
  case isFalse => exact hmarked

theorem pickJob_banded (r : Resource) (s : State) : Banded s (pickJob r s) := by
  unfold pickJob
  split
  · exact .refl s
  split
  · exact .refl s
  case _ j _ =>
    extract_lets picked urgent marked
    have hurgent : Banded s urgent := by
      unfold urgent
      split <;> exact ⟨rfl, rfl, fun _ h => h⟩
    have hmarked : Banded urgent marked := by
      unfold marked
      cases r
      case host => exact markBusy_banded ..
      case lanes => exact (markBusy_banded ..).trans (markBusy_banded ..)
      case nvm => exact .refl _
      case port0 => exact markBusy_banded ..
      case port1 => exact markBusy_banded ..
    have hbanded := hurgent.trans hmarked
    exact ⟨hbanded.iAvg, hbanded.tj, hbanded.floors⟩

/-- A domain raised to its floor where it stands below it. -/
def raised (a : List Dom × State) (d : Dom) : List Dom × State :=
  if active a.2 d && (a.2.dom.get d).band < (a.2.dom.get d).floor then (d :: a.1, orderBand d (a.2.dom.get d).floor a.2) else a

theorem raised_onFloor {d : Dom} (hd : d ≠ .aon) (a : List Dom × State) : Banded a.2 (raised a d).2 ∧ OnFloor d (raised a d).2 := by
  unfold raised
  split
  case isTrue hlow =>
    rw [Bool.and_eq_true, decide_eq_true_eq] at hlow
    refine ⟨orderBand_banded fun _ _ => Nat.le_refl _, fun _ => ?_⟩
    have hget := congrArg (fun v : State => v.dom.get d) (orderBand_orders hd (Nat.ne_of_lt hlow.2))
    rw [show (orderBand d (a.2.dom.get d).floor a.2).dom.get d = _ from hget.trans (get_put ..)]
  case isFalse hlow =>
    refine ⟨.refl _, fun ha => ?_⟩
    rw [ha, Bool.true_and, decide_eq_true_eq] at hlow
    exact not_lt.mp hlow

theorem raiseAll_floors {l : List Dom} (hl : ∀ d ∈ l, d ≠ .aon) (a : List Dom × State) :
    Banded a.2 (l.foldl raised a).2 ∧ ∀ d ∈ l, OnFloor d (l.foldl raised a).2 := by
  induction l generalizing a with
  | nil => exact ⟨.refl _, fun _ h => absurd h List.not_mem_nil⟩
  | cons d l ih =>
    obtain ⟨hbands, hrest⟩ := ih (fun e he => hl e (List.mem_cons_of_mem _ he)) (raised a d)
    obtain ⟨hband, hd⟩ := raised_onFloor (hl d List.mem_cons_self) a
    exact ⟨hband.trans hbands, fun e he => (List.mem_cons.mp he).elim (fun h => h ▸ hbands.floors d hd) fun h => hrest e h⟩

theorem mem_allDoms (d : Dom) : d ∈ allDoms := by cases d <;> decide

/-- Step 3 raises every domain below its floor. -/
theorem raiseLow_floors (a : List Dom × State) : Banded a.2 (raiseLow a).2 ∧ ∀ d, d ≠ .aon → OnFloor d (raiseLow a).2 := by
  obtain ⟨hbands, hfloors⟩ := raiseAll_floors (l := allDoms.filter (· != Dom.aon)) (by decide) a
  exact ⟨hbands, fun d hd => hfloors d (List.mem_filter.mpr ⟨mem_allDoms d, bne_iff_ne.mpr hd⟩)⟩

/-- Steps 1 and 2 keep the measurements. -/
theorem guards_measures (m : BudgetMeas) (a : List Dom × State) : (guards m a).2.bsc.iAvg = a.2.bsc.iAvg ∧ (guards m a).2.bsc.tj = a.2.bsc.tj := by
  have hcounts : (guardCounts m a.2).bsc.iAvg = a.2.bsc.iAvg ∧ (guardCounts m a.2).bsc.tj = a.2.bsc.tj := by
    unfold guardCounts
    extract_lets b flat hot cool nOver under trip th cu v w
    have hv : v.bsc = a.2.bsc := by unfold v; split <;> rfl
    have hw : w.bsc = v.bsc := by unfold w; split <;> rfl
    obtain ⟨d, k, i, h, -⟩ := leanUpdate_update { w with bsc := { w.bsc with hot := min hot 100, cool := min cool 10000, nOver := min nOver 100, under := min under 10000, trip := min trip 10, leanThermal := th, leanCurrent := cu } }
    rw [h]
    exact ⟨(congrArg BscSt.iAvg (hw.trans hv) :), (congrArg BscSt.tj (hw.trans hv) :)⟩
  have hlower : ∀ ctr (a : List Dom × State), (lowerOne ctr a).2.bsc = a.2.bsc := fun ctr a => by
    unfold lowerOne
    split
    · rfl
    · exact (orderBand_control ..).bsc
  unfold guards
  extract_lets v l
  split
  · have hhalted := bothHard_halted .thermal (note evThermalTrip .aon 1 (lo32 m.tj) 0 0 v)
    have hnote := (note_stays evThermalTrip .aon 1 (lo32 m.tj) 0 0 v).bsc
    exact ⟨hhalted.iAvg.trans ((congrArg BscSt.iAvg hnote).trans hcounts.1), hhalted.tj.trans ((congrArg BscSt.tj hnote).trans hcounts.2)⟩
  · have hl : l.2.bsc = v.bsc := by
      unfold l
      split
      · exact hlower ..
      · rfl
    split
    · rw [hlower, hl]
      exact hcounts
    · rw [hl]
      exact hcounts

/-- The state with a period's measurements. -/
def measured (t : Int) (m : BudgetMeas) (s : State) : State := { atTime t s with bsc := { s.bsc with iAvg := m.iAvg, tj := m.tj } }

/-- What a period does while the device runs. -/
def budgeted (m : BudgetMeas) (s : State) : State :=
  [Resource.host, .lanes, .nvm, .port0, .port1].foldl (fun s r => pickJob r s) (lowerIdle (servePace m (raiseLow (guards m ([], s)))))

theorem budgetPeriod_runs {t : Int} {m : BudgetMeas} (h : aonUp s = true) (hoff : s.bsc.power ≠ .off) (hstandby : s.bsc.power ≠ .standby) :
    exec (.budgetPeriod t m) s = settle (budgeted m (measured t m s)) := by
  show execBudgetPeriod t m s = _
  unfold execBudgetPeriod
  dsimp only
  rw [if_neg (by rw [show aonUp (atTime t s) = true from h]; decide)]
  split
  case h_1 hp => exact absurd hp hoff
  case h_2 hp => exact absurd hp hstandby
  case h_3 => rfl

theorem budgeted_floors (m : BudgetMeas) (s : State) :
    (budgeted m s).bsc.iAvg = s.bsc.iAvg ∧ (budgeted m s).bsc.tj = s.bsc.tj ∧ ∀ d, d ≠ .aon → OnFloor d (budgeted m s) := by
  obtain ⟨hi, ht⟩ := guards_measures m ([], s)
  obtain ⟨hraised, hfloors⟩ := raiseLow_floors (guards m ([], s))
  have hlater : Banded (raiseLow (guards m ([], s))).2 (budgeted m s) :=
    (servePace_banded m _).trans ((lowerIdle_banded _).trans (.foldl (fun s r => pickJob_banded r s) _ _))
  have hall := hraised.trans hlater
  exact ⟨hall.iAvg.trans hi, hall.tj.trans ht, fun d hd => hlater.floors d (hfloors d hd)⟩

theorem budgetPeriod_lost {t : Int} {m : BudgetMeas} (h : aonUp s = false) : exec (.budgetPeriod t m) s = settle (atTime t s) :=
  if_pos (by rw [show aonUp (atTime t s) = false from h]; rfl)

theorem budgetPeriod_off {t : Int} {m : BudgetMeas} (h : aonUp s = true) (hoff : s.bsc.power = .off) : exec (.budgetPeriod t m) s = settle (measured t m s) := by
  show execBudgetPeriod t m s = _
  unfold execBudgetPeriod
  dsimp only
  rw [if_neg (by rw [show aonUp (atTime t s) = true from h]; decide)]
  split
  case h_1 => rfl
  case h_2 hp => exact absurd (hoff.symm.trans hp) (by decide)
  case h_3 hp _ => exact absurd hoff hp

end

/-- Settles O51: what POWER_REQUEST, a pace request, a settled band and a budget period do. -/
theorem powerRequestsAndBandsKeepFloors : Obligations.PowerRequestsAndBandsKeepFloors := by
  unfold Obligations.PowerRequestsAndBandsKeepFloors
  refine ⟨fun c s h => ?request, fun t p m s => ⟨paceRequest_grants, paceRequest_stays, fun h => settles (paceRequest_waits h) fun _ _ => rfl⟩,
    fun t d s => settles (v := mapDom d (fun x => { x with settle := none }) (atTime t s)) rfl fun _ _ => rfl,
    fun t m s => ⟨fun hup hoff hstandby => ?budget, fun hlost => settles (budgetPeriod_lost hlost) fun _ _ => rfl,
      fun hup hoff => settles (budgetPeriod_off hup hoff) fun _ _ => rfl⟩⟩
  case request =>
    obtain ⟨x, hx, -⟩ := taken_of_passes h
    obtain ⟨_, _, _, _, _, hu⟩ := hx.update
    have hbsc : x.bsc = s.bsc := by rw [hu]
    refine ⟨fun hv hmay => ?_, fun hv hmay => hx.refuses (effPowerRequest_refuses (.inl ⟨hv, by unfold mayStandby; rw [hbsc]; exact hmay⟩)),
      fun hv hp => powerRequest_leans hx (on := false) hv hp, fun hv h1 h2 => hx.refuses (effPowerRequest_refuses (.inr (.inl ⟨hv, by rw [hbsc]; exact ⟨h1, h2⟩⟩))),
      fun hv hp => powerRequest_leans hx (on := true) hv hp,
      fun hv h1 h2 h3 => hx.refuses (effPowerRequest_refuses (.inr (.inr ⟨hv, by rw [hbsc]; exact ⟨h1, h2, h3⟩⟩)))⟩
    obtain ⟨u, hexec, hat, hpower, ⟨a, hwritten⟩, hrest⟩ := powerRequest_standby hx hv hmay
    exact ⟨u, a, hexec, hat, hpower, hwritten, hrest⟩
  case budget =>
    obtain ⟨hi, ht, hfloors⟩ := budgeted_floors m (measured t m s)
    have hexec := budgetPeriod_runs (t := t) (m := m) hup hoff hstandby
    generalize budgeted m (measured t m s) = v at hi ht hfloors hexec
    exact settles hexec fun _ _ => ⟨hi, ht, fun d hd ha => hfloors d hd ha⟩

end Sys2Proof.Proofs
end
section
/-!
PROOFS. The supply and the power-fail sequence (R359, R378, R381).
-/

namespace Sys2Proof.Proofs
open Sys2Proof.Machine Sys2Proof.Laws

section
variable {s t u : State}

/-! ## Words written at once (R228, R416, R418) -/

/-- A store whose tables of words are in order. -/
structure StoreOrdered (p : PstSt) : Prop where
  words : nvmWf p = true
  bad : rising p.bad = true

theorem StoreOrdered.nvmStore {p : PstSt} (h : StoreOrdered p) (w : Nat) (v : Word) : StoreOrdered (nvmStore w v p) :=
  ⟨nvmWf_nvmStore w v p h.words, rising_tput false w false p.bad h.bad⟩

theorem StoreOrdered.wordWritten {p : PstSt} (h : StoreOrdered p) (w : Nat) (v : Word) : StoreOrdered (wordWritten false w v p) := by
  unfold Proofs.wordWritten
  rw [if_neg Bool.false_ne_true]
  split
  · exact h.nvmStore w v
  · exact h

theorem flushQueue_ordered (n : Nat) (s : State) (h : StoreOrdered s.pst) : StoreOrdered (flushQueue n s).pst := by
  induction n generalizing s with
  | zero => exact h
  | succ n ih =>
    refine ih _ ?_
    rcases hq : s.pst.wq with - | ⟨⟨w, v⟩, q⟩
    · unfold writeQueued
      rw [hq]
      exact h
    · obtain ⟨i, hw⟩ := writeQueued_update false hq
      rw [hw]
      unfold headWritten
      have hword := h.wordWritten w v
      split
      · exact ⟨hword.words, hword.bad⟩
      · exact ⟨hword.words, hword.bad⟩

/-- One word written at once is a page write where it changes. -/
theorem writeNow_one (w : Nat) (v : Word) (s : State) :
    writeNow [(w, v)] s = if wouldWrite s.pst w v then gaugeInc (w / 64) { s with pst := nvmStore w v s.pst } else s := by
  have hpages : (([(w, v)] : List (Nat × Word)).map (fun e => e.1 / 64)).eraseDups = [w / 64] := by
    rw [List.map_cons, List.map_nil, List.eraseDups_cons, List.filter_nil, List.eraseDups_nil]
  have hpage : ([(w, v)] : List (Nat × Word)).filter (fun e => e.1 / 64 == w / 64) = [(w, v)] :=
    List.filter_cons_of_pos (p := fun e : Nat × Word => e.1 / 64 == w / 64) (beq_self_eq_true _)
  unfold writeNow
  dsimp only
  rw [hpages, List.foldl_cons, List.foldl_nil, hpage, List.foldl_cons, List.foldl_nil]
  by_cases h : wouldWrite s.pst w v = true
  · rw [if_pos h, if_pos h]
    rfl
  · rw [if_neg h, if_neg h]
    rfl

/-- A word written at once reads as written. -/
theorem writeNow_one_reads (w : Nat) (v : Word) (s : State) (h : StoreOrdered s.pst) : nvmWord? (writeNow [(w, v)] s).pst w = some v := by
  rw [writeNow_one]
  by_cases hw : wouldWrite s.pst w v = true
  · obtain ⟨i, hi⟩ := gaugeInc_update (w / 64) { s with pst := nvmStore w v s.pst }
    rw [if_pos hw, hi]
    refine nvmWord?_nvmStore (p := s.pst) w v ?_ h.bad
    have hwf := h.words
    unfold nvmWf at hwf
    rw [Bool.and_eq_true] at hwf
    exact hwf.1
  · rw [if_neg hw]
    unfold wouldWrite at hw
    rw [bne_iff_ne, ne_eq, not_not] at hw
    exact hw

/-- Every other word reads as before. -/
theorem writeNow_one_other {w k : Nat} (v : Word) (s : State) (h : k ≠ w) : nvmWord? (writeNow [(w, v)] s).pst k = nvmWord? s.pst k := by
  rw [writeNow_one]
  split
  · obtain ⟨i, hi⟩ := gaugeInc_update (w / 64) { s with pst := nvmStore w v s.pst }
    rw [hi]
    exact nvmWord?_nvmStore_ne v s.pst h
  · rfl

/-- Only the words and the gauges change, and the events on their way. -/
structure WordsOnly (s u : State) : Prop where
  eq : ∃ w b g k i, u = { s with pst := { s.pst with words := w, bad := b, gauge := g, gaugeKept := k }, erc := { s.erc with inbox := i } }

theorem WordsOnly.refl (s : State) : WordsOnly s s := ⟨_, _, _, _, _, rfl⟩

theorem WordsOnly.trans (h : WordsOnly s t) (k : WordsOnly t u) : WordsOnly s u := by
  obtain ⟨_, _, _, _, _, rfl⟩ := h
  obtain ⟨w, b, g, k, i, rfl⟩ := k
  exact ⟨w, b, g, k, i, rfl⟩

theorem WordsOnly.foldl {α : Type} {f : State → α → State} (h : ∀ s a, WordsOnly s (f s a)) (l : List α) (s : State) : WordsOnly s (l.foldl f s) := by
  induction l generalizing s with
  | nil => exact .refl s
  | cons a l ih => exact (h s a).trans (ih (f s a))

theorem writeNow_words (ws : List (Nat × Word)) (s : State) : WordsOnly s (writeNow ws s) := by
  have hstore : ∀ (l : List (Nat × Word)) (a : Bool × PstSt),
      ∃ w b, (l.foldl (fun a e => if wouldWrite a.2 e.1 e.2 then (true, nvmStore e.1 e.2 a.2) else a) a).2 = { a.2 with words := w, bad := b } := fun l => by
    induction l with
    | nil => exact fun a => ⟨_, _, rfl⟩
    | cons e l ih =>
      intro a
      obtain ⟨w, b, h⟩ := ih (if wouldWrite a.2 e.1 e.2 then (true, nvmStore e.1 e.2 a.2) else a)
      refine ⟨w, b, h.trans ?_⟩
      split <;> rfl
  unfold writeNow
  refine .foldl (fun s g => ?_) _ s
  extract_lets r v
  obtain ⟨w, b, h⟩ := hstore (ws.filter (fun e => e.1 / 64 == g)) (false, s.pst)
  have hv : v = { s with pst := { s.pst with words := w, bad := b } } := congrArg (fun p => { s with pst := p }) h
  rw [hv]
  split
  · obtain ⟨i, hi⟩ := gaugeInc_update g { s with pst := { s.pst with words := w, bad := b } }
    rw [hi]
    exact ⟨_, _, _, _, _, rfl⟩
  · exact ⟨_, _, _, _, _, rfl⟩

/-! ## The sequence (R378) -/

/-- Step 6 writes the store and the recorder's own numbers. -/
theorem step6_update (record : Bool) (snap : Option (Word × List Word)) (lost : Nat) (s : State) :
    ∃ p e, step6 record snap lost s = { s with pst := p, erc := e } ∧ p.wq = s.pst.wq ∧ p.commits = [] := by
  have hkeep : ∀ r v, ∃ c e, keepRecord r v = { v with pst := { v.pst with commits := c }, erc := e } := fun r v => by
    unfold keepRecord
    split
    · exact ⟨_, _, rfl⟩
    · exact ⟨_, _, rfl⟩
  unfold step6
  extract_lets page store written n r e kept recorded
  obtain ⟨_, _, _, _, _, hwritten⟩ := writeNow_words [(64 * page + 63, w32 s.pst.opSeconds)] { s with pst := { s.pst with opCommits := s.pst.opCommits + 1 } }
  have hrecorded : ∃ p e, recorded = { s with pst := p, erc := e } ∧ p.wq = s.pst.wq := by
    unfold recorded
    split
    · obtain ⟨c, e', hkept⟩ := hkeep (formRecord written e) written
      have hfold : WordsOnly kept (kept.pst.commits.foldl (fun s c => writeNow c.words s) kept) := .foldl (fun s (c : Commit) => writeNow_words c.words s) _ _
      obtain ⟨_, _, _, _, _, hfold⟩ := hfold
      rw [hfold, show kept = _ from hkept, show written = _ from hwritten]
      exact ⟨_, _, rfl, rfl⟩
    · rw [show written = _ from hwritten]
      exact ⟨_, _, rfl, rfl⟩
  clear_value recorded
  obtain ⟨p, e, rfl, hwq⟩ := hrecorded
  exact ⟨_, _, rfl, hwq, rfl⟩

/-- A device that a power-fail sequence has turned off. -/
structure Down (s u : State) : Prop where
  power : u.bsc.power = .off
  standbyAt : u.bsc.standbyAt = none
  doms : ∀ d, d ≠ .aon → (u.dom.get d).st = .off
  wq : u.pst.wq = []
  commits : u.pst.commits = []
  pending : u.pending = s.pending
  sec : u.sec = { s.sec with level := 0 }
  aon : u.bsc.aon = s.bsc.aon
  rstLow : u.bsc.rstLow = s.bsc.rstLow

theorem levelDown_eq (s : State) : (if s.sec.level = 0 then s else mapSec (fun x => { x with level := 0 }) s) = { s with sec := { s.sec with level := 0 } } := by
  by_cases h : s.sec.level = 0
  · have hsec : { s.sec with level := 0 } = s.sec := by rw [← h]
    rw [if_pos h, hsec]
  · rw [if_neg h]
    rfl

theorem failSequence_down (record : Bool) (n : Nat) (s : State) : Down s (failSequence record n s) := by
  unfold failSequence
  extract_lets snap taken lost up levelled flushed written off store recorder cleared stepped
  have hlevel : levelled = { s with sec := { s.sec with level := 0 } } := levelDown_eq s
  have hflushed : StoreOnly levelled flushed := by
    unfold flushed
    split
    · exact flushQueue_store ..
    · exact .refl _
  have hwritten : StoreOnly flushed written := by
    unfold written
    split
    · exact .refl _
    · exact snapshotWrite_store ..
  obtain ⟨⟨p, i, hw⟩⟩ := hflushed.trans hwritten
  rw [hlevel] at hw
  have hoff : AllOff written off := allOff_allOff _
  clear_value off
  have hcleared : cleared.pst.wq = [] ∧ cleared.pst.commits = [] := ⟨rfl, rfl⟩
  have hstepped : ∃ p e, stepped = { cleared with pst := p, erc := e } ∧ p.wq = [] ∧ p.commits = [] := by
    unfold stepped
    split
    · obtain ⟨p, e, h, hwq, hc⟩ := step6_update record snap lost cleared
      exact ⟨p, e, h, hwq, hc⟩
    · exact ⟨_, _, rfl, hcleared⟩
  clear_value stepped
  obtain ⟨q, e, rfl, hwq, hc⟩ := hstepped
  have hbsc : off.bsc.aon = s.bsc.aon ∧ off.bsc.rstLow = s.bsc.rstLow := by
    rw [hoff.bsc, hw]
    exact ⟨rfl, rfl⟩
  exact ⟨rfl, rfl, hoff.doms, hwq, hc, hoff.pending.trans (by rw [hw]), hoff.sec.trans (by rw [hw]), hbsc.1, hbsc.2⟩

/-- A sequence that does not reach the end of step 5 leaves no snapshot. -/
theorem failSequence_mark {record : Bool} {n : Nat} {s : State} (hn : n < 5) (htaken : snapTaken s = false) (h : StoreOrdered s.pst) :
    nvmWord? (failSequence record n s).pst markWord = some 0 := by
  unfold failSequence
  extract_lets snap taken lost up levelled flushed written off store recorder cleared stepped
  have hlevel : levelled = { s with sec := { s.sec with level := 0 } } := levelDown_eq s
  have hflushed : StoreOrdered flushed.pst := by
    unfold flushed
    split
    · exact flushQueue_ordered _ _ (by rw [hlevel]; exact h)
    · rw [hlevel]
      exact h
  have hwritten : written = writeNow [(markWord, 0)] flushed := by
    unfold written taken
    rw [htaken, if_neg (show ¬ n ≥ 5 by omega)]
    rfl
  have hoff : AllOff written off := allOff_allOff _
  have hstepped : stepped = cleared := if_neg (by
    rw [decide_eq_false (show ¬ n ≥ 6 by omega), Bool.and_false]
    exact Bool.false_ne_true)
  rw [hstepped]
  show nvmWord? off.pst markWord = some 0
  unfold nvmWord?
  rw [hoff.words, hoff.bad, hwritten]
  exact writeNow_one_reads markWord 0 flushed hflushed

end

section
variable {t : Int} {n : Nat} {s : State}

theorem powerFail_runs (h : s.bsc.aon = .released) :
    exec (.powerFail t n) s = settle { failSequence true n (atTime t s) with bsc := { (failSequence true n (atTime t s)).bsc with aon := .failWait } } :=
  if_neg (by rw [show (atTime t s).bsc.aon = .released from h]; decide)

theorem powerFail_idle (h : s.bsc.aon ≠ .released) : exec (.powerFail t n) s = settle (atTime t s) := if_pos (bne_iff_ne.mpr h)

theorem offDom_aon (s : State) : ((offDom .aon s).dom.get .aon).st = .off ∧ ∀ d, d ≠ .aon → (offDom .aon s).dom.get d = s.dom.get d :=
  ⟨rfl, fun _ hd => get_put_ne _ _ hd⟩

end

/-- Settles O52: what the supply's events do. -/
theorem powerFailureTurnsTheDeviceOff : Obligations.PowerFailureTurnsTheDeviceOff := by
  unfold Obligations.PowerFailureTurnsTheDeviceOff
  refine ⟨fun t mv s => ⟨settles (congrArg settle (note_update ..)) fun _ _ => rfl, settles (congrArg settle (note_update ..)) fun _ _ => rfl⟩,
    fun t n s => ⟨fun h => ?fails, fun h => settles (powerFail_idle h) fun _ _ => rfl, ?off⟩⟩
  case fails =>
    have hdown := failSequence_down true n (atTime t s)
    have hmark : n < 5 → snapTaken s = false → nvmWf s.pst = true → rising s.pst.bad = true → nvmWord? (failSequence true n (atTime t s)).pst markWord = some 0 :=
      fun hn htaken hw hb => failSequence_mark hn htaken ⟨hw, hb⟩
    have hexec := powerFail_runs (t := t) (n := n) h
    generalize failSequence true n (atTime t s) = v at hdown hmark hexec
    exact settles hexec fun _ _ => ⟨⟨hdown.power, hdown.standbyAt, hdown.doms, hdown.wq, hdown.commits, hdown.pending, hdown.sec⟩, rfl, hmark⟩
  case off =>
    by_cases h : s.bsc.aon = .released
    · have hdown := failSequence_down true 0 (atTime t s)
      have hexec : exec (.aonLoss t) s = settle (offDom .aon { failSequence true 0 (atTime t s) with bsc := { (failSequence true 0 (atTime t s)).bsc with aon := .off, power := .off } }) :=
        congrArg (fun v : State => settle (offDom .aon { v with bsc := { v.bsc with aon := .off, power := .off } })) (if_pos (beq_iff_eq.mpr h))
      generalize failSequence true 0 (atTime t s) = v at hdown hexec
      refine settles hexec fun _ _ => ⟨rfl, rfl, rfl, fun _ => ⟨rfl, hdown.standbyAt, fun d hd => ?_, hdown.wq, hdown.commits, hdown.pending, hdown.sec⟩, fun hno => absurd h hno⟩
      exact (congrArg DomSt.st ((offDom_aon _).2 d hd)).trans (hdown.doms d hd)
    · have hexec : exec (.aonLoss t) s = settle (offDom .aon { atTime t s with bsc := { s.bsc with aon := .off, power := .off } }) :=
        congrArg (fun v : State => settle (offDom .aon { v with bsc := { v.bsc with aon := .off, power := .off } })) (if_neg fun hr => h (beq_iff_eq.mp hr))
      exact settles hexec fun _ _ => ⟨rfl, rfl, rfl, fun hr => absurd hr h, fun _ => ⟨rfl, rfl⟩⟩

end Sys2Proof.Proofs
end

section
/-!
PROOFS. The starts of AON, the wake, RESET_N, STANDBY and a trip of AON (R361, R365, R395, R398, R433, R435 to R440).
-/

namespace Sys2Proof.Proofs
open Sys2Proof.Machine Sys2Proof.Laws

section
variable {t tj : Int} {s v : State}

/-! ## The wake (R438, R440) -/

/-- A domain that starts is in RAMP; beside its state only network state changes. -/
theorem startDom_update (d : Dom) (f : Nat) (s : State) : ∃ x n, startDom d f s = { s with dom := s.dom.put d x, net := n } ∧ x.st = .ramp := by
  cases d <;> exact ⟨_, _, rfl, rfl⟩

/-- What the wake leaves of a state. -/
structure Woken (s u : State) : Prop where
  update : ∃ m n i, u = { s with dom := m, net := n, erc := { s.erc with inbox := i }, lcm := LcmSt.reset,
                                 bsc := { s.bsc with power := .start, bringup := 1, tested := ⟨false, false⟩, halt := .none, wakeWait := false } }
  host : (u.dom.get .host).st = .ramp
  lanes : ∀ l : Lane, (u.dom.get l.dom).st = .ramp
  others : ∀ d, d ≠ .host → d ≠ .lanex → d ≠ .laney → u.dom.get d = s.dom.get d
  inbox : s.erc.inbox ⊆ u.erc.inbox

theorem setPower_inbox (p : PState) (s : State) : s.erc.inbox ⊆ (setPower p s).erc.inbox := by
  unfold setPower
  split
  · exact List.Subset.refl _
  · exact (note_stays evPowerState .aon 1 (w32 s.bsc.power.code) (w32 p.code) (w32 (leanBits s.bsc)) { s with bsc := { s.bsc with power := p } }).inbox

theorem wake_wakes (s : State) : Woken s (wake s) := by
  unfold wake
  extract_lets b v
  have hinbox : s.erc.inbox ⊆ v.erc.inbox := by
    refine List.Subset.trans ?_ (setPower_inbox ..)
    exact List.Subset.refl _
  have hv : v = _ := setPower_frame ..
  obtain ⟨x, n, hx, hxst⟩ := startDom_update .host (domFloor v .host) v
  obtain ⟨y, k, hy, hyst⟩ := startDom_update .lanex (domFloor (domStart .host v) .lanex) (domStart .host v)
  obtain ⟨z, l, hz, hzst⟩ := startDom_update .laney (domFloor (domStart .lanex (domStart .host v)) .laney) (domStart .lanex (domStart .host v))
  have hall : [Dom.host, .lanex, .laney].foldl (fun s d => domStart d s) v = { v with dom := ((v.dom.put .host x).put .lanex y).put .laney z, net := l } := by
    refine Eq.trans hz ?_
    rw [show domStart .lanex (domStart .host v) = _ from hy, show domStart .host v = _ from hx]
  rw [hall]
  refine ⟨⟨_, _, _, by rw [hv]⟩, hxst, fun l => ?_, fun d h1 h2 h3 => ?_, hinbox⟩
  · cases l
    · exact hyst
    · exact hzst
  · refine (get_put_ne _ _ h3).trans ((get_put_ne _ _ h2).trans ((get_put_ne _ _ h1).trans ?_))
    rw [hv]

/-- A wake that waits for the junction to cool. -/
def wakeWaits (s : State) : State := { s with bsc := { s.bsc with wakeWait := true } }

theorem wakeAt_cases (tj : Int) (s : State) :
    (wakeAt tj s = wakeWaits s ∧ s.bsc.halt = .thermal ∧ coolEnough s tj = false) ∨ (wakeAt tj s = wake s ∧ ¬ (s.bsc.halt = .thermal ∧ coolEnough s tj = false)) := by
  unfold wakeAt
  split
  case isTrue h =>
    rw [Bool.and_eq_true, beq_iff_eq, Bool.not_eq_true'] at h
    exact .inl ⟨rfl, h⟩
  case isFalse h =>
    rw [Bool.and_eq_true, beq_iff_eq, Bool.not_eq_true'] at h
    exact .inr ⟨rfl, h⟩

theorem wakeN_wakes (hp : s.bsc.power = .standby) (hup : aonUp s = true) :
    ∃ u, exec (.wakeN t tj) s = .next u
      ∧ (u.bsc.power = .start ∧ u.lcm = LcmSt.reset ∧ (u.dom.get .host).st = .ramp ∧ (u.dom.get .lanex).st = .ramp ∧ (u.dom.get .laney).st = .ramp
          ∧ u.bsc.bringup = 1 ∧ u.bsc.halt = .none
        ∨ u.bsc.power = .standby ∧ s.bsc.halt = .thermal ∧ coolEnough s tj = false ∧ u.bsc.wakeWait = true)
      ∧ u.sec = s.sec ∧ u.pst = s.pst ∧ u.regs = s.regs := by
  have hexec : exec (.wakeN t tj) s = settle (wakeAt tj (atTime t s)) := if_pos (by rw [show (atTime t s).bsc.power = .standby from hp, show aonUp (atTime t s) = true from hup]; rfl)
  obtain ⟨hwaits, hthermal, hhot⟩ | ⟨hwakes, -⟩ := wakeAt_cases tj (atTime t s)
  · exact settles (hexec.trans (congrArg settle hwaits)) fun _ _ => ⟨.inr ⟨hp, hthermal, hhot, rfl⟩, rfl, rfl, rfl⟩
  · have hwoken := wake_wakes (atTime t s)
    rw [hwakes] at hexec
    generalize wake (atTime t s) = w at hwoken hexec
    obtain ⟨m, n, i, hw⟩ := hwoken.update
    have hhost := hwoken.host
    have hlanes := hwoken.lanes
    rw [hw] at hexec hhost hlanes
    exact settles hexec fun _ _ => ⟨.inl ⟨rfl, rfl, hhost, hlanes .x, hlanes .y, rfl, rfl⟩, rfl, rfl, rfl⟩

theorem wakeN_ignored (h : s.bsc.power ≠ .standby ∨ aonUp s = false) : exec (.wakeN t tj) s = settle (atTime t s) := by
  refine if_neg ?_
  rw [Bool.and_eq_true, beq_iff_eq]
  rintro ⟨hp, hup⟩
  exact h.elim (fun hne => hne hp) fun hlost => absurd (hlost.symm.trans hup) Bool.false_ne_true

/-! ## RESET_N (R435) -/

theorem resetNAssert_downs (h : s.bsc.aon = .released) :
    ∃ u, exec (.resetNAssert t) s = .next u ∧ u.bsc.aon = .resetLow ∧ u.bsc.rstLow = true ∧ u.bsc.power = .off ∧ ∀ d, d ≠ .aon → (u.dom.get d).st = .off := by
  have hdown := failSequence_down false 6 { atTime t s with bsc := { s.bsc with rstLow := true } }
  have hexec : exec (.resetNAssert t) s = settle (let v := failSequence false 6 { atTime t s with bsc := { s.bsc with rstLow := true } }; { v with bsc := { v.bsc with aon := .resetLow } }) := by
    show execResetNAssert t s = _
    unfold execResetNAssert
    dsimp only
    split
    case h_1 => rfl
    case h_2 hw => exact absurd (h.symm.trans hw) (by decide)
    case h_3 hno _ => exact absurd h hno
  generalize failSequence false 6 _ = v at hdown hexec
  exact settles hexec fun _ _ => ⟨rfl, hdown.rstLow, hdown.power, hdown.doms⟩

theorem resetNAssert_holds (h : s.bsc.aon = .failWait) :
    exec (.resetNAssert t) s = settle { atTime t s with bsc := { s.bsc with rstLow := true, aon := .resetLow } } := by
  show execResetNAssert t s = _
  unfold execResetNAssert
  dsimp only
  rw [show (atTime t s).bsc.aon = .failWait from h]
  rfl

theorem vinReturn_reset (h : s.bsc.aon = .resetLow) : exec (.vinReturn t tj) s = settle (atTime t s) := by
  show execVinReturn t tj s = _
  unfold execVinReturn
  dsimp only
  rw [show (atTime t s).bsc.aon = .resetLow from h]

/-! ## STANDBY_ENTRY (R365, R398) -/

theorem standbyEntry_waits (h : ¬ ∃ a, s.bsc.standbyAt = some a ∧ a ≤ t) : exec (.standbyEntry t) s = settle (atTime t s) := by
  show execStandbyEntry t s = _
  unfold execStandbyEntry
  dsimp only
  split
  · rfl
  case _ a ha => exact if_pos (not_le.mp fun hle => h ⟨a, ha, hle⟩)

theorem standbyEntry_enters (h : ∃ a, s.bsc.standbyAt = some a ∧ a ≤ t) :
    ∃ u, exec (.standbyEntry t) s = .next u ∧ u.bsc = { s.bsc with power := .standby, standbyAt := none }
      ∧ u.sec = (if s.sec.level = 3 then s.sec else { s.sec with level := 0, d2 := none })
      ∧ u = { commanded s u with now := t, bsc := u.bsc, sec := u.sec, pst := s.pst } := by
  obtain ⟨a, ha, hle⟩ := h
  obtain ⟨k, i, w, g, h, hend⟩ : ∃ k i w g h, (if s.sec.level = 3 then atTime t s else endSession 5 (atTime t s))
      = { atTime t s with ctr := k, erc := { s.erc with inbox := i }, out := s.out ++ w, hre := { hreTold s.hre g with out := h }, sec := if s.sec.level = 3 then s.sec else sessionless s.sec } := by
    split
    · exact ⟨s.ctr, s.erc.inbox, [], s.hre, s.hre.out, by rw [List.append_nil]; rfl⟩
    · exact endSession_update 5 (atTime t s)
  have hexec : exec (.standbyEntry t) s = settle (let v := if s.sec.level = 3 then atTime t s else endSession 5 (atTime t s); setPower .standby { v with bsc := { v.bsc with standbyAt := none } }) := by
    show execStandbyEntry t s = _
    unfold execStandbyEntry
    dsimp only
    rw [show (atTime t s).bsc.standbyAt = some a from ha]
    exact if_neg (not_lt.mpr hle)
  rw [hend, setPower_frame] at hexec
  exact settles hexec fun _ _ => ⟨rfl, rfl, rfl⟩

/-! ## The start of AON (R437) -/

/-- What every later step of AON's start leaves as it is. -/
structure Starting (s u : State) : Prop where
  pending : u.pending = s.pending
  bsc : u.bsc = s.bsc
  dom : u.dom = s.dom
  hre : u.hre = s.hre
  lifecycle : u.sec.lifecycle = s.sec.lifecycle

/-- One that leaves the keys and, beside the count of power cycles, the NVM. -/
structure StartingKept (s u : State) : Prop extends Starting s u where
  slots : u.sec.slots = s.sec.slots
  words : ∀ k, k ≠ 1599 → nvmWord u.pst k = nvmWord s.pst k

theorem Starting.trans {t : State} (h : Starting s t) (k : Starting t v) : Starting s v :=
  ⟨k.pending.trans h.pending, k.bsc.trans h.bsc, k.dom.trans h.dom, k.hre.trans h.hre, k.lifecycle.trans h.lifecycle⟩

theorem StartingKept.trans {t : State} (h : StartingKept s t) (k : StartingKept t v) : StartingKept s v :=
  { h.toStarting.trans k.toStarting with slots := k.slots.trans h.slots, words := fun n hn => (k.words n hn).trans (h.words n hn) }

theorem note_starting (code : Nat) (d : Dom) (b : Nat) (p0 p1 p2 : Word) (s : State) : StartingKept s (note code d b p0 p1 p2 s) := by
  rw [note_update]
  exact ⟨⟨rfl, rfl, rfl, rfl, rfl⟩, rfl, fun _ _ => rfl⟩

theorem decomClear_starting (h : s.pst.topo = none) : Starting s (decomClear s) := by
  unfold decomClear
  extract_lets dead v
  have hv : topoCancel v = v := by
    unfold topoCancel
    rw [show v.pst.topo = none from h]
  rw [hv]
  exact (Starting.mk rfl rfl rfl rfl rfl : Starting s (decomStore v)).trans (note_starting ..).toStarting

theorem aonRead_starting (s : State) : StartingKept s (aonRead s) := ⟨⟨rfl, rfl, rfl, rfl, rfl⟩, rfl, fun _ _ => rfl⟩

theorem writeNow_starting (v : Word) (s : State) : StartingKept s (writeNow [(1599, v)] s) := by
  have hwords : ∀ k, k ≠ 1599 → nvmWord (writeNow [(1599, v)] s).pst k = nvmWord s.pst k := fun k hk => by
    unfold nvmWord
    rw [writeNow_one_other v s hk]
  obtain ⟨_, _, _, _, _, h⟩ := writeNow_words [(1599, v)] s
  rw [h] at hwords ⊢
  exact ⟨⟨rfl, rfl, rfl, rfl, rfl⟩, rfl, hwords⟩

theorem pregFails_starting (s : State) : StartingKept s (pregFails s) := by
  have hfold : ∀ (l : List (Nat × Bool)) (s : State), StartingKept s (l.foldl (fun s e => if e.2 && (pregOffset e.1).isSome then note evNvmWordFail .aon 2 (w32 e.1) 0 0 s else s) s) := fun l => by
    induction l with
    | nil => exact fun s => ⟨⟨rfl, rfl, rfl, rfl, rfl⟩, rfl, fun _ _ => rfl⟩
    | cons e l ih =>
      intro s
      refine .trans ?_ (ih _)
      dsimp only
      split
      · exact note_starting ..
      · exact ⟨⟨rfl, rfl, rfl, rfl, rfl⟩, rfl, fun _ _ => rfl⟩
  exact hfold _ s

theorem pregFails_cycles (s : State) : (pregFails s).pst.cycles = s.pst.cycles := by
  have hfold : ∀ (l : List (Nat × Bool)) (s : State), (l.foldl (fun s e => if e.2 && (pregOffset e.1).isSome then note evNvmWordFail .aon 2 (w32 e.1) 0 0 s else s) s).pst = s.pst := fun l => by
    induction l with
    | nil => exact fun _ => rfl
    | cons e l ih =>
      intro s
      refine (ih _).trans ?_
      dsimp only
      split
      · exact (note_stays ..).pst
      · rfl
  exact congrArg PstSt.cycles (hfold _ s)

/-- What AON's start leaves before the wake. -/
structure PoweredUp (tj : Int) (s v : State) : Prop where
  pending : v.pending = s.pending
  aon : v.bsc.aon = .released
  power : v.bsc.power = .standby
  dom : v.dom = Doms.reset
  busMaster : v.hre.busMaster = false
  lifecycle : v.sec.lifecycle = s.sec.lifecycle
  kept : s.sec.decom = none → v.sec.slots = s.sec.slots ∧ (∀ k, k ≠ 1599 → nvmWord v.pst k = nvmWord s.pst k) ∧ v.pst.cycles = satAdd 32 (nvmWord s.pst 1599).toNat 1
  said : ({ code := evPowerUp, src := 0, p0 := w32 (b2n s.pst.cleanDown), p1 := w32 s.pst.lostDown, p2 := 0, solo := false } : EvIn) ∈ v.erc.inbox

theorem aonStart_powersUp (tj : Int) (s : State) : ∃ v, aonStart tj s = wakeAt tj v ∧ PoweredUp tj s v := by
  unfold aonStart
  extract_lets fresh p cyc sel halt clean lost b0 p0 h0 x0 fresh' cleared read p1 counted keyed n0 netted failed said stated thermal b1
  have hcleared : Starting fresh' cleared := by
    unfold cleared
    split
    · exact decomClear_starting rfl
    · exact ⟨rfl, rfl, rfl, rfl, rfl⟩
  have hread : StartingKept cleared read := aonRead_starting _
  have hcounted : StartingKept read counted := .trans (t := { read with pst := { read.pst with cycles := cyc } }) ⟨⟨rfl, rfl, rfl, rfl, rfl⟩, rfl, fun _ _ => rfl⟩ (writeNow_starting ..)
  have hcycles : counted.pst.cycles = cyc := by
    obtain ⟨_, _, _, _, _, h⟩ := writeNow_words [(64 * 24 + 63, w32 cyc)] { read with pst := { read.pst with cycles := cyc } }
    rw [show counted = _ from h]
  have hkeyed : StartingKept counted keyed ∧ keyed.pst = counted.pst := by
    unfold keyed
    split <;> exact ⟨⟨⟨rfl, rfl, rfl, rfl, rfl⟩, rfl, fun _ _ => rfl⟩, rfl⟩
  have hnetted : StartingKept keyed netted := ⟨⟨rfl, rfl, rfl, rfl, rfl⟩, rfl, fun _ _ => rfl⟩
  have hfailed : StartingKept netted failed := pregFails_starting _
  have hsaid : StartingKept failed said := note_starting ..
  have hstated : StartingKept said stated := note_starting ..
  have hkept := hread.trans (hcounted.trans (hkeyed.1.trans (hnetted.trans (hfailed.trans (hsaid.trans hstated)))))
  have hall := hcleared.trans hkept.toStarting
  have hup : aonUp failed = true := by
    have h := (hcleared.trans (hread.trans (hcounted.trans (hkeyed.1.trans (hnetted.trans hfailed)))).toStarting)
    unfold aonUp active
    rw [h.dom, h.bsc]
    rfl
  have hsame : s.sec.decom = none → cleared = fresh' := fun hnone => if_neg (by
    rw [show fresh'.sec.decom = none from hnone]
    exact Bool.false_ne_true)
  have hsaidp : stated.pst.cycles = failed.pst.cycles := congrArg PstSt.cycles ((note_stays ..).pst.trans (note_stays ..).pst)
  have hfailedp : failed.pst.cycles = netted.pst.cycles := pregFails_cycles _
  have hnettedp : netted.pst = keyed.pst := rfl
  have hin : ({ code := evPowerUp, src := 0, p0 := w32 (b2n s.pst.cleanDown), p1 := w32 s.pst.lostDown, p2 := 0, solo := false } : EvIn) ∈ said.erc.inbox := by
    rw [show said = _ from note_up evPowerUp .aon 0 (w32 (b2n clean)) (w32 lost) 0 hup]
    exact List.mem_append_right _ (List.mem_singleton.mpr rfl)
  have hsays : said.erc.inbox ⊆ stated.erc.inbox := (note_stays ..).inbox
  clear_value stated said failed netted keyed counted read cleared
  refine ⟨_, rfl, hall.pending, (congrArg BscSt.aon hall.bsc :), (congrArg BscSt.power hall.bsc :), hall.dom, (congrArg HreSt.busMaster hall.hre :), hall.lifecycle, fun hnone => ?_, hsays hin⟩
  rw [hsame hnone] at hkept
  exact ⟨hkept.slots, hkept.words, hsaidp.trans (hfailedp.trans ((congrArg PstSt.cycles (hnettedp.trans hkeyed.2)).trans hcycles))⟩

/-- What a power-up leaves, for every state from which AON starts with that of s. -/
theorem powerUp_wakes {s0 : State} {r : Host.Outcome State Fault Refusal} (h : r = settle (aonStart tj s0)) (hpending : s0.pending = s.pending) (hsec : s0.sec = s.sec)
    (hpst : s0.pst = s.pst) :
    ∃ u, r = .next u ∧ u.bsc.aon = .released ∧ u.pending = s.pending
      ∧ (u.bsc.power = .start ∧ (u.dom.get .host).st = .ramp ∧ (u.dom.get .lanex).st = .ramp ∧ (u.dom.get .laney).st = .ramp ∧ u.bsc.bringup = 1
        ∨ u.bsc.power = .standby ∧ u.bsc.wakeWait = true)
      ∧ (coolEnough u tj = true → u.bsc.power = .start)
      ∧ (u.dom.get .aon).st = .active ∧ (u.dom.get .port0).st = .off ∧ (u.dom.get .port1).st = .off ∧ (u.dom.get .ring).st = .off
      ∧ (u.dom.get .field).st = .off ∧ u.sec.lifecycle = s.sec.lifecycle ∧ u.hre.busMaster = false
      ∧ (s.sec.decom = none → u.sec.slots = s.sec.slots ∧ (∀ k, k ≠ 1599 → nvmWord u.pst k = nvmWord s.pst k) ∧ u.pst.cycles = satAdd 32 (nvmWord s.pst 1599).toNat 1)
      ∧ ({ code := evPowerUp, src := 0, p0 := w32 (b2n s.pst.cleanDown), p1 := w32 s.pst.lostDown, p2 := 0, solo := false } : EvIn) ∈ u.erc.inbox := by
  obtain ⟨v, hstart, hup⟩ := aonStart_powersUp tj s0
  obtain ⟨hp, haon, hpower, hdom, hbm, hlife, hkept, hsaid⟩ := hup
  rw [hpending] at hp
  rw [hsec] at hlife
  rw [hsec, hpst] at hkept
  rw [hpst] at hsaid
  have hreset : ∀ d, (v.dom.get d).st = (Doms.reset.get d).st := fun d => by rw [hdom]
  rw [hstart] at h
  obtain ⟨hwaits, -, hhot⟩ | ⟨hwakes, hcool⟩ := wakeAt_cases tj v
  · rw [hwaits] at h
    exact settles h fun o g => ⟨haon, hp, .inr ⟨hpower, rfl⟩, fun hc => absurd (hhot.symm.trans hc) Bool.false_ne_true, hreset .aon, hreset .port0, hreset .port1, hreset .ring,
      hreset .field, hlife, hbm, hkept, hsaid⟩
  · rw [hwakes] at h
    have hwoken := wake_wakes v
    generalize wake v = w at h hwoken
    obtain ⟨m, n, i, hw⟩ := hwoken.update
    have hhost := hwoken.host
    have hlanes := hwoken.lanes
    have hothers := hwoken.others
    have hinbox := hwoken.inbox
    rw [hw] at h hhost hlanes hothers hinbox
    have hother : ∀ d, d ≠ .host → d ≠ .lanex → d ≠ .laney → (m.get d).st = (Doms.reset.get d).st := fun d h1 h2 h3 => (congrArg DomSt.st (hothers d h1 h2 h3)).trans (hreset d)
    exact settles h fun o g => ⟨haon, hp, .inl ⟨rfl, hhost, hlanes .x, hlanes .y, rfl⟩, fun _ => rfl, hother .aon (by decide) (by decide) (by decide),
      hother .port0 (by decide) (by decide) (by decide), hother .port1 (by decide) (by decide) (by decide), hother .ring (by decide) (by decide) (by decide),
      hother .field (by decide) (by decide) (by decide), hlife, hbm, hkept, hinbox hsaid⟩

theorem vinReturn_starts (h : s.bsc.aon = .off ∨ s.bsc.aon = .failWait) (hlow : s.bsc.rstLow = false) : exec (.vinReturn t tj) s = settle (aonStart tj (atTime t s)) := by
  show execVinReturn t tj s = _
  unfold execVinReturn
  dsimp only
  have hrst : ¬ (atTime t s).bsc.rstLow = true := by
    rw [show (atTime t s).bsc.rstLow = false from hlow]
    exact Bool.false_ne_true
  obtain h | h := h
  · rw [show (atTime t s).bsc.aon = .off from h]
    exact if_neg hrst
  · rw [show (atTime t s).bsc.aon = .failWait from h]
    exact if_neg hrst

theorem resetNRelease_starts (h : s.bsc.aon = .resetLow) :
    exec (.resetNRelease t tj) s = settle (aonStart tj { atTime t s with bsc := { s.bsc with rstLow := false } }) := if_pos (beq_iff_eq.mpr h)

/-! ## A trip of AON (R361, R433) -/

theorem topoCancel_update (s : State) : ∃ k i w g h a b, topoCancel s = { s with ctr := k, erc := { s.erc with inbox := i }, out := s.out ++ w, hre := { hreTold s.hre g with out := h }, pst := { s.pst with topo := none, bankA := a, bankB := b } } := by
  unfold topoCancel
  split
  case _ hnone =>
    have hpst : { s.pst with topo := none } = s.pst := by rw [← hnone]
    exact ⟨s.ctr, s.erc.inbox, [], s.hre, s.hre.out, s.pst.bankA, s.pst.bankB, by rw [List.append_nil, hpst]; rfl⟩
  case _ w _ =>
    obtain ⟨a, b, hbank⟩ := setBankState_update w.bank .inactive { s with pst := { s.pst with topo := none } }
    obtain ⟨k, i, o, g, hfin⟩ := finish_update w.id stCancelled 0 0 (setBankState w.bank .inactive { s with pst := { s.pst with topo := none } })
    rw [hfin, hbank]
    exact ⟨k, i, o, g, _, a, b, rfl⟩

theorem leanUpdate_lost (h : aonUp s = false) : leanUpdate s = { s with bsc := { s.bsc with power := leanPower s.bsc } } := by
  have hpower : setPower (leanPower s.bsc) s = { s with bsc := { s.bsc with power := leanPower s.bsc } } := by
    unfold setPower
    split
    case isTrue hsame => rw [hsame]
    case isFalse => exact note_lost _ _ _ _ _ _ h
  rw [leanUpdate_eq, hpower]
  exact if_pos (by
    rw [show aonUp { s with bsc := { s.bsc with power := leanPower s.bsc } } = false from h]
    exact Bool.or_true _)

theorem leanPower_aon (b : BscSt) (h : b.leanAon = true) : leanPower b = if b.power = .service then .lean else b.power := by
  have hcause : leanCause b = true := by
    unfold leanCause leanBits
    rw [h, bne_iff_ne]
    exact fun hz => by simp [b2n] at hz
  unfold leanPower
  rw [hcause]
  cases b.power <;> rfl

theorem aonTrip_trips (h : aonUp s = true) :
    ∃ u, exec (.aonTrip t) s = .next u ∧ (u.dom.get .aon).st = .tripped ∧ aonUp u = false ∧ u.bsc.leanAon = true
      ∧ u.bsc.power = (if s.bsc.power = .service then .lean else s.bsc.power) ∧ u.sec.level = 0 ∧ u.sec.d2 = none ∧ u.sec.slots = s.sec.slots
      ∧ u.sec.lifecycle = s.sec.lifecycle ∧ u.pst.words = s.pst.words ∧ u.pst.wq = [] ∧ u.pst.topo = none ∧ u.erc.inbox = [] ∧ u.erc.frozen = false
      ∧ u.regs = s.regs ∧ (∀ d, d ≠ .aon → u.dom.get d = s.dom.get d) := by
  have hexec : exec (.aonTrip t) s = settle (aonLost (atTime t s)) := if_pos h
  obtain ⟨k, i, w, g, o, hend⟩ := endSession_update 4 (atTime t s)
  obtain ⟨k', i', w', g', o', a, b, htopo⟩ := topoCancel_update (endSession 4 (atTime t s))
  unfold aonLost at hexec
  rw [htopo, hend] at hexec
  dsimp only at hexec
  rw [leanUpdate_lost rfl] at hexec
  refine settles hexec fun _ _ => ⟨rfl, rfl, rfl, leanPower_aon _ rfl, rfl, rfl, rfl, rfl, rfl, rfl, rfl, rfl, rfl, rfl, fun d hd => get_put_ne _ _ hd⟩

theorem aonTrip_idle (h : aonUp s = false) : exec (.aonTrip t) s = settle (atTime t s) := if_neg (by
  rw [show aonUp (atTime t s) = false from h]
  exact Bool.false_ne_true)

end

/-- Settles O53: the starts of AON, the wake, RESET_N, the entry into STANDBY and a trip of AON. -/
theorem powerUpAndTripsRestartState : Obligations.PowerUpAndTripsRestartState := by
  unfold Obligations.PowerUpAndTripsRestartState
  refine ⟨⟨fun t tj s i hi => ?start, fun t tj s => ⟨fun h => settles (vinReturn_reset h) fun _ _ => rfl, fun hp hup => wakeN_wakes hp hup,
      fun h => settles (wakeN_ignored h) fun _ _ => rfl, fun h => resetNAssert_downs h, fun h => settles (resetNAssert_holds h) fun _ _ => rfl⟩⟩,
    fun t s => ⟨fun h => standbyEntry_enters h, fun h => settles (standbyEntry_waits h) fun _ _ => rfl⟩,
    fun t s => ⟨fun h => aonTrip_trips h, fun h => settles (aonTrip_idle h) fun _ _ => rfl⟩⟩
  case start =>
    obtain ⟨rfl, h, hlow⟩ | ⟨rfl, h⟩ := hi
    · exact powerUp_wakes (vinReturn_starts h hlow) rfl rfl rfl
    · exact powerUp_wakes (resetNRelease_starts h) rfl rfl rfl

end Sys2Proof.Proofs
end

section
/-!
PROOFS. The power domains other than AON and the lanes: what their loss leaves as it is, trips, restarts and BSC_DOMCTL (R14, R77, R360 to R362).
-/

namespace Sys2Proof.Proofs
open Sys2Proof.Machine Sys2Proof.Laws

/-! ## What the loss of a domain leaves as it is (R14) -/

/-- The security state, the store and the stage of the start stand, and every event on its way stays on its way. -/
structure Kept (s u : State) : Prop where
  sec : u.sec = s.sec
  pst : u.pst = s.pst
  bringup : u.bsc.bringup = s.bsc.bringup
  aon : u.bsc.aon = s.bsc.aon
  inbox : s.erc.inbox ⊆ u.erc.inbox

/-- And so do the domains. -/
structure Spares (s u : State) : Prop extends Kept s u where
  dom : u.dom = s.dom

section
variable {s t u : State}

theorem Kept.refl (s : State) : Kept s s := ⟨rfl, rfl, rfl, rfl, List.Subset.refl _⟩

theorem Kept.trans (h : Kept s t) (k : Kept t u) : Kept s u :=
  ⟨k.sec.trans h.sec, k.pst.trans h.pst, k.bringup.trans h.bringup, k.aon.trans h.aon, List.Subset.trans h.inbox k.inbox⟩

theorem Kept.of_eq (hs : u.sec = s.sec) (hp : u.pst = s.pst) (hb : u.bsc.bringup = s.bsc.bringup) (ha : u.bsc.aon = s.bsc.aon) (he : u.erc = s.erc) : Kept s u :=
  ⟨hs, hp, hb, ha, by rw [he]; exact List.Subset.refl _⟩

theorem Spares.refl (s : State) : Spares s s := ⟨.refl s, rfl⟩

theorem Spares.trans (h : Spares s t) (k : Spares t u) : Spares s u := ⟨h.toKept.trans k.toKept, k.dom.trans h.dom⟩

/-- A later part leaves what the earlier one does. -/
theorem Spares.after (k : Spares t u) (h : Spares s t) : Spares s u := h.trans k

theorem Spares.foldl {α : Type} {f : State → α → State} (h : ∀ s a, Spares s (f s a)) (l : List α) (s : State) : Spares s (l.foldl f s) :=
  List.foldlRecOn l f (motive := Spares s) (.refl s) fun u hu a _ => hu.trans (h u a)

theorem Stays.spares (h : Stays s u) : Spares s u := ⟨⟨h.sec, h.pst, by rw [h.bsc], by rw [h.bsc], h.inbox⟩, h.dom⟩

/-- What changes none of these changes no event either. -/
theorem Spares.of_eq (hs : u.sec = s.sec) (hp : u.pst = s.pst) (hb : u.bsc.bringup = s.bsc.bringup) (ha : u.bsc.aon = s.bsc.aon) (hd : u.dom = s.dom)
    (he : u.erc = s.erc) : Spares s u := ⟨.of_eq hs hp hb ha he, hd⟩

end

section
variable (l : Lane) (s : State)

theorem noteEv_stays (e : EvIn) : Stays s (noteEv e s) := by
  rw [noteEv_update]
  exact ⟨rfl, rfl, rfl, rfl, rfl, rfl, List.subset_append_left _ _⟩

theorem laneNote_stays (code blk : Nat) (p0 p1 p2 : Word) : Stays s (laneNote l code blk p0 p1 p2 s) := by
  unfold laneNote
  split
  · split
    · exact noteEv_stays s _
    · exact .refl s
  split
  · exact noteEv_stays s _
  · exact .refl s

theorem queueWatch_stays : Stays s (queueWatch l s) := by
  have hcount : ∀ (k : Tab Nat) (h : Two HenSt), Stays s { s with ctr := k, hen := h } := fun k h => .of_eq rfl rfl rfl rfl rfl rfl rfl
  unfold queueWatch
  extract_lets e n o v
  split
  · exact .trans (hcount _ _) (noteEv_stays ..)
  split
  · exact hcount _ _
  · exact hcount _ _

theorem streamEvents_stays (es : List HEvent) : Stays s (streamEvents l es s) := by
  unfold streamEvents
  split
  · exact .refl s
  · refine .foldl (fun s e => ?_) es s
    split
    · exact .of_eq rfl rfl rfl rfl rfl rfl rfl
    · exact .refl s

theorem slaveEvents_stays (es : List HEvent) : Stays s (slaveEvents l es s) := by
  unfold slaveEvents
  split
  · exact .refl s
  · refine .foldl (fun s e => ?_) es s
    split
    · exact .of_eq rfl rfl rfl rfl rfl rfl rfl
    · exact .refl s

theorem queueEvents_stays (out : List HEvent) : Stays s (queueEvents l out s) := by
  have hqueued : Stays s (mapHen l (fun e => { e with queue := e.queue ++ out.map (HItem.ev none) }) s) := .of_eq rfl rfl rfl rfl rfl rfl rfl
  exact ((hqueued.trans (queueWatch_stays l _)).trans (streamEvents_stays l _ out)).trans (slaveEvents_stays l _ out)

theorem sweepWork_stays (h : Nat) (w : HWork) : Stays s (sweepWork l h w s) := by
  unfold sweepWork
  split
  · exact .refl s
  split
  · exact .refl s
  · exact .of_eq rfl rfl rfl rfl rfl rfl rfl

end

theorem keepWork_stays (l : Lane) (h old : Nat) (w : HWork) (s : State) : Stays s (keepWork l h old w s) := by
  unfold keepWork
  extract_lets v q
  have hput : Stays s v := (sweepWork_stays l s h w).trans (.of_eq rfl rfl rfl rfl rfl rfl rfl)
  have hq : Stays s q := hput.trans (queueEvents_stays l v w.out)
  refine List.foldlRecOn w.out _ (motive := fun a : State × Nat => Stays s a.1) hq fun a ha e _ => ?_
  split
  · exact ha.trans (laneNote_stays ..)
  · exact ha

theorem headsFail_stays (n cause : Nat) (s : State) : Stays s (headsFail n cause s) := by
  unfold headsFail
  refine .foldl (fun s e => .foldl (fun s l => ?_) _ _) _ _
  extract_lets pr x
  split
  · exact .refl s
  · exact keepWork_stays ..

theorem fchLost_stays (i : Fch) (s : State) : Stays s (fchLost i s) := by
  unfold fchLost
  exact ((mapFch_stays ..).trans (syncsCancel_stays ..)).trans (cancelIds_stays ..)

theorem portLost_spares (p : Port) (s : State) : Spares s (portLost p s) := by
  unfold portLost
  extract_lets x ids noted defs ended chained survey bsc cleared
  have hnoted : Stays s noted := by
    unfold noted
    split
    · exact note_stays ..
    · exact .refl s
  have hended : Stays noted ended := .foldl (fun s d => endOutput_stays d s) _ _
  have hchained : Spares s chained := (hnoted.trans (hended.trans (fchLost_stays ..))).spares
  have hcleared : Spares chained cleared := .of_eq rfl rfl rfl rfl rfl rfl
  exact (hchained.trans hcleared).trans ((cancelIds_stays ..).trans (headsFail_stays ..)).spares

theorem fieldLost_spares (s : State) : Spares s (fieldLost s) := by
  unfold fieldLost
  extract_lets ids cal cancelled
  have hcancelled : Spares s cancelled := by
    refine .trans ?_ (cancelIds_stays ..).spares
    exact .of_eq rfl rfl rfl rfl rfl rfl
  have hreset : Spares cancelled { cancelled with lhf := LhfSt.reset, net := { cancelled.net with bus := LBusSt.reset } } := .of_eq rfl rfl rfl rfl rfl rfl
  exact (hcancelled.trans hreset).trans ((fchLost_stays ..).trans (headsFail_stays ..)).spares

theorem hostLoss_stays (stopped : Bool) (cause : Nat) (s : State) : Stays s (hostLoss stopped cause s) := by
  unfold hostLoss
  extract_lets kind noted
  split
  · exact .refl s
  · exact (note_stays ..).trans (.of_eq rfl rfl rfl rfl rfl rfl rfl)

theorem hostLost_spares (s : State) : Spares s (hostLost s) := by
  unfold hostLost
  extract_lets jobs dropped reset
  have hdropped : Spares s dropped := by
    refine (hostLoss_stays ..).spares.trans (.foldl (fun s j => ?_) _ _)
    exact .trans (finish_stays j.id stCancelled 0 0 s).spares (.of_eq rfl rfl rfl rfl rfl rfl)
  have hreset : Spares dropped reset := .of_eq rfl rfl rfl rfl rfl rfl
  exact (hdropped.trans hreset).trans (.of_eq rfl rfl rfl rfl rfl rfl)

/-- The domains that these rules speak of: neither AON nor a lane. -/
def Plain (d : Dom) : Prop := d ≠ .aon ∧ d ≠ .lanex ∧ d ≠ .laney

theorem domLost_spares {d : Dom} (hd : Plain d) (s : State) : Spares s (domLost d s) := by
  have hwords : ∀ v, Spares v (wordsReset d v) := fun v => .of_eq rfl rfl rfl rfl rfl rfl
  obtain ⟨-, hx, hy⟩ := hd
  cases d with
  | aon => exact hwords s
  | port0 => exact (portLost_spares ..).trans (hwords _)
  | port1 => exact (portLost_spares ..).trans (hwords _)
  | lanex => exact absurd rfl hx
  | laney => exact absurd rfl hy
  | ring => exact .of_eq rfl rfl rfl rfl rfl rfl
  | host => exact (hostLost_spares s).trans (hwords _)
  | field => exact (fieldLost_spares s).trans (hwords _)

/-! ## Trips and failed ROMs (R77, R360) -/

theorem setDom_plain {d : Dom} (hd : Plain d) (st : DState) (s : State) :
    setDom d st s = { s with dom := s.dom.put d { s.dom.get d with st := st, since := s.now } } := by
  obtain ⟨-, hx, hy⟩ := hd
  cases d with
  | lanex => exact absurd rfl hx
  | laney => exact absurd rfl hy
  | _ => rfl

/-- A domain lost and TRIPPED: no other domain changes. -/
theorem lost_trips {d : Dom} (hd : Plain d) (s : State) :
    let u := domLost d (setDom d .tripped s)
    (u.dom.get d).st = .tripped ∧ (∀ e, e ≠ d → u.dom.get e = s.dom.get e) ∧ Kept s u := by
  obtain ⟨hkept, hdom⟩ := domLost_spares hd (setDom d .tripped s)
  have hset : Kept s (setDom d .tripped s) ∧ (setDom d .tripped s).dom = s.dom.put d { s.dom.get d with st := .tripped, since := s.now } := by
    rw [setDom_plain hd]
    exact ⟨⟨rfl, rfl, rfl, rfl, List.Subset.refl _⟩, rfl⟩
  rw [hset.2] at hdom
  refine ⟨?_, fun e he => ?_, hset.1.trans hkept⟩
  · rw [hdom, get_put]
  · rw [hdom, get_put_ne _ _ he]

theorem note_event (code : Nat) (d : Dom) (b : Nat) (p0 p1 p2 : Word) {s : State} (h : aonUp s = true) :
    ({ code := code, src := 16 * d.num + b, p0 := p0, p1 := p1, p2 := p2, solo := false } : EvIn) ∈ (note code d b p0 p1 p2 s).erc.inbox := by
  rw [note_update, if_pos h]
  exact List.mem_append_right _ List.mem_cons_self

theorem tripDom_trips {d : Dom} (hd : Plain d) (cause : Nat) (s : State) :
    let u := tripDom d cause s
    (u.dom.get d).st = .tripped ∧ (aonUp s = true →
      ({ code := evDomainTrip, src := 0, p0 := w32 d.num, p1 := w32 cause, p2 := 0, solo := false } : EvIn) ∈ u.erc.inbox)
      ∧ (∀ e, e ≠ d → u.dom.get e = s.dom.get e) ∧ u.sec = s.sec := by
  have hnoted := note_stays evDomainTrip .aon 0 (w32 d.num) (w32 cause) 0 (bump (domCtr 0xEC54 d) s)
  obtain ⟨htripped, hothers, hkept⟩ := lost_trips hd (note evDomainTrip .aon 0 (w32 d.num) (w32 cause) 0 (bump (domCtr 0xEC54 d) s))
  exact ⟨htripped, fun hup => hkept.inbox (note_event (s := bump (domCtr 0xEC54 d) s) evDomainTrip .aon 0 _ _ _ hup),
    fun e he => (hothers e he).trans (congrArg (·.get e) hnoted.dom), hkept.sec.trans hnoted.sec⟩

/-- An event that stands is there after what keeps events. -/
theorem Kept.event {s u : State} (h : Kept s u) {e : EvIn} (he : e ∈ s.erc.inbox) : e ∈ u.erc.inbox := h.inbox he

/-! ## The entry into ACTIVE (R77, R360, R440) -/

theorem failLegacy_stays (n : Nat) (s : State) : Stays s (failLegacy n s) := by
  unfold failLegacy
  refine .foldl (fun s e => .foldl (fun s l => ?_) _ _) _ _
  extract_lets pr x
  split
  · exact .refl s
  · exact keepWork_stays ..

theorem mapSys_stays (n : Nat) (f : LSys → LSys) (s : State) : Stays s (mapSys n f s) := .of_eq rfl rfl rfl rfl rfl rfl rfl

theorem markFault_stays (n f : Nat) (s : State) : Stays s (markFault n f s) := (mapSys_stays ..).trans (failLegacy_stays ..)

theorem setFault_stays (n f : Nat) (r : Int) (s : State) : Stays s (setFault n f r s) := by
  unfold setFault
  split
  · exact .refl s
  · refine .trans ?_ (note_stays ..)
    exact .trans (markFault_stays n f s) (.of_eq rfl rfl rfl rfl rfl rfl rfl)

theorem fieldStart_spares (s : State) : Spares s (fieldStart s) ∧ (fieldStart s).stg = s.stg := by
  have hfaults : ∀ v : State, let u := (List.range 8).foldl (fun s n => if usableRanges s n = [] then setFault n 7 0 s else s) v
      Spares v u ∧ u.stg = v.stg := by
    refine fun v => List.foldlRecOn _ _ (motive := fun u => Spares v u ∧ u.stg = v.stg) ⟨.refl v, rfl⟩ fun u ⟨hu, hstg⟩ n _ => ?_
    split
    · exact ⟨hu.trans (setFault_stays ..).spares, (congrArg Prod.fst (setFault_front ..).outside :).trans hstg⟩
    · exact ⟨hu, hstg⟩
  obtain ⟨hspares, hstg⟩ := hfaults (mapFch .field (fun x => { x with run := true, close := none, endAt := none, buf := [], entered := none })
    { s with lhf := { LhfSt.reset with on := true, tG := grid10 (s.now + 20000), tT := (s.now / 1000000 + 1) * 1000000,
                                       sar := ⟨LSar.reset (grid10 (s.now + 20000)), LSar.reset (grid10 (s.now + 20000))⟩,
                                       sys := (List.range 8).map (startSys s (grid10 (s.now + 20000))) } })
  exact ⟨hspares.after (.of_eq rfl rfl rfl rfl rfl rfl), hstg⟩

theorem enterActive_enters {d : Dom} (hd : Plain d) (s : State) :
    let u := enterActive d s
    u.dom = s.dom.put d { s.dom.get d with st := .active, since := s.now } ∧ Kept s u ∧ u.stg = s.stg := by
  obtain ⟨-, hx, hy⟩ := hd
  cases d with
  | lanex => exact absurd rfl hx
  | laney => exact absurd rfl hy
  | field =>
    obtain ⟨hspares, hstg⟩ := fieldStart_spares
      (setDom .field .active { s with regs := { s.regs with held := s.regs.held.filter (fun e => domAt s .lanex e.1 != .field) } })
    refine ⟨hspares.dom, .trans ?_ hspares.toKept, hstg⟩
    exact .of_eq rfl rfl rfl rfl rfl
  | _ => exact ⟨rfl, .of_eq rfl rfl rfl rfl rfl, rfl⟩

section
variable {t : Int} {d : Dom} {s : State}

theorem rampEnd_idle (h : (s.dom.get d).st ≠ .ramp) (r : RampRead) : exec (.domainRampEnd t d r) s = settle (atTime t s) := by
  refine if_pos ?_
  rw [Bool.or_eq_true]
  exact .inl (bne_iff_ne.mpr h)

/-- The ramp of a plain domain, as the branches of its end need it. -/
theorem ramp_ends (hd : Plain d) (h : (s.dom.get d).st = .ramp) : ¬ (((atTime t s).dom.get d).st != .ramp || d == .aon) = true := by
  rw [Bool.or_eq_true, bne_iff_ne, beq_iff_eq]
  exact fun hor => hor.elim (fun hne => hne h) hd.1

theorem held_iff (hd : Plain d) :
    ((atTime t s).bsc.power == .safehalt && [Dom.lanex, .laney, .ring, .field].contains d) = true ↔ s.bsc.power = .safehalt ∧ (d = .ring ∨ d = .field) := by
  obtain ⟨-, hx, hy⟩ := hd
  rw [Bool.and_eq_true, beq_iff_eq, List.contains_iff_mem]
  show s.bsc.power = _ ∧ _ ↔ _
  simp [hx, hy]

theorem rampEnd_enters (hd : Plain d) (h : (s.dom.get d).st = .ramp) (hheld : ¬ (s.bsc.power = .safehalt ∧ (d = .ring ∨ d = .field))) (roms : List Nat) :
    exec (.domainRampEnd t d ⟨true, roms⟩) s = settle (roms.foldl (fun s e => romCheck (e, d) s) (enterActive d (atTime t s))) :=
  ((if_neg (ramp_ends hd h)).trans (if_neg Bool.false_ne_true)).trans (if_neg (mt (held_iff hd).mp hheld))

theorem rampEnd_holds (hd : Plain d) (h : (s.dom.get d).st = .ramp) (hheld : s.bsc.power = .safehalt ∧ (d = .ring ∨ d = .field)) (roms : List Nat) :
    exec (.domainRampEnd t d ⟨true, roms⟩) s = settle (setDom d .held (atTime t s)) :=
  ((if_neg (ramp_ends hd h)).trans (if_neg Bool.false_ne_true)).trans (if_pos ((held_iff hd).mpr hheld))

theorem rampEnd_trips (hd : Plain d) (h : (s.dom.get d).st = .ramp) (roms : List Nat) :
    exec (.domainRampEnd t d ⟨false, roms⟩) s = settle (tripDom d 3 (atTime t s)) := by
  refine ((if_neg (ramp_ends hd h)).trans (if_pos rfl)).trans ?_
  obtain ⟨-, hx, hy⟩ := hd
  cases d with
  | lanex => exact absurd rfl hx
  | laney => exact absurd rfl hy
  | _ => rfl

/-- A ROM of an ACTIVE domain that fails its check: the record, and the domain lost. -/
theorem romCheck_trips (hd : Plain d) (n : Nat) (h : active s d = true) :
    let u := romCheck (n, d) s
    (u.dom.get d).st = .tripped ∧ (∀ e, e ≠ d → u.dom.get e = s.dom.get e)
      ∧ (aonUp s = true → ({ code := evRomFail, src := 16 * d.num, p0 := w32 n, p1 := w32 d.num, p2 := 0, solo := false } : EvIn) ∈ u.erc.inbox) := by
  have hnoted := note_stays evRomFail d 0 (w32 n) (w32 d.num) 0 s
  have hactive : active (note evRomFail d 0 (w32 n) (w32 d.num) 0 s) d = true := by
    unfold active
    rw [hnoted.dom]
    exact h
  have hrom : romCheck (n, d) s = domLost d (setDom d .tripped (note evRomFail d 0 (w32 n) (w32 d.num) 0 s)) := by
    refine (if_pos h).trans ?_
    obtain ⟨haon, hx, hy⟩ := hd
    cases d with
    | aon => exact absurd rfl haon
    | lanex => exact absurd rfl hx
    | laney => exact absurd rfl hy
    | _ => exact if_pos hactive
  rw [hrom]
  obtain ⟨htripped, hothers, hkept⟩ := lost_trips hd (note evRomFail d 0 (w32 n) (w32 d.num) 0 s)
  exact ⟨htripped, fun e he => (hothers e he).trans (congrArg (·.get e) hnoted.dom), fun hup => hkept.event (note_event evRomFail d 0 _ _ _ hup)⟩

theorem rampEnd_romFails (hd : Plain d) (h : (s.dom.get d).st = .ramp) (hheld : ¬ (s.bsc.power = .safehalt ∧ (d = .ring ∨ d = .field))) (n : Nat) :
    ∃ u, exec (.domainRampEnd t d ⟨true, [n]⟩) s = .next u ∧ (u.dom.get d).st = .tripped ∧ (∀ e, e ≠ d → u.dom.get e = s.dom.get e)
      ∧ (aonUp s = true → ({ code := evRomFail, src := 16 * d.num, p0 := w32 n, p1 := w32 d.num, p2 := 0, solo := false } : EvIn) ∈ u.erc.inbox) := by
  obtain ⟨hdom, hkept, -⟩ := enterActive_enters hd (atTime t s)
  have hactive : active (enterActive d (atTime t s)) d = true := by
    unfold active
    rw [hdom, get_put]
    rfl
  have haon : aonUp (enterActive d (atTime t s)) = aonUp s := by
    unfold aonUp active
    rw [hdom, get_put_ne _ _ hd.1.symm, hkept.aon]
    rfl
  obtain ⟨htripped, hothers, hevent⟩ := romCheck_trips hd n hactive
  refine settles (rampEnd_enters hd h hheld [n]) fun _ _ => ⟨htripped, fun e he => (hothers e he).trans ?_, fun hup => hevent (haon.trans hup)⟩
  rw [hdom]
  exact get_put_ne _ _ he

end

section
variable {t : Int} {d : Dom} {s : State}

theorem domainTrip_trips (hd : Plain d) (k : Fin 3) (hoff : (s.dom.get d).st ≠ .off) (htripped : (s.dom.get d).st ≠ .tripped) :
    exec (.domainTrip t d k) s = settle (tripDom d k.val (atTime t s)) := by
  show execDomainTrip t d k s = _
  obtain ⟨haon, hx, hy⟩ := hd
  unfold execDomainTrip
  dsimp only
  split
  · exact absurd rfl haon
  case _ h => exact absurd h hoff
  case _ h => exact absurd h htripped
  · rw [beq_false_of_ne hx, beq_false_of_ne hy]
    rfl

theorem domainTrip_idle (k : Fin 3) (h : (s.dom.get d).st = .off ∨ (s.dom.get d).st = .tripped) : exec (.domainTrip t d k) s = settle (atTime t s) := by
  show execDomainTrip t d k s = _
  unfold execDomainTrip
  dsimp only
  split
  · rfl
  · rfl
  · rfl
  case _ hoff htripped => exact absurd h (not_or_intro hoff htripped)

/-! ## Restarts (R361) -/

/-- A domain as it starts with its floor. -/
def started (f : Nat) (now : Int) (x : DomSt) : DomSt :=
  { x with st := .ramp, since := now, band := f, floor := f, settle := none, idle := 0 }

theorem domStart_plain (hd : Plain d) (s : State) : domStart d s = { s with dom := s.dom.put d (started (domFloor s d) s.now (s.dom.get d)) } := by
  obtain ⟨-, hx, hy⟩ := hd
  cases d with
  | lanex => exact absurd rfl hx
  | laney => exact absurd rfl hy
  | _ => rfl

/-- The state as a restart records it, with its count. -/
def restartNoted (d : Dom) (s : State) : State :=
  note evDomainRestart .aon 0 (w32 d.num) (w32 (recentRestarts s d ++ [s.now]).length) 0 (bump (domCtr 0xEC70 d) s)

theorem restartDom_restarts (hd : Plain d) (s : State) : ∃ m k i, restartDom d s =
      { s with dom := m, ctr := k, erc := { s.erc with inbox := i }, bsc := { s.bsc with restartHold := s.bsc.restartHold.filter (· != d) } }
    ∧ (m.get d).st = .ramp ∧ (m.get d).restarts = recentRestarts s d ++ [s.now] ∧ ∀ e, e ≠ d → m.get e = s.dom.get e := by
  have hrestart : restartDom d s = domStart d (mapDom d (fun x => { x with restarts := recentRestarts s d ++ [s.now] })
      { restartNoted d s with bsc := { (restartNoted d s).bsc with restartHold := (restartNoted d s).bsc.restartHold.filter (· != d) } }) := rfl
  have hnoted : restartNoted d s = { s with ctr := (bump (domCtr 0xEC70 d) s).ctr, erc := { s.erc with inbox := (restartNoted d s).erc.inbox } } := by
    unfold restartNoted
    rw [note_update]
    rfl
  rw [hnoted] at hrestart
  rw [domStart_plain hd] at hrestart
  refine ⟨_, _, _, hrestart, ?_, ?_, fun e he => ?_⟩
  · rw [get_put]
    rfl
  · rw [get_put]
    exact congrArg DomSt.restarts (get_put ..)
  · rw [get_put_ne _ _ he]
    exact get_put_ne _ _ he

theorem domainRestart_early (h : (s.dom.get d).st ≠ .tripped ∨ t - (s.dom.get d).since < 10000000) :
    exec (.domainRestart t d) s = settle (atTime t s) := by
  refine if_pos ?_
  rw [Bool.or_eq_true, bne_iff_ne, decide_eq_true_iff]
  exact h

/-- The trip of a domain that has stood for 10 ms. -/
theorem trip_stood (htripped : (s.dom.get d).st = .tripped) (hlong : 10000000 ≤ t - (s.dom.get d).since) :
    ¬ (((atTime t s).dom.get d).st != .tripped || (atTime t s).now - ((atTime t s).dom.get d).since < 10000000) = true := by
  rw [Bool.or_eq_true, bne_iff_ne, decide_eq_true_iff]
  show ¬ ((s.dom.get d).st ≠ .tripped ∨ t - (s.dom.get d).since < 10000000)
  exact fun h => h.elim (fun hne => hne htripped) (fun hlt => absurd hlong (not_le.mpr hlt))

theorem domainRestart_restarts (hd : Plain d) (htripped : (s.dom.get d).st = .tripped) (hlong : 10000000 ≤ t - (s.dom.get d).since) (hup : aonUp s = true)
    (h : d = .host ∨ s.bsc.restartHold.contains d = false ∧ (recentRestarts (atTime t s) d).length < regF s 0xE008 2 0) :
    exec (.domainRestart t d) s = settle (restartDom d (atTime t s)) := by
  refine (if_neg (trip_stood htripped hlong)).trans ?_
  have hlimited : ∀ e, (s.bsc.restartHold.contains e = false ∧ (recentRestarts (atTime t s) e).length < regF s 0xE008 2 0) →
      (if (!aonUp (atTime t s) || (atTime t s).bsc.restartHold.contains e) = true then settle (atTime t s)
        else if (recentRestarts (atTime t s) e).length < regF (atTime t s) 0xE008 2 0 then settle (restartDom e (atTime t s))
        else settle (note evRestartLimit .aon 0 (w32 e.num) 0 0 { atTime t s with bsc := { (atTime t s).bsc with restartHold := (atTime t s).bsc.restartHold ++ [e] } }))
        = settle (restartDom e (atTime t s)) := by
    rintro e ⟨hheld, hfew⟩
    refine (if_neg ?_).trans (if_pos hfew)
    rw [show aonUp (atTime t s) = true from hup, show (atTime t s).bsc.restartHold.contains e = false from hheld]
    exact Bool.false_ne_true
  obtain ⟨haon, hx, hy⟩ := hd
  cases d with
  | aon => exact absurd rfl haon
  | lanex => exact absurd rfl hx
  | laney => exact absurd rfl hy
  | host => exact if_pos hup
  | _ => exact hlimited _ (h.resolve_left (by decide))

theorem domainRestart_limited (hd : Plain d) (htripped : (s.dom.get d).st = .tripped) (hlong : 10000000 ≤ t - (s.dom.get d).since) (hup : aonUp s = true)
    (hhost : d ≠ .host) (hheld : s.bsc.restartHold.contains d = false) (hmany : regF s 0xE008 2 0 ≤ (recentRestarts (atTime t s) d).length) :
    exec (.domainRestart t d) s = settle (note evRestartLimit .aon 0 (w32 d.num) 0 0
      { atTime t s with bsc := { s.bsc with restartHold := s.bsc.restartHold ++ [d] } }) := by
  refine (if_neg (trip_stood htripped hlong)).trans ?_
  have hopen : ¬ (!aonUp (atTime t s) || (atTime t s).bsc.restartHold.contains d) = true := by
    rw [show aonUp (atTime t s) = true from hup, show (atTime t s).bsc.restartHold.contains d = false from hheld]
    exact Bool.false_ne_true
  obtain ⟨haon, hx, hy⟩ := hd
  cases d with
  | aon => exact absurd rfl haon
  | lanex => exact absurd rfl hx
  | laney => exact absurd rfl hy
  | host => exact absurd rfl hhost
  | _ => exact (if_neg hopen).trans (if_neg (not_lt.mpr hmany))

end

/-! ## BSC_DOMCTL (R361, R362) -/

/-- One step after another on the domains of a list without repeats: each step moves the state of its own domain alone. -/
theorem foldl_doms {f : State → Dom × Nat → State} {P : Dom × Nat → DState → DState → Prop} (l : List (Dom × Nat)) (hl : (l.map Prod.fst).Nodup)
    (hf : ∀ p ∈ l, ∀ s, (∀ e, e ≠ p.1 → (f s p).dom.get e = s.dom.get e) ∧ P p (s.dom.get p.1).st ((f s p).dom.get p.1).st) (s : State) :
    (∀ p ∈ l, P p (s.dom.get p.1).st ((l.foldl f s).dom.get p.1).st) ∧ ∀ e, (∀ p ∈ l, e ≠ p.1) → (l.foldl f s).dom.get e = s.dom.get e := by
  induction l generalizing s with
  | nil => exact ⟨fun p hp => absurd hp List.not_mem_nil, fun _ _ => rfl⟩
  | cons q l ih =>
    rw [List.map_cons, List.nodup_cons] at hl
    obtain ⟨hothers, hq⟩ := hf q List.mem_cons_self s
    obtain ⟨hown, hrest⟩ := ih hl.2 (fun p hp => hf p (List.mem_cons_of_mem q hp)) (f s q)
    have hfresh : ∀ p ∈ l, q.1 ≠ p.1 := fun p hp h => hl.1 (h ▸ List.mem_map_of_mem hp)
    rw [List.foldl_cons]
    refine ⟨fun p hp => ?_, fun e he => ?_⟩
    · obtain rfl | hp := List.mem_cons.mp hp
      · rw [hrest _ hfresh]
        exact hq
      · have h := hown p hp
        rw [hothers _ (hfresh p hp).symm] at h
        exact h
    · rw [hrest e fun p hp => he p (List.mem_cons_of_mem q hp), hothers e (he q List.mem_cons_self)]

theorem domctl_plain {p : Dom × Nat} (hp : p ∈ domctlDoms) : Plain p.1 :=
  (by decide : ∀ p ∈ domctlDoms, p.1 ≠ .aon ∧ p.1 ≠ .lanex ∧ p.1 ≠ .laney) p hp

theorem domctl_nodup : (domctlDoms.map Prod.fst).Nodup := by decide

section
variable {t : Int} {b : BitVec 4} {s : State}

/-- RESTART's step for one domain. -/
def restartStep (v : Nat) (s : State) (p : Dom × Nat) : State := if v.testBit p.2 && (s.dom.get p.1).st == .tripped then restartDom p.1 s else s

theorem restartStep_keeps (v : Nat) {p : Dom × Nat} (hp : p ∈ domctlDoms) (s : State) :
    (restartStep v s p).sec = s.sec ∧ (restartStep v s p).pst = s.pst ∧ (restartStep v s p).regs = s.regs := by
  unfold restartStep
  split
  · obtain ⟨m, k, i, h, -⟩ := restartDom_restarts (domctl_plain hp) s
    rw [h]
    exact ⟨rfl, rfl, rfl⟩
  · exact ⟨rfl, rfl, rfl⟩

theorem restartStep_own (v : Nat) {p : Dom × Nat} (hp : p ∈ domctlDoms) (s : State) : (∀ e, e ≠ p.1 → (restartStep v s p).dom.get e = s.dom.get e)
    ∧ ((restartStep v s p).dom.get p.1).st = if v.testBit p.2 && (s.dom.get p.1).st == .tripped then .ramp else (s.dom.get p.1).st := by
  unfold restartStep
  split
  · obtain ⟨m, k, i, h, hramp, -, hothers⟩ := restartDom_restarts (domctl_plain hp) s
    rw [h]
    exact ⟨hothers, hramp⟩
  · exact ⟨fun _ _ => rfl, rfl⟩

theorem domctlRestart_restarts (hactive : active s .host = true) (hup : aonUp s = true) :
    ∃ u, exec (.bscDomctlRestart t b) s = .next u ∧ u.sec = s.sec ∧ u.pst = s.pst ∧ u.regs = s.regs
      ∧ (∀ p ∈ domctlDoms, (u.dom.get p.1).st = (if b.toNat.testBit p.2 && (s.dom.get p.1).st == .tripped then .ramp else (s.dom.get p.1).st)) := by
  have hexec : exec (.bscDomctlRestart t b) s = settle (domctlDoms.foldl (restartStep b.toNat) (atTime t s)) := by
    have hoff : ¬ (!active (atTime t s) .host) = true := by
      rw [show active (atTime t s) .host = true from hactive]
      exact Bool.false_ne_true
    refine (if_neg hoff).trans (congrArg settle (if_neg ?_))
    rw [show aonUp (atTime t s) = true from hup]
    exact Bool.false_ne_true
  obtain ⟨hown, -⟩ := foldl_doms (f := restartStep b.toNat) (P := fun p x y => y = if b.toNat.testBit p.2 && x == .tripped then .ramp else x)
    domctlDoms domctl_nodup (fun p hp s => restartStep_own b.toNat hp s) (atTime t s)
  have hkept : let u := domctlDoms.foldl (restartStep b.toNat) (atTime t s); u.sec = s.sec ∧ u.pst = s.pst ∧ u.regs = s.regs :=
    List.foldlRecOn _ _ (motive := fun u : State => u.sec = s.sec ∧ u.pst = s.pst ∧ u.regs = s.regs) ⟨rfl, rfl, rfl⟩ fun u ⟨hsec, hpst, hregs⟩ p hp => by
      obtain ⟨h1, h2, h3⟩ := restartStep_keeps b.toNat hp u
      exact ⟨h1.trans hsec, h2.trans hpst, h3.trans hregs⟩
  obtain ⟨hsec, hpst, hregs⟩ := hkept
  exact settles hexec fun _ _ => ⟨hsec, hpst, hregs, hown⟩

theorem switchOff_switches {d : Dom} (hd : Plain d) (s : State) : (∀ e, e ≠ d → (switchOff d s).dom.get e = s.dom.get e)
    ∧ ((switchOff d s).dom.get d).st = .off ∧ Kept s (switchOff d s) := by
  unfold switchOff
  split
  case isTrue h => exact ⟨fun _ _ => rfl, eq_of_beq h, .refl s⟩
  case isFalse =>
    rw [setDom_plain hd]
    extract_lets x v
    obtain ⟨hkept, hdom⟩ := domLost_spares hd v
    refine ⟨fun e he => ?_, ?_, .trans ?_ hkept⟩
    · rw [hdom]
      exact (get_put_ne _ _ he).trans (get_put_ne _ _ he)
    · rw [hdom]
      exact (congrArg DomSt.st (get_put ..)).trans (congrArg DomSt.st (get_put ..))
    · exact .of_eq rfl rfl rfl rfl rfl

/-- A fall of OFF's step for one domain. -/
def fallStep (s : State) (p : Dom × Nat) : State := if (s.dom.get p.1).st == .off then domStart p.1 s else s

theorem fallStep_falls {p : Dom × Nat} (hp : p ∈ domctlDoms) (s : State) : (∀ e, e ≠ p.1 → (fallStep s p).dom.get e = s.dom.get e)
    ∧ ((s.dom.get p.1).st = .off → ((fallStep s p).dom.get p.1).st = .ramp) := by
  unfold fallStep
  split
  case isTrue h =>
    rw [domStart_plain (domctl_plain hp)]
    refine ⟨fun e he => get_put_ne _ _ he, fun _ => ?_⟩
    rw [get_put]
    rfl
  case isFalse h => exact ⟨fun _ _ => rfl, fun hoff => absurd (beq_iff_eq.mpr hoff) h⟩

theorem fallStep_pst {p : Dom × Nat} (hp : p ∈ domctlDoms) (s : State) : (fallStep s p).pst = s.pst := by
  unfold fallStep
  split
  · rw [domStart_plain (domctl_plain hp)]
  · rfl

/-- The domains whose OFF bit rises, and those whose falls, with the register as it stands. -/
def offRises (v old : Word) : List (Dom × Nat) := domctlDoms.filter (fun p => bitOf v p.2 && !bitOf old p.2)

def offFalls (v old : Word) : List (Dom × Nat) := domctlDoms.filter (fun p => !bitOf v p.2 && bitOf old p.2)

theorem mem_offRises {v old : Word} {p : Dom × Nat} : p ∈ offRises v old ↔ p ∈ domctlDoms ∧ bitOf v p.2 = true ∧ bitOf old p.2 = false := by
  unfold offRises
  rw [List.mem_filter, Bool.and_eq_true, Bool.not_eq_true']

theorem mem_offFalls {v old : Word} {p : Dom × Nat} : p ∈ offFalls v old ↔ p ∈ domctlDoms ∧ bitOf v p.2 = false ∧ bitOf old p.2 = true := by
  unfold offFalls
  rw [List.mem_filter, Bool.and_eq_true, Bool.not_eq_true']

theorem filter_nodup (f : Dom × Nat → Bool) : ((domctlDoms.filter f).map Prod.fst).Nodup :=
  domctl_nodup.sublist ((List.filter_sublist (p := f)).map Prod.fst)

/-- Each rise switches its domain off, and no other domain changes. -/
theorem rises_switch (v old : Word) (s : State) : let u := (offRises v old).foldl (fun s p => switchOff p.1 s) s
    (∀ p ∈ offRises v old, (u.dom.get p.1).st = .off) ∧ (∀ e, (∀ p ∈ offRises v old, e ≠ p.1) → u.dom.get e = s.dom.get e) ∧ Kept s u := by
  have hplain : ∀ p ∈ offRises v old, Plain p.1 := fun p hp => domctl_plain (mem_offRises.mp hp).1
  obtain ⟨hoff, hothers⟩ := foldl_doms (f := fun s p => switchOff p.1 s) (P := fun _ _ y => y = .off) (offRises v old) (filter_nodup _) (fun p hp s => by
    obtain ⟨h1, h2, -⟩ := switchOff_switches (hplain p hp) s
    exact ⟨h1, h2⟩) s
  exact ⟨hoff, hothers, List.foldlRecOn _ _ (motive := Kept s) (.refl s) fun u hu p hp => hu.trans (switchOff_switches (hplain p hp) u).2.2⟩

theorem offRises_apart {v old : Word} {p q : Dom × Nat} (hp : p ∈ offFalls v old) (hq : q ∈ offRises v old) : p.1 ≠ q.1 := by
  obtain ⟨hp, hlow, -⟩ := mem_offFalls.mp hp
  obtain ⟨hq, hhigh, -⟩ := mem_offRises.mp hq
  intro h
  have heq : p = q := (by decide : ∀ p ∈ domctlDoms, ∀ q ∈ domctlDoms, p.1 = q.1 → p = q) p hp q hq h
  rw [heq, hhigh] at hlow
  exact Bool.false_ne_true hlow.symm

/-- The state with the register's new value on its way to the store and its rises switched off. -/
def offSwitched (v : Word) (s : State) : State :=
  (offRises v (regStored s 0xE00C)).foldl (fun s p => switchOff p.1 s) (pstQueue (pregWord 0xE00C) (w32 (fld v 3 0)) s)

theorem offSwitched_switches (v : Word) (s : State) : (∀ p ∈ offRises v (regStored s 0xE00C), ((offSwitched v s).dom.get p.1).st = .off)
    ∧ (∀ e, (∀ p ∈ offRises v (regStored s 0xE00C), e ≠ p.1) → (offSwitched v s).dom.get e = s.dom.get e)
    ∧ Kept (pstQueue (pregWord 0xE00C) (w32 (fld v 3 0)) s) (offSwitched v s) := rises_switch ..

theorem domctlOff_eq {v : Word} (hlands : lands s (pregWord 0xE00C) = true) (hmay : ∀ p ∈ offRises v (regStored s 0xE00C), mayOff s p.1 = true) :
    domctlOff v s = if (offSwitched v s).bsc.bringup < 2 then offSwitched v s else (offFalls v (regStored s 0xE00C)).foldl fallStep (offSwitched v s) := by
  have hrises : ¬ ((offRises v (regStored s 0xE00C)).any (fun p => !mayOff s p.1)) = true := by
    rw [List.any_eq_true]
    rintro ⟨p, hp, hno⟩
    rw [hmay p hp] at hno
    exact Bool.false_ne_true hno
  have hopen : ¬ (!lands s (pregWord 0xE00C)) = true := by
    rw [hlands]
    exact Bool.false_ne_true
  unfold offSwitched
  rw [← pstArrive_lands hlands 0xE00C]
  exact (if_neg hopen).trans (if_neg hrises)

/-- What a write of OFF whose rises may all be leaves: the register put to the store, the rises off, the falls in RAMP. -/
theorem domctlOff_switches {v : Word} (hlands : lands s (pregWord 0xE00C) = true) (hmay : ∀ p ∈ offRises v (regStored s 0xE00C), mayOff s p.1 = true) :
    let u := domctlOff v s
    u.pst.wq = s.pst.wq ++ [(pregWord 0xE00C, w32 (fld v 3 0))] ∧ (∀ p ∈ offRises v (regStored s 0xE00C), (u.dom.get p.1).st = .off)
      ∧ (∀ p ∈ offFalls v (regStored s 0xE00C), (s.dom.get p.1).st = .off → 2 ≤ s.bsc.bringup → (u.dom.get p.1).st = .ramp)
      ∧ ∀ e, (∀ p ∈ domctlDoms, e ≠ p.1) → u.dom.get e = s.dom.get e := by
  rw [domctlOff_eq hlands hmay]
  have hswitched := offSwitched_switches v s
  generalize offSwitched v s = w at hswitched ⊢
  obtain ⟨hoff, hothers, hkept⟩ := hswitched
  have hpst : w.pst.wq = s.pst.wq ++ [(pregWord 0xE00C, w32 (fld v 3 0))] := congrArg PstSt.wq hkept.pst
  have hrest : ∀ e, (∀ p ∈ domctlDoms, e ≠ p.1) → w.dom.get e = s.dom.get e := fun e he => hothers e fun p hp => he p (mem_offRises.mp hp).1
  split
  case isTrue hearly =>
    rw [hkept.bringup] at hearly
    exact ⟨hpst, hoff, fun _ _ _ hlate => absurd hearly (not_lt.mpr hlate), hrest⟩
  case isFalse =>
    have hfalls : ∀ p ∈ offFalls v (regStored s 0xE00C), p ∈ domctlDoms := fun p hp => (mem_offFalls.mp hp).1
    obtain ⟨hramp, hstay⟩ := foldl_doms (f := fallStep) (P := fun _ x y => x = .off → y = .ramp) (offFalls v (regStored s 0xE00C)) (filter_nodup _)
      (fun p hp s => fallStep_falls (hfalls p hp) s) w
    refine ⟨?_, fun p hp => ?_, fun p hp hoffp _ => hramp p hp ?_, fun e he => ?_⟩
    · refine (congrArg PstSt.wq (?_ : _ = w.pst)).trans hpst
      exact List.foldlRecOn _ _ (motive := fun u : State => u.pst = w.pst) rfl fun u hu p hp => (fallStep_pst (hfalls p hp) u).trans hu
    · rw [hstay p.1 fun q hq => (offRises_apart hq hp).symm]
      exact hoff p hp
    · rw [hothers p.1 fun q hq => offRises_apart hp hq]
      exact hoffp
    · rw [hstay e fun p hp => he p (hfalls p hp), hrest e he]

theorem nibble_fld (b : BitVec 4) : w32 (fld (w32 b.toNat) 3 0) = w32 b.toNat := by
  revert b
  decide

theorem nibble_bit (b : BitVec 4) (k : Nat) : bitOf (w32 b.toNat) k = b.toNat.testBit k := by
  unfold bitOf w32
  rw [BitVec.toNat_ofNat, Nat.mod_eq_of_lt (lt_trans b.isLt (by decide))]

theorem bscDomctlOff_eq (hactive : active s .host = true) : exec (.bscDomctlOff t b) s = settle (domctlOff (w32 b.toNat) (atTime t s)) := by
  refine if_neg ?_
  rw [show active (atTime t s) .host = true from hactive]
  exact Bool.false_ne_true

theorem domctlOff_ignored {v : Word} (hlands : lands s (pregWord 0xE00C) = true) (h : ∃ p ∈ offRises v (regStored s 0xE00C), mayOff s p.1 = false) :
    domctlOff v s = ignoreWrite .aon 1 0xE00C v 1 s := by
  have hopen : ¬ (!lands s (pregWord 0xE00C)) = true := by
    rw [hlands]
    exact Bool.false_ne_true
  refine (if_neg hopen).trans (if_pos ?_)
  obtain ⟨p, hp, hno⟩ := h
  exact List.any_eq_true.mpr ⟨p, hp, by rw [hno]; rfl⟩

end

/-- Settles O54: the ends of ramps, trips, restarts and BSC_DOMCTL of the domains other than AON and the lanes. -/
theorem domainsTripAndRestart : Obligations.DomainsTripAndRestart := by
  unfold Obligations.DomainsTripAndRestart
  refine ⟨fun t d s haon hx hy => ?single, fun t b s hactive hup => ⟨domctlRestart_restarts hactive hup, fun hlands => ⟨fun hmay => ?switch, fun hno => ?ignore⟩⟩⟩
  case single =>
    have hd : Plain d := ⟨haon, hx, hy⟩
    intro st held gone
    refine ⟨fun h hheld => ?enter, fun n h hheld => rampEnd_romFails hd h hheld n, fun roms h hheld => ?hold, fun h => ?ramp,
      fun h ok roms => settles (rampEnd_idle h _) fun _ _ => rfl, fun k hoff htripped => ?trip, fun k h => settles (domainTrip_idle k h) fun _ _ => rfl,
      fun htripped hlong hup => ?restart, fun h => settles (domainRestart_early h) fun _ _ => rfl⟩
    case enter =>
      obtain ⟨hdom, hkept, hstg⟩ := enterActive_enters hd (atTime t s)
      exact settles (rampEnd_enters hd h hheld []) fun _ _ => ⟨hdom, hkept.sec, hkept.pst, hstg⟩
    case hold =>
      have hexec := rampEnd_holds (t := t) hd h hheld roms
      rw [setDom_plain hd] at hexec
      exact settles hexec fun _ _ => rfl
    case ramp => exact settles (rampEnd_trips hd h []) fun _ _ => tripDom_trips hd 3 (atTime t s)
    case trip => exact settles (domainTrip_trips hd k hoff htripped) fun _ _ => tripDom_trips hd k.val (atTime t s)
    case restart =>
      intro recent
      refine ⟨fun h => ?_, fun hhost hheld hmany => ?_⟩
      · have hexec := domainRestart_restarts hd htripped hlong hup h
        obtain ⟨m, k, i, hrestart, hramp, hcount, hothers⟩ := restartDom_restarts hd (atTime t s)
        rw [hrestart] at hexec
        exact settles hexec fun _ _ => ⟨hramp, hcount, hothers, rfl⟩
      · have hexec := domainRestart_limited hd htripped hlong hup hhost hheld hmany
        rw [note_up (h := by exact hup)] at hexec
        exact settles hexec fun _ _ => rfl
  case switch =>
    have hrises : ∀ p, p ∈ offRises (w32 b.toNat) (regStored s 0xE00C) → p ∈ domctlDoms ∧ b.toNat.testBit p.2 = true ∧ bitOf (regStored s 0xE00C) p.2 = false :=
      fun p hp => by rwa [mem_offRises, nibble_bit] at hp
    obtain ⟨hwq, hoff, hramp, hothers⟩ := domctlOff_switches (s := atTime t s) (v := w32 b.toNat) hlands fun p hp => hmay p (hrises p hp).1 (hrises p hp).2
    rw [nibble_fld] at hwq
    refine settles (bscDomctlOff_eq hactive) fun _ _ => ⟨hwq, fun p hp hrise => hoff p ?_, fun p hp hlow hold => hramp p ?_, fun e he => congrArg DomSt.st (hothers e ?_)⟩
    · rw [mem_offRises, nibble_bit]
      exact ⟨hp, hrise⟩
    · rw [mem_offFalls, nibble_bit]
      exact ⟨hp, hlow, hold⟩
    · exact (by decide : ∀ e ∈ [Dom.aon, .lanex, .laney, .host], ∀ p ∈ domctlDoms, e ≠ p.1) e he
  case ignore =>
    obtain ⟨p, hp, hrise, hnot⟩ := hno
    have hexec := bscDomctlOff_eq (t := t) (b := b) hactive
    rw [domctlOff_ignored (s := atTime t s) hlands ⟨p, mem_offRises.mpr ⟨hp, by rw [nibble_bit]; exact hrise⟩, hnot⟩] at hexec
    obtain ⟨g, hg⟩ := ignoreWrite_update .aon 1 0xE00C (w32 b.toNat) 1 (atTime t s)
    rw [hg, if_pos (show aonUp (atTime t s) = true from hup)] at hexec
    exact settles hexec fun _ _ => ⟨rfl, fun _ => List.mem_append_right _ List.mem_cons_self⟩

end Sys2Proof.Proofs
end

section
/-!
PROOFS. Writes through BAR0 (R5 to R8, R415, R449, R451).
-/

namespace Sys2Proof.Proofs
open Sys2Proof.Machine Sys2Proof.Laws

/-! ## The rows of the map -/

theorem rowAt_mem {off : Nat} {r : RegRow} (h : rowAt off = some r) : r ∈ regRows ∧ r.has off = true :=
  ⟨List.mem_of_find?_eq_some h, (List.find?_some (p := fun r : RegRow => r.has off) (l := regRows) h :)⟩

theorem has_within {off : Nat} {r : RegRow} (h : r.has off = true) (hs : 0 < r.stride) : r.base ≤ off ∧ off < r.base + r.stride * r.count := by
  unfold RegRow.has at h
  rw [Bool.and_eq_true, Bool.and_eq_true, decide_eq_true_iff, decide_eq_true_iff] at h
  obtain ⟨⟨hbase, -⟩, hcount⟩ := h
  rw [Nat.div_lt_iff_lt_mul hs] at hcount
  rw [Nat.mul_comm]
  omega

/-- A word of a register of one word is its first. -/
theorem row_word {off : Nat} {r : RegRow} (h : rowAt off = some r) (hlen : r.len = 1) : r.word = 0 :=
  (by decide +kernel : ∀ r ∈ regRows, r.len = 1 → r.word = 0) r (rowAt_mem h).1 hlen

/-- Where a row of one RW word lies: a ROM address of a port, or in FIELD, HOST and AON outside the rings, the regions and the definitions. -/
def plainRow (r : RegRow) : Bool :=
  let top := r.base + r.stride * r.count
  decide (0 < r.stride) && (r.base == 0x3000 && top ≤ 0x3004 || r.base == 0x5B00 && top ≤ 0x5B04
    || 0xB1C0 ≤ r.base && (top ≤ 0xC040 || 0xC110 ≤ r.base && top ≤ 0xD000 || 0xD500 ≤ r.base))

theorem rwRow_plain : ∀ r ∈ regRows, r.acc = .rw → r.len = 1 → plainRow r = true := by decide +kernel

theorem rwRow_within {off : Nat} {r : RegRow} (h : rowAt off = some r) (hoff : off % 4 = 0) (hacc : r.acc = .rw) (hlen : r.len = 1) :
    off = 0x3000 ∨ off = 0x5B00 ∨ 0xB1C0 ≤ off ∧ (off < 0xC040 ∨ 0xC110 ≤ off ∧ off < 0xD000 ∨ 0xD500 ≤ off) := by
  obtain ⟨hmem, hhas⟩ := rowAt_mem h
  have hrow := rwRow_plain r hmem hacc hlen
  unfold plainRow at hrow
  simp only [Bool.and_eq_true, Bool.or_eq_true, decide_eq_true_iff, beq_iff_eq] at hrow
  obtain ⟨hstride, hrow⟩ := hrow
  obtain ⟨hlow, hhigh⟩ := has_within hhas hstride
  omega

/-! ## Words stored, and what taking effect leaves as it is -/

section
variable {off : Nat} {r : RegRow} {v : Word} {s : State}

/-- An RW word reads as written, and no other word changes. -/
theorem setRw_stored (h : rowAt off = some r) (hacc : r.acc = .rw) (hrising : rising s.regs.rw = true) {u : State}
    (hrw : u.regs.rw = tput (regReset off) off v s.regs.rw) (hpst : u.pst = s.pst) :
    regStored u off = v ∧ ∀ o, o ≠ off → regStored u o = regStored s o := by
  have hreset : regReset off = w32 r.reset := by
    unfold regReset
    rw [h]
  have hpers : ¬ r.persistent = true := by
    unfold RegRow.persistent
    rw [hacc]
    exact Bool.false_ne_true
  refine ⟨?_, fun o ho => ?_⟩
  · unfold regStored
    rw [h, hrw, hreset]
    exact (if_neg hpers).trans (tget_tput _ _ _ _ hrising)
  · unfold regStored
    rw [hrw, hpst]
    split
    · rw [tget_tput_ne _ _ _ _ ho]
    · rfl

/-- A word whose write waits last in the store's queue reads as written. -/
theorem queued_stored (h : rowAt off = some r) (hpers : r.persistent = true) {u : State} {q : List (Nat × Word)}
    (hwq : u.pst.wq = q ++ [(pregWord off, v)]) : regStored u off = v := by
  have hread : nvmRead u.pst (pregWord off) = v := by
    unfold nvmRead queued?
    rw [hwq, List.reverse_append]
    show ((List.find? (fun e : Nat × Word => e.1 == pregWord off) ((pregWord off, v) :: q.reverse)).map (·.2)).getD _ = v
    rw [List.find?_cons_of_pos (p := fun e : Nat × Word => e.1 == pregWord off) (h := beq_self_eq_true _)]
    rfl
  unfold regStored
  rw [h]
  exact (if_pos hpers).trans hread

/-- What a register word in force leaves of the parts that it does not name. -/
structure TakesEffect (s u : State) : Prop where
  pst : u.pst = s.pst
  rw : u.regs.rw = s.regs.rw
  hen : u.hen = s.hen
  sld : u.sld = s.sld
  lcm : u.lcm = s.lcm
  net : u.net = s.net
  clr : u.clr = s.clr
  sin : u.sin = s.sin

theorem TakesEffect.trans {s t u : State} (h : TakesEffect s t) (k : TakesEffect t u) : TakesEffect s u :=
  ⟨k.pst.trans h.pst, k.rw.trans h.rw, k.hen.trans h.hen, k.sld.trans h.sld, k.lcm.trans h.lcm, k.net.trans h.net, k.clr.trans h.clr, k.sin.trans h.sin⟩

theorem TakesEffect.refl (s : State) : TakesEffect s s := ⟨rfl, rfl, rfl, rfl, rfl, rfl, rfl, rfl⟩

theorem refloor_takes (d : Dom) (s : State) : TakesEffect s (refloor d s) ∧ (refloor d s).sec = s.sec := by
  obtain ⟨m, k, h⟩ := setFloor_update d (domFloor s d) s
  unfold refloor
  rw [h]
  exact ⟨⟨rfl, rfl, rfl, rfl, rfl, rfl, rfl, rfl⟩, rfl⟩

theorem vecRelease_takes (s : State) : TakesEffect s (vecRelease s) ∧ (vecRelease s).sec = s.sec := by
  unfold vecRelease
  refine List.foldlRecOn _ _ (motive := fun u => TakesEffect s u ∧ u.sec = s.sec) ⟨.refl s, rfl⟩ fun u ⟨hu, hsec⟩ v _ => ?_
  split
  · exact ⟨hu, hsec⟩
  · unfold vecSend
    split <;> exact ⟨hu.trans ⟨rfl, rfl, rfl, rfl, rfl, rfl, rfl, rfl⟩, hsec⟩

theorem wordTaken_takes (hruse : off ≠ 0xB180) (hkeys : off ≠ 0x9018) (old v : Word) (s : State) :
    TakesEffect s (wordTaken off old v s) ∧ (wordTaken off old v s).sec = s.sec := by
  unfold wordTaken
  rw [if_neg hkeys, if_neg hruse]
  split
  · exact ⟨⟨rfl, rfl, rfl, rfl, rfl, rfl, rfl, rfl⟩, rfl⟩
  split
  · cases offFch off <;> exact ⟨⟨rfl, rfl, rfl, rfl, rfl, rfl, rfl, rfl⟩, rfl⟩
  split
  · exact refloor_takes ..
  split
  · exact refloor_takes ..
  split
  · unfold strSelTaken
    split <;> exact ⟨⟨rfl, rfl, rfl, rfl, rfl, rfl, rfl, rfl⟩, rfl⟩
  split
  · exact vecRelease_takes s
  · exact ⟨.refl s, rfl⟩

theorem laneCopies_takes (s0 : State) (offs : List Nat) (s : State) : TakesEffect s (laneCopies s0 offs s) ∧ (laneCopies s0 offs s).sec = s.sec := by
  unfold laneCopies
  refine List.foldlRecOn offs _ (motive := fun u => TakesEffect s u ∧ u.sec = s.sec) ⟨.refl s, rfl⟩ fun u ⟨hu, hsec⟩ o _ => ?_
  split
  · exact ⟨hu.trans ⟨rfl, rfl, rfl, rfl, rfl, rfl, rfl, rfl⟩, hsec⟩
  · exact ⟨hu, hsec⟩

/-- The write of a register of one word: stored, and in force. -/
theorem takeWord_takes (h : rowAt off = some r) (hlen : r.len = 1) (hruse : off ≠ 0xB180) (hkeys : off ≠ 0x9018) (s : State) :
    TakesEffect (storeWord r off v s) (takeWord r off v s) ∧ (takeWord r off v s).sec = (storeWord r off v s).sec := by
  have hlast : ¬ r.word + 1 < r.len := by
    rw [row_word h hlen, hlen]
    decide
  unfold takeWord
  rw [if_neg hlast]
  obtain ⟨hcopied, hcsec⟩ := laneCopies_takes s (regWords r off) (release (regWords r off) (storeWord r off v s))
  obtain ⟨htaken, htsec⟩ := wordTaken_takes hruse hkeys (reg s off) v (laneCopies s (regWords r off) (release (regWords r off) (storeWord r off v s)))
  refine ⟨.trans ?_ (hcopied.trans htaken), htsec.trans hcsec⟩
  exact ⟨rfl, rfl, rfl, rfl, rfl, rfl, rfl, rfl⟩

end

/-! ## A write that reaches its word -/

section
variable {t : Int} {off : Nat} {v : Word} {s : State} {r : RegRow}

theorem registerWrite_idle (hoff : off < 0x100000) (h : active s .host = false) (al : Bool) : exec (.registerWrite t off al v) s = settle (atTime t s) := by
  refine (if_pos hoff).trans (congrArg settle (if_pos ?_))
  rw [show active (atTime t s) .host = false from h]
  rfl

theorem registerWrite_misaligned (hoff : off < 0x100000) (h : active s .host = true) {al : Bool} (hal : al = false ∨ off % 4 ≠ 0) :
    exec (.registerWrite t off al v) s = settle (hreDiscard (atTime t s)) := by
  refine (if_pos hoff).trans (congrArg settle ((if_neg ?_).trans (if_pos ?_)))
  · rw [show active (atTime t s) .host = true from h]
    exact Bool.false_ne_true
  · rw [Bool.or_eq_true, Bool.not_eq_true', bne_iff_ne]
    exact hal

theorem registerWrite_reaches (hoff : off < 0x40000) (h : active s .host = true) (hal : off % 4 = 0) :
    exec (.registerWrite t off true v) s = settle (regWrite off v (atTime t s)) := by
  refine (if_pos (lt_trans hoff (by decide))).trans (congrArg settle ((if_neg ?_).trans (if_neg ?_)))
  · rw [show active (atTime t s) .host = true from h]
    exact Bool.false_ne_true
  · rw [hal]
    exact Bool.false_ne_true

/-- An offset below the table window. -/
theorem below_window (hoff : off < 0x40000) : ¬ (0x40000 ≤ off && off < 0x78000) = true := by
  rw [Bool.and_eq_true, decide_eq_true_iff]
  omega

theorem regWrite_none (hoff : off < 0x40000) (h : rowAt off = none) : regWrite off v s = s := by
  unfold regWrite
  rw [if_neg (below_window hoff)]
  split
  · rfl
  case _ hrow => rw [h] at hrow; cases hrow

theorem regWrite_ro (hoff : off < 0x40000) (h : rowAt off = some r) (hacc : r.acc = .ro) : regWrite off v s = s := by
  unfold regWrite
  rw [if_neg (below_window hoff), h]
  dsimp only
  rw [hacc]

theorem regWrite_rw (hoff : off < 0x40000) (h : rowAt off = some r) (hacc : r.acc = .rw) : regWrite off v s = rwWrite r off (w32 (v.toNat &&& r.mask)) s := by
  unfold regWrite
  rw [if_neg (below_window hoff), h]
  dsimp only
  rw [hacc]

theorem regWrite_rwp (hoff : off < 0x40000) (h : rowAt off = some r) (hacc : r.acc = .rwp) (hdom : off ≠ 0xE00C) :
    regWrite off v s = persistWrite r off (w32 (v.toNat &&& r.mask)) s := by
  unfold regWrite
  rw [if_neg (below_window hoff), h]
  dsimp only
  rw [hacc]
  exact if_neg hdom

theorem regWrite_rws (hoff : off < 0x40000) (h : rowAt off = some r) (hacc : r.acc = .rws) (hsealed : 3 ≤ s.sec.lifecycle) :
    regWrite off v s = rwsDiscard off (w32 (v.toNat &&& r.mask)) s := by
  unfold regWrite
  rw [if_neg (below_window hoff), h]
  dsimp only
  rw [hacc]
  exact if_pos hsealed

/-- An RW word of its own, in a domain that is not ACTIVE and in one that is. -/
theorem rwWrite_off (h : active s (wordDom s off) = false) (h3 : off ≠ 0x3000) (h5 : off ≠ 0x5B00) : rwWrite r off v s = hreDiscard s := by
  unfold rwWrite
  split
  · exact absurd rfl h3
  · exact absurd rfl h5
  · exact if_pos (by rw [h]; rfl)

theorem rwWrite_ruled (h : active s (wordDom s off) = true) (h3 : off ≠ 0x3000) (h5 : off ≠ 0x5B00) (hlow : 0xB1C0 ≤ off) (hctl : off ≠ 0xC000)
    (hplain : off < 0xC040 ∨ 0xC110 ≤ off ∧ off < 0xD000 ∨ 0xD500 ≤ off) : rwWrite r off v s = ruledWrite r off v s := by
  have hring : ¬ (0xC040 ≤ off && off < 0xC110 && off % 16 = 8) = true := by
    simp only [Bool.and_eq_true, decide_eq_true_iff]
    omega
  have hsync : ¬ (off = 0x5014 || off = 0x5414 || off = 0x5814) = true := by
    simp only [Bool.or_eq_true, decide_eq_true_iff]
    omega
  have hregion : ¬ (0xD000 ≤ off && off < 0xD400 && off % 0x40 = 0x10) = true := by
    simp only [Bool.and_eq_true, decide_eq_true_iff]
    omega
  have hdef : ¬ (0xD400 ≤ off && off < 0xD500 && off % 16 = 8) = true := by
    simp only [Bool.and_eq_true, decide_eq_true_iff]
    omega
  unfold rwWrite
  split
  · exact absurd rfl h3
  · exact absurd rfl h5
  · refine (if_neg (by rw [h]; exact Bool.false_ne_true)).trans ?_
    rw [if_neg hctl, if_neg hring, if_neg hregion, if_neg hdef]
    exact if_neg hsync

/-- A persistent word that reaches the queue and has no rule beyond its field's. -/
theorem persistWrite_ruled (hlands : lands s (pregWord off) = true) (hnot : off ∉ [0x501C, 0x541C, 0x581C, 0xE00C, 0xB180])
    (hexc : off < 0xB000 ∨ 0xB080 ≤ off) : persistWrite r off v s = ruledWrite r off v s := by
  simp only [List.mem_cons, List.not_mem_nil, not_or] at hnot
  obtain ⟨h50, h54, h58, hdom, -, -⟩ := hnot
  have hrsmp : ¬ (off = 0x501C || off = 0x541C || off = 0x581C) = true := by
    simp only [Bool.or_eq_true, decide_eq_true_iff]
    omega
  unfold persistWrite
  rw [if_neg (by rw [hlands]; exact Bool.false_ne_true), if_neg hrsmp, if_neg ?_, if_neg hdom]
  simp only [Bool.and_eq_true, decide_eq_true_iff]
  omega

theorem ruledWrite_breaks {why : Nat} (h : wordRule s off v = some why) : ruledWrite r off v s = ignoreAt off v why s := by
  unfold ruledWrite
  rw [h]

theorem ruledWrite_keeps (h : wordRule s off v = none) : ruledWrite r off v s = takeWord r off v s := by
  unfold ruledWrite
  rw [h]

/-- A write that breaks its rule is ignored and recorded. -/
theorem ignored_settles {why : Nat} {i : Instr} (h : exec i s = settle (ignoreAt off v why (atTime t s))) :
    ∃ u, exec i s = .next u ∧ u = { reported s u with now := t, ctr := s.ctr } ∧ (aonUp s = true →
      ({ code := evWriteIgnored, src := 16 * (wordDom s off).num + offBlock off, p0 := w32 off, p1 := v, p2 := w32 why, solo := false } : EvIn) ∈ u.erc.inbox) := by
  obtain ⟨g, hg⟩ := ignoreWrite_update (wordDom s off) (offBlock off) off v why (atTime t s)
  refine settles (h.trans (congrArg settle hg)) fun _ _ => ⟨rfl, fun hup => ?_⟩
  show _ ∈ s.erc.inbox ++ (if aonUp s then _ else [])
  rw [if_pos hup]
  exact List.mem_append_right _ List.mem_cons_self

theorem discarded_settles {i : Instr} (hactive : active s .host = true) (h : exec i s = settle (hreDiscard (atTime t s))) :
    ∃ u, exec i s = .next u ∧ u = { reported s u with now := t, erc := s.erc, ctr := (bump 0xCC88 s).ctr } := by
  obtain ⟨g, hg⟩ := hreDiscard_up (s := atTime t s) hactive
  exact settles (h.trans (congrArg settle hg)) fun _ _ => rfl

/-- An RWS write once SEALED (R8). -/
theorem rwsDiscard_settles {i : Instr} (h : exec i s = settle (rwsDiscard off v (atTime t s))) :
    ∃ u, exec i s = .next u ∧ u = { reported s u with now := t, ctr := s.ctr } ∧ (aonUp s = true →
      ({ code := evRwsDiscarded, src := 16 * (wordDom s off).num + offBlock off, p0 := w32 off, p1 := v, p2 := 0, solo := false } : EvIn) ∈ u.erc.inbox) := by
  have hnoted := note_update evRwsDiscarded (wordDom s off) (offBlock off) (w32 off) v 0 (atTime t s)
  obtain ⟨g, hg⟩ := vecItem_update 13 (note evRwsDiscarded (wordDom s off) (offBlock off) (w32 off) v 0 (atTime t s))
  rw [hnoted] at hg
  refine settles (h.trans (congrArg settle ((congrArg (vecItem 13) hnoted).trans hg))) fun _ _ => ⟨rfl, fun hup => ?_⟩
  show _ ∈ s.erc.inbox ++ (if aonUp s then _ else [])
  rw [if_pos hup]
  exact List.mem_append_right _ List.mem_cons_self

/-- An RW word that keeps its rule holds what is written. -/
theorem rwTaken_settles {i : Instr} (hrow : rowAt off = some r) (hacc : r.acc = .rw) (hlen : r.len = 1) (hruse : off ≠ 0xB180) (hkeys : off ≠ 0x9018)
    (hrising : rising s.regs.rw = true) (h : exec i s = settle (takeWord r off v (atTime t s))) :
    ∃ u, exec i s = .next u ∧ regStored u off = v ∧ (∀ o, o ≠ off → regStored u o = regStored s o)
      ∧ u.pst = s.pst ∧ u.sec = s.sec ∧ u.hen = s.hen ∧ u.sld = s.sld ∧ u.lcm = s.lcm ∧ u.net = s.net ∧ u.clr = s.clr ∧ u.sin = s.sin := by
  have hstored : storeWord r off v (atTime t s) = setRw off v (atTime t s) := by
    refine if_neg ?_
    unfold RegRow.persistent
    rw [hacc]
    exact Bool.false_ne_true
  obtain ⟨htakes, hsec⟩ := takeWord_takes (v := v) hrow hlen hruse hkeys (atTime t s)
  rw [hstored] at htakes hsec
  refine settles h fun _ _ => ?_
  obtain ⟨hreads, hothers⟩ := setRw_stored (v := v) hrow hacc hrising (u := takeWord r off v (atTime t s)) htakes.rw htakes.pst
  exact ⟨hreads, hothers, htakes.pst, hsec, htakes.hen, htakes.sld, htakes.lcm, htakes.net, htakes.clr, htakes.sin⟩

/-- A persistent word that keeps its rule waits in the store's queue and reads as written. -/
theorem rwpTaken_settles {i : Instr} (hrow : rowAt off = some r) (hacc : r.acc = .rwp) (hlen : r.len = 1) (hruse : off ≠ 0xB180) (hkeys : off ≠ 0x9018)
    (hlands : lands s (pregWord off) = true) (h : exec i s = settle (takeWord r off v (atTime t s))) :
    ∃ u, exec i s = .next u ∧ u.pst = { s.pst with wq := s.pst.wq ++ [(pregWord off, v)] } ∧ regStored u off = v
      ∧ u.hen = s.hen ∧ u.sld = s.sld ∧ u.lcm = s.lcm ∧ u.net = s.net ∧ u.clr = s.clr ∧ u.sin = s.sin := by
  have hpers : r.persistent = true := by
    unfold RegRow.persistent
    rw [hacc]
    rfl
  have hstored : storeWord r off v (atTime t s) = pstQueue (pregWord off) v (atTime t s) := (if_pos hpers).trans (pstArrive_lands (s := atTime t s) hlands ..)
  obtain ⟨htakes, -⟩ := takeWord_takes (v := v) hrow hlen hruse hkeys (atTime t s)
  rw [hstored] at htakes
  refine settles h fun _ _ => ?_
  exact ⟨htakes.pst, queued_stored hrow hpers (u := takeWord r off v (atTime t s)) (congrArg PstSt.wq htakes.pst), htakes.hen, htakes.sld, htakes.lcm, htakes.net,
    htakes.clr, htakes.sin⟩

/-- RCT_KEYS is an RWS word. -/
theorem keys_row (hrow : rowAt off = some r) (hacc : r.acc ≠ .rws) : off ≠ 0x9018 := by
  rintro rfl
  have hkeys : ∀ r, rowAt 0x9018 = some r → r.acc = .rws := by decide +kernel
  exact hacc (hkeys r hrow)

end

/-- Settles O55: a register write by its access code. -/
theorem registerWriteReachesItsWord : Obligations.RegisterWriteReachesItsWord := by
  unfold Obligations.RegisterWriteReachesItsWord
  intro t off v s a w same
  refine ⟨rfl, fun hfar al => if_neg (not_lt.mpr hfar), fun hoff hdown al => settles (registerWrite_idle hoff hdown al) fun _ _ => rfl, fun hoff hup =>
    ⟨fun al hal => discarded_settles hup (registerWrite_misaligned hoff hup hal), fun hal hlow => ?aligned⟩⟩
  case aligned =>
    have hexec := registerWrite_reaches (t := t) (v := v) hlow hup hal
    refine ⟨fun hrow => ?_, fun r hrow => ?_⟩
    · rw [regWrite_none hlow hrow] at hexec
      exact settles hexec fun _ _ => rfl
    intro x
    refine ⟨fun hacc => ?ro, fun hacc hlen hnot => ?rw, fun hacc hlen hlands hnot hexc => ?rwp, fun hacc hsealed => ?rws⟩
    case ro =>
      rw [regWrite_ro hlow hrow hacc] at hexec
      exact settles hexec fun _ _ => rfl
    case rw =>
      rw [regWrite_rw hlow hrow hacc] at hexec
      have hwithin := rwRow_within hrow hal hacc hlen
      simp only [List.mem_cons, List.not_mem_nil, not_or] at hnot
      obtain ⟨hctl, -, -, -, h3, h5, hruse, -⟩ := hnot
      obtain ⟨hfield, hplain⟩ := (hwithin.resolve_left h3).resolve_left h5
      refine ⟨fun hidle => ?_, fun hactive hrule hrising => ?_, fun why hactive hrule => ?_⟩
      · rw [rwWrite_off (s := atTime t s) hidle h3 h5] at hexec
        exact discarded_settles hup hexec
      · rw [rwWrite_ruled (s := atTime t s) hactive h3 h5 hfield hctl hplain, ruledWrite_keeps hrule] at hexec
        exact rwTaken_settles hrow hacc hlen hruse (keys_row hrow (by rw [hacc]; decide)) hrising hexec
      · rw [rwWrite_ruled (s := atTime t s) hactive h3 h5 hfield hctl hplain, ruledWrite_breaks hrule] at hexec
        exact ignored_settles hexec
    case rwp =>
      have hnot' := hnot
      simp only [List.mem_cons, List.not_mem_nil, not_or] at hnot'
      obtain ⟨-, -, -, hdom, hruse, -⟩ := hnot'
      rw [regWrite_rwp hlow hrow hacc hdom, persistWrite_ruled (s := atTime t s) hlands hnot hexc] at hexec
      refine ⟨fun hrule => ?_, fun why hrule => ?_⟩
      · rw [ruledWrite_keeps hrule] at hexec
        exact rwpTaken_settles hrow hacc hlen hruse (keys_row hrow (by rw [hacc]; decide)) hlands hexec
      · rw [ruledWrite_breaks hrule] at hexec
        exact ignored_settles hexec
    case rws =>
      rw [regWrite_rws (s := atTime t s) hlow hrow hacc hsealed] at hexec
      exact rwsDiscard_settles hexec

end Sys2Proof.Proofs
end

section
/-!
PROOFS. Writes through the table window; reads of counters and of registers of several words (R7, R415, R423, R449, R450, R459).
-/

namespace Sys2Proof.Proofs
open Sys2Proof.Machine Sys2Proof.Laws

/-! ## The table window (R415, R423) -/

/-- The bank that PST_TBANK selects, and a bank's state. -/
def tableBank (s : State) : Bank := if bitOf (reg s 0xF000) 0 then .b else .a

def bankStands (k : Bank) (s : State) : BankState := match k with | .a => s.pst.bankA | .b => s.pst.bankB

section
variable {t : Int} {w : Nat} {v : Word} {s : State}

theorem tableWindowWrite_idle (hw : w < 57344) (h : active s .host = false) : exec (.tableWindowWrite t w v) s = settle (atTime t s) := by
  refine (if_pos hw).trans (congrArg settle (if_pos ?_))
  rw [show active (atTime t s) .host = false from h]
  rfl

theorem tableWindowWrite_reaches (hw : w < 57344) (h : active s .host = true) : exec (.tableWindowWrite t w v) s = settle (tableWrite w v (atTime t s)) := by
  have hup : ¬ (!active (atTime t s) .host) = true := by
    rw [show active (atTime t s) .host = true from h]
    exact Bool.false_ne_true
  have haligned : ¬ (!true || (0x40000 + 4 * w) % 4 != 0) = true := by
    rw [Bool.or_eq_true, bne_iff_ne]
    exact fun hor => hor.elim Bool.false_ne_true (fun hne => hne (by omega))
  have hin : (0x40000 ≤ 0x40000 + 4 * w && 0x40000 + 4 * w < 0x78000) = true := by
    rw [Bool.and_eq_true, decide_eq_true_iff, decide_eq_true_iff]
    omega
  have hword : (0x40000 + 4 * w - 0x40000) / 4 = w := by omega
  refine (if_pos hw).trans (congrArg settle ((if_neg hup).trans ((if_neg haligned).trans ((if_pos hin).trans ?_))))
  rw [hword]

theorem tableWrite_joins (hlands : lands s (bankBase (tableBank s) + w) = true) (h : bankStands (tableBank s) s = .inactive) :
    tableWrite w v s = pstQueue (bankBase (tableBank s) + w) v s := by
  refine (if_neg ?_).trans (pstArrive_lands hlands ..)
  rw [Bool.and_eq_true, bne_iff_ne]
  exact fun hand => hand.2 h

theorem tableWrite_ignored (hlands : lands s (bankBase (tableBank s) + w) = true) (h : bankStands (tableBank s) s ≠ .inactive) :
    tableWrite w v s = ignoreWrite .aon 2 (0x40000 + 4 * w) v 1 s := by
  refine if_pos ?_
  rw [Bool.and_eq_true, bne_iff_ne]
  exact ⟨hlands, h⟩

theorem nvmRead_queued (p : PstSt) (w : Nat) (v : Word) : nvmRead { p with wq := p.wq ++ [(w, v)] } w = v := by
  unfold nvmRead queued?
  rw [List.reverse_append]
  show ((List.find? (fun e : Nat × Word => e.1 == w) ((w, v) :: p.wq.reverse)).map (·.2)).getD _ = v
  rw [List.find?_cons_of_pos (p := fun e : Nat × Word => e.1 == w) (h := beq_self_eq_true _)]
  rfl

end

/-! ## Reads (R7, R449, R450, R459) -/

section
variable {t : Int} {off : Nat} {s : State} {r : RegRow}

theorem counterRead_reads (hoff : off < 0x100000) (h : active s .host = true) (hal : off % 4 = 0) :
    exec (.counterRead t off) s = settle { (regRead off (atTime t s)).2 with rdata := [(regRead off (atTime t s)).1] } := by
  refine (if_pos hoff).trans (congrArg settle ((if_neg ?_).trans (if_neg ?_)))
  · rw [show active (atTime t s) .host = true from h]
    exact Bool.false_ne_true
  · rw [hal]
    exact Bool.false_ne_true

theorem counterRead_misaligned (hoff : off < 0x100000) (h : active s .host = true) (hal : off % 4 ≠ 0) :
    exec (.counterRead t off) s = settle (vecItem 13 { atTime t s with rdata := [0] }) := by
  refine (if_pos hoff).trans (congrArg settle ((if_neg ?_).trans (if_pos ?_)))
  · rw [show active (atTime t s) .host = true from h]
    exact Bool.false_ne_true
  · exact bne_iff_ne.mpr hal

theorem counterRead_idle (hoff : off < 0x100000) (h : active s .host = false) : exec (.counterRead t off) s = settle { atTime t s with rdata := [] } := by
  refine (if_pos hoff).trans (congrArg settle (if_pos ?_))
  rw [show active (atTime t s) .host = false from h]
  rfl

/-- The windows of counters lie below the table window. -/
theorem counter_within (h : isCounter off = true) : off < 0x40000 ∧ off % 4 = 0 := by
  unfold isCounter at h
  obtain ⟨w, hw, hin⟩ := List.any_eq_true.mp h
  rw [Bool.and_eq_true, Bool.and_eq_true, Bool.and_eq_true] at hin
  obtain ⟨⟨⟨-, hhigh⟩, -⟩, hal⟩ := hin
  have htop : ∀ w ∈ ctrWindows, w.1 + w.2.1 * w.2.2.1 ≤ 0x40000 := by decide
  exact ⟨lt_of_lt_of_le (of_decide_eq_true hhigh) (htop w hw), of_decide_eq_true hal⟩

theorem regRead_counter (hoff : off < 0x40000) (h : isCounter off = true) : regRead off s = counterTake off s := by
  unfold regRead
  have hpreg : ¬ (0x80000 ≤ off && off < 0x84000) = true := by
    rw [Bool.and_eq_true, decide_eq_true_iff]
    omega
  rw [if_neg (below_window hoff), if_neg hpreg, if_pos h]

theorem regRead_row (hoff : off < 0x40000) (h : isCounter off = false) (hrow : rowAt off = some r) (hpers : r.persistent = false) :
    regRead off s = rowRead r off s := by
  unfold regRead
  have hpreg : ¬ (0x80000 ≤ off && off < 0x84000) = true := by
    rw [Bool.and_eq_true, decide_eq_true_iff]
    omega
  rw [if_neg (below_window hoff), if_neg hpreg, h, hrow]
  dsimp only
  rw [hpers]
  rfl

theorem regRead_none (hoff : off < 0x40000) (h : isCounter off = false) (hrow : rowAt off = none) : regRead off s = (0, s) := by
  unfold regRead
  have hpreg : ¬ (0x80000 ≤ off && off < 0x84000) = true := by
    rw [Bool.and_eq_true, decide_eq_true_iff]
    omega
  rw [if_neg (below_window hoff), if_neg hpreg, h, hrow]
  rfl

/-- What a read leaves of the parts that it does not name. -/
structure ReadKeeps (s u : State) : Prop where
  rw : u.regs.rw = s.regs.rw
  pst : u.pst = s.pst
  sec : u.sec = s.sec
  hen : u.hen = s.hen
  sld : u.sld = s.sld

theorem clearRead_keeps (off n : Nat) (s : State) : ReadKeeps s (clearRead off n s) ∧ (clearRead off n s).regs = s.regs := by
  unfold clearRead
  dsimp only
  split
  · exact ⟨⟨rfl, rfl, rfl, rfl, rfl⟩, rfl⟩
  split
  · exact ⟨⟨rfl, rfl, rfl, rfl, rfl⟩, rfl⟩
  split
  · exact ⟨⟨rfl, rfl, rfl, rfl, rfl⟩, rfl⟩
  · exact ⟨⟨rfl, rfl, rfl, rfl, rfl⟩, rfl⟩

/-- An RO word of two, up: its lowest word as it is, its higher one from the latch. -/
theorem rowRead_lowest (hacc : r.acc = .ro) (h9 : off / 0x1000 ≠ 9) (hup : active s (wordDom s off) = true) (hword : r.word = 0) {x : Word}
    (hx : roWord s off = some x) : rowRead r off s = (x, clearRead off x.toNat (latchWords r off s)) := by
  unfold rowRead
  rw [hacc, if_neg (by rw [Bool.and_eq_true, decide_eq_true_iff]; exact fun h => h9 h.2), hup, hword]
  unfold roRead
  rw [hx]
  rfl

theorem rowRead_latched (hacc : r.acc = .ro) (h9 : off / 0x1000 ≠ 9) (hup : active s (wordDom s off) = true) (hword : r.word = 1) {x : Word}
    (hx : tget none off s.regs.latch = some x) : rowRead r off s = (x, clearLatched off s) := by
  unfold rowRead
  rw [hacc, if_neg (by rw [Bool.and_eq_true, decide_eq_true_iff]; exact fun h => h9 h.2), hup, hword, hx]
  rfl

/-- The higher word of two kept for its read. -/
theorem latchWords_two (hlen : r.len = 2) (hword : r.word = 0) (s : State) : latchWords r off s =
    { s with regs := { s.regs with latch := tput none (off + 4) (some ((roWord s (off + 4)).getD 0)) s.regs.latch,
                                   owed := tput 0 (off + 4) ((roWord s (off + 4)).getD 0).toNat s.regs.owed } } := by
  unfold latchWords regWords
  rw [hlen, hword]
  rfl

end

/-- Settles O56: writes through the table window, counters and registers of two words. -/
theorem windowWritesAndReadsKeepTheirRules : Obligations.WindowWritesAndReadsKeepTheirRules := by
  unfold Obligations.WindowWritesAndReadsKeepTheirRules
  refine ⟨fun t w v s => ?table, fun t off s => ?read⟩
  case table =>
    intro k st
    refine ⟨fun hfar => if_neg (not_lt.mpr hfar), fun hw hdown => settles (tableWindowWrite_idle hw hdown) fun _ _ => rfl, fun hw hup hlands => ⟨fun hst => ?_, fun hst => ?_⟩⟩
    · have hexec := tableWindowWrite_reaches (t := t) (v := v) hw hup
      rw [tableWrite_joins (s := atTime t s) hlands hst] at hexec
      exact settles hexec fun _ _ => ⟨nvmRead_queued .., rfl⟩
    · have hexec := tableWindowWrite_reaches (t := t) (v := v) hw hup
      obtain ⟨g, hg⟩ := ignoreWrite_update .aon 2 (0x40000 + 4 * w) v 1 (atTime t s)
      rw [tableWrite_ignored (s := atTime t s) hlands hst, hg] at hexec
      refine settles hexec fun _ _ => ⟨rfl, fun haon => ?_⟩
      show _ ∈ s.erc.inbox ++ (if aonUp s then _ else [])
      rw [if_pos haon]
      exact List.mem_append_right _ List.mem_cons_self
  case read =>
    intro a
    refine ⟨rfl, fun hfar => if_neg (not_lt.mpr hfar), fun hoff hdown => settles (counterRead_idle hoff hdown) fun _ _ => rfl, fun hoff hup =>
      ⟨fun hal => ?misaligned, fun hctr hactive => ?counter, fun hctr hidle => ?idle, fun hal hlow hctr hrow => ?none, fun r hal hlow hctr hrow hacc h9 hactive hlen => ?two⟩⟩
    case misaligned =>
      obtain ⟨g, hg⟩ := vecItem_update 13 { atTime t s with rdata := [0] }
      exact settles ((counterRead_misaligned hoff hup hal).trans (congrArg settle hg)) fun _ _ => rfl
    case counter =>
      obtain ⟨hlow, hal⟩ := counter_within hctr
      have hexec := counterRead_reads (t := t) hoff hup hal
      have htake : counterTake off (atTime t s) = (w32 (tget 0 off s.ctr), { atTime t s with ctr := tput 0 off 0 s.ctr }) := if_neg (by
        rw [show active (atTime t s) (ctrDom (atTime t s) off) = true from hactive]
        exact Bool.false_ne_true)
      rw [regRead_counter hlow hctr, htake] at hexec
      exact settles hexec fun _ _ => ⟨rfl, fun hrising => tget_tput 0 off 0 s.ctr hrising, fun o ho => tget_tput_ne 0 0 0 s.ctr ho⟩
    case idle =>
      obtain ⟨hlow, hal⟩ := counter_within hctr
      have hexec := counterRead_reads (t := t) hoff hup hal
      have htake : counterTake off (atTime t s) = (0, atTime t s) := if_pos (by
        rw [show active (atTime t s) (ctrDom (atTime t s) off) = false from hidle]
        rfl)
      rw [regRead_counter hlow hctr, htake] at hexec
      exact settles hexec fun _ _ => rfl
    case none =>
      have hexec := counterRead_reads (t := t) hoff hup hal
      rw [regRead_none hlow hctr hrow] at hexec
      exact settles hexec fun _ _ => rfl
    case two =>
      have hexec := counterRead_reads (t := t) hoff hup hal
      have hpers : r.persistent = false := by
        unfold RegRow.persistent
        rw [hacc]
        rfl
      rw [regRead_row hlow hctr hrow hpers] at hexec
      refine ⟨fun x hword hx => ?_, fun x hword hx => ?_⟩
      · rw [rowRead_lowest (s := atTime t s) hacc h9 hactive hword hx, latchWords_two hlen hword] at hexec
        obtain ⟨⟨hrw, hpst, hsec, hhen, hsld⟩, hregs⟩ := clearRead_keeps off x.toNat
          { atTime t s with regs := { s.regs with latch := tput none (off + 4) (some ((roWord (atTime t s) (off + 4)).getD 0)) s.regs.latch,
                                                  owed := tput 0 (off + 4) ((roWord (atTime t s) (off + 4)).getD 0).toNat s.regs.owed } }
        refine settles hexec fun _ _ => ⟨rfl, ?_, hrw, hpst, hsec, hhen, hsld⟩
        exact (congrArg (fun g : RegSt => tget none (off + 4) g.latch) hregs).trans (tget_tput_some ..)
      · rw [rowRead_latched (s := atTime t s) hacc h9 hactive hword hx] at hexec
        obtain ⟨⟨hrw, hpst, hsec, hhen, hsld⟩, hregs⟩ := clearRead_keeps off (tget 0 off s.regs.owed)
          { atTime t s with regs := { s.regs with owed := tput 0 off 0 s.regs.owed } }
        refine settles hexec fun _ _ => ⟨rfl, hregs, fun hecc hrising => ?_, hpst, hsec, hhen, hsld⟩
        subst hecc
        exact tget_tput _ _ _ _ hrising

end Sys2Proof.Proofs
end

section
/-!
PROOFS. HRE_POLL (R310, R311, R313, R315, R317, R337).
-/

namespace Sys2Proof.Proofs
open Sys2Proof.Machine Sys2Proof.Laws

/-! ## What taking the host's indices leaves as it is (R315, R327) -/

/-- What a poll's own records, the indices of CMD and CPL and the outstanding commands are. -/
def pollKey (h : HreSt) : Bool × Nat × Word × Word × List OutCmd := (h.knock, h.pollFails, h.cmdCons, h.cplProd, h.out)

/-- Counters, records, what left the part and the host side may have changed, but not the host side's `pollKey`. -/
structure Indexed (s u : State) : Prop where
  frame : u = { s with ctr := u.ctr, erc := { s.erc with inbox := u.erc.inbox }, out := u.out, hre := u.hre }
  key : pollKey u.hre = pollKey s.hre

/-- And CMD_PROD stands. -/
structure RingsTaken (s u : State) : Prop extends Indexed s u where
  prod : u.hre.cmdProd = s.hre.cmdProd

section
variable {s t u : State}

theorem Indexed.refl (s : State) : Indexed s s := ⟨rfl, rfl⟩

theorem Indexed.trans (h : Indexed s t) (k : Indexed t u) : Indexed s u :=
  ⟨k.frame.trans (congrArg (fun x : State => { x with ctr := u.ctr, erc := { x.erc with inbox := u.erc.inbox }, out := u.out, hre := u.hre }) h.frame),
    k.key.trans h.key⟩

theorem RingsTaken.refl (s : State) : RingsTaken s s := ⟨.refl s, rfl⟩

theorem RingsTaken.trans (h : RingsTaken s t) (k : RingsTaken t u) : RingsTaken s u := ⟨h.toIndexed.trans k.toIndexed, k.prod.trans h.prod⟩

theorem vecItem_taken (v : Nat) (s : State) : RingsTaken s (vecItem v s) := by
  obtain ⟨g, h⟩ := vecItem_update v s
  rw [h]
  exact ⟨⟨rfl, rfl⟩, rfl⟩

theorem mapRing_taken (n : Nat) (f : RingSt → RingSt) (s : State) : RingsTaken s (mapRing n f s) := ⟨⟨rfl, rfl⟩, rfl⟩

theorem hostWrite_taken (a : Nat) (d : List Byte) (s : State) : RingsTaken s (hostWrite a d s) := by
  obtain ⟨o, h⟩ := hostWrite_update a d s
  rw [h]
  exact ⟨⟨rfl, rfl⟩, rfl⟩

/-- An event counted, recorded and made an item of vector 13. -/
theorem told_taken (code : Nat) (b : Nat) (p0 p1 p2 : Word) (k : Nat) (s : State) : RingsTaken s (vecItem 13 (note code .host b p0 p1 p2 (bump k s))) := by
  refine .trans ?_ (vecItem_taken ..)
  rw [note_update]
  exact ⟨⟨rfl, rfl⟩, rfl⟩

theorem ringDone_taken (n : Nat) (p : Posted) (bytes fmt job : Nat) (reduced err last : Bool) (crc : Word) (s : State) :
    RingsTaken s (ringDone n p bytes fmt job reduced err last crc s) := by
  unfold ringDone
  exact ((hostWrite_taken ..).trans (mapRing_taken ..)).trans (vecItem_taken ..)

theorem ringPrune_taken (n fuel : Nat) (s : State) : RingsTaken s (ringPrune n fuel s) := by
  induction fuel generalizing s with
  | zero => exact .refl s
  | succ f ih =>
    unfold ringPrune
    split
    · split
      · exact .refl s
      · exact (ringDone_taken ..).trans (ih _)
    · exact .refl s

theorem readPosts_taken (n : Nat) (posts : List Posted) (k : Nat) (s : State) : RingsTaken s (readPosts n posts k s) := by
  induction k generalizing s with
  | zero => exact .refl s
  | succ k ih =>
    unfold readPosts
    dsimp only
    split
    · exact (mapRing_taken ..).trans (ih _)
    · exact told_taken ..

theorem takeIndex_taken (posts : List Posted) {r : Nat} (hr : r ≠ 0) (v : Word) (s : State) : RingsTaken s (takeIndex posts r v s) := by
  unfold takeIndex
  split
  · exact absurd rfl hr
  · exact ⟨⟨rfl, rfl⟩, rfl⟩
  · exact ⟨⟨rfl, rfl⟩, rfl⟩
  · exact (readPosts_taken ..).trans (ringPrune_taken ..)

/-- An index step of any ring but CMD, which takes no error away. -/
theorem indexStep_taken (ws : List Word) (posts : List Posted) (a : Bool × State) {r : Nat} (hr : r ≠ 0) :
    RingsTaken a.2 (indexStep ws posts a r).2 ∧ (a.1 = true → (indexStep ws posts a r).1 = true) := by
  unfold indexStep
  dsimp only
  split
  · exact ⟨.refl _, id⟩
  split
  · exact ⟨takeIndex_taken posts hr _ _, id⟩
  · exact ⟨told_taken .., fun _ => rfl⟩

end

/-! ## The indices of a poll -/

/-- CMD's index as a poll takes it. -/
def inRange (ws : List Word) (s : State) : Prop := (nth 0 ws 0 - s.hre.cmdCons).toNat ≤ ringSize s 0

section
variable {ws : List Word} {posts : List Posted} {s : State}

/-- The steps of the rings after CMD. -/
def restIndices (ws : List Word) (posts : List Posted) (a : Bool × State) : Bool × State := ((List.range 12).map Nat.succ).foldl (indexStep ws posts) a

theorem restIndices_taken (a : Bool × State) : RingsTaken a.2 (restIndices ws posts a).2 ∧ (a.1 = true → (restIndices ws posts a).1 = true) := by
  refine List.foldlRecOn _ _ (motive := fun x : Bool × State => RingsTaken a.2 x.2 ∧ (a.1 = true → x.1 = true)) ⟨.refl _, id⟩ fun x ⟨htaken, herr⟩ r hr => ?_
  obtain ⟨k, -, rfl⟩ := List.mem_map.mp hr
  obtain ⟨hstep, hkeep⟩ := indexStep_taken ws posts x (Nat.succ_ne_zero k)
  exact ⟨htaken.trans hstep, hkeep ∘ herr⟩

/-- The state with the index error of a poll. -/
def indexed (x : Bool × State) : State := { x.2 with hre := { x.2.hre with indexErr := x.1 } }

theorem takeIndices_eq : takeIndices ws posts s = indexed (restIndices ws posts (indexStep ws posts (false, s) 0)) := by
  unfold takeIndices
  rw [List.range_succ_eq_map, List.foldl_cons]
  rfl

theorem RingsTaken.indexed {t : State} {x : Bool × State} (h : RingsTaken t x.2) : RingsTaken t (indexed x) := h.trans ⟨⟨rfl, rfl⟩, rfl⟩

theorem indexStep_cmd (h : ringEn s 0 = true) (hin : inRange ws s) : indexStep ws posts (false, s) 0 = (false, { s with hre := { s.hre with cmdProd := nth 0 ws 0 } }) :=
  (if_neg (by rw [h]; exact Bool.false_ne_true)).trans (if_pos hin)

theorem indexStep_error (h : ringEn s 0 = true) (hin : ¬ inRange ws s) :
    indexStep ws posts (false, s) 0 = (true, vecItem 13 (note evIndexError .host 0 (w32 0) 0 0 (bump 0xCC0C s))) :=
  (if_neg (by rw [h]; exact Bool.false_ne_true)).trans (if_neg hin)

/-- What the indices of a poll leave: CMD_PROD follows CMD's index in range; one out of range is an index error. -/
structure PollIndexed (ws : List Word) (s u : State) : Prop extends Indexed s u where
  taken : inRange ws s → u.hre.cmdProd = nth 0 ws 0
  kept : ¬ inRange ws s → u.hre.cmdProd = s.hre.cmdProd ∧ u.hre.indexErr = true

theorem takeIndices_indexed (h : ringEn s 0 = true) : PollIndexed ws s (takeIndices ws posts s) := by
  rw [takeIndices_eq]
  obtain ⟨htaken, herr⟩ := restIndices_taken (ws := ws) (posts := posts) (indexStep ws posts (false, s) 0)
  by_cases hin : inRange ws s
  · rw [indexStep_cmd h hin] at htaken ⊢
    have hall := htaken.indexed
    refine ⟨.trans ?_ hall.toIndexed, fun _ => hall.prod, fun hno => absurd hin hno⟩
    exact ⟨rfl, rfl⟩
  · rw [indexStep_error h hin] at htaken herr ⊢
    have hall := (told_taken evIndexError 0 (w32 0) 0 0 0xCC0C s).trans htaken.indexed
    exact ⟨hall.toIndexed, fun hyes => absurd hyes hin, fun _ => ⟨hall.prod, herr rfl⟩⟩

end

/-! ## The poll -/

/-- The state at the start of a poll's work: the knock taken, the poll's instant kept, the poll counted. -/
def pollBegun (t : Int) (s : State) : State := bump 0xCC00 { atTime t s with hre := { s.hre with knock := false, pollAt := some t } }

/-- The state as a poll that reads begins to take what it read. -/
def pollRead (t : Int) (s : State) : State := bump 0xCC00 { atTime t s with hre := { s.hre with knock := false, pollAt := some t, pollFails := 0 } }

/-- The state in which a poll examines its commands. -/
def pollRings (p : PollRead) (ws : List Word) (s : State) : State := takeIndices ws p.posts (takeBeat (nth 0 ws 5) (pollRead p.t s))

section
variable {p : PollRead} {ws : List Word} {s : State}

theorem hrePoll_idle (h : ¬ (hreRun s = true ∧ hostCan s = true ∧ pollDue (atTime p.t s) = true)) : exec (.hrePoll p) s = settle (atTime p.t s) := by
  refine if_pos ?_
  rw [Bool.not_eq_true', ← Bool.not_eq_true, Bool.and_eq_true, Bool.and_eq_true]
  exact fun hand => h ⟨hand.1.1, hand.1.2, hand.2⟩

theorem poll_due (h : hreRun s = true ∧ hostCan s = true ∧ pollDue (atTime p.t s) = true) :
    ¬ (!(hreRun (atTime p.t s) && hostCan (atTime p.t s) && pollDue (atTime p.t s))) = true := by
  rw [show hreRun (atTime p.t s) = true from h.1, show hostCan (atTime p.t s) = true from h.2.1, h.2.2]
  exact Bool.false_ne_true

theorem hrePoll_fails (h : hreRun s = true ∧ hostCan s = true ∧ pollDue (atTime p.t s) = true) (harea : p.area = none) :
    exec (.hrePoll p) s = settle (pollFailed (pollBegun p.t s)) := by
  refine (if_neg (poll_due h)).trans ?_
  dsimp only
  rw [harea]
  rfl

theorem hrePoll_reads (h : hreRun s = true ∧ hostCan s = true ∧ pollDue (atTime p.t s) = true) (harea : p.area = some ws) :
    exec (.hrePoll p) s = settle (p.cmds.foldl (fun s r => nextCmd r s) (pollRings p ws s)) := by
  refine (if_neg (poll_due h)).trans ?_
  dsimp only
  rw [harea]
  rfl

theorem takeBeat_taken (v : Word) (s : State) : RingsTaken s (takeBeat v s) := by
  unfold takeBeat
  dsimp only
  split <;> exact ⟨⟨rfl, rfl⟩, rfl⟩

theorem ringEn_run (h : hreRun s = true) : ringEn s 0 = true := by
  unfold hreRun at h
  simp only [Bool.and_eq_true] at h
  obtain ⟨⟨⟨-, h0⟩, -⟩, -⟩ := h
  exact h0

/-- What the indices of a due poll leave. -/
theorem pollRings_indexed (h : hreRun s = true) : PollIndexed ws (pollRead p.t s) (pollRings p ws s) := by
  unfold pollRings
  have hbeat := takeBeat_taken (nth 0 ws 5) (pollRead p.t s)
  have hen : ringEn (takeBeat (nth 0 ws 5) (pollRead p.t s)) 0 = true := by
    rw [hbeat.frame]
    exact ringEn_run h
  have hcons : (takeBeat (nth 0 ws 5) (pollRead p.t s)).hre.cmdCons = s.hre.cmdCons := congrArg (fun k => k.2.2.1) hbeat.key
  have hin : inRange ws (takeBeat (nth 0 ws 5) (pollRead p.t s)) ↔ inRange ws (pollRead p.t s) := by
    unfold inRange
    rw [hcons, hbeat.frame]
    rfl
  obtain ⟨hindexed, htaken, hkept⟩ := takeIndices_indexed (ws := ws) (posts := p.posts) hen
  exact ⟨hbeat.toIndexed.trans hindexed, fun h => htaken (hin.mpr h), fun h => ⟨(hkept (mt hin.mp h)).1.trans hbeat.prod, (hkept (mt hin.mp h)).2⟩⟩

theorem nextCmd_passed {r : RingCmd} {v : State} (h : r.index ≠ v.hre.cmdCons) : nextCmd r v = v := by
  refine if_pos ?_
  unfold examinable
  rw [show ((descCmd r (r.words.getD [])).index == v.hre.cmdCons) = false from beq_false_of_ne h, Bool.and_false]
  rfl

theorem nextCmd_examinable {r : RingCmd} {ws : List Word} {v : State} (hindex : r.index = v.hre.cmdCons) (hprod : v.hre.cmdProd ≠ v.hre.cmdCons)
    (hcan : canExamine v = true) : examinable (descCmd r ws) v = true := by
  unfold examinable
  rw [hcan, show (descCmd r ws).index = v.hre.cmdCons from hindex, beq_self_eq_true, Bool.and_true, Bool.true_and]
  exact bne_iff_ne.mpr hprod.symm

/-- From s to v a poll came to the command of CMD_CONS at t and took it, and no other command was. -/
structure Examining (t : Int) (s v : State) : Prop where
  frame : v = { s with now := t, clk := v.clk, free := v.free, ctr := v.ctr, erc := { s.erc with inbox := v.erc.inbox }, out := v.out, hre := v.hre }
  cons : v.hre.cmdCons = s.hre.cmdCons + 1
  prod : v.hre.cplProd = s.hre.cplProd
  out : v.hre.out = s.hre.out
  run : hreRun v = true
  can : hostCan v = true

/-- A command taken at its instant in a poll. -/
theorem taken_examining {r : RingCmd} {cws : List Word} (h : hreRun s = true) (hindex : r.index = s.hre.cmdCons) (hcan : canExamine (pollRings p ws s) = true) :
    Examining r.t s (takeCmd (descCmd r cws) (atTime r.t (pollRings p ws s))) := by
  obtain ⟨⟨hframe, hkey⟩, -, -⟩ := pollRings_indexed (p := p) (ws := ws) h
  generalize pollRings p ws s = v at hframe hkey hcan ⊢
  obtain ⟨hrun, hcan⟩ : hreRun v = true ∧ hostCan v = true := by
    unfold canExamine at hcan
    simp only [Bool.and_eq_true] at hcan
    exact hcan.1.1.1.1.1
  refine ⟨?_, congrArg (· + 1) hindex, congrArg (fun k => k.2.2.2.1) hkey, congrArg (fun k => k.2.2.2.2) hkey, hrun, hcan⟩
  rw [hframe]
  rfl

theorem Examining.told {t : Int} {v : State} (h : Examining t s v) (f : Nat) (k : Tab Nat) (i : List EvIn) (g : HreSt) :
    Examining t s { v with free := f, ctr := k, erc := { v.erc with inbox := i }, hre := hreItems v.hre g } :=
  ⟨congrArg (fun y : State => { y with free := f, ctr := k, erc := { y.erc with inbox := i }, hre := hreItems v.hre g }) h.frame, h.cons, h.prod, h.out, h.run, h.can⟩

/-- Such a command completed: taken from CMD, its descriptor written to CPL as the state at its instant gives it, and nothing else outstanding. -/
theorem Examining.completes {t : Int} {v : State} {i : Instr} (h : Examining t s v) (o : OutCmd) (st : Nat) (r0 r1 : Word)
    (hexec : exec i s = settle (cplEmit o st r0 r1 false false v)) :
    ∃ u, exec i s = .next u ∧ u.hre.cmdCons = s.hre.cmdCons + 1 ∧ u.hre.cplProd = s.hre.cplProd + 1
      ∧ Out.hostWrite (ringAddr s 1 s.hre.cplProd) (wordsBytes (cplWords (atTime t s) o st r0 r1 false false)) ∈ u.out
      ∧ u.hre.out = s.hre.out ∧ u.sec = s.sec ∧ u.pst = s.pst ∧ u.stg = s.stg := by
  obtain ⟨k, g, hemit⟩ := cplEmit_runs_update o st r0 r1 false false h.run h.can
  have haddr : ringAddr v 1 v.hre.cplProd = ringAddr s 1 s.hre.cplProd := by
    rw [h.prod, h.frame]
    rfl
  have hwords : cplWords v o st r0 r1 false false = cplWords (atTime t s) o st r0 r1 false false := by
    rw [h.frame]
    rfl
  rw [haddr, hwords] at hemit
  refine settles (hexec.trans (congrArg settle hemit)) fun _ _ => ⟨h.cons, congrArg (· + 1) h.prod, ?_, h.out, ?_, ?_, ?_⟩
  · exact List.mem_append_left _ (List.mem_append_right _ List.mem_cons_self)
  · exact (congrArg State.sec h.frame :)
  · exact (congrArg State.pst h.frame :)
  · exact (congrArg State.stg h.frame :)

theorem effNop_emits (c : HostCmd) (v : State) :
    effOf 0x01 c v = cplEmit (outOf c 0x01 0) stApplied (roundLo v) (hi32 (curRound v)) false false v := rfl

theorem Examining.round {t : Int} {v : State} (h : Examining t s v) : roundLo v = roundLo (atTime t s) ∧ curRound v = curRound (atTime t s) := by
  rw [h.frame]
  exact ⟨rfl, rfl⟩

theorem examine_unlisted {op : Nat} {c : HostCmd} {v : State} (h : opcodeList.contains op = false) : examine op c v = (some stRefusedOpcode, v) := by
  refine if_pos ?_
  rw [h]
  rfl

theorem examine_nop {c : HostCmd} {v : State} (h : argsOk 0x01 c = true) : examine 0x01 c v = (none, v) := by
  have hargs : argsAt v 0x01 c = true := by
    unfold argsAt
    generalize (v.stg.port (argPort c)).plan = q
    cases q <;> rfl
  unfold examine
  rw [h, hargs]
  refine (if_neg Bool.false_ne_true).trans ((if_neg Bool.false_ne_true).trans ((if_neg ?_).trans ((if_neg ?_).trans rfl)))
  · rw [show safehaltOps.contains 0x01 = true from rfl, Bool.not_true, Bool.and_false]
    exact Bool.false_ne_true
  · rw [show decommissionedOps.contains 0x01 = true from rfl, Bool.not_true, Bool.and_false]
    exact Bool.false_ne_true

theorem dmaError_told (ring addr : Nat) (v : State) : ∃ k i g, dmaError ring addr v = { v with ctr := k, erc := { v.erc with inbox := i }, hre := hreItems v.hre g } := by
  unfold dmaError
  obtain ⟨g, h⟩ := vecItem_update 13 (note evDmaError .host 0 (w32 ring) (lo32 addr) 0 (bump 0xCC08 v))
  rw [note_update] at h ⊢
  exact ⟨_, _, g, h⟩

/-- The command at CMD_CONS, read, is examined at its instant. -/
theorem nextCmd_runs {r : RingCmd} {ds : List Word} {v : State} (hwords : r.words = some ds) (h : examinable (descCmd r ds) v = true) :
    nextCmd r v = runCommand (descOp ds) (effOf (descOp ds)) (descCmd r ds) (atTime r.t v) := by
  unfold nextCmd
  rw [hwords]
  exact if_neg (by rw [show examinable (descCmd r ((some ds).getD [])) v = true from h]; exact Bool.false_ne_true)

theorem runCommand_refused {op st : Nat} {eff : HostCmd → State → State} {c : HostCmd} {v : State} (h : examinable c v = true)
    (hexamine : examine op c (takeCmd c v) = (some st, takeCmd c v)) : runCommand op eff c v = finishNow c op st 0 0 (takeCmd c v) := by
  unfold runCommand
  rw [if_neg (by rw [h]; exact Bool.false_ne_true), hexamine]

theorem runCommand_passed {op : Nat} {eff : HostCmd → State → State} {c : HostCmd} {v : State} (h : examinable c v = true)
    (hexamine : examine op c (takeCmd c v) = (none, takeCmd c v)) : runCommand op eff c v = eff c (takeCmd c v) := by
  unfold runCommand
  rw [if_neg (by rw [h]; exact Bool.false_ne_true), hexamine]

/-- A poll that failed is counted, the third in a row loses the host. -/
theorem pollFailed_update {t : Int} (hcan : hostCan s = true) : ∃ k i g loss losses, pollFailed (pollBegun t s) =
      { atTime t s with ctr := k, erc := { s.erc with inbox := i }, hre := { hreItems s.hre g with knock := false, pollAt := some t, pollFails := s.hre.pollFails + 1, loss := loss, losses := losses } }
    ∧ (2 ≤ s.hre.pollFails → loss = .stopped) := by
  obtain ⟨k, i, g, hdma⟩ := dmaError_told 255 (reg64 (pollBegun t s) 0xC008) { pollBegun t s with hre := { (pollBegun t s).hre with pollFails := s.hre.pollFails + 1 } }
  have hloss : s.hre.loss ≠ .stopped := by
    unfold hostCan at hcan
    simp only [Bool.and_eq_true, bne_iff_ne] at hcan
    exact hcan.1.2
  have hfailed : pollFailed (pollBegun t s) = (fun v : State => if s.hre.pollFails + 1 ≥ 3 then hostLoss true 1 v else v)
      (dmaError 255 (reg64 (pollBegun t s) 0xC008) { pollBegun t s with hre := { (pollBegun t s).hre with pollFails := s.hre.pollFails + 1 } }) := rfl
  rw [hdma] at hfailed
  dsimp only at hfailed
  by_cases hmany : s.hre.pollFails + 1 ≥ 3
  · rw [if_pos hmany] at hfailed
    exact ⟨_, _, g, _, _, hfailed.trans (hostLoss_update true 1 hloss hloss), fun _ => rfl⟩
  · rw [if_neg hmany] at hfailed
    exact ⟨_, _, g, s.hre.loss, s.hre.losses, hfailed, fun h => absurd (Nat.succ_le_succ h) hmany⟩

end

/-- Settles O57: polls that are not due, that fail, and that take indices and the next command. -/
theorem pollTakesIndicesAndCommands : Obligations.PollTakesIndicesAndCommands := by
  unfold Obligations.PollTakesIndicesAndCommands
  intro p s a due
  refine ⟨fun h => settles (hrePoll_idle h) fun _ _ => rfl, fun h harea => ?failed, fun ws h harea => ?read⟩
  case failed =>
    obtain ⟨k, i, g, loss, losses, hfailed, hstopped⟩ := pollFailed_update (t := p.t) h.2.1
    exact settles ((hrePoll_fails h harea).trans (congrArg settle hfailed)) fun _ _ => ⟨rfl, rfl, rfl, hstopped, rfl⟩
  case read =>
    intro b hin
    have hexec := hrePoll_reads h harea
    obtain ⟨⟨hframe, hkey⟩, htaken, hkept⟩ := pollRings_indexed (p := p) (ws := ws) h.1
    have hcons : b.hre.cmdCons = s.hre.cmdCons := congrArg (fun k => k.2.2.1) hkey
    refine ⟨fun hcmds => ?none, fun r hcmds hindex => ?passed, fun r ds hcmds hwords hop hindex hprod hcan => ?unlisted,
      fun r hcmds hwords hindex hprod hcan => ?unread, fun r ds hcmds hwords hop hindex hprod hcan hargs => ?nop⟩
    case none =>
      rw [hcmds] at hexec
      exact settles hexec fun _ _ => ⟨congrArg (fun k => k.1) hkey, congrArg (fun k => k.2.1) hkey, hcons, htaken, hkept, (congrArg State.regs hframe :),
        (congrArg State.sec hframe :), (congrArg State.pst hframe :), (congrArg State.stg hframe :), (congrArg State.hen hframe :), (congrArg State.sld hframe :)⟩
    case passed =>
      rw [hcmds] at hexec
      have hnext : nextCmd r (pollRings p ws s) = pollRings p ws s := nextCmd_passed fun he => hindex (he.trans hcons)
      refine settles (hexec.trans (congrArg settle hnext)) fun _ _ => ⟨hcons, congrArg (fun k => k.2.2.2.2) hkey, (congrArg State.regs hframe :),
        (congrArg State.sec hframe :), (congrArg State.pst hframe :), (congrArg State.stg hframe :), (congrArg State.hen hframe :), (congrArg State.sld hframe :)⟩
    case unlisted =>
      have hopen := nextCmd_examinable (ws := ds) (hindex.trans hcons.symm) (by rw [hcons]; exact hprod) hcan
      have hnext := (nextCmd_runs hwords hopen).trans (runCommand_refused (v := atTime r.t b) hopen (examine_unlisted hop))
      rw [hcmds] at hexec
      exact (taken_examining h.1 hindex hcan).completes _ _ _ _ (hexec.trans (congrArg settle hnext))
    case unread =>
      have hopen := nextCmd_examinable (ws := []) (hindex.trans hcons.symm) (by rw [hcons]; exact hprod) hcan
      have hnext : nextCmd r (pollRings p ws s) = unread (descCmd r []) (atTime r.t (pollRings p ws s)) := by
        unfold nextCmd
        rw [hwords]
        exact if_neg (by rw [show examinable (descCmd r (none.getD [])) (pollRings p ws s) = true from hopen]; exact Bool.false_ne_true)
      have htaken := taken_examining (cws := []) h.1 hindex hcan
      rw [hcmds] at hexec
      replace hexec := hexec.trans (congrArg settle hnext)
      unfold unread at hexec
      obtain ⟨k, i, g, hdma⟩ := dmaError_told 0 (ringAddr (atTime r.t (pollRings p ws s)) 0 (descCmd r []).index) (takeCmd (descCmd r []) (atTime r.t (pollRings p ws s)))
      dsimp only at hexec
      rw [hdma] at hexec
      obtain ⟨u, hu⟩ := (htaken.told (takeCmd (descCmd r []) (atTime r.t (pollRings p ws s))).free.succ k i g).completes _ _ _ _ hexec
      exact ⟨u, _, hu⟩
    case nop =>
      have hopen := nextCmd_examinable (ws := ds) (hindex.trans hcons.symm) (by rw [hcons]; exact hprod) hcan
      have hnext := nextCmd_runs hwords hopen
      rw [hop] at hnext
      replace hnext := (hnext.trans (runCommand_passed (v := atTime r.t b) hopen (examine_nop hargs))).trans (effNop_emits ..)
      have htaken : Examining r.t s (takeCmd (descCmd r ds) (atTime r.t b)) := taken_examining h.1 hindex hcan
      rw [htaken.round.1, htaken.round.2] at hnext
      rw [hcmds] at hexec
      exact htaken.completes _ _ _ _ (hexec.trans (congrArg settle hnext))

end Sys2Proof.Proofs
end

section
/-!
PROOFS. Each command's own effect, from what the statements of its family say.
-/

namespace Sys2Proof.Proofs
open Sys2Proof.Machine Sys2Proof.Laws

/-! ## Systems and lanes read where they were put -/

theorem sysOf_setNth {n : Fin 8} {y : LSys} {x : LhfSt} (h : x.sys.length = 8) {u : State} (hu : u.lhf.sys = setNth x.sys n y) : sysOf u n = y := by
  unfold sysOf nth setNth at *
  rw [hu, List.getElem?_set_self (by rw [h]; exact n.isLt)]
  rfl

theorem lane_of_setLane {l : Lane} {x : Two RctSt} {y : RctSt} {u : State} (hu : u.net.rct = x.setLane l y) : u.net.rct.lane l = y := by
  rw [hu]
  exact lane_setLane ..

/-! ## Host commands -/

section
variable {c : HostCmd} {s : State}

theorem filterSync_joins {i : Fch} (h : Passes 0x18 c s) (hnow : bitOf c.a0 8 = true) (hi : bitOf c.a0 i.num = true) (hrun : (fchOf s i).run = true)
    (hearly : syncLate s i (grid10 (c.t + 20000)) = false) : ∃ u, exec (.filterSync c) s = .next u ∧ Accepted 0x18 c s u
      ∧ (fchOf u i).syncs = (fchOf s i).syncs ++ [{ src := 1, ty := grid10 (c.t + 20000), lt := !s.net.joined, id := s.hre.nextId + 1 }] := by
  obtain ⟨hsync, -⟩ := syncsWaitAtTheirInstances
  obtain ⟨hjoin, -⟩ := hsync c s h (.inl hnow)
  rw [hnow] at hjoin
  obtain ⟨u, hu, hacc, -, -, hall, -⟩ := hjoin ⟨i, hi, hrun, hearly⟩
  exact ⟨u, hu, hacc, congrArg FchSt.syncs (hall i ⟨hi, hrun, hearly⟩)⟩

theorem headFlush_empties {r : HeadRec} {l : Lane} (h : Passes 0x20 c s) (hcross : c.cross = []) (hfresh : ∀ o ∈ s.hre.out, o.id ≠ s.hre.nextId + 1)
    (hr : headRec s (fld c.a0 12 0) = some r) (hl : laneTakes s l = true) :
    ∃ u, exec (.headFlush c) s = .next u ∧ u.hre.cplProd = s.hre.cplProd + 1 ∧ (headOf u l (fld c.a0 12 0) (profile s r.profile)).list = [] := by
  obtain ⟨-, hflush⟩ := decimationPointReachesHeads
  obtain ⟨u, hu, -, -, hprod, hlist, -⟩ := hflush c s h hcross hfresh
  exact ⟨u, hu, hprod, hlist r l hr hl⟩

theorem laneRetire_silences (h : Passes 0x30 c s) (hs : s.lcm.cond.lane (argLane c) = .serving) (ho : serving s (argLane c).other = true) :
    ∃ u, exec (.laneRetire c) s = .next u ∧ Accepted 0x30 c s u ∧ u.lcm.cond.lane (argLane c) = .failSilent := by
  obtain ⟨hretire, -, -⟩ := retiredLaneFallsSilent c s h
  obtain ⟨u, hu, hacc, hsilent, -⟩ := hretire hs ho
  exact ⟨u, hu, hacc, hsilent⟩

theorem lifecycleSet_sets (h : Passes 0x63 c s) (hok : lifecycleOk s (fld c.a0 2 0) = true) (hnot : fld c.a0 2 0 ≠ 5) :
    ∃ u, exec (.lifecycleSet c) s = .next u ∧ u.sec.lifecycle = fld c.a0 2 0 ∧ u.sec.level = 0 := by
  obtain ⟨hset, -⟩ := lifecycleMovesOnlyWherePermitted
  obtain ⟨hmoves, -, -⟩ := hset c s h
  obtain ⟨u, -, hu, -, -, hsec, -⟩ := hmoves hok hnot
  exact ⟨u, hu, (congrArg SecSt.lifecycle hsec :), (congrArg SecSt.level hsec :)⟩

theorem attest_completes (h : Passes 0x64 c s) (hup : aonUp s = true) : ∃ u, exec (.attest c) s = .next u ∧ Completed 0x64 c stApplied 160 0 s u := by
  obtain ⟨-, hattest⟩ := lifecycleMovesOnlyWherePermitted
  obtain ⟨hdone, -⟩ := hattest c s h
  obtain ⟨u, -, hu, hcompleted, -⟩ := hdone hup
  exact ⟨u, hu, hcompleted⟩

theorem powerRequest_setsLean (h : Passes 0x68 c s) (hv : fld c.a0 2 0 = 4) (hp : s.bsc.power = .service) :
    ∃ u, exec (.powerRequest c) s = .next u ∧ u.bsc.leanRequest = true ∧ u.bsc.power = .lean := by
  obtain ⟨hrequest, -⟩ := powerRequestsAndBandsKeepFloors
  obtain ⟨-, -, -, -, hlean, -⟩ := hrequest c s h
  obtain ⟨u, hu, -, hon, hpower, -⟩ := hlean hv (.inl hp)
  have hcause : leanCause { s.bsc with leanRequest := true } = true := by
    unfold leanCause leanBits
    simp [b2n]
  rw [hp, hcause] at hpower
  exact ⟨u, hu, hon, hpower⟩

theorem powerRequest_standsBy (h : Passes 0x68 c s) (hv : fld c.a0 2 0 = 1) (hmay : mayStandby s = true) :
    ∃ u, exec (.powerRequest c) s = .next u ∧ u.bsc.standbyAt = some (c.t + 1000000) := by
  obtain ⟨hrequest, -⟩ := powerRequestsAndBandsKeepFloors
  obtain ⟨hstandby, -⟩ := hrequest c s h
  obtain ⟨u, -, hu, hat, -⟩ := hstandby hv hmay
  exact ⟨u, hu, hat⟩

end

/-! ## Rings and syncs -/

section
variable {t : Int} {s : State}

theorem hreKnock_knocks (h : active s .host = true) (v : Word) : ∃ u, exec (.hreKnock t v) s = .next u ∧ u.hre.knock = hreRun s := by
  obtain ⟨hknock, -⟩ := ringControlWritesItsWord
  obtain ⟨hup, -⟩ := hknock t v s
  obtain ⟨u, hu, hk, -⟩ := hup h
  exact ⟨u, hu, hk⟩

theorem hreCtlRun_writes (h : active s .host = true) (run : Bool) :
    ∃ u, exec (.hreCtlRun t run) s = .next u ∧ u.regs.rw = tput (regReset 0xC000) 0xC000 (w32 (b2n run)) s.regs.rw := by
  obtain ⟨-, hctl, -⟩ := ringControlWritesItsWord
  obtain ⟨u, hu, hregs, -⟩ := hctl t run s h
  exact ⟨u, hu, congrArg RegSt.rw hregs⟩

theorem hreRingEnable_writes (h : active s .host = true) (r : Fin 13) (v : Word) (hoff : ringEn s r = false) (hlow : 6 ≤ fld v 4 0) (hhigh : fld v 4 0 ≤ 16) :
    ∃ u, exec (.hreRingEnable t r v) s = .next u
      ∧ u.regs.rw = tput (regReset (0xC048 + 16 * r.val)) (0xC048 + 16 * r.val) (w32 (256 * b2n (bitOf v 8) + fld v 4 0)) s.regs.rw := by
  obtain ⟨-, -, hring⟩ := ringControlWritesItsWord
  obtain ⟨u, hu, -, -, -, -, -, -, -, hwrites, -⟩ := hring t r v s h
  exact ⟨u, hu, (hwrites hoff hlow hhigh).1⟩

theorem syncInEdge_joins {i : Fch} (hi : i ≠ .field) (hon : bitOf (reg s (fchOff i + 8)) 0 = true) (hrun : (fchOf s i).run = true) (hactive : active s i.dom = true)
    (hnone : (fchOf s i).syncs.any (fun r => r.src == 0) = false) : ∃ u, exec (.syncInEdge t) s = .next u
      ∧ (fchOf u i).syncs = (fchOf s i).syncs ++ [{ src := 0, ty := t, lt := !s.net.joined, id := 0 }] := by
  obtain ⟨-, hedge, -⟩ := syncsWaitAtTheirInstances
  obtain ⟨u, hu, -, hjoins, -⟩ := hedge t i s hi
  exact ⟨u, hu, congrArg FchSt.syncs (hjoins hon hrun hactive hnone)⟩

theorem fchSyncntArm_joins {i : Fch} (hi : Word) (hactive : active s i.dom = true) (hrun : (fchOf s i).run = true) : ∃ u r, exec (.fchSyncntArm t i hi) s = .next u
      ∧ (fchOf u i).syncs = (fchOf s i).syncs ++ [r] ∧ r.src = 2 ∧ r.lt = false := by
  obtain ⟨-, -, harm⟩ := syncsWaitAtTheirInstances
  obtain ⟨u, hu, hjoins, -⟩ := harm t i hi s hactive
  obtain ⟨r, hsyncs, hsrc, hlt, -⟩ := hjoins i (.inl rfl) hactive hrun
  exact ⟨u, r, hu, congrArg FchSt.syncs hsyncs, hsrc, hlt⟩

theorem zoneSample_takes {i : Fch} {z : ZPoint} {r : List ZPoint} (hz : (fchOf s i).zq = z :: r) (hsig : ∀ l, s.lcm.sig.lane l = s.lcm.sigRef.lane l)
    (hroom : ∀ l, laneTakes s l = true → henFull s l = false) : ∃ u, exec (.zoneSample t i [] []) s = .next u ∧ (fchOf u i).zq = r := by
  have hfull : bothLanes.any (fun l => laneTakes s l && henFull s l) = false := by
    rw [List.any_eq_false]
    intro l _ hand
    rw [Bool.and_eq_true] at hand
    rw [hroom l hand.1] at hand
    exact Bool.false_ne_true hand.2
  obtain ⟨hpoint, -⟩ := decimationPointReachesHeads
  obtain ⟨htaken, -⟩ := hpoint t i z r s hz hsig
  obtain ⟨u, hu, hfch, -⟩ := htaken hfull
  exact ⟨u, hu, congrArg FchSt.zq hfch⟩

end

/-! ## Legacy systems and conversions -/

section
variable {t : Int} {n : Fin 8} {s : State}

theorem clampTrip_clamps (hon : active s .field = true ∧ s.lhf.on = true) (hlen : s.lhf.sys.length = 8) (pos : Bool) :
    ∃ u, exec (.clampTrip t n pos) s = .next u ∧ (sysOf u n).clamp = some (t, pos) := by
  obtain ⟨htrip, -⟩ := legacySystemsFollowTheirCommands t n s
  obtain ⟨u, hu, hwith⟩ := htrip pos hon
  have hsys := sysOf_setNth (n := n) hlen (congrArg (fun u : State => u.lhf.sys) hwith :)
  exact ⟨u, hu, congrArg LSys.clamp hsys⟩

theorem clampRelease_frees {k : Int × Bool} (h : (sysOf s n).clamp = some k) : ∃ u, exec (.clampRelease t n) s = .next u ∧ (sysOf u n).clamp = none := by
  obtain ⟨-, -, -, hrelease, -⟩ := legacySystemsFollowTheirCommands t n s
  obtain ⟨u, hu, hclamp, -⟩ := hrelease k h
  exact ⟨u, hu, hclamp⟩

theorem toneBurstStart_starts (hon : active s .field = true ∧ s.lhf.on = true) (hlen : s.lhf.sys.length = 8) {k : Nat} (htones : ctlF s n 1 1 ≠ 0)
    (hen : (sysOf s n).en = true) (hfault : nth false (sysOf s n).faults 0 = false) (ht : t = s.lhf.tT + 250000000 * (k : Int) + 31250000 * (n.val : Int)) :
    ∃ u b, exec (.toneBurstStart t n) s = .next u ∧ (sysOf u n).burst = some b ∧ b.n = k ∧ b.start = t := by
  obtain ⟨-, -, -, -, ⟨hstart, -⟩, -⟩ := legacySystemsFollowTheirCommands t n s
  obtain ⟨u, hu, hwith⟩ := hstart k ⟨hon, htones, hen, hfault⟩ ht
  have hsys := sysOf_setNth (n := n) hlen (congrArg (fun u : State => u.lhf.sys) hwith :)
  exact ⟨u, _, hu, congrArg LSys.burst hsys, rfl, rfl⟩

theorem toneBurstEvaluate_clears (hlen : s.lhf.sys.length = 8) {b : Burst} (hb : (sysOf s n).burst = some b) (hpast : b.past = true) :
    ∃ u, exec (.toneBurstEvaluate t n) s = .next u ∧ (sysOf u n).burst = none := by
  obtain ⟨-, -, -, -, -, hkeeps, hskips, -⟩ := legacySystemsFollowTheirCommands t n s
  cases hskip : b.skip
  case false =>
    obtain ⟨u, hu, hnone, -⟩ := hkeeps b hb hpast hskip
    exact ⟨u, hu, hnone⟩
  case true =>
    obtain ⟨u, hu, hwith⟩ := hskips b hb hpast hskip
    have hsys := sysOf_setNth (n := n) hlen (congrArg (fun u : State => u.lhf.sys) hwith :)
    exact ⟨u, hu, congrArg LSys.burst hsys⟩

theorem lhfExcitationChange_waits (hfield : active s .field = true) (hlen : s.lhf.sys.length = 8) {v : Word} (hhost : active s .host = true)
    (hlands : lands s (pregWord (0xB000 + 0x10 * n.val)) = true) (hlow : 175921860 ≤ fld v 29 0) (hhigh : fld v 29 0 ≤ 615726512) (hnone : (sysOf s n).change = none) :
    ∃ u, exec (.lhfExcitationChange t n false v) s = .next u ∧ (sysOf u n).change = some (nextValue (atTime t s))
      ∧ u.pst.wq = s.pst.wq ++ [(pregWord (0xB000 + 0x10 * n.val), w32 (fld v 29 0))] := by
  obtain ⟨-, -, -, -, -, -, -, -, hchange⟩ := legacySystemsFollowTheirCommands t n s
  obtain ⟨htaken, -⟩ := hchange false v hhost
  obtain ⟨u, hu, hwith⟩ := htaken ⟨hlow, hhigh⟩ hlands hfield (.inl rfl) fun h hh => by
    rw [hnone] at hh
    cases hh
  have hsys := sysOf_setNth (n := n) hlen (congrArg (fun u : State => u.lhf.sys) hwith :)
  refine ⟨u, hu, (congrArg LSys.change hsys).trans ?_, (congrArg (fun u : State => u.pst.wq) hwith :)⟩
  rw [hnone]
  rfl

theorem sarConversion_frees (hon : active s .field = true ∧ s.lhf.on = true) (u2 : Fin 2) (code : Int)
    (hwait : (if u2.val = 0 then s.lhf.sar.a else s.lhf.sar.b).wait = []) (hroutine : (if u2.val = 0 then s.lhf.sar.a else s.lhf.sar.b).routine = none)
    (ht : t = max (s.lhf.tG + 7200 * ((if u2.val = 0 then s.lhf.sar.a else s.lhf.sar.b).c : Int) + 1800 * ((if u2.val = 0 then s.lhf.sar.a else s.lhf.sar.b).k : Int))
      (if u2.val = 0 then s.lhf.sar.a else s.lhf.sar.b).free + 1790) :
    ∃ u, exec (.sarConversion t u2 code) s = .next u ∧ (if u2.val = 0 then u.lhf.sar.a else u.lhf.sar.b).free = t := by
  obtain ⟨hsar, -⟩ := conversionsFollowTheirSlots t s
  obtain ⟨hends, -⟩ := hsar u2 code hon
  obtain ⟨u, hu, hfree, -⟩ := hends hwait hroutine ht
  refine ⟨u, hu, ?_⟩
  rw [hfree]
  split <;> rfl

theorem routineConversion_turns (hon : active s .field = true ∧ s.lhf.on = true) (a b : Int) (ht : t % 1000000 = 0) :
    ∃ u, exec (.routineConversion t a b) s = .next u ∧ u.lhf.rot = (s.lhf.rot + 1) % 6 := by
  obtain ⟨-, hroutine, -⟩ := conversionsFollowTheirSlots t s
  obtain ⟨hturns, -⟩ := hroutine a b hon
  obtain ⟨u, hu, hlhf⟩ := hturns ht
  exact ⟨u, hu, (congrArg (fun u : State => u.lhf.rot) hlhf :)⟩

theorem urgentConversion_waits (hon : active s .field = true ∧ s.lhf.on = true) (r : Int) (hurg : (if n.val < 4 then s.lhf.sar.a else s.lhf.sar.b).urg = none) :
    ∃ u, exec (.urgentConversion t n r) s = .next u
      ∧ (if n.val < 4 then u.lhf.sar.a else u.lhf.sar.b).wait = (if n.val < 4 then s.lhf.sar.a else s.lhf.sar.b).wait ++ [(grid10 t, n.val, r)] := by
  obtain ⟨-, -, hurgent, -⟩ := conversionsFollowTheirSlots t s
  obtain ⟨u, hu, hlhf⟩ := hurgent n r hon
  have hsar := (congrArg (fun u : State => u.lhf.sar) hlhf :)
  refine ⟨u, hu, ?_⟩
  dsimp only at hsar
  rw [hsar, hurg]
  split <;> rfl

end

/-! ## The legacy bus -/

section
variable {t : Int} {s : State}

theorem legacyPollSend_sends {w : Word} (h : BusLives s s.net.bus 1) (hw : (pollEntries s 1)[s.net.bus.ix]? = some w) (hrun : s.net.bus.running = true) (hout : s.net.bus.out = none)
    (hnext : s.net.bus.nextAt ≤ t) : ∃ u p, exec (.legacyPollSend t) s = .next u ∧ u.net.bus.out = some p ∧ p.addr = fld w 7 0 ∧ u.net.bus.ix = s.net.bus.ix + 1 := by
  obtain ⟨-, -, hsend, -⟩ := legacyBusWalksAndAnswers t s
  obtain ⟨hgo, -⟩ := hsend w hw
  obtain ⟨u, seq, hu, -, hbus⟩ := hgo ⟨h, hrun, hout, hnext⟩
  exact ⟨u, _, hu, (congrArg (fun u : State => u.net.bus.out) hbus :), rfl, (congrArg (fun u : State => u.net.bus.ix) hbus :)⟩

theorem legacyReplyTimeout_clears {p : PollOut} (h : BusLives s s.net.bus 1) (hp : s.net.bus.out = some p) (ht : p.tEnd + p.wait ≤ t) :
    ∃ u, exec (.legacyReplyTimeout t) s = .next u ∧ u.net.bus.out = none ∧ u.net.bus.nextAt = t + 20000 := by
  obtain ⟨-, -, -, -, -, htimeout, -⟩ := legacyBusWalksAndAnswers t s
  obtain ⟨hends, -⟩ := htimeout p hp
  obtain ⟨u, hu, hbus⟩ := hends h ht
  exact ⟨u, hu, (congrArg (fun u : State => u.net.bus.out) hbus :), (congrArg (fun u : State => u.net.bus.nextAt) hbus :)⟩

theorem legacyReplyReceive_serves {cs : List CharRx} {r : BusRx} {p : PollOut} (h : BusLives s s.net.bus 1) (hr : busRx cs = some r) (hp : s.net.bus.out = some p)
    (hcause : replyCause p r = 0) : ∃ u n, exec (.legacyReplyReceive cs) s = .next u
      ∧ u.net.bus.nodes = tput none p.addr (some n) s.net.bus.nodes ∧ n.service = true ∧ n.pos = (nth 0 r.chars 8).toNat ∧ n.neg = (nth 0 r.chars 9).toNat := by
  obtain ⟨-, -, -, -, -, -, hreply, -⟩ := legacyBusWalksAndAnswers 0 s
  obtain ⟨-, hlive⟩ := hreply cs
  obtain ⟨-, -, hgood⟩ := hlive r hr h
  obtain ⟨u, hu, hbus, -⟩ := hgood p hp hcause
  exact ⟨u, _, hu, (congrArg LBusSt.nodes hbus :), rfl, rfl, rfl⟩

theorem legacyWalkStart_walks (h : active s .field = true ∧ s.net.ridge = false ∧ s.bsc.power ≠ .safehalt ∧ s.sec.lifecycle ≠ 5) (hmode : regF s 0x9028 1 0 = 1)
    (hrun : s.net.bus.running = false) (hreply : s.net.bus.reply = none) (hwalk : s.net.bus.walkAt = none) (hentries : pollEntries s 1 ≠ []) :
    ∃ u, exec (.legacyWalkStart t) s = .next u ∧ u.net.bus.running = true ∧ u.net.bus.walkAt = some t ∧ u.net.bus.ix = 0 := by
  obtain ⟨hstart, -⟩ := legacyBusWalksAndAnswers t s
  obtain ⟨hfield, hridge, hpower, hlife⟩ := h
  have hcycle : ¬ (s.net.bus.running = true ∨ s.net.bus.reply ≠ none) := by
    rw [hrun, hreply]
    exact not_or_intro Bool.false_ne_true (fun hne => hne rfl)
  have hnever : ∀ w, s.net.bus.walkAt = some w → w + ((regF s 0x9028 25 16 * 1000000 : Nat) : Int) ≤ t := fun w hw => by
    rw [hwalk] at hw
    cases hw
  obtain ⟨u, hu, hbus⟩ := hstart ⟨⟨hfield, hridge, hpower, hlife, by rw [if_neg hcycle]; exact hmode⟩, hrun, hnever, hentries⟩
  exact ⟨u, hu, (congrArg (fun u : State => u.net.bus.running) hbus :), (congrArg (fun u : State => u.net.bus.walkAt) hbus :),
    (congrArg (fun u : State => u.net.bus.ix) hbus :)⟩

theorem legacyPollReceive_answers {cs : List CharRx} {r : BusRx} {h : Nat} (hlives : BusLives s s.net.bus 2) (hr : busRx cs = some r) (hreply : s.net.bus.reply ≠ none)
    (hstops : r.stopsOk = true) (hlen : r.chars.length = 5) (hpoll : (nth 0 r.chars 1).toNat = 0x31) (hcrc : busCrc ((r.chars.drop 1).take 2) = r.chars.drop 3)
    (hshown : ((nth 0 r.chars 0).toNat, h) ∈ s.net.bus.shown) : ∃ u, exec (.legacyPollReceive cs) s = .next u
      ∧ u.net.bus.reply = some ((nth 0 r.chars 0).toNat, (nth 0 r.chars 2).toNat, r.fin + 20000) := by
  obtain ⟨-, -, -, -, -, -, -, hpolled, -⟩ := legacyBusWalksAndAnswers 0 s
  obtain ⟨hgood, -⟩ := hpolled cs
  have hcycle : s.net.bus.running = true ∨ s.net.bus.reply ≠ none := .inr hreply
  rw [if_pos hcycle] at hgood
  obtain ⟨u, hu, hbus⟩ := hgood r hr ⟨hlives, hstops, hlen, hpoll, hcrc, h, hshown⟩
  exact ⟨u, hu, (congrArg (fun u : State => u.net.bus.reply) hbus :)⟩

theorem legacyReplySend_clears {ad seq h : Nat} (hlives : BusLives s s.net.bus 2) (hreply : s.net.bus.reply = some (ad, seq, t)) (hshown : (ad, h) ∈ s.net.bus.shown) :
    ∃ u, exec (.legacyReplySend t) s = .next u ∧ u.net.bus.reply = none ∧ ad ∈ u.net.bus.replied := by
  obtain ⟨-, -, -, -, -, -, -, -, -, hsend⟩ := legacyBusWalksAndAnswers t s
  obtain ⟨hgo, -⟩ := hsend ad seq t hreply
  obtain ⟨u, -, hu, -, -, hbus⟩ := hgo ⟨hlives, by omega, by omega, h, hshown⟩
  refine ⟨u, hu, (congrArg (fun u : State => u.net.bus.reply) hbus :), ?_⟩
  rw [(congrArg (fun u : State => u.net.bus.replied) hbus :)]
  show ad ∈ if s.net.bus.replied.contains ad then s.net.bus.replied else ad :: s.net.bus.replied
  split
  case isTrue hin => exact List.contains_iff_mem.mp hin
  case isFalse => exact List.mem_cons_self

end

/-! ## Lanes in round and polled mode -/

section
variable {t : Int} {l : Lane} {s : State}

theorem sameFrame_of_eq {c d : LCopy} (h : (d.dyn, d.index, d.round) = (c.dyn, c.index, c.round)) : sameFrame c d = true := by
  simp only [Prod.mk.injEq] at h
  obtain ⟨hdyn, hindex, hround⟩ := h
  unfold sameFrame
  rw [hdyn, hindex, hround, beq_self_eq_true, beq_self_eq_true, beq_self_eq_true]
  rfl

theorem lettersMerge_merges {n : Nat} {c d : LCopy} {r : List LCopy} (hheld : (peerOf (s.net.rct.lane l) n).held = c :: d :: r)
    (hsame : (d.dyn, d.index, d.round) = (c.dyn, c.index, c.round)) (hl : laneTakes s l = true) : ∃ u, exec (.lettersMerge t l n) s = .next u
      ∧ (peerOf (u.net.rct.lane l) n).held = r.filter (fun d => !(d.dyn == c.dyn && d.index == c.index && d.round == c.round)) := by
  obtain ⟨-, hmerge, -⟩ := lettersMastersAndColdStart t s
  have hc : sameFrame c c = true := sameFrame_of_eq rfl
  have hd : sameFrame c d = true := sameFrame_of_eq hsame
  have htwo : 2 ≤ ((peerOf (s.net.rct.lane l) n).held.filter (sameFrame c)).length := by
    rw [hheld, List.filter_cons_of_pos hc, List.filter_cons_of_pos hd]
    exact Nat.le_add_left ..
  have hdrop : (c :: d :: r).filter (fun d => !sameFrame c d) = r.filter (fun d => !sameFrame c d) := by
    rw [List.filter_cons_of_neg (by rw [hc]; decide), List.filter_cons_of_neg (by rw [hd]; decide)]
  obtain ⟨u, hu, -, -, -, hrest, -⟩ := hmerge l n c (d :: r) hheld hl (.inl htwo)
  exact ⟨u, hu, hrest.trans hdrop⟩

theorem masterDecision_decides (hround : rctRound (atTime t s) l = true) (hst : (s.net.rct.lane l).st = 2 ∨ (s.net.rct.lane l).st = 3) :
    let x := s.net.rct.lane l
    let m := decideMaster (laneRound (atTime t s) l) x.master x.mRound x.times
    ∃ u, exec (.masterDecision t) s = .next u ∧ (u.net.rct.lane l).newMaster = if m = x.master then none else some m := by
  obtain ⟨-, -, -, ⟨u, hu, -, hlanes, -⟩, -⟩ := lettersMastersAndColdStart t s
  refine ⟨u, hu, ?_⟩
  rw [hlanes l, if_pos ⟨hround, hst⟩]

theorem listenTimeout_joins (h : mayColdstart (atTime t s) l = true) :
    ∃ u, exec (.listenTimeout t l) s = .next u ∧ u.net.joined = true ∧ (u.net.rct.lane l).master = nodeId s := by
  obtain ⟨-, -, -, -, hlisten⟩ := lettersMastersAndColdStart t s
  obtain ⟨-, hstarts⟩ := hlisten l
  obtain ⟨u, hu, -, hjoined, -, hmaster, -⟩ := hstarts h
  exact ⟨u, hu, hjoined, hmaster⟩

theorem pollSend_sends {w : Word} (hw : (pollEntries s 0)[(s.net.rct.lane l).pollIx]? = some w) (hlive : pollLive (atTime t s) l = true) (hmaster : pollMaster s = true)
    (hnone : (s.net.rct.lane l).poll = none) (hat : (s.net.rct.lane l).pollAt ≤ t) (hlimit : t + 248 + ((fld w 19 12 * 1000 : Nat) : Int) ≤ pollLimit (atTime t s)) :
    ∃ u p, exec (.pollSend t l) s = .next u ∧ (u.net.rct.lane l).poll = some p ∧ p.addr = fld w 7 0
      ∧ (u.net.rct.lane l).pollIx = (s.net.rct.lane l).pollIx + 1 := by
  obtain ⟨-, hsend, -⟩ := pollsAndRepliesAlternate t l s
  obtain ⟨hmay, -⟩ := hsend w hw
  obtain ⟨u, hu, -, hwith, -⟩ := hmay ⟨hlive, hmaster, hnone, hat, hlimit⟩
  have hlane := lane_of_setLane (l := l) (congrArg (fun u : State => u.net.rct) hwith :)
  exact ⟨u, _, hu, congrArg RctSt.poll hlane, rfl, congrArg RctSt.pollIx hlane⟩

theorem pollReplyTimeout_clears {p : PollOut} (hp : (s.net.rct.lane l).poll = some p) (hmaster : pollMaster s = true) (ht : p.tEnd + p.wait ≤ t) :
    ∃ u, exec (.pollReplyTimeout t l) s = .next u ∧ (u.net.rct.lane l).poll = none ∧ (u.net.rct.lane l).pollAt = t + 2000 := by
  obtain ⟨-, -, -, htimeout, -⟩ := pollsAndRepliesAlternate t l s
  obtain ⟨hends, -⟩ := htimeout p hp
  obtain ⟨u, hu, hwith, -⟩ := hends hmaster ht
  have hlane := lane_of_setLane (l := l) (congrArg (fun u : State => u.net.rct) hwith :)
  exact ⟨u, hu, congrArg RctSt.poll hlane, congrArg RctSt.pollAt hlane⟩

theorem pollReplySend_letters (hreply : (s.net.rct.lane l).reply = some (1, t)) (hlive : pollLive (atTime t s) l = true) :
    ∃ u, exec (.pollReplySend t l) s = .next u ∧ (u.net.rct.lane l).reply = none
      ∧ Out.frame (chanPort s l) t (frameBytes (atTime t s) false l.num 2 false 0 (curRound (atTime t s))
          (lettersPayload (s.net.rct.lane l) (oldest (s.net.rct.lane l) (t - 10000) 63))) ∈ u.out := by
  obtain ⟨-, -, -, -, -, hsend, -⟩ := pollsAndRepliesAlternate t l s
  obtain ⟨-, hletters, -⟩ := hsend 1 t hreply
  obtain ⟨u, hu, hout, hwith⟩ := hletters hlive rfl rfl
  have hlane := lane_of_setLane (l := l) (congrArg (fun u : State => u.net.rct) hwith :)
  exact ⟨u, hu, congrArg RctSt.reply hlane, hout⟩

end

/-! ## Probes -/

section
variable {t : Int} {port : Fin 6} {l : Lane} {s : State}

theorem probeRequestSend_probes (hridge : ridgeLive (atTime t s) = false) (hlane : portLane s port.val = some l) (hround : rctRound (atTime t s) l = true)
    (hdue : probeDue (atTime t s) (s.net.rct.lane l).probed = true) :
    ∃ u, exec (.probeRequestSend t port) s = .next u ∧ (u.net.rct.lane l).dep = t :: (s.net.rct.lane l).dep ∧ Out.probe port.val t 1 0 ∈ u.out := by
  obtain ⟨-, hsend, -⟩ := probesMeasureTheLoop t port 0 [] s
  obtain ⟨u, hu, hif⟩ := hsend l hridge hlane
  rw [if_pos ⟨hround, hdue⟩] at hif
  have hl := lane_of_setLane (l := l) (congrArg (fun u : State => u.net.rct) hif.1 :)
  exact ⟨u, hu, congrArg RctSt.dep hl, hif.2⟩

theorem probeRequestReceive_owes (h : reflects (atTime t s) port.val = true) :
    ∃ u, exec (.probeRequestReceive t port requestSet) s = .next u ∧ u.net.refl = s.net.refl ++ [{ port := port.val, at_ := t }] := by
  obtain ⟨-, -, -, ⟨u, hu, hnet⟩, -⟩ := probesMeasureTheLoop t port 0 requestSet s
  rw [if_pos ⟨rfl, h⟩] at hnet
  exact ⟨u, hu, (congrArg (fun u : State => u.net.refl) hnet :)⟩

theorem probeReflectionSend_reflects {r : Reflect} (hrefl : s.net.refl = [r]) (hport : r.port = port.val) (hidle : tget none port.val s.net.tx = none) (ht : r.at_ + 256 ≤ t) :
    ∃ u, exec (.probeReflectionSend t port) s = .next u ∧ u.net.refl = [] := by
  obtain ⟨-, -, -, -, -, hsend, -⟩ := probesMeasureTheLoop t port 0 [] s
  have hfind : s.net.refl.find? (fun r => r.port == port.val) = some r := by
    rw [hrefl]
    exact List.find?_cons_of_pos (by rw [hport, beq_self_eq_true])
  have hsilent : ¬ ∃ k e, tget none port.val s.net.tx = some (k, e) ∧ k ≤ r.at_ + 256 ∧ r.at_ + 256 < e := by
    rintro ⟨k, e, htx, -⟩
    rw [hidle] at htx
    cases htx
  obtain ⟨-, hdue⟩ := hsend r hfind 0 (.inr ⟨hsilent, rfl⟩)
  obtain ⟨u, hu, hnet, -⟩ := hdue (by simpa using ht)
  refine ⟨u, hu, (congrArg (fun u : State => u.net.refl) hnet :).trans ?_⟩
  show s.net.refl.erase r = []
  rw [hrefl, List.erase_cons_head]

theorem probeReflectionReceive_measures {w : BitVec 16} {d : Int} {r : List Int} (hridge : ridgeLive (atTime t s) = false) (hlane : portLane s port.val = some l)
    (hround : rctRound (atTime t s) l = true) (hdep : (s.net.rct.lane l).dep = d :: r) :
    ∃ u, exec (.probeReflectionReceive t port w) s = .next u ∧ (u.net.rct.lane l).dep = r := by
  obtain ⟨-, -, -, -, -, -, -, hreceive, -⟩ := probesMeasureTheLoop t port w [] s
  obtain ⟨u, hu, hif⟩ := hreceive l hridge hlane
  rw [if_pos hround, hdep] at hif
  have hl := lane_of_setLane (l := l) (congrArg (fun u : State => u.net.rct) hif :)
  exact ⟨u, hu, congrArg RctSt.dep hl⟩

theorem probeLost_drops (hridge : ridgeLive (atTime t s) = false) (hlane : portLane s port.val = some l) :
    ∃ u, exec (.probeLost t port) s = .next u ∧ (u.net.rct.lane l).dep = (s.net.rct.lane l).dep.filter (fun d => decide (t - d < 4000000)) := by
  obtain ⟨-, -, -, -, -, -, -, -, -, hlost⟩ := probesMeasureTheLoop t port 0 [] s
  obtain ⟨u, hu, hnet⟩ := hlost l hridge hlane
  have hl := lane_of_setLane (l := l) (congrArg (fun u : State => u.net.rct) hnet :)
  exact ⟨u, hu, congrArg RctSt.dep hl⟩

end

/-! ## The ridge and the ring -/

section
variable {t : Int} {b : Fin 6} {s : State}

theorem ridgeForward_sends {bytes : List Byte} (hlive : ridgeLive (atTime t s) = true) (hsched : s.net.rdg.sched = false) (htimed : (parseFrame bytes).timed = true)
    (hnode : (parseFrame bytes).node = fld ((parseFrame bytes).word 0) 31 24) (hfirst : s.net.rdg.idleFwd = none) (hbeaten : idleBeaten b.val t s.pending = false) :
    ∃ u, exec (.ridgeForward t b (.frame bytes)) s = .next u ∧ ∀ p : Nat, p < 6 → p ≠ b.val → Out.frame p (t + 1024) bytes ∈ u.out := by
  obtain ⟨-, hidle, -⟩ := ridgeForwardsWithinWindows t b s
  obtain ⟨-, hforward⟩ := hidle bytes hlive hsched htimed hnode
  have hnot : ¬ ((∃ e, s.net.rdg.idleFwd = some e ∧ t < e.2) ∨ idleBeaten b.val t s.pending = true) := by
    rw [hfirst, hbeaten]
    rintro (⟨e, he, -⟩ | h)
    · cases he
    · exact Bool.false_ne_true h
  obtain ⟨u, hu, hout, -⟩ := hforward hnot
  exact ⟨u, hu, hout⟩

theorem ridgeWindowClose_counts {c : Int} (hlive : ridgeLive (atTime t s) = true) (hfwd : (branchOf s b.val).fwd = some c) (hc : c ≤ t) :
    ∃ u, exec (.ridgeWindowClose t b) s = .next u ∧ tget 0 (0xAE00 + 4 * b.val) u.ctr = satAdd 32 (tget 0 (0xAE00 + 4 * b.val) s.ctr) 1 := by
  obtain ⟨-, -, -, -, -, -, -, hclose, -⟩ := ridgeForwardsWithinWindows t b s
  obtain ⟨u, hu, hcounted, -⟩ := hclose ⟨hlive, c, hfwd, hc⟩
  exact ⟨u, hu, hcounted⟩

theorem branchUnblock_restores {k : Nat} (hk : (branchOf s b.val).blocked = some k) (hround : k ≤ curRound (atTime t s)) : ∃ u, exec (.branchUnblock t b) s = .next u
      ∧ u.net.rdg.branches = setNth s.net.rdg.branches b.val { branchOf s b.val with blocked := none, viol := 0, violNow := false } := by
  obtain ⟨-, -, -, -, -, -, -, -, -, hreturns, -⟩ := ridgeForwardsWithinWindows t b s
  obtain ⟨u, hu, hnet⟩ := hreturns k hk hround
  exact ⟨u, hu, (congrArg (fun u : State => u.net.rdg.branches) hnet :)⟩

theorem ridgeIdleTimeout_idles (hlive : ridgeLive (atTime t s) = true) (hsched : s.net.rdg.sched = true) (hnone : s.net.rdg.mRound = none) :
    ∃ u, exec (.ridgeIdleTimeout t) s = .next u ∧ u.net.rdg.sched = false := by
  obtain ⟨-, -, -, -, -, -, -, -, -, -, -, hidles, -⟩ := ridgeForwardsWithinWindows t 0 s
  obtain ⟨u, hu, hoff, -⟩ := hidles ⟨hlive, hsched, fun k hk => by rw [hnone] at hk; cases hk⟩
  exact ⟨u, hu, hoff⟩

theorem ringFrameReceive_removes {f : FrameRx} (hlive : rswLive (atTime f.tEnd s) = true) (hport : f.port = 2) (hcode : (heardRx (atTime f.tEnd s) f).codeOk = true)
    (hlen : lengthOk (atTime f.tEnd s) (parseFrame f.bytes) = true) (hcrc : (parseFrame f.bytes).crcOk = true) (hring : (parseFrame f.bytes).ring = true)
    (hnode : (parseFrame f.bytes).node = nodeId s) :
    ∃ u, exec (.ringFrameReceive f) s = .next u ∧ u.ctr = (bump 0xAC04 s).ctr ∧ u.net.ring = s.net.ring := by
  obtain ⟨hreceive, -⟩ := ringPassesRemovesAndHeals 0 s
  obtain ⟨-, -, hown, -⟩ := hreceive f
  obtain ⟨u, hu, heq⟩ := hown hlive hport hcode hlen hcrc hring hnode
  exact ⟨u, hu, (congrArg State.ctr heq :), (congrArg (fun u : State => u.net.ring) heq :)⟩

theorem ringFrameSend_takes {x : List Byte} {q : List (List Byte)} (hlive : rswLive (atTime t s) = true) (hwhole : s.net.ring.rp3Broken = false)
    (hq : s.net.ring.q3 = x :: q) : ∃ u, exec (.ringFrameSend t .towardRp3) s = .next u ∧ u.net.ring.q3 = q := by
  obtain ⟨-, hsend, -⟩ := ringPassesRemovesAndHeals t s
  obtain ⟨-, hsends⟩ := hsend .towardRp3
  obtain ⟨u, hu, heq, -⟩ := hsends x q hlive hwhole hq
  exact ⟨u, hu, (congrArg (fun u : State => u.net.ring.q3) heq :)⟩

theorem ringPortBreak_breaks (hlive : rswLive (atTime t s) = true) (hwhole : s.net.ring.rp3Broken = false) :
    ∃ u, exec (.ringPortBreak t true) s = .next u ∧ u.net.ring.rp3Broken = true := by
  obtain ⟨-, -, hbreak, -⟩ := ringPassesRemovesAndHeals t s
  obtain ⟨-, hbreaks⟩ := hbreak true _ _ (.inl ⟨rfl, rfl⟩)
  obtain ⟨u, hu, -, h3, -⟩ := hbreaks hlive hwhole
  exact ⟨u, hu, h3.trans (Bool.or_true _)⟩

theorem rpLos_breaks (hlive : rswLive (atTime t s) = true) (hwhole : s.net.ring.rp2Broken = false) :
    ∃ u, exec (.rpLos t 2) s = .next u ∧ u.net.ring.rp2Broken = true := by
  obtain ⟨-, -, hbreak, -⟩ := ringPassesRemovesAndHeals t s
  obtain ⟨-, hbreaks⟩ := hbreak false (.rpLos t 2) _ (.inr ⟨rfl, rfl⟩)
  obtain ⟨u, hu, -, -, h2, -⟩ := hbreaks hlive hwhole
  exact ⟨u, hu, h2.trans (Bool.or_true _)⟩

theorem ringPortReturn_mends (hlive : rswLive (atTime t s) = true) (hbroken : s.net.ring.rp3Broken = true) :
    ∃ u, exec (.ringPortReturn t true) s = .next u ∧ u.net.ring.rp3Broken = false := by
  obtain ⟨-, -, -, -, hreturn⟩ := ringPassesRemovesAndHeals t s
  obtain ⟨-, hheals⟩ := hreturn true
  obtain ⟨u, hu, heq⟩ := hheals hlive hbroken
  exact ⟨u, hu, (congrArg (fun u : State => u.net.ring.rp3Broken) heq :)⟩

end

/-- Settles O60: of each command one effect, from the statements of its family. -/
theorem commandsTakeEffect : Obligations.CommandsTakeEffect := by
  unfold Obligations.CommandsTakeEffect
  refine ⟨fun c s => ?hosts, fun t s hup => ?rings, fun t i s => ?syncs, fun t s => ?power, fun t n s hfield hon hlen => ?legacy, fun t s hfield hridge hpower hlife => ?bus,
    fun t l s => ?lanes, fun t port l s => ?probes, fun t b s => ?ridge, fun t s => ?ring⟩
  case hosts =>
    exact ⟨fun _ h hnow hi hrun hearly => filterSync_joins h hnow hi hrun hearly, fun _ _ h hcross hfresh hr hl => headFlush_empties h hcross hfresh hr hl,
      fun h hs ho => laneRetire_silences h hs ho, fun h hok hnot => lifecycleSet_sets h hok hnot, fun h hup => attest_completes h hup,
      fun h hv hp => powerRequest_setsLean h hv hp, fun h hv hmay => powerRequest_standsBy h hv hmay⟩
  case rings => exact ⟨hreKnock_knocks hup, hreCtlRun_writes hup, fun r v hoff hlow hhigh => hreRingEnable_writes hup r v hoff hlow hhigh⟩
  case syncs =>
    exact ⟨fun hi hon hrun hactive hnone => syncInEdge_joins hi hon hrun hactive hnone, fun hi hactive hrun => fchSyncntArm_joins hi hactive hrun,
      fun _ _ hz hsig hroom => zoneSample_takes hz hsig hroom⟩
  case power =>
    obtain ⟨-, hpace, hband, hbudget⟩ := powerRequestsAndBandsKeepFloors
    refine ⟨fun p m hp hup hgrant => ?_, fun d => ?_, fun m hup hoff hstandby => ?_⟩
    · obtain ⟨hgranted, -⟩ := hpace t p m s
      obtain ⟨u, hu, hraised, -⟩ := hgranted ⟨hp, hup⟩ hgrant
      exact ⟨u, hu, hraised⟩
    · obtain ⟨u, hu, heq⟩ := hband t d s
      refine ⟨u, hu, congrArg DomSt.settle ((congrArg (fun u : State => u.dom.get d) heq :).trans (get_put ..))⟩
    · obtain ⟨hperiod, -⟩ := hbudget t m s
      obtain ⟨u, hu, hi, htj, -⟩ := hperiod hup hoff hstandby
      exact ⟨u, hu, hi, htj⟩
  case legacy =>
    intro x
    exact ⟨clampTrip_clamps ⟨hfield, hon⟩ hlen, fun _ hk => clampRelease_frees hk, fun _ htones hen hfault ht => toneBurstStart_starts ⟨hfield, hon⟩ hlen htones hen hfault ht,
      fun _ hb hpast => toneBurstEvaluate_clears hlen hb hpast,
      fun _ hhost hlands hlow hhigh hnone => lhfExcitationChange_waits hfield hlen hhost hlands hlow hhigh hnone,
      fun u2 code hwait hroutine ht => sarConversion_frees ⟨hfield, hon⟩ u2 code hwait hroutine ht, fun a b ht => routineConversion_turns ⟨hfield, hon⟩ a b ht,
      fun r hurg => urgentConversion_waits ⟨hfield, hon⟩ r hurg⟩
  case bus =>
    intro b
    have hlives : ∀ {m}, s.net.bus.mode = m → BusLives s s.net.bus m := fun hm => ⟨hfield, hridge, hpower, hlife, hm⟩
    exact ⟨fun hmode hrun hreply hwalk hentries => legacyWalkStart_walks ⟨hfield, hridge, hpower, hlife⟩ hmode hrun hreply hwalk hentries,
      fun _ hw hmode hrun hout hnext => legacyPollSend_sends (hlives hmode) hw hrun hout hnext, fun _ hp hmode ht => legacyReplyTimeout_clears (hlives hmode) hp ht,
      fun _ _ _ hr hmode hp hcause => legacyReplyReceive_serves (hlives hmode) hr hp hcause,
      fun _ _ _ hr hmode hreply hstops hlen hpoll hcrc hshown => legacyPollReceive_answers (hlives hmode) hr hreply hstops hlen hpoll hcrc hshown,
      fun _ _ _ hreply hmode hshown => legacyReplySend_clears (hlives hmode) hreply hshown⟩
  case lanes =>
    intro a x
    refine ⟨fun _ _ _ _ hheld hsame hl => lettersMerge_merges hheld hsame hl, fun hround hst => masterDecision_decides hround hst, fun h => listenTimeout_joins h,
      fun _ hw hlive hmaster hnone hat hlimit => pollSend_sends hw hlive hmaster hnone hat hlimit, fun _ hp hmaster ht => pollReplyTimeout_clears hp hmaster ht,
      fun hreply hlive => pollReplySend_letters hreply hlive, fun f hport hlive hslave hcause htype hnode => ?_⟩
    obtain ⟨-, -, -, -, -, -, hreceive⟩ := pollsAndRepliesAlternate t l s
    obtain ⟨-, -, hpolled⟩ := hreceive f
    obtain ⟨-, hanswer⟩ := hpolled _ (.inl ⟨rfl, hslave⟩) hport hlive
    obtain ⟨u, hu, -, -, hreply⟩ := hanswer hcause htype
    exact ⟨u, hu, hreply hnode⟩
  case probes =>
    intro a x hridge hlane hround
    exact ⟨fun hdue => probeRequestSend_probes hridge hlane hround hdue, fun h => probeRequestReceive_owes h,
      fun _ hrefl hport hidle ht => probeReflectionSend_reflects hrefl hport hidle ht, fun _ _ _ hdep => probeReflectionReceive_measures hridge hlane hround hdep,
      probeLost_drops hridge hlane⟩
  case ridge =>
    intro a r br hlive
    exact ⟨fun _ hsched htimed hnode hfirst hbeaten => ridgeForward_sends hlive hsched htimed hnode hfirst hbeaten, fun _ hfwd hc => ridgeWindowClose_counts hlive hfwd hc,
      fun _ hk hround => branchUnblock_restores hk hround, fun hsched hnone => ridgeIdleTimeout_idles hlive hsched hnone⟩
  case ring =>
    exact ⟨fun _ hlive hport hcode hlen hcrc hring hnode => ringFrameReceive_removes hlive hport hcode hlen hcrc hring hnode,
      fun _ _ hlive hwhole hq => ringFrameSend_takes hlive hwhole hq, fun hlive hwhole => ringPortBreak_breaks hlive hwhole,
      fun hlive hwhole => rpLos_breaks hlive hwhole, fun hlive hbroken => ringPortReturn_mends hlive hbroken⟩

end Sys2Proof.Proofs
end
